-- ==== Sys2Proof/Word.lean ====
section
/-! DEFINITION. The word types of the NQ7 model. Bytes are numbered and stored little-endian (R5, R6);
bit-field helpers stand in Machine/Bits.lean. -/

namespace Sys2Proof

/-- One byte. -/
abbrev Byte := BitVec 8

/-- One 32-bit word of a descriptor or record (R66 and the other layout rules). -/
abbrev W32 := BitVec 32

/-- One 64-bit word. -/
abbrev W64 := BitVec 64

/-- A byte string, lowest address first (R5). -/
abbrev Bytes := List Byte

/-- A sequence of 32-bit words, offset 0 first. -/
abbrev Words := List W32

end Sys2Proof
end

