-- ==== Sys2Proof/Syntax.lean ====
section
/-! DEFINITION. The commands of the NQ7: one constructor of `Instr` per row of spec/opcode_table.json, with the
operands the row's chapter gives it, and the plain data those operands are made of. -/

namespace Sys2Proof

/-! ## Dictionary protocol messages (chapter 15) -/

/-- The transports of Table 15.1. -/
inductive Transport where
  | t1s
  | host (port : Nat)
  | relay (dev : Nat)
  deriving DecidableEq, Repr

/-- The header of an EDP message (Table 15.2) with what the datagram tells beside it: where it came from, its length
and whether its tag verifies (R350, R351). -/
structure EdpHdr where
  transport : Transport
  /-- source address and UDP port, as one number -/
  peer : Nat
  magic : BitVec 16
  version : BitVec 8
  reserved : BitVec 15
  bodyLen : Nat
  datagramLen : Nat
  session : BitVec 32
  seq : Nat
  target : Nat
  tagOk : Bool
  deriving DecidableEq, Repr

/-- The bodies of Table 15.3 a driver sends. Type codes are those of Table 15.5. -/
inductive EdpBody where
  | read (idx sub : Nat)
  | write (idx sub ty : Nat) (val : Bytes)
  | readBlock (idx sub off len : Nat)
  | writeBlock (idx sub ty off total : Nat) (final : Bool) (data : Bytes)
  | subscribe (kinds classes : BitVec 16)
  | ack (ackSeq : Nat)
  deriving DecidableEq, Repr

/-! ## Recipe containers (chapters 7 to 11, 14 and 19) -/

/-- One entry of a core program. The instruction words are those of Tables 03.2, 06.1, 06.5, 05.6 and 06.9; the manual
gives no layout for the program around them, so the binding of contexts to stream descriptors (R108) and the sideline
commands that follow an instruction (R117, R143) stand here as lists. -/
inductive ProgItem where
  | matrix (desc : Words) (streams : List (Nat × Words)) (side : List Words)
  | vector (desc : Words) (streams : List (Nat × Words)) (side : List Words)
  | row (desc : Words) (streams : List (Nat × Words)) (side : List Words)
  | sideline (cmd : Words)
  | barrier (desc : Words)
  deriving DecidableEq, Repr

/-- What a declared region of the budgets section is for (R98, R127, R153, R168, R319, R339). -/
inductive RegionKind where
  | ring | residency | gatherBuf | work | spill
  | activation | window | factor | ingest | inboxIn | inboxOut | state | other
  deriving DecidableEq, Repr

/-- A declared region: of a core's tile store when `core` is given, of main memory otherwise. `weight`: for a factor or
window region, the weight record it belongs to (R169, R174). `tie`: for a factor region that brings a use on another
device to the owner, its tie group and index (R176). -/
structure Region where
  kind : RegionKind
  weight : Nat
  tie : Option (Nat × Nat)
  core : Option Nat
  base : Nat
  size : Nat
  stride : Nat
  resident : Bool
  writable : Bool
  persistent : Bool
  home : Nat
  deriving DecidableEq, Repr

/-- Side-memory statistics a core declares (R153); its spill region is a region of its tile store. -/
structure StatBudget where
  core : Nat
  count : Nat
  accLo : Nat
  accHi : Nat
  deriving DecidableEq, Repr

/-- A staged Fengus container (R427, R428): the words of its header and of the sections whose layout the manual gives,
the content of those it gives no layout for, and whether its signature verifies under the key it names. -/
structure Container where
  header : Words
  sects : List Nat
  signer : Bytes
  sigOk : Bool
  /-- the signature block's last 16 bytes are zero -/
  tailZero : Bool
  layerSec : Words
  kernelSec : Words
  collSec : Words
  interSec : Words
  rootSec : Words
  budgetSec : Words
  evalSec : Words
  /-- program p, core by core -/
  programs : List (List (Nat × List ProgItem))
  regions : List Region
  stats : List StatBudget
  deriving DecidableEq, Repr

/-- The 128-bit data cursor of R331. -/
structure Cursor where
  epoch : Nat
  shard : Nat
  off : Nat
  deriving DecidableEq, Repr

/-- A sample of the split queue (R282): the storage location of its record, as target index, namespace and byte address in
it, and its length in tokens. -/
structure SplitEntry where
  tgt : Nat
  ns : Nat
  addr : Nat
  tokens : Nat
  deriving DecidableEq, Repr

/-- A checkpoint slot as read back from storage (R334). `contentOk`: the content digest verifies. -/
structure CkptImage where
  step : Nat
  digest : Bytes
  cursor : Cursor
  queue : List SplitEntry
  content : Bytes
  contentOk : Bool
  deriving DecidableEq, Repr

/-- What START reads from the NVMe targets (R329, R336). `blk4k`: the (target, namespace) pairs whose logical blocks are
4,096 bytes, those of the others being 512 (Table 14.2). -/
structure Install where
  nsOk : Bool
  blk4k : List (Nat × Nat)
  image : Option Bytes
  slotA : CkptImage
  slotB : CkptImage
  deriving DecidableEq, Repr

/-! ## Outcomes of physical processes, supplied by the event -/

/-- The identity a peer sends on a trained port (R303). -/
structure Identity where
  dev : Nat
  port : Nat
  mode : Nat
  ny : Nat
  nz : Nat
  nq7 : Bool
  deriving DecidableEq, Repr

/-- The outcomes proofing meets (Tables 17.3, 18.1 and 18.3). -/
structure ProofInput where
  /-- a rail that did not come good: row 1 to 7 of Table 18.3 and the hearth of VCORE (0xF otherwise) -/
  railFail : Option (Nat × Nat)
  /-- physical cores 100 h + p whose BIST failed, with the slice of Table 18.4 that failed -/
  badCores : List (Nat × Nat)
  /-- first hearth unit 1 to 5 of Table 18.3 that failed, as (hearth, unit) -/
  unitFail : Option (Nat × Nat)
  /-- disabled pantry ways as (hearth, set, way) -/
  badWays : List (Nat × Nat × Nat)
  /-- unusable starter-table words as (hearth, word) -/
  badStarters : List (Nat × Nat)
  /-- leaven cells 16 h + cell whose memory failed its march, and those whose MAC-block signature differs -/
  badCells : List Nat
  sigCells : List Nat
  /-- trained pin rate of each of the 24 channels, 0 when it failed at 28 Gbit/s -/
  rates : List Nat
  /-- good lanes of each port at order 9, 0 when it did not train at order 7 -/
  lanes : List Nat
  /-- identity met on each port -/
  ids : List (Nat × Identity)
  /-- link of the two host ports at order 7 -/
  hostUp : List Bool
  deriving DecidableEq, Repr

/-- One governor sample (R392, Table 16.3). Temperatures are in 0.01 degree. -/
structure Meas where
  inputMw : Nat
  inputMv : Nat
  inputMa : Nat
  tj : List Int
  inlet : Int
  outlet : Int
  crust : Int
  gddr : Int
  regulator : Int
  deriving DecidableEq, Repr

/-- The statements of Table 19.3. `sig1Ok`, `sig2Ok`: the signature holds under the key Table 19.2 requires at that place. -/
structure Statement where
  stype : Nat
  slot : Nat
  right : Nat
  reserved : Nat
  ctr : Nat
  serial : Bytes
  key : Bytes
  sig1Ok : Bool
  sig2Ok : Bool
  sig2Zero : Bool
  deriving DecidableEq, Repr

/-- A client hello (R349). -/
structure Hello where
  ephemeral : Bytes
  nonce : Bytes
  keyDigest : Bytes
  right : Nat
  sigOk : Bool
  deriving DecidableEq, Repr

/-- The commit messages of Table 10.5 (R262): every one carries job digest, step, attempt and sender; ABORT also origin
and cause, ABORT_REQ the cause, HALT the halt code, DECISION the outcome. -/
structure CommitMsg where
  digest : W64
  step : Nat
  attempt : Nat
  sender : Nat
  code : Nat
  origin : Nat
  commit : Bool
  deriving DecidableEq, Repr

/-- The header of a fabric packet (Table 12.1) and its payload. -/
structure Packet where
  dst : Nat
  src : Nat
  vl : Nat
  origVl : Nat
  escClass : Nat
  kind : Nat
  hops : Nat
  dstHearth : Nat
  dstCore : Nat
  flow : Nat
  attempt : Nat
  dstCtx : Nat
  step : Nat
  seq : Nat
  offset : Nat
  /-- CRC-32C of the payload as the header carries it -/
  pcrc : Nat
  nstatus : Nat
  payload : Bytes
  deriving DecidableEq, Repr

/-- How a packet came in over a link (R289, R290): the port, the link sequence number of its header flit, the codewords
the code corrected, and whether one of its codewords could not be corrected. -/
structure LinkIn where
  port : Nat
  seqNo : Nat
  fixed : Nat
  bad : Bool
  deriving DecidableEq, Repr

/-- What a frame received on a host port carries (Table 14.1, R326). -/
inductive FrameBody where
  | icmpEcho | neighbourDiscovery | arp
  /-- UDP to the EDP port 4470: its message arrives as a dictionary command of its own -/
  | edp
  /-- an RoCEv2 packet of connection `conn` -/
  | roce (conn : Nat)
  /-- an RDMA WRITE of an inbox client to byte `off` of the inbox region -/
  | inboxWrite (conn off : Nat) (data : Bytes)
  | fragment | dhcp | tcp | pause | other
  deriving DecidableEq, Repr

/-- A received Ethernet frame. -/
structure Frame where
  port : Nat
  len : Nat
  /-- VLAN identifier, none when untagged -/
  vlan : Option Nat
  unicastOk : Bool
  /-- congestion experienced -/
  ce : Bool
  body : FrameBody
  deriving DecidableEq, Repr

/-- Memories of Table 20.2 kinds 1 to 6 in which an uncorrectable group is found (R105). -/
inductive SramKind where
  | tile | side | desc | cell | starter | pantry
  deriving DecidableEq, Repr

/-- Who reads an uncorrectable block (Table 13.3). -/
inductive EccReader where
  | stepWork | evaluation | prefetch | steward | checkpoint | other
  deriving DecidableEq, Repr

/-- One wrong symbol of a codeword: its number and the bits flipped (R93, R313). -/
structure SymErr where
  sym : Nat
  mask : BitVec 16
  deriving DecidableEq, Repr

/-- An on-chip word read with an error pattern (R93). -/
structure WordRead where
  word : Nat
  err : List SymErr
  deriving DecidableEq, Repr

/-- What patrol scrubbing finds in a block (R317): the error pattern, and the corrections the devices report of their own
(0x4100:06). -/
structure ScrubRead where
  err : List SymErr
  onDie : Nat
  deriving DecidableEq, Repr

/-- A step and an attempt at it (R264). -/
structure StepAttempt where
  step : Nat
  attempt : Nat
  deriving DecidableEq, Repr

/-- A credit report (R121): the slots the partner has reported on a context in the attempt, this report's among them. -/
structure CreditReport where
  tiles : Nat
  step : Nat
  attempt : Nat
  deriving DecidableEq, Repr

/-- What a delivered root brings beside its tiles: `START_KIND` and `ESC` of the owner's record, and the slot's header
(R216, R217). -/
structure RootHead where
  kind : Nat
  esc : Nat
  header : Bytes
  deriving DecidableEq, Repr

/-- The waits of R267 and Table 20.2, code 0x0503. -/
inductive WaitKind where
  | bucket | stream | prepare | decision
  deriving DecidableEq, Repr

/-- The points at which elective work is admitted (Table 17.8). -/
inductive AdmitPoint where
  | bubble (group : Nat)
  | order7
  deriving DecidableEq, Repr

/-- The outcome of a root decision message (R218). -/
inductive RootOutcome where
  | new | missed | abandoned
  deriving DecidableEq, Repr

/-- What a BIST slice finds (Table 18.5): does it pass, and the signature obtained. -/
structure BistResult where
  pass : Bool
  /-- an uncorrectable save line was met at order 5 (Table 18.6) -/
  saveBad : Bool
  obtained : W64
  deriving DecidableEq, Repr

/-- An error pattern a read met (R93, R94, R313, R314): the memory kind of Table 20.2, the core, cell, hearth or channel,
the words w1 to w5 of its record (word or group, physical and virtual address), and the pattern. -/
structure Corrected where
  kind : Nat
  unit : Nat
  place : Nat
  pa : Nat
  va : Nat
  err : List SymErr
  deriving DecidableEq, Repr

/-- The commands of the NQ7, one per row of the table of operations and events. -/
inductive Instr where
  -- job commands (chapter 16)
  | load (h : EdpHdr)
  | start (h : EdpHdr) (inst : Install)
  | pause (h : EdpHdr)
  | resume (h : EdpHdr)
  | stop (h : EdpHdr)
  | abortStep (h : EdpHdr)
  | checkpointNow (h : EdpHdr)
  -- power states (chapters 12, 16 to 18)
  | sleep (h : EdpHdr)
  | wake (h : EdpHdr)
  | wakePacket (src : Nat)
  | standby (h : EdpHdr)
  | proof (h : EdpHdr)
  | proofing (p : ProofInput)
  -- self-test (chapter 18)
  | selfTestQueued (h : EdpHdr) (target : Nat)
  | selfTestImmediate (h : EdpHdr) (target : Nat)
  | bistSlice (r : BistResult)
  -- fabric entries and log (chapters 12, 16)
  | reconfigure (h : EdpHdr)
  | portTrainTimeout (port : Nat)
  | clearLogRing (h : EdpHdr)
  | clearFaultLog (h : EdpHdr)
  | consume (h : EdpHdr) (slot seqNo : Nat)
  | closeSession (h : EdpHdr) (sid : BitVec 32)
  | clientHello (h : EdpHdr) (hello : Hello)
  -- security (chapter 19)
  | enrolOwner (h : EdpHdr) (st : Statement)
  | enrolClient (h : EdpHdr) (st : Statement)
  | release (h : EdpHdr) (st : Statement)
  | lock (h : EdpHdr) (st : Statement)
  | revoke (h : EdpHdr) (st : Statement)
  | attestationNonce (h : EdpHdr) (nonce : Bytes)
  -- dictionary (chapter 15)
  | recipeStaging (h : EdpHdr) (off total : Nat) (final : Bool) (data : Bytes) (content : Container)
  | laneMaskWrite (h : EdpHdr) (port mask : Nat)
  | coordinateWrite (h : EdpHdr) (sub value : Nat)
  | spareSubstitution (h : EdpHdr) (port value : Nat)
  | writeEntry (h : EdpHdr) (idx sub ty : Nat) (val : Bytes)
  | read (h : EdpHdr) (idx sub : Nat)
  | readBlock (h : EdpHdr) (idx sub off len : Nat)
  | writeBlock (h : EdpHdr) (idx sub ty off total : Nat) (final : Bool) (data : Bytes)
  | subscribe (h : EdpHdr) (kinds classes : BitVec 16)
  | eventAck (h : EdpHdr) (ackSeq : Nat)
  | eventResendTimer (sub evSeq : Nat)
  | relayRequest (h : EdpHdr) (body : EdpBody)
  | relayPacket (dev : Nat) (h : EdpHdr) (body : EdpBody)
  | relayRecordExpiry (target : Nat) (session : BitVec 32) (seq : Nat)
  | sessionIdleTimeout (sid : BitVec 32)
  | helloTagTimeout (sid : BitVec 32)
  | writeBlockHoldTimeout (idx sub : Nat)
  -- cores (chapters 3 to 6)
  | matrixOperation (core : Nat)
  | matrixOperationComplete (core : Nat)
  | splitKCombine (core level : Nat)
  | vectorInstruction (core : Nat)
  | rowOperation (core : Nat)
  | groupBarrier (core : Nat)
  | sidelineTransfer (core : Nat)
  | streamAdmission (core : Nat)
  | dataTileFetch (core ctx : Nat) (corr : Option Corrected)
  | streamCreditReport (core ctx : Nat) (r : CreditReport)
  | streamRetire (core ctx : Nat)
  | streamStall (core ctx : Nat)
  | pantryPrefetch (core ctx : Nat)
  | translationMiss (core ctx : Nat) (va : Nat) (write : Bool)
  | itemDrainComplete (group : Nat)
  | translationMapped (group va : Nat)
  | workItemReplay (group : Nat)
  | replayBoundExpiry (group : Nat)
  -- memories (chapters 4 and 13)
  | sramUncorrectable (kind : SramKind) (unit : Nat) (r : WordRead)
  | gddr7Uncorrectable (channel pa va : Nat) (reader : EccReader) (err : List SymErr)
  | patrolScrub (block : Nat) (r : ScrubRead)
  | coreFenced (phys : Nat)
  -- the step (chapter 7)
  | interleaveSlotStart (group : Nat)
  | workItemComplete (group : Nat)
  | electiveAdmission (point : AdmitPoint)
  -- ingest and host ports (chapter 14)
  | ingestPacking
  | nvmeReadComplete (cid status : Nat) (data : Bytes)
  | nvmeReadTimeout (cid status : Nat)
  | nvmeKeepAlive (tgt : Nat)
  | ingestBoundExpiry (late : Nat)
  | splitNotice (src step : Nat) (samples : List SplitEntry)
  | hostPortLinkLoss (port : Nat)
  | congestionNotification (conn : Nat)
  -- collectives and commit (chapter 10)
  | collectiveStart (coll mb : Nat)
  | collectivePacket (p : Packet)
  | collectiveComplete (coll : Nat)
  | rootDelivery (src weight side block slot due source : Nat) (head : RootHead) (tiles : Bytes)
  | commitPhaseOne
  | prepare (m : CommitMsg)
  | commit (m : CommitMsg)
  | abort (m : CommitMsg)
  | abortReq (m : CommitMsg)
  | query (m : CommitMsg)
  | decision (m : CommitMsg)
  | halt (m : CommitMsg)
  | higherAttempt (m : CommitMsg) (isAbort : Bool) (data : Option Packet)
  | partnerSilent (wait : WaitKind) (partner item detail : Nat)
  | commitOutcomeSilence
  | digestExchange (sender : Nat) (digest : W64)
  -- the boundary (chapters 1, 7, 14)
  | stepBoundary
  | pausedCycle
  | evaluationSegment
  | responseTimeout (slot : Nat)
  | inboxClientConnect (addr : Nat)
  | evaluationBudgetExpiry
  | checkpointWrite
  | flushComplete
  | checkpointBudgetExpiry
  | boundaryBudgetExpiry
  -- roots (chapter 8)
  | factorFold
  | rootProblemAdmission (prob : Nat)
  | borrowedPiece (prob : Nat)
  | borrowedPieceComplete (prob : Nat)
  | rootProblemDecided (prob : Nat)
  | rootCommit (prob : Nat)
  | rootDecisionMessage (src weight side block : Nat) (att : StepAttempt) (slot : Nat) (outcome : RootOutcome)
  -- fabric (chapter 12)
  | laneFailure (port : Nat)
  | retrainComplete (port lanes : Nat)
  | portDown (port : Nat)
  | linkStateAnnouncement (dev port : Nat) (up : Bool)
  | downPortRetry (port : Nat) (ok : Bool)
  | packetForward (inPort : Option LinkIn) (p : Packet)
  | linkReplayRequest (port seqNo : Nat)
  | hush (port : Nat)
  | hushLapse (port : Nat)
  | overlongHush (port : Nat)
  | identityExchange (port : Nat) (id : Identity)
  -- pins, rails and the governor (chapters 17 and 21)
  | pwrEnRise
  | pwrEnFall
  | interlockOpen
  | resetNAssert
  | resetNRelease
  | stbyGood (slotId : Nat) (bankAOk bankBOk : Bool)
  | railTimeout (row hearth : Nat)
  | railFault (row : Nat)
  | inputVoltageFault (mv : Nat)
  | inputLoss
  | overcurrent
  | thermalTrip
  | governorDecision (m : Meas)
  | gatingHoldLimit (group : Nat)
  | alertReleaseTimer
  -- host-port and link events
  | ethernetFrameReceived (f : Frame)
  | pfcFrame (port prio : Nat) (quanta : Nat)
  | hostPortLinkUp (port : Nat)
  | plcaBeaconLost
  | plcaBeaconSeen
  | nvmeWriteComplete
  | linkAcknowledgment (port seqNo : Nat)
  | linkCreditReturn (port vl cls flits : Nat)
  | rootDeliveryAck (prob dev : Nat)
  | hushHoldEnd (port : Nat)
  | responseWriteRejected (slot : Nat)
  deriving DecidableEq, Repr

end Sys2Proof
end

