-- ==== Sys2Proof/Decode.lean ====
section
/-! DEFINITION. Commands from table words: the table of operations and events gives no row any bits. -/

namespace Sys2Proof

/-- No word spells a command. -/
def decodeTableWord (_nbits _w : Nat) : Option Instr := none

end Sys2Proof
end

