-- ==== Sys2Proof/Config.lean ====
section
/-! DEFINITION. What the manual leaves to the implementation or does not state: constants without a body.
No proof can see a value of one of these, so every claim holds whatever they are. -/

namespace Sys2Proof.Config

/-- Serial number, 0x1000:03 (12 characters; R367 gives no value). -/
opaque serial : Bytes
/-- MAC addresses of host port 0, host port 1 and the T1S port (0x1000:04 to :06). -/
opaque mac : Nat → Bytes
/-- Boot ROM version text, 0x1008:01. -/
opaque bootRomVersion : Bytes
/-- Steward and hearth firmware version texts of the image with this digest, 0x1008:02 and :03. -/
opaque firmwareVersion : Nat → Bytes → Bytes
/-- Device identity certificate chain, 0x1100:0B (R422). -/
opaque certificateChain : Bytes
/-- Digest of the factory key (R424). -/
opaque factoryKeyDigest : Bytes
/-- Digest of the vendor's release key (chapter 19). -/
opaque releaseKeyDigest : Bytes
/-- SHA-384 of a byte string, 48 bytes (named by R427 and R428; the algorithm is FIPS 180-4's). -/
opaque sha384 : Bytes → Bytes
/-- The 64-bit digest of R271 over the job member list, member lists and count tables; the manual names no algorithm. -/
opaque jobDigest : List Nat → List Nat → W64
/-- Signature by the identity key over a digest, 96 bytes (R350, R430). -/
opaque identitySign : Bytes → Bytes
/-- The n-th ephemeral public key and device nonce of the steward's random source (R431). -/
opaque ephemeral : Nat → Bytes
opaque deviceNonce : Nat → Bytes
/-- A candidate session identifier (R350 asks only that it be nonzero and unique). -/
opaque sessionCandidate : Nat → BitVec 32
/-- Base offset of the inbox region announced to clients, 0x9200:04. -/
opaque inboxBase : Nat
/-- Version of a value at an entry, by 256 × index + subindex and value (R348 asks that it change with the value and gives no
number). -/
opaque valueVersion : Nat → Bytes → W32
/-- Where the steward keeps the level-one translation table, and the level-two table of a level-one index, as 4 KiB frames
of its pages (R125 gives no address). -/
opaque tableRoot : Nat
opaque levelTwo : Nat → Nat
/-- The 8 bytes of check symbols of a 128-byte data block (R313 names the code's field and its symbols, not its generator). -/
opaque rsCheck : Bytes → Bytes
/-- The n-th value the manual leaves open, as a binary32 pattern. -/
opaque freeWord : Nat → W32
/-- The n-th open byte string: what stands in a delivered tile where no element fills it. -/
opaque freeBytes : Nat → Bytes
/-- What R195 and R200 leave open of the leaven engine's scalar arithmetic: whether a product is rounded before it is
added, whether a quotient is a division or a product with a rounded reciprocal (in `norm2`, in a panel's factorisation and
in `tri_inverse`), and the order in which `norm2` adds n squares. -/
opaque fusedAdd : Nat → Bool
opaque byReciprocal : Nat → Bool
opaque normOrder : Nat → List Nat
/-- Which of the seven places of a work area holds the copy of B (R192, R201). -/
opaque workPlace : Nat
/-- What a periodic segment publishes: a function of its identifier, the committed step, and the committed state (R183;
R185 states no source). -/
opaque segmentValue : Nat → Nat → Bytes → Bytes
/-- MISR signature the firmware image holds for a unit (R407; the values are not in the manual). -/
opaque goldenSignature : Nat → W64

/-- Digest and security version of the firmware image a new module's bank A or B holds (R418; the manual gives no
content). Argument: false for bank A. -/
opaque factoryImageDigest : Bool → Bytes
opaque factorySvn : Nat

end Sys2Proof.Config
end

