-- ==== Sys2Proof/Machine/Bits.lean ====
section
/-! DEFINITION. Bit fields and byte order (R5, R6), division rounding up, and keyed tables as lists. -/

namespace Sys2Proof.Machine

/-- Bits `[hi:lo]` of a descriptor word as a number (R5). -/
def fld (w : W32) (hi lo : Nat) : Nat := (w.toNat >>> lo) % 2 ^ (hi + 1 - lo)

/-- One bit of a descriptor word. -/
def bit (w : W32) (i : Nat) : Bool := w.getLsbD i

/-- Word `i` of a descriptor; 0 beyond its end. -/
def word (ws : Words) (i : Nat) : W32 := ws.getD i 0

/-- The `k` little-endian bytes of a number (R6). -/
def leBytes : Nat → Nat → Bytes
  | 0, _ => []
  | k + 1, n => BitVec.ofNat 8 n :: leBytes k (n / 256)

/-- The number little-endian bytes hold (R6). -/
def ofLe : Bytes → Nat
  | [] => 0
  | b :: bs => b.toNat + 256 * ofLe bs

/-- The bytes of descriptor words, in storage order. -/
def bytesOfWords (ws : Words) : Bytes := ws.flatMap fun w => leBytes 4 w.toNat

/-- Two's-complement reading of the low `bits` bits of `n`. -/
def signed (bits n : Nat) : Int :=
  let v := n % 2 ^ bits
  if 2 * v < 2 ^ bits then (v : Int) else (v : Int) - (2 ^ bits : Nat)

/-- Division rounding up (written with ceiling brackets in the manual). -/
def cdiv (a b : Nat) : Nat := (a + b - 1) / b

/-- Two words as a 64-bit number, low word first. -/
def u64 (ws : Words) (i : Nat) : Nat := (word ws i).toNat + 2 ^ 32 * (word ws (i + 1)).toNat

/-- Look a key up in a keyed table, with a default. -/
def tget {α : Type} (d : α) : List (Nat × α) → Nat → α
  | [], _ => d
  | (k, v) :: r, i => if k = i then v else tget d r i

/-- Set a key of a keyed table, keeping keys strictly rising. -/
def tset {α : Type} : List (Nat × α) → Nat → α → List (Nat × α)
  | [], i, x => [(i, x)]
  | (k, v) :: r, i, x =>
    if i < k then (i, x) :: (k, v) :: r
    else if i = k then (k, x) :: r
    else (k, v) :: tset r i x

/-- Saturating addition to a field of `bits` bits. -/
def satAdd (bits a b : Nat) : Nat := min (a + b) (2 ^ bits - 1)

/-- Eight bits of the reflected CRC-32C register (Castagnoli polynomial, 0x82F63B78). -/
def crcBits : Nat → Nat → Nat
  | 0, c => c
  | k + 1, c => crcBits k (if c % 2 = 1 then c / 2 ^^^ 0x82F63B78 else c / 2)

/-- CRC-32C of a byte string (R291). -/
def crc32c (bs : Bytes) : Nat := bs.foldl (fun c b => crcBits 8 (c ^^^ b.toNat)) 0xFFFFFFFF ^^^ 0xFFFFFFFF

/-- Integer square root, one result bit at a time from bit `k` down. -/
def isqrtFrom : Nat → Nat → Nat → Nat
  | 0, n, r => if (r + 1) * (r + 1) ≤ n then r + 1 else r
  | k + 1, n, r =>
    let t := r + 2 ^ (k + 1)
    isqrtFrom k n (if t * t ≤ n then t else r)

/-- Floor of the square root. -/
def isqrt (n : Nat) : Nat := isqrtFrom (Nat.log2 n / 2 + 1) n 0

end Sys2Proof.Machine
end

