-- ==== Sys2Proof/Machine/Float.lean ====
section
/-! DEFINITION. Exact floating-point values and the roundings of chapter 2 and of R72, R85, R139: a value is a sign, a
natural significand and a power of two, and narrowing is the last thing an operation does. -/

namespace Sys2Proof.Machine

/-- A floating-point datum: NaN, a signed infinity, or (−1)^neg × m × 2^e with a signed zero when m is 0. -/
inductive FVal where
  | nan
  | inf (neg : Bool)
  | fin (neg : Bool) (m : Nat) (e : Int)
  deriving DecidableEq, Repr

/-- A binary format of Table 02.2: significand bits with the hidden one, exponent of the least subnormal, largest
finite value as significand and exponent. -/
structure FFmt where
  prec : Nat
  qmin : Int
  maxM : Nat
  maxE : Int
  deriving DecidableEq, Repr

def fmtB32 : FFmt := ⟨24, -149, 2 ^ 24 - 1, 104⟩
def fmtBf16 : FFmt := ⟨8, -133, 255, 120⟩
def fmtF16 : FFmt := ⟨11, -24, 2047, 5⟩
def fmtE4M3 : FFmt := ⟨4, -9, 14, 5⟩
def fmtE5M2 : FFmt := ⟨3, -16, 7, 13⟩
def fmtE2M1 : FFmt := ⟨2, -1, 3, 1⟩
def fmtCrumb : FFmt := ⟨11, -136, 2047, 117⟩

/-- m × 2^k as a natural when k ≥ 0. -/
def scaleUp (m : Nat) (k : Int) : Nat := m * 2 ^ k.toNat

/-- m1 × 2^e1 ≤ m2 × 2^e2. -/
def magLe (m1 : Nat) (e1 : Int) (m2 : Nat) (e2 : Int) : Bool :=
  let e := min e1 e2
  decide (scaleUp m1 (e1 - e) ≤ scaleUp m2 (e2 - e))

/-- Drop `d` low bits, rounding to nearest, ties to even. -/
def shiftRne (m d : Nat) : Nat :=
  if d = 0 then m else
  let q := m >>> d
  let r := m % 2 ^ d
  let half := 2 ^ (d - 1)
  if r > half || (r == half && q % 2 == 1) then q + 1 else q

/-- Exponent of the unit in the last place that m × 2^e has in a format. -/
def lsbExp (f : FFmt) (m : Nat) (e : Int) : Int :=
  max (e + (Nat.log2 m + 1 : Nat) - (f.prec : Nat)) f.qmin

/-- Round m × 2^e to a format's precision, to nearest, ties to even, with subnormals and without a bound above. -/
def roundRne (f : FFmt) (m : Nat) (e : Int) : Nat × Int :=
  if m = 0 then (0, f.qmin) else
  let q := lsbExp f m e
  if q ≤ e then (scaleUp m (e - q), q) else (shiftRne m (q - e).toNat, q)

/-- Round toward zero. -/
def roundTrunc (f : FFmt) (m : Nat) (e : Int) : Nat × Int :=
  if m = 0 then (0, f.qmin) else
  let q := lsbExp f m e
  if q ≤ e then (scaleUp m (e - q), q) else (m >>> (q - e).toNat, q)

/-- Round a value to a format that has infinities: beyond the largest finite value lies infinity (R61). -/
def FVal.round (f : FFmt) : FVal → FVal
  | .nan => .nan
  | .inf s => .inf s
  | .fin s m e =>
    let (m', q) := roundRne f m e
    if magLe m' q f.maxM f.maxE then .fin s m' q else .inf s

/-- The encoding of a value already rounded to a format with `ebits` exponent bits: infinity and NaN take the largest
exponent field (Table 02.2), NaN canonical (R45). -/
def encodeFin (f : FFmt) (ebits : Nat) (s : Bool) (m : Nat) (q : Int) : Nat :=
  let mb := f.prec - 1
  let sign := if s then 2 ^ (ebits + mb) else 0
  let (m, q) := if m ≥ 2 ^ f.prec then (m / 2, q + 1) else (m, q)
  if m < 2 ^ mb then sign + m
  else sign + (q - f.qmin + 1).toNat * 2 ^ mb + (m - 2 ^ mb)

/-- Encode with IEEE-style specials. -/
def encodeIeee (f : FFmt) (ebits : Nat) (v : FVal) : Nat :=
  let mb := f.prec - 1
  match v with
  | .nan => (2 ^ ebits - 1) * 2 ^ mb + 2 ^ (mb - 1)
  | .inf s => (if s then 2 ^ (ebits + mb) else 0) + (2 ^ ebits - 1) * 2 ^ mb
  | .fin s m q => encodeFin f ebits s m q

/-- Decode an IEEE-style encoding (R43). -/
def decodeIeee (f : FFmt) (ebits n : Nat) : FVal :=
  let mb := f.prec - 1
  let s := n.testBit (ebits + mb)
  let e := (n / 2 ^ mb) % 2 ^ ebits
  let fr := n % 2 ^ mb
  if e = 2 ^ ebits - 1 then (if fr = 0 then .inf s else .nan)
  else if e = 0 then .fin s fr f.qmin
  else .fin s (fr + 2 ^ mb) (f.qmin + (e - 1 : Nat))

/-- The value of a binary32 pattern. -/
def ofB32 (w : W32) : FVal := decodeIeee fmtB32 8 w.toNat

/-- A value rounded to binary32, to nearest, ties to even (R60, R61). -/
def toB32 (v : FVal) : W32 := BitVec.ofNat 32 (encodeIeee fmtB32 8 (v.round fmtB32))

def FVal.isNan : FVal → Bool
  | .nan => true
  | _ => false

def FVal.isInf : FVal → Bool
  | .inf _ => true
  | _ => false

def FVal.isFin : FVal → Bool
  | .fin .. => true
  | _ => false

def FVal.isZero : FVal → Bool
  | .fin _ m _ => m == 0
  | _ => false

def FVal.sign : FVal → Bool
  | .nan => false
  | .inf s => s
  | .fin s _ _ => s

def FVal.neg : FVal → FVal
  | .nan => .nan
  | .inf s => .inf (!s)
  | .fin s m e => .fin (!s) m e

def FVal.abs : FVal → FVal
  | .nan => .nan
  | .inf _ => .inf false
  | .fin _ m e => .fin false m e

/-- The exact sum (R74: opposite infinities give NaN; an exact zero sum is +0 unless both terms are −0). -/
def FVal.add : FVal → FVal → FVal
  | .nan, _ => .nan
  | _, .nan => .nan
  | .inf a, .inf b => if a = b then .inf a else .nan
  | .inf a, _ => .inf a
  | _, .inf b => .inf b
  | .fin a m e, .fin b n g =>
    let q := min e g
    let x := scaleUp m (e - q)
    let y := scaleUp n (g - q)
    if a = b then .fin a (x + y) q
    else if x = y then .fin false 0 q
    else if x > y then .fin a (x - y) q
    else .fin b (y - x) q

/-- The exact product (R74: zero times infinity gives NaN). -/
def FVal.mul : FVal → FVal → FVal
  | .nan, _ => .nan
  | _, .nan => .nan
  | .inf a, .inf b => .inf (a != b)
  | .inf a, .fin b m _ => if m = 0 then .nan else .inf (a != b)
  | .fin a m _, .inf b => if m = 0 then .nan else .inf (a != b)
  | .fin a m e, .fin b n g => .fin (a != b) (m * n) (e + g)

/-- Multiply by 2^k exactly. -/
def FVal.scale (k : Int) : FVal → FVal
  | .fin s m e => .fin s m (e + k)
  | v => v

/-- Extra quotient bits kept below any rounding position. -/
def guardBits : Nat := 96

/-- The quotient to more bits than any format keeps, its last bit sticky. -/
def FVal.div : FVal → FVal → FVal
  | .nan, _ => .nan
  | _, .nan => .nan
  | .inf _, .inf _ => .nan
  | .inf a, .fin b _ _ => .inf (a != b)
  | .fin a _ _, .inf b => .fin (a != b) 0 0
  | .fin a m e, .fin b n g =>
    if n = 0 then (if m = 0 then .nan else .inf (a != b))
    else if m = 0 then .fin (a != b) 0 0
    else
      let k := guardBits + Nat.log2 n
      let x := m * 2 ^ k
      .fin (a != b) (2 * (x / n) + (if x % n = 0 then 0 else 1)) (e - g - (k + 1 : Nat))

/-- The square root, its last bit sticky (√−0 = −0; a negative operand gives NaN). -/
def FVal.sqrt : FVal → FVal
  | .nan => .nan
  | .inf s => if s then .nan else .inf false
  | .fin s m e =>
    if m = 0 then .fin s 0 0 else if s then .nan else
    let (m, e) := if e % 2 = 0 then (m, e) else (2 * m, e - 1)
    let x := m * 2 ^ (2 * guardBits)
    let r := isqrt x
    .fin false (2 * r + (if r * r = x then 0 else 1)) (e / 2 - (guardBits + 1 : Nat))

/-- The reciprocal square root, its last bit sticky. -/
def FVal.rsqrt : FVal → FVal
  | .nan => .nan
  | .inf s => if s then .nan else .fin false 0 0
  | .fin s m e =>
    if m = 0 then .inf s else if s then .nan else
    let (m, e) := if e % 2 = 0 then (m, e) else (2 * m, e - 1)
    let k := guardBits + Nat.log2 m
    let r := isqrt (2 ^ (2 * k) / m)
    .fin false (2 * r + (if r * r * m = 2 ^ (2 * k) then 0 else 1)) (-(e / 2) - (k + 1 : Nat))

/-- a < b on non-NaN values, with −0 below +0 (R139). -/
def FVal.ltTotal : FVal → FVal → Bool
  | .nan, _ => false
  | _, .nan => false
  | .inf a, .inf b => a && !b
  | .inf a, _ => a
  | _, .inf b => !b
  | .fin a m e, .fin b n g =>
    if a != b then a
    else if a then (magLe n g m e && !magLe m e n g)
    else (magLe m e n g && !magLe n g m e)

/-- a > 0. -/
def FVal.pos : FVal → Bool
  | .nan => false
  | .inf s => !s
  | .fin s m _ => !s && m != 0

def FVal.max (a b : FVal) : FVal :=
  if a.isNan || b.isNan then .nan else if a.ltTotal b then b else a

def FVal.min (a b : FVal) : FVal :=
  if a.isNan || b.isNan then .nan else if b.ltTotal a then b else a

/-! ## Single binary32 operations, each rounded once (R139, R148, R187) -/

def fadd (a b : W32) : W32 := toB32 ((ofB32 a).add (ofB32 b))
def fneg (a : W32) : W32 := toB32 (ofB32 a).neg
def fsub (a b : W32) : W32 := toB32 ((ofB32 a).add (ofB32 b).neg)
def fmul (a b : W32) : W32 := toB32 ((ofB32 a).mul (ofB32 b))
def ffma (a b c : W32) : W32 := toB32 (((ofB32 a).mul (ofB32 b)).add (ofB32 c))
def fdiv (a b : W32) : W32 := toB32 ((ofB32 a).div (ofB32 b))
def fsqrt (a : W32) : W32 := toB32 (ofB32 a).sqrt
def frsqrt (a : W32) : W32 := toB32 (ofB32 a).rsqrt
def frecip (a : W32) : W32 := toB32 ((FVal.fin false 1 0).div (ofB32 a))
def fmax (a b : W32) : W32 := toB32 ((ofB32 a).max (ofB32 b))
def fmin (a b : W32) : W32 := toB32 ((ofB32 a).min (ofB32 b))

/-- A natural number rounded to binary32 (R188 `b32`). -/
def b32OfNat (n : Nat) : W32 := toB32 (.fin false n 0)

def f32One : W32 := 0x3F800000
def f32Zero : W32 := 0x00000000
def f32NegInf : W32 := 0xFF800000

/-- a < b on binary32 patterns, false when either is NaN, and −0 = +0. -/
def fltB (a b : W32) : Bool :=
  match ofB32 a, ofB32 b with
  | .fin _ 0 _, .fin _ 0 _ => false
  | x, y => x.ltTotal y

/-- a ≤ b on binary32 patterns, false when either is NaN. -/
def fleB (a b : W32) : Bool :=
  !(ofB32 a).isNan && !(ofB32 b).isNan && !(fltB b a)

/-! ## Conversion of binary32 operands to crumb19 (R38, R41) -/

/-- Truncation to crumb19: never an infinity from a finite value. -/
def crumbTrunc : FVal → FVal
  | .fin s m e => let (m', q) := roundTrunc fmtCrumb m e; .fin s m' q
  | v => v

/-- Rounding to crumb19, to nearest, ties to even. -/
def crumbRound (v : FVal) : FVal := v.round fmtCrumb

/-- The crumb19 bit pattern of a converted operand (Table 02.1). -/
def crumbBits (v : FVal) : BitVec 19 := BitVec.ofNat 19 (encodeIeee fmtCrumb 8 v)

/-- hi and lo of R41 and R42. -/
def splitCrumb (a : FVal) : FVal × FVal :=
  let hi := crumbTrunc a
  if a.isFin then (hi, crumbRound (a.add hi.neg)) else (hi, .fin false 0 0)

/-! ## Stochastic rounding (R72, R73) -/

/-- The mixing function of R73. -/
def mix64 (x : W64) : W64 :=
  let x := x ^^^ (x >>> 31)
  let x := x * 0x9E6C63D0676A9A99
  let x := x ^^^ (x >>> 29)
  let x := x * 0xD5A61266F0C9392D
  x ^^^ (x >>> 32)

/-- The 13 random bits of product ordinal q at coordinates (m, n) (R73). -/
def roundBits (seed step : W64) (layer tag m n q : Nat) : Nat :=
  let key := mix64 (seed ^^^ mix64 step)
  let c1 := BitVec.ofNat 64 (layer * 2 ^ 48 + tag * 2 ^ 32 + (q / 4) % 2 ^ 32)
  let c2 := BitVec.ofNat 64 ((m * 2 ^ 24) ||| n)
  let r := mix64 (key ^^^ mix64 (c1 ^^^ mix64 c2))
  (r.toNat >>> (13 * (q % 4))) % 2 ^ 13

/-- Round an exact sum to binary32 stochastically with 13 random bits (R72). -/
def srRound (x : FVal) (u13 : Nat) : FVal :=
  match x with
  | .fin s m e =>
    if m = 0 then x else
    let q := lsbExp fmtB32 m e
    if !magLe m e fmtB32.maxM fmtB32.maxE && magLe 1 128 m e then .inf s
    else if q ≤ e then .fin s (scaleUp m (e - q)) q
    else
      let d := (q - e).toNat
      let t := m >>> d
      let r13 := (m % 2 ^ d) * 2 ^ 13 / 2 ^ d
      let t' := if r13 + u13 ≥ 2 ^ 13 then t + 1 else t
      if magLe t' q fmtB32.maxM fmtB32.maxE then .fin s t' q else .inf s
  | v => v

/-- One accumulator addition (R72, R74). -/
def srAdd (s p : FVal) (u13 : Nat) : FVal := srRound (s.add p) u13

/-- unit in the last place exponent of a binary32 value (R240). -/
def ulpExp (w : W32) : Int :=
  let e : Nat := (w.toNat / 2 ^ 23) % 256
  if e = 0 then -149 else (e : Int) - 150

/-- Round a value to an integer, ties to even, clamped to a range; NaN gives 0 (R240, R241). -/
def toIntClamp (lo hi : Int) : FVal → Int
  | .nan => 0
  | .inf s => if s then lo else hi
  | .fin s m e =>
    let n : Nat := if 0 ≤ e then scaleUp m e else shiftRne m (-e).toNat
    let v : Int := if s then -(n : Int) else n
    Max.max lo (Min.min hi v)

/-- An integer as an exact value. -/
def ofInt (i : Int) : FVal := .fin (decide (i < 0)) i.natAbs 0

/-- ADDX of R240 on a master weight, its compensation register and an increment: (w′, c′). -/
def addx (w b d : W32) : W32 × W32 :=
  let vw := ofB32 w
  let vd := ofB32 d
  if vw.isFin && vd.isFin then
    let q := toIntClamp (-32768) 32767 (ofB32 b)
    let x := (vw.add ((ofInt q).scale (ulpExp w - 16))).add vd
    let w' := toB32 x
    let v' := ofB32 w'
    if v'.isFin then
      let c := toIntClamp (-32768) 32767 ((x.add v'.neg).scale (16 - ulpExp w'))
      (w', toB32 (ofInt c))
    else (w', f32Zero)
  else (toB32 (vw.add vd), f32Zero)

end Sys2Proof.Machine
end

