-- ==== Sys2Proof/Machine/Operands.lean ====
section
/-! DEFINITION. Operand formats: the operand format byte, the stored element formats, block scales and the conversions
between stored formats (chapter 2, R43 to R63). -/

namespace Sys2Proof.Machine

/-- The fields of the operand format byte (Table 02.4). -/
structure OpFmt where
  crumbRnd : Bool
  blockDir : Bool
  blockSize : Nat
  elemFmt : Nat
  deriving DecidableEq, Repr

/-- R48: read an operand format byte. -/
def opFmt (b : Nat) : OpFmt :=
  { crumbRnd := b.testBit 7, blockDir := b.testBit 6, blockSize := (b / 8) % 8, elemFmt := b % 8 }

/-- Elements per block of a `BLOCK_SIZE` code, 0 when unscaled (Table 02.4). -/
def blockElems (code : Nat) : Nat := if code = 0 ∨ code = 7 then 0 else 2 ^ (code + 2)

/-- Bits per stored element (Table 02.2). -/
def elemBits (fmt : Nat) : Nat :=
  match fmt with
  | 0 => 32 | 1 => 16 | 2 => 16 | 3 => 8 | 4 => 8 | 5 => 4 | 6 => 8 | _ => 0

/-- R49's conditions that need no operation: reserved codes, scales on formats that carry none, the across-direction
sizes and `CRUMB_RND`. `operand`: the byte names a matrix A or B operand. -/
def opFmtOk (operand : Bool) (b : Nat) : Bool :=
  let f := opFmt b
  f.elemFmt != 7 && f.blockSize != 7 && decide (b < 256)
    && (f.blockSize == 0 || decide (3 ≤ f.elemFmt))
    && (!f.blockDir || (decide (1 ≤ f.blockSize) && decide (f.blockSize ≤ 3)))
    && (!f.crumbRnd || (operand && f.elemFmt == 0))

/-- R49's limit on a matrix output: the block must not exceed the core shape's extent in the sharing direction. -/
def outBlockOk (shape : Nat) (b : Nat) : Bool :=
  let f := opFmt b
  let extN := if shape = 0 then 32 else if shape = 1 then 64 else 16
  let extM := if shape = 0 then 32 else if shape = 1 then 16 else 64
  decide (blockElems f.blockSize ≤ if f.blockDir then extM else extN)

/-! ## Decoding -/

/-- Decode FP8 E4M3: only S.1111.111 is NaN, there is no infinity (Table 02.2). -/
def decodeE4M3 (n : Nat) : FVal :=
  let s := n.testBit 7
  let e := (n / 8) % 16
  let f := n % 8
  if e = 15 ∧ f = 7 then .nan
  else if e = 0 then .fin s f (-9)
  else .fin s (f + 8) ((e : Int) - 10)

/-- Decode FP4 E2M1 (Table 02.3). -/
def decodeE2M1 (n : Nat) : FVal :=
  let s := n.testBit 3
  let e := (n / 2) % 4
  let f := n % 2
  if e = 0 then .fin s f (-1) else .fin s (f + 2) ((e : Int) - 2)

/-- An unscaled element of a stored format (R43, R46). -/
def decodeElem (fmt n : Nat) : FVal :=
  match fmt with
  | 0 => decodeIeee fmtB32 8 n
  | 1 => decodeIeee fmtBf16 8 n
  | 2 => decodeIeee fmtF16 5 n
  | 3 => decodeE4M3 n
  | 4 => decodeIeee fmtE5M2 5 n
  | 5 => decodeE2M1 n
  | 6 => ofInt (signed 8 n)
  | _ => .nan

/-- An element of a block with scale byte `e` (R46, R50, R52). -/
def decodeScaled (fmt n e : Nat) : FVal :=
  if e = 255 then .nan
  else if fmt = 6 then (ofInt (signed 8 n)).scale ((e : Int) - 127 - 6)
  else (decodeElem fmt n).scale ((e : Int) - 127)

/-! ## Encoding -/

/-- How an element converted under R60 and R61 came out (R63). -/
inductive ConvClass where
  | ordinary | saturated | flushed | nonFinite
  deriving DecidableEq, Repr

/-- Convert to a format with infinities. -/
def convIeee (f : FFmt) (ebits : Nat) (v : FVal) : Nat × ConvClass :=
  let r := v.round f
  let c := if !v.isFin then .nonFinite else if r.isInf then .saturated
    else if r.isZero && !v.isZero then .flushed else .ordinary
  (encodeIeee f ebits r, c)

/-- Convert to E4M3 or E2M1, which saturate (Table 02.11). A value above the largest finite one that rounds back to it is
not saturated (DEDUCED, notes/assumptions/49). -/
def convSat (f : FFmt) (ebits : Nat) (nanEnc : Nat) (v : FVal) : Nat × ConvClass :=
  match v with
  | .nan => (nanEnc, .nonFinite)
  | .inf s => (encodeFin f ebits s f.maxM f.maxE, .nonFinite)
  | .fin s m e =>
    let (m', q) := roundRne f m e
    if magLe m' q f.maxM f.maxE then
      (encodeFin f ebits s m' q, if m' = 0 ∧ m ≠ 0 then .flushed else .ordinary)
    else (encodeFin f ebits s f.maxM f.maxE, .saturated)

/-- Convert to INT8 with a scale of `2^-k` units per integer (R60, R61: k = 0 unscaled, 6 in a block); what rounds to −128
or 127 is not saturated (DEDUCED, notes/assumptions/49). -/
def convInt8 (k : Nat) (v : FVal) : Nat × ConvClass :=
  let enc (i : Int) : Nat := (i % 256).toNat
  match v with
  | .nan => (0, .nonFinite)
  | .inf s => (if s then 128 else 127, .nonFinite)
  | .fin s m e =>
    let e := e + (k : Int)
    let n : Nat := if 0 ≤ e then scaleUp m e else shiftRne m (-e).toNat
    let i : Int := if s then -(n : Int) else n
    if i > 127 then (127, .saturated) else if i < -128 then (128, .saturated)
    else (enc i, if n = 0 ∧ m ≠ 0 then .flushed else .ordinary)

/-- R60, R61: convert a value to an unscaled element of a stored format. -/
def convElem (fmt : Nat) (v : FVal) : Nat × ConvClass :=
  match fmt with
  | 0 => convIeee fmtB32 8 v
  | 1 => convIeee fmtBf16 8 v
  | 2 => convIeee fmtF16 5 v
  | 3 => convSat fmtE4M3 4 0x7F v
  | 4 => convIeee fmtE5M2 5 v
  | 5 => convSat fmtE2M1 2 0 v
  | 6 => convInt8 0 v
  | _ => (0, .ordinary)

/-- Fit limit L of Table 02.7 as significand and exponent. -/
def fitLimit (fmt : Nat) : Nat × Int :=
  match fmt with
  | 3 => (14, 5)
  | 4 => (7, 13)
  | 5 => (3, 1)
  | _ => (127, -6)

/-- |v| ≤ limit × 2^k. -/
def fitsAt (fmt : Nat) (v : FVal) (k : Int) : Bool :=
  match v with
  | .fin _ m e => let (lm, le) := fitLimit fmt; magLe m e lm (le + k)
  | _ => false

/-- Search upward from exponent `k` for at most `fuel` steps for one at which every element fits (R55, order 3). -/
def scaleSearch (fmt : Nat) (xs : List FVal) : Nat → Int → Int
  | 0, k => k
  | fuel + 1, k => if xs.all (fun v => fitsAt fmt v k) then k else scaleSearch fmt xs fuel (k + 1)

/-- A written block: its scale byte, its elements, and how many of them were flushed (R57). -/
structure Block where
  scale : Nat
  elems : List Nat
  flushed : Nat
  deriving DecidableEq, Repr

/-- One element of a block under order 3 of Table 02.6. -/
def blockElem (fmt : Nat) (k : Int) (v : FVal) : Nat × ConvClass :=
  let x := v.scale (-k)
  if fmt = 6 then convInt8 6 x else convElem fmt x

/-- R55: write one block. -/
def writeBlock (fmt : Nat) (xs : List FVal) : Block :=
  if xs.any (fun v => !v.isFin) then ⟨255, xs.map fun _ => 0, 0⟩
  else if xs.all FVal.isZero then ⟨0, xs.map fun _ => 0, 0⟩
  else
    let k := scaleSearch fmt xs 254 (-127)
    let es := xs.map (blockElem fmt k)
    ⟨(k + 127).toNat, es.map (·.1), es.countP fun c => c.2 == .flushed⟩

/-! ## Elements in memory (R47) -/

/-- Bytes of a row of `n` elements, each row beginning on a byte boundary. -/
def rowBytes (fmt n : Nat) : Nat := (n * elemBits fmt + 7) / 8

/-- Split a list into chunks of `k`; `fuel` bounds the number of chunks. -/
def chunksFuel {α : Type} (k : Nat) : Nat → List α → List (List α)
  | 0, _ => []
  | fuel + 1, xs => if xs.isEmpty then [] else xs.take k :: chunksFuel k fuel (xs.drop k)

/-- Split a list into chunks of `k`. -/
def chunks {α : Type} (k : Nat) (xs : List α) : List (List α) := chunksFuel k xs.length xs

/-- Pack 4-bit elements two per byte, even index low, padding zero. -/
def packNibbles : List Nat → Bytes
  | [] => []
  | [a] => [BitVec.ofNat 8 (a % 16)]
  | a :: b :: r => BitVec.ofNat 8 (a % 16 + 16 * (b % 16)) :: packNibbles r

/-- One row of encoded elements as bytes. -/
def packRow (fmt : Nat) (es : List Nat) : Bytes :=
  if fmt = 5 then packNibbles es else es.flatMap fun e => leBytes (elemBits fmt / 8) e

/-- Element `i` of a row of bytes. -/
def elemAt (fmt : Nat) (row : Bytes) (i : Nat) : Nat :=
  if fmt = 5 then
    let b := (row.getD (i / 2) 0).toNat
    if i % 2 = 0 then b % 16 else b / 16
  else
    let k := elemBits fmt / 8
    ofLe ((row.drop (i * k)).take k)

/-- Round a binary32 value to bf16 (R60, R61). -/
def toBf16 (w : W32) : Nat := (convElem 1 (ofB32 w)).1

/-- Widen a bf16 pattern to binary32, exactly. -/
def ofBf16 (n : Nat) : W32 := toB32 (decodeElem 1 n)

end Sys2Proof.Machine
end

