-- ==== Sys2Proof/Machine/Flags.lean ====
section
/-! DEFINITION. The numeric status word (Table 03.8) and the conditions that set its bits (R81, R82). -/

namespace Sys2Proof.Machine

/-- The numeric status word of an operation, bit by bit (Table 03.8). -/
structure NStatus where
  invalid : Bool
  overflow : Bool
  replayed : Bool
  longSum : Bool
  blockFlush : Bool
  saturated : Bool
  nanInput : Bool
  deriving DecidableEq, Repr

/-- No bit set. -/
def NStatus.zero : NStatus := ⟨false, false, false, false, false, false, false⟩

/-- Bitwise OR, as a record that covers several operations carries it (R82). -/
def NStatus.or (a b : NStatus) : NStatus :=
  ⟨a.invalid || b.invalid, a.overflow || b.overflow, a.replayed || b.replayed, a.longSum || b.longSum,
   a.blockFlush || b.blockFlush, a.saturated || b.saturated, a.nanInput || b.nanInput⟩

/-- The 16-bit word, bits [15:7] zero. -/
def NStatus.toNat (a : NStatus) : Nat :=
  a.invalid.toNat + 2 * a.overflow.toNat + 4 * a.replayed.toNat + 8 * a.longSum.toNat
    + 16 * a.blockFlush.toNat + 32 * a.saturated.toNat + 64 * a.nanInput.toNat

/-- Read the word back; reserved bits are ignored (R11). -/
def NStatus.ofNat (n : Nat) : NStatus :=
  ⟨n.testBit 0, n.testBit 1, n.testBit 2, n.testBit 3, n.testBit 4, n.testBit 5, n.testBit 6⟩

/-- R76: the product count of a sum. -/
def productCount (split : Bool) (kTotal : Nat) : Nat := if split then 3 * kTotal else kTotal

/-- R76: LONG_SUM. -/
def isLongSum (split : Bool) (kTotal : Nat) : Bool := decide (2 ^ 20 < productCount split kTotal)

/-- R62: the bits an unscaled writeback conversion sets for one element. -/
def writebackFlags (fmt : Nat) (c : ConvClass) : NStatus :=
  match c with
  | .saturated =>
    if fmt = 3 ∨ fmt = 5 ∨ fmt = 6 then { NStatus.zero with saturated := true }
    else { NStatus.zero with overflow := true }
  | _ => NStatus.zero

end Sys2Proof.Machine
end

