-- ==== Sys2Proof/Machine/Memory.lean ====
section
/-! DEFINITION. Byte memories in one canonical form: addresses strictly rising, no cell equal to what an unlisted
address reads as. An unlisted byte reads as zero: so R315 leaves main memory after training; for the on-chip memories it
is a DESIGN CHOICE (notes/assumptions/2). -/

namespace Sys2Proof.Machine

/-- A byte memory. -/
abbrev Mem := List Host.Cell

/-- What an unlisted address reads as. -/
def memDefault : Byte := 0

/-- Read one byte. -/
def memRead : Mem → Nat → Byte
  | [], _ => memDefault
  | (a, b) :: r, x => if a = x then b else memRead r x

/-- Write one byte; a byte equal to what an unlisted address reads as leaves no cell. -/
def memWrite : Mem → Nat → Byte → Mem
  | [], x, v => if v = memDefault then [] else [(x, v)]
  | (a, b) :: r, x, v =>
    if x < a then (if v = memDefault then (a, b) :: r else (x, v) :: (a, b) :: r)
    else if x = a then (if v = memDefault then r else (x, v) :: r)
    else (a, b) :: memWrite r x v

/-- Read `n` bytes from an address. -/
def memBytes (m : Mem) (a : Nat) : Nat → Bytes
  | 0 => []
  | n + 1 => memRead m a :: memBytes m (a + 1) n

/-- Write bytes at rising addresses. -/
def memStore (m : Mem) (a : Nat) : Bytes → Mem
  | [] => m
  | b :: bs => memStore (memWrite m a b) (a + 1) bs

/-- Write zero to every byte of `[a, a + n)`: drop its cells. -/
def memZero (m : Mem) (a n : Nat) : Mem := m.filter fun c => decide (c.1 < a) || decide (a + n ≤ c.1)

/-- Every address of the list is above `x`. -/
def memAbove (x : Nat) (m : Mem) : Bool := m.all fun c => decide (x < c.1)

/-- The canonical form. -/
def memWf : Mem → Bool
  | [] => true
  | c :: r => c.2 != memDefault && memAbove c.1 r && memWf r

/-- The canonical form under its fixed name. -/
abbrev Memory.wf (m : Mem) : Bool := memWf m

end Sys2Proof.Machine
end

