-- ==== Sys2Proof/Machine/AdminState.lean ====
section
/-! DEFINITION. Plain data of the steward: pins, power, governor, device and job states, dictionary values, sessions,
security, log, results, host ports (chapters 14 to 21). -/

namespace Sys2Proof.Machine

/-- Device states (Table 16.4). -/
inductive DevState where
  | off | standby | proofing | ready | active | sleep
  deriving DecidableEq, Repr

/-- The value 0x1000:07 shows. OFF is never read (R367). -/
def DevState.code : DevState → Nat
  | .off => 0 | .standby => 1 | .proofing => 2 | .ready => 3 | .active => 4 | .sleep => 5

/-- Job states (Table 16.5). -/
inductive JobState where
  | idle | loaded | running | paused | repeating | halted
  deriving DecidableEq, Repr

def JobState.code : JobState → Nat
  | .idle => 0 | .loaded => 1 | .running => 2 | .paused => 3 | .repeating => 4 | .halted => 5

/-- Job commands that wait for a boundary (Table 16.5). -/
inductive JobCmd where
  | pause | resume | stop | checkpointNow
  deriving DecidableEq, Repr

def JobCmd.code : JobCmd → Nat
  | .pause => 3 | .resume => 4 | .stop => 5 | .checkpointNow => 7

/-- Control pins of the blade connector (chapter 21). Input levels are kept as last seen; `ackNeeded`: main power is not
raised until PWR_EN has been released and asserted again (R387, R389). -/
structure Pins where
  pwrEn : Bool
  resetAsserted : Bool
  interlockOpen : Bool
  stbyGood : Bool
  pwrGood : Bool
  alert : Bool
  thermTrip : Bool
  slotId : Nat
  latch : Bool
  earlyPwrEn : Bool
  bankAOk : Bool
  bankBOk : Bool
  deriving DecidableEq, Repr

/-- Measurements and the governor (chapter 17). Temperatures in 0.01 °C. -/
structure Gov where
  inputMw : Nat
  inputMv : Nat
  inputMa : Nat
  /-- input energy in units of 0.1 µJ -/
  energy : Nat
  /-- estimates of elective work running, in mW (R397) -/
  electiveMw : Nat
  tj : List Int
  inlet : Int
  outlet : Int
  crust : Int
  gddr : Int
  regulator : Int
  vcore : List Nat
  target : Nat
  ceiling : List Nat
  boundUs : Nat
  freeUs : Nat
  gating : Bool
  gateLogged : Bool
  inputFault : Bool
  alertClearAt : Option Nat
  minMv : Nat
  powerSum : Nat
  powerN : Nat
  deriving DecidableEq, Repr

/-- Self-test command (R379, R412): target, mode, slices still to run as (physical core or 400 + cell, slice). -/
structure SelfTest where
  state : Nat
  target : Nat
  slices : List (Nat × Nat)
  running : Bool
  deriving DecidableEq, Repr

/-- Device state, boot, proofing and the core map (chapters 1, 16, 18, 19). -/
structure Dev where
  st : DevState
  bootFailed : Bool
  bankA : Option Container
  bankB : Option Container
  activeB : Bool
  runningDigest : Option Bytes
  runningSvn : Nat
  stage : Nat
  reason : Nat
  proofFailed : Bool
  test : SelfTest
  /-- physical core of each logical core, 0xFF unavailable -/
  map : List Nat
  /-- 0 LOGICAL, 1 SPARE, 2 FENCED, 3 UNTESTED for each physical core -/
  phys : List Nat
  badCells : List Nat
  badStarters : List (Nat × Nat)
  badWays : List (Nat × Nat × Nat)
  mainUp : Bool
  hostUp : List Bool
  deriving DecidableEq, Repr

/-- Writable dictionary values (Tables 08.4, 12.9, 13.4, 14.6, 15.10, 16.3, 16.5, 16.11, 16.12). -/
structure Regs where
  inputCap : Nat
  tjLimit : Nat
  outLimit : Nat
  vMax : Nat
  vMin : Nat
  elective : Bool
  holdback : Nat
  autoProof : Bool
  repeatLimit : Nat
  streamWd : Nat
  replayBound : Nat
  silence : Nat
  interleave : Nat
  scrubPeriod : Nat
  plcaNode : Nat
  idleTime : Nat
  minSvn : Nat
  portAddr : List Bytes
  vlan : List Nat
  prio : List Nat
  ingestBound : Nat
  resumeStep : Nat
  inboxSlots : Nat
  clients : List (Nat × Bytes)
  logMask : Nat
  lvTolNative : W32
  lvTolBorrowed : W32
  lvIterCap : Nat
  lvMissLimit : Nat
  coord : List Nat
  nY : Nat
  nZ : Nat
  cabling : Nat
  laneMask : List Nat
  spare : List Nat
  deriving DecidableEq, Repr

/-- Security (chapter 19). A client slot holds a key digest and a right. -/
structure Sec where
  state : Nat
  owner : Bytes
  clients : List (Nat × (Bytes × Nat))
  ctr : Nat
  floor : Nat
  deriving DecidableEq, Repr

/-- An acknowledgment as sent (R348). -/
structure Ack where
  status : Nat
  idx : Nat
  sub : Nat
  ty : Nat
  aux : Nat
  data : Bytes
  deriving DecidableEq, Repr

/-- A WRITE_BLOCK hold (R353): entry, session, type, total, chunks received, whether FINAL was seen, last chunk time. -/
structure Hold where
  idx : Nat
  sub : Nat
  sid : BitVec 32
  ty : Nat
  total : Nat
  chunks : List (Nat × Bytes)
  final : Bool
  last : Nat
  deriving DecidableEq, Repr

/-- A live session (R346, R347, R350, R381). -/
structure Session where
  sid : BitVec 32
  right : Nat
  key : Bytes
  transport : Transport
  peer : Nat
  opened : Nat
  tagged : Bool
  lastRx : Nat
  rxHi : Nat
  rxSeen : List Nat
  txSeq : Nat
  cache : List (Nat × EdpBody × Ack)
  report : Option Bytes
  deriving DecidableEq, Repr

/-- A queued event (R360, R361): kind, code, step, local count, index, subindex, detail bytes, step record. `seq` is
set once sent. -/
structure Event where
  kind : Nat
  code : Nat
  step : Nat
  us : Nat
  idx : Nat
  sub : Nat
  detail : Bytes
  body : Bytes
  seq : Option Nat
  resends : Nat
  deriving DecidableEq, Repr

/-- A subscription (R359, R361). -/
structure Subscription where
  sid : BitVec 32
  kinds : BitVec 16
  classes : BitVec 16
  transport : Transport
  peer : Nat
  queue : List Event
  dropped : Nat
  tally : Nat
  deriving DecidableEq, Repr

/-- An accepted hello kept for repetition (R346). -/
structure HelloRec where
  transport : Transport
  peer : Nat
  seq : Nat
  hello : Hello
  ack : Ack
  at_ : Nat
  deriving DecidableEq, Repr

/-- The dictionary protocol (chapter 15). -/
structure Edp where
  sessions : List Session
  subs : List (Nat × Subscription)
  holds : List Hold
  hellos : List HelloRec
  relays : List (Nat × BitVec 32 × Nat × Transport × Nat)
  t1s : Nat
  sessionNo : Nat
  deriving DecidableEq, Repr

/-- A log record (Table 16.13). -/
structure LogRec where
  code : Nat
  src : Nat
  hearth : Nat
  unit : Nat
  layer : Nat
  step : Nat
  us : Nat
  seq : Nat
  detail : List Nat
  deriving DecidableEq, Repr

/-- The log ring and the fault log (R382). -/
structure Log where
  ring : List LogRec
  fault : List LogRec
  seq : Nat
  deriving DecidableEq, Repr

/-- A result slot (Table 15.7). -/
structure ResultSlot where
  seq : Nat
  state : Nat
  value : Bytes
  replaced : Nat
  step : Nat
  deriving DecidableEq, Repr

def ResultSlot.empty : ResultSlot := ⟨0, 0, [], 0, 0⟩

/-- The job (chapters 1, 10, 16). -/
structure Job where
  st : JobState
  haltCode : Nat
  committed : Nat
  step : Nat
  attempt : Nat
  seed : Nat
  pend : Option JobCmd
  taken : Option JobCmd
  ckptAsked : Bool
  causes : List (Nat × Nat)
  /-- an ABORT_STEP of this attempt has gone to the commit root as ABORT_REQ (R266) -/
  abortAsked : Bool
  ckptValid : Nat
  stepStart : Nat
  commitUs : Nat
  /-- a halt that waits for the boundary under way to complete (R270) -/
  haltPend : Option Nat
  /-- items of the attempt that have completed, as (slot kind, layer, micro-batch) -/
  done : List (Nat × Nat × Nat)
  fencedInStep : Nat
  logInStep : Nat
  loggedOnce : List Nat
  /-- one entry for each replay of an item in the step, as (group, slot kind, layer, micro-batch) (R130) -/
  replayed : List (Nat × Nat × Nat × Nat)
  eccLogged : List (Nat × Nat)
  /-- layers whose working copies are still to be written before the first slot of a job (R227) -/
  installing : List Nat
  /-- step and recipe digest of the headers of checkpoint slots A and B (R334) -/
  ckptHdrs : List (Nat × Bytes)
  deriving DecidableEq, Repr

/-- Staged and loaded containers, whether one has lost a block, and whether the loaded one counts as staged (R310, R372). -/
structure Recipe where
  staged : Option Container
  stagedBytes : Bytes
  outcome : Nat
  loaded : Option Container
  loadedBytes : Bytes
  damaged : Bool
  stagedBad : Bool
  same : Bool
  deriving DecidableEq, Repr

/-- A request held by the inbox queue (R339). -/
structure InboxReq where
  pos : Nat
  slot : Nat
  seq : Nat
  op : Nat
  imm : Bool
  respVa : Nat
  rkey : Nat
  respLen : Nat
  tag : Nat
  deriving DecidableEq, Repr

/-- Evaluation and the inbox (chapters 7 and 14): queued requests, last served words by slot, segments due at this
boundary, what runs as (segment, queue position, layer) with its estimate in mW, whether the budget is spent, refused
requests, responses posted and unacknowledged as (slot, time), and the inbox region's bytes by offset (R310 keeps it in
steward pages, which no device-virtual address reaches). -/
structure Eval where
  queue : List InboxReq
  served : List (Nat × Nat)
  dueSegs : List Nat
  running : Option (Nat × Option Nat × Nat)
  spent : Nat
  refused : List InboxReq
  posted : List (Nat × Nat)
  est : Nat
  inbox : List Host.Cell
  deriving DecidableEq, Repr

/-- The place in Table 01.6 that comes next, 0 when no boundary is in progress; budgets; the checkpoint in progress
(R335: phase 0 none, 1 first flush awaited, 2 content, 3 flush awaited, 4 second flush awaited). -/
structure Boundary where
  order : Nat
  started : Nat
  ckptDue : Bool
  ckptPhase : Nat
  ckptSlot : Nat
  ckptStep : Nat
  writesLeft : Nat
  orderStart : Nat
  est : Nat
  deriving DecidableEq, Repr

/-- One host port (R325, Table 14.6). -/
structure HostPort where
  up : Bool
  received : Nat
  discarded : Nat
  pfc : Nat
  losses : Nat
  pausedUntil : List (Nat × Nat)
  deriving DecidableEq, Repr

/-- An outstanding NVMe Read (R332, R333). -/
structure NvmeRead where
  cid : Nat
  tgt : Nat
  ext : Nat
  lba : Nat
  len : Nat
  pos : Nat
  port : Nat
  tries : Nat
  sent : Nat
  deriving DecidableEq, Repr

/-- A connection bound to a host port (R325, R326): target index or inbox client 0x100 + k; rate halvings. -/
structure Conn where
  id : Nat
  port : Nat
  rate : Nat
  recoverAt : Nat
  deriving DecidableEq, Repr

/-- A packed micro-batch (Table 07.6) with its sample offsets and token bytes. -/
structure MbHdr where
  samples : List Nat
  valid : Nat
  dropped : Nat
  routed : Nat
  closed : Bool
  data : Bytes
  deriving DecidableEq, Repr

def MbHdr.empty : MbHdr := ⟨[], 0, 0, 0, false, []⟩

/-- Ingest (chapters 7, 11 and 14): the step being packed, its micro-batches, the open one; the cursor, and its value at
the start of packing of each step with the search's start (R330); bytes read, by position in the dataset; outstanding Reads; the next command
identifier and port; the cursor where the search for a usable record started (R330); packed micro-batches of the steps
not yet committed; samples set aside, split notices by 64 × step + S rank, the group queue and its value before each
step was packed, the split sample of each step (R282); ingest bounds passed; (target, namespace) pairs whose logical
blocks are 4,096 bytes. -/
structure Ingest where
  packStep : Nat
  mbs : List MbHdr
  open_ : Nat
  packed : Bool
  cursor : Cursor
  cursorAt : List (Nat × Cursor)
  idleAt : List (Nat × Option Cursor)
  bytes : List (Nat × Bytes)
  reads : List NvmeRead
  nextCid : Nat
  nextPort : Nat
  idleCursor : Option Cursor
  hdrs : List (Nat × List MbHdr)
  setAside : List SplitEntry
  notices : List (Nat × List SplitEntry)
  queue : List SplitEntry
  queueAt : List (Nat × List SplitEntry)
  split : List (Nat × Option SplitEntry)
  lateBounds : Nat
  blk4k : List (Nat × Nat)
  deriving DecidableEq, Repr

/-- One link word (R289): a 64-byte flit and its tag, which gives virtual lane, start and end marks and the link sequence
number. -/
structure LinkWord where
  vl : Nat
  first : Bool
  last : Bool
  seqNo : Nat
  flit : Bytes
  deriving DecidableEq, Repr

/-- Messages and datagrams the device has sent, newest last. -/
inductive Tx where
  | ack (tr : Transport) (peer : Nat) (sid : BitVec 32) (ackSeq : Nat) (a : Ack)
  | event (tr : Transport) (peer : Nat) (sid : BitVec 32) (seq : Nat) (e : Event)
  | relay (dev : Nat) (h : EdpHdr) (body : EdpBody)
  | relayBack (tr : Transport) (peer : Nat) (h : EdpHdr) (body : EdpBody)
  | commit (dev kind : Nat) (m : CommitMsg)
  | vl0 (dev kind : Nat) (words : List Nat)
  | splitNotice (dev step : Nat) (samples : List SplitEntry)
  /-- link words on a port; an acknowledgment up to a sequence number; a replay request from one; credit returned for a
  lane and class; a hush symbol and its time; the retrain symbol (R289, R290, R294, R296, R298) -/
  | words (port : Nat) (l : List LinkWord)
  | linkAck (port seqNo : Nat)
  | linkReplay (port seqNo : Nat)
  | linkCredit (port vl cls flits : Nat)
  | hush (port us : Nat)
  | retrain (port : Nat)
  | nvmeRead (r : NvmeRead)
  | nvmeWrite (lba : Nat) (data : Bytes)
  | nvmeFlush
  | nvmeOther (tgt kind : Nat)
  | response (slot va rkey : Nat) (imm : Option Nat) (data : Bytes)
  | frame (port kind : Nat)
  deriving DecidableEq, Repr

end Sys2Proof.Machine
end

