-- ==== Sys2Proof/Machine/CollState.lean ====
section
/-! DEFINITION. Plain data of the kneaders and of the commit protocol (chapter 10). -/

namespace Sys2Proof.Machine

/-- Bytes that arrived for a collective: bucket, rank they came from, offset in the bucket, status bits, payload. -/
structure Arrival where
  bucket : Nat
  rank : Nat
  offset : Nat
  nstatus : Nat
  payload : Bytes
  deriving DecidableEq, Repr

/-- One collective in the attempt: the micro-batch of the run in progress, the runs complete, what has arrived and is not
consumed, the buckets this device has finished with, the status bits of the segment rooted here (R250 to R256), and, point to
point, bucket places the receiver has reported in the attempt and buckets sent on them (R258). -/
structure CollRun where
  cur : Option Nat
  finished : List Nat
  got : List Arrival
  doneBuckets : List Nat
  nstatus : NStatus
  credit : Nat
  spent : Nat
  deriving DecidableEq, Repr

def CollRun.empty : CollRun := ⟨none, [], [], [], NStatus.zero, 0, 0⟩

/-- Collectives by `COLL_ID`; packets of a later step or attempt kept for it, and commit messages of a later step with
their kinds; phase one, PREPAREs, the commit root's
decision and held queries of the attempt, queries answered as (step, attempt, sender) (R300); bounds passed without an outcome (R268); the exchange of R271: digests
received as (rank, digest), whether this device's has been sent, and whether step work is allowed; members of the job. -/
structure CollSt where
  runs : List (Nat × CollRun)
  early : List Packet
  held : List (Nat × CommitMsg)
  members : List Nat
  digest : W64
  phaseOne : Bool
  prepGot : List Nat
  prepSent : Bool
  decided : Option Bool
  queries : List Nat
  answered : List (Nat × Nat × Nat)
  silences : Nat
  digests : List (Nat × W64)
  digestSent : Bool
  released : Bool
  deriving DecidableEq, Repr

def CollSt.reset : CollSt :=
  { runs := [], early := [], held := [], members := [], digest := 0, phaseOne := false, prepGot := [], prepSent := false,
    decided := none, queries := [], answered := [], silences := 0, digests := [], digestSent := false, released := false }

end Sys2Proof.Machine
end

