-- ==== Sys2Proof/Machine/Desc.lean ====
section
/-! DEFINITION. The descriptors of chapters 3, 5, 6 and 7: their fields read from the words of the layout tables, and
the reserved-field checks of R9 and R10. -/

namespace Sys2Proof.Machine

/-- Matrix-operation descriptor (Table 03.2). -/
structure MatDesc where
  shape : Nat
  split : Bool
  accInit : Bool
  replayEn : Bool
  aTrans : Bool
  bTrans : Bool
  after : Bool
  descId : Nat
  dFmt : Nat
  cFmt : Nat
  bFmt : Nat
  aFmt : Nat
  aSrc : Nat
  bSrc : Nat
  cSrc : Nat
  m : Nat
  n : Nat
  k : Nat
  aCtx : Nat
  bCtx : Nat
  cCtx : Nat
  dCtx : Nat
  asCtx : Nat
  bsCtx : Nat
  csCtx : Nat
  dsCtx : Nat
  ksBase : Nat
  ksN : Nat
  ksIdx : Nat
  layerId : Nat
  opTag : Nat
  mBase : Nat
  nBase : Nat
  kBase : Nat
  kTotal : Nat
  deriving DecidableEq, Repr

/-- R66: the fields of a matrix-operation descriptor. -/
def matDesc (w : Words) : MatDesc :=
  let w0 := word w 0; let w1 := word w 1; let w2 := word w 2; let w5 := word w 5; let w6 := word w 6
  { shape := fld w0 23 22, split := bit w0 21, accInit := bit w0 20, replayEn := bit w0 19, aTrans := bit w0 18,
    bTrans := bit w0 17, after := bit w0 16, descId := fld w0 15 0, dFmt := fld w1 31 24, cFmt := fld w1 23 16,
    bFmt := fld w1 15 8, aFmt := fld w1 7 0, aSrc := fld w2 31 30, bSrc := fld w2 29 28, cSrc := fld w2 27 26,
    m := fld w2 23 0, n := fld (word w 3) 23 0, k := fld (word w 4) 27 0, aCtx := fld w5 31 28, bCtx := fld w5 27 24,
    cCtx := fld w5 23 20, dCtx := fld w5 19 16, asCtx := fld w5 15 12, bsCtx := fld w5 11 8, csCtx := fld w5 7 4,
    dsCtx := fld w5 3 0, ksBase := fld w6 31 23, ksN := fld w6 22 17, ksIdx := fld w6 16 11,
    layerId := fld (word w 7) 31 16, opTag := fld (word w 7) 15 0, mBase := fld (word w 8) 23 0,
    nBase := fld (word w 9) 23 0, kBase := (word w 10).toNat, kTotal := fld (word w 11) 27 0 }

/-- All words from index `a` up to `b` are zero. -/
def zeroWords (w : Words) (a b : Nat) : Bool := (List.range (b - a)).all fun i => word w (a + i) == 0

/-- Reserved fields and unlisted encodings of a matrix-operation descriptor (R9, R10, Table 03.2). -/
def matReservedOk (w : Words) : Bool :=
  w.length == 16 && fld (word w 0) 31 24 == 1 && fld (word w 0) 23 22 != 3 && fld (word w 2) 31 30 != 3
    && fld (word w 2) 29 28 != 3 && fld (word w 2) 27 26 != 3 && fld (word w 2) 25 24 == 0
    && fld (word w 3) 31 24 == 0 && fld (word w 4) 31 28 == 0 && fld (word w 6) 10 0 == 0
    && fld (word w 8) 31 24 == 0 && fld (word w 9) 31 24 == 0 && fld (word w 11) 31 28 == 0 && zeroWords w 12 16

/-- Rows and columns of a core shape's output block (Table 03.1). -/
def shapeRows (s : Nat) : Nat := if s = 0 then 32 else if s = 1 then 16 else 64
def shapeCols (s : Nat) : Nat := if s = 0 then 32 else if s = 1 then 64 else 16

/-- One dimension of a stream pattern. -/
structure Dim where
  stride : Int
  count : Nat
  deriving DecidableEq, Repr

/-- Stream descriptor (Table 05.1). -/
structure StreamDesc where
  memKind : Nat
  dir : Bool
  tileKind : Nat
  linTile : Nat
  fmt : Nat
  scaleArr : Bool
  streaming : Bool
  lead : Nat
  ringBase : Nat
  base : Nat
  peerDev : Nat
  peerCore : Nat
  peerCtx : Nat
  dims : List Dim
  layerId : Nat
  tag : Nat
  deriving DecidableEq, Repr

/-- R110: the fields of a stream descriptor. -/
def streamDesc (w : Words) : StreamDesc :=
  let w0 := word w 0; let b := word w 2
  { memKind := fld w0 23 22, dir := bit w0 21, tileKind := fld w0 20 19, linTile := fld w0 18 16,
    fmt := fld w0 15 8, scaleArr := bit w0 7, streaming := bit w0 6, lead := fld w0 5 2,
    ringBase := fld (word w 1) 14 0, base := b.toNat + 2 ^ 32 * fld (word w 3) 15 0,
    peerDev := fld b 31 20, peerCore := fld b 19 11, peerCtx := fld b 10 8,
    dims := (List.range 5).map fun d =>
      { stride := signed 40 ((word w (4 + 2 * d)).toNat + 2 ^ 32 * fld (word w (5 + 2 * d)) 7 0),
        count := fld (word w (5 + 2 * d)) 31 8 },
    layerId := fld (word w 14) 31 16, tag := fld (word w 14) 15 0 }

/-- Reserved fields and unlisted encodings of a stream descriptor (R9, R10, Table 05.1). -/
def streamReservedOk (w : Words) : Bool :=
  let s := streamDesc w
  w.length == 16 && fld (word w 0) 31 24 == 2 && s.memKind != 3 && fld (word w 0) 1 0 == 0
    && fld (word w 1) 31 15 == 0 && fld (word w 3) 31 16 == 0 && word w 15 == 0
    && (if s.tileKind = 3 then decide (1 ≤ s.linTile ∧ s.linTile ≤ 5) else s.linTile == 0)
    && (!s.scaleArr || s.fmt == 0) && (s.memKind == 1 || s.lead == 0) && (s.memKind != 0 || s.ringBase == 0)
    && decide (s.ringBase < 24576) && (s.memKind == 1 || fld (word w 3) 15 0 == 0)
    && (s.memKind != 2 || fld (word w 2) 7 0 == 0)

/-- Elements a stream enumerates: the product of its counts (Table 05.3). -/
def StreamDesc.total (s : StreamDesc) : Nat := s.dims.foldl (fun a d => a * d.count) 1

/-- Bytes of a linear tile (Table 05.1). -/
def linBytes (code : Nat) : Nat := 2 ^ (11 + code)

/-- Sideline command (Table 05.6). -/
structure SideCmd where
  far : Nat
  near : Nat
  toFar : Bool
  len : Nat
  nearAddr : Nat
  farAddr : Nat
  deriving DecidableEq, Repr

/-- R117: the fields of a sideline command. -/
def sideCmd (w : Words) : SideCmd :=
  { far := fld (word w 0) 23 22, near := fld (word w 0) 21 20, toFar := bit (word w 0) 19,
    len := fld (word w 0) 8 0 + 1, nearAddr := (word w 1).toNat,
    farAddr := (word w 2).toNat + 2 ^ 32 * fld (word w 3) 15 0 }

/-- A range ends within a memory of Table 04.1, numbered as the far sides are: tile store 6 MiB, side memory 256 KiB. The
device refuses what lies beyond (DESIGN CHOICE for the refusal, notes/assumptions/63). -/
def inMem (mem stop : Nat) : Bool := mem == 1 || decide (stop ≤ if mem = 0 then 6 * 2 ^ 20 else 2 ^ 18)

/-- R117, R119: reserved fields, and the conditions that need only the command. -/
def sideOk (w : Words) : Bool :=
  let c := sideCmd w
  w.length == 4 && fld (word w 0) 31 24 == 3 && c.far != 3 && c.near != 3 && fld (word w 0) 18 9 == 0
    && fld (word w 3) 31 16 == 0 && (c.near != 0 || c.nearAddr == 0) && (c.far == 1 || fld (word w 3) 15 0 == 0)
    && c.farAddr / 512 == (c.farAddr + c.len - 1) / 512
    && !(c.far == 0 && c.near == 1) && !(c.far == 2 && c.near == 2)
    && inMem c.far (c.farAddr + c.len) && (c.near == 0 || inMem (if c.near = 1 then 0 else 2) (c.nearAddr + c.len))

/-- Vector instruction (Table 06.1). -/
structure VecDesc where
  vop : Nat
  selA : Nat
  selB : Nat
  selC : Nat
  bcast : Nat
  scalSl : Bool
  statMode : Nat
  after : Bool
  xFmt : Nat
  yFmt : Nat
  zFmt : Nat
  vFmt : Nat
  xCtx : Nat
  yCtx : Nat
  zCtx : Nat
  vCtx : Nat
  xsCtx : Nat
  ysCtx : Nat
  zsCtx : Nat
  rowLen : Nat
  count : Nat
  s0 : W32
  s1 : W32
  layerId : Nat
  opTag : Nat
  deriving DecidableEq, Repr

/-- R136: the fields of a vector instruction. -/
def vecDesc (w : Words) : VecDesc :=
  let w0 := word w 0; let w1 := word w 1; let w2 := word w 2
  { vop := fld w0 23 18, selA := fld w0 17 15, selB := fld w0 14 12, selC := fld w0 11 9, bcast := fld w0 8 7,
    scalSl := bit w0 6, statMode := fld w0 5 4, after := bit w0 3, xFmt := fld w1 31 24, yFmt := fld w1 23 16,
    zFmt := fld w1 15 8, vFmt := fld w1 7 0, xCtx := fld w2 31 28, yCtx := fld w2 27 24, zCtx := fld w2 23 20,
    vCtx := fld w2 19 16, xsCtx := fld w2 15 12, ysCtx := fld w2 11 8, zsCtx := fld w2 7 4,
    rowLen := fld (word w 3) 25 13 + 1, count := fld (word w 3) 12 0 + 1, s0 := word w 4, s1 := word w 5,
    layerId := fld (word w 6) 31 16, opTag := fld (word w 6) 15 0 }

/-- Reserved fields and unlisted encodings of a vector instruction (R9, R10). -/
def vecReservedOk (w : Words) : Bool :=
  let v := vecDesc w
  w.length == 8 && fld (word w 0) 31 24 == 4 && decide (v.vop ≤ 0x17) && v.selA != 7 && v.selB != 7 && v.selC != 7
    && v.bcast != 3 && v.statMode != 3 && fld (word w 0) 2 0 == 0 && fld (word w 2) 3 0 == 0
    && fld (word w 3) 31 26 == 0 && word w 7 == 0

/-- How many of the operands a, b, c a `VOP` names (Table 06.3). -/
def vopArity (op : Nat) : Nat :=
  match op with
  | 0x01 | 0x02 | 0x03 | 0x05 | 0x06 | 0x15 | 0x16 => 2
  | 0x04 | 0x07 | 0x17 => 3
  | _ => 1

/-- Row operation (Table 06.5). -/
structure RowDesc where
  rop : Nat
  after : Bool
  gammaEn : Bool
  betaEn : Bool
  causal : Bool
  yRecomp : Bool
  caccEn : Bool
  caccInit : Bool
  statMode : Nat
  xFmt : Nat
  dyFmt : Nat
  outFmt : Nat
  parFmt : Nat
  xCtx : Nat
  dyCtx : Nat
  outCtx : Nat
  gCtx : Nat
  bCtx : Nat
  xsCtx : Nat
  dysCtx : Nat
  osCtx : Nat
  rowLen : Nat
  rows : Nat
  statBase : Nat
  param : W32
  layerId : Nat
  opTag : Nat
  diag : Int
  caccBase : Nat
  deriving DecidableEq, Repr

/-- R146: the fields of a row operation. -/
def rowDesc (w : Words) : RowDesc :=
  let w0 := word w 0; let w1 := word w 1; let w2 := word w 2
  { rop := fld w0 23 20, after := bit w0 19, gammaEn := bit w0 18, betaEn := bit w0 17, causal := bit w0 16,
    yRecomp := bit w0 15, caccEn := bit w0 14, caccInit := bit w0 13, statMode := fld w0 12 11,
    xFmt := fld w1 31 24, dyFmt := fld w1 23 16, outFmt := fld w1 15 8, parFmt := fld w1 7 0,
    xCtx := fld w2 31 28, dyCtx := fld w2 27 24, outCtx := fld w2 23 20, gCtx := fld w2 19 16, bCtx := fld w2 15 12,
    xsCtx := fld w2 11 8, dysCtx := fld w2 7 4, osCtx := fld w2 3 0, rowLen := fld (word w 3) 31 16 + 1,
    rows := fld (word w 3) 15 0 + 1, statBase := fld (word w 4) 16 0, param := word w 5,
    layerId := fld (word w 6) 31 16, opTag := fld (word w 6) 15 0,
    diag := signed 17 (fld (word w 7) 31 15), caccBase := fld (word w 7) 14 0 }

/-- Reserved fields and unlisted encodings of a row operation (R9, R10). -/
def rowReservedOk (w : Words) : Bool :=
  let r := rowDesc w
  w.length == 8 && fld (word w 0) 31 24 == 5 && decide (1 ≤ r.rop ∧ r.rop ≤ 6) && r.statMode != 3
    && fld (word w 0) 10 0 == 0 && fld (word w 4) 31 17 == 0
    && (r.causal || r.diag == 0) && (r.caccEn || r.caccBase == 0)

/-- Group barrier (Table 06.9). -/
def barrierId (w : Words) : Nat := fld (word w 1) 15 0

/-- R133: a barrier's reserved fields. -/
def barrierOk (w : Words) : Bool :=
  w.length == 8 && fld (word w 0) 31 24 == 0x0F && fld (word w 0) 23 0 == 0 && fld (word w 1) 31 16 == 0
    && zeroWords w 2 8

/-! ## Step sections (chapter 7) -/

/-- Step parameters (Table 07.1). -/
structure StepParams where
  groups : Nat
  mbPerStep : Nat
  tokenBudget : Nat
  curvPeriod : Nat
  inboxLimit : Nat
  evalBudget : Nat
  ckptBudget : Nat
  boundaryBudget : Nat
  lstatVa : Nat
  crecVa : Nat
  deriving DecidableEq, Repr

/-- R156. -/
def stepParams (w : Words) : StepParams :=
  { groups := fld (word w 0) 21 16 + 1, mbPerStep := fld (word w 0) 15 0 + 1, tokenBudget := fld (word w 1) 23 0,
    curvPeriod := fld (word w 2) 31 16, inboxLimit := fld (word w 2) 15 0, evalBudget := (word w 3).toNat,
    ckptBudget := (word w 4).toNat, boundaryBudget := (word w 5).toNat, lstatVa := (word w 6).toNat,
    crecVa := (word w 7).toNat }

/-- R157: is step s a curvature-update step? -/
def StepParams.isCurv (p : StepParams) (s : Nat) : Bool := p.curvPeriod != 0 && (s - 1) % p.curvPeriod == 0

/-- Weight record (Table 07.3). -/
structure WeightRec where
  id : Nat
  tieIndex : Nat
  biasAug : Bool
  tieGroup : Nat
  aBlk : Nat
  gBlk : Nat
  aFirst : Nat
  dIn : Nat
  gFirst : Nat
  dOut : Nat
  aCnt : Nat
  gCnt : Nat
  deriving DecidableEq, Repr

/-- R160. -/
def weightRec (w : Words) : WeightRec :=
  { id := fld (word w 0) 31 16, tieIndex := fld (word w 0) 15 8, biasAug := bit (word w 0) 5,
    tieGroup := fld (word w 1) 31 16, aBlk := 32 * fld (word w 1) 15 8, gBlk := 32 * fld (word w 1) 7 0,
    aFirst := fld (word w 2) 31 24, dIn := fld (word w 2) 23 0, gFirst := fld (word w 3) 31 24,
    dOut := fld (word w 3) 23 0, aCnt := fld (word w 4) 31 24, gCnt := fld (word w 4) 23 16 }

def weightReservedOk (w : Words) : Bool :=
  fld (word w 0) 7 6 == 0 && fld (word w 0) 4 0 == 0 && fld (word w 4) 15 0 == 0 && zeroWords w 5 8
    && decide (1 ≤ fld (word w 1) 15 8 ∧ fld (word w 1) 15 8 ≤ 128)
    && decide (1 ≤ fld (word w 1) 7 0 ∧ fld (word w 1) 7 0 ≤ 128)

/-- Dimension of the activation side, and of the gradient side. -/
def WeightRec.aDim (w : WeightRec) : Nat := w.dIn + w.biasAug.toNat
def WeightRec.gDim (w : WeightRec) : Nat := w.dOut

/-- Layer entry (Table 07.2) with its weight records. -/
structure Layer where
  xlatReplay : Bool
  resident : Bool
  padMask : Bool
  group : Nat
  id : Nat
  src : Nat
  actKib : Nat
  winKib : Nat
  fProg : Nat
  bProg : Nat
  wProg : Nat
  tapProg : Nat
  uProg : Nat
  resWords : Nat
  weights : List WeightRec
  deriving DecidableEq, Repr

/-- R159: the fields of a layer entry, without its weight records. -/
def layerEntry (w : Words) (ws : List WeightRec) : Layer :=
  { xlatReplay := bit (word w 0) 23, resident := bit (word w 0) 22, padMask := bit (word w 0) 21,
    group := fld (word w 0) 5 0, id := fld (word w 1) 31 16, src := fld (word w 1) 15 0,
    actKib := (word w 2).toNat, winKib := (word w 3).toNat, fProg := fld (word w 4) 31 16,
    bProg := fld (word w 4) 15 0, wProg := fld (word w 5) 31 16, tapProg := fld (word w 5) 15 0,
    uProg := fld (word w 6) 31 16, resWords := fld (word w 6) 15 0, weights := ws }

def layerReservedOk (w : Words) : Bool :=
  fld (word w 0) 31 24 == 6 && fld (word w 0) 20 16 == 0 && fld (word w 0) 7 6 == 0 && word w 7 == 0
    && decide (fld (word w 0) 15 8 ≤ 64)

/-- Weight records at the front of the words. -/
def takeWeights : Nat → Words → List WeightRec
  | 0, _ => []
  | n + 1, w => weightRec w :: takeWeights n (w.drop 8)

/-- The layer table: entries each followed by its weight records (R159). -/
def layerTable : Nat → Words → List Layer
  | 0, _ => []
  | fuel + 1, w =>
    if w.isEmpty then [] else
    let n := fld (word w 0) 15 8
    layerEntry w (takeWeights n (w.drop 8)) :: layerTable fuel (w.drop (8 + 8 * n))

/-- A training layer has an identifier below 0x8000 (Table 07.2). -/
def Layer.training (l : Layer) : Bool := decide (l.id < 0x8000)

/-- Interleave slot (Table 07.4). -/
structure Slot where
  kind : Nat
  layer : Nat
  mb : Nat
  estUs : Nat
  deriving DecidableEq, Repr

/-- R163. -/
def slotOf (w : Words) : Slot :=
  { kind := fld (word w 0) 31 28, layer := fld (word w 0) 15 0, mb := fld (word w 1) 31 16,
    estUs := fld (word w 1) 15 0 }

/-- A core group: its cores and its slot list. -/
structure Group where
  cores : List Nat
  slots : List Slot
  deriving DecidableEq, Repr

/-- Logical cores a 12-word mask selects (chapter 7: bit n of byte n // 8). -/
def maskCores (w : Words) : List Nat := (List.range 384).filter fun n => bit (word w (n / 32)) (n % 32)

/-- Slots up to the end mark, and the words after it. -/
def takeSlots : Nat → Words → List Slot × Words
  | 0, w => ([], w)
  | fuel + 1, w =>
    let s := slotOf w
    if w.isEmpty then ([], w)
    else if s.kind = 0 then ([], w.drop 2)
    else let (r, w') := takeSlots fuel (w.drop 2); (s :: r, w')

/-- Group descriptions at the front of the words. -/
def takeGroups : Nat → Words → List Group
  | 0, _ => []
  | n + 1, w =>
    let (s, w') := takeSlots w.length (w.drop 12)
    { cores := maskCores w, slots := s } :: takeGroups n w'

/-- The interleave section: step parameters and group descriptions. -/
def interleave (w : Words) : StepParams × List Group :=
  let p := stepParams w
  (p, takeGroups p.groups (w.drop 8))

/-- Evaluation segment (Table 07.7). -/
structure Segment where
  id : Nat
  group : Nat
  first : Nat
  last : Nat
  period : Nat
  slot : Nat
  inboxOp : Nat
  estUs : Nat
  deriving DecidableEq, Repr

/-- R182. -/
def segment (w : Words) : Segment :=
  { id := fld (word w 0) 23 16, group := fld (word w 0) 5 0, first := fld (word w 1) 31 16,
    last := fld (word w 1) 15 0, period := fld (word w 2) 31 16, slot := fld (word w 2) 15 0,
    inboxOp := fld (word w 3) 31 16, estUs := fld (word w 3) 15 0 }

def segmentReservedOk (w : Words) : Bool :=
  fld (word w 0) 31 24 == 8 && fld (word w 0) 15 6 == 0 && zeroWords w 4 8

/-- Cut words into records of `k` words. -/
def records (k : Nat) : Nat → Words → List Words
  | 0, _ => []
  | fuel + 1, w => if w.isEmpty then [] else w.take k :: records k fuel (w.drop k)

end Sys2Proof.Machine
end

