-- ==== Sys2Proof/Machine/CoreState.lean ====
section
/-! DEFINITION. Plain data of the cores, their streams, the core groups, the memories and the translation (chapters 1,
3 to 7 and 13). -/

namespace Sys2Proof.Machine

/-- One element write of a drained tile: `half` 0 writes whole bytes, 1 and 2 the low and high four bits of one byte
(R47, R92). -/
structure EWrite where
  addr : Nat
  half : Nat
  data : Bytes
  deriving DecidableEq, Repr

/-- An admitted stream (R108, R115): its descriptor, the instruction that bound it, the tiles fetched and consumed, the
tiles that stand in its ring to be drained and those the producer still holds back (elements and encodings), the bytes
fetched or delivered by 65,536 × tile + offset, and its pantry prefetcher slot with the tiles prefetched (R102). -/
structure Stream where
  desc : Words
  inst : Nat
  tiles : Nat
  fetched : Nat
  taken : Nat
  out : List (List (Nat × Nat))
  todo : List (List (Nat × Nat))
  produced : Bool
  drained : Nat
  recv : List (Nat × Bytes)
  slot : Bool
  prefetched : Nat
  deriving DecidableEq, Repr

/-- The three units of a core that instructions run on (R132). -/
inductive CUnit where
  | matrix | vector | row
  deriving DecidableEq, Repr

/-- An instruction between admission and completion: what its sideline reads brought, what its sideline writes will
carry, its split-K partials, and its status. -/
structure Inflight where
  id : Nat
  unit : CUnit
  desc : Words
  ctxs : List Nat
  executed : Bool
  reads : List (Nat × Bytes)
  outs : List (Nat × Bytes)
  partials : List W32
  level : Nat
  final : Bool
  status : NStatus
  flush : Nat
  sat : Nat
  replays : Nat
  deriving DecidableEq, Repr

/-- A sideline command not yet carried out: the instruction it serves and the operand's place (R117, R143); `before`: the
first instruction after it in program order (R118). -/
structure SideReq where
  inst : Option Nat
  before : Nat
  role : Nat
  cmd : Words
  deriving DecidableEq, Repr

/-- One logical core: descriptor memory, program position, instructions in flight, sideline queue, barrier, completion
record slot, tile store, side memory, stream contexts, and the end-to-end credit of each context in the attempt: slots the
partner has reported, tiles sent on them, slots reported to the partner (chapters 3 to 6). -/
structure CoreSt where
  descMem : List (Nat × List ProgItem)
  prog : List ProgItem
  pc : Nat
  nextId : Nat
  inflight : List Inflight
  side : List SideReq
  barrier : Option Nat
  recSlot : Nat
  tile : Mem
  sideMem : Mem
  ctx : List (Nat × Stream)
  credit : List (Nat × Nat)
  spent : List (Nat × Nat)
  granted : List (Nat × Nat)
  deriving DecidableEq, Repr

/-- A core as it stands after reset. -/
def CoreSt.reset : CoreSt :=
  { descMem := [], prog := [], pc := 0, nextId := 0, inflight := [], side := [], barrier := none, recSlot := 0,
    tile := [], sideMem := [], ctx := [], credit := [], spent := [], granted := [] }

/-- What a work item is (R164, R182). -/
inductive ItemKind where
  | fwd | bwd | win | upd | bubble
  | eval (seg : Nat) (req : Option Nat)
  deriving DecidableEq, Repr

/-- A work item running on a group. -/
structure Item where
  kind : ItemKind
  layer : Nat
  mb : Nat
  prog : Nat
  deriving DecidableEq, Repr

/-- A missed page of the current item (R129, R131). -/
structure Miss where
  core : Nat
  ctx : Nat
  layer : Nat
  tag : Nat
  va : Nat
  write : Bool
  mapped : Bool
  deriving DecidableEq, Repr

/-- Layer status (Table 07.5). -/
structure LStat where
  status : NStatus
  flush : Nat
  sat : Nat
  replays : Nat
  xlat : Nat
  deriving DecidableEq, Repr

def LStat.zero : LStat := ⟨NStatus.zero, 0, 0, 0, 0⟩

/-- A core group's run of its slot list (R164) with the translation misses of its item (Table 05.7). -/
structure GroupSt where
  pos : Nat
  item : Option Item
  misses : List Miss
  /-- status and counts of the operations the item has completed (R178) -/
  got : LStat
  missTime : Nat
  drained : Bool
  replays : Nat
  /-- local time the slot in progress began, and the one it holds for under gating (R396); `passed`: its hold is over -/
  slotStart : Nat
  held : Option Nat
  passed : Bool
  deriving DecidableEq, Repr

def GroupSt.reset : GroupSt :=
  { pos := 0, item := none, misses := [], got := LStat.zero, missTime := 0, drained := false, replays := 0, slotStart := 0,
    held := none, passed := false }

/-- A pantry set: resident lines as (way, line, dirty), the 15 tree bits, the ways disabled by proofing (R100, R107). -/
structure PSet where
  ways : List (Nat × Nat × Bool)
  plru : BitVec 15
  disabled : List Nat
  deriving DecidableEq, Repr

def PSet.empty : PSet := ⟨[], 0, []⟩

/-- A mapped page of the translation table (R125). -/
structure Page where
  ppn : Nat
  write : Bool
  deriving DecidableEq, Repr

/-- Main memory and what stands in front of it (chapters 4, 5 and 13). `mem` is the coherent view of R99. -/
structure MemSt where
  mem : Mem
  /-- blocks that hold poison in the GDDR7 devices (R318), and blocks that hold another uncorrectable pattern (R313) -/
  poison : List Nat
  broken : List Nat
  /-- translation table: virtual page to physical page -/
  pages : List (Nat × Page)
  /-- misses the steward has still to serve though their item has ended: address and kind (R127, R130, R131) -/
  owed : List (Nat × Bool)
  /-- virtual pages whose retired physical page still holds their data (R321) -/
  lost : List (Nat × Nat)
  /-- address-translation caches (R126): virtual pages of a level-two set by 1,024 h + set, level-one indexes of a
  level-one set by 32 h + set, newest first -/
  atc : List (Nat × List Nat)
  atcOne : List (Nat × List Nat)
  /-- hearths whose BIST save area is reserved (R413) -/
  saving : List Nat
  /-- physical pages invalidated for retirement at the next order 7, and retired pages (R321) -/
  retirePending : List Nat
  retired : List Nat
  /-- pages held for containers: staged, loaded, and in the course of staging (R310) -/
  stagedPages : List Nat
  loadedPages : List Nat
  holdPages : List Nat
  /-- pantry sets by 49,152 h + set -/
  pantry : List (Nat × PSet)
  /-- pantry prefetcher slots in use per hearth (R102) -/
  slots : List (Nat × Nat)
  /-- pin rate of each channel in Gbit/s (0x4000:03) -/
  rates : List Nat
  interleave : Nat
  /-- patrol scrub: blocks done in this pass and its start (R317, 0x4000:05) -/
  scrubDone : Nat
  scrubStart : Nat
  up : Bool
  deriving DecidableEq, Repr

end Sys2Proof.Machine
end

