-- ==== Sys2Proof/Machine/FabState.lean ====
section
/-! DEFINITION. Plain data of the optical fabric (chapter 12). -/

namespace Sys2Proof.Machine

/-- A packet waiting at an output port: as it stood here, as it leaves, and the port whose receive buffer holds it. -/
structure Waiting where
  orig : Packet
  p : Packet
  hold : Option Nat
  deriving DecidableEq, Repr

/-- A fabric port (R287, Table 12.9): state code, lanes in service, peer, packets waiting, packets sent and not yet
acknowledged with their first link sequence number and flits (the replay buffer), next link sequence number to send and to
accept, credit used and receive buffer held per lane and class (R294), hush received (last symbol, start), time until which
hushes are disregarded, hush sent (since, until at the latest), last bulk lane served. -/
structure Port where
  state : Nat
  lanes : Nat
  peerDev : Nat
  peerPort : Nat
  queue : List Waiting
  unacked : List (Nat × Nat × Waiting)
  nextSeq : Nat
  nextIn : Nat
  used : List (Nat × Nat)
  held : List (Nat × Nat)
  hushLast : Option Nat
  hushSince : Nat
  disregardUntil : Nat
  hushing : Option (Nat × Nat)
  lastBulk : Nat
  deriving DecidableEq, Repr

def Port.reset : Port :=
  { state := 0, lanes := 0, peerDev := 0xFFFF, peerPort := 0xFF, queue := [], unacked := [], nextSeq := 0, nextIn := 0, used := [], held := [],
    hushLast := none, hushSince := 0, disregardUntil := 0, hushing := none, lastBulk := 2 }

/-- The fabric: coordinates, sizes and substitutions in force since the last reconfiguration (R285, R305, R306), ports,
links of the three lines known to be down as (device, port) (R301), token bucket (R297), packets waiting for it,
packets delivered to the units, destinations counted for route-around this step (R299), flows that are gathers, a
reconfiguration or a wake whose ports still train (Tables 12.7 and 12.8). -/
structure FabSt where
  coord : List Nat
  nY : Nat
  nZ : Nat
  cabling : Nat
  subst : List Nat
  ports : List (Nat × Port)
  down : List (Nat × Nat)
  tokens : Nat
  tokenUs : Nat
  inject : List Packet
  delivered : List Packet
  counted : List Nat
  gathers : List Nat
  rebuilding : Bool
  waking : Bool
  deriving DecidableEq, Repr

/-- The token bucket's depth, 4 MiB (R297). -/
def bucketDepth : Nat := 4 * 2 ^ 20

def FabSt.reset : FabSt :=
  { coord := [0xFF, 0xFF, 0xFF], nY := 16, nZ := 16, cabling := 0, subst := List.replicate 48 0xFF, ports := [],
    down := [], tokens := bucketDepth, tokenUs := 0, inject := [], delivered := [], counted := [], gathers := [],
    rebuilding := false, waking := false }

end Sys2Proof.Machine
end

