-- ==== Sys2Proof/Machine/LeavenState.lean ====
section
/-! DEFINITION. Plain data of the leaven engines (chapter 8). Root records, factor states and roots themselves lie in
main memory. -/

namespace Sys2Proof.Machine

/-- Where a problem stands: no root to solve; waiting for admission; running with B loaded; decided with a root not yet
committed; committed with `READY` = 1. -/
inductive ProbPhase where
  | none | waiting | running | decided | ready
  deriving DecidableEq, Repr

/-- A problem's run: source and current due step, later sources queued behind it, the average A it loaded, its cell or
the cores of the piece in progress, products completed in borrowed mode, the result (root or inverse as a dense matrix),
iteration count, escalations, residual, start kind, ε, whether tiles and header are written, destinations that have not
acknowledged, the decision latched for a step (0 none, 1 new, 2 missed, 3 abandoned), the step of the last ROOT_MISSED,
the estimate of R397 it runs under in mW, and the hold of its next piece under gating (R396); roots that ended in
ROOT_CAP or PIVOT_FAIL and wait for their due step, as (due, code) (R211); the step whose fold last abandoned a root
(R212); decisions of further steps a destination holds, by step, as (slot, decision) (R218). -/
structure ProbSt where
  phase : ProbPhase
  src : Nat
  due : Nat
  later : List Nat
  mat : List (List W32)
  starter : Option (List (List W32))
  cell : Option Nat
  cores : List Nat
  pieces : Nat
  sol : List (List W32)
  iters : Nat
  esc : Nat
  resid : W32
  kind : Nat
  eps : W32
  written : Bool
  acks : List Nat
  latch : Nat
  latchStep : Nat
  missLogged : Nat
  est : Nat
  held : Option Nat
  passed : Bool
  ended : List (Nat × Nat)
  aband : Nat
  notes : List (Nat × (Nat × Nat))
  deriving DecidableEq, Repr

def ProbSt.reset : ProbSt :=
  { phase := .none, src := 0, due := 0, later := [], mat := [], starter := none, cell := none, cores := [], pieces := 0,
    sol := [], iters := 0, esc := 0, resid := 0, kind := 0, eps := 0, written := false, acks := [], latch := 0,
    latchStep := 0, missLogged := 0, est := 0, held := none, passed := false, ended := [],
    aband := 0, notes := [] }

/-- An entry of a starter table: signature words, slot, root store (R199). -/
structure Starter where
  sig0 : Nat
  sig1 : Nat
  slot : Nat
  rootVa : Nat
  deriving DecidableEq, Repr

/-- The leaven engines: problems by recipe order, starter tables by 4,096 × hearth + index, starter entries lost since
they were last written, problems folded in this step (0 when the step's fold has not run), roots that came into force
and misses raised at the step (Table 16.7), mismatches logged since the last step record, whether admission is closed
for the boundary (R207). -/
structure LeavenSt where
  probs : List (Nat × ProbSt)
  starters : List (Nat × Starter)
  lostStarters : List Nat
  folded : Bool
  fresh : Nat
  missed : Nat
  capped : Nat
  pivoted : Nat
  mismatches : Nat
  closed : Bool
  deriving DecidableEq, Repr

def LeavenSt.reset : LeavenSt :=
  { probs := [], starters := [], lostStarters := [], folded := false, fresh := 0, missed := 0, capped := 0,
    pivoted := 0, mismatches := 0, closed := false }

end Sys2Proof.Machine
end

