-- ==== Sys2Proof/Machine/State.lean ====
section
/-! DEFINITION. The state of the NQ7 as plain data, the reasons a command can stop, and the state after reset: a new
module (R365) under RESET_N (R450). -/

namespace Sys2Proof.Machine

/-- Why a command faults. -/
inductive Fault where
  /-- Raised by the input-voltage event above 60.0 V, outside the absolute maximum rating: the manual guarantees no
  behaviour (Table 17.1). Safe: the model stops where the hardware does anything. -/
  | absoluteMaximum
  deriving DecidableEq, Repr

/-- Why a command is refused by the model. -/
inductive Refusal where
  /-- Raised by an arm of `exec` whose command has no meaning yet. Safe: the model stops where the hardware goes on. -/
  | notModelled (mnemonic : String)
  deriving DecidableEq, Repr

/-- The whole state of the block. -/
structure State where
  /-- commands waiting, first in, first out -/
  pending : List Instr
  /-- local microsecond count (R8) -/
  localUs : Nat
  pins : Pins
  gov : Gov
  dev : Dev
  /-- dictionary values as written, and the values in force (R129, R368) -/
  regs : Regs
  eff : Regs
  sec : Sec
  edp : Edp
  log : Log
  job : Job
  bnd : Boundary
  recipe : Recipe
  eval : Eval
  results : List (Nat × ResultSlot)
  /-- step records by place step % 4,096 (R377), the latest one, and its step -/
  history : List (Nat × Bytes)
  record : Bytes
  groups : List (Nat × GroupSt)
  cores : List (Nat × CoreSt)
  lstat : List (Nat × LStat)
  mm : MemSt
  /-- read-only counters of the dictionary, by 256 × index + subindex -/
  counters : List (Nat × Nat)
  ports : List HostPort
  conns : List Conn
  ingest : Ingest
  coll : CollSt
  leaven : LeavenSt
  fab : FabSt
  /-- messages sent, oldest first -/
  tx : List Tx
  /-- the model's own counter of open values taken so far (notes/assumptions/1) -/
  free : Nat
  deriving DecidableEq, Repr

/-- Dictionary values of a new module (R365): the defaults of the tables. -/
def Regs.default : Regs :=
  { inputCap := 2000, tjLimit := 100, outLimit := 60, vMax := 850, vMin := 600, elective := true, holdback := 50,
    autoProof := true, repeatLimit := 3, streamWd := 20000, replayBound := 50000, silence := 500000, interleave := 0,
    scrubPeriod := 24, plcaNode := 0, idleTime := 60, minSvn := 0, portAddr := [[], []], vlan := [0, 0],
    prio := [3, 6, 0], ingestBound := 10000, resumeStep := 0, inboxSlots := 256, clients := [], logMask := 0xFFFF,
    lvTolNative := 0x38800000, lvTolBorrowed := 0x3A800000, lvIterCap := 24, lvMissLimit := 4,
    coord := [0xFF, 0xFF, 0xFF], nY := 16, nZ := 16, cabling := 0, laneMask := List.replicate 48 0,
    spare := List.replicate 48 0xFF }

/-- Pins while RESET_N is low: VSTBY and STBY_GOOD stand (R450). -/
def Pins.reset : Pins :=
  { pwrEn := false, resetAsserted := true, interlockOpen := false, stbyGood := true, pwrGood := false,
    alert := false, thermTrip := false, slotId := 0, latch := false, earlyPwrEn := false, bankAOk := true,
    bankBOk := true }

/-- Measurements before the first sample, and the governor before a job runs. -/
def Gov.reset : Gov :=
  { inputMw := 0, inputMv := 0, inputMa := 0, energy := 0, electiveMw := 0, tj := [0, 0, 0, 0], inlet := 0, outlet := 0, crust := 0,
    gddr := 0, regulator := 0, vcore := [0, 0, 0, 0], target := 600, ceiling := [850, 850, 850, 850], boundUs := 0,
    freeUs := 0, gating := false, gateLogged := false, inputFault := false, alertClearAt := none, minMv := 0,
    powerSum := 0, powerN := 0 }

def SelfTest.idle : SelfTest := ⟨0, 0, [], false⟩

def Dev.reset : Dev :=
  { st := .standby, bootFailed := false, bankA := none, bankB := none, activeB := false, runningDigest := none,
    runningSvn := 0, stage := 0, reason := 0, proofFailed := false, test := SelfTest.idle,
    map := List.replicate 384 0xFF, phys := List.replicate 400 3, badCells := [], badStarters := [], badWays := [],
    mainUp := false, hostUp := [false, false] }

/-- A new module is UNOWNED and client slot 0 holds the factory key with controller right (R424). -/
def Sec.reset : Sec :=
  { state := 0, owner := [], clients := [(0, (Config.factoryKeyDigest, 1))], ctr := 0, floor := 0 }

def Edp.reset : Edp :=
  { sessions := [], subs := [], holds := [], hellos := [], relays := [], t1s := 0, sessionNo := 0 }

def Job.reset : Job :=
  { st := .idle, haltCode := 0, committed := 0, step := 0, attempt := 0, seed := 0, pend := none, taken := none,
    ckptAsked := false, causes := [], abortAsked := false, ckptValid := 0, stepStart := 0, commitUs := 0,
    haltPend := none, done := [], fencedInStep := 0, logInStep := 0, loggedOnce := [], replayed := [], eccLogged := [], installing := [],
    ckptHdrs := [(0, []), (0, [])] }

def Boundary.reset : Boundary := ⟨0, 0, false, 0, 0, 0, 0, 0, 0⟩

def Recipe.reset : Recipe := ⟨none, [], 0, none, [], false, false, false⟩

def Eval.reset : Eval := ⟨[], [], [], none, 0, [], [], 0, []⟩

def MemSt.reset : MemSt :=
  { mem := [], poison := [], broken := [], pages := [], owed := [], lost := [], atc := [], atcOne := [], saving := [], retirePending := [], retired := [], stagedPages := [], loadedPages := [], holdPages := [], pantry := [], slots := [], rates := List.replicate 24 0, interleave := 0, scrubDone := 0,
    scrubStart := 0, up := false }

def HostPort.reset : HostPort := ⟨false, 0, 0, 0, 0, []⟩

def Cursor.zero : Cursor := ⟨0, 0, 0⟩

def Ingest.reset : Ingest :=
  { packStep := 0, mbs := [], open_ := 0, packed := false, cursor := Cursor.zero, cursorAt := [], idleAt := [], bytes := [],
    reads := [], nextCid := 0, nextPort := 0, idleCursor := none, hdrs := [], setAside := [], notices := [],
    queue := [], queueAt := [], split := [], lateBounds := 0, blk4k := [] }

/-- The block right after reset: a new module with RESET_N acting, in STANDBY (R365, R450). -/
def State.reset : State :=
  { pending := [], localUs := 0, pins := Pins.reset, gov := Gov.reset, dev := Dev.reset, regs := Regs.default,
    eff := Regs.default, sec := Sec.reset, edp := Edp.reset, log := ⟨[], [], 0⟩, job := Job.reset,
    bnd := Boundary.reset, recipe := Recipe.reset, eval := Eval.reset, results := [], history := [],
    record := List.replicate 256 0, groups := [], cores := [], lstat := [], mm := MemSt.reset, counters := [],
    ports := [HostPort.reset, HostPort.reset], conns := [], ingest := Ingest.reset, coll := CollSt.reset,
    leaven := LeavenSt.reset, fab := FabSt.reset, tx := [], free := 0 }

end Sys2Proof.Machine
end

