-- ==== Sys2Proof/Machine/Ops.lean ====
section
/-! DEFINITION. The shared operations of the steward: counters, log, events, acknowledgments, session and state
changes (chapters 15, 16 and 20). -/

namespace Sys2Proof.Machine

/-! ## Small accessors -/

/-- The key of a counter entry. -/
def ck (idx sub : Nat) : Nat := 256 * idx + sub

/-- A read-only counter of the dictionary. -/
def State.counter (s : State) (idx sub : Nat) : Nat := tget 0 s.counters (ck idx sub)

/-- Add to a counter of `bits` bits; it does not wrap within the service life (R8's wording for counts; saturating). -/
def bump (idx sub n bits : Nat) (s : State) : State :=
  { s with counters := tset s.counters (ck idx sub) (satAdd bits (s.counter idx sub) n) }

/-- Set a counter. -/
def setCounter (idx sub n : Nat) (s : State) : State := { s with counters := tset s.counters (ck idx sub) n }

/-- Append a sent message. -/
def send (t : Tx) (s : State) : State := { s with tx := s.tx ++ [t] }

/-- R35, Table 16.4: RUNNING, PAUSED or REPEATING. -/
def JobState.live : JobState → Bool
  | .running | .paused | .repeating => true
  | _ => false

/-- RUNNING or REPEATING. -/
def JobState.stepping : JobState → Bool
  | .running | .repeating => true
  | _ => false

/-- The loaded recipe's sections. -/
def State.recipeOf (s : State) : Option Container := s.recipe.loaded

/-- The step a record carries: the step in progress, or at a boundary (and when no step runs) the step just committed
(R383). -/
def State.stepNow (s : State) : Nat :=
  if s.job.st.stepping && s.bnd.order = 0 then s.job.step else s.job.committed

/-- A group's run state. -/
def State.group (s : State) (g : Nat) : GroupSt := tget GroupSt.reset s.groups g
def setGroup (g : Nat) (x : GroupSt) (s : State) : State := { s with groups := tset s.groups g x }

/-- A logical core. -/
def State.core (s : State) (n : Nat) : CoreSt := tget CoreSt.reset s.cores n
def setCore (n : Nat) (x : CoreSt) (s : State) : State := { s with cores := tset s.cores n x }

/-- A layer status. -/
def State.layerStat (s : State) (l : Nat) : LStat := tget LStat.zero s.lstat l

/-- A result slot. -/
def State.slot (s : State) (k : Nat) : ResultSlot := tget ResultSlot.empty s.results k

/-- The next open value's ordinal, and the state in which it has been taken. -/
def takeFree (s : State) : Nat × State := (s.free, { s with free := s.free + 1 })

/-! ## Records -/

/-- A log record's 64 bytes (Table 16.13). -/
def LogRec.bytes (r : LogRec) : Bytes :=
  leBytes 4 (r.code * 2 ^ 16 + r.src * 2 ^ 8 + r.hearth) ++ leBytes 4 (r.unit * 2 ^ 16 + r.layer)
    ++ leBytes 8 r.step ++ leBytes 8 r.us ++ leBytes 8 r.seq
    ++ (List.range 8).flatMap (fun i => leBytes 4 (r.detail.getD i 0))

/-- An event record (Table 15.9): 48 bytes, and the step record for kind 1. -/
def Event.bytes (e : Event) : Bytes :=
  leBytes 4 (e.kind * 2 ^ 16 + e.code) ++ leBytes 8 e.step ++ leBytes 8 e.us
    ++ leBytes 4 (e.idx * 2 ^ 16 + e.sub * 2 ^ 8) ++ (e.detail ++ List.replicate 16 0).take 16 ++ leBytes 8 0 ++ e.body

/-! ## Sessions and events -/

/-- The live session of an identifier. -/
def State.session (s : State) (sid : BitVec 32) : Option Session := s.edp.sessions.find? fun x => x.sid == sid

def setSession (x : Session) (s : State) : State :=
  { s with edp := { s.edp with sessions := s.edp.sessions.map fun y => if y.sid == x.sid then x else y } }

/-- R351: when a session closes, its subscriptions, event queue and WRITE_BLOCK holds go with it. -/
def closeSession (sid : BitVec 32) (s : State) : State :=
  { s with edp := { s.edp with
      sessions := s.edp.sessions.filter fun x => x.sid != sid
      subs := s.edp.subs.filter fun x => x.2.sid != sid
      holds := s.edp.holds.filter fun h => h.sid != sid } }

/-- Close every session (RESET_N, entry to STANDBY). -/
def closeAll (s : State) : State :=
  { s with edp := { s.edp with sessions := [], subs := [], holds := [] } }

/-- Close every session of a key. -/
def closeKey (key : Bytes) (s : State) : State :=
  (s.edp.sessions.filter fun x => x.key == key).foldl (fun s x => closeSession x.sid s) s

/-- R431: the next sequence number of a session's device side; the session closes after 0xFFFF_FFFF. -/
def nextTx (sid : BitVec 32) (s : State) : Nat × State :=
  match s.session sid with
  | none => (0, s)
  | some x => (x.txSeq + 1, setSession { x with txSeq := x.txSeq + 1 } s)

/-- Number of queued events that take a place (R361). -/
def queued (q : List Event) : Nat := q.countP fun e => e.kind != 6

/-- Drop the oldest unsent event that is no kind 6 event. -/
def dropOldest : List Event → List Event
  | [] => []
  | e :: r => if e.seq.isNone && e.kind != 6 then r else e :: dropOldest r

/-- Insert before the first unsent event. -/
def insertUnsent (x : Event) : List Event → List Event
  | [] => [x]
  | e :: r => if e.seq.isNone then x :: e :: r else e :: insertUnsent x r

/-- Mark the first unsent event as sent under a number. -/
def markSent (n : Nat) : List Event → List Event
  | [] => []
  | e :: r => if e.seq.isNone then { e with seq := some n } :: r else e :: markSent n r

/-- A kind 6 event carrying a tally. -/
def dropEvent (s : State) (tally : Nat) : Event :=
  { kind := 6, code := 0, step := s.stepNow, us := s.localUs, idx := 0, sub := 0, detail := leBytes 4 tally,
    body := [], seq := none, resends := 0 }

/-- Send queued events of subscription `k` while fewer than 16 are unacknowledged (R361). -/
def pump (k : Nat) : Nat → State → State
  | 0, s => s
  | fuel + 1, s =>
    match s.edp.subs.find? fun x => x.1 == k with
    | none => s
    | some (_, sub) =>
      let sub := if sub.tally = 0 then sub
        else { sub with queue := insertUnsent (dropEvent s sub.tally) sub.queue, tally := 0 }
      let s := { s with edp := { s.edp with subs := tset s.edp.subs k sub } }
      if 16 ≤ sub.queue.countP (fun e => e.seq.isSome) then s else
      match sub.queue.find? fun e => e.seq.isNone with
      | none => s
      | some e =>
        let (n, s) := nextTx sub.sid s
        let s := { s with edp := { s.edp with subs := tset s.edp.subs k { sub with queue := markSent n sub.queue } } }
        let s := send (.event sub.transport sub.peer sub.sid n { e with seq := some n }) s
        pump k fuel (if n = 0xFFFFFFFF then closeSession sub.sid s else s)

/-- Queue an event on one subscription (R361). -/
def enqueue (k : Nat) (e : Event) (s : State) : State :=
  match s.edp.subs.find? fun x => x.1 == k with
  | none => s
  | some (_, sub) =>
    if 256 ≤ queued sub.queue then
      let sub := { sub with queue := dropOldest sub.queue ++ [e], tally := sub.tally + 1, dropped := sub.dropped + 1 }
      pump k 17 (bump 0x1100 0x0A 1 64 { s with edp := { s.edp with subs := tset s.edp.subs k sub } })
    else
      pump k 17 { s with edp := { s.edp with subs := tset s.edp.subs k { sub with queue := sub.queue ++ [e] } } }

/-- R359: does a subscription select an event? -/
def wants (sub : Subscription) (e : Event) : Bool :=
  sub.kinds.getLsbD e.kind && (e.kind != 4 || sub.classes.getLsbD (e.code / 256))

/-- Queue an event on every subscription that selects it. -/
def raiseEvent (e : Event) (s : State) : State :=
  (s.edp.subs.filter fun x => wants x.2 e).foldl (fun s x => enqueue x.1 e s) s

/-- Build an event at the present moment. -/
def mkEvent (s : State) (kind code idx sub : Nat) (detail body : Bytes) : Event :=
  { kind := kind, code := code, step := s.stepNow, us := s.localUs, idx := idx, sub := sub, detail := detail,
    body := body, seq := none, resends := 0 }

/-! ## The log -/

/-- Append to a ring of bounded length, the oldest record going first. -/
def ringPush {α : Type} (cap : Nat) (r : List α) (x : α) : List α :=
  if cap ≤ r.length then (r ++ [x]).drop (r.length + 1 - cap) else r ++ [x]

/-- Classes the fault log keeps (R382). -/
def faultClass (code : Nat) : Bool := code / 256 == 4 || code / 256 == 7 || code / 256 == 8

/-- R382, R383: write a log record. A disabled class is neither recorded in the ring nor sent as an event. -/
def logAdd (code src hearth unit layer : Nat) (detail : List Nat) (s : State) : State :=
  let on := s.regs.logMask.testBit (code / 256)
  let flt := faultClass code
  if !on && !flt then s else
  let r : LogRec := { code := code, src := src, hearth := hearth, unit := unit, layer := layer, step := s.stepNow,
                      us := s.localUs, seq := s.log.seq, detail := detail }
  let s := { s with
    log := { ring := if on then ringPush 65536 s.log.ring r else s.log.ring
             fault := if flt then ringPush 1024 s.log.fault r else s.log.fault
             seq := s.log.seq + 1 }
    job := { s.job with logInStep := s.job.logInStep + 1 } }
  if on then raiseEvent (mkEvent s 4 code 0xA000 3 (r.bytes.take 16) []) s else s

/-- A record of the steward without hearth, unit or layer. -/
def logPlain (code : Nat) (detail : List Nat) (s : State) : State := logAdd code 8 0xFF 0 0xFFFF detail s

/-- Two words of a 64-bit value, low word first (R435). -/
def w64 (n : Nat) : List Nat := [n % 2 ^ 32, n / 2 ^ 32 % 2 ^ 32]

/-! ## Device and job states -/

/-- Change the device state; each change of 0x1000:07 queues an event of kind 3 (R367). -/
def setDev (d : DevState) (s : State) : State :=
  if d = s.dev.st then s else
  let old := s.dev.st
  let s := { s with dev := { s.dev with st := d } }
  raiseEvent (mkEvent s 3 0 0x1000 7 (leBytes 1 old.code ++ leBytes 1 d.code) []) s

/-- The job state and its halt code change. Leaving RUNNING and PAUSED for LOADED, HALTED or IDLE discards queued inbox
requests (R340). -/
def jobRecord (j : JobState) (halt : Nat) (s : State) : State :=
  { s with
    job := { s.job with st := j, haltCode := if j = .halted then halt else 0 }
    eval := if s.job.st.live && !j.live then { s.eval with queue := [], refused := [], running := none } else s.eval }

/-- The device state follows the job (Table 16.4): ACTIVE while it is live. -/
def followJob (old j : JobState) (s : State) : State :=
  if j.live && s.dev.st = .ready then setDev .active s
  else if old.live && !j.live && s.dev.st = .active then setDev .ready s
  else s

/-- Change the job state with its event of kind 2 (R373), and the device state with it. -/
def setJob (j : JobState) (halt : Nat) (s : State) : State :=
  if j = s.job.st then s else
  let t := jobRecord j halt s
  followJob s.job.st j (raiseEvent (mkEvent t 2 (if j = .halted then halt else 0) 0x5000 1
    (leBytes 1 s.job.st.code ++ leBytes 1 j.code) []) t)

/-- VCORE of every hearth (R395). -/
def setVcore (mv : Nat) (s : State) : State := { s with gov := { s.gov with vcore := [mv, mv, mv, mv] } }

/-! ## Acknowledgments -/

/-- An acknowledgment with nothing but a status. -/
def ackStatus (status idx sub : Nat) : Ack := ⟨status, idx, sub, 0, 0, []⟩

def OK : Nat := 0x0000
def NOT_READY : Nat := 0x0601
def ACCESS_DENIED : Nat := 0x0602
def BUSY : Nat := 0x0603
def TYPE_MISMATCH : Nat := 0x0604
def SIGNATURE_BAD : Nat := 0x0801
def DESCRIPTOR_INVALID : Nat := 0x0901
def K_TOO_LONG : Nat := 0x0902
def BUDGET_EXCEEDED : Nat := 0x0903
def CORES_UNAVAILABLE : Nat := 0x0904
def STEP_REPEAT_LATE : Nat := 0x0201
def STEP_REPEAT_FAULT : Nat := 0x0202
def REPEAT_LIMIT : Nat := 0x0203
def STREAM_STALL : Nat := 0x0204
def ROOT_MISSED : Nat := 0x0301
def ECC_UNCORRECTABLE : Nat := 0x0402
def TRANSLATION_MISS : Nat := 0x0403
def PARTNER_SILENT : Nat := 0x0503
def CORE_FENCED : Nat := 0x0701

/-- The device's own identifier, 0xFFFF while unassigned: from the coordinates in force since the last reconfiguration
while main power is up, as written otherwise (R285, R306). -/
def State.devId (s : State) : Nat :=
  match (if s.dev.mainUp then s.fab.coord else s.regs.coord) with
  | [x, y, z] => if x < 16 && y < 16 && z < 16 then x * 256 + y * 16 + z else 0xFFFF
  | _ => 0xFFFF

/-- The steward is running and serves the dictionary: not OFF, not held in reset, and booted. -/
def State.stewardUp (s : State) : Bool :=
  s.dev.st != .off && s.pins.stbyGood && !s.pins.resetAsserted && decide (1 ≤ s.dev.stage) && !s.dev.bootFailed

end Sys2Proof.Machine
end

