-- ==== Sys2Proof/Machine/Fabric.lean ====
section
/-! DEFINITION. Ports, routing, credit, hush and discovery of the optical fabric (chapter 12). -/

namespace Sys2Proof.Machine

/-- Port p. -/
def State.port (s : State) (p : Nat) : Port := tget Port.reset s.fab.ports p
def setPort (p : Nat) (x : Port) (s : State) : State :=
  { s with fab := { s.fab with ports := tset s.fab.ports p x } }

/-- Size of a dimension in force (R286). -/
def State.dimSize (s : State) (d : Nat) : Nat := if d = 0 then 16 else if d = 1 then s.fab.nY else s.fab.nZ

/-- Coordinate `d` of a device identifier (R285). -/
def coordOf (dev d : Nat) : Nat := if d = 0 then dev / 256 % 16 else if d = 1 then dev / 16 % 16 else dev % 16

/-- The device identifier in force, 0xFFFF while unassigned. -/
def State.fabId (s : State) : Nat :=
  match s.fab.coord with
  | [x, y, z] => if x < 16 && y < 16 && z < 16 then x * 256 + y * 16 + z else 0xFFFF
  | _ => 0xFFFF

/-- A device identifier with coordinate `d` replaced. -/
def withCoord (dev d v : Nat) : Nat :=
  let f (i : Nat) : Nat := if i = d then v else coordOf dev i
  f 0 * 256 + f 1 * 16 + f 2

/-- R287, R305: the wired port number whose place a port takes: its own, or for a spare the one substituted. -/
def State.placeOf (s : State) (p : Nat) : Option Nat :=
  if p < 45 then (if s.fab.subst.contains p then none else some p)
  else let w := s.fab.subst.getD p 0xFF; if w < 45 then some w else none

/-- R287, R288: dimension and offset of a port, none when it is unwired. -/
def State.roleOf (s : State) (p : Nat) : Option (Nat × Nat) :=
  match s.placeOf p with
  | none => none
  | some w => if (w / 3 + 1) % s.dimSize (w % 3) = 0 then none else some (w % 3, w / 3 + 1)

/-- The port that serves a dimension at an offset. -/
def State.portAt (s : State) (dim delta : Nat) : Option Nat :=
  (List.range 48).find? fun p => s.placeOf p = some (3 * (delta - 1) + dim)

/-- UP or DEGRADED. -/
def Port.usable (x : Port) : Bool := x.state == 3 || x.state == 4

/-- Is this device's port at (dim, δ) usable? -/
def State.deltaUp (s : State) (dim delta : Nat) : Option Nat :=
  match s.portAt dim delta with
  | some p => if (s.port p).usable then some p else none
  | none => none

/-- Offsets of the trunk to relative coordinate k, from index h, ascending and wrapping (R292). -/
def trunk (n k h : Nat) : List Nat := (List.range (16 / n)).map fun i => k + n * ((h + i) % (16 / n))

/-- The first usable port of a trunk. -/
def State.trunkPort (s : State) (dim n k h : Nat) : Option Nat := (trunk n k h).findSome? (s.deltaUp dim)

/-- Is the link of another device over a relative coordinate usable in this device's link-state map? -/
def State.linkUp (s : State) (dev dim n k : Nat) : Bool :=
  (trunk n k 0).any fun d => !s.fab.down.contains (dev, 3 * (d - 1) + dim)

/-- What forwarding decides for a packet. -/
inductive Hop where
  | deliver
  | go (port : Nat) (detour : Bool)
  | drop (port : Nat)
  deriving DecidableEq, Repr

/-- R292, R299: the next hop of a packet at this device, trying dimensions in order: the first that differs by its trunk,
then by a detour inside it, each later one by its trunk only. `first`: no dimension was passed over yet. `fail`: the port
to count a drop at. -/
def State.nextHop (s : State) (p : Packet) : List Nat → Bool → Option Nat → Hop
  | [], _, fail => match fail with | some q => .drop q | none => .deliver
  | dim :: rest, first, fail =>
    let n := s.dimSize dim
    let v := coordOf s.fabId dim
    let k := (coordOf p.dst dim + n - v % n) % n
    if k = 0 then s.nextHop p rest first fail else
    let h := (p.src + p.dst + p.flow) % (16 / n)
    match s.trunkPort dim n k h with
    | some q => .go q (!first)
    | none =>
      let want := (s.portAt dim (k + n * h)).getD 0
      let inter := if first then (List.range n).find? fun c =>
          c != 0 && c != k && (s.trunkPort dim n c h).isSome
            && s.linkUp (withCoord s.fabId dim ((v + c) % n)) dim n ((k + n - c) % n)
        else none
      match inter with
      | some c => .go ((s.trunkPort dim n c h).getD 0) true
      | none => s.nextHop p rest false (some (fail.getD want))

/-! ## Flits and link words (R289, R291) -/

/-- Flits of a packet (R291). -/
def flits (p : Packet) : Nat := 1 + cdiv p.payload.length 64

/-- The header flit of a packet (Table 12.1). -/
def packetHeader (p : Packet) : Bytes :=
  leBytes 4 (p.dst * 2 ^ 20 + p.src * 2 ^ 8 + p.vl * 2 ^ 6 + p.origVl * 2 ^ 4 + p.escClass * 2)
    ++ leBytes 4 (p.kind * 2 ^ 28 + p.hops * 2 ^ 24 + (p.payload.length - 1) * 2 ^ 12 + p.dstHearth * 2 ^ 10 + p.dstCore * 2)
    ++ leBytes 4 (p.flow * 2 ^ 16 + p.attempt * 2 ^ 8 + p.dstCtx * 2 ^ 5)
    ++ leBytes 8 p.step ++ leBytes 4 p.seq ++ leBytes 4 p.offset ++ leBytes 4 p.pcrc ++ leBytes 4 p.nstatus
    ++ List.replicate 28 0

/-- The flits of a packet, the last padded with zeros. -/
def packetFlits (p : Packet) : List Bytes :=
  packetHeader p :: (List.range (cdiv p.payload.length 64)).map fun k =>
    ((p.payload.drop (64 * k)).take 64 ++ List.replicate 64 0).take 64

/-- The link words of a packet whose header flit has link sequence number n; its flits go one after another (DESIGN CHOICE,
notes/assumptions/77). -/
def linkWords (n : Nat) (p : Packet) : List LinkWord :=
  ((packetFlits p).zipIdx).map fun (f, i) => ⟨p.vl, i == 0, i + 1 == flits p, (n + i) % 4096, f⟩

/-! ## Credit (R294, R296) -/

/-- Credit class of a packet on its lane (Table 12.4) and its reserve in flits. -/
def creditClass (s : State) (p : Packet) : Nat :=
  if p.vl = 0 then p.escClass else if p.vl = 3 then 24 + p.escClass
  else if p.vl = 2 then 16 else if s.fab.gathers.contains p.flow then 9 else 8

/-- Reserved flits of a class; 32 is the shared credit. -/
def creditCap (c : Nat) : Nat := if c < 6 ∨ (24 ≤ c ∧ c < 30) then 128 else if c = 32 then 7680 else 1024

/-- Credit left of a class. -/
def Port.credit (x : Port) (c : Nat) : Nat := creditCap c - tget 0 x.used c

/-- Take credit for `n` flits of a class: its reserve first, then shared for VL1 to VL3. -/
def takeCredit (x : Port) (vl c n : Nat) : Option Port :=
  let own := min n (x.credit c)
  let rest := n - own
  if rest = 0 then some { x with used := tset x.used c (tget 0 x.used c + own) }
  else if vl != 0 && rest ≤ x.credit 32 then
    some { x with used := tset (tset x.used c (tget 0 x.used c + own)) 32 (tget 0 x.used 32 + rest) }
  else none

/-- May a packet start on a port now: usable, bulk not hushed, replay buffer room, credit (R290, R294, R296)? -/
def startable (s : State) (x : Port) (p : Packet) : Option Port :=
  let held := (x.unacked.map fun u => u.2.1).foldl (· + ·) 0
  let hushed := x.hushLast.isSome && decide (x.disregardUntil ≤ s.localUs)
  if !x.usable || (p.vl != 0 && hushed) || decide (10240 < held + flits p) then none
  else takeCredit x p.vl (creditClass s p) (flits p)

/-- The order in which an output port considers its waiting packets (R293). -/
def arbOrder (x : Port) : List Waiting :=
  let q := x.queue
  let sel (v : Nat) : List Waiting := q.filter fun w => w.p.vl = v
  sel 0 ++ sel 3 ++ (if x.lastBulk = 2 then sel 1 ++ sel 2 else sel 2 ++ sel 1)

/-- Only the first packet of each lane may start, in order within a lane. -/
def heads (x : Port) : List Waiting :=
  (arbOrder x).foldl (fun acc w => if acc.any (fun q => q.p.vl = w.p.vl) then acc else acc ++ [w]) []

/-- Remove the first occurrence. -/
def eraseFirst {α : Type} [DecidableEq α] (a : α) : List α → List α
  | [] => []
  | b :: r => if a = b then r else b :: eraseFirst a r

/-- The class of a credit message on a packet's lane: hop class on VL0 and VL3, 1 for a gather on VL1 (Table 12.4). -/
def classTag (s : State) (p : Packet) : Nat :=
  if p.vl = 0 ∨ p.vl = 3 then p.escClass else if p.vl = 1 ∧ s.fab.gathers.contains p.flow then 1 else 0

/-- A packet leaves the receive buffer it came into, and its credit goes back to the peer (R294). -/
def freeRx (hold : Option Nat) (p : Packet) (s : State) : State :=
  match hold with
  | none => s
  | some q =>
    let x := s.port q
    let c := creditClass s p
    if tget 0 x.held c = 0 then s
    else send (.linkCredit q p.vl (classTag s p) (flits p)) (setPort q { x with held := tset x.held c (tget 0 x.held c - flits p) } s)

/-- Start waiting packets of port `n` as far as credit and hush allow. -/
def pumpPort (n : Nat) : Nat → State → State
  | 0, s => s
  | fuel + 1, s =>
    let x := s.port n
    match (heads x).findSome? fun w => (startable s x w.p).map fun y => (w, y) with
    | none => s
    | some (w, y) =>
      let y := { y with
        queue := eraseFirst w y.queue
        unacked := y.unacked ++ [(y.nextSeq, flits w.p, { w with hold := none })]
        nextSeq := (y.nextSeq + flits w.p) % 4096
        lastBulk := if w.p.vl = 1 ∨ w.p.vl = 2 then w.p.vl else y.lastBulk }
      pumpPort n fuel (send (.words n (linkWords x.nextSeq w.p)) (freeRx w.hold w.orig (setPort n y s)))

/-- Pump every packet now waiting on a port. -/
def pumpAll (n : Nat) (s : State) : State := pumpPort n ((s.port n).queue.length) s

/-- Count the first detour of a destination in a step (R299). -/
def countDetour (port dst : Nat) (s : State) : State :=
  if s.fab.counted.contains dst then s
  else bump (0x3100 + port) 0x0C 1 32 { s with fab := { s.fab with counted := dst :: s.fab.counted } }

/-- R292, R295, R299, R302: route a packet that is not for this device, from the receive buffer that holds it. -/
def routePacket (hold : Option Nat) (p : Packet) (s : State) : State :=
  match s.nextHop p [0, 1, 2] true none with
  | .deliver => freeRx hold p s
  | .drop q => bump (0x3100 + q) 0x0D 1 32 (freeRx hold p s)
  | .go q detour =>
    let vl := if p.vl = 0 then 0 else if detour || p.vl = 3 then 3 else p.vl
    let cls := if vl = 0 then p.hops else if vl = 3 then (if p.vl = 3 then p.escClass + 1 else 0) else 0
    if 5 < cls || 8 ≤ p.hops then bump (0x3100 + q) 0x0D 1 32 (freeRx hold p s)
    else
      let s := if detour then countDetour q p.dst s else s
      let x := s.port q
      let w : Waiting := ⟨p, { p with vl := vl, escClass := cls, hops := p.hops + 1 }, hold⟩
      pumpAll q (setPort q { x with queue := x.queue ++ [w] } s)

/-- Refill the token bucket at 800,000 bytes per local microsecond (R297). -/
def refill (s : State) : State :=
  { s with fab := { s.fab with
      tokens := min bucketDepth (s.fab.tokens + 800000 * (s.localUs - s.fab.tokenUs)), tokenUs := s.localUs } }

/-- Inject packets that wait for the bucket, in order (R297). -/
def pumpInject : Nat → State → State
  | 0, s => s
  | fuel + 1, s =>
    match s.fab.inject with
    | [] => s
    | p :: r =>
      if p.payload.length ≤ s.fab.tokens then
        pumpInject fuel (routePacket none p { s with fab := { s.fab with
          inject := r, tokens := s.fab.tokens - p.payload.length } })
      else s

/-- Send a packet from a unit of this device: VL0 at once, bulk through the bucket. A device without coordinates carries
no bulk (R303). -/
def injectPacket (p : Packet) (s : State) : State :=
  if p.vl = 0 then (if s.fabId = 0xFFFF then s else routePacket none p s)
  else if s.fabId = 0xFFFF then s
  else
    let s := refill s
    pumpInject (s.fab.inject.length + 1) { s with fab := { s.fab with inject := s.fab.inject ++ [p] } }

/-- A control packet on VL0. -/
def vl0Packet (s : State) (dst kind : Nat) (payload : Bytes) : Packet :=
  { dst := dst, src := s.fabId, vl := 0, origVl := 0, escClass := 0, kind := kind, hops := 0, dstHearth := 0,
    dstCore := 0, flow := 0, attempt := s.job.attempt, dstCtx := 0, step := s.job.step, seq := 0, offset := 0,
    pcrc := crc32c payload, nstatus := 0, payload := payload }

/-- Devices of this device's line in a dimension, itself left out (R299). -/
def State.line (s : State) (dim : Nat) : List Nat :=
  ((List.range (s.dimSize dim)).map fun v => withCoord s.fabId dim v).filter fun d => d != s.fabId

/-- Send a control message: what it says, and the VL0 packets that carry it (Table 12.3). Its layout is the model's (DESIGN
CHOICE, notes/assumptions/78). -/
def sendControl (dst step attempt : Nat) (t : Tx) (body : Bytes) (s : State) : State :=
  (List.range (cdiv body.length 4096)).foldl (fun s k =>
    injectPacket { vl0Packet s dst 2 ((body.drop (4096 * k)).take 4096) with
      step := step, attempt := attempt, offset := 4096 * k } s) (send t s)

/-- A control message given by its code and words. -/
def sendWords (dst code : Nat) (ws : List Nat) (s : State) : State :=
  sendControl dst s.job.step s.job.attempt (.vl0 dst code ws) (leBytes 1 code ++ ws.flatMap (leBytes 8)) s

/-- Announce a port's state to every device of its dimension line, under the wired port's number whose place it takes
(R299, R301; DESIGN CHOICE, notes/assumptions/78). -/
def announce (p : Nat) (up : Bool) (s : State) : State :=
  match s.roleOf p with
  | none => s
  | some (dim, _) =>
    if s.fabId = 0xFFFF then s else
    (s.line dim).foldl (fun s d =>
      injectPacket (vl0Packet s d 5 (leBytes 2 s.fabId ++ leBytes 1 ((s.placeOf p).getD p) ++ [if up then 1 else 0])) s) s

/-- Announce every wired port (Table 12.7, order 5). -/
def announceAll (s : State) : State :=
  (List.range 48).foldl (fun s p => if (s.port p).state = 2 then s else announce p (s.port p).usable s) s

/-- A port still trains. -/
def State.portsTrain (s : State) : Bool := (List.range 48).any fun p => (s.port p).state == 2

/-- The last port has trained: a reconfiguration announces each port, and LOAD is accepted again (Table 12.7, orders 5 and
6); a wake ends in READY (Table 12.8, order 5). -/
def settleFabric (s : State) : State :=
  if s.portsTrain then s else
  let s := if s.fab.rebuilding then announceAll { s with fab := { s.fab with rebuilding := false } } else s
  if s.fab.waking then setDev .ready { s with fab := { s.fab with waking := false } } else s

/-- Announce one port, unless all are announced together when the last has trained. -/
def announceOne (p : Nat) (up : Bool) (s : State) : State := if s.fab.rebuilding then s else announce p up s

/-- LINK_STATE_ANNOUNCEMENT (R301). -/
def linkStateState (dev port : Nat) (up : Bool) (s : State) : State :=
  if s.dev.mainUp then
    let d := s.fab.down.filter fun x => x != (dev, port)
    { s with fab := { s.fab with down := if up then d else (dev, port) :: d } }
  else s

/-- A port stops starting flits and retrains; the retrain symbol goes to its peer (Table 12.5, order 2). -/
def laneFailureState (p : Nat) (s : State) : State :=
  let x := s.port p
  if x.usable then send (.retrain p) (setPort p { x with state := 2 } s) else s

/-- Send link words again, in their order (R290). -/
def resend (p : Nat) (l : List LinkWord) (s : State) : State := if l.isEmpty then s else send (.words p l) s

/-- What the replay buffer of a port holds. -/
def Port.replay (x : Port) : List LinkWord := x.unacked.flatMap fun u => linkWords u.1 u.2.2.p

/-- Lanes the mask of 0x3100+n:07 leaves. -/
def State.lanesAllowed (s : State) (p : Nat) : Nat :=
  (List.range 4).countP fun i => !(s.regs.laneMask.getD p 0).testBit i

/-- RETRAIN_COMPLETE with at least one lane (Table 12.5, orders 3 and 4). -/
def retrainUp (p lanes : Nat) (s : State) : State :=
  let x := s.port p
  let n := min (min lanes 4) (s.lanesAllowed p)
  let s := setPort p { x with lanes := n, state := if n = 4 then 3 else 4 } s
  let s := if n < 4 then
      bump (0x3100 + p) 0x0B 1 32 (logAdd 0x0501 5 (p / 12) p 0xFFFF [p, n, x.peerDev] s)
    else s
  pumpAll p (resend p x.replay s)

/-- LINK_REPLAY_REQUEST (R290): resend every flit from the named one. -/
def replayState (p seqNo : Nat) (s : State) : State :=
  let x := s.port p
  let rest := x.replay.dropWhile fun w => w.seqNo != seqNo
  if rest.isEmpty then s else bump (0x3100 + p) 0x0A 1 64 (resend p rest s)

/-- Release `n` acknowledged flits from the front of the replay buffer. -/
def ackFlits : Nat → List (Nat × Nat × Waiting) → List (Nat × Nat × Waiting)
  | _, [] => []
  | n, u :: r => if u.2.1 ≤ n then ackFlits (n - u.2.1) r else u :: r

/-- LINK_ACKNOWLEDGMENT (R290): every packet whose flits lie at or before the number is released. -/
def linkAckState (p seqNo : Nat) (s : State) : State :=
  let x := s.port p
  match x.unacked with
  | [] => s
  | u :: _ => pumpAll p (setPort p { x with unacked := ackFlits ((seqNo + 1 + 4096 - u.1) % 4096) x.unacked } s)

/-- LINK_CREDIT_RETURN (R294): credit comes back to the class, what exceeds its use to the shared credit. -/
def creditState (p vl cls n : Nat) (s : State) : State :=
  let x := s.port p
  let c := if vl = 0 then cls else if vl = 3 then 24 + cls else if vl = 2 then 16 else if cls = 1 then 9 else 8
  let u := tget 0 x.used c
  let sh := tget 0 x.used 32
  let extra := if vl = 0 then 0 else n - u
  pumpAll p (setPort p { x with used := tset (tset x.used c (u - n)) 32 (sh - extra) } s)

/-- HUSH received (R296). -/
def hushState (p : Nat) (s : State) : State :=
  let x := s.port p
  if s.localUs < x.disregardUntil then s
  else setPort p { x with hushLast := some s.localUs, hushSince := if x.hushLast.isNone then s.localUs else x.hushSince } s

/-- HUSH_LAPSE: 4 µs after the last symbol the pause ends. -/
def hushLapseState (p : Nat) (s : State) : State :=
  let x := s.port p
  match x.hushLast with
  | none => s
  | some t => pumpAll p (setPort p { x with hushLast := none } { s with localUs := max s.localUs (t + 4) })

/-- OVERLONG_HUSH: a hush of more than 2 ms is disregarded for the next 10 ms and counted. -/
def overlongState (p : Nat) (s : State) : State :=
  let x := s.port p
  match x.hushLast with
  | none => s
  | some _ =>
    let now := max s.localUs (x.hushSince + 2000)
    let s := bump (0x3100 + p) 0x0E 1 32 { s with localUs := now }
    pumpAll p (setPort p { x with hushLast := none, disregardUntil := now + 10000 } s)

/-- Hush every port, for `us` microseconds at the most, which is never above 2 ms (R296). -/
def hushAll (us : Nat) (s : State) : State :=
  (List.range 48).foldl (fun s p =>
    let x := s.port p
    if x.state = 0 then s
    else send (.hush p s.localUs) (setPort p { x with hushing := some (s.localUs, s.localUs + min us 2000) } s)) s

/-- HUSH_HOLD_END: this device stops hushing a port. -/
def hushHoldEndState (p : Nat) (s : State) : State := setPort p { s.port p with hushing := none } s

/-- A hush is repeated every microsecond until its end (R296). -/
def hushTick (s : State) : State :=
  s.fab.ports.foldl (fun s x =>
    match x.2.hushing with
    | none => s
    | some (_, t) => if t ≤ s.localUs then hushHoldEndState x.1 s else send (.hush x.1 s.localUs) s) s

/-- What a microsecond does to the fabric: hush symbols, and injections the refilled bucket lets go (R296, R297). -/
def fabTick (s : State) : State :=
  let s := hushTick s
  if s.fab.inject.isEmpty then s else let s := refill s; pumpInject s.fab.inject.length s

/-- R303: the state an identity gives a port. -/
def identityState (s : State) (p : Nat) (id : Identity) : Nat :=
  match s.roleOf p with
  | none => 0
  | some (dim, d) =>
    if !id.nq7 || id.mode != s.fab.cabling || id.ny != s.fab.nY || id.nz != s.fab.nZ then 7
    else
      let n := s.dimSize dim
      let want := withCoord s.fabId dim ((coordOf s.fabId dim + d) % n)
      if s.fabId != 0xFFFF && (id.dev != want || (id.port < 45 && id.port != 3 * (16 - d - 1) + dim)) then 6 else 3

/-- IDENTITY_EXCHANGE on a trained port. A port whose lanes are all masked is down. -/
def identityExchangeState (p : Nat) (id : Identity) (s : State) : State :=
  let x := s.port p
  if x.state = 2 ∨ x.usable ∨ x.state = 6 ∨ x.state = 7 then
    let lanes := if x.lanes = 0 then s.lanesAllowed p else x.lanes
    let st := if lanes = 0 then 1 else identityState s p id
    let s := setPort p { x with
      peerDev := id.dev, peerPort := id.port, lanes := lanes
      state := if st = 3 && lanes < 4 then 4 else st } s
    settleFabric (announceOne p (st == 3) s)
  else s

/-- Coordinates, sizes and substitutions written since take effect (R306). -/
def applyCoords (s : State) : State :=
  { s with fab := { s.fab with
      coord := s.regs.coord, nY := s.regs.nY, nZ := s.regs.nZ, subst := s.regs.spare } }

/-- Every port retrains (Table 12.7, order 3): wired ports train, the others are dark. -/
def retrainAll (s : State) : State :=
  (List.range 48).foldl (fun s p =>
    let x := { Port.reset with hushing := (s.port p).hushing }
    setPort p { x with state := if (s.roleOf p).isSome then 2 else if 45 ≤ p then 8 else 0 } s) s

/-- RECONFIGURE's effect; LOAD waits for its order 6. -/
def reconfigureState (s : State) : State :=
  let s := applyCoords s
  retrainAll { s with fab := { s.fab with down := [], rebuilding := true } }

/-- PORT_TRAIN_TIMEOUT: a port that has not trained within 2 s is down, and announced so (R299, R306). -/
def trainTimeoutState (p : Nat) (s : State) : State :=
  let x := s.port p
  if x.state = 2 then settleFabric (announceOne p false (setPort p { x with state := 1, lanes := 0 } s)) else s

/-- DOWN_PORT_RETRY (R301): one lane trained. -/
def downRetryState (p : Nat) (ok : Bool) (s : State) : State :=
  let x := s.port p
  if x.state = 1 && ok then
    announce p true (setPort p { x with state := 4, lanes := 1 } s)
  else s

/-- Orders 7 to 9 of Table 18.1 for the fabric; the ports found down are announced (R299). -/
def proofFabric (lanes : List Nat) (ids : List (Nat × Identity)) (s : State) : State :=
  let s := { applyCoords s with fab := { (applyCoords s).fab with cabling := s.regs.cabling } }
  let s := retrainAll s
  let s := (List.range 48).foldl (fun s p =>
    let x := s.port p
    let n := min (lanes.getD p 0) (s.lanesAllowed p)
    if x.state = 2 then setPort p (if n = 0 then { x with state := 1 } else { x with lanes := n, state := 2 }) s
    else s) s
  let s := ids.foldl (fun s (p, id) => if (s.port p).state = 2 then identityExchangeState p id s else s) s
  let s := (List.range 48).foldl (fun s p => let x := s.port p; if x.state = 2 then setPort p { x with state := 1 } s else s) s
  (List.range 48).foldl (fun s p => if (s.port p).state = 1 then announce p false s else s) s

/-- SLEEP: every wired port that has a peer retrains to the keep-alive lane (R307). -/
def fabSleep (s : State) : State :=
  (List.range 48).foldl (fun s p =>
    let x := s.port p
    if x.usable || x.state = 6 || x.state = 7 then setPort p { x with state := 5, lanes := 1, hushing := none } s
    else setPort p { x with hushing := none } s) s

/-- Wake: every wired port retrains, and meets its peer again (Table 12.8, orders 3 and 4). -/
def fabWake (s : State) : State :=
  let s := (List.range 48).foldl (fun s p =>
    if (s.roleOf p).isSome then setPort p { s.port p with state := 2, lanes := 0, peerDev := 0xFFFF, peerPort := 0xFF } s
    else s) s
  settleFabric { s with fab := { s.fab with waking := true } }

/-- Port records (Table 12.9), subindices 01 to 07. -/
def portValue (s : State) (n sub : Nat) : Bytes :=
  let x := s.port n
  match sub with
  | 1 => leBytes 1 x.state
  | 2 => leBytes 1 x.lanes
  | 3 => leBytes 2 x.peerDev
  | 4 => leBytes 1 x.peerPort
  | 5 => leBytes 1 (match s.placeOf n with
      | some w => (w % 3) * 64 + (w / 3 + 1)
      | none => if 45 ≤ n then 3 * 64 else (n % 3) * 64 + (n / 3 + 1))
  | 6 => leBytes 1 (s.regs.spare.getD n 0xFF)
  | _ => leBytes 1 (s.regs.laneMask.getD n 0)

end Sys2Proof.Machine
end

