-- ==== Sys2Proof/Machine/Power.lean ====
section
/-! DEFINITION. Rails, pins, boot chain, the first part of proofing, the oven governor and BIST (chapters 17, 18, 19
and 21). -/

namespace Sys2Proof.Machine

/-! ## Alert (R400) -/

/-- The four lists of hearth temperatures against a bound, in 0.01 °C. -/
def anyTj (p : Int → Bool) (s : State) : Bool := s.gov.tj.any p

/-- A hearth's junction, or the coolant outlet, is near its limit (R393). -/
def nearHot (s : State) : Bool :=
  anyTj (fun t => decide ((s.eff.tjLimit : Int) * 100 - 200 ≤ t)) s
    || decide ((s.eff.outLimit : Int) * 100 - 50 ≤ s.gov.outlet)

/-- A cause of R400 or R420 holds. -/
def alertCause (s : State) : Bool :=
  s.gov.inputFault || s.gov.gating || nearHot s || s.pins.earlyPwrEn || s.dev.bootFailed

/-- Assert ALERT_N while a cause holds; start the 100 ms of its release when the last one ends. -/
def refreshAlert (s : State) : State :=
  if alertCause s then
    { s with pins := { s.pins with alert := true }, gov := { s.gov with alertClearAt := none } }
  else if s.pins.alert && s.gov.alertClearAt.isNone then
    { s with gov := { s.gov with alertClearAt := some (s.localUs + 100000) } }
  else s

/-! ## Time -/

/-- The local reference counts: standby power is good and RESET_N is released, whether the steward runs or, after a failed
boot, the boot ROM's session 0 (R8, R420). -/
def State.counting (s : State) : Bool := s.dev.st != .off && s.pins.stbyGood && !s.pins.resetAsserted

/-- One microsecond passes (R8). Seconds with main power up are counted at 0x1000:0C (R367). -/
def tick (s : State) : State :=
  if s.counting then
    let s := { s with localUs := s.localUs + 1 }
    if !s.dev.mainUp then s else
    fabTick (if s.localUs % 1000000 == 0 then bump 0x1000 0x0C 1 64 s else s)
  else s

/-! ## Power down -/

/-- Counters that survive entry to STANDBY: those marked Persists Yes. -/
def persistentCounter (k : Nat) : Bool :=
  [ck 0x7200 0x05, ck 0x7200 0x0C, ck 0x7200 0x0D, ck 0x1000 0x0B, ck 0x1000 0x0C].contains k

/-- What is lost with the main rails (R388, R402): on-chip memories, main memory, ports. -/
def railsDown (s : State) : State :=
  { s with
    pins := { s.pins with pwrGood := false }
    gov := { s.gov with vcore := [0, 0, 0, 0], gating := false, electiveMw := 0 }
    dev := { s.dev with mainUp := false, hostUp := [false, false], map := List.replicate 384 0xFF
                        phys := List.replicate 400 3, badCells := [], badStarters := [], badWays := [] }
    ports := s.ports.map fun p => { p with up := false, pausedUntil := [] }
    conns := []
    groups := [], cores := [], lstat := []
    coll := CollSt.reset, leaven := LeavenSt.reset, fab := FabSt.reset
    mm := { MemSt.reset with retired := s.mm.retired, interleave := s.mm.interleave } }

/-- R370: the job becomes IDLE, the recipe is unloaded and any staged container is discarded. -/
def dropJob (s : State) : State :=
  let s := setJob .idle 0 s
  { s with
    job := { Job.reset with step := 0 }
    recipe := Recipe.reset
    bnd := Boundary.reset
    eval := Eval.reset
    ingest := Ingest.reset
    results := [], history := [], record := List.replicate 256 0 }

/-- Entry to STANDBY: R365 for values and counters that do not persist, R351 for sessions, Table 18.6 for a self-test. -/
def enterStandby (s : State) : State :=
  let s := dropJob (setDev .standby (railsDown s))
  let s := closeAll s
  { s with
    regs := { s.regs with resumeStep := 0 }
    eff := { s.regs with resumeStep := 0 }
    counters := s.counters.filter fun c => persistentCounter c.1
    dev := { s.dev with test := SelfTest.idle, stage := min s.dev.stage 1 } }

/-- A cause with the effect of a release of PWR_EN (R388, R449): main power rises again only on a new rising PWR_EN. -/
def forcedRelease (s : State) : State :=
  let s := { s with pins := { s.pins with latch := true } }
  match s.dev.st with
  | .ready | .active | .sleep | .proofing => enterStandby s
  | _ => s

/-! ## Boot chain (Table 19.1) -/

/-- Security version of a bank (R419): a container's `SVN`, or that of the factory image. -/
def bankSvn (b : Option Container) : Nat :=
  match b with
  | some c => (word c.header 2).toNat
  | none => Config.factorySvn

/-- Does a bank verify? `ok`: it is well formed and its signature under the release key holds. -/
def bankVerifies (s : State) (b : Option Container) (ok : Bool) : Bool := ok && decide (s.sec.floor ≤ bankSvn b)

/-- R418 to R420: verify the active bank, then the other; start the steward firmware, or serve only the minimal
session 0. The local count starts at 0 (R8). -/
def bootChain (s : State) : State :=
  let vA := bankVerifies s s.dev.bankA s.pins.bankAOk
  let vB := bankVerifies s s.dev.bankB s.pins.bankBOk
  let act := if s.dev.activeB then vB else vA
  let oth := if s.dev.activeB then vA else vB
  let s := { s with localUs := 0, pins := { s.pins with resetAsserted := false } }
  let s := { s with edp := { s.edp with t1s := 1 } }
  let s :=
    if !act && !oth then
      { s with dev := { s.dev with bootFailed := true, stage := 0, runningDigest := none, runningSvn := 0 } }
    else
      let b := if act then s.dev.activeB else !s.dev.activeB
      let bank := if b then s.dev.bankB else s.dev.bankA
      let s := { s with dev := { s.dev with
        bootFailed := false, stage := 1, activeB := b, runningSvn := bankSvn bank
        runningDigest := some (match bank with
          | some c => Config.sha384 (bytesOfWords c.header ++ c.signer)
          | none => Config.factoryImageDigest b) } }
      if act then s else logPlain SIGNATURE_BAD ([3, 3] ++ w64 (bankSvn (if b then s.dev.bankA else s.dev.bankB))) s
  let s := if s.pins.pwrEn then { s with pins := { s.pins with earlyPwrEn := true } } else s
  refreshAlert s

/-- STBY_GOOD: OFF to STANDBY, SLOT_ID sampled, boot chain (R387, R451). -/
def stbyGoodState (slotId : Nat) (a b : Bool) (s : State) : State :=
  if s.dev.st = .off then
    let s := bump 0x1000 0x0B 1 32 s
    let s := { s with pins := { s.pins with stbyGood := true, slotId := slotId % 64, bankAOk := a, bankBOk := b } }
    bootChain (setDev .standby s)
  else s

/-- RESET_N low (R450). A module that is OFF has no steward to hold. -/
def resetAssertState (s : State) : State :=
  if s.dev.st = .off then s else
  let s := enterStandby s
  { s with pins := { s.pins with resetAsserted := true, pwrGood := false }, log := { s.log with ring := [] },
           dev := { s.dev with stage := 0, proofFailed := false }, edp := { s.edp with hellos := [], relays := [] } }

/-- RESET_N released (R450). -/
def resetReleaseState (s : State) : State :=
  if s.pins.resetAsserted && s.dev.st != .off then bootChain s else s

/-- Loss of the 50 V input: OFF (Table 16.4). -/
def inputLossState (s : State) : State :=
  if s.dev.st = .off then s else
  let s := { enterStandby s with gov := { Gov.reset with energy := s.gov.energy } }
  { s with
    pins := { Pins.reset with stbyGood := false, resetAsserted := false, pwrEn := s.pins.pwrEn }
    dev := { s.dev with st := .off, stage := 0, bootFailed := false, proofFailed := false }
    log := { s.log with ring := [] }
    edp := { Edp.reset with sessionNo := s.edp.sessionNo } }

/-- Begin proofing: device state PROOFING (Table 18.1, order 3). -/
def beginProofing (s : State) : State :=
  let s := setDev .proofing s
  { s with dev := { s.dev with proofFailed := false, stage := 1, reason := 0, test := { SelfTest.idle with state := 2 } } }

/-- Rising PWR_EN (R387, R420, R449, R454). -/
def pwrEnRiseState (s : State) : State :=
  if s.pins.pwrEn then s else
  let s := { s with pins := { s.pins with pwrEn := true, interlockOpen := false } }
  if s.dev.st = .standby && s.stewardUp && !s.pins.thermTrip then
    let s := { s with pins := { s.pins with latch := false } }
    if s.regs.autoProof then beginProofing s else s
  else s

/-- Falling PWR_EN (R388, R401, R449). -/
def pwrEnFallState (s : State) : State :=
  let s := { s with pins := { s.pins with pwrEn := false, thermTrip := false, latch := false, earlyPwrEn := false } }
  let s := match s.dev.st with
    | .ready | .active | .sleep | .proofing => enterStandby s
    | _ => s
  refreshAlert s

/-- An open interlock (R446); during proofing 0x7001:01 keeps its value (R454). -/
def interlockState (s : State) : State :=
  let keep := s.dev.test.state
  let wasProofing := s.dev.st = .proofing
  let s := { s with pins := { s.pins with interlockOpen := true } }
  let s := forcedRelease s
  if wasProofing then { s with dev := { s.dev with test := { s.dev.test with state := keep } } } else s

/-- A thermal trip (R401). -/
def thermalTripState (s : State) : State :=
  if s.dev.mainUp then
    let s := forcedRelease (setVcore 0 s)
    { s with pins := { s.pins with thermTrip := true } }
  else s

/-- A rail fault (R389). -/
def railFaultState (row : Nat) (s : State) : State :=
  if s.dev.mainUp then forcedRelease (logPlain 0 [2, row] s) else s

/-- Proofing fails (R404). -/
def proofFail (stage hearth unit : Nat) (s : State) : State :=
  { s with dev := { s.dev with
      proofFailed := true, stage := stage, reason := stage * 2 ^ 12 + hearth * 2 ^ 8 + unit
      test := { s.dev.test with state := 4 } } }

/-- A rail not good within its maximum (R387). -/
def railTimeoutState (row hearth : Nat) (s : State) : State :=
  if s.dev.st = .proofing && !s.dev.proofFailed && !s.dev.mainUp then
    proofFail 2 (if row = 7 then hearth else 0xF) row (railsDown s)
  else s

/-- Input voltage outside its range for more than 1 ms, or back in it (Table 17.1). Above 60.0 V no behaviour is
guaranteed. -/
def inputVoltageState (mv : Nat) (s : State) : State :=
  if s.dev.st = .off then s else
  if mv < 30000 then inputLossState s else
  let bad := decide (mv < 44000) || decide (58000 < mv)
  let s := { s with gov := { s.gov with inputMv := mv, inputFault := bad } }
  let s := if mv < 40000 || 58000 < mv then forcedRelease s else s
  refreshAlert s

/-- Current above 50 A for 100 µs: every hearth to the floor VCORE (R385). -/
def overcurrentState (s : State) : State :=
  if s.dev.mainUp && s.job.st.live then
    { s with gov := { s.gov with target := s.eff.vMin, vcore := s.gov.vcore.map fun v => min v s.eff.vMin } }
  else s

/-- ALERT_N's release timer (R400). -/
def alertTimerState (s : State) : State :=
  match s.gov.alertClearAt with
  | some t =>
    if alertCause s then s else
    { s with localUs := max s.localUs t, pins := { s.pins with alert := false },
             gov := { s.gov with alertClearAt := none } }
  | none => s

/-! ## Proofing, orders 4 to 6 of Table 18.1 -/

/-- Healthy physical cores of a hearth in ascending number. -/
def healthy (bad : List Nat) (h : Nat) : List Nat := (List.range 100).filter fun p => !bad.contains (100 * h + p)

/-- R16: the map of one hearth. -/
def hearthMap (bad : List Nat) (h : Nat) : List Nat :=
  (List.range 96).map fun c => (healthy bad h).getD c 0xFF

/-- R16, R17: state of each physical core after proofing. -/
def physMap (bad : List Nat) : List Nat :=
  (List.range 400).map fun i =>
    if bad.contains i then 2
    else if (healthy bad (i / 100)).idxOf (i % 100) < 96 then 0 else 1

/-- Logical cores available (0x1000:09, 0x7100:01). -/
def State.available (s : State) : Nat := s.dev.map.countP fun p => p != 0xFF

/-- R107: hearths with a set that keeps no way, or too few sets with two ways. -/
def waysFail (ways : List (Nat × Nat × Nat)) (h : Nat) : Bool :=
  let mine := ways.filter fun w => w.1 = h
  let sets := (mine.map fun w => w.2.1).eraseDups
  let cnt (st : Nat) : Nat := ((mine.filter fun w => w.2.1 = st).map fun w => w.2.2).eraseDups.length
  sets.any (fun st => decide (16 ≤ cnt st)) || decide (49152 - (sets.countP fun st => decide (15 ≤ cnt st)) < 32768)

/-- R435, R407: a logic signature that differs; the value obtained is open. -/
def signatureLog (src hearth unit word golden : Nat) (s : State) : State :=
  let (a, s) := takeFree s
  let (b, s) := takeFree s
  logAdd 0x0702 src hearth unit 0xFFFF ([word, 0] ++ w64 (Config.goldenSignature golden).toNat
    ++ [(Config.freeWord a).toNat, (Config.freeWord b).toNat]) s

/-- BIST outcomes at order 5: fenced cores, cells, ways and starter words; the core map (R16, R106, R107, R411). -/
def bistAll (p : ProofInput) (s : State) : State :=
  let bad := p.badCores.map (·.1)
  let cells := (p.badCells ++ p.sigCells).eraseDups
  let s := p.badCores.foldl (fun s c => logAdd CORE_FENCED 1 (c.1 / 100) c.1 0xFFFF [c.1, 0xFFFF, c.2, 0, 0xFF] s) s
  let s := p.sigCells.foldl (fun s c => signatureLog 2 (c / 16) c (0x10 + c) c s) s
  let s := { s with
    dev := { s.dev with
      map := (List.range 4).flatMap (hearthMap bad), phys := physMap bad, badCells := cells
      badStarters := p.badStarters, badWays := p.badWays, stage := 3 }
    mm := { s.mm with pantry := p.badWays.foldl (fun m w =>
      let k := 49152 * w.1 + w.2.1
      let x := tget PSet.empty m k
      tset m k { x with disabled := w.2.2 :: x.disabled }) [] } }
  let s := setCounter 0x7200 6 0 s
  let s := setCounter 0x7200 7 p.badWays.length s
  let s := setCounter 0x7200 8 p.badStarters.length s
  setCounter 0x7200 9 cells.length s

/-- Orders 4 to 6. The Bool says proofing goes on. -/
def proofFirst (p : ProofInput) (s : State) : State × Bool :=
  match p.railFail with
  | some (row, h) => (proofFail 2 (if row = 7 then h else 0xF) row (railsDown s), false)
  | none =>
    let s := setVcore 600 { s with dev := { s.dev with mainUp := true, stage := 2 },
                                   pins := { s.pins with pwrGood := true } }
    let s := bistAll p s
    match p.unitFail with
    | some (h, u) =>
      let s := if u ≤ 4 then signatureLog 8 h 0 u (64 + 8 * h + u) s else s
      (proofFail 3 h u s, false)
    | none =>
      match (List.range 4).find? fun h => waysFail p.badWays h with
      | some h => (proofFail 3 h 6 s, false)
      | none =>
        match (List.range 24).find? fun c => p.rates.getD c 0 = 0 with
        | some c => (proofFail 4 (c / 6) c s, false)
        | none =>
          ({ s with
              dev := { s.dev with stage := 4 }
              mm := { s.mm with mem := [], poison := [], up := true, rates := p.rates,
                                interleave := s.regs.interleave } }, true)

/-! ## The oven governor -/

/-- Interpolate a table of values at 550, 600, …, 850 mV. -/
def interp (t : List Nat) (mv : Nat) : Nat :=
  let mv := max 550 (min 850 mv)
  let i := (mv - 550) / 50
  let a := t.getD i 0
  let b := t.getD (i + 1) a
  a + (b - a) * ((mv - 550) % 50) / 50

/-- Table 17.7: full-load input, and hearth power, in mW. -/
def inputModel (mv : Nat) : Nat := interp [873000, 1010000, 1188000, 1411000, 1655000, 1887000, 2100000] mv
def hearthModel (mv : Nat) : Nat := interp [422000, 550000, 715000, 923000, 1150000, 1365000, 1563000] mv

/-- R390: beats per millisecond at a VCORE and a junction temperature in 0.01 °C. -/
def beatRate (mv : Nat) (tj : Int) : Nat :=
  let r := interp [950000, 1150000, 1400000, 1700000, 2000000, 2250000, 2450000] mv
  let t : Int := max 0 (min 10500 tj)
  ((r : Int) * (1000000 + 12 * (8500 - t)) / 1000000).toNat

/-- L_in in mW (R393). -/
def inputLimit (s : State) : Nat := min (s.eff.inputCap * 1000) (48 * s.gov.inputMv)

/-- The input or coolant limit binds. -/
def inBinds (s : State) : Bool :=
  decide (inputLimit s < s.gov.inputMw) || decide ((s.eff.outLimit : Int) * 100 < s.gov.outlet)

/-- Some limit is near (which includes binding). -/
def anyNear (s : State) : Bool := decide (inputLimit s * 98 ≤ s.gov.inputMw * 100) || nearHot s

/-- Coolant margin in mW at 135 W/K. -/
def coolantMargin (s : State) : Int := ((s.eff.outLimit : Int) * 100 - s.gov.outlet) * 1350

/-- R394: does a rise of T by 5 mV stay within every limit, less elective work already admitted? The load is the measured
input's share of Table 17.7, and a junction's margin counts at R397's 60 W/°C (DEDUCED, notes/assumptions/71). -/
def riseFits (s : State) : Bool :=
  let p := s.gov.inputMw
  let p' := p * inputModel (s.gov.target + 5) / inputModel s.gov.target
  let h := p * (hearthModel (s.gov.target + 5) - hearthModel s.gov.target) / inputModel s.gov.target / 4
  decide (p' + s.gov.electiveMw ≤ inputLimit s) && decide (((p' : Int) - p) + s.gov.electiveMw ≤ coolantMargin s)
    && s.gov.tj.all fun t => decide ((h : Int) + s.gov.electiveMw ≤ ((s.eff.tjLimit : Int) * 100 - t) * 600)

/-- R394: the next target. -/
def nextTarget (s : State) : Nat :=
  let t := if inBinds s then s.gov.target - 25
    else if !anyNear s && riseFits s then s.gov.target + 5 else s.gov.target
  max s.eff.vMin (min s.eff.vMax t)

/-- R394: a hearth's next junction ceiling. -/
def nextCeiling (s : State) (c : Nat) (tj : Int) : Nat :=
  let lim : Int := s.eff.tjLimit * 100
  if lim < tj then min s.eff.vMax (max 550 (c - 25))
  else if tj < lim - 200 then min s.eff.vMax (c + 5) else min s.eff.vMax c

/-- Every hold of a slot or piece ends. -/
def endHolds (s : State) : State :=
  { s with
    groups := s.groups.map fun (g, x) => (g, { x with held := none, passed := x.passed || x.held.isSome })
    leaven := { s.leaven with
      probs := s.leaven.probs.map fun (i, x) => (i, { x with held := none, passed := x.passed || x.held.isSome }) } }

/-- R396, R436: the first hold of a step is logged. -/
def holdLog (hearth : Nat) (s : State) : State :=
  if s.gov.gateLogged then s else logPlain 0 [3, hearth] { s with gov := { s.gov with gateLogged := true } }

/-- One decision of the governor (R392 to R396, R400). -/
def governorState (m : Meas) (s : State) : State :=
  if s.dev.st = .off || s.pins.resetAsserted then s else
  let s := { s with
    gov := { s.gov with
      inputMw := m.inputMw, inputMv := m.inputMv, inputMa := m.inputMa, tj := m.tj, inlet := m.inlet
      outlet := m.outlet, crust := m.crust, gddr := m.gddr, regulator := m.regulator
      energy := s.gov.energy + m.inputMw
      inputFault := decide (m.inputMv < 44000) || decide (58000 < m.inputMv) } }
  let s :=
    if s.job.st.live && s.dev.st = .active && s.dev.mainUp then
      let floor := decide (s.gov.target ≤ s.eff.vMin)
      let bound := if floor && inBinds s then s.gov.boundUs + 100 else 0
      let free := if inBinds s then 0 else s.gov.freeUs + 100
      let gating := (s.gov.gating || decide (2000 ≤ bound)) && decide (free < 10000)
      let release := decide (s.gov.inputMw * 100 < inputLimit s * 98)
        && decide (s.gov.outlet < (s.eff.outLimit : Int) * 100 - 50)
      let t := nextTarget s
      let ceil := (s.gov.ceiling.zip s.gov.tj).map fun (c, tj) => nextCeiling s c tj
      let v := ceil.map fun c => min t c
      let s := { s with gov := { s.gov with
        target := t, ceiling := ceil, vcore := v, boundUs := bound, freeUs := free, gating := gating
        minMv := v.foldl min s.gov.minMv, powerSum := s.gov.powerSum + m.inputMw, powerN := s.gov.powerN + 1 } }
      if release || !gating then endHolds s else s
    else s
  refreshAlert s

/-- When a job becomes active T starts from the present VCORE clamped to the range (R394); leaving it, READY's 0.55 V
(R395). -/
def governorStart (s : State) : State :=
  let t := max s.eff.vMin (min s.eff.vMax (s.gov.vcore.headD 550))
  { s with gov := { s.gov with target := t, ceiling := List.replicate 4 s.eff.vMax, vcore := List.replicate 4 t,
                               boundUs := 0, freeUs := 0, gating := false, minMv := t } }

def governorStop (s : State) : State :=
  { s with gov := { s.gov with vcore := List.replicate 4 550, gating := false, electiveMw := 0 } }

/-- Headroom H in mW for work on a hearth, or for none (R397). -/
def headroom (s : State) (hearth : Option Nat) : Int :=
  let a : Int := (inputLimit s : Int) - s.gov.inputMw
  let b := coolantMargin s
  let c : Int := match hearth with
    | some h => ((s.eff.tjLimit : Int) * 100 - s.gov.tj.getD h 0) * 600
    | none => a
  min a (min b c) - (s.eff.holdback : Int) * 1000 - s.gov.electiveMw

/-- An estimate of Table 17.8 scaled to a hearth's VCORE, in mW. -/
def scaleEst (s : State) (hearth mw : Nat) : Nat := mw * hearthModel (s.gov.vcore.getD hearth 550) / 1150000

/-- The hold limit under gating (R396): group `g` below 64; a problem's piece from 64 on. -/
def gatingLimitState (g : Nat) (s : State) : State :=
  if g < 64 then
    let x := s.group g
    match x.held with
    | some t =>
      let s := { s with localUs := max s.localUs (t + 2000) }
      setGroup g { x with held := none, passed := true } s
    | none => s
  else
    let x := tget ProbSt.reset s.leaven.probs (g - 64)
    match x.held with
    | some t =>
      { s with
        localUs := max s.localUs (t + 2000)
        leaven := { s.leaven with probs := tset s.leaven.probs (g - 64) { x with held := none, passed := true } } }
    | none => s

end Sys2Proof.Machine
end

