-- ==== Sys2Proof/Machine/Sections.lean ====
section
/-! DEFINITION. The recipe sections of chapters 8 to 11 and 14: leaven jobs and problems, block and kernel records,
collectives, the mapping record and the ingest record, their fields read from words. -/

namespace Sys2Proof.Machine

/-! ## Root schedule (Tables 08.1 and 08.2) -/

/-- Leaven job descriptor. -/
structure LvJob where
  op : Nat
  pLog2 : Nat
  borrow : Bool
  hearth : Nat
  borrowN : Nat
  count : Nat
  id : Nat
  n : Nat
  every : Nat
  damp : Int
  cap : Nat
  lag : Nat
  tol : W32
  epsFloor : W32
  probOff : Nat
  workVa : Nat
  deriving DecidableEq, Repr

/-- R190. -/
def lvJob (w : Words) : LvJob :=
  let w0 := word w 0
  { op := fld w0 23 23, pLog2 := fld w0 22 21, borrow := bit w0 20, hearth := fld w0 19 18, borrowN := fld w0 17 14,
    count := fld w0 7 0 + 1, id := fld (word w 1) 31 16, n := fld (word w 1) 11 0 + 1, every := fld (word w 2) 31 24,
    damp := signed 8 (fld (word w 2) 23 16), cap := fld (word w 2) 5 0, lag := fld (word w 3) 15 0, tol := word w 4,
    epsFloor := word w 5, probOff := (word w 6).toNat, workVa := (word w 8).toNat + 2 ^ 32 * fld (word w 9) 15 0 }

def lvJobReservedOk (w : Words) : Bool :=
  let j := lvJob w
  w.length == 16 && fld (word w 0) 31 24 == 9 && fld (word w 0) 13 8 == 0 && (j.op == 0 || j.pLog2 == 0)
    && (j.borrow || (j.borrowN == 0 && j.workVa == 0)) && fld (word w 1) 15 12 == 0 && fld (word w 2) 15 6 == 0
    && fld (word w 3) 31 16 == 0 && j.probOff % 64 == 0 && word w 7 == 0 && fld (word w 9) 31 16 == 0
    && zeroWords w 10 16

/-- Problem entry with its job. -/
structure Prob where
  job : LvJob
  weight : Nat
  side : Nat
  role : Nat
  block : Nat
  starter : Nat
  destCnt : Nat
  factorVa : Nat
  rootVa : Nat
  destVa : Nat
  owner : Nat
  beta : W32
  deriving DecidableEq, Repr

/-- R191. -/
def probOf (j : LvJob) (w : Words) : Prob :=
  let w0 := word w 0; let w1 := word w 1
  { job := j, weight := fld w0 31 16, side := fld w0 15 15, role := fld w0 14 14, block := fld w0 7 0,
    starter := fld w1 31 20, destCnt := fld w1 11 0, factorVa := (word w 2).toNat + 2 ^ 32 * fld (word w 3) 15 0,
    rootVa := (word w 4).toNat + 2 ^ 32 * fld (word w 5) 15 0,
    destVa := (word w 6).toNat + 2 ^ 32 * fld (word w 7) 15 0, owner := fld (word w 7) 31 20, beta := word w 8 }

def probReservedOk (w : Words) : Bool :=
  let r := fld (word w 0) 14 14
  fld (word w 0) 13 8 == 0 && fld (word w 1) 19 12 == 0 && fld (word w 3) 31 16 == 0 && fld (word w 5) 31 16 == 0
    && fld (word w 7) 19 16 == 0 && zeroWords w 9 16
    && (if r = 1 then word w 1 == 0 && word w 2 == 0 && word w 3 == 0 else fld (word w 7) 31 20 == 0)

/-- Words of entry `i` of size `k` words from byte offset `off`. -/
def entryAt (w : Words) (off k i : Nat) : Words := (w.drop (off / 4 + k * i)).take k

/-- Job descriptors stand from offset 0 up to the first problem table (DEDUCED, notes/assumptions/20). -/
def lvJobs : Nat → Words → Nat → Nat → List LvJob
  | 0, _, _, _ => []
  | fuel + 1, w, i, lim =>
    if 64 * i < lim ∧ 16 * i < w.length then
      let j := lvJob (entryAt w 0 16 i)
      j :: lvJobs fuel w (i + 1) (min lim j.probOff)
    else []

/-- The jobs of a root-schedule section, and every problem in recipe order. -/
def rootJobs (w : Words) : List LvJob := lvJobs (w.length / 16 + 1) w 0 (4 * w.length)
def rootProbs (w : Words) : List Prob :=
  (rootJobs w).flatMap fun j => (List.range j.count).map fun i => probOf j (entryAt w j.probOff 16 i)

/-- Tiles of a symmetric matrix of dimension n (R187). -/
def symTiles (n : Nat) : Nat := let t := cdiv n 32; t * (t + 1) / 2

/-- Bytes of one slot of a factor state or root store (R189, R215). -/
def symSlot (n : Nat) : Nat := 4096 * (1 + symTiles n)

/-! ## Update-kernel section (chapter 9) -/

/-- Block record (Table 09.1). -/
structure BlockRec where
  uhearth : Nat
  comp : Bool
  moms : Nat
  weight : Nat
  row : Nat
  col : Nat
  kernel : Nat
  scal : Nat
  rows : Nat
  ties : Nat
  cols : Nat
  lJob : Nat
  lProb : Nat
  rProb : Nat
  rJob : Nat
  wcFmt : Nat
  stateVa : Nat
  gradVa : Nat
  pVa : Nat
  lexp : Nat
  rexp : Nat
  auxVa : Nat
  deriving DecidableEq, Repr

/-- R221. -/
def blockRec (w : Words) : BlockRec :=
  let w0 := word w 0; let w1 := word w 1; let w2 := word w 2; let w3 := word w 3
  { uhearth := fld w0 23 22, comp := bit w0 21, moms := fld w0 20 19, weight := fld w0 15 0, row := fld w1 31 24,
    col := fld w1 23 16, kernel := fld w1 15 8, scal := fld w1 7 0, rows := fld w2 27 16 + 1, ties := fld w2 15 12,
    cols := fld w2 11 0 + 1, lJob := fld w3 31 16, lProb := fld w3 15 8, rProb := fld w3 7 0,
    rJob := fld (word w 4) 31 16, wcFmt := fld (word w 4) 15 8,
    stateVa := (word w 5).toNat + 2 ^ 32 * fld (word w 6) 15 0,
    gradVa := (word w 7).toNat + 2 ^ 32 * fld (word w 6) 31 16,
    pVa := (word w 8).toNat + 2 ^ 32 * fld (word w 11) 15 0,
    lexp := (word w 9).toNat + 2 ^ 32 * fld (word w 11) 31 16,
    rexp := (word w 10).toNat + 2 ^ 32 * fld (word w 12) 15 0, auxVa := 65536 * (word w 13).toNat }

def blockReservedOk (w : Words) : Bool :=
  let b := blockRec w
  w.length == 16 && fld (word w 0) 31 24 == 0x0A && fld (word w 0) 18 16 == 0 && fld (word w 2) 31 28 == 0
    && fld (word w 4) 7 0 == 0 && fld (word w 12) 31 16 == 0 && zeroWords w 14 16
    && (b.lJob != 0xFFFF || b.lProb == 0) && (b.rJob != 0xFFFF || b.rProb == 0)
    && b.stateVa % 4096 == 0 && b.gradVa % 4096 == 0 && b.pVa % 4096 == 0

/-- Elements of a block, and its parts. -/
def BlockRec.elems (b : BlockRec) : Nat := b.rows * b.cols

/-- Round up to 4 KiB. -/
def up4k (n : Nat) : Nat := cdiv n 4096 * 4096

/-- An update-kernel instruction (Table 09.7). -/
structure KInstr where
  opc : Nat
  dst : Nat
  a : Nat
  b : Nat
  c : Nat
  deriving DecidableEq, Repr

/-- R238. -/
def kInstr (w : W32) : KInstr := ⟨fld w 31 26, fld w 25 22, fld w 21 17, fld w 16 12, fld w 11 7⟩

/-- Kernel record (Table 09.5). -/
structure Kernel where
  ins : List Nat
  outs : List Nat
  code : List W32
  deriving DecidableEq, Repr

/-- Words of a kernel record at the front of the words. -/
def kernelLen (w : Words) : Nat := 5 + fld (word w 0) 5 0

/-- R236. -/
def kernelRec (w : Words) : Kernel :=
  { ins := (List.range 6).map fun t => fld (word w 1) (4 * t + 3) (4 * t)
    outs := (List.range 4).map fun t => fld (word w 2) (4 * t + 3) (4 * t)
    code := (w.drop 4).take (fld (word w 0) 5 0 + 1) }

/-- `n` kernel records at the front of the words, and what follows. -/
def takeKernels : Nat → Words → List Words × Words
  | 0, w => ([], w)
  | n + 1, w => let (r, w') := takeKernels n (w.drop (kernelLen w)); (w.take (kernelLen w) :: r, w')

/-- Words up to the next multiple of 64 bytes from the section's start. -/
def align16 (w rest : Words) : Words := rest.drop ((16 - (w.length - rest.length) % 16) % 16)

/-- The update-kernel section: kernel records, scalar sets, block records (R221). -/
structure KernelSec where
  kernels : List Words
  scalars : List Words
  blocks : List Words
  deriving DecidableEq, Repr

def kernelSec (w : Words) : KernelSec :=
  let (ks, r) := takeKernels (word w 0).toNat (w.drop 1)
  let r := align16 w r
  let ns := (word r 0).toNat
  let ss := (List.range ns).map fun i => ((r.drop 1).drop (12 * i)).take 12
  let r := align16 w ((r.drop 1).drop (12 * ns))
  let nb := (word r 0).toNat
  let bs := r.drop 1
  { kernels := ks, scalars := ss, blocks := (List.range nb).map fun i => (bs.drop (16 * i)).take 16 }

/-! ## Collectives (chapter 10) -/

/-- Collective descriptor (Table 10.1). -/
structure Coll where
  op : Nat
  wire : Nat
  hearth : Nat
  id : Nat
  layer : Nat
  trigger : Nat
  cnt : Bool
  toTile : Bool
  groupN : Nat
  rank : Nat
  shift : Nat
  root : Nat
  dstCore : Nat
  membersOff : Nat
  countsOff : Nat
  elems : Nat
  srcVa : Nat
  dstVa : Nat
  consLayer : Nat
  consKind : Nat
  deriving DecidableEq, Repr

/-- R247. -/
def coll (w : Words) : Coll :=
  let w0 := word w 0; let w1 := word w 1; let w2 := word w 2; let w3 := word w 3
  { op := fld w0 23 20, wire := fld w0 19 18, hearth := fld w0 17 16, id := fld w0 15 0, layer := fld w1 31 16,
    trigger := fld w1 15 12, cnt := bit w1 11, toTile := bit w1 10, groupN := fld w2 31 20 + 1, rank := fld w2 19 8,
    shift := fld w2 7 4, root := fld w3 31 20, dstCore := fld w3 19 11, membersOff := (word w 4).toNat,
    countsOff := (word w 5).toNat, elems := (word w 6).toNat,
    srcVa := (word w 7).toNat + 2 ^ 32 * fld (word w 8) 15 0,
    dstVa := (word w 9).toNat + 2 ^ 32 * fld (word w 8) 31 16,
    consLayer := fld (word w 10) 31 16, consKind := fld (word w 10) 15 12 }

def collReservedOk (w : Words) : Bool :=
  let c := coll w
  w.length == 16 && fld (word w 0) 31 24 == 0x0C && decide (c.op ≤ 5) && c.wire != 3 && decide (c.trigger ≤ 5)
    && fld (word w 1) 9 0 == 0 && decide (c.shift ≤ 8) && fld (word w 2) 31 20 != 0 && fld (word w 2) 3 0 == 0 && fld (word w 3) 10 0 == 0
    && (c.toTile || c.dstCore == 0) && (!c.toTile || fld (word w 8) 31 16 == 0) && decide (c.consKind ≤ 4)
    && fld (word w 10) 11 0 == 0 && zeroWords w 11 16 && (c.op == 2 || c.op == 4 || c.op == 5 || c.root == 0)

/-- Halfword `i` from byte offset `off` of a section. -/
def u16At (w : Words) (off i : Nat) : Nat :=
  let o := off + 2 * i
  let x := word w (o / 4)
  if o % 4 = 0 then fld x 15 0 else fld x 31 16

/-- A list of `n` 16-bit identifiers. -/
def u16List (w : Words) (off n : Nat) : List Nat := (List.range n).map (u16At w off)

/-- The job member list: part 1 of the collective-schedule section (R246). -/
def jobMembers (w : Words) : List Nat := u16List w 4 (word w 0).toNat

/-- Byte offset of part 2. -/
def collsOff (w : Words) : Nat := cdiv (4 + 2 * (word w 0).toNat) 64 * 64

/-- Words of the collective descriptors, directly after their count, and the descriptors. -/
def collWords (w : Words) : List Words :=
  let o := collsOff w / 4
  let n := (word w o).toNat
  (List.range n).map fun i => (w.drop (o + 1 + 16 * i)).take 16
def collList (w : Words) : List Coll := (collWords w).map coll

/-- Members of a collective's group in rank order. -/
def Coll.members (c : Coll) (w : Words) : List Nat := u16List w c.membersOff c.groupN

/-- R257: elements of segment r. -/
def Coll.count (c : Coll) (w : Words) (r : Nat) : Nat :=
  if c.countsOff = 0xFFFFFFFF then c.elems else (word w (c.countsOff / 4 + r)).toNat

/-! ## Budgets section (chapters 11 and 14) -/

/-- Mapping record (Table 11.2). Sizes as counts. -/
structure Mapping where
  dSize : Nat
  dRank : Nat
  pSize : Nat
  pRank : Nat
  tSize : Nat
  tRank : Nat
  sSize : Nat
  sRank : Nat
  eSize : Nat
  eRank : Nat
  experts : Nat
  dOff : Nat
  tOff : Nat
  pOff : Nat
  sOff : Nat
  eOff : Nat
  routeVa : Nat
  deriving DecidableEq, Repr

/-- R272. -/
def mapping (w : Words) : Mapping :=
  let w0 := word w 0; let w1 := word w 1; let w2 := word w 2
  { dSize := fld w0 23 12 + 1, dRank := fld w0 11 0, pSize := fld w1 31 26 + 1, pRank := fld w1 25 20,
    tSize := fld w1 19 16 + 1, tRank := fld w1 15 12, sSize := fld w1 11 6 + 1, sRank := fld w1 5 0,
    eSize := fld w2 31 26 + 1, eRank := fld w2 25 20, experts := fld w2 19 10, dOff := (word w 3).toNat,
    tOff := (word w 4).toNat, pOff := (word w 5).toNat, sOff := (word w 6).toNat, eOff := (word w 7).toNat,
    routeVa := 65536 * (word w 8).toNat }

def mappingReservedOk (w : Words) : Bool :=
  fld (word w 0) 31 24 == 0x0D && fld (word w 2) 9 0 == 0 && zeroWords w 9 16

/-- R280: a route table is needed. -/
def Mapping.routed (m : Mapping) : Bool := decide (0 < m.experts) && decide (m.experts < m.eSize)

/-- Ingest record (Table 14.3): word 16 of the budgets section onward. -/
structure IngestRec where
  tokW : Nat
  targets : Nat
  tgtOff : Nat
  extOff : Nat
  extCnt : Nat
  ckptExt : Nat
  imageExt : Nat
  ckptEvery : Nat
  shardFirst : Nat
  shardCnt : Nat
  startEpoch : Nat
  startShard : Nat
  startOff : Nat
  deriving DecidableEq, Repr

/-- R328. -/
def ingestRec (w : Words) : IngestRec :=
  let w0 := word w 0
  { tokW := fld w0 17 16, targets := fld w0 15 8, tgtOff := (word w 1).toNat, extOff := (word w 2).toNat,
    extCnt := fld (word w 3) 31 16, ckptExt := fld (word w 3) 15 0, imageExt := fld (word w 4) 31 16,
    ckptEvery := fld (word w 4) 15 0, shardFirst := fld (word w 5) 31 16, shardCnt := fld (word w 5) 15 0 + 1,
    startEpoch := (word w 6).toNat, startShard := (word w 7).toNat, startOff := u64 w 8 }

def ingestReservedOk (w : Words) : Bool :=
  let r := ingestRec w
  fld (word w 0) 31 24 == 0x0E && fld (word w 0) 23 18 == 0 && (r.tokW == 1 || r.tokW == 2)
    && decide (1 ≤ r.targets ∧ r.targets ≤ 32) && fld (word w 0) 7 0 == 0 && decide (1 ≤ r.extCnt)
    && r.startOff % 8 == 0 && zeroWords w 10 16

/-- Extent entry (R329). -/
structure Extent where
  tgt : Nat
  ns : Nat
  lba : Nat
  blocks : Nat
  deriving DecidableEq, Repr

/-- Extent `i` of the extent table. -/
def extentAt (w : Words) (r : IngestRec) (i : Nat) : Extent :=
  let e := entryAt w r.extOff 8 i
  { tgt := fld (word e 0) 7 0, ns := (word e 1).toNat, lba := u64 e 2, blocks := u64 e 4 }

end Sys2Proof.Machine
end

