-- ==== Sys2Proof/Machine/Vm.lean ====
section
/-! DEFINITION. Device-virtual memory, the pantries, page allocation and retirement (chapters 4, 5 and 13). -/

namespace Sys2Proof.Machine

/-- Bytes of a page (R125). -/
def pageSize : Nat := 2 * 1024 * 1024

/-- Look a key up. -/
def klook {α : Type} (l : List (Nat × α)) (k : Nat) : Option α := (l.find? fun x => x.1 == k).map (·.2)

/-- Remove a key. -/
def kdel {α : Type} (l : List (Nat × α)) (k : Nat) : List (Nat × α) := l.filter fun x => x.1 != k

/-- R125: physical address of a device-virtual byte, none on a translation miss. -/
def State.xlat (s : State) (va : Nat) (write : Bool) : Option Nat :=
  match klook s.mm.pages (va / pageSize) with
  | some p => if write && !p.write then none else some (p.ppn * pageSize + va % pageSize)
  | none => none

/-- The physical byte that holds a device-virtual byte for the kneader, update unit, leaven engine and steward: a page
invalidated for retirement still holds its data until the steward copies it (R321). -/
def State.phys (s : State) (va : Nat) : Option Nat :=
  match klook s.mm.pages (va / pageSize) with
  | some p => some (p.ppn * pageSize + va % pageSize)
  | none => (klook s.mm.lost (va / pageSize)).map fun p => p * pageSize + va % pageSize

/-- Read bytes through translation; a byte without translation reads as an unlisted address does. -/
def State.vmRead (s : State) (va n : Nat) : Bytes :=
  (List.range n).map fun i => match s.phys (va + i) with
    | some p => memRead s.mm.mem p
    | none => memDefault

/-- 32-bit little-endian word at a device-virtual address. -/
def State.vmWord (s : State) (va : Nat) : Nat := ofLe (s.vmRead va 4)

/-! ## Placement and the in-line code (R311 to R313) -/

/-- R311: channel, data offset within the channel, and home line index of a physical address. -/
def place (pa mode : Nat) : Nat × Nat × Nat :=
  let h := pa / (45 * 2 ^ 30)
  let loc := pa % (45 * 2 ^ 30)
  let u := if mode = 0 then pa / 4096 else loc / 4096
  let c := if mode = 0 then u % 24 else 6 * h + u % 6
  let o := if mode = 0 then u / 24 * 4096 + pa % 4096 else u / 6 * 4096 + loc % 4096
  (c, o, o / 4096 * 192 + c % 6 * 32 + o % 4096 / 128)

/-- The physical address at a data offset of a channel (the inverse of R311). -/
def paOf (c o mode : Nat) : Nat :=
  if mode = 0 then (o / 4096 * 24 + c) * 4096 + o % 4096
  else 45 * 2 ^ 30 * (c / 6) + (o / 4096 * 6 + c % 6) * 4096 + o % 4096

/-- Physical address of a home line of a hearth. -/
def lineAddr (h line mode : Nat) : Nat := paOf (6 * h + line % 192 / 32) (line / 192 * 4096 + line % 32 * 128) mode

/-- R312: span, data block, raw offset, and raw offset of the check symbols of a data offset. -/
def spanOf (o : Nat) : Nat := o / 1920
def dataBlock (o : Nat) : Nat := o % 1920 / 128
def rawOffset (o : Nat) : Nat := 2048 * spanOf o + 128 * dataBlock o + o % 128
def checkOffset (o : Nat) : Nat := 2048 * spanOf o + 1920 + 8 * dataBlock o

/-- R93, R313: an error pattern, as the symbols of one codeword and what is flipped in each. The code corrects it when at
most two of the codeword's `n` symbols are wrong, which takes in any 16 consecutive bits; every other pattern is reported
(notes/assumptions/64). -/
def correctable (n : Nat) (e : List SymErr) : Bool :=
  decide ((((e.filter fun x => x.mask != 0 && decide (x.sym < n)).map (·.sym)).eraseDups).length ≤ 2)

/-- The pattern touches a symbol at all. -/
def hasError (n : Nat) (e : List SymErr) : Bool := e.any fun x => x.mask != 0 && decide (x.sym < n)

/-! ## Pantries (R99 to R107) -/

/-- Follow a 15-bit tree to the least recently used way: node i has children 2i+1 and 2i+2, a set bit points right
(DESIGN CHOICE, notes/assumptions/21). -/
def plruVictim (b : BitVec 15) : Nat :=
  let step (n : Nat) : Nat := 2 * n + (if b.getLsbD n then 2 else 1)
  step (step (step (step 0))) - 15

/-- Point the tree away from a way, or toward it for a streaming line (R100, R102). -/
def plruTouch (b : BitVec 15) (way : Nat) (toward : Bool) : BitVec 15 :=
  (List.range 4).foldl (fun b l =>
    let node := (15 + way + 1) / 2 ^ (l + 1) - 1
    let childRight := (15 + way + 1) / 2 ^ l % 2 == 1
    if childRight == toward then b ||| (1#15 <<< node) else b &&& ~~~(1#15 <<< node)) b

/-- Enabled ways of a set. -/
def PSet.enabled (x : PSet) : List Nat := (List.range 16).filter fun w => !x.disabled.contains w

/-- The way a new line takes: a free way, else the tree's, else the first; never the reserved one (R413). -/
def PSet.pick (x : PSet) (avoid : Option Nat) : Nat :=
  let on := x.enabled.filter fun w => avoid != some w
  match on.find? fun w => !x.ways.any fun e => e.1 = w with
  | some w => w
  | none => let v := plruVictim x.plru; if on.contains v then v else on.headD 0

/-- Bring a line into its set, or touch it (R100 to R102). -/
def PSet.access (x : PSet) (avoid : Option Nat) (line : Nat) (dirty streaming : Bool) : PSet :=
  match x.ways.find? fun e => e.2.1 = line with
  | some e =>
    { x with ways := x.ways.map fun f => if f.2.1 = line then (f.1, f.2.1, f.2.2 || dirty) else f
             plru := plruTouch x.plru e.1 false }
  | none =>
    let w := x.pick avoid
    { x with ways := (w, line, dirty) :: x.ways.filter fun e => e.1 != w
             plru := plruTouch x.plru w streaming }

/-- Dirty lines a set loses between two moments: they are written to main memory (R101). -/
def PSet.evicted (x y : PSet) : List Nat :=
  (x.ways.filter fun e => e.2.2 && !y.ways.any fun f => f.2.1 == e.2.1).map (·.2.1)

/-- A pantry set. -/
def MemSt.set (m : MemSt) (k : Nat) : PSet := tget PSet.empty m.pantry k

/-- Key of the home set of a physical address, and its home line. -/
def MemSt.home (m : MemSt) (pa : Nat) : Nat × Nat :=
  let p := place pa m.interleave
  (49152 * (p.1 / 6) + p.2.2 % 49152, p.2.2)

/-- The line of a physical address in its home pantry, as (way, line, dirty). -/
def MemSt.line? (m : MemSt) (pa : Nat) : Option (Nat × Nat × Bool) :=
  (m.set (m.home pa).1).ways.find? fun e => e.2.1 == (m.home pa).2

/-- R413: the way of a set that belongs to its hearth's save area: the highest-numbered enabled way of each of the first
32,768 sets with at least two. Proofing fixes the disabled ways, and so the area. -/
def MemSt.saveWay (m : MemSt) (h set : Nat) : Option Nat :=
  let few := m.pantry.countP fun (k, x) => k / 49152 == h && decide (k % 49152 < set) && decide (x.enabled.length < 2)
  match (m.set (49152 * h + set)).enabled.reverse with
  | w :: _ :: _ => if set - few < 32768 then some w else none
  | _ => none

/-- R314: blocks written anew lose an earlier error. -/
def MemSt.rewrite (m : MemSt) (blocks : List Nat) : MemSt :=
  { m with
    poison := if m.poison.isEmpty then [] else m.poison.filter fun b => !blocks.contains b
    broken := if m.broken.isEmpty then [] else m.broken.filter fun b => !blocks.contains b }

/-- Replace a set; the dirty lines it loses are written to main memory. -/
def MemSt.putSet (m : MemSt) (k : Nat) (x : PSet) : MemSt :=
  let r := m.rewrite (((m.set k).evicted x).map fun l => lineAddr (k / 49152) l m.interleave / 128)
  { m with pantry := tset m.pantry k x, poison := r.poison, broken := r.broken }

/-- Access one line at a physical address. -/
def MemSt.access (m : MemSt) (pa : Nat) (dirty streaming : Bool) : MemSt :=
  let k := (m.home pa).1
  let avoid := if m.saving.contains (k / 49152) then m.saveWay (k / 49152) (k % 49152) else none
  m.putSet k ((m.set k).access avoid (m.home pa).2 dirty streaming)

/-- Access lines in order: only the pantries change, and the blocks whose lines they write back. -/
def MemSt.touch (m : MemSt) (lines : List Nat) (dirty streaming : Bool) : MemSt :=
  let r := lines.foldl (fun m pa => m.access pa dirty streaming) m
  { m with pantry := r.pantry, poison := r.poison, broken := r.broken }

/-- Drop lines from their pantries without writing them back. -/
def MemSt.drop (m : MemSt) (lines : List Nat) : MemSt :=
  { m with pantry := lines.foldl (fun p pa =>
      let x := tget PSet.empty p (m.home pa).1
      tset p (m.home pa).1 { x with ways := x.ways.filter fun e => e.2.1 != (m.home pa).2 }) m.pantry }

/-- Write back and drop what `gone` names, of every set (R104, R413). -/
def MemSt.flush (m : MemSt) (gone : Nat → Nat × Nat × Bool → Bool) : MemSt :=
  let out := m.pantry.flatMap fun (k, x) =>
    (x.ways.filter fun e => gone k e && e.2.2).map fun e => lineAddr (k / 49152) e.2.1 m.interleave / 128
  let r := m.rewrite out
  { m with
    pantry := m.pantry.map fun (k, x) => (k, { x with ways := x.ways.filter fun e => !gone k e })
    poison := r.poison, broken := r.broken }

/-- A read of this physical address would meet uncorrectable data: the block is marked, and no pantry holds its line
(R101, R318, R320). -/
def State.bad (s : State) (pa : Nat) : Bool :=
  (s.mm.poison.contains (pa / 128) || s.mm.broken.contains (pa / 128)) && (s.mm.line? pa).isNone

/-- R312: the byte at a raw offset of a channel as the device holds it; none under a dirty line and in a block that holds
another uncorrectable pattern, of which no rule says what its bytes are. -/
def State.rawByte (s : State) (c raw : Nat) : Option Byte :=
  let check := decide (1920 ≤ raw % 2048)
  let blk := if check then (raw % 2048 - 1920) / 8 else raw % 2048 / 128
  let o := raw / 2048 * 1920 + 128 * blk
  let pa := paOf c o s.mm.interleave
  if 2040 ≤ raw % 2048 then some 0
  else if (s.mm.line? pa).any fun e => e.2.2 then none
  else if s.mm.poison.contains (pa / 128) then some (if check then 0x5A else 0)
  else if s.mm.broken.contains (pa / 128) then none
  else if check then some ((Config.rsCheck (memBytes s.mm.mem pa 128)).getD (raw % 8) 0)
  else some (memRead s.mm.mem (pa + raw % 128))

/-! ## Translation caches (R125, R126) -/

/-- Physical address of the level-one table, and of the level-two table of a level-one index: 4 KiB-aligned, in the
steward's pages; the manual does not say where. -/
def tableRoot : Nat := 4096 * (Config.tableRoot % 65504)
def levelTwo (i : Nat) : Nat := 4096 * (Config.levelTwo i % 65520)

/-- R125: the entry words of the translation table as they stand in main memory. A level-two table exists while it maps
a page or holds the invalid entry of a retired one. -/
def State.levelOneWord (s : State) (i : Nat) : Nat :=
  if s.mm.pages.any (fun x => x.1 / 8192 == i) || s.mm.lost.any (fun x => x.1 / 8192 == i) then 2 ^ 63 + levelTwo i else 0
def State.levelTwoWord (s : State) (vpn : Nat) : Nat :=
  match klook s.mm.pages vpn with
  | some p => 2 ^ 63 + (if p.write then 2 ^ 62 else 0) + p.ppn * pageSize
  | none => 0

/-- Enter a key in a set of eight, the least recently used going (DESIGN CHOICE, notes/assumptions/65). -/
def lruEnter (k : Nat) (l : List Nat) : List Nat := k :: (l.filter (· != k)).take 7

/-- An access of a hearth to a mapped page: a miss in its cache is walked through the home pantry of the entries (R126:
1,024 level-two and 32 level-one sets, by the low bits of the index, notes/assumptions/65). -/
def atcTouch (hearth vpn : Nat) (s : State) : State :=
  if (klook s.mm.pages vpn).isNone then s else
  let k := 1024 * hearth + vpn % 1024
  let i := vpn / 8192
  let k1 := 32 * hearth + i % 32
  let hit := (tget [] s.mm.atc k).contains vpn
  let hit1 := (tget [] s.mm.atcOne k1).contains i
  let walk := (if hit1 then [] else [tableRoot + 8 * i]) ++ [levelTwo i + 8 * (vpn % 8192)]
  let m := if hit then s.mm else s.mm.touch walk false false
  { s with mm := { m with
    atc := tset m.atc k (lruEnter vpn (tget [] m.atc k))
    atcOne := if hit then m.atcOne else tset m.atcOne k1 (lruEnter i (tget [] m.atcOne k1)) } }

/-! ## Access to ranges -/

/-- The lines of a mapped range, as physical addresses. -/
def State.linesOf (s : State) (va n : Nat) : List Nat :=
  (List.range (if n = 0 then 0 else (va + n - 1) / 128 - va / 128 + 1)).filterMap fun i => s.phys ((va / 128 + i) * 128)

/-- Access lines at physical addresses in their home pantries (R99 to R102). -/
def touchLines (lines : List Nat) (dirty streaming : Bool) (s : State) : State :=
  { s with mm := s.mm.touch lines dirty streaming }

/-- Access every line of a range (R99, R101); a read does not install what is uncorrectable (R320). -/
def touchRange (va n : Nat) (dirty streaming : Bool) (s : State) : State :=
  touchLines ((s.linesOf va n).filter fun pa => dirty || !s.bad pa) dirty streaming s

/-- A unit of a hearth reads a range through its translation cache and the home pantries (R99, R126). -/
def readTouch (hearth va n : Nat) (s : State) : State :=
  let s := touchRange va n false false s
  if n = 0 then s
  else (List.range ((va + n - 1) / pageSize - va / pageSize + 1)).foldl (fun s i => atcTouch hearth (va / pageSize + i) s) s

/-- No byte of a mapped range is uncorrectable (R320). -/
def State.vmGood (s : State) (va n : Nat) : Bool :=
  (s.mm.poison.isEmpty && s.mm.broken.isEmpty) || (s.linesOf va n).all fun pa => !s.bad pa

/-- The line at 128 × l is written whole by a store of a range. -/
def wholeLine (va n l : Nat) : Bool := decide (va ≤ 128 * l) && decide (128 * l + 128 ≤ va + n)

/-- Write bytes through translation. Bytes without translation are not written. A partial write to a line that reads
uncorrectable finds no data to merge with, and nothing of it is written (R101, R320); a line written whole needs none
(R314). -/
def vmStore (va : Nat) (bs : Bytes) (s : State) : State :=
  let n := bs.length
  let ok (a p : Nat) : Bool := wholeLine va n (a / 128) || !s.bad p
  let mem := (bs.zipIdx).foldl (fun m (b, i) => match s.phys (va + i) with
    | some p => if ok (va + i) p then memWrite m p b else m
    | none => m) s.mm.mem
  let lines := (List.range (if n = 0 then 0 else (va + n - 1) / 128 - va / 128 + 1)).filterMap fun i =>
    match s.phys ((va / 128 + i) * 128) with
    | some p => if ok ((va / 128 + i) * 128) p then some p else none
    | none => none
  { s with mm := { s.mm with mem := mem }.touch lines true false }

/-- Write one 32-bit word. -/
def vmStoreW (va n : Nat) (s : State) : State := vmStore va (leBytes 4 n) s

/-! ## Pages -/

/-- Declared main-memory region of an address (R127). -/
def regionAt (c : Container) (va : Nat) : Option Region :=
  c.regions.find? fun r => r.core.isNone && decide (r.base ≤ va) && decide (va < r.base + r.size)

/-- Lowest page held for containers (R310). -/
def State.heldPages (s : State) : List Nat := s.mm.loadedPages ++ s.mm.stagedPages ++ s.mm.holdPages
def State.topPage (s : State) : Nat := s.heldPages.foldl min 92160

/-- The `n` pages a staging takes, from page 92,159 downward. -/
def State.pagesFor (s : State) (n : Nat) : List Nat :=
  (((List.range (n + s.heldPages.length + s.mm.retired.length)).map (92159 - ·)).filter fun p =>
    !s.heldPages.contains p && !s.mm.retired.contains p).take n

/-- A physical page nothing uses. -/
def State.pageFree (s : State) (p : Nat) : Bool :=
  !s.mm.retired.contains p && !s.mm.retirePending.contains p && !s.mm.pages.any (fun x => x.2.ppn == p)
    && !s.mm.lost.any fun x => x.2 == p

/-- The free page the steward takes: the lowest, within the home hearth's range in hearth-local mode (R311). The first
`used + 1` pages of the range hold one. -/
def State.freePage (s : State) (home : Nat) : Option Nat :=
  let lo := if s.mm.interleave = 1 then max 128 (23040 * home) else 128
  let hi := if s.mm.interleave = 1 then min s.topPage (23040 * (home + 1)) else s.topPage
  let n := s.mm.pages.length + s.mm.retired.length + s.mm.retirePending.length + s.mm.lost.length + 1
  ((List.range n).map (lo + ·)).find? fun p => decide (p < hi) && s.pageFree p

/-- Physical addresses of the lines of a page. -/
def pageLines (p : Nat) : List Nat := (List.range 16384).map fun i => p * pageSize + 128 * i

/-- Map one virtual page of a region: a fresh page of zeros, or a copy of the retired page that held it, its uncorrectable
blocks written as poison (R127, R321). Every line of the fresh page is written whole. -/
def mapPage (r : Region) (vpn : Nat) (s : State) : Option State :=
  if (klook s.mm.pages vpn).isSome then some s else
  match s.freePage r.home with
  | none => none
  | some p =>
    let base := p * pageSize
    let mem := memZero s.mm.mem base pageSize
    let pg := tset s.mm.pages vpn ⟨p, r.writable⟩
    match klook s.mm.lost vpn with
    | none => some { s with mm := { s.mm with mem := mem, pages := pg }.touch (pageLines p) true false }
    | some old =>
      let cells := s.mm.mem.filter fun c => decide (old * pageSize ≤ c.1) && decide (c.1 < (old + 1) * pageSize)
      let mem := cells.foldl (fun m c => memWrite m (base + (c.1 - old * pageSize)) c.2) mem
      let bad := ((s.mm.poison ++ s.mm.broken).filter fun b => b / 16384 == old && s.bad (128 * b)).eraseDups
      let new := bad.map fun b => b - 16384 * old + 16384 * p
      let m := { s.mm with mem := mem, pages := pg, lost := kdel s.mm.lost vpn }
      let m := (m.drop (new.map (128 * ·))).touch ((pageLines p).filter fun a => !new.contains (a / 128)) true false
      some { s with mm := { m with poison := m.poison.filter (fun b => !new.contains b) ++ new } }

/-- Map every page of a region. -/
def mapRegion (r : Region) (s : State) : Option State :=
  (List.range (if r.size = 0 then 0 else (r.base + r.size - 1) / pageSize - r.base / pageSize + 1)).foldl
    (fun o i => o.bind (mapPage r (r.base / pageSize + i))) (some s)

/-- R127: serve a miss; none when the steward refuses it. -/
def serveMiss (va : Nat) (write : Bool) (s : State) : Option State :=
  match s.recipe.loaded with
  | none => none
  | some c =>
    match regionAt c va with
    | none => none
    | some r => if write && !r.writable then none else mapPage r (va / pageSize) s

/-- The steward can serve a miss at all: the page lies in a region that allows the access (R127). -/
def State.mayMap (s : State) (va : Nat) (write : Bool) : Bool :=
  match s.recipe.loaded.bind fun c => regionAt c va with
  | some r => !write || r.writable
  | none => false

/-- Misses whose item has ended stay for the steward to map (R127, R130, R131). -/
def oweMisses (l : List Miss) (s : State) : State :=
  { s with mm := { s.mm with
    owed := s.mm.owed ++ ((l.filter fun m => !m.mapped && s.mayMap m.va m.write).map fun m => (m.va, m.write)) } }

/-- The steward maps the pages of an address that it still owes; one it cannot map is dropped. -/
def mapOwed (va : Nat) (s : State) : State :=
  let mine (x : Nat × Bool) : Bool := x.1 / pageSize == va / pageSize
  let t := (s.mm.owed.filter mine).foldl (fun t x => (serveMiss x.1 x.2 t).getD t) s
  { t with mm := { t.mm with owed := t.mm.owed.filter fun x => !mine x } }

/-- R126, R321: retire the pages that wait for it: entries invalid, caches invalid, pages on the retired list. -/
def retirePages (s : State) : State :=
  if s.mm.retirePending.isEmpty then s else
  let hit (p : Nat) : Bool := s.mm.retirePending.contains p
  let gone := s.mm.pages.filter fun x => hit x.2.ppn
  { s with mm := { s.mm with
      pages := s.mm.pages.filter fun x => !hit x.2.ppn
      lost := s.mm.lost ++ gone.map fun x => (x.1, x.2.ppn)
      atc := []
      atcOne := []
      retired := s.mm.retired ++ s.mm.retirePending.filter fun p => !s.mm.retired.contains p
      retirePending := [] } }

/-- Mark a page for retirement. -/
def wantRetire (p : Nat) (s : State) : State :=
  if s.mm.retired.contains p || s.mm.retirePending.contains p then s
  else { s with mm := { s.mm with retirePending := s.mm.retirePending ++ [p] } }

/-- Dense binary32 matrix stored as the tiles of R187 at `va` (its lower triangle mirrored). -/
def State.readSym (s : State) (va n : Nat) : List (List W32) :=
  let t := cdiv n 32
  let off (r c : Nat) : Nat := r * t - r * (r + 1) / 2 + c
  (List.range n).map fun i => (List.range n).map fun j =>
    let a := min i j; let b := max i j
    BitVec.ofNat 32 (s.vmWord (va + 4096 * off (a / 32) (b / 32) + 4 * ((a % 32) * 32 + b % 32)))

/-- Write those tiles; positions beyond the dimension are not written (R174). -/
def storeSym (va n : Nat) (m : List (List W32)) (s : State) : State :=
  let t := cdiv n 32
  let off (r c : Nat) : Nat := r * t - r * (r + 1) / 2 + c
  let el (i j : Nat) : W32 := (m.getD (min i j) []).getD (max i j) 0
  (List.range t).foldl (fun s r => (List.range t).foldl (fun s c =>
    if r ≤ c then
      (List.range (min 32 (n - 32 * r))).foldl (fun s i =>
        vmStore (va + 4096 * off r c + 128 * i)
          ((List.range (min 32 (n - 32 * c))).flatMap fun j => leBytes 4 (el (32 * r + i) (32 * c + j)).toNat) s) s
    else s) s) s

end Sys2Proof.Machine
end

