-- ==== Sys2Proof/Machine/Recipe.lean ====
section
/-! DEFINITION. What the loaded recipe says about the step: its layers, groups, problems, blocks and collectives
(chapters 7 to 11). -/

namespace Sys2Proof.Machine

/-- A container with nothing in it, read when no recipe is loaded. -/
def noContainer : Container :=
  { header := [], sects := [], signer := [], sigOk := false, tailZero := true, layerSec := [], kernelSec := [],
    collSec := [], interSec := [], rootSec := [], budgetSec := [], evalSec := [], programs := [], regions := [],
    stats := [] }

/-- The loaded recipe. -/
def State.cont (s : State) : Container := s.recipe.loaded.getD noContainer

/-- `KIND` of a container (Table 19.4), and whether the loaded one is a diagnostic recipe (R406). -/
def contKind (c : Container) : Nat := fld (word c.header 1) 15 8
def State.isDiag (s : State) : Bool := contKind s.cont == 2

/-- Layers of a container. -/
def layersOf (c : Container) : List Layer := layerTable c.layerSec.length c.layerSec
def State.layers (s : State) : List Layer := layersOf s.cont
def State.layer? (s : State) (id : Nat) : Option Layer := s.layers.find? fun l => l.id == id

/-- Training layers in ascending `LAYER_ID`. -/
def trainIds (c : Container) : List Nat :=
  ((layersOf c).filter Layer.training).map (·.id) |>.mergeSort (fun a b => decide (a ≤ b))

/-- The training layer of this device next below, and next above, a layer (Table 01.5). -/
def State.below (s : State) (l : Nat) : Option Nat := ((trainIds s.cont).filter fun x => decide (x < l)).getLast?
def State.above (s : State) (l : Nat) : Option Nat := (trainIds s.cont).find? fun x => decide (l < x)

/-- Step parameters and groups. -/
def State.params (s : State) : StepParams := (interleave s.cont.interSec).1
def State.groupList (s : State) : List Group := (interleave s.cont.interSec).2
def State.groupOf (s : State) (g : Nat) : Group := s.groupList.getD g ⟨[], []⟩

/-- The step is a curvature-update step (R157). -/
def State.curv (s : State) (n : Nat) : Bool := s.params.isCurv n

/-- Problems, blocks, collectives, mapping and ingest records of the loaded recipe. -/
def State.probs (s : State) : List Prob := rootProbs s.cont.rootSec
def State.ksec (s : State) : KernelSec := kernelSec s.cont.kernelSec
def State.blocks (s : State) : List BlockRec := s.ksec.blocks.map blockRec
def State.colls (s : State) : List Coll := collList s.cont.collSec
def State.map (s : State) : Mapping := mapping s.cont.budgetSec
def State.ing (s : State) : IngestRec := ingestRec (s.cont.budgetSec.drop 16)

/-- Weight record of a parameter, and the layer that holds it. -/
def weightIn (c : Container) (w : Nat) : Option WeightRec := (layersOf c).findSome? fun l => l.weights.find? fun x => x.id == w
def layerOfWeight (c : Container) (w : Nat) : Option Layer := (layersOf c).find? fun l => l.weights.any fun x => x.id == w

/-- Block records whose parameter belongs to a layer, in recipe order (R221). -/
def State.layerBlocks (s : State) (l : Nat) : List BlockRec :=
  s.blocks.filter fun b => match layerOfWeight s.cont b.weight with
    | some x => x.id == l
    | none => false

/-- Cores selected by some group's mask. -/
def State.groupedCores (s : State) : List Nat := s.groupList.flatMap (·.cores)

/-- A logical core is available (R17). -/
def State.coreUp (s : State) (n : Nat) : Bool := s.dev.map.getD n 0xFF != 0xFF

/-- Device identifiers of the job other than this device. -/
def State.others (s : State) : List Nat := s.coll.members.filter fun d => d != s.devId

/-- The commit tree of R85 over `n` ranks: children of a rank in ascending level, and its parent. -/
def treeChildren (n r : Nat) : List Nat :=
  (List.range 12).filterMap fun l =>
    if r % 2 ^ (l + 1) = 0 ∧ r + 2 ^ l < n then some (r + 2 ^ l) else none
def treeParent (r : Nat) : Nat :=
  match (List.range 12).find? fun l => r % 2 ^ (l + 1) = 2 ^ l with
  | some l => r - 2 ^ l
  | none => 0

/-- This device's commit rank (R246). -/
def State.rank (s : State) : Nat := s.coll.members.idxOf s.devId

/-- Set the in-memory layer status (Table 07.5). -/
def lstatBytes (l : Nat) (x : LStat) : Bytes :=
  leBytes 4 (l * 2 ^ 16 + x.status.toNat) ++ leBytes 4 x.flush ++ leBytes 4 x.sat
    ++ leBytes 4 (min x.replays 0xFFFF * 2 ^ 16 + min x.xlat 0xFFFF)

/-- R178: write a layer's status. -/
def writeLstat (l : Nat) (s : State) : State :=
  vmStore (s.params.lstatVa * 65536 + 16 * l) (lstatBytes l (s.layerStat l)) s

/-- An item has completed in this attempt. -/
def State.isDone (s : State) (kind layer mb : Nat) : Bool := s.job.done.contains (kind, layer, mb)

end Sys2Proof.Machine
end

