-- ==== Sys2Proof/Machine/MatrixCalc.lean ====
section
/-! DEFINITION. What a matrix operation computes from its operands' values (R69 to R80, R85): products, stochastic
accumulation, overflow replay, the writeback of one output block, and the positions of elements and scales in streams. -/

namespace Sys2Proof.Machine

/-- An operand converted for the array: crumb19 parts, whether it read as NaN, whether R39 applies. -/
structure Opnd where
  hi : FVal
  lo : FVal
  nan : Bool
  ovf : Bool
  deriving DecidableEq, Repr

/-- R38 to R42: an operand at the array edge. -/
def convOpnd (split : Bool) (fmtByte : Nat) (v : FVal) : Opnd :=
  let f := opFmt fmtByte
  if f.elemFmt = 0 then
    if split then let (h, l) := splitCrumb v; ⟨h, l, v.isNan, false⟩
    else if f.crumbRnd then let r := crumbRound v; ⟨r, .fin false 0 0, v.isNan, v.isFin && r.isInf⟩
    else ⟨crumbTrunc v, .fin false 0 0, v.isNan, false⟩
  else ⟨v, .fin false 0 0, v.isNan, false⟩

/-- The products one K step contributes, in ordinal order (R42, R69). -/
def products (split : Bool) (x y : Opnd) : List FVal :=
  if split then
    let cross (p q : FVal) : FVal := if x.hi.isFin && y.hi.isFin then p.mul q else .fin false 0 0
    [x.hi.mul y.hi, cross x.hi y.lo, cross x.lo y.hi]
  else [x.hi.mul y.hi]

/-- The running sum of one output element (R69, R74, R77). `finite`: the initial value and every product so far were. -/
structure AccSt where
  v : FVal
  finite : Bool
  ovf : Bool
  invalid : Bool
  nan : Bool
  opOvf : Bool
  deriving DecidableEq, Repr

/-- R70, R78: the initial value of an accumulator, from an exactly decoded C element; in a replay it is scaled before it
meets binary32's limits (DEDUCED, notes/assumptions/50). -/
def accInit (pre : Bool) (c : Option FVal) : AccSt :=
  match c with
  | none => ⟨.fin false 0 0, true, false, false, false, false⟩
  | some x =>
    let r := (if pre then x.scale (-32) else x).round fmtB32
    ⟨r, x.isFin, x.isFin && r.isInf, false, x.isNan, false⟩

/-- One addition (R72, R74, R77). -/
def accAdd (st : AccSt) (p : FVal) (u13 : Nat) : AccSt :=
  let r := srAdd st.v p u13
  let fin := st.finite && p.isFin
  { st with
    v := r, finite := fin, ovf := st.ovf || (fin && r.isInf)
    invalid := st.invalid || (r.isNan && !st.v.isNan && !p.isNan) }

/-- The inputs of one operation as functions of local indices: A element (row, K step), B element (K step, column), C
element, presence of a global K index (R171) and the rounding key inputs. -/
structure MatIO where
  a : Nat → Nat → FVal
  b : Nat → Nat → FVal
  c : Option (Nat → Nat → FVal)
  present : Nat → Bool
  seed : W64
  step : W64

/-- Add the products of K step κ at (i, j). -/
def accK (d : MatDesc) (io : MatIO) (pre : Bool) (i j : Nat) (st : AccSt) (κ : Nat) (x y : Opnd) : AccSt :=
  let k := d.kBase + κ
  if io.present k then
    let ps := products d.split x y
    let st := { st with nan := st.nan || x.nan || y.nan, opOvf := st.opOvf || x.ovf || y.ovf,
                        invalid := st.invalid || (!x.nan && !y.nan && ps.any FVal.isNan) }
    let base := if d.split then 3 * k else k
    (ps.zipIdx).foldl (fun st (p, t) =>
      accAdd st (if pre then p.scale (-32) else p)
        (roundBits io.seed io.step d.layerId d.opTag (d.mBase + i) (d.nBase + j) (base + t))) st
  else st

/-- Sum over the K steps of a row of A and a column of B already at the array edge. -/
def accSum (d : MatDesc) (io : MatIO) (pre : Bool) (i j : Nat) : AccSt → Nat → List Opnd → List Opnd → AccSt
  | st, _, [], _ => st
  | st, _, _, [] => st
  | st, κ, x :: xs, y :: ys => accSum d io pre i j (accK d io pre i j st κ x y) (κ + 1) xs ys

/-- Row i of A at the array edge, and column j of B. -/
def rowA (d : MatDesc) (io : MatIO) (i : Nat) : List Opnd :=
  (List.range d.k).map fun κ => convOpnd d.split d.aFmt (io.a i κ)
def colB (d : MatDesc) (io : MatIO) (j : Nat) : List Opnd :=
  (List.range d.k).map fun κ => convOpnd d.split d.bFmt (io.b κ j)

/-- One finished output element. -/
structure Cell where
  i : Nat
  j : Nat
  st : AccSt
  deriving DecidableEq, Repr

/-- Rows (columns) of output block number `b` that lie inside the extent. -/
def blockRange (ext size b : Nat) : List Nat := (List.range size).filterMap fun r =>
  if b * size + r < ext then some (b * size + r) else none

/-- One pass over an output block, row-major. -/
def blockPass (d : MatDesc) (io : MatIO) (pre : Bool) (bi bj : Nat) : List Cell :=
  let js := (blockRange d.n (shapeCols d.shape) bj).map fun j => (j, colB d io j)
  (blockRange d.m (shapeRows d.shape) bi).flatMap fun i =>
    let ra := rowA d io i
    js.map fun (j, cb) => ⟨i, j, accSum d io pre i j (accInit pre (io.c.map fun c => c i j)) 0 ra cb⟩

/-- A written output: encoded elements, scale bytes by (scale row, scale column), status and counts. -/
structure MatOut where
  elems : List (Nat × Nat × Nat)
  scales : List (Nat × Nat × Nat)
  status : NStatus
  flush : Nat
  sat : Nat
  replays : Nat
  deriving DecidableEq, Repr

def MatOut.empty : MatOut := ⟨[], [], NStatus.zero, 0, 0, 0⟩

def MatOut.append (a b : MatOut) : MatOut :=
  ⟨a.elems ++ b.elems, a.scales ++ b.scales, a.status.or b.status, a.flush + b.flush, a.sat + b.sat,
   a.replays + b.replays⟩

/-- R55, R57 and R79: one output block of a scale, at scale offset 0 or 32. The Bool says R79's limit was met. -/
def writeBlockOff (fmt : Nat) (replay : Bool) (xs : List FVal) : Block × Bool :=
  let b := writeBlock fmt xs
  if !replay || b.scale = 255 || xs.all FVal.isZero then (b, false)
  else if b.scale + 32 > 254 then (⟨255, xs.map fun _ => 0, 0⟩, true)
  else ({ b with scale := b.scale + 32 }, false)

/-- The writeback of one block's cells (R55 to R57, R62, R79). -/
def writeCells (d : MatDesc) (replay : Bool) (cells : List (Nat × Nat × FVal)) : MatOut :=
  let f := opFmt d.dFmt
  let bs := blockElems f.blockSize
  if bs = 0 then
    cells.foldl (fun o (i, j, v) =>
      let (e, c) := convElem f.elemFmt v
      o.append ⟨[(i, j, e)], [], if f.elemFmt = 0 then NStatus.zero else writebackFlags f.elemFmt c, 0,
        (if c = .saturated ∧ (f.elemFmt = 3 ∨ f.elemFmt = 5 ∨ f.elemFmt = 6) then 1 else 0), 0⟩) MatOut.empty
  else
    let key (c : Nat × Nat × FVal) : Nat × Nat :=
      if f.blockDir then (c.1 / bs, c.2.1) else (c.1, c.2.1 / bs)
    let keys := (cells.map key).eraseDups
    keys.foldl (fun o k =>
      let mine := cells.filter fun c => key c = k
      let (b, lim) := writeBlockOff f.elemFmt replay (mine.map (·.2.2))
      o.append ⟨(mine.zip b.elems).map (fun (c, e) => (c.1, c.2.1, e)), [(k.1, k.2, b.scale)],
        { NStatus.zero with blockFlush := b.flushed != 0, overflow := lim }, (if b.flushed = 0 then 0 else 1), 0, 0⟩)
      MatOut.empty

/-- Status bits of the array for one pass over a block. -/
def cellStatus (d : MatDesc) (cs : List Cell) : NStatus :=
  { NStatus.zero with
    invalid := cs.any fun c => c.st.invalid, overflow := cs.any fun c => c.st.ovf || c.st.opOvf
    nanInput := cs.any fun c => c.st.nan, longSum := isLongSum d.split d.kTotal }

/-- R77 to R80: one output block with overflow replay. -/
def runBlock (d : MatDesc) (io : MatIO) (bi bj : Nat) : MatOut :=
  let c1 := blockPass d io false bi bj
  let vals (cs : List Cell) := cs.map fun c => (c.i, c.j, c.st.v)
  if d.replayEn && c1.any (fun c => c.st.ovf) then
    let c2 := blockPass d io true bi bj
    let o := writeCells d true (vals c2)
    { o with status := o.status.or { cellStatus d c2 with replayed := true }, replays := 1 }
  else
    let o := writeCells d false (vals c1)
    { o with status := o.status.or (cellStatus d c1) }

/-- Number of block rows and columns of an operation (R64). -/
def blockRows (d : MatDesc) : Nat := cdiv d.m (shapeRows d.shape)
def blockCols (d : MatDesc) : Nat := cdiv d.n (shapeCols d.shape)

/-- The blocks in row-major order. -/
def blockOrder (d : MatDesc) : List (Nat × Nat) :=
  (List.range (blockRows d)).flatMap fun bi => (List.range (blockCols d)).map fun bj => (bi, bj)

/-- R69: the whole operation of an unsplit descriptor. -/
def runMatrix (d : MatDesc) (io : MatIO) : MatOut :=
  (blockOrder d).foldl (fun o (bi, bj) => o.append (runBlock d io bi bj)) MatOut.empty

/-- A split-K member's binary32 partials, row-major over M × N, and its status (R84). -/
def runPartials (d : MatDesc) (io : MatIO) : List W32 × NStatus :=
  let cs := (List.range d.m).flatMap fun i =>
    let ra := rowA d io i
    (List.range d.n).map fun j =>
      (⟨i, j, accSum d io false i j (accInit false (io.c.map fun c => c i j)) 0 ra (colB d io j)⟩ : Cell)
  (cs.map fun c => toB32 c.st.v, cellStatus d cs)

/-- R85: one addition of the combining tree, with the status bits R86 lets it set. -/
def treeAdd (a b : W32) : W32 × NStatus :=
  let va := ofB32 a; let vb := ofB32 b
  let r := fadd a b
  let vr := ofB32 r
  (r, { NStatus.zero with invalid := vr.isNan && !va.isNan && !vb.isNan
                          overflow := vr.isInf && va.isFin && vb.isFin })

/-- Combine two members' partials. -/
def treeCombine (a b : List W32) : List W32 × NStatus :=
  let rs := (a.zip b).map fun (x, y) => treeAdd x y
  (rs.map (·.1), rs.foldl (fun s r => s.or r.2) NStatus.zero)

/-- R86: member 0's writeback of the combined partials. -/
def writePartials (d : MatDesc) (vals : List W32) : MatOut :=
  (blockOrder d).foldl (fun o (bi, bj) =>
    o.append (writeCells d false ((blockRange d.m (shapeRows d.shape) bi).flatMap fun i =>
      (blockRange d.n (shapeCols d.shape) bj).map fun j => (i, j, ofB32 (vals.getD (i * d.n + j) 0)))))
    MatOut.empty

/-! ## Positions in streams (R51, R113) -/

/-- K steps in a tile of an operand with `other` rows or columns per block. -/
def tileK (other : Nat) : Nat := 2048 / other

/-- Tiles of an A or B operand per output block. -/
def kTiles (d : MatDesc) (other : Nat) : Nat := cdiv d.k (tileK other)

/-- Element count of an A or B stream, and of a C or D stream (Table 05.4). -/
def abCount (d : MatDesc) (other : Nat) : Nat := blockRows d * blockCols d * kTiles d other * 2048
def cdCount (d : MatDesc) : Nat := blockRows d * blockCols d * (shapeRows d.shape * shapeCols d.shape)

/-- Index in the stream of element (r, κ) of an operand with `other` rows per block, during block number `blk`; `kOuter`:
K runs slower than r within a tile. -/
def abIndex (d : MatDesc) (other : Nat) (kOuter : Bool) (blk r κ : Nat) : Nat :=
  let kw := tileK other
  (blk * kTiles d other + κ / kw) * 2048
    + (if kOuter then (κ % kw) * other + r % other else (r % other) * kw + κ % kw)

/-- Scale bytes one tile of an A or B operand carries, and the position of (r, κ)'s within them (R119). -/
def abScaleTile (other bs : Nat) (dir kOuter : Bool) (r κ : Nat) : Nat × Nat :=
  let kw := tileK other
  let r := r % other; let κ := κ % kw
  if dir then
    let nr := max 1 (other / bs)
    (nr * kw, if kOuter then κ * nr + r / bs % nr else (r / bs % nr) * kw + κ)
  else
    let nk := max 1 (kw / bs)
    (nk * other, if kOuter then (κ / bs % nk) * other + r else r * nk + κ / bs % nk)

/-- Index in a scale stream of the scale of (r, κ). -/
def abScaleIndex (d : MatDesc) (other bs : Nat) (dir kOuter : Bool) (blk r κ : Nat) : Nat :=
  let (per, pos) := abScaleTile other bs dir kOuter r κ
  (blk * kTiles d other + κ / tileK other) * per + pos

/-- Position of (r, κ)'s scale in the dense array of R51. -/
def abDense (k bs : Nat) (dir : Bool) (r κ : Nat) : Nat :=
  if dir then r / bs * k + κ else r * cdiv k bs + κ / bs

/-- Index of output element (i, j) in a C or D stream. -/
def cdIndex (d : MatDesc) (i j : Nat) : Nat :=
  let mb := shapeRows d.shape; let nb := shapeCols d.shape
  ((i / mb * blockCols d + j / nb) * mb + i % mb) * nb + j % nb

/-- Index in a C or D scale stream of the scale of element (i, j); `dir`: along M. Each tile enumerates the scales of its
own elements, one for a block that is larger than the tile (R51, R119). -/
def cdScaleIndex (d : MatDesc) (bs : Nat) (dir : Bool) (i j : Nat) : Nat :=
  let mb := shapeRows d.shape; let nb := shapeCols d.shape
  let tile := i / mb * blockCols d + j / nb
  if dir then (tile * max 1 (mb / bs) + i % mb / bs) * nb + j % nb
  else (tile * mb + i % mb) * max 1 (nb / bs) + j % nb / bs

/-- Position of scale (sr, sc) in the dense array of a C or D operand (R51). -/
def cdDense (d : MatDesc) (bs : Nat) (dir : Bool) (sr sc : Nat) : Nat :=
  if dir then sr * d.n + sc else sr * cdiv d.n bs + sc

/-- Bytes of a dense scale array of an A or B operand of `r` rows, and of a C or D operand. -/
def abDenseLen (r k bs : Nat) (dir : Bool) : Nat := if dir then cdiv r bs * k else r * cdiv k bs
def cdDenseLen (d : MatDesc) (bs : Nat) (dir : Bool) : Nat :=
  if dir then cdiv d.m bs * d.n else d.m * cdiv d.n bs

end Sys2Proof.Machine
end

