-- ==== Sys2Proof/Machine/RootCalc.lean ====
section
/-! DEFINITION. The arithmetic of the leaven engine (R187, R188, R194 to R197, R200, R203): symmetric products, the
coupled Newton iteration and the Cholesky inverse, as functions of their inputs. -/

namespace Sys2Proof.Machine

/-- A matrix by rows. -/
abbrev LMat := List (List W32)

/-- Element (i, j). -/
def LMat.at (m : LMat) (i j : Nat) : W32 := (m.getD i []).getD j 0

/-- A matrix of dimension n from a function of the upper triangle, its lower triangle mirrored (R187). -/
def symOf (n : Nat) (f : Nat → Nat → W32) : LMat :=
  let up := (List.range n).map fun i => (List.range n).map fun j => if i ≤ j then f i j else 0
  (List.range n).map fun i => (List.range n).map fun j => LMat.at up (min i j) (max i j)

/-- How products are formed: on a cell, or on borrowed cores with the rounding key of R203. -/
structure RootEnv where
  n : Nat
  borrowed : Bool
  seed : W64
  src : W64
  weight : Nat
  tag : Nat
  deriving DecidableEq, Repr

/-- One element of a cell product: ascending K, each exact product added with one rounding (R187). -/
def cellDot (xs ys : List W32) : W32 := (xs.zip ys).foldl (fun s p => ffma p.1 p.2 s) f32Zero

/-- One element of a borrowed product: split-crumb with the key of R203. -/
def coreDot (e : RootEnv) (j r c : Nat) (xs ys : List W32) : W32 :=
  let st := ((xs.zip ys).zipIdx).foldl (fun (st : AccSt) (p, κ) =>
      let ps := products true (convOpnd true 0 (ofB32 p.1)) (convOpnd true 0 (ofB32 p.2))
      (ps.zipIdx).foldl (fun st (q, t) =>
        accAdd st q (roundBits e.seed e.src e.weight e.tag (j * 4096 + r) c (3 * κ + t))) st)
    (accInit false none)
  toB32 st.v

/-- Product number j of the problem. -/
def RootEnv.mul (e : RootEnv) (j : Nat) (a b : LMat) : LMat :=
  let col (k : Nat) : List W32 := b.map fun r => r.getD k 0
  symOf e.n fun i k =>
    if e.borrowed then coreDot e j i k (a.getD i []) (col k) else cellDot (a.getD i []) (col k)

/-- Y^p for p = 2^l by repeated squaring, and the next product number. -/
def RootEnv.power (e : RootEnv) : Nat → Nat → LMat → LMat × Nat
  | 0, j, y => (y, j)
  | l + 1, j, y => e.power l (j + 1) (e.mul j y y)

/-- X^p B and the next product number. -/
def RootEnv.coupled (e : RootEnv) (l j : Nat) (x b : LMat) : LMat × Nat :=
  let (y, j) := e.power l j x
  (e.mul j y b, j + 1)

/-- R196: the residual. -/
def resid (n : Nat) (m : LMat) : W32 :=
  let t := cdiv n 32
  let add (s : W32) (i j : Nat) : W32 :=
    if i < n ∧ j < n ∧ i ≤ j then
      let e := fsub (if i = j then f32One else f32Zero) (LMat.at m i j)
      if i = j then fadd s (fmul e e) else ffma 0x40000000 (fmul e e) s
    else s
  let s := (List.range t).foldl (fun s r => (List.range t).foldl (fun s c =>
    if r ≤ c then
      (List.range 32).foldl (fun s i => (List.range 32).foldl (fun s j => add s (32 * r + i) (32 * c + j)) s) s
    else s) s) f32Zero
  fsqrt (fdiv s (b32OfNat n))

/-- T = ((p + 1) I − M) / p, one rounding per element (R195). -/
def newtonT (n l : Nat) (m : LMat) : LMat :=
  symOf n fun i j =>
    let c : FVal := if i = j then .fin false (2 ^ l + 1) 0 else .fin false 0 0
    toB32 ((c.add (ofB32 (LMat.at m i j)).neg).scale (-(l : Int)))

/-- s + a b, with one rounding or two; a / b, by a division or by a rounded reciprocal: `k` names the place where the
manual leaves it open (notes/assumptions/22). -/
def openAdd (k : Nat) (a b s : W32) : W32 := if Config.fusedAdd k then ffma a b s else fadd s (fmul a b)
def openDiv (k : Nat) (a b : W32) : W32 := if Config.byReciprocal k then fmul a (frecip b) else fdiv a b

/-- The 2-norm of R195: the square root of the sum of squares, its order open. -/
def norm2 (w : List W32) : W32 :=
  let o := Config.normOrder w.length
  let ix := if o.length = w.length && (List.range w.length).all o.contains then o else List.range w.length
  fsqrt (ix.foldl (fun s i => openAdd 0 (w.getD i 0) (w.getD i 0) s) f32Zero)

/-- R195: the norm estimate. -/
def normEst (n : Nat) (b : LMat) : W32 :=
  let v0 := List.replicate n (fdiv f32One (fsqrt (b32OfNat n)))
  ((List.range 8).foldl (fun (p : List W32 × W32) _ =>
    let w := b.map fun r => cellDot r p.1
    let nu := norm2 w
    (w.map fun x => fdiv x nu, nu)) (v0, f32Zero)).2

/-- Least k of a range with 2^(p k) ≥ 2 ν, for a finite positive ν; none otherwise. -/
def coldShift (l : Nat) (nu : W32) : Option Int :=
  let two := ofB32 (fmul 0x40000000 nu)
  if !two.isFin || two.isZero || two.sign then none else
  ((List.range 320).map fun (i : Nat) => (i : Int) - 160).find? fun k =>
    match two with
    | .fin _ m e => magLe m e 1 ((2 ^ l : Nat) * k)
    | _ => false

/-- 2^k × a matrix, exact unless it leaves the format. -/
def scaleMat (k : Int) (m : LMat) : LMat := m.map fun r => r.map fun x => toB32 ((ofB32 x).scale k)

/-- The identity of dimension n. -/
def identity (n : Nat) : LMat :=
  (List.range n).map fun i => (List.range n).map fun j => if i = j then f32One else f32Zero

/-- A solved problem: status code, root, iterations, escalations, residual or pivot ratio, start kind, products used. -/
structure RootSol where
  code : Nat
  sol : LMat
  iters : Nat
  esc : Nat
  resid : W32
  kind : Nat
  products : Nat
  deriving DecidableEq, Repr

def CODE_ROOT_CAP : Nat := 0x0302
def CODE_PIVOT_FAIL : Nat := 0x0303

/-- The iteration of R195, `fuel` iterations being left before the cap. -/
def newtonLoop (e : RootEnv) (l : Nat) (b : LMat) (tol : W32) (kind : Nat) :
    Nat → Nat → LMat → LMat → W32 → Nat → RootSol
  | 0, it, x, _, r, j => ⟨CODE_ROOT_CAP, x, it, 0, r, kind, j⟩
  | fuel + 1, it, x, m, _, j =>
    let t := newtonT e.n l m
    let x := e.mul j x t
    let (tp, j) := e.power l (j + 1) t
    let m := e.mul j tp m
    let j := j + 1
    let r := resid e.n m
    if !(ofB32 r).isFin then ⟨CODE_ROOT_CAP, x, it + 1, 0, r, kind, j⟩
    else if fleB r tol then
      let (m, j) := e.coupled l j x b
      let r := resid e.n m
      if fleB r tol then ⟨0, x, it + 1, 0, r, kind, j⟩
      else newtonLoop e l b tol kind fuel (it + 1) x m r j
    else newtonLoop e l b tol kind fuel (it + 1) x m r j

/-- R195. START_KIND: 1 cold, 2 warm, 3 warm rejected, then cold (Table 08.5). A cold start without a smallest k ends at
once (DEDUCED, notes/assumptions/59). -/
def invRoot (e : RootEnv) (l : Nat) (b : LMat) (starter : Option LMat) (tol : W32) (cap : Nat) : RootSol :=
  let cold (kind j : Nat) : RootSol :=
    let nu := normEst e.n b
    match coldShift l nu with
    | none => ⟨CODE_ROOT_CAP, [], 0, 0, nu, kind, j⟩
    | some k =>
      newtonLoop e l b tol kind cap 0 (scaleMat (-k) (identity e.n)) (scaleMat (-((2 ^ l : Nat) * k)) b) f32Zero j
  match starter with
  | none => cold 1 0
  | some x =>
    let (m, j) := e.coupled l 0 x b
    let r := resid e.n m
    if fleB r tol then ⟨0, x, 0, 0, r, 2, j⟩
    else if fltB r f32One then newtonLoop e l b tol 2 cap 0 x m r j
    else cold 3 j

/-- Largest diagonal element. -/
def maxDiag (n : Nat) (b : LMat) : W32 := (List.range n).foldl (fun m i => fmax m (LMat.at b i i)) f32NegInf

/-- Transpose. -/
def transp (m : LMat) (rows : Nat) : LMat := (List.range rows).map fun c => m.map fun r => r.getD c 0

/-- One column of a panel of `w` columns: c columns of L (by rows) stand, the pivots before it are known. The pivot is the
diagonal element less the squares of its row of L; the column below is divided by the pivot's square root. -/
def panelCol (b : LMat) (acc : LMat × List W32) (c : Nat) : LMat × List W32 :=
  let (l, piv) := acc
  let red (i : Nat) : W32 := (List.range c).foldl (fun s k =>
    openAdd 1 (fneg (LMat.at l i k)) (LMat.at l c k) s) (LMat.at b i c)
  let d := red c
  let r := fsqrt d
  ((l.zipIdx).map fun (row, i) => row ++ [if i < c then f32Zero else if i = c then r else openDiv 1 (red i) r], piv ++ [d])

/-- A panel of L and its pivots in order. -/
def panelFactor (w : Nat) (b : LMat) : LMat × List W32 :=
  (List.range w).foldl (panelCol b) (b.map fun _ => [], [])

/-- Inverse of a lower triangular matrix, column by column. -/
def triInverse (n : Nat) (l : LMat) : LMat :=
  let col (j : Nat) : List W32 := (List.range n).foldl (fun x i =>
    x ++ [if i < j then f32Zero else if i = j then openDiv 2 f32One (LMat.at l j j)
      else openDiv 2 (fneg ((List.range i).foldl (fun s k =>
        if k < j then s else openAdd 2 (LMat.at l i k) (x.getD k 0) s) f32Zero)) (LMat.at l i i)]) []
  let cols := (List.range n).map col
  (List.range n).map fun i => (List.range n).map fun j => (cols.getD j []).getD i 0

/-- R200: factorisation by panels of 32 columns of the trailing matrix `b`; every pivot must exceed τ. Result: L by
rows below and on the diagonal of each panel, the least pivot, and the next product number. The roundings within
a panel are open (`openAdd`, `openDiv`); the trailing update is one product, subtracted element by element, its rounding
coordinates those within the trailing submatrix (DEDUCED, notes/assumptions/22 and 60). -/
def cholPanels (e : RootEnv) (tau : W32) : Nat → Nat → LMat → W32 → Nat → Option (List LMat × W32) × Nat
  | 0, _, _, d, j => (some ([], d), j)
  | fuel + 1, n, b, d, j =>
    if n = 0 then (some ([], d), j) else
    let w := min 32 n
    let (l, piv) := panelFactor w (b.map fun r => r.take w)
    if piv.any fun p => !fltB tau p then (none, j) else
    let d := piv.foldl fmin d
    if n ≤ 32 then (some ([l], d), j) else
    let low := l.drop w
    let prod := ({ e with n := n - w } : RootEnv).mul j low (transp low w)
    let rest := symOf (n - w) fun i k => fsub (LMat.at b (w + i) (w + k)) (LMat.at prod i k)
    match cholPanels e tau fuel (n - w) rest d (j + 1) with
    | (none, j) => (none, j)
    | (some (ls, d), j) => (some (l :: ls, d), j)

/-- The lower triangular matrix whose panels these are. -/
def joinPanels (n : Nat) (ps : List LMat) : LMat :=
  (List.range n).map fun i => (List.range n).map fun j =>
    if i < j then f32Zero else LMat.at (ps.getD (j / 32) []) (i - 32 * (j / 32)) (j % 32)

/-- R200: attempts with ε, 10 ε, 100 ε and 1,000 ε. -/
def cholLoop (e : RootEnv) (a : LMat) : Nat → Nat → W32 → Nat → RootSol
  | 0, esc, _, j => ⟨CODE_PIVOT_FAIL, [], 0, esc - 1, f32Zero, 0, j⟩
  | fuel + 1, esc, eps, j =>
    let b := symOf e.n fun i k => if i = k then fadd (LMat.at a i k) eps else LMat.at a i k
    let tau := fmul 0x35800000 (maxDiag e.n b)
    let e' := { e with tag := e.tag + esc * 4096 }
    match cholPanels e' tau (e.n / 32 + 1) e.n b 0x7F800000 j with
    | (none, j) => cholLoop e a fuel (esc + 1) (fmul eps 0x41200000) j
    | (some (ps, d), j) =>
      let li := triInverse e.n (joinPanels e.n ps)
      ⟨0, e'.mul j (transp li e.n) li, 0, esc, fdiv d (maxDiag e.n b), 0, j + 1⟩

/-- R194: ε of an average. -/
def damping (n : Nat) (damp : Int) (floor : W32) (a : LMat) : W32 :=
  let tr := (List.range n).foldl (fun s i => fadd s (LMat.at a i i)) f32Zero
  fmax (fmul (toB32 (.fin false 1 damp)) (fdiv tr (b32OfNat n))) floor

/-- Solve a problem from its average A (R194 to R200). -/
def solveRoot (p : Prob) (seed : W64) (src : Nat) (a : LMat) (starter : Option LMat) (tol : W32) (cap : Nat) :
    RootSol × W32 :=
  let n := p.job.n
  let e : RootEnv := { n := n, borrowed := p.job.borrow, seed := seed, src := BitVec.ofNat 64 src, weight := p.weight,
                       tag := 0x8000 + p.side * 2 ^ 14 + p.block }
  let eps := damping n p.job.damp p.job.epsFloor a
  if a.any (fun r => r.any fun x => !(ofB32 x).isFin) then
    (⟨if p.job.op = 0 then CODE_ROOT_CAP else CODE_PIVOT_FAIL, [], 0, 0, f32Zero, 0, 0⟩, eps)
  else if p.job.op = 0 then
    let b := symOf n fun i k => if i = k then fadd (LMat.at a i k) eps else LMat.at a i k
    (invRoot e p.job.pLog2 b starter tol cap, eps)
  else (cholLoop e a 4 0 eps 0, eps)

/-- R188: the fold of one element list. -/
def foldFactor (prev s : LMat) (t : Nat) (beta : W32) (first : Bool) : LMat :=
  if t = 0 then (if first then s.map fun r => r.map fun _ => f32Zero else prev)
  else
    let rt := frecip (b32OfNat t)
    if first then s.map fun r => r.map fun x => fmul rt x
    else
      let w := fmul (fsub f32One beta) rt
      (prev.zip s).map fun (pr, sr) => (pr.zip sr).map fun (a, x) => ffma beta a (fmul w x)

end Sys2Proof.Machine
end

