-- ==== Sys2Proof/Machine/Leaven.lean ====
section
/-! DEFINITION. Root records, the factor fold, admission, decision, commit and delivery of roots (chapter 8). -/

namespace Sys2Proof.Machine

/-! ## Root records (Table 08.5) -/

/-- The fields of a root record that change; signature words stand beside them. -/
structure RootRec where
  sig0 : Nat
  block : Nat
  damp : Nat
  missRun : Nat
  ready : Bool
  latchSlot : Nat
  inForce : Nat
  hasRoot : Bool
  inForceDue : Nat
  pendingDue : Nat
  latchStep : Nat
  lastCode : Nat
  iters : Nat
  kind : Nat
  esc : Nat
  resid : W32
  source : Nat
  deriving DecidableEq, Repr

/-- R215. -/
def rootRecOf (ws : Words) : RootRec :=
  let w1 := word ws 1; let w8 := word ws 8
  { sig0 := (word ws 0).toNat, block := fld w1 31 24, damp := fld w1 23 16, missRun := fld w1 15 8, ready := bit w1 3,
    latchSlot := fld w1 2 2, inForce := fld w1 1 1, hasRoot := bit w1 0, inForceDue := u64 ws 2, pendingDue := u64 ws 4,
    latchStep := u64 ws 6, lastCode := fld w8 31 16, iters := fld w8 15 8, kind := fld w8 7 6, esc := fld w8 5 4,
    resid := word ws 9, source := u64 ws 10 }

/-- Its 64 bytes. -/
def RootRec.bytes (r : RootRec) : Bytes :=
  leBytes 4 r.sig0
    ++ leBytes 4 (r.block * 2 ^ 24 + r.damp * 2 ^ 16 + r.missRun * 2 ^ 8 + r.ready.toNat * 8 + r.latchSlot * 4
        + r.inForce * 2 + r.hasRoot.toNat)
    ++ leBytes 8 r.inForceDue ++ leBytes 8 r.pendingDue ++ leBytes 8 r.latchStep
    ++ leBytes 4 (r.lastCode * 2 ^ 16 + r.iters * 2 ^ 8 + r.kind * 64 + r.esc * 16) ++ leBytes 4 r.resid.toNat
    ++ leBytes 8 r.source ++ List.replicate 16 0

/-- 32-bit words of a byte string. -/
def wordsOf : Nat → Bytes → Words
  | 0, _ => []
  | n + 1, bs => BitVec.ofNat 32 (ofLe (bs.take 4)) :: wordsOf n (bs.drop 4)

def State.rootRec (s : State) (p : Prob) : RootRec := rootRecOf (wordsOf 16 (s.vmRead p.rootVa 64))
def setRootRec (p : Prob) (r : RootRec) (s : State) : State := vmStore p.rootVa r.bytes s

/-- Signature words of a problem. -/
def Prob.sig0 (p : Prob) : Nat :=
  p.weight * 2 ^ 16 + p.side * 2 ^ 15 + p.job.op * 2 ^ 14 + p.job.pLog2 * 2 ^ 12 + (p.job.n - 1)
def Prob.dampClass (p : Prob) : Nat := (p.job.damp % 256).toNat
def Prob.sig1 (p : Prob) : Nat := p.block * 2 ^ 24 + p.dampClass * 2 ^ 16

/-- Problem by its place in recipe order, its run, and setting it. -/
def State.prob? (s : State) (i : Nat) : Option Prob := s.probs[i]?
def State.run (s : State) (i : Nat) : ProbSt := tget ProbSt.reset s.leaven.probs i
def setRun (i : Nat) (x : ProbSt) (s : State) : State :=
  { s with leaven := { s.leaven with probs := tset s.leaven.probs i x } }

/-- Problems with their places. -/
def State.probIdx (s : State) : List (Prob × Nat) := s.probs.zipIdx

/-- Address of a root slot's header, and of a factor-state slot's header. -/
def Prob.rootSlot (p : Prob) (k : Nat) : Nat := p.rootVa + 4096 + k * symSlot p.job.n
def Prob.factorSlot (p : Prob) (k : Nat) : Nat := p.factorVa + k * symSlot p.job.n

/-- Source step in a factor-state header. -/
def State.factorSrc (s : State) (p : Prob) (k : Nat) : Nat := ofLe (s.vmRead (p.factorSlot k) 8)

/-- R226: the current slot after step c, the one whose source step is the greater of those at or below c. -/
def State.factorCur (s : State) (p : Prob) (c : Nat) : Nat :=
  let a := s.factorSrc p 0; let b := s.factorSrc p 1
  if c < a then 1 else if c < b then 0 else if a < b then 1 else 0

/-- R204: the order in which problems are taken: due step, `JOB_ID`, table order. -/
def rootBefore (x y : ProbSt × Prob × Nat) : Bool :=
  decide (x.1.due < y.1.due) || (x.1.due == y.1.due &&
    (decide (x.2.1.job.id < y.2.1.job.id) || (x.2.1.job.id == y.2.1.job.id && decide (x.2.2 < y.2.2))))

/-! ## The fold (R188, R189, R212) -/

/-- Byte offset, after the 256 bytes of the count, of a factor block in its weight's factor region (R174). -/
def factorOff (w : WeightRec) (side block : Nat) : Nat :=
  let dimOf (dim blk k : Nat) : Nat := min blk (dim - k * blk)
  let sum (dim blk first n : Nat) : Nat :=
    ((List.range n).map fun i => 4096 * symTiles (dimOf dim blk (first + i))).foldl (· + ·) 0
  if side = 0 then sum w.aDim w.aBlk w.aFirst (block - w.aFirst)
  else sum w.aDim w.aBlk w.aFirst w.aCnt + sum w.gDim w.gBlk w.gFirst (block - w.gFirst)

/-- A reduce-scatter of a factor region: it runs on curvature-update steps only (R175). -/
def State.factorColl (s : State) (c : Coll) : Bool :=
  c.op == 0 && (match regionAt s.cont c.srcVa with
    | some r => r.kind == .factor
    | none => false)

/-- The reduce-scatters that bring a weight's factors, each with the record of its use, in `TIE_INDEX` order; a use on
another device is known by the tie group and index of its region (R176). -/
def State.factorColls (s : State) (weight : Nat) : List (Coll × WeightRec) :=
  match weightIn s.cont weight with
  | none => []
  | some w =>
    let brings (c : Coll) (f : Region → Bool) : Bool := c.op == 0 && c.cnt && (match regionAt s.cont c.srcVa with
      | some r => r.kind == .factor && f r
      | none => false)
    let uses := if w.tieGroup = 0 then [w]
      else (s.layers.flatMap (·.weights)).filter fun x => x.tieGroup == w.tieGroup
    let local' := uses.filterMap fun u => (s.colls.find? fun c => brings c fun r => r.tie.isNone && r.weight == u.id).map fun c => (c, u)
    let remote := if w.tieGroup = 0 then [] else (List.range 256).filterMap fun k =>
      (s.colls.find? fun c => brings c fun r => r.tie == some (w.tieGroup, k)).map fun c => (c, { w with tieIndex := k })
    (local' ++ remote).mergeSort fun a b => decide (a.2.tieIndex ≤ b.2.tieIndex)

/-- Address of a reduced factor block in a reduce-scatter's destination: its place in this device's own segment. -/
def State.reducedVa (s : State) (c : Coll) (u : WeightRec) (side block : Nat) : Nat :=
  let before := ((List.range c.rank).map fun r => c.count s.cont.collSec r).foldl (· + ·) 0
  c.dstVa + 256 + (factorOff u side block - 4 * before)

/-- The reduced raw block of a problem and the job-wide token count T. -/
def State.reducedFactor (s : State) (p : Prob) : LMat × Nat :=
  match s.factorColls p.weight with
  | [] => (identity 0, 0)
  | (c, u) :: rest =>
    let m0 := s.readSym (s.reducedVa c u p.side p.block) p.job.n
    (rest.foldl (fun m (c, u) =>
        let x := s.readSym (s.reducedVa c u p.side p.block) p.job.n
        (m.zip x).map fun (a, b) => (a.zip b).map fun (v, w) => fadd v w) m0,
     ofLe (s.vmRead c.dstVa 8))

/-- Raise ROOT_MISSED for a problem's root with a due step, once in a step (R209, R212). -/
def rootMissed (i : Nat) (p : Prob) (step due : Nat) (s : State) : State :=
  let x := s.run i
  if x.missLogged = step && step != 0 then s else
  let s := logAdd ROOT_MISSED 2 p.job.hearth 0 0xFFFF
    ([p.sig0, p.sig1] ++ w64 due ++ [x.iters, x.resid.toNat, x.esc]) s
  let s := setRun i { x with missLogged := step } s
  let s := setRootRec p { s.rootRec p with lastCode := ROOT_MISSED } s
  { s with leaven := { s.leaven with missed := s.leaven.missed + 1 } }

/-- Destination list of a problem (R191). -/
def State.dests (s : State) (p : Prob) : List Nat :=
  (List.range p.destCnt).map fun k => ofLe (s.vmRead (p.destVa + 2 * k) 2)

/-- Decision message on VL0 to every destination (R218). -/
def sendDecision (p : Prob) (step slot : Nat) (o : RootOutcome) (s : State) : State :=
  (s.dests p).foldl (fun s d => sendWords d 2
    [p.weight, p.side, p.block, step, s.job.attempt, slot, match o with | .new => 0 | .missed => 1 | .abandoned => 2] s) s

/-- What a problem keeps from one root to the next: the latch, misses raised, and decisions still to report or apply. -/
def ProbSt.fresh (x : ProbSt) : ProbSt :=
  { ProbSt.reset with
    latch := x.latch, latchStep := x.latchStep, missLogged := x.missLogged, ended := x.ended, aband := x.aband
    notes := x.notes }

/-- The next queued source takes a problem's place; a due step that has passed becomes the present one. -/
def nextSource (i : Nat) (p : Prob) (now : Nat) (s : State) : State :=
  let x := s.run i
  match x.later with
  | [] => setRun i x.fresh s
  | u :: r =>
    let due := max (u + p.job.lag) now
    let s := setRun i { x.fresh with phase := .waiting, src := u, due := due, later := r } s
    setRootRec p { s.rootRec p with pendingDue := due, source := u } s

/-- R212: one root is abandoned. `MISS_RUN` rises as step n commits, and every destination is told. -/
def abandonRoot (n : Nat) (i : Nat) (p : Prob) (due : Nat) (s : State) : State :=
  let s := rootMissed i p n due s
  sendDecision p due (s.rootRec p).inForce .abandoned (setRun i { s.run i with aband := n } s)

/-- R212: abandon the root of a problem that is undecided and has not loaded B before its version is overwritten. -/
def abandonStale (n : Nat) (i : Nat) (p : Prob) (s : State) : State :=
  let x := s.run i
  let old (u : Nat) : Bool := u + 2 * s.params.curvPeriod == n
  if x.phase = .waiting && old x.src then
    let s := abandonRoot n i p x.due s
    nextSource i p n (setRootRec p { s.rootRec p with pendingDue := 0 } s)
  else match x.later.find? old with
    | none => s
    | some u =>
      let s := abandonRoot n i p (max (u + p.job.lag) n) s
      setRun i { s.run i with later := x.later.filter fun v => v != u } s

/-- Ranges the fold of a problem reads: the reduced blocks, and the current slot of its factor state. -/
def State.foldReads (s : State) (p : Prob) : List (Nat × Nat) :=
  (p.factorSlot (s.factorCur p s.job.committed), symSlot p.job.n)
    :: (s.factorColls p.weight).flatMap fun (c, u) =>
      [(c.dstVa, 8), (s.reducedVa c u p.side p.block, 4096 * symTiles p.job.n)]

/-- The factors of a problem have reached this device: their reduce-scatters are complete (R28, R188). -/
def State.factorsHere (s : State) (p : Prob) : Bool :=
  (s.factorColls p.weight).all fun x => !(tget CollRun.empty s.coll.runs x.1.id).finished.isEmpty

/-- The fold reads what it folds (R99). -/
def readFold (s : State) (p : Prob) : State :=
  (s.foldReads p).foldl (fun s r => readTouch p.job.hearth r.1 r.2 s) s

/-- A fold at step n overwrites the oldest version: a root still waiting for it is abandoned first (R212). -/
def foldStale (n : Nat) (s : State) (x : Prob × Nat) : State :=
  if x.1.role = 0 then abandonStale n x.2 x.1 s else s

/-- The fold of one problem into its alternate slot (R188). -/
def foldInto (n : Nat) (s : State) (x : Prob × Nat) : State :=
  let p := x.1
  if p.role = 0 then
    let cur := s.factorCur p s.job.committed
    let (raw, t) := s.reducedFactor p
    let prev := s.readSym (p.factorSlot cur + 4096) p.job.n
    let alt := 1 - cur
    vmStore (p.factorSlot alt) (leBytes 8 n)
      (storeSym (p.factorSlot alt + 4096) p.job.n (foldFactor prev raw t p.beta (n = 1)) s)
  else s

/-- Every fold of step n is made. -/
def setFolded (s : State) : State := { s with leaven := { s.leaven with folded := true } }

/-- FACTOR_FOLD: the folds of step n for every problem solved here, once every reduction they need has come, and nothing
they read is uncorrectable. -/
def factorFoldState (s : State) : State :=
  let n := s.job.step
  let mine := s.probs.filter fun p => p.role == 0
  if !s.job.st.stepping || s.bnd.order != 0 || !s.curv n || s.leaven.folded then s
  else if !(mine.all s.factorsHere && mine.all fun p => (s.foldReads p).all fun r => s.vmGood r.1 r.2) then s
  else
    let s := mine.foldl readFold s
    let s := s.probIdx.foldl (foldStale n) s
    setFolded (s.probIdx.foldl (foldInto n) s)

/-! ## Admission -/

/-- R208: the problem is mandatory from the start of the step before its due step, in PAUSED too. -/
def State.mandatory (s : State) (x : ProbSt) : Bool :=
  s.job.st.live && decide (x.due ≤ (if s.job.st.stepping then s.job.step else s.job.committed) + 1)

/-- A group of a hearth stands at a bubble: its bubble slot. -/
def State.bubble (s : State) (g : Nat) : Option Slot :=
  match (s.group g).item with
  | some it => if it.kind = .bubble then (s.groupOf g).slots[(s.group g).pos]? else none
  | none => none

/-- Groups at a bubble that have a core on a hearth. -/
def State.bubblesOn (s : State) (h : Nat) : List Nat :=
  (List.range s.groupList.length).filter fun g =>
    (s.bubble g).isSome && (s.groupOf g).cores.any fun c => c / 96 = h

/-- Order 7 of a boundary, open for elective work. -/
def State.order7 (s : State) : Bool := s.bnd.order == 7 && !s.leaven.closed

/-- Time left of the `EST_US` of a bubble in which a group stands. -/
def State.bubbleLeft (s : State) (g : Nat) : Nat :=
  match s.bubble g with
  | some b => (s.group g).slotStart + b.estUs - s.localUs
  | none => 0

/-- Bubbles of a hearth that start at this moment. -/
def State.bubblesStarting (s : State) (h : Nat) : List Nat :=
  (s.bubblesOn h).filter fun g => (s.group g).slotStart == s.localUs

/-- An admission point for a hearth: order 7, or the start of a bubble slot (R207). -/
def State.admitPoint (s : State) (h : Nat) : Bool := s.order7 || !(s.bubblesStarting h).isEmpty

/-- Time left of the boundary budget at order 7. -/
def State.budgetLeft (s : State) : Nat := s.bnd.orderStart + s.params.boundaryBudget - s.localUs

/-- The lowest-numbered free cell in service of a hearth. -/
def State.freeCell (s : State) (h : Nat) : Option Nat :=
  (List.range 16).find? fun c =>
    !s.dev.badCells.contains (16 * h + c)
      && !s.probIdx.any fun (p, i) => p.job.hearth = h && (s.run i).cell == some c

/-- Admissible problems of a kind on a hearth, first in the order of R204. -/
def State.firstRoot (s : State) (h : Nat) (borrow : Bool) : Option Nat :=
  let c := s.probIdx.filterMap fun (p, i) =>
    let x := s.run i
    if p.role = 0 && p.job.hearth = h && p.job.borrow == borrow && x.phase = .waiting && decide (x.src ≤ s.job.committed)
    then some (x, p, i) else none
  (c.foldl (fun b y => match b with
    | none => some y
    | some z => if rootBefore y z then some y else some z) none).map fun y => y.2.2

/-- The root in force usable as starter (R198), with the mismatch to log. -/
def State.starterFor (s : State) (p : Prob) : Option LMat × Option (Nat × Nat) :=
  let r := s.rootRec p
  if p.job.op = 1 || !r.hasRoot then (none, none) else
  let k := 4096 * p.job.hearth + p.starter
  match klook s.leaven.starters k with
  | none => (none, some (0, 0))
  | some e =>
    if e.sig0 = p.sig0 ∧ e.sig1 = p.sig1 then (some (s.readSym (p.rootSlot e.slot + 4096) p.job.n), none)
    else (none, some (e.sig0, e.sig1))

/-- The factor-state slot with the average of a problem's source. -/
def State.srcSlot (s : State) (p : Prob) (x : ProbSt) : Nat :=
  if s.factorSrc p 0 = x.src then 0 else if s.factorSrc p 1 = x.src then 1 else s.factorCur p s.job.committed

/-- Ranges a problem reads when it loads B: the average, and the root in force when it is a starter. -/
def State.loadReads (s : State) (i : Nat) (p : Prob) : List (Nat × Nat) :=
  let r := s.rootRec p
  (p.factorSlot (s.srcSlot p (s.run i)), symSlot p.job.n)
    :: (if p.job.op = 1 || !r.hasRoot then [] else [(p.rootSlot r.inForce, symSlot p.job.n)])

/-- B of a problem (R194). -/
def Prob.matB (p : Prob) (a : LMat) : LMat :=
  let eps := damping p.job.n p.job.damp p.job.epsFloor a
  symOf p.job.n fun i k => if i = k then fadd (LMat.at a i k) eps else LMat.at a i k

/-- A borrowed problem's copy of B stands in its work area, in one of the area's seven places (R201; which is not stated,
notes/assumptions/73). -/
def workCopy (p : Prob) (a : LMat) (s : State) : State :=
  if p.job.borrow then
    storeSym (p.job.workVa + Config.workPlace % 7 * 4096 * symTiles p.job.n) p.job.n (p.matB a) s
  else s

/-- Load B: the problem takes the average of its source and its starter. -/
def loadProblem (i : Nat) (p : Prob) (s : State) : State :=
  let a := s.readSym (p.factorSlot (s.srcSlot p (s.run i)) + 4096) p.job.n
  let s := workCopy p a ((s.loadReads i p).foldl (fun s r => readTouch p.job.hearth r.1 r.2 s) s)
  let (st, mis) := s.starterFor p
  let s := match mis with
    | some (a0, a1) =>
      let s := logAdd 0x0102 2 p.job.hearth 0 0xFFFF [p.sig0, p.sig1, a0, a1] s
      { s with leaven := { s.leaven with mismatches := s.leaven.mismatches + 1 } }
    | none => s
  setRun i { s.run i with phase := .running, mat := a, starter := st, pieces := 0 } s

/-- Account for elective work that starts or ends (R397). -/
def addElective (mw : Nat) (s : State) : State := { s with gov := { s.gov with electiveMw := s.gov.electiveMw + mw } }
def subElective (mw : Nat) (s : State) : State := { s with gov := { s.gov with electiveMw := s.gov.electiveMw - mw } }

/-- ROOT_PROBLEM_ADMISSION: a native problem takes a cell (R204, R207, R208). -/
def admitRoot (i : Nat) (s : State) : State :=
  match s.prob? i with
  | none => s
  | some p =>
    let h := p.job.hearth
    let x := s.run i
    let est := scaleEst s h 1500
    let ok := s.mandatory x || (s.eff.elective && s.admitPoint h && decide ((est : Int) ≤ headroom s (some h)))
    let good := (s.loadReads i p).all fun r => s.vmGood r.1 r.2
    if s.firstRoot h false = some i && ok && s.job.st.live && good then
      match s.freeCell h with
      | none => s
      | some c =>
        let s := loadProblem i p s
        let e := if s.mandatory x then 0 else est
        addElective e (setRun i { s.run i with cell := some c, est := e } s)
    else s

/-- Cores a piece may take (R201), cores of no group first, lowest number first (DESIGN CHOICE, notes/assumptions/23). -/
def State.eligible (s : State) (h : Nat) : List Nat :=
  let mine := (List.range 96).map (96 * h + ·) |>.filter s.coreUp
  let busy := s.probIdx.flatMap fun (_, i) => (s.run i).cores
  let free := mine.filter fun c => !busy.contains c
  if s.bnd.order = 7 then free
  else
    let none' := free.filter fun c => !s.groupedCores.contains c
    let bub := free.filter fun c => (List.range s.groupList.length).any fun g =>
      (s.bubble g).isSome && (s.groupOf g).cores.contains c
    (if s.bnd.order = 5 ∨ s.bnd.order = 6 then [] else none') ++ bub

/-- Duration of a piece in µs at a hearth's beat rate: three passes over its output tiles (R203, Table 08.6). -/
def State.pieceUs (s : State) (p : Prob) : Nat :=
  let beats := cdiv (symTiles p.job.n) (p.job.borrowN + 1) * 3 * p.job.n
  beats * 1000 / beatRate (s.gov.vcore.getD p.job.hearth 550) (s.gov.tj.getD p.job.hearth 0)

/-- Time left at an admission point of a hearth. -/
def State.timeLeft (s : State) (h : Nat) : Nat :=
  if s.bnd.order = 7 then s.budgetLeft else ((s.bubblesStarting h).map s.bubbleLeft).foldl max 0

/-- Does a piece of some duration fit the boundary budget at order 7, or the bubbles in which its cores stand (R207)? -/
def State.pieceFits (s : State) (cores : List Nat) (us : Nat) : Bool :=
  if s.bnd.order = 7 then decide (us ≤ s.budgetLeft)
  else (List.range s.groupList.length).all fun g =>
    !(cores.any fun c => (s.groupOf g).cores.contains c) || decide (us ≤ s.bubbleLeft g)

/-- The borrowed problem running on a hearth. -/
def State.borrowedOn (s : State) (h : Nat) : Option Nat :=
  (s.probIdx.find? fun (p, i) => p.job.hearth = h && p.job.borrow && (s.run i).phase = .running).map (·.2)

/-- The solution of a problem that has loaded B. -/
def State.solution (s : State) (i : Nat) (p : Prob) : RootSol × W32 :=
  let x := s.run i
  let tol := if p.job.tol = 0 then (if p.job.borrow then s.eff.lvTolBorrowed else s.eff.lvTolNative) else p.job.tol
  let cap := if p.job.cap = 0 then s.eff.lvIterCap else p.job.cap
  solveRoot p (BitVec.ofNat 64 s.job.seed) x.src x.mat x.starter tol cap

/-- R202: a piece in progress on any of some cores is discarded; it runs again from its start. -/
def cutPieces (hit : Nat → Bool) (s : State) : State :=
  s.probIdx.foldl (fun s (_, i) =>
    let x := s.run i
    if x.cores.any hit then subElective x.est (setRun i { x with cores := [], est := 0 } s) else s) s

/-- ROOT_PROBLEM_DECIDED (R195 to R197, R200, R210, R211). -/
def decideRoot (i : Nat) (s : State) : State :=
  match s.prob? i with
  | none => s
  | some p =>
    let x := s.run i
    if x.phase != .running || !x.cores.isEmpty then s else
    let (sol, eps) := s.solution i p
    if p.job.borrow && x.pieces < sol.products then s else
    let s := subElective x.est s
    let x := { x with cell := none, est := 0, sol := sol.sol, iters := sol.iters, esc := sol.esc, resid := sol.resid,
                      kind := sol.kind, eps := eps }
    if sol.code = 0 then setRun i { x with phase := .decided } s
    else
      let r := s.rootRec p
      let early := decide (s.stepNow < x.due)
      let s := setRootRec p { r with
        lastCode := sol.code, iters := sol.iters % 256
        kind := sol.kind, esc := sol.esc, resid := sol.resid, source := x.src, pendingDue := 0
        missRun := if early then 0 else r.missRun } s
      let s := logAdd sol.code 2 p.job.hearth 0 0xFFFF
        ([p.sig0, p.sig1] ++ w64 x.due ++ [sol.iters, sol.resid.toNat, sol.esc]) s
      nextSource i p (s.job.committed + 1) (setRun i { x with ended := x.ended ++ [(x.due, sol.code)] } s)

/-! ## Commit and delivery (R206, R217, R261) -/

/-- A slot header's first 32 bytes. -/
def slotHeader (p : Prob) (x : ProbSt) : Bytes :=
  leBytes 8 x.due ++ leBytes 8 x.src ++ leBytes 4 p.sig0 ++ leBytes 4 x.eps.toNat ++ leBytes 4 x.resid.toNat
    ++ leBytes 4 x.iters

/-- ROOT_COMMIT: orders 1 to 3 of R206 the first time, order 4 once every destination has acknowledged. -/
def commitRoot (i : Nat) (s : State) : State :=
  match s.prob? i with
  | none => s
  | some p =>
    let x := s.run i
    if x.phase != .decided then s else
    let slot := 1 - (s.rootRec p).inForce
    let s :=
      if x.written then s
      else
        let s := storeSym (p.rootSlot slot + 4096) p.job.n x.sol s
        let s := vmStore (p.rootSlot slot) (slotHeader p x) s
        let bytes := s.vmRead (p.rootSlot slot) (symSlot p.job.n)
        let ds := s.dests p
        let s := ds.foldl (fun s d => (List.range (cdiv bytes.length 4096)).foldl (fun s k => injectPacket
          { vl0Packet s d 1 ((bytes.drop (4096 * k)).take 4096) with
            vl := 1, origVl := 1, dstHearth := p.job.hearth, step := 0, attempt := 0, offset := 4096 * k } s) s) s
        setRun i { s.run i with written := true, acks := ds } s
    let x := s.run i
    if x.acks.isEmpty then
      let r := s.rootRec p
      let s := setRootRec p { r with
        sig0 := p.sig0, block := p.block, damp := p.dampClass, ready := true, pendingDue := x.due, lastCode := 0
        iters := x.iters % 256, kind := x.kind, esc := x.esc, resid := x.resid, source := x.src } s
      setRun i { x with phase := .ready } s
    else s

/-- ROOT_DELIVERY_ACK. -/
def rootAck (i dev : Nat) (s : State) : State :=
  let x := s.run i
  setRun i { x with acks := x.acks.filter fun d => d != dev } s

/-- The receiving problem of a root (R217). -/
def State.destProb (s : State) (weight side block src : Nat) : Option (Prob × Nat) :=
  s.probIdx.find? fun (p, _) => p.role = 1 && p.weight = weight && p.side = side && p.block = block && p.owner = src

/-- ROOT_DELIVERY: the owner's header and tiles go into the slot it names; the record mirrors the owner's. `ITERS` and
`LAST_RESID` stand in the header; `kind`, `esc`: `START_KIND` and `ESC` of the owner's record. -/
def rootDelivered (src weight side block slot due source kind esc : Nat) (header tiles : Bytes) (s : State) : State :=
  match s.destProb weight side block src with
  | none => s
  | some (p, i) =>
    let s := vmStore (p.rootSlot slot + 4096) (tiles.take (4096 * symTiles p.job.n)) s
    let s := vmStore (p.rootSlot slot) (header.take 4096) s
    let s := setRootRec p { s.rootRec p with
      sig0 := p.sig0, block := p.block, damp := p.dampClass, ready := true, pendingDue := due, source := source
      lastCode := 0, iters := ofLe ((header.drop 28).take 4) % 256, kind := kind, esc := esc
      resid := BitVec.ofNat 32 (ofLe ((header.drop 24).take 4)) } s
    let s := setRun i { s.run i with phase := .ready, src := source, due := due } s
    sendWords src 7 [weight, side, block, source] s

/-! ## Due steps (R209 to R211, R218) -/

/-- Problems of a layer with a decision at a step: a root that is due and still open, one that failed, or one latched. -/
def State.dueRoots (s : State) (layer n role : Nat) : List (Prob × Nat) :=
  s.probIdx.filter fun (p, i) =>
    let x := s.run i
    p.role = role && ((x.due = n && x.phase != .none) || x.latchStep == n || x.ended.any fun e => e.1 == n)
      && (match layerOfWeight s.cont p.weight with
        | some l => l.id == layer
        | none => false)

/-- Latch a decision; a miss is the record's last code, and at a destination an abandonment is one too (R209, R212,
R215). -/
def latchRoot (i : Nat) (p : Prob) (n slot kind : Nat) (s : State) : State :=
  let r := s.rootRec p
  let s := setRootRec p { r with
    latchStep := n, latchSlot := slot
    lastCode := if kind = 2 || (kind = 3 && p.role = 1) then ROOT_MISSED else r.lastCode } s
  setRun i { s.run i with latch := kind, latchStep := n } s

/-- A decision as its message carries it. -/
def latchKind (o : RootOutcome) : Nat := match o with | .new => 1 | .missed => 2 | .abandoned => 3
def latchOutcome (k : Nat) : RootOutcome := if k = 1 then .new else if k = 2 then .missed else .abandoned

/-- The owner's decision for one root at step n (R209, R211), made once; a repeat sends the same decision again
(DEDUCED from R213 and R264, notes/assumptions/19). -/
def ownDecision (n : Nat) (s : State) (pi : Prob × Nat) : State :=
  let (p, i) := pi
  let x := s.run i
  let r := s.rootRec p
  if x.latchStep = n then sendDecision p n r.latchSlot (latchOutcome x.latch) s
  else if x.due = n && x.phase == .ready then
    sendDecision p n (1 - r.inForce) .new (latchRoot i p n (1 - r.inForce) 1 s)
  else if x.due = n && x.phase != .none then
    let s := rootMissed i p n n s
    sendDecision p n r.inForce .missed (latchRoot i p n r.inForce 2 s)
  else sendDecision p n r.inForce .abandoned (latchRoot i p n r.inForce 3 s)

/-- Every decision of a layer's U item in step n. -/
def latchLayer (layer n : Nat) (s : State) : State := (s.dueRoots layer n 0).foldl (ownDecision n) s

/-- A destination holds every decision it needs (R218). -/
def State.decisionsHeld (s : State) (layer n : Nat) : Bool :=
  (s.dueRoots layer n 1).all fun (_, i) => (s.run i).latchStep == n

/-- ROOT_DECISION_MESSAGE at a destination: the earliest decision not yet applied is latched, others are held (R218). An
abandonment that follows the miss of its step takes its place, and the miss counts once (R212). -/
def rootDecisionState (src weight side block step slot : Nat) (o : RootOutcome) (s : State) : State :=
  match s.destProb weight side block src with
  | none => s
  | some (p, i) =>
    let x := s.run i
    if step ≤ s.job.committed then s
    else if x.latchStep = step then
      (if x.latch = 2 && o == .abandoned then setRun i { x with latch := 3 } s else s)
    else if x.latch = 0 then latchRoot i p step slot (latchKind o) s
    else if step < x.latchStep then
      latchRoot i p step slot (latchKind o)
        (setRun i { x with notes := tset x.notes x.latchStep ((s.rootRec p).latchSlot, x.latch) } s)
    else setRun i { x with notes := tset x.notes step (slot, latchKind o) } s

/-- Signature words of the root in a slot: the first stands in the slot's header, the second in the record (R198, R215). -/
def State.rootSig (s : State) (p : Prob) (slot : Nat) : Nat × Nat :=
  let r := s.rootRec p
  (s.vmWord (p.rootSlot slot + 16), r.block * 2 ^ 24 + r.damp * 2 ^ 16)

/-- Enter a root in force in its hearth's starter table, unless the word is unusable (R107, R199). -/
def setStarter (p : Prob) (slot : Nat) (s : State) : State :=
  if p.job.op = 1 || p.role = 1 || s.dev.badStarters.contains (p.job.hearth, p.starter) then s
  else
    let k := 4096 * p.job.hearth + p.starter
    { s with leaven := { s.leaven with
        starters := tset s.leaven.starters k ⟨(s.rootSig p slot).1, (s.rootSig p slot).2, slot, p.rootVa⟩
        lostStarters := s.leaven.lostStarters.filter fun x => x != k } }

/-- Roots that failed are reported in the step record of their due step (R211). -/
def reportEnded (n i : Nat) (s : State) : State :=
  let x := s.run i
  let count (c : Nat) : Nat := (x.ended.filter fun e => e.1 == n && e.2 == c).length
  setRun i { x with ended := x.ended.filter fun e => decide (n < e.1) }
    { s with leaven := { s.leaven with
      capped := s.leaven.capped + count CODE_ROOT_CAP, pivoted := s.leaven.pivoted + count CODE_PIVOT_FAIL } }

/-- The next decision a destination holds is latched. -/
def takeNote (i : Nat) (p : Prob) (s : State) : State :=
  match (s.run i).notes with
  | [] => s
  | (step, slot, kind) :: r => latchRoot i p step slot kind (setRun i { s.run i with notes := r } s)

/-- One latched decision takes effect (R209, R210, R212). -/
def applyDecision (n i : Nat) (p : Prob) (s : State) : State :=
  let x := s.run i
  let r := s.rootRec p
  let s := setRun i { x with latch := 0 } s
  match x.latch with
  | 1 =>
    let s := setRootRec p { r with
      inForce := r.latchSlot, hasRoot := true, inForceDue := n, ready := false, pendingDue := 0, missRun := 0 } s
    let s := setStarter p r.latchSlot s
    let s := if p.role = 0 then { s with leaven := { s.leaven with fresh := s.leaven.fresh + 1 } } else s
    nextSource i p (n + 1) s
  | 2 =>
    if x.phase != .none && x.due = n then
      setRun i { s.run i with due := n + 1 } (setRootRec p { r with pendingDue := n + 1 } s)
    else s
  | _ =>
    if p.role = 0 then s
    else if x.due = n then nextSource i p (n + 1) s
    else setRun i { s.run i with later := x.later.filter fun u => u + p.job.lag != n } s

/-- What the commit of step n does to one problem. Result: the state, and whether the miss limit is reached; a miss and an
abandonment of one step raise `MISS_RUN` once (R210, R212). A destination raises it for an abandonment as its owner does;
the message does not tell a root that failed apart (notes/assumptions/74). -/
def applyLatch (n : Nat) (acc : State × Bool) (pi : Prob × Nat) : State × Bool :=
  let (s, lim) := acc
  let (p, i) := pi
  let s := reportEnded n i s
  let x := s.run i
  let latched := x.latch != 0 && x.latchStep == n
  let s := if latched then takeNote i p (applyDecision n i p s) else s
  if (latched && (x.latch == 2 || (x.latch == 3 && p.role == 1))) || (p.role == 0 && x.aband == n && n != 0) then
    let r := s.rootRec p
    let m := min (r.missRun + 1) 255
    (setRootRec p { r with missRun := m } s, lim || (decide (s.eff.lvMissLimit ≤ m) && p.role == 0))
  else (s, lim)

/-- R193: step n, committed, is a source step of a job. -/
def State.isSource (s : State) (j : LvJob) (n : Nat) : Bool :=
  s.curv n && j.every != 0 && ((n - 1) / s.params.curvPeriod) % j.every == 0

/-- The roots a committed source step gives (R193). -/
def newSource (n : Nat) (s : State) (pi : Prob × Nat) : State :=
  let (p, i) := pi
  if !s.isSource p.job n then s else
  let x := s.run i
  if x.phase = .none then
    let s := setRun i { x with phase := .waiting, src := n, due := n + p.job.lag } s
    setRootRec p { s.rootRec p with pendingDue := n + p.job.lag, source := n } s
  else setRun i { x with later := x.later ++ [n] } s

/-- What the commit of step n does to the roots; true when the miss limit is reached. -/
def commitRoots (n : Nat) (s : State) : State × Bool :=
  let (s, lim) := s.probIdx.foldl (applyLatch n) (s, false)
  (s.probIdx.foldl (newSource n) s, lim)

/-- R199: rebuild the starter tables from the root records. -/
def rebuildStarters (s : State) : State :=
  s.probs.foldl (fun s p =>
    let r := s.rootRec p
    if r.hasRoot then setStarter p r.inForce s else s)
    { s with leaven := { s.leaven with starters := [], lostStarters := [] } }

/-- R219: roots undecided at a resumed step start again from their first step, `PENDING_DUE` unchanged, those of later
source steps queued behind them; one that failed and is due later is still to be reported (R211). -/
def resumeRoots (s : State) : State :=
  s.probIdx.foldl (fun s (p, i) =>
    let r := s.rootRec p
    let failed := (r.lastCode == CODE_ROOT_CAP || r.lastCode == CODE_PIVOT_FAIL) && p.role == 0
      && decide (s.job.committed < r.source + p.job.lag)
    if r.pendingDue = 0 then
      setRun i { ProbSt.reset with ended := if failed then [(r.source + p.job.lag, r.lastCode)] else [] } s
    else setRun i { ProbSt.reset with
      phase := if r.ready then .ready else .waiting, src := r.source, due := r.pendingDue
      later := ((List.range (s.job.committed - r.source)).map (r.source + 1 + ·)).filter (s.isSource p.job) } s) s

end Sys2Proof.Machine
end

