-- ==== Sys2Proof/Machine/Elementary.lean ====
section
/-! DEFINITION. The elementary functions of Table 06.3, correctly rounded (R139, R148). Each is evaluated in integers to
`W` fraction bits with an absolute error below 2^64 units; when both ends of that interval round to one binary32 value,
that value is the result, else the next larger `W` is taken. Arguments whose result is exact are answered apart. -/

namespace Sys2Proof.Machine

/-- Sum over i of 1 / ((2 i + 1) × q^(2 i + 1)), alternating when `alt`, in units of 2^-W (t holds the power). -/
def oddSeries (alt : Bool) (q2 : Nat) : Nat → Nat → Nat → Int → Int
  | 0, _, _, acc => acc
  | fuel + 1, i, t, acc =>
    if t = 0 then acc else
    let x : Int := (t / (2 * i + 1) : Nat)
    oddSeries alt q2 fuel (i + 1) (t / q2) (if alt && i % 2 == 1 then acc - x else acc + x)

/-- ln 2 in units of 2^-W. -/
def fxLn2 (W : Nat) : Nat := (2 * oddSeries false 9 W 0 (2 ^ W / 3) 0).toNat

/-- π in units of 2^-W. -/
def fxPi (W : Nat) : Nat :=
  (16 * oddSeries true 25 W 0 (2 ^ W / 5) 0 - 4 * oddSeries true 57121 W 0 (2 ^ W / 239) 0).toNat

/-- Taylor sum of the exponential of r. -/
def expSum (W r : Nat) : Nat → Nat → Nat → Nat → Nat
  | 0, _, _, acc => acc
  | fuel + 1, i, t, acc =>
    if t = 0 then acc else
    let t' := ((t * r) >>> W) / (i + 1)
    expSum W r fuel (i + 1) t' (acc + t')

/-- Square `k` times. -/
def sqTimes (W : Nat) : Nat → Nat → Nat
  | 0, s => s
  | k + 1, s => sqTimes W k ((s * s) >>> W)

/-- exp of x units of 2^-W: a significand near [1, 2) in units of 2^-W and a power of two. -/
def fxExp (W : Nat) (x : Int) : Nat × Int :=
  let l : Int := fxLn2 W
  let k := x / l
  let r := ((x - k * l).toNat) >>> 8
  (sqTimes W 8 (expSum W r W 0 (2 ^ W) (2 ^ W)), k)

/-- The odd power series of the inverse hyperbolic tangent of y. -/
def atanhSum (W y2 : Nat) : Nat → Nat → Nat → Nat → Nat
  | 0, _, _, acc => acc
  | fuel + 1, i, t, acc =>
    if t = 0 then acc else atanhSum W y2 fuel (i + 1) ((t * y2) >>> W) (acc + t / (2 * i + 1))

/-- ln of m in [1, 2), both in units of 2^-W. -/
def fxLn (W m : Nat) : Nat :=
  let y := ((m - 2 ^ W) * 2 ^ W) / (m + 2 ^ W)
  2 * atanhSum W ((y * y) >>> W) W 0 y 0

/-- A value truncated to units of 2^-W, sign kept. -/
def fxOf (W : Nat) : FVal → Int
  | .fin s m e =>
    let p := e + (W : Int)
    let n : Nat := if 0 ≤ p then scaleUp m p else m >>> (-p).toNat
    if s then -(n : Int) else n
  | _ => 0

/-- Error margin in units of the last place. -/
def fxErr : Nat := 2 ^ 64

/-- Round an approximation n × 2^e, signed, when the margin allows it. `f` is applied exactly after it. -/
def fxRound (n : Int) (e : Int) (f : FVal → FVal) : Option W32 :=
  let v (i : Int) : FVal := .fin (decide (i < 0)) i.natAbs e
  let a := toB32 (f (v (n - (fxErr : Int))))
  let b := toB32 (f (v (n + (fxErr : Int))))
  if a = b then some a else none

/-- The first answer of increasing working precisions; the last one's midpoint stands where none decides. -/
def firstSome (mid : Nat → W32) (f : Nat → Option W32) : List Nat → W32
  | [] => mid 2048
  | w :: ws => (f w).getD (firstSome mid f ws)

/-- |v| > n. -/
def absGt (v : FVal) (n : Nat) : Bool :=
  match v with
  | .inf _ => true
  | .fin _ m e => !magLe m e n 0
  | .nan => false

/-- Correct rounding of `g` (a value and its exponent at each precision) followed by an exact factor. -/
def ziv (ws : List Nat) (g : Nat → Int × Int) (f : FVal → FVal := id) : W32 :=
  firstSome (fun w => let r := g w; toB32 (f (.fin (decide (r.1 < 0)) r.1.natAbs r.2)))
    (fun w => let r := g w; fxRound r.1 r.2 f) ws

def wExp : List Nat := [256, 640, 1400]
def wWide : List Nat := [640, 1400]

/-- e^a. -/
def elemExp (a : W32) : W32 :=
  match ofB32 a with
  | .nan => toB32 .nan
  | .inf s => if s then f32Zero else a
  | .fin s m e =>
    if m = 0 then f32One
    else if absGt (.fin s m e) 300 then (if s then f32Zero else toB32 (.inf false))
    else ziv wExp fun w => let (n, k) := fxExp w (fxOf w (.fin s m e)); (n, k - (w : Int))

/-- The integer value of m × 2^e when it is one. -/
def asInt (s : Bool) (m : Nat) (e : Int) : Option Int :=
  let k := (-e).toNat
  let n : Nat := if 0 ≤ e then scaleUp m e else m / 2 ^ k
  if 0 ≤ e ∨ n * 2 ^ k = m then some (if s then -(n : Int) else n) else none

/-- 2^a. -/
def elemExp2 (a : W32) : W32 :=
  match ofB32 a with
  | .nan => toB32 .nan
  | .inf s => if s then f32Zero else a
  | .fin s m e =>
    if absGt (.fin s m e) 300 then (if s then f32Zero else toB32 (.inf false))
    else match asInt s m e with
    | some i => toB32 (.fin false 1 i)
    | none => ziv wExp fun w =>
        let (n, k) := fxExp w ((fxOf w (.fin s m e) * fxLn2 w) / 2 ^ w)
        (n, k - (w : Int))

/-- Normalise m × 2^e to a significand in [1, 2) in units of 2^-w and an exponent. -/
def normSig (w m : Nat) (e : Int) : Nat × Int :=
  let l := Nat.log2 m
  (m * 2 ^ w / 2 ^ l, e + l)

/-- ln of a positive value. -/
def fxLnOf (w m : Nat) (e : Int) : Int :=
  let (g, k) := normSig w m e
  k * fxLn2 w + fxLn w g

/-- ln a. -/
def elemLn (a : W32) : W32 :=
  match ofB32 a with
  | .nan => toB32 .nan
  | .inf s => if s then toB32 .nan else a
  | .fin s m e =>
    if m = 0 then f32NegInf else if s then toB32 .nan
    else if a = f32One then f32Zero
    else ziv wExp fun w => (fxLnOf w m e, -(w : Int))

/-- log₂ a. -/
def elemLog2 (a : W32) : W32 :=
  match ofB32 a with
  | .nan => toB32 .nan
  | .inf s => if s then toB32 .nan else a
  | .fin s m e =>
    if m = 0 then f32NegInf else if s then toB32 .nan
    else if m = 2 ^ Nat.log2 m then toB32 (ofInt (e + Nat.log2 m))
    else ziv wExp fun w => (fxLnOf w m e * 2 ^ w / fxLn2 w, -(w : Int))

/-- e^x in units of 2^-W for x ≥ 0. -/
def fxExpNat (W : Nat) (x : Int) : Nat := let (n, k) := fxExp W x; n * 2 ^ k.toNat

/-- tanh a. -/
def elemTanh (a : W32) : W32 :=
  match ofB32 a with
  | .nan => toB32 .nan
  | .inf s => toB32 (.fin s 1 0)
  | .fin s m e =>
    if m = 0 then a
    else if absGt (.fin s m e) 64 then toB32 (.fin s 1 0)
    else ziv wWide fun w =>
      let x := fxExpNat w (fxOf w (.fin false m (e + 1)))
      let t : Int := ((x - 2 ^ w) * 2 ^ w / (x + 2 ^ w) : Nat)
      (if s then -t else t, -(w : Int))

/-- The logistic sigmoid in units of 2^-W. -/
def fxSigmoid (W : Nat) (s : Bool) (m : Nat) (e : Int) : Nat :=
  let x := fxExpNat W (fxOf W (.fin false m e))
  if s then 2 ^ (2 * W) / (x + 2 ^ W) else x * 2 ^ W / (x + 2 ^ W)

/-- 1 / (1 + e^−a). -/
def elemSigmoid (a : W32) : W32 :=
  match ofB32 a with
  | .nan => toB32 .nan
  | .inf s => if s then f32Zero else f32One
  | .fin s m e =>
    if m = 0 then 0x3F000000
    else if absGt (.fin s m e) 300 then (if s then f32Zero else f32One)
    else ziv wWide fun w => (fxSigmoid w s m e, -(w : Int))

/-- a × sigmoid(a). -/
def elemSilu (a : W32) : W32 :=
  match ofB32 a with
  | .nan => toB32 .nan
  | .inf s => if s then toB32 (.fin true 0 0) else a
  | .fin s m e =>
    if m = 0 then a
    else if absGt (.fin s m e) 300 then (if s then toB32 (.fin true 0 0) else a)
    else ziv wWide (fun w => (fxSigmoid w s m e, -(w : Int))) fun v => v.mul (.fin s m e)

/-- Terms x^(2k+1) / (2k+1)!! summed. -/
def gaussSum (W x2 : Nat) : Nat → Nat → Nat → Nat → Nat
  | 0, _, _, acc => acc
  | fuel + 1, k, t, acc =>
    if t = 0 then acc else
    let t' := ((t * x2) >>> W) / (2 * k + 3)
    gaussSum W x2 fuel (k + 1) t' (acc + t')

/-- The normal density at a in units of 2^-W. -/
def fxDensity (W m : Nat) (e : Int) : Nat :=
  let h := fxExpNat W (fxOf W (.fin false (m * m) (2 * e - 1)))
  let r := isqrt (2 * fxPi W * 2 ^ W)
  2 ^ (3 * W) / (h * r)

/-- Φ of a nonnegative argument, less one half, in units of 2^-W. -/
def fxPhiHalf (W m : Nat) (e : Int) : Nat :=
  let x := (fxOf W (.fin false m e)).toNat
  let x2 := (fxOf W (.fin false (m * m) (2 * e))).toNat
  (gaussSum W x2 (W + 1000) 0 x x * fxDensity W m e) >>> W

/-- The standard normal distribution function in units of 2^-W. -/
def fxPhi (W : Nat) (s : Bool) (m : Nat) (e : Int) : Int :=
  let h : Int := fxPhiHalf W m e
  if s then 2 ^ (W - 1) - h else 2 ^ (W - 1) + h

/-- a × Φ(a). -/
def elemGelu (a : W32) : W32 :=
  match ofB32 a with
  | .nan => toB32 .nan
  | .inf s => if s then toB32 (.fin true 0 0) else a
  | .fin s m e =>
    if m = 0 then a
    else if s && absGt (.fin s m e) 16 then toB32 (.fin true 0 0)
    else if absGt (.fin s m e) 8 && !s then a
    else ziv wWide (fun w => (fxPhi w s m e, -(w : Int))) fun v => v.mul (.fin s m e)

/-- The two backward forms share their treatment of specials (R139): `lim` is the bound beyond which the factor is
indistinguishable from its limit. At −∞ the factor is 0 and a finite b gives b × 0. -/
def elemBwd (lim : Nat) (g : Nat → Bool → Nat → Int → Int) (a b : W32) : W32 :=
  let vb := ofB32 b
  match ofB32 a, vb with
  | .nan, _ => toB32 .nan
  | _, .nan => toB32 .nan
  | .inf s, _ => if s then toB32 (vb.mul (.fin false 0 0)) else b
  | .fin s m e, _ =>
    if m = 0 then toB32 (vb.scale (-1))
    else if absGt (.fin s m e) lim then
      (if s then toB32 (match vb with | .fin t _ _ => .fin (!t) 0 0 | v => v.neg) else b)
    else ziv wWide (fun w => (g w s m e, -(w : Int))) fun v => v.mul vb

/-- b × (σ(a) × (1 + a × (1 − σ(a)))). -/
def elemSiluBwd (a b : W32) : W32 :=
  elemBwd 200 (fun w s m e =>
    let g : Int := fxSigmoid w s m e
    let gc : Int := fxSigmoid w (!s) m e
    let x := fxOf w (.fin s m e)
    g * (2 ^ w + x * gc / 2 ^ w) / 2 ^ w) a b

/-- b × (Φ(a) + a × φ(a)). -/
def elemGeluBwd (a b : W32) : W32 :=
  elemBwd 21 (fun w s m e => fxPhi w s m e + fxOf w (.fin s m e) * fxDensity w m e / 2 ^ w) a b

end Sys2Proof.Machine
end

