-- ==== Sys2Proof/Machine/VectorCalc.lean ====
section
/-! DEFINITION. What a vector instruction and a row operation compute from their operands' values (R135 to R142, R147
to R151), and the convert stage they share (R141). -/

namespace Sys2Proof.Machine

/-- Table 06.3: the result of an operation on binary32 operands, correctly rounded (R139). -/
def vopApply (op : Nat) (a b c : W32) : W32 :=
  match op with
  | 0x00 => toB32 (ofB32 a)
  | 0x01 => fadd a b
  | 0x02 => fsub a b
  | 0x03 => fmul a b
  | 0x04 => ffma a b c
  | 0x05 => fmax a b
  | 0x06 => fmin a b
  | 0x07 => if (ofB32 c).isNan then toB32 .nan else fmin (fmax a b) c
  | 0x08 => toB32 (ofB32 a).abs
  | 0x09 => fneg a
  | 0x0A => frecip a
  | 0x0B => fsqrt a
  | 0x0C => frsqrt a
  | 0x0D => elemExp a
  | 0x0E => elemLn a
  | 0x0F => elemExp2 a
  | 0x10 => elemLog2 a
  | 0x11 => elemTanh a
  | 0x12 => elemSigmoid a
  | 0x13 => elemSilu a
  | 0x14 => elemGelu a
  | 0x15 => elemSiluBwd a b
  | 0x16 => elemGeluBwd a b
  | _ => if (ofB32 a).pos then toB32 (ofB32 b) else toB32 (ofB32 c)

/-- Table 06.2: the operand a select code names at element e. -/
def vecSelect (sel : Nat) (x y v : Nat → W32) (s0 s1 : W32) (e : Nat) : W32 :=
  match sel with
  | 0 => x e
  | 1 => y e
  | 2 => v e
  | 3 => s0
  | 4 => s1
  | 5 => f32Zero
  | _ => f32One

/-- R135: the results of a vector instruction in element order. -/
def runVector (d : VecDesc) (x y v : Nat → W32) (s0 s1 : W32) : List W32 :=
  let ve (e : Nat) : W32 := v (if d.bcast = 1 then e % d.rowLen else e / d.rowLen)
  (List.range d.count).map fun e =>
    vopApply d.vop (vecSelect d.selA x y ve s0 s1 e) (vecSelect d.selB x y ve s0 s1 e)
      (vecSelect d.selC x y ve s0 s1 e)

/-- Statistics of a convert (R63, Table 06.4). -/
structure ConvStat where
  flush : Nat
  sat : Nat
  nonfin : Nat
  deriving DecidableEq, Repr

def ConvStat.zero : ConvStat := ⟨0, 0, 0⟩

def ConvStat.addClass (s : ConvStat) (c : ConvClass) : ConvStat :=
  match c with
  | .ordinary => s
  | .flushed => { s with flush := s.flush + 1 }
  | .saturated => { s with sat := s.sat + 1 }
  | .nonFinite => { s with nonfin := s.nonfin + 1 }

/-- A converted output: element e's encoding, the dense scale array of R142, the statistics. -/
structure ConvOut where
  elems : List (Nat × Nat)
  scales : List Nat
  stat : ConvStat
  deriving DecidableEq, Repr

/-- Length of the dense scale array of a view (R142). -/
def viewScaleLen (f : OpFmt) (rows rowLen : Nat) : Nat :=
  let bs := blockElems f.blockSize
  if bs = 0 then 0 else if f.blockDir then cdiv rows bs * rowLen else rows * cdiv rowLen bs

/-- Index in that array of the scale of element e. -/
def viewScaleIdx (f : OpFmt) (rowLen e : Nat) : Nat :=
  let bs := blockElems f.blockSize
  let r := e / rowLen; let c := e % rowLen
  if f.blockDir then r / bs * rowLen + c else r * cdiv rowLen bs + c / bs

/-- The convert stage on a view of rows of `rowLen` (R55, R60, R63, R141, R142). -/
def convStage (fmtByte rowLen : Nat) (vals : List W32) : ConvOut :=
  let f := opFmt fmtByte
  let bs := blockElems f.blockSize
  let xs := (vals.map ofB32).zipIdx
  if bs = 0 then
    let cs := xs.map fun (v, e) => (e, convElem f.elemFmt v)
    { elems := if f.elemFmt = 0 then (vals.zipIdx).map fun (w, e) => (e, w.toNat) else cs.map fun (e, r) => (e, r.1)
      scales := [], stat := cs.foldl (fun s c => s.addClass c.2.2) ConvStat.zero }
  else
    let n := viewScaleLen f (cdiv vals.length rowLen) rowLen
    let groups := (List.range n).map fun g => xs.filter fun (_, e) => viewScaleIdx f rowLen e = g
    let written := groups.map fun g => if g.isEmpty then (⟨0, [], 0⟩ : Block) else writeBlock f.elemFmt (g.map (·.1))
    { elems := (groups.zip written).flatMap fun (g, b) => (g.zip b.elems).map fun (x, e) => (x.2, e)
      scales := written.map (·.scale)
      stat := (groups.zip written).foldl (fun s (g, b) =>
        { s with flush := s.flush + b.flushed, nonfin := s.nonfin + g.countP fun x => !x.1.isFin }) ConvStat.zero }

/-! ## The row engine -/

/-- R148: fold into 16 lanes by index, then combine pairwise by lane index in the tree of R85. -/
def lanes {α β : Type} (vals : List β) (init : α) (step : α → β → α) (comb : α → α → α) : α :=
  let xs := vals.zipIdx
  let l := (List.range 16).map fun i => (xs.filter fun x => x.2 % 16 = i).foldl (fun a x => step a x.1) init
  let g (i : Nat) : α := l.getD i init
  let c2 (i : Nat) := comb (g i) (g (i + 1))
  let c4 (i : Nat) := comb (c2 i) (c2 (i + 2))
  let c8 (i : Nat) := comb (c4 i) (c4 (i + 4))
  comb (c8 0) (c8 8)

/-- The lane sum of binary32 values. -/
def laneSum (vals : List W32) : W32 := lanes vals f32Zero fadd fadd

/-- R149. `x` is what pass 1 read, `x2` what pass 2 read (R147). -/
def normFwd (x x2 g b : List W32) (eps : W32) (rms : Bool) : (W32 × W32) × List W32 :=
  let n := b32OfNat x.length
  let x0 := if rms then f32Zero else x.headD f32Zero
  let d := x.map fun v => fsub v x0
  let s1 := laneSum d
  let s2 := lanes d f32Zero (fun s v => ffma v v s) fadd
  let muD := if rms then f32Zero else fdiv s1 n
  let v0 := fsub (fdiv s2 n) (fmul muD muD)
  let var := if fltB v0 f32Zero then f32Zero else v0
  let mu := fadd x0 muD
  let r := frsqrt (fadd var eps)
  ((mu, r), (x2.zip (g.zip b)).map fun (v, gj, bj) => ffma (fmul (fsub v mu) r) gj bj)

/-- R150: one lane step of the soft-maximum. -/
def smStep (st : W32 × W32) (z : W32) : W32 × W32 :=
  if z = f32NegInf then st
  else if fltB st.1 z then (z, fadd (fmul st.2 (elemExp (fsub st.1 z))) f32One)
  else (st.1, fadd st.2 (elemExp (fsub z st.1)))

/-- The combination; a NaN sum stays NaN also where its lane holds no other element, as the sentence after R150's
pseudo-code has it. -/
def smComb (p q : W32 × W32) : W32 × W32 :=
  let sum (w : W32) : W32 := if (ofB32 p.2).isNan || (ofB32 q.2).isNan then toB32 .nan else w
  if p.1 = f32NegInf then (q.1, sum q.2) else if q.1 = f32NegInf then (p.1, sum p.2) else
  let m := fmax p.1 q.1
  (m, fadd (fmul p.2 (elemExp (fsub p.1 m))) (fmul q.2 (elemExp (fsub q.1 m))))

/-- The outputs of a soft-maximum row from its statistics (the last lines of R150); +0 only where the row holds no NaN. -/
def smOut (m l : W32) (z : List W32) : List W32 :=
  if m = f32NegInf && !(ofB32 l).isNan then z.map fun _ => f32Zero else z.map fun v => elemExp (fsub (fsub v m) l)

/-- R150. -/
def smFwd (z z2 : List W32) : (W32 × W32) × List W32 :=
  let (m, s) := lanes z (f32NegInf, f32Zero) smStep smComb
  let l := elemLn s
  ((m, l), smOut m l z2)

/-- The masked, scaled inputs of row r (R150). -/
def smInputs (alpha : W32) (causal : Bool) (diag : Int) (r : Nat) (x : List W32) : List W32 :=
  (x.zipIdx).map fun (v, c) => if causal && decide ((c : Int) > r + diag) then f32NegInf else fmul alpha v

/-- R151: the normalised inputs of a backward row, and its outputs. -/
def normHat (x : List W32) (mu r : W32) : List W32 := x.map fun v => fmul (fsub v mu) r

def normBwd (x dy g x2 dy2 g2 : List W32) (mu r : W32) (rms : Bool) : List W32 :=
  let n := b32OfNat x.length
  let gs (dy g : List W32) := (dy.zip g).map fun (a, b) => fmul a b
  let gg := gs dy g
  let a := if rms then f32Zero else fdiv (laneSum gg) n
  let bb := fdiv (laneSum ((gg.zip (normHat x mu r)).map fun (p, q) => fmul p q)) n
  ((normHat x2 mu r).zip (gs dy2 g2)).map fun (h, q) => fmul r (ffma (fneg h) bb (fsub q a))

def smBwd (y dy y2 dy2 : List W32) (alpha : W32) : List W32 :=
  let s := laneSum ((dy.zip y).map fun (a, b) => fmul a b)
  (y2.zip dy2).map fun (yj, dj) => fmul alpha (fmul yj (fsub dj s))

/-- One row of a row operation: its outputs, the statistics a forward operation writes, and the normalised inputs that
feed the column accumulators. -/
structure RowOut where
  out : List W32
  stat : Option (W32 × W32)
  hat : List W32
  deriving DecidableEq, Repr

/-- What a row operation reads for one row: X, DY and γ in pass 1, the same in pass 2, and β (R147). -/
structure RowIn where
  x : List W32
  dy : List W32
  g : List W32
  x2 : List W32
  dy2 : List W32
  g2 : List W32
  b : List W32
  deriving DecidableEq, Repr

/-- R147 to R151: one row. `st`: the row's statistics as the side memory holds them. -/
def runRow (d : RowDesc) (r : Nat) (i : RowIn) (st : W32 × W32) : RowOut :=
  match d.rop with
  | 1 => let (s, o) := normFwd i.x i.x2 i.g2 i.b d.param false; ⟨o, some s, []⟩
  | 2 => let (s, o) := normFwd i.x i.x2 i.g2 i.b d.param true; ⟨o, some (f32Zero, s.2), []⟩
  | 3 =>
    let z (x : List W32) := smInputs d.param d.causal d.diag r x
    let (s, o) := smFwd (z i.x) (z i.x2)
    ⟨o, some s, []⟩
  | 4 => ⟨normBwd i.x i.dy i.g i.x2 i.dy2 i.g2 st.1 st.2 false, none, normHat i.x st.1 st.2⟩
  | 5 => ⟨normBwd i.x i.dy i.g i.x2 i.dy2 i.g2 f32Zero st.2 true, none, normHat i.x f32Zero st.2⟩
  | _ =>
    let y (x : List W32) := if d.yRecomp then smOut st.1 st.2 (smInputs d.param d.causal d.diag r x) else x
    ⟨smBwd (y i.x) i.dy (y i.x2) i.dy2 d.param, none, []⟩

end Sys2Proof.Machine
end

