-- ==== Sys2Proof/Machine/Coll.lean ====
section
/-! DEFINITION. Collectives of the kneader: buckets, reduction trees, distribution (chapter 10). -/

namespace Sys2Proof.Machine

/-! ## Parameter-state layout (Table 09.3) -/

/-- Bytes of the working copy's elements, and of its scale array. -/
def BlockRec.wcBytes (b : BlockRec) : Nat := cdiv (b.elems * elemBits (opFmt b.wcFmt).elemFmt) 8
def BlockRec.wcScales (b : BlockRec) : Nat := viewScaleLen (opFmt b.wcFmt) b.rows b.cols

/-- Offsets within a slot of COMP, of moment k, of WC and of its scales; SLOT_BYTES. -/
def BlockRec.compOff (b : BlockRec) : Nat := up4k (4 * b.elems)
def BlockRec.momOff (b : BlockRec) (k : Nat) : Nat :=
  b.compOff + (if b.comp then up4k (2 * b.elems) else 0) + k * up4k (4 * b.elems)
def BlockRec.wcOff (b : BlockRec) : Nat := b.momOff b.moms
def BlockRec.scaleOff (b : BlockRec) : Nat := b.wcOff + up4k b.wcBytes
def BlockRec.slotBytes (b : BlockRec) : Nat := b.scaleOff + up4k b.wcScales
def BlockRec.slotVa (b : BlockRec) (k : Nat) : Nat := b.stateVa + 4096 + k * b.slotBytes

/-- The block whose slot 0 holds an address. -/
def State.blockAt (s : State) (va : Nat) : Option BlockRec :=
  s.blocks.find? fun b => decide (b.slotVa 0 ≤ va) && decide (va < b.slotVa 0 + b.slotBytes)

/-- R228: does the current slot of a block carry its generation byte? -/
def State.genOk (s : State) (b : BlockRec) : Bool :=
  let c := s.job.committed
  ofLe (s.vmRead (b.stateVa + c % 2) 1) == c % 256

/-- Expansion areas of the recipe, one for each root named: ((job, problem), address, bytes). -/
def expansions (s : State) : List ((Nat × Nat) × Nat × Nat) :=
  (s.blocks.flatMap fun b =>
    (if b.lJob = 0xFFFF then [] else [((b.lJob, b.lProb), b.lexp, 4096 + 4 * b.rows * b.rows)])
      ++ (if b.rJob = 0xFFFF then [] else [((b.rJob, b.rProb), b.rexp, 4096 + 4 * b.cols * b.cols)])).eraseDups

/-- R162: an address in a region with a micro-batch stride is offset by m × stride. -/
def State.reloc (s : State) (va m : Nat) : Nat :=
  match regionAt s.cont va with
  | some r => va + m * r.stride
  | none => va

/-! ## Buckets (R251) -/

def Coll.wireW (c : Coll) : Nat := if c.op = 0 then (if c.wire = 0 then 2 else 4) else 1

/-- Wire bytes of each segment. -/
def Coll.segs (c : Coll) (sec : Words) : List Nat :=
  match c.op with
  | 0 | 1 => (List.range c.groupN).map fun r => c.count sec r * c.wireW
  | 3 => (List.range c.groupN).map fun _ => c.elems
  | _ => [c.elems]

/-- Bucket size in wire bytes. -/
def Coll.bucketSize (c : Coll) : Nat := 65536 * 2 ^ c.shift

/-- Buckets in sequence order: segment, offset in it, length. -/
def Coll.buckets (c : Coll) (sec : Words) : List (Nat × Nat × Nat) :=
  ((c.segs sec).zipIdx).flatMap fun (len, seg) =>
    (List.range (cdiv len c.bucketSize)).map fun k =>
      (seg, k * c.bucketSize, min c.bucketSize (len - k * c.bucketSize))

/-- Rank at the root of a segment's tree. -/
def Coll.rootOf (c : Coll) (seg : Nat) : Nat :=
  match c.op with
  | 0 | 1 => seg
  | 4 => c.rank
  | _ => c.root

/-- Relative rank of this device in a segment's tree, and the group rank of a relative rank (R252). -/
def Coll.rel (c : Coll) (seg : Nat) : Nat := (c.rank + c.groupN - c.rootOf seg % c.groupN) % c.groupN
def Coll.abs (c : Coll) (seg r : Nat) : Nat := (r + c.rootOf seg) % c.groupN

/-- Group ranks that send to, and the one that receives from, this device in a segment's reduction tree. -/
def Coll.children (c : Coll) (seg : Nat) : List Nat := (treeChildren c.groupN (c.rel seg)).map (c.abs seg)
def Coll.parent (c : Coll) (seg : Nat) : Nat := c.abs seg (treeParent (c.rel seg))

/-- Elements of the segments before one. -/
def Coll.before (c : Coll) (sec : Words) (seg : Nat) : Nat :=
  ((List.range seg).map (c.count sec)).foldl (· + ·) 0

/-! ## Arrivals -/

/-- The bytes of a bucket from a rank, once they are all there; with each byte's packet status. -/
def gather (got : List Arrival) (b rank : Nat) : Nat → Nat → Nat → Option (Bytes × List (Nat × Nat))
  | 0, off, len => if off = len then some ([], []) else none
  | fuel + 1, off, len =>
    if len ≤ off then some ([], []) else
    match got.find? fun a => a.bucket = b && a.rank = rank && a.offset = off with
    | none => none
    | some a =>
      if a.payload.isEmpty then none else
      (gather got b rank fuel (off + a.payload.length) len).map fun (bs, st) =>
        (a.payload ++ bs, (a.payload.length, a.nstatus) :: st)

/-- A whole bucket of `len` bytes from a rank. -/
def arrived (r : CollRun) (b rank len : Nat) : Option (Bytes × List (Nat × Nat)) := gather r.got b rank (len + 1) 0 len

/-- Offset that marks the packet carrying a segment's count: of tokens (R255), or of a chunk's bytes (R259; DESIGN CHOICE,
notes/assumptions/24). -/
def countMark : Nat := 0xFFFFFF

/-- Remove the first arrival a predicate takes. -/
def dropFirst (f : Arrival → Bool) : List Arrival → List Arrival
  | [] => []
  | a :: r => if f a then r else a :: dropFirst f r

/-- The arrivals left when a bucket of `len` bytes from a rank is consumed: a later run's stay (R259). -/
def eat (b rank : Nat) : Nat → Nat → Nat → List Arrival → List Arrival
  | 0, _, _, l => l
  | fuel + 1, off, len, l =>
    if len ≤ off then l else
    match l.find? fun a => a.bucket = b && a.rank = rank && a.offset = off with
    | none => l
    | some a => eat b rank fuel (off + a.payload.length) len
        (dropFirst (fun x => x.bucket = b && x.rank = rank && x.offset = off) l)

/-- The count a rank has sent for a segment, and the arrivals left without it. -/
def countFrom (got : List Arrival) (seg rank : Nat) : Option Nat :=
  (got.find? fun a => a.bucket = seg && a.rank = rank && a.offset = countMark).map fun a => ofLe a.payload
def eatCount (seg rank : Nat) (got : List Arrival) : List Arrival :=
  dropFirst (fun a => a.bucket = seg && a.rank = rank && a.offset = countMark) got

/-! ## Reduction (R253, R256) -/

/-- Status bits with a count of bytes, spread over elements of `w` bytes. -/
def spread (w : Nat) : List (Nat × Nat) → List NStatus
  | [] => []
  | (n, st) :: r => List.replicate (n / w) (NStatus.ofNat st) ++ spread w r

/-- Wire bytes of reductions as binary32 values. -/
def wireVals (wire : Nat) : Nat → Bytes → List W32
  | 0, _ => []
  | n + 1, bs =>
    let w := if wire = 0 then 2 else 4
    let v := ofLe (bs.take w)
    (if wire = 0 then BitVec.ofNat 32 (v * 65536) else BitVec.ofNat 32 v) :: wireVals wire n (bs.drop w)

/-- One addition of the tree with the bits it sets. -/
def reduceAdd (x : W32 × NStatus) (y : W32 × NStatus) : W32 × NStatus :=
  let (v, st) := treeAdd x.1 y.1
  (v, (x.2.or y.2).or st)

/-- The running value of a bucket: own elements, then each child in ascending level. -/
def running (own : List W32) (kids : List (List (W32 × NStatus))) : List (W32 × NStatus) :=
  kids.foldl (fun acc k => (acc.zip k).map fun (a, b) => reduceAdd a b)
    (own.map fun w => (w, { NStatus.zero with nanInput := (ofB32 w).isNan }))

/-- Narrow to the wire, with OVERFLOW where rounding made an infinity. -/
def toWire (wire : Nat) (x : W32 × NStatus) : Bytes × NStatus :=
  if wire = 0 then
    let v := ofB32 x.1
    let r := v.round fmtBf16
    (leBytes 2 (toBf16 x.1), if v.isFin && r.isInf then { x.2 with overflow := true } else x.2)
  else (leBytes 4 x.1.toNat, x.2)

/-! ## Sending -/

/-- Inject a bucket's bytes toward a rank in packets of at most 4,096 bytes; `st` gives each byte's status. -/
def sendBucket (c : Coll) (rank bucket : Nat) (bs : Bytes) (st : List NStatus) (s : State) : State :=
  let dst := (c.members s.cont.collSec).getD rank 0
  let vl := if c.op = 4 ∨ c.op = 5 then 2 else 1
  (List.range (cdiv bs.length 4096)).foldl (fun s k =>
    let part := (bs.drop (4096 * k)).take 4096
    let ss := (st.drop (4096 * k)).take 4096
    injectPacket
      { vl0Packet s dst 1 part with
        vl := vl, origVl := vl, dstHearth := c.hearth, flow := c.id, seq := bucket, offset := 4096 * k
        nstatus := (ss.foldl NStatus.or NStatus.zero).toNat } s) s

/-- Send the count of a segment (R255, R259). -/
def sendCount (c : Coll) (rank seg n : Nat) (s : State) : State :=
  let dst := (c.members s.cont.collSec).getD rank 0
  injectPacket { vl0Packet s dst 1 (leBytes 8 n) with
    vl := 1, origVl := 1, dstHearth := c.hearth, flow := c.id, seq := seg, offset := countMark } s

/-! ## Destinations -/

/-- The run of a collective. -/
def State.collRun (s : State) (id : Nat) : CollRun := tget CollRun.empty s.coll.runs id
def setCollRun (id : Nat) (r : CollRun) (s : State) : State :=
  { s with coll := { s.coll with runs := tset s.coll.runs id r } }

/-- A collective's duty is done: the arrivals it consumed are gone. -/
def duty (c : Coll) (k : Nat) (left : List Arrival → List Arrival) (s : State) : State :=
  let r := s.collRun c.id
  setCollRun c.id { r with doneBuckets := k :: r.doneBuckets, got := left r.got } s

/-- A reduce-scatter of a factor region on a step without curvature does not run (R175). -/
def State.dormant (s : State) (c : Coll) : Bool := s.factorColl c && !s.curv s.job.step

/-- Bytes of a collective's destination. -/
def Coll.dstSize (c : Coll) (sec : Words) : Nat :=
  match c.op with
  | 0 => (if c.cnt then 256 else 0) + 4 * c.count sec c.rank
  | 1 => c.before sec c.groupN
  | 3 => 4096 + c.groupN * c.elems
  | 4 => 0
  | _ => c.elems

/-- Do two collectives write intersecting destinations? -/
def Coll.clash (c d : Coll) (sec : Words) : Bool :=
  c.toTile == d.toTile && (!c.toTile || c.dstCore == d.dstCore)
    && decide (c.dstVa < d.dstVa + d.dstSize sec) && decide (d.dstVa < c.dstVa + c.dstSize sec)

/-- Every consuming item of a collective has completed in this attempt. -/
def State.consumed (s : State) (c : Coll) : Bool :=
  c.consKind == 0 || s.groupList.all fun g => g.slots.all fun x =>
    !(x.kind == c.consKind && x.layer == c.consLayer) || s.isDone x.kind x.layer x.mb

/-- R250: an earlier collective's consumers still need the destination. -/
def State.destBlocked (s : State) (c : Coll) : Bool :=
  (s.colls.takeWhile fun d => d.id != c.id).any fun d => !s.dormant d && d.clash c s.cont.collSec && !s.consumed d

/-- R162 in a core's tile store. -/
def State.relocTile (s : State) (core va m : Nat) : Nat :=
  match s.cont.regions.find? fun r => r.core == some core && decide (r.base ≤ va) && decide (va < r.base + r.size) with
  | some r => va + m * r.stride
  | none => va

/-- Write at an offset of the destination of run m. -/
def writeDst (c : Coll) (m off : Nat) (bs : Bytes) (s : State) : State :=
  if c.toTile then
    let x := s.core c.dstCore
    setCore c.dstCore { x with tile := memStore x.tile (s.relocTile c.dstCore c.dstVa m + off) bs } s
  else vmStore (s.reloc c.dstVa m + off) bs s

/-- Where a collective reads: relocated, and in the current slot when the address lies in a block's state (R225). -/
def State.srcBase (s : State) (c : Coll) (m : Nat) : Nat :=
  match s.blockAt c.srcVa with
  | some b => c.srcVa + (s.job.committed % 2) * b.slotBytes
  | none => s.reloc c.srcVa m

/-- The kneader reads a range through the home pantries; nothing happens while a block of it is uncorrectable (R99, R245,
R320). -/
def kneaderRead (c : Coll) (va n : Nat) (k : Bytes → State → State) (s : State) : State :=
  if s.vmGood va n then k (s.vmRead va n) (readTouch c.hearth va n s) else s

/-! ## One bucket -/

/-- Reduce-scatter bucket b = (seg, off, len) of run m, when its inputs are there. -/
def reduceBucket (c : Coll) (m b seg off len : Nat) (s : State) : State :=
  let sec := s.cont.collSec
  let r := s.collRun c.id
  let n := len / c.wireW
  let kids := (c.children seg).map fun k => arrived r b k len
  if kids.any Option.isNone || (c.rel seg = 0 && s.destBlocked c) then s else
  let src := s.srcBase c m + (if c.cnt then 256 else 0) + 4 * (c.before sec seg) + 4 * (off / c.wireW)
  kneaderRead c src (4 * n) (fun bs s =>
    let vals := running (wireVals 1 n bs) (kids.filterMap fun o => o.map fun (bs, st) =>
      (wireVals c.wire n bs).zip (spread c.wireW st))
    let s := duty c b (fun l => (c.children seg).foldl (fun l k => eat b k (len + 1) 0 len l) l) s
    if c.rel seg = 0 then
      let s := writeDst c m ((if c.cnt then 256 else 0) + 4 * (off / c.wireW)) (vals.flatMap fun v => leBytes 4 v.1.toNat) s
      setCollRun c.id { s.collRun c.id with nstatus := vals.foldl (fun a v => a.or v.2) r.nstatus } s
    else
      let w := vals.map (toWire c.wire)
      sendBucket c (c.parent seg) b (w.flatMap (·.1)) (w.flatMap fun x => x.1.map fun _ => x.2) s) s

/-- A bucket's bytes are written here and forwarded down the tree (R258). -/
def spreadOn (c : Coll) (m b seg off len : Nat) (bs : Bytes) (s : State) : State :=
  let base := if c.op = 1 then c.before s.cont.collSec seg else 0
  let s := writeDst c m (base + off) bs s
  let s := (c.children seg).foldl (fun s k => sendBucket c k b bs [] s) s
  duty c b (fun l => if c.rel seg = 0 then l else eat b (c.parent seg) (len + 1) 0 len l) s

/-- All-gather or broadcast bucket: write and forward (R258). -/
def spreadBucket (c : Coll) (m b seg off len : Nat) (s : State) : State :=
  if s.destBlocked c then s
  else if c.rel seg = 0 then kneaderRead c (s.srcBase c m + off) len (spreadOn c m b seg off len) s
  else match arrived (s.collRun c.id) b (c.parent seg) len with
    | none => s
    | some (bs, _) => spreadOn c m b seg off len bs s

/-- Places for `n` more buckets of a point-to-point transfer are reported to its sender: on VL0, to core 511, as the number
the attempt has reported (R121, R258; DESIGN CHOICE, notes/assumptions/79). -/
def grantBuckets (c : Coll) (n : Nat) (s : State) : State :=
  let r := s.collRun c.id
  let dst := (c.members s.cont.collSec).getD c.root 0
  if n = 0 then s
  else injectPacket { vl0Packet s dst 3 (leBytes 4 (r.credit + n)) with dstCore := 511, flow := c.id }
    (setCollRun c.id { r with credit := r.credit + n } s)

/-- Point-to-point bucket (R258). -/
def p2pBucket (c : Coll) (m b off len : Nat) (s : State) : State :=
  let r := s.collRun c.id
  if c.op = 4 then
    if r.credit ≤ r.spent then s
    else kneaderRead c (s.srcBase c m + off) len (fun bs s =>
      let s := setCollRun c.id { s.collRun c.id with spent := r.spent + 1 } s
      duty c b id (sendBucket c c.root b bs [] s)) s
  else match arrived r b c.root len with
    | none => s
    | some (bs, _) =>
      if s.destBlocked c then s else
      let s := duty c b (eat b c.root (len + 1) 0 len) (writeDst c m off bs s)
      let left := (c.buckets s.cont.collSec).length - (s.collRun c.id).doneBuckets.length
      if 3 ≤ left then grantBuckets c 1 s else s

/-- R259: the chunk for rank j: its place, and its bytes clipped to the capacity. -/
def State.a2aVa (s : State) (c : Coll) (m j : Nat) : Nat := s.srcBase c m + 4096 + j * c.elems
def State.a2aCount (s : State) (c : Coll) (m j : Nat) : Nat := min (ofLe (s.vmRead (s.srcBase c m + 4 * j) 4)) c.elems

/-- First bucket of segment j of an all-to-all. -/
def Coll.a2aFirst (c : Coll) (j : Nat) : Nat := j * cdiv c.elems c.bucketSize

/-- Everything an all-to-all reads can be read. -/
def State.a2aGood (s : State) (c : Coll) (m : Nat) : Bool :=
  s.vmGood (s.srcBase c m) (4 * c.groupN) && (List.range c.groupN).all fun j => s.vmGood (s.a2aVa c m j) (s.a2aCount c m j)

/-- Send the chunk for rank j: its count, and its bytes in their buckets. -/
def a2aSend (c : Coll) (m j : Nat) (s : State) : State :=
  let n := s.a2aCount c m j
  let va := s.a2aVa c m j
  let bs := s.vmRead va n
  let s := sendCount c j (c.a2aFirst j) n (readTouch c.hearth va n s)
  (List.range (cdiv n c.bucketSize)).foldl (fun s k =>
    sendBucket c j (c.a2aFirst j + k) ((bs.drop (k * c.bucketSize)).take c.bucketSize) [] s) s

/-- The chunk from rank i, once its count and all of it have arrived. -/
def a2aArrived (c : Coll) (r : CollRun) (i : Nat) : Option Bytes :=
  let b0 := c.a2aFirst c.rank
  match countFrom r.got b0 i with
  | none => none
  | some len =>
    (List.range (cdiv len c.bucketSize)).foldl (fun acc k => acc.bind fun bs =>
      (arrived r (b0 + k) i (min c.bucketSize (len - k * c.bucketSize))).map fun x => bs ++ x.1) (some [])

/-- The arrivals left when the chunk of rank i, of `len` bytes, is consumed. -/
def a2aLeft (c : Coll) (i len : Nat) (got : List Arrival) : List Arrival :=
  (List.range (cdiv len c.bucketSize)).foldl (fun l k =>
      let n := min c.bucketSize (len - k * c.bucketSize)
      eat (c.a2aFirst c.rank + k) i (n + 1) 0 n l)
    (eatCount (c.a2aFirst c.rank) i got)

/-- Write the count and the chunk of rank i (R259). -/
def a2aWrite (c : Coll) (m i : Nat) (bs : Bytes) (s : State) : State :=
  writeDst c m (4096 + i * c.elems) bs (writeDst c m (4 * i) (leBytes 4 bs.length) s)

/-- All-to-all duty i: the chunk from rank i, this device's own among them. -/
def a2aDuty (c : Coll) (m i : Nat) (s : State) : State :=
  if s.destBlocked c then s
  else if i = c.rank then
    kneaderRead c (s.a2aVa c m i) (s.a2aCount c m i) (fun bs s => duty c (100000 + i) id (a2aWrite c m i bs s)) s
  else match a2aArrived c (s.collRun c.id) i with
    | some bs => duty c (100000 + i) (a2aLeft c i bs.length) (a2aWrite c m i bs s)
    | none => s

/-- The count of segment seg: own count and the children's (R255). -/
def countBucket (c : Coll) (m seg : Nat) (s : State) : State :=
  let r := s.collRun c.id
  let kids := (c.children seg).map fun k => countFrom r.got seg k
  if kids.any Option.isNone || (c.rel seg = 0 && s.destBlocked c) then s else
  kneaderRead c (s.srcBase c m) 8 (fun bs s =>
    let n := ((kids.filterMap id).foldl (· + ·) (ofLe bs)) % 2 ^ 64
    let s := duty c (200000 + seg) (fun l => (c.children seg).foldl (fun l k => eatCount seg k l) l) s
    if c.rel seg = 0 then writeDst c m 0 (leBytes 8 n) s else sendCount c (c.parent seg) seg n s) s

/-- Work that a collective's run has to finish, as codes of `doneBuckets`. -/
def Coll.duties (c : Coll) (sec : Words) : List Nat :=
  if c.op = 3 then (List.range c.groupN).map (100000 + ·)
  else List.range (c.buckets sec).length ++ (if c.cnt then (List.range c.groupN).map (200000 + ·) else [])

/-- Carry a collective's run as far as what has arrived allows. -/
def pumpColl (c : Coll) (s : State) : State :=
  match (s.collRun c.id).cur with
  | none => s
  | some m =>
    let sec := s.cont.collSec
    let open_ (k : Nat) (s : State) : Bool := !(s.collRun c.id).doneBuckets.contains k
    if c.op = 3 then
      (List.range c.groupN).foldl (fun s i => if open_ (100000 + i) s then a2aDuty c m i s else s) s
    else
      let s := ((c.buckets sec).zipIdx).foldl (fun s (x, b) =>
        if !open_ b s then s else
        let (seg, off, len) := x
        match c.op with
        | 0 => reduceBucket c m b seg off len s
        | 1 | 2 => spreadBucket c m b seg off len s
        | _ => p2pBucket c m b off len s) s
      if c.cnt then (List.range c.groupN).foldl (fun s seg =>
        if open_ (200000 + seg) s then countBucket c m seg s else s) s
      else s

/-- Carry every collective on. -/
def pumpColls (s : State) : State := s.colls.foldl (fun s c => pumpColl c s) s

/-- Has the trigger of a collective's run m occurred (R175, R248, R250)? -/
def State.triggered (s : State) (c : Coll) (m : Nat) : Bool :=
  !s.dormant c &&
  let step := s.job.st.stepping && s.bnd.order == 0 && s.coll.released && s.job.installing.isEmpty
  match c.trigger with
  | 0 => step && m == 0
  | 1 => step && s.isDone 1 c.layer m
  | 2 => step && s.isDone 2 c.layer m
  | 3 => step && m == 0 && s.isDone 3 c.layer 0
  | 4 => step && m == 0 && s.isDone 4 c.layer 0
  | _ => s.bnd.order == 5 && m == 0

/-- The collective whose identifier this is. -/
def State.coll? (s : State) (id : Nat) : Option Coll := s.colls.find? fun c => c.id == id

/-- Start a run: all-to-all sends at once, a receive reports its first three places, the rest follows as inputs allow. -/
def beginColl (c : Coll) (m : Nat) (s : State) : State :=
  if c.op = 3 && !s.a2aGood c m then s else
  let r := s.collRun c.id
  let s := setCollRun c.id { r with cur := some m, doneBuckets := [] } s
  let s := if c.op = 3 then
      (List.range c.groupN).foldl (fun s j => if j = c.rank then s else a2aSend c m j s) s
    else if c.op = 5 then grantBuckets c (min 3 (c.buckets s.cont.collSec).length) s
    else s
  pumpColl c s

/-- Packets of a collective still on their way from this device: not acknowledged by the next hop (R250). -/
def State.unsent (s : State) (c : Coll) : Bool :=
  let mine (p : Packet) : Bool := p.kind == 1 && p.flow == c.id && p.src == s.fabId
  s.fab.inject.any mine
    || s.fab.ports.any fun (_, x) => x.queue.any (fun w => mine w.p) || x.unacked.any fun u => mine u.2.2.p

/-- COLLECTIVE_COMPLETE: every byte to receive written, every byte to send acknowledged (R250, R254). -/
def collectiveCompleteState (id : Nat) (s : State) : State :=
  match s.coll? id with
  | none => s
  | some c =>
    let r := s.collRun id
    match r.cur with
    | none => s
    | some m =>
      if (c.duties s.cont.collSec).all (fun k => r.doneBuckets.contains k) && !s.unsent c then
        setCollRun id { r with cur := none, finished := m :: r.finished, doneBuckets := [] } s
      else s

/-- Rank of a device in a collective's group. -/
def Coll.rankOf (c : Coll) (sec : Words) (dev : Nat) : Option Nat :=
  let ms := c.members sec
  if ms.contains dev then some (ms.idxOf dev) else none

/-- Take a data packet of the present step and attempt into its collective (R251). -/
def takePacket (p : Packet) (s : State) : State :=
  match s.coll? p.flow with
  | none => s
  | some c =>
    match c.rankOf s.cont.collSec p.src with
    | none => s
    | some k =>
      let r := s.collRun c.id
      pumpColl c (setCollRun c.id { r with got := r.got ++ [⟨p.seq, k, p.offset, p.nstatus, p.payload⟩] } s)

/-- The receiver of a point-to-point collective reports bucket places (R258). -/
def bucketCredit (p : Packet) (s : State) : State :=
  match s.coll? p.flow with
  | none => s
  | some c =>
    let r := s.collRun c.id
    if c.op = 4 && (c.members s.cont.collSec).getD c.root 0xFFFF == p.src then
      pumpColl c (setCollRun c.id { r with credit := max r.credit (ofLe p.payload) } s)
    else s

/-- Runs a collective has in a step. -/
def State.collRuns (s : State) (c : Coll) : Nat := if c.trigger = 1 ∨ c.trigger = 2 then s.params.mbPerStep else 1

/-- Collectives of the step proper that are all complete. -/
def State.collsDone (s : State) : Bool :=
  s.colls.all fun c => c.trigger == 5 || s.dormant c || decide (s.collRuns c ≤ (s.collRun c.id).finished.length)

/-- Status bits of every segment rooted here (R256). -/
def State.collStatus (s : State) : NStatus := s.coll.runs.foldl (fun a r => a.or r.2.nstatus) NStatus.zero

end Sys2Proof.Machine
end

