-- ==== Sys2Proof/Machine/Commit.lean ====
section
/-! DEFINITION. Commit, abort, repeat and halt (chapters 1, 10 and 20). -/

namespace Sys2Proof.Machine

/-! ## Messages (Table 10.5) -/

def kPREPARE : Nat := 0
def kCOMMIT : Nat := 1
def kABORT : Nat := 2
def kABORT_REQ : Nat := 3
def kQUERY : Nat := 4
def kDECISION : Nat := 5
def kHALT : Nat := 6

/-- A commit message of the step and attempt in progress (R262). -/
def State.msg (s : State) (code origin : Nat) (commit : Bool) : CommitMsg :=
  { digest := s.coll.digest, step := s.job.step, attempt := s.job.attempt, sender := s.devId, code := code,
    origin := origin, commit := commit }

/-- The content of a commit message as its packet carries it (DESIGN CHOICE, notes/assumptions/78). -/
def CommitMsg.bytes (kind : Nat) (m : CommitMsg) : Bytes :=
  leBytes 1 kind ++ leBytes 8 m.digest.toNat ++ leBytes 8 m.step ++ leBytes 1 m.attempt ++ leBytes 2 m.sender
    ++ leBytes 2 m.code ++ leBytes 2 m.origin ++ leBytes 1 (if m.commit then 1 else 0)

/-- Send a message of Table 10.5 on VL0. -/
def sendCommit (dst kind : Nat) (m : CommitMsg) (s : State) : State :=
  sendControl dst m.step m.attempt (.commit dst kind m) (CommitMsg.bytes kind m) s

/-- Send a message to every other member of the job. -/
def sendMembers (kind : Nat) (m : CommitMsg) (s : State) : State :=
  s.others.foldl (fun s d => sendCommit d kind m s) s

/-- Member device of a commit rank. -/
def State.member (s : State) (r : Nat) : Nat := s.coll.members.getD r 0xFFFF
def State.commitRoot (s : State) : Nat := s.member 0

/-- Devices of this device's children in the commit tree, and of its parent. -/
def State.kids (s : State) : List Nat := (treeChildren s.coll.members.length s.rank).map s.member
def State.parentDev (s : State) : Nat := s.member (treeParent s.rank)

/-- The step in progress has not committed here. -/
def State.inStep (s : State) : Bool := s.job.st.stepping && s.bnd.order == 0

/-! ## Discarding an attempt -/

/-- A core with no work on it; tile store and side memory keep what was written (R269). -/
def CoreSt.idle (c : CoreSt) : CoreSt :=
  { c with prog := [], pc := 0, inflight := [], side := [], barrier := none, recSlot := 0, ctx := [], credit := [], spent := []
           granted := [] }

/-- Log the misses of an item that no replay will serve, with an outcome (R129, Table 20.2). -/
def logMisses (g : Nat) (outcome : Nat) (s : State) : State :=
  ((s.group g).misses).foldl (fun s m =>
    logAdd TRANSLATION_MISS 1 (m.core / 96) m.core m.layer
      ([m.ctx + (if m.write then 256 else 0), m.tag] ++ w64 m.va ++ [s.job.attempt, outcome]) s) s

/-- A packet of the present step's attempt: a stream tile, a collective's data or a credit report. A root delivery carries
no step, and a control message is not of the attempt's work: they stay (R261, R269). -/
def State.ofAttempt (s : State) (p : Packet) : Bool :=
  [0, 1, 3].contains p.kind && p.step == s.job.step && p.attempt == s.job.attempt

/-- Stop every item and collective of the attempt and drop its packets (R269); the steward completes the mappings its
misses began (R131). -/
def clearAttempt (s : State) : State :=
  let keep (p : Packet) : Bool := !s.ofAttempt p
  let s := oweMisses (s.groups.flatMap fun x => x.2.misses) s
  { s with
    groups := []
    cores := s.cores.map fun (n, c) => (n, c.idle)
    lstat := []
    mm := { s.mm with slots := [] }
    job := { s.job with done := [] }
    leaven := { s.leaven with folded := false }
    coll := { s.coll with runs := [], phaseOne := false, prepGot := [], prepSent := false, decided := none
                          queries := [], silences := 0 }
    fab := { s.fab with
      inject := s.fab.inject.filter keep
      delivered := s.fab.delivered.filter keep
      ports := s.fab.ports.map fun (n, x) => (n, { x with queue := x.queue.filter fun w => keep w.p }) } }

/-- Deliver the collective packets kept for the step and attempt now in progress; a stream's wait for it (R264). -/
def deliverEarly (s : State) : State :=
  let mine (p : Packet) : Bool := p.kind != 0 && p.step == s.job.step && p.attempt == s.job.attempt
  let rest := s.coll.early.filter fun p => !mine p
  (s.coll.early.filter mine).foldl (fun s p => takePacket p s) { s with coll := { s.coll with early := rest } }

/-- Start an attempt of the step in progress from its first slot. -/
def startAttempt (s : State) : State :=
  deliverEarly { s with
    job := { s.job with stepStart := s.localUs, abortAsked := false }
    gov := { s.gov with minMv := s.gov.vcore.foldl min 0xFFFF, powerSum := 0, powerN := 0 } }

/-- A job that stops running serves nobody: queued requests go without a response, their last served words stay (R340);
what else waited or ran at order 5 ends too (DEDUCED, notes/assumptions/17). -/
def endEval (s : State) : State :=
  { s with eval := { s.eval with queue := [], refused := [], running := none, dueSegs := [], est := 0 } }

/-- Enter HALTED now (R270, R374): HALT to every member, the attempt discarded, waiting pages retired (R321). -/
def haltNow (code : Nat) (s : State) : State :=
  if !s.job.st.live && s.job.st != .loaded then s else
  let s := sendMembers kHALT (s.msg code s.devId false) s
  let s := bump 0x7200 0x0D 1 32 s
  let s := hushAll 1000 (cutPieces (fun _ => true) (clearAttempt s))
  let s := { s with job := { s.job with pend := none, taken := none, haltPend := none, installing := [] }, bnd := Boundary.reset }
  endEval (governorStop (retirePages (setJob .halted code s)))

/-- A halt cause: at once, or at order 8 of a boundary already under way (R270, R438). -/
def halt (code : Nat) (s : State) : State :=
  if s.bnd.order = 0 || !s.job.st.stepping then haltNow code s
  else if s.job.haltPend.isSome then s
  else { s with job := { s.job with haltPend := some code } }

/-- Source, hearth, unit and layer of a log record (R383). -/
structure Where where
  src : Nat
  hearth : Nat
  unit : Nat
  layer : Nat
  deriving DecidableEq, Repr

def Where.plain : Where := ⟨8, 0xFF, 0, 0xFFFF⟩

/-- Answer a query (R268), once for each step, attempt and sender: a further one is its duplicate (R300; DEDUCED,
notes/assumptions/80). -/
def answerQuery (dev step attempt : Nat) (commit : Bool) (s : State) : State :=
  if s.coll.answered.contains (step, attempt, dev) then s else
  sendCommit dev kDECISION { s.msg 0 s.devId commit with step := step, attempt := attempt }
    { s with coll := { s.coll with answered := (step, attempt, dev) :: s.coll.answered } }

/-- The commit root answers the queries it holds with its decision (R268). -/
def answerHeld (commit : Bool) (s : State) : State :=
  s.coll.queries.foldl (fun s d => answerQuery d s.job.step s.job.attempt commit s)
    { s with coll := { s.coll with queries := [] } }

/-- The attempt in progress ends: its misses and its cause are logged, its work cleared, its number passed. A cause of
this device that went to the commit root as ABORT_REQ has been logged then. -/
def endAttempt (cause origin : Nat) (extra : List Nat) (w : Where) (s : State) : State :=
  let s := (List.range s.groupList.length).foldl (fun s g => logMisses g 5 s) s
  let s := if cause = 0 || (s.coll.prepSent && origin == s.devId) then s
    else logAdd cause w.src w.hearth w.unit w.layer ([s.job.attempt, origin] ++ extra) s
  let s := hushAll 200 (cutPieces (fun _ => true) (clearAttempt (answerHeld false (bump 0x7200 0x0C 1 64 s))))
  { s with job := { s.job with causes := s.job.causes ++ [(cause, origin)], attempt := s.job.attempt + 1 } }

/-- Discard the attempt in progress and start the next (R264, R265, R269). `cause` 0 marks an operator's ABORT_STEP;
`extra` are the words w2 onward of the record. -/
def discardAttempt (cause origin : Nat) (extra : List Nat) (s : State) (w : Where := Where.plain) : State :=
  if s.inStep then
    let s := endAttempt cause origin extra w s
    if s.eff.repeatLimit < s.job.attempt then
      haltNow REPEAT_LIMIT (logPlain REPEAT_LIMIT [s.job.attempt, cause] s)
    else startAttempt (setJob .repeating 0 s)
  else s

/-- A cause of R30 on this device (R265, R266, R437). -/
def abortOwn (cause : Nat) (extra : List Nat) (s : State) (w : Where := Where.plain) : State :=
  if !s.inStep then s
  else if s.coll.prepSent then
    let s := if cause = 0 then s
      else logAdd cause w.src w.hearth w.unit w.layer ([s.job.attempt, s.devId] ++ extra) s
    sendCommit s.commitRoot kABORT_REQ (s.msg cause s.devId false) s
  else discardAttempt cause s.devId extra (sendMembers kABORT (s.msg cause s.devId false) s) w

/-! ## Commit -/

/-- R266, R436: an ABORT_STEP that lost the race with the commit is logged as ignored, with kind 8. -/
def abortIgnored (s : State) : State :=
  logPlain 0 ([8, s.job.attempt] ++ w64 (if s.bnd.order = 0 then s.job.step else s.job.committed)) s

/-- Step n commits on this device: commit phase two is complete, order 1 of Table 01.6. -/
def commitStep (s : State) : State :=
  let n := s.job.step
  let s := if s.job.abortAsked then abortIgnored { s with job := { s.job with abortAsked := false } } else s
  let (s, limit) := commitRoots n s
  let s := { s with
    job := { s.job with
      committed := n, commitUs := s.localUs
      haltPend := if limit then some ROOT_MISSED else s.job.haltPend }
    bnd := { Boundary.reset with order := 2, started := s.localUs, orderStart := s.localUs }
    eff := s.regs
    ingest := { s.ingest with lateBounds := 0 }
    eval := { s.eval with spent := 0 } }
  if s.job.st = .repeating then setJob .running 0 s else s

/-- Forward COMMIT to the children, then commit. -/
def takeCommit (s : State) : State :=
  let s := s.kids.foldl (fun s d => sendCommit d kCOMMIT (s.msg 0 s.devId true) s) s
  commitStep s

/-- R263: send PREPARE, or at the commit root decide, once phase one is met here and PREPARE is in from every child. -/
def pumpCommit (s : State) : State :=
  if !s.inStep || !s.coll.phaseOne || s.coll.prepSent || !(s.kids.all fun d => s.coll.prepGot.contains d) then s
  else if s.rank = 0 then
    takeCommit (answerHeld true { s with coll := { s.coll with decided := some true, prepSent := true } })
  else
    let s := { s with coll := { s.coll with prepSent := true } }
    sendCommit s.parentDev kPREPARE (s.msg 0 s.devId false) s

/-- Every slot of every group has run. -/
def State.slotsDone (s : State) : Bool :=
  ((s.groupList).zipIdx).all fun (g, i) => decide (g.slots.length ≤ (s.group i).pos) && (s.group i).item.isNone

/-- Commit phase one (Table 01.5): all buckets reduced, all owned blocks updated, folds complete. -/
def State.phaseOneMet (s : State) : Bool :=
  s.slotsDone && s.collsDone && (!s.curv s.job.step || s.leaven.folded || !s.probs.any fun p => p.role == 0)

/-- COMMIT_PHASE_ONE. -/
def phaseOneState (s : State) : State :=
  if s.inStep && s.phaseOneMet && !s.coll.phaseOne then
    pumpCommit { s with coll := { s.coll with phaseOne := true } }
  else s

/-! ## Received messages -/

/-- A message concerns this job (R262). -/
def State.mine (s : State) (m : CommitMsg) : Bool := m.digest == s.coll.digest

/-- It is for the step in progress. -/
def State.forStep (s : State) (m : CommitMsg) : Bool := s.mine m && s.inStep && m.step == s.job.step

/-- R264: an item of a higher attempt discards every attempt below it. -/
def catchUp (attempt cause origin : Nat) : Nat → State → State
  | 0, s => s
  | fuel + 1, s =>
    if s.inStep && decide (s.job.attempt < attempt) then
      catchUp attempt cause origin fuel (discardAttempt cause origin [] s)
    else s

/-- HIGHER_ATTEMPT. A data packet is kept and delivered to its attempt. -/
def higherState (m : CommitMsg) (isAbort : Bool) (data : Option Packet) (s : State) : State :=
  if !s.inStep || m.step != s.job.step || (data.isNone && !s.mine m) || m.attempt ≤ s.job.attempt then s else
  let s := match data with
    | some p => { s with coll := { s.coll with early := s.coll.early ++ [p] } }
    | none => s
  let cause := if isAbort then m.code else STEP_REPEAT_FAULT
  catchUp m.attempt cause (if isAbort then m.origin else m.sender) 16 s

/-- Bring the attempt up to a message's, where it is higher. -/
def level (m : CommitMsg) (isAbort : Bool) (s : State) : State :=
  if s.forStep m then higherState m isAbort none s else s

/-- PREPARE. -/
def prepareState (m : CommitMsg) (s : State) : State :=
  let s := level m false s
  if s.forStep m && m.attempt = s.job.attempt && s.kids.contains m.sender && !s.coll.prepGot.contains m.sender then
    pumpCommit { s with coll := { s.coll with prepGot := m.sender :: s.coll.prepGot } }
  else s

/-- COMMIT. -/
def commitState (m : CommitMsg) (s : State) : State :=
  let s := level m false s
  if s.forStep m && m.attempt = s.job.attempt && s.coll.prepSent then takeCommit s else s

/-- ABORT (R265): an attempt whose COMMIT has not come is discarded. -/
def abortState (m : CommitMsg) (s : State) : State :=
  let s := level m true s
  if s.forStep m && m.attempt = s.job.attempt then discardAttempt m.code m.origin [] s else s

/-- ABORT_REQ at the commit root (R266). -/
def abortReqState (m : CommitMsg) (s : State) : State :=
  let s := level m true s
  if s.forStep m && m.attempt = s.job.attempt && s.rank = 0 then
    discardAttempt m.code m.sender [] (sendMembers kABORT (s.msg m.code m.sender false) s)
  else s

/-- The commit root's decision for an attempt of a committed step: the attempt that committed is that of the boundary's
own step, or the one its step record counts (R268, Table 16.7). -/
def State.committedAs (s : State) (n a : Nat) : Bool :=
  if n = s.job.step then a == s.job.attempt
  else
    let r := tget [] s.history (n % 4096)
    ofLe ((r.drop 4).take 8) != n || ofLe ((r.drop 2).take 1) == a + 1

/-- QUERY at the commit root (R268). -/
def queryState (m : CommitMsg) (s : State) : State :=
  if !s.mine m || s.rank != 0 then s
  else if m.step ≤ s.job.committed then answerQuery m.sender m.step m.attempt (s.committedAs m.step m.attempt) s
  else
    let s := level m false s
    if s.forStep m then
      if m.attempt < s.job.attempt then answerQuery m.sender m.step m.attempt false s
      else if s.coll.queries.contains m.sender then s
      else { s with coll := { s.coll with queries := s.coll.queries ++ [m.sender] } }
    else s

/-- DECISION at a querier (R268). -/
def decisionState (m : CommitMsg) (s : State) : State :=
  let s := level m false s
  if s.forStep m && m.attempt = s.job.attempt && s.coll.prepSent then
    if m.commit then takeCommit s else discardAttempt STEP_REPEAT_FAULT m.sender [] s
  else s

/-- HALT (R270): the comparison of digests is skipped for the commit root's halt of R271. -/
def haltState (m : CommitMsg) (s : State) : State :=
  if (s.mine m || (m.code == DESCRIPTOR_INVALID && m.sender == s.commitRoot)) && (s.job.st.live || s.job.st == .loaded)
  then halt m.code s else s

/-- Bucket `b` of a running collective waits for rank `k` alone: the inputs of the levels below have come (R267). -/
def State.bucketWaits (s : State) (c : Coll) (b k : Nat) : Bool :=
  let r := s.collRun c.id
  if c.op = 3 then !r.doneBuckets.contains (100000 + k) && k != c.rank && (a2aArrived c r k).isNone
  else match (c.buckets s.cont.collSec)[b]? with
    | none => false
    | some (seg, _, len) =>
      let here (x : Nat) : Bool := (arrived r b x len).isSome && (!c.cnt || (countFrom r.got seg x).isSome)
      match c.op with
      | 0 => !(r.doneBuckets.contains b && (!c.cnt || r.doneBuckets.contains (200000 + seg)))
          && (c.children seg).contains k && !here k && ((c.children seg).takeWhile fun x => x != k).all here
      | 1 | 2 => !r.doneBuckets.contains b && c.rel seg != 0 && c.parent seg == k && (arrived r b k len).isNone
      | 5 => !r.doneBuckets.contains b && c.root == k && (arrived r b k len).isNone
      | _ => false

/-- The wait a silent partner leaves open (R267). -/
def State.waitsFor (s : State) (w : WaitKind) (partner item detail : Nat) : Bool :=
  match w with
  | .prepare => s.coll.phaseOne && !s.coll.prepSent && s.kids.contains partner && !s.coll.prepGot.contains partner
      && (s.kids.takeWhile fun d => d != partner).all fun d => s.coll.prepGot.contains d
  | .bucket => match s.coll? item with
    | some c => (s.collRun item).cur.isSome && (match c.rankOf s.cont.collSec partner with
      | some k => s.bucketWaits c detail k
      | none => false)
    | none => false
  | .decision => s.probIdx.any fun (p, i) => p.role = 1 && p.owner = partner && (s.run i).due = s.job.step
      && (s.run i).latchStep != s.job.step
  | .stream => s.cores.any fun (_, c) => c.ctx.any fun (_, x) =>
      let d := streamDesc x.desc
      d.memKind == 2 && !d.dir && d.peerDev == partner && d.tag == item && decide (x.fetched < x.tiles)

def waitCode : WaitKind → Nat
  | .bucket => 1 | .stream => 2 | .prepare => 3 | .decision => 4

/-- PARTNER_SILENT (R267). At order 5 no attempt runs: a silent partner of an evaluation gather is logged (DEDUCED,
notes/assumptions/76). -/
def partnerSilentState (w : WaitKind) (partner item detail : Nat) (s : State) : State :=
  if s.bnd.order = 5 && w == .bucket && s.waitsFor w partner item detail then
    logPlain PARTNER_SILENT [partner, waitCode w, item, detail, s.job.attempt]
      { s with localUs := max s.localUs (s.bnd.orderStart + s.eff.silence) }
  else if s.inStep && s.waitsFor w partner item detail then
    let s := { s with localUs := max s.localUs (s.job.stepStart + s.eff.silence) }
    let s := logPlain PARTNER_SILENT [partner, waitCode w, item, detail, s.job.attempt] s
    abortOwn STEP_REPEAT_LATE [PARTNER_SILENT] s
  else s

/-- COMMIT_OUTCOME_SILENCE (R268). -/
def outcomeSilenceState (s : State) : State :=
  if s.inStep && s.coll.prepSent then
    let s := { s with localUs := s.localUs + s.eff.silence }
    let s := logPlain PARTNER_SILENT [s.commitRoot, 5, 0, 0, s.job.attempt] s
    let s := { s with coll := { s.coll with silences := s.coll.silences + 1 } }
    if 4 ≤ s.coll.silences then halt PARTNER_SILENT s
    else sendCommit s.commitRoot kQUERY (s.msg 0 s.devId false) s
  else s

/-- A commit message of a step not yet begun here is kept until it begins (DEDUCED, notes/assumptions/32). -/
def State.ahead (s : State) (m : CommitMsg) : Bool :=
  s.mine m && s.job.st.live && decide (s.job.committed < m.step) && (!s.inStep || decide (s.job.step < m.step))
def keepMsg (kind : Nat) (m : CommitMsg) (s : State) : State :=
  if s.ahead m then { s with coll := { s.coll with held := s.coll.held ++ [(kind, m)] } } else s

/-- The messages kept for the step that begins, in the order they came. -/
def takeHeld (s : State) : State :=
  let now := s.coll.held.filter fun x => x.2.step == s.job.step
  let rest := s.coll.held.filter fun x => decide (s.job.step < x.2.step)
  now.foldl (fun s (k, m) =>
      if k = kPREPARE then prepareState m s else if k = kABORT then abortState m s
      else if k = kABORT_REQ then abortReqState m s else queryState m s)
    { s with coll := { s.coll with held := rest } }

/-- R264 for the packets kept for the step that begins: one of a higher attempt discards the attempts below it. -/
def catchUpEarly (s : State) : State :=
  s.coll.early.foldl (fun s p =>
    if p.step = s.job.step then catchUp p.attempt STEP_REPEAT_FAULT p.src 16 s else s) s

/-- The first slot of the next step begins (order 8). -/
def startStep (s : State) : State :=
  let s := clearAttempt s
  catchUpEarly <| takeHeld <| startAttempt { s with
    job := { s.job with step := s.job.committed + 1, attempt := 0, causes := [], fencedInStep := 0, logInStep := 0
                        loggedOnce := [], replayed := [], eccLogged := [] }
    fab := { s.fab with counted := [] }
    gov := { s.gov with gateLogged := false }
    bnd := Boundary.reset }

/-- R271: the commit root lets step work begin once every device's digest agrees. -/
def releaseAll (s : State) : State :=
  if s.rank = 0 && s.coll.digestSent && decide (s.coll.members.length ≤ s.coll.digests.length + 1) then
    let s := s.others.foldl (fun s d => sendWords d 9 [s.coll.digest.toNat] s) s
    { s with coll := { s.coll with released := true } }
  else s

/-- DIGEST_EXCHANGE: a digest on its way up the commit tree, or the root's reply. -/
def digestState (sender : Nat) (d : W64) (s : State) : State :=
  if !s.job.st.live && s.job.st != .loaded then s
  else if s.rank = 0 then
    if d != s.coll.digest then
      let s := sendMembers kHALT (s.msg DESCRIPTOR_INVALID s.devId false) s
      halt DESCRIPTOR_INVALID s
    else releaseAll { s with coll := { s.coll with
      digests := (sender, d) :: s.coll.digests.filter fun x => x.1 != sender } }
  else if sender = s.commitRoot then
    if s.coll.digestSent then { s with coll := { s.coll with released := true } } else s
  else sendWords s.parentDev 8 [sender, d.toNat] s

end Sys2Proof.Machine
end

