-- ==== Sys2Proof/Machine/CoreData.lean ====
section
/-! DEFINITION. Where the elements of a stream lie, how they are read, written and delivered, and the operands of an
instruction as values (chapters 3, 5 and 6). -/

namespace Sys2Proof.Machine

/-! ## The item on a core -/

/-- The group whose mask selects a core (R165: at most one). -/
def State.coreGroup (s : State) (n : Nat) : Option Nat :=
  (List.range s.groupList.length).find? fun g => (s.groupOf g).cores.contains n

/-- The work item a core runs. -/
def State.coreItem (s : State) (n : Nat) : Option Item := (s.coreGroup n).bind fun g => (s.group g).item

/-- The step number an item's rounding key uses (R73, R183); while a job is installed, the committed step (R227). -/
def State.itemStep (s : State) (it : Item) : Nat :=
  match it.kind with
  | .eval _ _ => s.job.committed
  | _ => if s.job.installing.isEmpty then s.job.step else s.job.committed

/-- The item runs `U_PROG` + 1 of its layer. -/
def State.converts (s : State) (it : Item) : Bool :=
  it.kind == .upd && (match s.layer? it.layer with | some l => it.prog == l.uProg + 1 | none => false)

/-- R162 and R234: what is added to an address of the present item, in the tile store of a core or in main memory. An
item of step n reads the half of the ingest region that holds step n (DEDUCED from R181, notes/assumptions/26). -/
def State.shift (s : State) (core : Nat) (main : Bool) (a : Nat) : Nat :=
  match s.coreItem core with
  | none => 0
  | some it =>
    let home : Option Nat := if main then none else some core
    let str := match s.cont.regions.find? fun r => r.core == home && decide (r.base ≤ a) && decide (a < r.base + r.size) with
      | some r => it.mb * r.stride + (if r.kind == .ingest then s.itemStep it % 2 * (r.size / 2) else 0)
      | none => 0
    let slot := if main && s.converts it && s.itemStep it % 2 == 1 then
        match s.blockAt a with
        | some b => b.slotBytes
        | none => 0
      else 0
    str + slot

/-! ## Stream geometry (R112, R113) -/

/-- Bits of one element. -/
def StreamDesc.bits (d : StreamDesc) : Nat := if d.scaleArr then 8 else elemBits (opFmt d.fmt).elemFmt

/-- Elements of a data tile (Table 05.4). -/
def StreamDesc.per (d : StreamDesc) : Nat :=
  match d.tileKind with
  | 0 | 1 => 2048
  | 2 => 1024
  | _ => linBytes d.linTile * 8 / d.bits

/-- Tiles of a stream. -/
def StreamDesc.nTiles (d : StreamDesc) : Nat := cdiv d.total d.per

/-- Elements of tile t, and its bytes. -/
def StreamDesc.tileElems (d : StreamDesc) (t : Nat) : Nat := min d.per (d.total - t * d.per)
def StreamDesc.tileBytes (d : StreamDesc) (t : Nat) : Nat := cdiv (d.tileElems t * d.bits) 8

/-- Words of the ring (R115): three slots of the tile rounded up to 256-byte words. -/
def StreamDesc.ringWords (d : StreamDesc) : Nat :=
  if d.memKind = 0 then 0 else 3 * cdiv (cdiv (d.per * d.bits) 8) 256

/-- Byte offset an enumeration index reaches through the dimensions from d on, the first in elements of `bits`. -/
def outerOff : List Dim → Nat → Int
  | [], _ => 0
  | x :: r, e => (e % max 1 x.count : Nat) * x.stride + outerOff r (e / max 1 x.count)

/-- Byte address of element e before relocation, and which half of the byte for a 4-bit element (0: whole bytes). -/
def StreamDesc.place (d : StreamDesc) (e : Nat) : Nat × Nat :=
  match d.dims with
  | [] => (d.base, 0)
  | x :: r =>
    let i := e % max 1 x.count
    let o := (d.base : Int) + outerOff r (e / max 1 x.count)
    if d.bits = 4 then ((o + (i / 2 : Nat)).toNat, 1 + i % 2) else ((o + (i * (d.bits / 8) : Nat)).toNat, 0)

/-- Bytes an element occupies. -/
def StreamDesc.width (d : StreamDesc) : Nat := if d.bits = 4 then 1 else d.bits / 8

/-- Take an element out of its bytes. -/
def pickHalf (half : Nat) (bs : Bytes) : Nat :=
  match half with
  | 0 => ofLe bs
  | 1 => ofLe bs % 16
  | _ => ofLe bs / 16

/-! ## Delivered tiles -/

/-- Bytes of tile t that a partner has delivered: its pieces in rising offset. -/
def Stream.tileData (x : Stream) (t : Nat) : Bytes :=
  ((x.recv.filter fun p => p.1 / 65536 = t).mergeSort fun a b => decide (a.1 ≤ b.1)).flatMap (·.2)

/-- Whole tiles delivered, counted from tile 0. -/
def Stream.arrivedTiles (x : Stream) : Nat :=
  let d := streamDesc x.desc
  ((List.range x.tiles).takeWhile fun t => decide (d.tileBytes t ≤ (x.tileData t).length)).length

/-! ## Reading elements -/

/-- Element e of a pattern, as it stands in its memory. -/
def State.placed (s : State) (core : Nat) (d : StreamDesc) (e : Nat) : Nat :=
  let (a, h) := d.place e
  let a := a + s.shift core (d.memKind == 1) a
  pickHalf h (if d.memKind = 0 then memBytes (s.core core).tile a d.width else s.vmRead a d.width)

/-- Bytes of tile t of a main-memory read stream, in enumeration order (R113). -/
def State.tileFrom (s : State) (core : Nat) (d : StreamDesc) (t : Nat) : Bytes :=
  let el (i : Nat) : Nat := if i < d.tileElems t then s.placed core d (t * d.per + i) else 0
  if d.bits = 4 then (List.range (d.tileBytes t)).map fun j => BitVec.ofNat 8 (el (2 * j) + 16 * el (2 * j + 1))
  else (List.range (d.tileElems t)).flatMap fun i => leBytes d.width (el i)

/-- Element e of a read stream, as stored: in place, or as its tile brought it. -/
def State.streamElem (s : State) (core : Nat) (x : Stream) (e : Nat) : Nat :=
  let d := streamDesc x.desc
  if d.memKind = 0 then s.placed core d e
  else
    let data := x.tileData (e / d.per)
    let i := e % d.per
    if d.bits = 4 then pickHalf (1 + i % 2) [data.getD (i / 2) 0]
    else ofLe ((data.drop (i * d.width)).take d.width)

/-- A stream of a core's context. -/
def State.streamAt (s : State) (core ctx : Nat) : Option Stream := klook (s.core core).ctx ctx

/-- Element e of the stream in a context. -/
def State.ctxElem (s : State) (core ctx e : Nat) : Nat :=
  match s.streamAt core ctx with
  | some x => s.streamElem core x e
  | none => 0

/-- Virtual addresses of tile t, relocated. -/
def State.tileVas (s : State) (core : Nat) (d : StreamDesc) (t : Nat) : List Nat :=
  (List.range (d.tileElems t)).map fun i =>
    let a := (d.place (t * d.per + i)).1
    a + s.shift core true a

/-- Every byte of tile t of a read stream is mapped, and none reads uncorrectable (R125, R320). -/
def State.tileOk (s : State) (core : Nat) (d : StreamDesc) (t : Nat) : Bool :=
  (s.tileVas core d t).all fun a =>
    (s.xlat (a + d.width - 1) false).isSome && (match s.xlat a false with
      | some p => !s.bad p
      | none => false)

/-! ## Writing elements -/

/-- Merge one element into a byte memory (R92). -/
def applyWrite (m : Mem) (w : EWrite) : Mem :=
  match w.half with
  | 0 => memStore m w.addr w.data
  | 1 => memWrite m w.addr ((memRead m w.addr &&& 0xF0) ||| (w.data.headD 0 &&& 0x0F))
  | _ => memWrite m w.addr ((memRead m w.addr &&& 0x0F) ||| ((w.data.headD 0 &&& 0x0F) <<< 4))

/-- R47: an element that ends a packed row at an even index writes zero into the half byte after it. -/
def padded (d : StreamDesc) (elems : List (Nat × Nat)) (e : Nat) : Bool :=
  !elems.any fun x => x.1 == e + 1 && (d.place (e + 1)).1 == (d.place e).1

/-- An element write at a byte, the half of it, and the padding. -/
def elemWrite (d : StreamDesc) (elems : List (Nat × Nat)) (e enc a half : Nat) : EWrite :=
  if half = 1 && padded d elems e then ⟨a, 0, leBytes 1 (enc % 16)⟩ else ⟨a, half, leBytes d.width enc⟩

/-- Element writes of a tile at its destination in memory (R112). -/
def State.tileWrites (s : State) (core : Nat) (d : StreamDesc) (elems : List (Nat × Nat)) : List EWrite :=
  elems.map fun (e, enc) =>
    let (a, h) := d.place e
    elemWrite d elems e enc (a + s.shift core (d.memKind == 1) a) h

/-- Element writes of a tile in enumeration order from a byte on: in a ring slot or in a delivered tile. -/
def packedWrites (d : StreamDesc) (base : Nat) (elems : List (Nat × Nat)) : List EWrite :=
  elems.map fun (e, enc) =>
    let i := e % d.per
    if d.bits = 4 then elemWrite d elems e enc (base + i / 2) (1 + i % 2) else ⟨base + i * d.width, 0, leBytes d.width enc⟩

/-- Tile-store address of the ring slot of tile t (R115). -/
def StreamDesc.slotAddr (d : StreamDesc) (t : Nat) : Nat := 256 * (d.ringBase + t % 3 * (d.ringWords / 3))

/-- The producer fills free ring slots with the tiles it holds back; it stalls at three (R115). -/
def CoreSt.refill (c : CoreSt) (ctx : Nat) : CoreSt :=
  match klook c.ctx ctx with
  | none => c
  | some x =>
    let d := streamDesc x.desc
    let new := x.todo.take (3 - x.out.length)
    let t := x.drained + x.out.length
    { c with
      tile := (new.zipIdx).foldl (fun m (ws, k) => (packedWrites d (d.slotAddr (t + k)) ws).foldl applyWrite m) c.tile
      ctx := tset c.ctx ctx { x with out := x.out ++ new, todo := x.todo.drop (3 - x.out.length) } }

/-- Hand the elements of a write stream to the peel, in enumeration order (R112, R115): a tile-store stream writes in
place, the others queue their tiles behind the ring. -/
def produce (core ctx : Nat) (elems : List (Nat × Nat)) (s : State) : State :=
  match s.streamAt core ctx with
  | none => s
  | some x =>
    let d := streamDesc x.desc
    let es := elems.mergeSort fun a b => decide (a.1 ≤ b.1)
    let c := s.core core
    if d.memKind = 0 then
      let x := { x with produced := true, drained := x.tiles }
      setCore core { c with tile := (s.tileWrites core d es).foldl applyWrite c.tile, ctx := tset c.ctx ctx x } s
    else
      let todo := (List.range x.tiles).map fun t => es.filter fun w => w.1 / d.per = t
      setCore core ({ c with ctx := tset c.ctx ctx { x with produced := true, todo := todo } }.refill ctx) s

/-- A write of bytes through an element write into main memory. -/
def writeMain (s : State) (w : EWrite) : State :=
  match w.half with
  | 0 => vmStore w.addr w.data s
  | h =>
    let old := (s.vmRead w.addr 1).headD 0
    let n := w.data.headD 0 &&& 0x0F
    vmStore w.addr [if h = 1 then (old &&& 0xF0) ||| n else (old &&& 0x0F) ||| (n <<< 4)] s

/-! ## Operands -/

/-- What a sideline read brought for an operand of an instruction. -/
def Inflight.brought (i : Inflight) (role : Nat) : Bytes := (klook i.reads role).getD []

/-- Scale byte of an operand: by its path (Table 03.3), at its index in the stream or in the dense array. -/
def State.scaleAt (s : State) (core : Nat) (i : Inflight) (path role si di : Nat) : Nat :=
  if path = 8 then ((i.brought role).getD di 0).toNat else s.ctxElem core path si

/-- The value of an operand's element with raw encoding `raw` (R46, R50 to R54). -/
def State.operand (s : State) (core : Nat) (i : Inflight) (fmtByte raw path role si di : Nat) : FVal :=
  let f := opFmt fmtByte
  if f.blockSize = 0 then decodeElem f.elemFmt raw
  else decodeScaled f.elemFmt raw (s.scaleAt core i path role si di)

/-- R171: is a global K index present? -/
def State.kPresent (s : State) (core : Nat) (d : MatDesc) (k : Nat) : Bool :=
  match s.coreItem core with
  | none => true
  | some it =>
    let tb := s.params.tokenBudget
    match s.layer? it.layer with
    | none => true
    | some l =>
      if it.kind = .win && l.padMask && d.kTotal = s.params.mbPerStep * tb then
        let mbs := (klook s.ingest.hdrs s.job.step).getD []
        decide (k % tb < (mbs.getD (k / tb) MbHdr.empty).valid)
      else true

/-- Operands of a matrix operation as its streams and sideline transfers deliver them, during output block `blk`. -/
def State.matIO (s : State) (core : Nat) (i : Inflight) (d : MatDesc) (blk : Nat) : MatIO :=
  let mb := shapeRows d.shape
  let nb := shapeCols d.shape
  let side (fmt ctx path role other : Nat) (kOuter : Bool) (r κ : Nat) : FVal :=
    let f := opFmt fmt
    let bs := blockElems f.blockSize
    s.operand core i fmt (s.ctxElem core ctx (abIndex d other kOuter blk r κ)) path role
      (abScaleIndex d other bs f.blockDir kOuter blk r κ) (abDense d.k bs f.blockDir r κ)
  let step := match s.coreItem core with
    | some it => s.itemStep it
    | none => s.job.step
  { a := fun r κ => side d.aFmt d.aCtx d.asCtx 0 mb d.aTrans r κ
    b := fun κ r => side d.bFmt d.bCtx d.bsCtx 1 nb (!d.bTrans) r κ
    c := if d.accInit then some fun r c =>
        let f := opFmt d.cFmt
        let bs := blockElems f.blockSize
        let (sr, sc) := if f.blockDir then (r / max 1 bs, c) else (r, c / max 1 bs)
        s.operand core i d.cFmt (s.ctxElem core d.cCtx (cdIndex d r c)) d.csCtx 2
          (cdScaleIndex d (max 1 bs) f.blockDir r c) (cdDense d bs f.blockDir sr sc)
      else none
    present := s.kPresent core d, seed := BitVec.ofNat 64 s.job.seed, step := BitVec.ofNat 64 step }

/-- Every output block of an unsplit operation (R69, R77), its operands re-read for each block. -/
def State.runMatrixOp (s : State) (core : Nat) (i : Inflight) (d : MatDesc) : MatOut :=
  (blockOrder d).foldl (fun o (bi, bj) => o.append (runBlock d (s.matIO core i d (bi * blockCols d + bj)) bi bj))
    MatOut.empty

/-- A split-K member's partials, row-major over M × N (R84). -/
def State.runMember (s : State) (core : Nat) (i : Inflight) (d : MatDesc) : List W32 × NStatus :=
  let cs := (List.range d.m).flatMap fun r => (List.range d.n).map fun c =>
    let io := s.matIO core i d (r / shapeRows d.shape * blockCols d + c / shapeCols d.shape)
    (⟨r, c, accSum d io false r c (accInit false (io.c.map fun g => g r c)) 0 (rowA d io r) (colB d io c)⟩ : Cell)
  (cs.map fun c => toB32 c.st.v, cellStatus d cs)

/-! ## Outputs -/

/-- A dense scale array of a given length from its (index, byte) pairs. -/
def denseBytes (n : Nat) (l : List (Nat × Nat)) : Bytes :=
  (List.range n).map fun i => BitVec.ofNat 8 ((klook l i).getD 0)

/-- Change an instruction in flight. -/
def CoreSt.updInst (c : CoreSt) (id : Nat) (f : Inflight → Inflight) : CoreSt :=
  { c with inflight := c.inflight.map fun i => if i.id = id then f i else i }

/-- Write a matrix output through D and its scale path (R55 to R57, R113). -/
def putMatrix (core : Nat) (i : Inflight) (d : MatDesc) (o : MatOut) (s : State) : State :=
  let s := produce core d.dCtx (o.elems.map fun (r, c, e) => (cdIndex d r c, e)) s
  let f := opFmt d.dFmt
  let bs := blockElems f.blockSize
  let s :=
    if d.dsCtx = 15 then s
    else if d.dsCtx = 8 then
      let bytes := denseBytes (cdDenseLen d bs f.blockDir)
        (o.scales.map fun (sr, sc, b) => (cdDense d bs f.blockDir sr sc, b))
      setCore core ((s.core core).updInst i.id fun i => { i with outs := (3, bytes) :: i.outs }) s
    else produce core d.dsCtx (o.scales.map fun (sr, sc, b) =>
      (if f.blockDir then cdScaleIndex d bs true (sr * bs) sc else cdScaleIndex d bs false sr (sc * bs), b)) s
  setCore core ((s.core core).updInst i.id fun i =>
    { i with final := true, status := i.status.or o.status, flush := o.flush, sat := o.sat, replays := o.replays }) s

/-- Write a converted vector or row output through its stream and scale path; `role` is the sideline role of the
scales (R141, R142). -/
def putConv (core : Nat) (i : Inflight) (ctx path role : Nat) (o : ConvOut) (s : State) : State :=
  let s := produce core ctx o.elems s
  if path = 15 then s
  else if path = 8 then
    setCore core ((s.core core).updInst i.id fun i =>
      { i with outs := (role, o.scales.map (BitVec.ofNat 8)) :: i.outs }) s
  else produce core path ((o.scales.zipIdx).map fun (b, n) => (n, b)) s

/-- The statistics word (Table 06.4). -/
def statWord (st : ConvStat) (layer tag : Nat) : Bytes :=
  leBytes 4 (min st.flush 0xFFFFFFFF) ++ leBytes 4 (min st.sat 0xFFFFFFFF) ++ leBytes 4 (min st.nonfin 0xFFFFFFFF)
    ++ leBytes 4 (layer * 2 ^ 16 + tag)

end Sys2Proof.Machine
end

