-- ==== Sys2Proof/Machine/Ingest.lean ====
section
/-! DEFINITION. The ingest unit, its NVMe Reads, the split queue and the host ports (chapters 7, 11 and 14). -/

namespace Sys2Proof.Machine

/-! ## The dataset as one line of bytes (R329, R330) -/

/-- Bytes of a logical block of a namespace. -/
def State.lbSize (s : State) (e : Extent) : Nat := if s.ingest.blk4k.contains (e.tgt, e.ns) then 4096 else 512

/-- Extent of shard `i`, and its bytes. -/
def State.shard (s : State) (i : Nat) : Extent := extentAt s.cont.budgetSec s.ing (s.ing.shardFirst + i)
def State.shardSize (s : State) (i : Nat) : Nat := (s.shard i).blocks * s.lbSize (s.shard i)

/-- Bytes of the shards before one, and of the whole dataset. -/
def State.shardBase (s : State) (i : Nat) : Nat := ((List.range i).map s.shardSize).foldl (· + ·) 0
def State.dataSize (s : State) : Nat := s.shardBase s.ing.shardCnt

/-- Place of a cursor, counted on through the epochs. -/
def State.linear (s : State) (c : Cursor) : Nat := c.epoch * s.dataSize + s.shardBase c.shard + c.off

/-- Shard and offset of a place. -/
def State.shardOf (s : State) (pos : Nat) : Nat × Nat :=
  let p := pos % s.dataSize
  let i := ((List.range s.ing.shardCnt).filter fun i => decide (s.shardBase i ≤ p)).getLast?.getD 0
  (i, p - s.shardBase i)

/-- The place from which chunks of split samples are kept apart from the read-ahead. -/
def splitBase : Nat := 2 ^ 96

/-- `n` contiguous bytes from a place, once all are there. -/
def bytesFrom (l : List (Nat × Bytes)) : Nat → Nat → Nat → Option Bytes
  | _, _, 0 => some []
  | 0, _, _ => none
  | fuel + 1, p, n =>
    match l.find? fun e => decide (e.1 ≤ p) && decide (p < e.1 + e.2.length) with
    | none => none
    | some e =>
      let got := (e.2.drop (p - e.1)).take n
      (bytesFrom l fuel (p + got.length) (n - got.length)).map fun r => got ++ r

def State.dataBytes (s : State) (p n : Nat) : Option Bytes := bytesFrom s.ingest.bytes (s.ingest.bytes.length + 1) p n

/-! ## Reads (R332, R333) -/

/-- The port a new connection or retry takes, alternating from port 0 (R325). -/
def takePort (s : State) : Nat × State :=
  (s.ingest.nextPort, { s with ingest := { s.ingest with nextPort := 1 - s.ingest.nextPort } })

/-- Issue one Read of up to 1 MiB from a place of the dataset, aligned down to a logical block. -/
def issueRead (base pos limit : Nat) (s : State) : State :=
  let (i, off) := s.shardOf pos
  let e := s.shard i
  let lb := s.lbSize e
  let start := off / lb * lb
  let n := min (2 ^ 20) (min (s.shardSize i - start) (cdiv (limit + (off - start)) lb * lb))
  let (port, s) := takePort s
  let cid := s.ingest.nextCid
  let r : NvmeRead := {
    cid := cid, tgt := e.tgt, ext := s.ing.shardFirst + i, lba := e.lba + start / lb, len := n
    pos := base + pos - (off - start), port := port, tries := 0, sent := s.localUs }
  send (.nvmeRead r) { s with ingest := { s.ingest with nextCid := cid + 1, reads := s.ingest.reads ++ [r] } }

/-- The end of what has been read or asked for ahead of the cursor. -/
def State.readEnd (s : State) : Nat :=
  let ends := (s.ingest.reads.map fun r => (r.pos, r.len)) ++ s.ingest.bytes.map fun b => (b.1, b.2.length)
  (ends.filter fun e => decide (e.1 < splitBase)).foldl (fun m e => max m (e.1 + e.2)) (s.linear s.ingest.cursor)

/-- Keep up to 64 Reads outstanding in cursor order (R332), at most 64 MiB ahead (DESIGN CHOICE, notes/assumptions/27). -/
def readAhead : Nat → State → State
  | 0, s => s
  | fuel + 1, s =>
    if s.dataSize = 0 || 64 ≤ s.ingest.reads.length then s
    else if s.linear s.ingest.cursor + 64 * 2 ^ 20 ≤ s.readEnd then s
    else readAhead fuel (issueRead 0 s.readEnd (2 ^ 20) s)

/-- Drop bytes behind the cursor. -/
def trimBytes (s : State) : State :=
  let c := s.linear s.ingest.cursor
  { s with ingest := { s.ingest with
      bytes := s.ingest.bytes.filter fun b => decide (c < b.1 + b.2.length) || decide (splitBase ≤ b.1) } }

/-! ## Packing (R179, R330) -/

/-- The recipe has a sequence axis. -/
def State.split (s : State) : Bool := decide (2 ≤ s.map.sSize)

/-- Ordinary micro-batches of a step (R281). -/
def State.packCount (s : State) : Nat := s.params.mbPerStep - s.split.toNat

/-- Bytes of a token. -/
def State.tokBytes (s : State) : Nat := 2 * s.ing.tokW

/-- Members of this device's S group. -/
def State.sMembers (s : State) : List Nat := u16List s.cont.collSec s.map.sOff s.map.sSize

/-- Work on the open micro-batch. -/
def onOpen (f : MbHdr → MbHdr) (s : State) : State :=
  { s with ingest := { s.ingest with
      mbs := (s.ingest.mbs.zipIdx).map fun (x, i) => if i = s.ingest.open_ then f x else x } }

/-- Close the open micro-batch; the next one opens, when the step has one. -/
def closeMb (s : State) : State :=
  let s := onOpen (fun x => { x with closed := true }) s
  { s with ingest := { s.ingest with open_ := s.ingest.open_ + 1 } }

/-- Move the cursor. -/
def moveTo (c : Cursor) (s : State) : State := { s with ingest := { s.ingest with cursor := c } }

/-- The start of the next shard (R330). -/
def State.nextShard (s : State) (c : Cursor) : Cursor :=
  if c.shard + 1 < s.ing.shardCnt then ⟨c.epoch, c.shard + 1, 0⟩ else ⟨(c.epoch + 1) % 2 ^ 32, 0, 0⟩

/-- A sample was appended or routed: the search of R330 starts again behind it. -/
def usable (s : State) : State := { s with ingest := { s.ingest with idleCursor := some s.ingest.cursor } }

/-- The whole dataset has been passed over without a usable record (R330). -/
def State.idleData (s : State) : Bool :=
  match s.ingest.idleCursor with
  | some c => decide (s.linear c + s.dataSize ≤ s.linear s.ingest.cursor)
  | none => false

/-- R330: the open and every later micro-batch become padding; the record of kind 7. -/
def packIdle (s : State) : State :=
  let c := s.ingest.cursor
  let s := { s with ingest := { s.ingest with
    mbs := (s.ingest.mbs.zipIdx).map fun (x, i) =>
      if s.ingest.open_ ≤ i && i < s.packCount then { x with samples := [], valid := 0, data := [], closed := true } else x
    open_ := s.packCount } }
  logAdd 0 9 0xFF 0 0xFFFF ([7, 0] ++ w64 s.ingest.packStep ++ [c.epoch, c.shard]) s

/-- Append a sample of L tokens to the open micro-batch. -/
def appendSample (l : Nat) (tokens : Bytes) (s : State) : State :=
  onOpen (fun x => { x with samples := x.samples ++ [x.valid], valid := x.valid + l, data := x.data ++ tokens }) s

/-- A record of the dataset as a split notice names it: its place on its namespace (R282). -/
def State.splitEntry (s : State) (c : Cursor) (l : Nat) : SplitEntry :=
  let e := s.shard c.shard
  ⟨e.tgt, e.ns, e.lba * s.lbSize e + c.off, l⟩

/-- An over-long sample (R179, R282). -/
def overLong (c : Cursor) (l : Nat) (s : State) : State :=
  if s.split then
    let s := usable (bump 0x9100 3 1 64 (onOpen (fun x => { x with routed := satAdd 32 x.routed 1 }) s))
    if s.map.sSize * s.params.tokenBudget < l then bump 0x9100 4 1 64 s
    else { s with ingest := { s.ingest with setAside := s.ingest.setAside ++ [s.splitEntry c l] } }
  else bump 0x9100 2 1 64 (onOpen (fun x => { x with dropped := satAdd 32 x.dropped 1 }) s)

/-- Take the record of L tokens at the cursor, its whole record being `len` bytes. None when its bytes are not there. -/
def takeRecord (l len : Nat) (s : State) : Option State :=
  let c := s.ingest.cursor
  let past : Cursor := { c with off := c.off + len }
  let budget := s.params.tokenBudget
  if l = 0 then some (moveTo past s)
  else if budget < l then some (overLong c l (moveTo past s))
  else
    let x := s.ingest.mbs.getD s.ingest.open_ MbHdr.empty
    if budget - x.valid < l || 65535 ≤ x.samples.length then some (closeMb s)
    else match s.dataBytes (s.linear c + 8) (l * s.tokBytes) with
      | none => none
      | some bs => some (usable (appendSample l bs (moveTo past s)))

/-- One move of the packer over ordinary micro-batches; none when it must wait or has packed them all. -/
def packOne (s : State) : Option State :=
  let c := s.ingest.cursor
  let size := s.shardSize c.shard
  if s.packCount ≤ s.ingest.open_ || s.dataSize = 0 then none
  else if s.idleData then some (packIdle s)
  else if size < c.off + 8 then some (moveTo (s.nextShard c) s)
  else match s.dataBytes (s.linear c) 4 with
    | none => none
    | some h =>
      let l := ofLe h
      let len := 8 + cdiv (l * s.tokBytes) 8 * 8
      if l = 0xFFFFFFFF then some (moveTo (s.nextShard c) s)
      else if size < c.off + len then some (moveTo (s.nextShard c) (bump 0x9100 5 1 64 s))
      else takeRecord l len s

/-- Pack as far as the bytes allow. -/
def packAll : Nat → State → State
  | 0, s => s
  | fuel + 1, s => match packOne s with
    | none => s
    | some s => packAll fuel s

/-! ## The split micro-batch (R281, R282) -/

/-- Key of a split notice. -/
def noticeKey (step rank : Nat) : Nat := 64 * step + rank

/-- A split-queue entry in 16 bytes (DESIGN CHOICE, notes/assumptions/30). -/
def splitBytes (e : SplitEntry) : Bytes := leBytes 1 e.tgt ++ leBytes 3 e.tokens ++ leBytes 4 e.ns ++ leBytes 8 e.addr

/-- Send this device's split notice, once (R282). -/
def sendNotice (s : State) : State :=
  let n := s.ingest.packStep
  let k := noticeKey n s.map.sRank
  if (klook s.ingest.notices k).isSome || (klook s.ingest.split n).isSome then s else
  let l := s.ingest.setAside
  let s := { s with ingest := { s.ingest with notices := tset s.ingest.notices k l } }
  (s.sMembers.filter fun d => d != s.devId).foldl (fun s d =>
    sendControl d n 0 (.splitNotice d n l) (leBytes 1 6 ++ l.flatMap splitBytes) s) s

/-- Every member's notice for the step being packed is held. -/
def State.noticesHeld (s : State) : Bool :=
  (List.range s.map.sSize).all fun r => (klook s.ingest.notices (noticeKey s.ingest.packStep r)).isSome

/-- Bring the notices into the queue and take its head (R282). -/
def takeHead (s : State) : State :=
  let n := s.ingest.packStep
  if (klook s.ingest.split n).isSome then s else
  let all := (List.range s.map.sSize).flatMap fun r => (klook s.ingest.notices (noticeKey n r)).getD []
  let q := s.ingest.queue ++ all
  let s := bump 0x9100 4 (q.length - 64) 64 s
  let q := q.take 64
  { s with ingest := { s.ingest with
      split := tset s.ingest.split n q.head?, queue := q.drop 1
      notices := s.ingest.notices.filter fun x => decide (noticeKey (n + 1) 0 ≤ x.1) } }

/-- This device's chunk of a split sample: first token and length. -/
def State.chunk (s : State) (e : SplitEntry) : Nat × Nat :=
  let b := s.params.tokenBudget
  let a := s.map.sRank * b
  (a, min ((s.map.sRank + 1) * b) e.tokens - a)

/-- Byte address, in its namespace, of the chunk's first byte. A notice's target index is read in this device's own target
table (DESIGN CHOICE, notes/assumptions/30). -/
def State.chunkPos (s : State) (e : SplitEntry) : Nat := e.addr + 8 + (s.chunk e).1 * s.tokBytes

/-- The extent of this device's table that a logical block lies in, 0xFFFF for none. -/
def State.extentOf (s : State) (e : SplitEntry) (lba : Nat) : Nat :=
  ((List.range s.ing.extCnt).find? fun i =>
    let x := extentAt s.cont.budgetSec s.ing i
    x.tgt == e.tgt && x.ns == e.ns && decide (x.lba ≤ lba) && decide (lba < x.lba + x.blocks)).getD 0xFFFF

/-- Read `n` bytes of a split sample from a byte address of its namespace, in whole logical blocks. -/
def readPart (e : SplitEntry) (p n : Nat) (s : State) : State :=
  let lb := s.lbSize ⟨e.tgt, e.ns, 0, 0⟩
  let start := p / lb * lb
  let (port, s) := takePort s
  let cid := s.ingest.nextCid
  let r : NvmeRead := {
    cid := cid, tgt := e.tgt, ext := s.extentOf e (start / lb), lba := start / lb, len := cdiv (n + (p - start)) lb * lb
    pos := splitBase + start, port := port, tries := 0, sent := s.localUs }
  send (.nvmeRead r) { s with ingest := { s.ingest with nextCid := cid + 1, reads := s.ingest.reads ++ [r] } }

/-- Ask for the bytes of a chunk that are neither there nor asked for. -/
def readChunk (e : SplitEntry) (s : State) : State :=
  let p := s.chunkPos e
  let n := (s.chunk e).2 * s.tokBytes
  if n = 0 || s.ingest.reads.any (fun r => decide (splitBase ≤ r.pos)) then s
  else (List.range (cdiv n (2 ^ 19))).foldl (fun s k => readPart e (p + k * 2 ^ 19) (min (2 ^ 19) (n - k * 2 ^ 19)) s) s

/-- The split micro-batch of the step: none while it must wait. -/
def State.splitMb (s : State) : Option MbHdr :=
  match klook s.ingest.split s.ingest.packStep with
  | none => none
  | some none => some { MbHdr.empty with closed := true }
  | some (some e) =>
    let n := (s.chunk e).2
    if n = 0 then some { MbHdr.empty with closed := true }
    else (s.dataBytes (splitBase + s.chunkPos e) (n * s.tokBytes)).map fun bs =>
      { MbHdr.empty with samples := [0], valid := n, data := bs, closed := true }

/-! ## Writing the ingest region (R180, R181) -/

/-- A micro-batch as it stands in the ingest region (Table 07.6). -/
def mbBytes (m budget tw : Nat) (x : MbHdr) : Bytes :=
  leBytes 4 (m * 65536 + x.samples.length) ++ leBytes 4 x.valid ++ leBytes 4 x.dropped ++ leBytes 4 x.routed
    ++ x.samples.flatMap (leBytes 4) ++ x.data ++ List.replicate ((budget - x.valid) * tw) 0

/-- Write the micro-batches of a step to its half of the ingest region. -/
def writeHalf (n : Nat) (s : State) : State :=
  match s.cont.regions.find? fun r => r.kind == .ingest && r.core.isNone with
  | none => s
  | some r =>
    (((klook s.ingest.hdrs n).getD []).zipIdx).foldl (fun s (x, m) =>
      vmStore (r.base + n % 2 * (r.size / 2) + m * r.stride) (mbBytes m s.params.tokenBudget s.tokBytes x) s) s

/-- Begin packing a step. -/
def beginPack (n : Nat) (s : State) : State :=
  { s with ingest := { s.ingest with
      packStep := n, mbs := List.replicate s.packCount MbHdr.empty, open_ := 0, packed := false, setAside := []
      cursorAt := tset (s.ingest.cursorAt.filter fun x => decide (s.job.committed ≤ x.1)) n s.ingest.cursor
      idleAt := tset (s.ingest.idleAt.filter fun x => decide (s.job.committed ≤ x.1)) n s.ingest.idleCursor
      queueAt :=
        if (klook s.ingest.queueAt n).isSome then s.ingest.queueAt
        else tset (s.ingest.queueAt.filter fun x => decide (s.job.committed ≤ x.1)) n s.ingest.queue } }

/-- R181: the half that holds step n was lost. The cursor rewinds to where step n began, storage is read again, and the
step is packed once more, with its split sample as it was taken; the step behind it follows as before. -/
def rereadHalf (n : Nat) (s : State) : State :=
  match klook s.ingest.cursorAt n with
  | none => s
  | some c =>
    beginPack n { s with ingest := { s.ingest with
      cursor := c, idleCursor := (klook s.ingest.idleAt n).getD none, bytes := [], reads := []
      hdrs := s.ingest.hdrs.filter fun x => x.1 != n } }

/-- The step is packed: its half is written and the next step opens. -/
def endPack (extra : List MbHdr) (s : State) : State :=
  let n := s.ingest.packStep
  let s := { s with ingest := { s.ingest with
    hdrs := tset (s.ingest.hdrs.filter fun x => decide (s.job.committed ≤ x.1)) n (s.ingest.mbs ++ extra)
    bytes := s.ingest.bytes.filter fun b => decide (b.1 < splitBase)
    reads := s.ingest.reads.filter fun r => decide (r.pos < splitBase) } }
  beginPack (n + 1) (writeHalf n s)

/-- INGEST_PACKING: pack the step whose half is free as far as the bytes allow, with its split micro-batch, and read
ahead. -/
def ingestState (s : State) : State :=
  if !s.job.st.live || s.job.committed + 2 < s.ingest.packStep then s else
  let s := packAll (4 * (s.ingest.bytes.foldl (fun a b => a + b.2.length) 0) + 4 * s.ing.shardCnt + s.packCount + 8) s
  let s := readAhead 64 (trimBytes s)
  if s.ingest.open_ < s.packCount then s
  else if !s.split then endPack [] s
  else
    let s := sendNotice s
    if !s.noticesHeld && (klook s.ingest.split s.ingest.packStep).isNone then s else
    let s := takeHead s
    match s.splitMb with
    | some x => endPack [x] s
    | none => match klook s.ingest.split s.ingest.packStep with
      | some (some e) => readChunk e s
      | _ => s

/-- SPLIT_NOTICE: held until every member's notice has arrived (R282). -/
def splitNoticeState (src step : Nat) (l : List SplitEntry) (s : State) : State :=
  if s.sMembers.contains src && s.split && (!s.job.st.live || decide (s.ingest.packStep ≤ step)) then
    { s with ingest := { s.ingest with notices := tset s.ingest.notices (noticeKey step (s.sMembers.idxOf src)) l } }
  else s

/-- R330: ingest from the start of a job. Notices that other members have sent before stay (R282). -/
def startIngest (c : Cursor) (q : List SplitEntry) (s : State) : State :=
  beginPack (s.job.committed + 1) { s with ingest := { Ingest.reset with
    notices := s.ingest.notices.filter fun x =>
      decide (noticeKey (s.job.committed + 1) 0 ≤ x.1) && x.1 % 64 != s.map.sRank
    cursor := c, queue := q, idleCursor := some c, nextCid := s.ingest.nextCid, nextPort := s.ingest.nextPort
    blk4k := s.ingest.blk4k } }

/-! ## Completions and bounds -/

/-- Record of a wait for an NVMe target (Table 20.2, code 0x0503, wait 6). -/
def logRead (r : NvmeRead) (status : Nat) (s : State) : State :=
  let e := if r.ext = 0xFFFF then ⟨r.tgt, 0, 0, 0⟩ else extentAt s.cont.budgetSec s.ing r.ext
  logAdd PARTNER_SILENT 9 0xFF 0 0xFFFF [r.tgt, 6, r.ext, (r.lba - e.lba) % 2 ^ 32, s.job.attempt, status] s

/-- R333: a failed Read goes out again on a fresh command, up to three times. -/
def retryRead (cid status : Nat) (s : State) : State :=
  match s.ingest.reads.find? fun r => r.cid = cid with
  | none => s
  | some r =>
    let rest := s.ingest.reads.filter fun x => x.cid != cid
    if 3 ≤ r.tries then
      halt PARTNER_SILENT (logRead r status { s with ingest := { s.ingest with reads := rest } })
    else
      let c := s.ingest.nextCid
      let r := { r with cid := c, port := 1 - r.port, tries := r.tries + 1, sent := s.localUs }
      send (.nvmeRead r) { s with ingest := { s.ingest with reads := rest ++ [r], nextCid := c + 1 } }

/-- NVME_READ_COMPLETE (R325, R332, R333). -/
def readCompleteState (cid status : Nat) (data : Bytes) (s : State) : State :=
  match s.ingest.reads.find? fun r => r.cid = cid with
  | none => s
  | some r =>
    if status != 0 then retryRead cid status s
    else { s with ingest := { s.ingest with
      reads := s.ingest.reads.filter fun x => x.cid != cid
      bytes := s.ingest.bytes ++ [(r.pos, data.take r.len)] } }

/-- NVME_READ_TIMEOUT: 5 s without completion when no status came (R333). -/
def readTimeoutState (cid status : Nat) (s : State) : State :=
  match s.ingest.reads.find? fun r => r.cid = cid with
  | none => s
  | some r =>
    retryRead cid status (if status = 0 then { s with localUs := max s.localUs (r.sent + 5000000) } else s)

/-- INGEST_BOUND_EXPIRY (R332). `late`: the slow target, or the S-group member whose notice is missing. -/
def ingestBoundState (late : Nat) (s : State) : State :=
  if !s.job.st.live || s.isDiag || (klook s.ingest.hdrs (s.job.committed + 1)).isSome then s else
  let k := s.ingest.lateBounds + 1
  let s := { s with
    localUs := max s.localUs (s.job.commitUs + k * (s.eff.ingestBound * 1000))
    ingest := { s.ingest with lateBounds := k } }
  let s := match s.ingest.reads.find? fun r => r.tgt = late with
    | some r =>
      if s.packCount ≤ s.ingest.open_ && s.split && !s.noticesHeld then
        logAdd PARTNER_SILENT 9 0xFF 0 0xFFFF [late, 7, 0, 0, s.job.attempt] s
      else logRead r 0 s
    | none =>
      let wait := if s.packCount ≤ s.ingest.open_ && s.split && !s.noticesHeld then 7 else 6
      logAdd PARTNER_SILENT 9 0xFF 0 0xFFFF [late, wait, 0, 0, s.job.attempt] s
  if 4 ≤ k then halt PARTNER_SILENT s else s

/-- NVME_KEEP_ALIVE: every 5 s to each target (R327). -/
def keepAliveState (tgt : Nat) (s : State) : State :=
  if s.recipe.loaded.isSome && decide (tgt < s.ing.targets) && s.dev.mainUp then send (.nvmeOther tgt 0) s else s

/-! ## Host ports (R323 to R326) -/

/-- A host port. -/
def State.host (s : State) (p : Nat) : HostPort := s.ports.getD p HostPort.reset
def setHost (p : Nat) (x : HostPort) (s : State) : State := { s with ports := s.ports.set p x }

/-- HOST_PORT_LINK_LOSS: the event is logged, connections and outstanding commands move to the other port. -/
def linkLossState (p : Nat) (s : State) : State :=
  let x := s.host p
  if !x.up || 2 ≤ p then s else
  let s := setHost p { x with up := false, losses := satAdd 32 x.losses 1 } s
  let s := logAdd 0 7 0 p 0xFFFF [1, p] s
  let s := { s with
    dev := { s.dev with hostUp := s.dev.hostUp.set p false }
    conns := s.conns.map fun (c : Conn) => if c.port = p then { c with port := 1 - p } else c }
  let hit := s.ingest.reads.filter fun (r : NvmeRead) => r.port = p
  let s := { s with ingest := { s.ingest with
    reads := s.ingest.reads.map fun (r : NvmeRead) => if r.port = p then { r with port := 1 - p } else r } }
  hit.foldl (fun s r => send (.nvmeRead { r with port := 1 - p }) s) s

/-- HOST_PORT_LINK_UP. -/
def hostUpState (p : Nat) (s : State) : State :=
  if 2 ≤ p || !s.dev.mainUp || s.dev.st = .sleep then s
  else setHost p { s.host p with up := true } { s with dev := { s.dev with hostUp := s.dev.hostUp.set p true } }

/-- Full sending rate of a connection, as the unit of `Conn.rate`. -/
def fullRate : Nat := 1000000

/-- The rate a connection has recovered to, additively over 1 ms (R326). -/
def Conn.now (c : Conn) (us : Nat) : Nat :=
  if c.recoverAt ≤ us then fullRate else fullRate - (fullRate - c.rate) * (c.recoverAt - us) / 1000

/-- CONGESTION_NOTIFICATION (R326). -/
def congestionState (conn : Nat) (s : State) : State :=
  { s with conns := s.conns.map fun c =>
      if c.id = conn then { c with rate := c.now s.localUs / 2, recoverAt := s.localUs + 1000 } else c }

/-- PFC_FRAME: honoured for the RoCE priority only (R324); one quantum is 512 bit times at 400 Gbit/s, so 1,000,000
quanta are 1,280 µs. -/
def pfcState (p prio : Nat) (quanta : Nat) (s : State) : State :=
  let x := s.host p
  if !x.up || 2 ≤ p then s else
  let x := { x with pfc := satAdd 64 x.pfc 1, received := satAdd 64 x.received 1 }
  if prio = s.regs.prio.getD 0 3 then
    setHost p { x with pausedUntil := tset x.pausedUntil prio (s.localUs + cdiv (quanta % 65536 * 128) 100000) } s
  else setHost p x s

/-- Is a frame one that Table 14.1 supports on this port? -/
def State.frameOk (s : State) (f : Frame) : Bool :=
  decide (f.len ≤ 9216) && f.unicastOk
    && (match f.vlan with
      | none => s.regs.vlan.getD f.port 0 == 0
      | some v => v == s.regs.vlan.getD f.port 0 && v != 0)
    && (match f.body with
      | .icmpEcho | .neighbourDiscovery | .arp | .edp | .roce _ | .inboxWrite _ _ _ => true
      | .fragment | .dhcp | .tcp | .pause | .other => false)

/-- Codes of `Tx.frame`. -/
def frameEchoReply : Nat := 0
def frameNeighbour : Nat := 1
def frameArp : Nat := 2
def frameCnp : Nat := 3

/-- Byte range of the inbox region that a connection's memory window covers (R337). -/
def State.window (s : State) (conn : Nat) : Option (Nat × Nat) :=
  if conn < 0x100 then none
  else (klook s.regs.clients (conn - 0x100)).map fun b =>
    (4096 * ofLe ((b.drop 16).take 2), 4096 * ofLe ((b.drop 18).take 2))

/-- An RDMA WRITE into the inbox: inside the client's window it lands, outside it fails at the adapter (R337). -/
def inboxWrite (conn off : Nat) (data : Bytes) (s : State) : State :=
  match s.window conn with
  | none => s
  | some (base, size) =>
    if base ≤ off && off + data.length ≤ base + size && s.mm.up then
      { s with eval := { s.eval with inbox := memStore s.eval.inbox off data } }
    else s

/-- ETHERNET_FRAME_RECEIVED (R323, R326). -/
def frameState (f : Frame) (s : State) : State :=
  let x := s.host f.port
  if !x.up || 2 ≤ f.port then s else
  let s := setHost f.port { x with received := satAdd 64 x.received 1 } s
  if !s.frameOk f then
    let x := s.host f.port
    setHost f.port { x with discarded := satAdd 64 x.discarded 1 } s
  else match f.body with
    | .icmpEcho => send (.frame f.port frameEchoReply) s
    | .neighbourDiscovery => send (.frame f.port frameNeighbour) s
    | .arp => send (.frame f.port frameArp) s
    | .roce _ => if f.ce then send (.frame f.port frameCnp) s else s
    | .inboxWrite c off data =>
      let s := if f.ce then send (.frame f.port frameCnp) s else s
      if s.conns.any fun k => k.id = c && k.port = f.port then inboxWrite c off data s else s
    | _ => s

/-- INBOX_CLIENT_CONNECT: from a registered address the connection is taken and bound to a port (R325, R326, R337). The
address is the 16 bytes of Table 14.6 as a number. -/
def clientConnectState (addr : Nat) (s : State) : State :=
  match s.regs.clients.find? fun c => ofLe (c.2.take 16) = addr with
  | none => s
  | some (k, _) =>
    let id := 0x100 + k
    if 64 ≤ s.conns.countP (fun c => decide (0x100 ≤ c.id)) && !(s.conns.any fun c => c.id = id) then s else
    let (p, s) := takePort s
    let p := if (s.host p).up then p else 1 - p
    if (s.host p).up then
      { s with conns := ⟨id, p, fullRate, 0⟩ :: s.conns.filter fun c => c.id != id }
    else s

end Sys2Proof.Machine
end

