-- ==== Sys2Proof/Machine/Cores.lean ====
section
/-! DEFINITION. Issue, execution and completion on a core: streams, matrix operations, vector instructions, row
operations, barriers, sideline transfers, split-K groups and completion records (chapters 3 to 6). -/

namespace Sys2Proof.Machine

/-! ## Corrected errors (R94, R314) -/

/-- Log source, hearth and unit of a memory kind of Table 20.2. -/
def memWhere (kind unit : Nat) : Where :=
  match kind with
  | 1 | 2 | 3 => ⟨1, unit / 96, unit, 0xFFFF⟩
  | 4 => ⟨2, unit / 16, unit, 0xFFFF⟩
  | 5 => ⟨2, unit, 0, 0xFFFF⟩
  | 6 => ⟨3, unit, 0, 0xFFFF⟩
  | _ => ⟨4, unit / 6, unit, 0xFFFF⟩

/-- Symbols of a codeword of a memory kind: 36 in an on-chip word group (R93), 68 in a block of main memory (R313). -/
def codeSyms (kind : Nat) : Nat := if kind = 7 then 68 else 36

/-- A correction counts (0x7200:01 to 04; 0x4100:01 and 02, and of its channel). -/
def countCorrected (c : Corrected) (scrub : Bool) (s : State) : State :=
  match c.kind with
  | 1 => bump 0x7200 1 1 64 s
  | 2 | 3 => bump 0x7200 2 1 64 s
  | 4 | 5 => bump 0x7200 3 1 64 s
  | 6 => bump 0x7200 4 1 64 s
  | _ => bump 0x14105 c.unit 1 32 (bump 0x4100 (if scrub then 2 else 1) 1 64 s)

/-- Count a correction; the first of a memory in a step is logged. `scrub`: found by the scrubber. Only a pattern the code
corrects is one. -/
def corrected (c : Corrected) (scrub : Bool) (s : State) : State :=
  if !(hasError (codeSyms c.kind) c.err && correctable (codeSyms c.kind) c.err) then s else
  let s := countCorrected c scrub s
  if s.job.eccLogged.contains (c.kind, c.unit) then s
  else
    let w := memWhere c.kind c.unit
    logAdd 0x0401 w.src w.hearth w.unit 0xFFFF ([c.kind, c.place] ++ w64 c.pa ++ w64 c.va)
      { s with job := { s.job with eccLogged := (c.kind, c.unit) :: s.job.eccLogged } }

def corrected? (c : Option Corrected) (s : State) : State :=
  match c with
  | some c => corrected c false s
  | none => s

/-! ## Program items -/

/-- The unit an entry runs on, its descriptor, its streams and its sideline commands. -/
structure Issue where
  unit : CUnit
  desc : Words
  streams : List (Nat × Words)
  side : List Words
  deriving DecidableEq, Repr

def issueOf : ProgItem → Option Issue
  | .matrix d st sd => some ⟨.matrix, d, st, sd⟩
  | .vector d st sd => some ⟨.vector, d, st, sd⟩
  | .row d st sd => some ⟨.row, d, st, sd⟩
  | _ => none

/-- `AFTER` of an instruction. -/
def Issue.after (i : Issue) : Bool :=
  match i.unit with
  | .matrix => (matDesc i.desc).after
  | .vector => (vecDesc i.desc).after
  | .row => (rowDesc i.desc).after

/-- Roles of the sideline commands that follow an instruction, in their order (R117, R143, Table 06.8). -/
def Issue.roles (i : Issue) : List Nat :=
  match i.unit with
  | .matrix =>
    let d := matDesc i.desc
    [(0, d.asCtx), (1, d.bsCtx), (2, d.csCtx), (3, d.dsCtx)].filterMap fun x => if x.2 = 8 then some x.1 else none
  | .vector =>
    let d := vecDesc i.desc
    (if d.scalSl then [0] else []) ++ (if d.vCtx = 8 then [1] else [])
      ++ ([(2, d.xsCtx), (3, d.ysCtx), (4, d.zsCtx)].filterMap fun x => if x.2 = 8 then some x.1 else none)
      ++ (if d.statMode = 0 then [] else [5])
  | .row =>
    let d := rowDesc i.desc
    ([(2, d.xsCtx), (3, d.dysCtx), (4, d.osCtx)].filterMap fun x => if x.2 = 8 then some x.1 else none)
      ++ (if d.statMode = 0 then [] else [5])

/-- Is a role one that the instruction writes? -/
def roleWrites (u : CUnit) (role : Nat) : Bool :=
  match u with
  | .matrix => role == 3
  | _ => role == 4 || role == 5

/-- The core issues work: it runs an item that is not stopped by a miss (Table 05.7, order 3). -/
def State.issuing (s : State) (core : Nat) : Bool :=
  match s.coreGroup core with
  | some g => (s.group g).item.isSome && (s.group g).misses.isEmpty
  | none => false

/-! ## Admission (R108, R120, R132) -/

/-- Tile-store words two rings share? -/
def ringsMeet (a b : StreamDesc) : Bool :=
  a.ringWords != 0 && b.ringWords != 0 && decide (a.ringBase < b.ringBase + b.ringWords)
    && decide (b.ringBase < a.ringBase + a.ringWords)

/-- R132: the order between an instruction and those in flight. -/
def orderOk (c : CoreSt) (i : Issue) : Bool :=
  if i.after then c.inflight.isEmpty
  else if i.unit = .matrix then c.inflight.all fun x => x.unit == .matrix && x.executed
  else true

/-- R120: every named context free and every ring whole. -/
def roomFor (c : CoreSt) (i : Issue) : Bool :=
  i.streams.all fun (k, w) =>
    (klook c.ctx k).isNone && c.ctx.all fun (_, x) => !ringsMeet (streamDesc x.desc) (streamDesc w)

/-- A free prefetcher slot of a hearth for a main-memory stream, or one more stream without (R102). -/
def takeSlot (hearth : Nat) (d : StreamDesc) (s : State) : Bool × State :=
  if d.memKind != 1 then (false, s)
  else
    let n := tget 0 s.mm.slots hearth
    if n < 256 then (true, { s with mm := { s.mm with slots := tset s.mm.slots hearth (n + 1) } })
    else (false, bump 0x7200 0x0A 1 64 s)

/-- End-to-end credit for `n` more slots of a core's context, reported to the partner that writes (R121): on the die-to-die
control path, or on VL0, where a report says how many slots the attempt has reported, so that a duplicate adds nothing
(R300; DESIGN CHOICE, notes/assumptions/79). -/
def reportCredit (core ctx : Nat) (d : StreamDesc) (n : Nat) (s : State) : State :=
  if n = 0 then s
  else if d.peerDev = s.devId then
    let c := s.core d.peerCore
    setCore d.peerCore { c with credit := tset c.credit d.peerCtx (tget 0 c.credit d.peerCtx + n) } s
  else
    let c := s.core core
    let k := tget 0 c.granted ctx + n
    let s := setCore core { c with granted := tset c.granted ctx k } s
    injectPacket { vl0Packet s d.peerDev 3 (leBytes 4 k) with dstCore := d.peerCore, dstCtx := d.peerCtx, flow := d.tag } s

/-- Credit a write stream's context has left. -/
def CoreSt.creditLeft (c : CoreSt) (ctx : Nat) : Nat := tget 0 c.credit ctx - tget 0 c.spent ctx

/-- Bytes of a tile reach the ring of a read stream: they stand in its slot of the tile store (R115). -/
def ringBytes (core ctx t off : Nat) (bs : Bytes) (s : State) : State :=
  match s.streamAt core ctx with
  | none => s
  | some x =>
    let d := streamDesc x.desc
    let x := { x with recv := x.recv ++ [(65536 * t + off, bs)] }
    let c := s.core core
    setCore core { c with
      tile := memStore c.tile (d.slotAddr t + off) bs
      ctx := tset c.ctx ctx { x with fetched := x.arrivedTiles } } s

/-- A partner's bytes arrive for a read stream. -/
def deliverTile (core ctx t off : Nat) (bs : Bytes) (s : State) : State :=
  match s.streamAt core ctx with
  | none => s
  | some x =>
    let d := streamDesc x.desc
    if d.memKind != 2 || d.dir then s else ringBytes core ctx t off bs s

/-- Stream packets of this attempt that came before their stream are delivered to it (R264). -/
def earlyTiles (core ctx : Nat) (s : State) : State :=
  let mine (p : Packet) : Bool := p.kind == 0 && p.dstCore == core && p.dstCtx == ctx && p.step == s.job.step && p.attempt == s.job.attempt
  (s.coll.early.filter mine).foldl (fun s p => deliverTile p.dstCore p.dstCtx p.seq p.offset p.payload s)
    { s with coll := { s.coll with early := s.coll.early.filter fun p => !mine p } }

/-- Admit one stream for instruction `id`. -/
def admitStream (core id : Nat) (s : State) (b : Nat × Words) : State :=
  let d := streamDesc b.2
  let (slot, s) := takeSlot (core / 96) d s
  let c := s.core core
  let x : Stream := { desc := b.2, inst := id, tiles := d.nTiles, fetched := 0, taken := 0, out := [], todo := [],
                      produced := false, drained := 0, recv := [], slot := slot, prefetched := 0 }
  let s := setCore core { c with ctx := tset c.ctx b.1 x } s
  if d.memKind = 2 && !d.dir then earlyTiles core b.1 (reportCredit core b.1 d (min 3 d.nTiles) s) else s

/-- STREAM_ADMISSION: the instruction at the core's program position, its streams all together; or a sideline command of
its own, while fewer than four transfers are outstanding (R118). -/
def admissionState (core : Nat) (s : State) : State :=
  let c := s.core core
  if !s.issuing core then s else
  match c.prog[c.pc]? with
  | none => s
  | some (.sideline w) =>
    if 4 ≤ c.side.length then s
    else setCore core { c with pc := c.pc + 1, side := c.side ++ [⟨none, c.nextId, 0, w⟩] } s
  | some (.barrier _) => s
  | some p =>
    match issueOf p with
    | none => s
    | some i =>
      if orderOk c i && roomFor c i then
        let id := c.nextId
        let inf : Inflight := {
          id := id, unit := i.unit, desc := i.desc, ctxs := i.streams.map (·.1), executed := false, reads := [],
          outs := [], partials := [], level := 0, final := false, status := NStatus.zero, flush := 0, sat := 0,
          replays := 0 }
        let side := (i.roles.zip i.side).map fun (r, w) => (⟨some id, id, r, w⟩ : SideReq)
        let s := setCore core { c with
          pc := c.pc + 1, nextId := id + 1, inflight := c.inflight ++ [inf], side := c.side ++ side } s
        i.streams.foldl (admitStream core id) s
      else s

/-! ## Pass-through (R231 to R233) -/

/-- R231, R233: a side has a root: the block names one, and its `HAS_ROOT` is 1. -/
def State.rootActive (s : State) (jobId prob : Nat) : Bool :=
  if jobId = 0xFFFF then false
  else match (s.probIdx.filter fun x => x.1.job.id == jobId)[prob]? with
    | none => false
    | some (p, _) => (s.rootRec p).hasRoot

/-- A preconditioning operation that passes the other operand through (R232, R233): left (true) or right. -/
def State.passThrough (s : State) (core : Nat) (d : MatDesc) : Option Bool :=
  match s.coreItem core with
  | none => none
  | some it =>
    match s.layer? it.layer with
    | none => none
    | some l =>
      if it.kind = .upd && it.prog = l.uProg then
        match (s.layerBlocks it.layer)[d.opTag % 4096]? with
        | none => none
        | some b =>
          if d.opTag / 4096 = 0xC && !s.rootActive b.lJob b.lProb then some true
          else if d.opTag / 4096 = 0xD && !s.rootActive b.rJob b.rProb then some false
          else none
      else none

/-! ## Tiles (R112 to R115, R121) -/

/-- The pages of some addresses enter a hearth's translation cache (R126). -/
def touchPages (hearth : Nat) (lines : List Nat) (s : State) : State :=
  ((lines.map fun l => 128 * l / pageSize).eraseDups).foldl (fun s v => atcTouch hearth v s) s

/-- Lines, by 128 × index, that elements of a stream at these addresses lie in. -/
def StreamDesc.lines (d : StreamDesc) (vas : List Nat) : List Nat :=
  (vas.flatMap fun a => [a / 128, (a + d.width - 1) / 128]).eraseDups

/-- Access the lines of a tile in their home pantries, through the hearth's translation cache (R99, R100, R126). -/
def touchTile (core : Nat) (d : StreamDesc) (vas : List Nat) (s : State) : State :=
  let lines := d.lines vas
  touchPages (core / 96) lines (touchLines (lines.filterMap fun l => s.phys (128 * l)) d.dir d.streaming s)

/-- Bytes of a delivered tile: positions that no element fills hold open values (notes/assumptions/1). -/
def tileImage (d : StreamDesc) (t : Nat) (elems : List (Nat × Nat)) (s : State) : Bytes × State :=
  let ws := packedWrites d 0 elems
  let n := d.tileBytes t
  let m := ws.foldl applyWrite []
  let full (i : Nat) : Bool := ws.any fun w => decide (w.addr ≤ i) && decide (i < w.addr + w.data.length)
  if (List.range n).all full then (memBytes m 0 n, s)
  else
    let (k, s) := takeFree s
    ((List.range n).map fun i => if full i then memRead m i else (Config.freeBytes k).getD i 0, s)

/-- The oldest tile of a write stream has left its ring; the producer fills the slot. -/
def drainOne (core ctx : Nat) (s : State) : State :=
  let c := s.core core
  match klook c.ctx ctx with
  | none => s
  | some x =>
    setCore core ({ c with ctx := tset c.ctx ctx { x with out := x.out.drop 1, drained := x.drained + 1 } }.refill ctx) s

/-- Drain one tile to a partner: across the die, or on VL2 in packets of 4,096 bytes. -/
def drainDelivery (core ctx : Nat) (x : Stream) (d : StreamDesc) (ws : List (Nat × Nat)) (s : State) : State :=
  let t := x.drained
  let (bs, s) := tileImage d t ws s
  let s := drainOne core ctx s
  let c := s.core core
  let s := setCore core { c with spent := tset c.spent ctx (tget 0 c.spent ctx + 1) } s
  if d.peerDev = s.devId then deliverTile d.peerCore d.peerCtx t 0 bs s
  else (List.range (cdiv bs.length 4096)).foldl (fun s k => injectPacket
    { vl0Packet s d.peerDev 0 ((bs.drop (4096 * k)).take 4096) with
      vl := 2, origVl := 2, dstCore := d.peerCore, dstCtx := d.peerCtx, flow := d.tag, seq := t, offset := 4096 * k } s) s

/-- Blocks that the element writes of a tile cover whole. -/
def State.covered (s : State) (ws : List EWrite) (b : Nat) : Bool :=
  let has (half a : Nat) : Bool := ws.any fun w =>
    w.half == half && (match s.phys w.addr with
      | some p => decide (p ≤ a) && decide (a < p + w.data.length)
      | none => false)
  (List.range 128).all fun i =>
    let a := 128 * b + i
    has 0 a || (has 1 a && has 2 a)

/-- R314: a block that the writes of a tile cover whole loses an earlier error. -/
def clearCovered (ws : List EWrite) (s : State) : State :=
  { s with mm := s.mm.rewrite ((s.mm.poison ++ s.mm.broken).filter (s.covered ws)) }

/-- A write of elements can be accepted: every byte is mapped for it, and no fill for a partly written line reads
uncorrectable data (R101, R320). -/
def State.writeOk (s : State) (ws : List EWrite) : Bool :=
  ws.all fun w => match s.xlat w.addr true with
    | some p => !s.bad p || s.covered ws (p / 128)
    | none => false

/-- R233: contexts of the root operand of an operation that passes the other operand through: it reads no root. -/
def State.skips (s : State) (core : Nat) (i : Inflight) : List Nat :=
  if i.unit = .matrix then
    let d := matDesc i.desc
    match s.passThrough core d with
    | some true => [d.aCtx, d.asCtx]
    | some false => [d.bCtx, d.bsCtx]
    | none => []
  else []

/-- The stream in a context is one its instruction does not read. -/
def State.skipped (s : State) (core ctx : Nat) (x : Stream) : Bool :=
  (s.core core).inflight.any fun i => i.id == x.inst && (s.skips core i).contains ctx

/-- DATA_TILE_FETCH: fetch or drain the next tile of a stream. A tile that reaches an unmapped or uncorrectable byte is
not moved: the events TRANSLATION_MISS and GDDR7_UNCORRECTABLE say what follows. -/
def tileFetchState (core ctx : Nat) (corr : Option Corrected) (s : State) : State :=
  if !s.issuing core then s else
  match s.streamAt core ctx with
  | none => s
  | some x =>
    let d := streamDesc x.desc
    if !d.dir then
      if d.memKind = 1 && decide (x.fetched < x.tiles) && decide (x.fetched < x.taken + 3) && s.tileOk core d x.fetched
          && !s.skipped core ctx x then
        let bs := s.tileFrom core d x.fetched
        corrected? corr (ringBytes core ctx x.fetched 0 bs (touchTile core d (s.tileVas core d x.fetched) s))
      else s
    else
      match x.out with
      | [] => s
      | es :: _ =>
        if d.memKind = 1 then
          let ws := s.tileWrites core d es
          if s.writeOk ws then
            let s := ws.foldl writeMain (clearCovered ws s)
            corrected? corr (drainOne core ctx (touchTile core d (ws.map (·.addr)) s))
          else s
        else if 0 < (s.core core).creditLeft ctx then corrected? corr (drainDelivery core ctx x d es s)
        else s

/-- STREAM_CREDIT_REPORT from a partner on another device: the slots it has reported in the attempt. -/
def creditReportState (core ctx tiles : Nat) (s : State) : State :=
  let c := s.core core
  if s.inStep || (s.coreItem core).isSome then
    setCore core { c with credit := tset c.credit ctx (max (tget 0 c.credit ctx) tiles) } s
  else s

/-- The next tile the prefetcher takes, and the oldest a stream still needs. -/
def Stream.ahead (x : Stream) : Nat := max x.prefetched (if (streamDesc x.desc).dir then x.drained else x.fetched)
def Stream.oldest (x : Stream) : Nat := if (streamDesc x.desc).dir then x.drained else x.taken

/-- The lines of tile t of a stream come into their pantries. -/
def prefetchTile (core ctx t : Nat) (x : Stream) (s : State) : State :=
  let c := s.core core
  let s := setCore core { c with ctx := tset c.ctx ctx { x with prefetched := t + 1 } } s
  let d := streamDesc x.desc
  let lines := (d.lines (s.tileVas core d t)).filterMap fun l => s.phys (128 * l)
  touchLines (lines.filter fun pa => !s.bad pa) false d.streaming s

/-- PANTRY_PREFETCH: the prefetcher runs up to `PANTRY_LEAD` tiles beyond the peel's three (R102, R103). A line without
translation, or with uncorrectable data, is passed over; a write stream's lines are fetched ahead of its drain. -/
def prefetchState (core ctx : Nat) (s : State) : State :=
  match s.streamAt core ctx with
  | none => s
  | some x =>
    if x.slot && decide (x.ahead < x.tiles) && decide (x.ahead < x.oldest + 3 + (streamDesc x.desc).lead)
    then prefetchTile core ctx x.ahead x s
    else s

/-! ## Sideline (R117, R118, R141) -/

/-- Bytes a sideline command finds on one side; `shifted` addresses are relocated. -/
def State.sideRead (s : State) (core mem a n : Nat) : Bytes :=
  let c := s.core core
  match mem with
  | 0 => memBytes c.tile (a + s.shift core false a) n
  | 1 => s.vmRead (a + s.shift core true a) n
  | _ => memBytes c.sideMem a n

def sideWrite (core mem a : Nat) (bs : Bytes) (s : State) : State :=
  let c := s.core core
  match mem with
  | 0 => setCore core { c with tile := memStore c.tile (a + s.shift core false a) bs } s
  | 1 => vmStore (a + s.shift core true a) bs (readTouch (core / 96) (a + s.shift core true a) bs.length s)
  | _ => setCore core { c with sideMem := memStore c.sideMem a bs } s

/-- A main-memory range is mapped for the access, and no byte the access needs reads uncorrectable: none of a read, of a
write none of a line it covers in part (R320). -/
def State.rangeOk (s : State) (va n : Nat) (write : Bool) : Bool :=
  (List.range n).all fun i => match s.xlat (va + i) write with
    | some p => (write && wholeLine va n ((va + i) / 128)) || !s.bad p
    | none => false

/-- A read of a sideline transfer: main memory is reached through the translation cache and the home pantries. -/
def sideTouch (core mem a n : Nat) (s : State) : State :=
  if mem = 1 then readTouch (core / 96) (a + s.shift core true a) n s else s

/-- Near memory of a command as the far codes number them: tile store 0, side memory 2. A command of its own that names no
near side takes the side memory (DESIGN CHOICE, notes/assumptions/53). -/
def nearMem (k : Nat) : Nat := if k = 1 then 0 else 2

/-- R141: the statistics word after an accumulating write. -/
def statAccum (old new : Bytes) : Bytes :=
  let f (i : Nat) : Bytes := leBytes 4 (satAdd 32 (ofLe ((old.drop (4 * i)).take 4)) (ofLe ((new.drop (4 * i)).take 4)))
  f 0 ++ f 1 ++ f 2 ++ new.drop 12

/-- Does an instruction accumulate its statistics word? -/
def Inflight.accumulates (i : Inflight) : Bool :=
  match i.unit with
  | .matrix => false
  | .vector => (vecDesc i.desc).statMode == 2
  | .row => (rowDesc i.desc).statMode == 2

/-- Every write stream of an instruction has delivered its last tile. -/
def CoreSt.drained (c : CoreSt) (i : Inflight) : Bool :=
  i.ctxs.all fun k => match klook c.ctx k with
    | some x => x.inst != i.id || !(streamDesc x.desc).dir || (x.produced && x.drained == x.tiles)
    | none => true

/-- All streams of an instruction have retired and no sideline command of it is left. -/
def CoreSt.complete (c : CoreSt) (i : Inflight) : Bool :=
  i.executed && !(c.ctx.any fun (_, x) => x.inst == i.id) && !(c.side.any fun r => r.inst == some i.id)

/-- Vector instructions and row operations that have completed leave the core (R109). -/
def CoreSt.tidy (c : CoreSt) : CoreSt :=
  { c with inflight := c.inflight.filter fun i => i.unit == .matrix || !c.complete i }

/-- Carry out a command whose near side is an instruction. A write waits for what it carries: the scales of a split-K
group's output for the tree of R85, the statistics for the outputs before them. A command shorter or longer than its
array moves what both have (DEDUCED, notes/assumptions/57). -/
def sideForInst (core : Nat) (r : SideReq) (i : Inflight) (m : SideCmd) (s : State) : State :=
  let c := s.core core
  let rest := { c with side := c.side.drop 1 }
  if !roleWrites i.unit r.role then
    let bs := s.sideRead core m.far m.farAddr m.len
    setCore core (rest.updInst i.id fun i => { i with reads := (r.role, bs) :: i.reads })
      (sideTouch core m.far m.farAddr m.len s)
  else if !i.executed || (i.unit == .matrix && !i.final) || (r.role = 5 && !c.drained i) then s
  else
    let bs := (klook i.outs r.role).getD []
    let bs := if r.role = 5 && i.accumulates then statAccum (s.sideRead core m.far m.farAddr m.len) bs else bs
    let s := setCore core rest s
    let s := sideWrite core m.far m.farAddr (bs.take m.len) s
    setCore core (s.core core).tidy s

/-- SIDELINE_TRANSFER: the oldest command of the core, as one access. -/
def sidelineState (core : Nat) (s : State) : State :=
  let c := s.core core
  if !s.issuing core then s else
  match c.side with
  | [] => s
  | r :: rest =>
    let m := sideCmd r.cmd
    let far := m.farAddr + s.shift core true m.farAddr
    let i? := r.inst.bind fun id => c.inflight.find? fun i => i.id = id
    let write := if r.inst.isNone then m.toFar else i?.any fun i => roleWrites i.unit r.role
    let reads := !write || i?.any fun i => r.role == 5 && i.accumulates
    if m.far = 1 && !((!write || s.rangeOk far m.len true) && (!reads || s.rangeOk far m.len false)) then s else
    match r.inst with
    | some id =>
      match c.inflight.find? fun i => i.id = id with
      | some i => sideForInst core r i m s
      | none => setCore core { c with side := rest } s
    | none =>
      let s := setCore core { c with side := rest } s
      if m.toFar then sideWrite core m.far m.farAddr (s.sideRead core (nearMem m.near) m.nearAddr m.len) s
      else sideWrite core (nearMem m.near) m.nearAddr (s.sideRead core m.far m.farAddr m.len)
        (sideTouch core m.far m.farAddr m.len s)

/-! ## Execution -/

/-- The next instruction of a unit, once its reading sideline transfers, and the core's own before it, are complete
(R118, R132). -/
def State.next (s : State) (core : Nat) (u : CUnit) : Option Inflight :=
  let c := s.core core
  if !s.issuing core then none else
  match c.inflight.find? fun i => i.unit == u && !i.executed with
  | none => none
  | some i =>
    if c.side.any fun r => (r.inst == some i.id && !roleWrites u r.role) || (r.inst.isNone && decide (r.before ≤ i.id))
    then none else some i

/-- Every tile the instruction reads has been fetched or delivered; a tile-store stream is read in place. -/
def State.staged (s : State) (core : Nat) (i : Inflight) : Bool :=
  (s.core core).ctx.all fun (k, x) =>
    let d := streamDesc x.desc
    x.inst != i.id || d.dir || d.memKind == 0 || x.fetched == x.tiles || (s.skips core i).contains k

/-- The next instruction of a unit, when the last of its data are there. -/
def State.ready (s : State) (core : Nat) (u : CUnit) : Option Inflight :=
  match s.next core u with
  | some i => if s.staged core i then some i else none
  | none => none

/-- The consumer takes the tiles of a read stream up to the t-th; ring slots freed in a delivery are reported (R121). -/
def takeTo (core : Nat) (s : State) (x : Nat × Stream × Nat) : State :=
  let (k, y, t) := x
  let c := s.core core
  let s := setCore core { c with ctx := tset c.ctx k { y with taken := t } } s
  let d := streamDesc y.desc
  if d.memKind = 2 then reportCredit core k d (min (t + 3) y.tiles - min (y.taken + 3) y.tiles) s else s

/-- Read streams of an instruction. -/
def CoreSt.readsOf (c : CoreSt) (id : Nat) : List (Nat × Stream) :=
  c.ctx.filter fun (_, x) => x.inst == id && !(streamDesc x.desc).dir

/-- The unit takes what stands in the rings of its next instruction (R115; DESIGN CHOICE for the order among its streams,
notes/assumptions/66). -/
def takeSome (core : Nat) (u : CUnit) (s : State) : State :=
  match s.next core u with
  | none => s
  | some i => ((s.core core).readsOf i.id).foldl (fun s (k, x) => takeTo core s (k, x, max x.taken x.fetched)) s

/-- The array or engine has taken every tile of the instruction's read streams. -/
def takeAll (core id : Nat) (s : State) : State :=
  let s := ((s.core core).readsOf id).foldl (fun s (k, x) => takeTo core s (k, x, x.tiles)) s
  let c := s.core core
  setCore core { c with inflight := c.inflight.map fun i => if i.id = id then { i with executed := true } else i } s

/-- The other operand's binary32 elements at the output coordinates (R233). -/
def State.passOut (s : State) (core : Nat) (d : MatDesc) (left : Bool) : MatOut :=
  { MatOut.empty with
    elems := (List.range d.m).flatMap fun r => (List.range d.n).map fun c =>
      let blk := r / shapeRows d.shape * blockCols d + c / shapeCols d.shape
      (r, c, if left then s.ctxElem core d.bCtx (abIndex d (shapeCols d.shape) (!d.bTrans) blk c (d.mBase + r - d.kBase))
        else s.ctxElem core d.aCtx (abIndex d (shapeRows d.shape) d.aTrans blk r (d.nBase + c - d.kBase))) }

/-- MATRIX_OPERATION: the array takes the tiles that stand in its rings; with the last of them it computes. -/
def matrixState (core : Nat) (s : State) : State :=
  match s.ready core .matrix with
  | none => takeSome core .matrix s
  | some i =>
    let d := matDesc i.desc
    if d.ksN != 0 then
      let (ps, st) := s.runMember core i d
      let s := takeAll core i.id s
      setCore core ((s.core core).updInst i.id fun i => { i with partials := ps, status := st }) s
    else
      let o := match s.passThrough core d with
        | some left => s.passOut core d left
        | none => s.runMatrixOp core i d
      putMatrix core i d o (takeAll core i.id s)

/-- Scalars of a vector instruction (R143). -/
def Inflight.scalars (i : Inflight) (d : VecDesc) : W32 × W32 :=
  if d.scalSl then
    let b := i.brought 0
    (BitVec.ofNat 32 (ofLe (b.take 4)), BitVec.ofNat 32 (ofLe (b.drop 4)))
  else (d.s0, d.s1)

/-- VECTOR_INSTRUCTION, like MATRIX_OPERATION. -/
def vectorState (core : Nat) (s : State) : State :=
  match s.ready core .vector with
  | none => takeSome core .vector s
  | some i =>
    let d := vecDesc i.desc
    let el (fmt ctx path role e : Nat) : W32 :=
      let f := opFmt fmt
      let k := viewScaleIdx f d.rowLen e
      toB32 (s.operand core i fmt (s.ctxElem core ctx e) path role k k)
    let v (e : Nat) : W32 :=
      toB32 (decodeElem (opFmt d.vFmt).elemFmt
        (if d.vCtx = 8 then elemAt (opFmt d.vFmt).elemFmt (i.brought 1) e else s.ctxElem core d.vCtx e))
    let (s0, s1) := i.scalars d
    let vals := runVector d (el d.xFmt d.xCtx d.xsCtx 2) (el d.yFmt d.yCtx d.ysCtx 3) v s0 s1
    let o := convStage d.zFmt d.rowLen vals
    let s := putConv core i d.zCtx d.zsCtx 4 o (takeAll core i.id s)
    let c := (s.core core).updInst i.id fun i =>
      if d.statMode = 0 then i else { i with outs := (5, statWord o.stat d.layerId d.opTag) :: i.outs }
    setCore core c.tidy s

/-- Binary32 word of the side memory. -/
def CoreSt.side32 (c : CoreSt) (a : Nat) : W32 := BitVec.ofNat 32 (ofLe (memBytes c.sideMem a 4))

/-- Streams of one row (R147). -/
def State.rowIn (s : State) (core : Nat) (i : Inflight) (d : RowDesc) (r : Nat) : RowIn :=
  let n := d.rowLen
  let js := List.range n
  let two (fmt ctx path role p : Nat) : List W32 :=
    let f := opFmt fmt
    let bs := blockElems f.blockSize
    let per := cdiv n (max 1 bs)
    js.map fun c => toB32 (s.operand core i fmt (s.ctxElem core ctx ((2 * r + p) * n + c)) path role
      ((2 * r + p) * per + c / max 1 bs) (r * per + c / max 1 bs))
  let par (on : Bool) (ctx off : Nat) (dflt : W32) : List W32 :=
    if on then js.map fun c => toB32 (decodeElem (opFmt d.parFmt).elemFmt (s.ctxElem core ctx (off + c)))
    else js.map fun _ => dflt
  let bwd := decide (4 ≤ d.rop)
  { x := two d.xFmt d.xCtx d.xsCtx 2 0, x2 := two d.xFmt d.xCtx d.xsCtx 2 1
    dy := if bwd then two d.dyFmt d.dyCtx d.dysCtx 3 0 else []
    dy2 := if bwd then two d.dyFmt d.dyCtx d.dysCtx 3 1 else []
    g := par d.gammaEn d.gCtx (if bwd then 2 * r * n else r * n) f32One
    g2 := par d.gammaEn d.gCtx (if bwd then (2 * r + 1) * n else r * n) f32One
    b := par d.betaEn d.bCtx (r * n) f32Zero }

/-- One row: its outputs appended, its statistics and column accumulators in the side memory (R151, R152). -/
def rowStep (s0 : State) (core : Nat) (i : Inflight) (d : RowDesc) (acc : List W32 × Mem) (r : Nat) :
    List W32 × Mem :=
  let slot := 8 * ((d.statBase + r) % 32768)
  let rd (a : Nat) : W32 := BitVec.ofNat 32 (ofLe (memBytes acc.2 a 4))
  let inp := s0.rowIn core i d r
  let o := runRow d r inp (rd slot, rd (slot + 4))
  let m := match o.stat with
    | some (a, b) => memStore acc.2 slot (leBytes 4 a.toNat ++ leBytes 4 b.toNat)
    | none => acc.2
  let m :=
    if d.caccEn then
      ((inp.dy.zip o.hat).zipIdx).foldl (fun m ((dy, xh), c) =>
        let a := 8 * (d.caccBase + c)
        let w (a : Nat) : W32 := BitVec.ofNat 32 (ofLe (memBytes m a 4))
        let m := memStore m a (leBytes 4 (ffma dy xh (w a)).toNat)
        if d.rop = 4 then memStore m (a + 4) (leBytes 4 (fadd (w (a + 4)) dy).toNat) else m) m
    else m
  (acc.1 ++ o.out, m)

/-- ROW_OPERATION. `CACC_INIT` zeroes both accumulators of every column (DEDUCED for RMS_BWD, notes/assumptions/56). -/
def rowState (core : Nat) (s : State) : State :=
  match s.ready core .row with
  | none => takeSome core .row s
  | some i =>
    let d := rowDesc i.desc
    let sm := (s.core core).sideMem
    let sm := if d.caccEn && d.caccInit then memZero sm (8 * d.caccBase) (8 * d.rowLen) else sm
    let (vals, sm) := (List.range d.rows).foldl (rowStep s core i d) ([], sm)
    let o := convStage d.outFmt d.rowLen vals
    let s := takeAll core i.id s
    let s := setCore core { s.core core with sideMem := sm } s
    let s := putConv core i d.outCtx d.osCtx 4 o s
    let c := (s.core core).updInst i.id fun i =>
      if d.statMode = 0 then i else { i with outs := (5, statWord o.stat d.layerId d.opTag) :: i.outs }
    setCore core c.tidy s

/-! ## Split-K groups (R84 to R86) -/

/-- The split-K operation in flight on a core, once it has run. -/
def CoreSt.splitOp (c : CoreSt) : Option Inflight :=
  c.inflight.find? fun i => i.unit == .matrix && (matDesc i.desc).ksN != 0 && i.executed && !i.final

/-- A member's partial has been passed on: its D stream has nothing to write. -/
def passedOn (core id : Nat) (s : State) : State :=
  let c := s.core core
  setCore core { (c.updInst id fun i => { i with final := true, partials := [] }) with
    ctx := c.ctx.map fun (k, x) =>
      if x.inst == id && (streamDesc x.desc).dir then (k, { x with produced := true, drained := x.tiles, out := [], todo := [] })
      else (k, x) } s

/-- SPLIT_K_COMBINE: the member on `core` takes its partner's partial at `level` (R85). -/
def combineState (core level : Nat) (s : State) : State :=
  match (s.core core).splitOp with
  | none => s
  | some i =>
    let d := matDesc i.desc
    let n := d.ksN + 1
    let k := d.ksIdx
    if i.level != level || k % 2 ^ (level + 1) != 0 then s else
    let up (ps : List W32) (st : NStatus) (s : State) : State :=
      let c := (s.core core).updInst i.id fun i => { i with partials := ps, status := i.status.or st, level := level + 1 }
      let s := setCore core c s
      if k = 0 && decide (n ≤ 2 ^ (level + 1)) then putMatrix core i d (writePartials d ps) s else s
    if n ≤ k + 2 ^ level then up i.partials NStatus.zero s
    else
      let pc := d.ksBase + k + 2 ^ level
      match (s.core pc).splitOp with
      | none => s
      | some j =>
        let e := matDesc j.desc
        if e.ksBase = d.ksBase && e.ksIdx = k + 2 ^ level && e.opTag = d.opTag && j.level = level then
          let (ps, st) := treeCombine i.partials j.partials
          up ps (j.status.or st) (passedOn pc j.id s)
        else s

/-! ## Retirement and completion -/

/-- Packets of a device that have not been acknowledged by the next hop. -/
def State.underway (s : State) : List Packet :=
  s.fab.inject ++ s.fab.ports.flatMap fun (_, x) => x.queue.map (·.p) ++ x.unacked.map (·.2.2.p)

/-- A tile that this device delivers to a partner is still under way: until the link has acknowledged its packets the
partner's ring is not taken to have (DEDUCED, notes/assumptions/67). -/
def State.inTransit (s : State) (d : StreamDesc) : Bool :=
  d.memKind == 2 && d.peerDev != s.devId && s.underway.any fun p =>
    p.kind == 0 && p.src == s.devId && p.dst == d.peerDev && p.dstCore == d.peerCore && p.dstCtx == d.peerCtx

/-- STREAM_RETIRE (R109): the context and its prefetcher slot are free again. Credit left over was reported for the next
stream. -/
def retireState (core ctx : Nat) (s : State) : State :=
  match s.streamAt core ctx with
  | none => s
  | some x =>
    let d := streamDesc x.desc
    let done := if d.dir then x.produced && x.drained == x.tiles && !s.inTransit d else x.taken == x.tiles
    if !done then s else
    let c := s.core core
    let s := setCore core ({ c with ctx := kdel c.ctx ctx } : CoreSt).tidy s
    if x.slot then
      { s with mm := { s.mm with slots := tset s.mm.slots (core / 96) (tget 0 s.mm.slots (core / 96) - 1) } }
    else s

/-- R82: the first LONG_SUM and the first OVF_REPLAYED of a step are logged. -/
def logOnce (code core : Nat) (d : MatDesc) (on : Bool) (s : State) : State :=
  if on && !s.job.loggedOnce.contains code then
    logAdd code 1 (core / 96) core d.layerId [d.opTag, d.descId]
      { s with job := { s.job with loggedOnce := code :: s.job.loggedOnce } }
  else s

/-- A completion record (Table 03.9); its counts saturate (DEDUCED, notes/assumptions/51). -/
def compRecord (core step : Nat) (d : MatDesc) (i : Inflight) : Bytes :=
  leBytes 4 (d.descId * 2 ^ 16 + core) ++ leBytes 4 (min i.replays 0xFFFF * 2 ^ 16 + i.status.toNat)
    ++ leBytes 4 (min i.flush 0xFFFFFFFF) ++ leBytes 4 (min i.sat 0xFFFFFFFF) ++ leBytes 8 step
    ++ leBytes 4 (d.layerId * 2 ^ 16 + d.opTag) ++ leBytes 4 1

/-- Sum of two layer statuses, saturating (Table 07.5). -/
def LStat.add (x y : LStat) : LStat :=
  { status := x.status.or y.status, flush := satAdd 32 x.flush y.flush, sat := satAdd 32 x.sat y.sat
    replays := satAdd 16 x.replays y.replays, xlat := satAdd 16 x.xlat y.xlat }

/-- Fold a record into what the group's item brings to its layer's status; a replay of the item starts it over (R178;
DEDUCED, notes/assumptions/68). -/
def foldLstat (core : Nat) (i : Inflight) (s : State) : State :=
  match s.coreGroup core with
  | some g => setGroup g { s.group g with got := (s.group g).got.add ⟨i.status, i.flush, i.sat, i.replays, 0⟩ } s
  | none => s

/-- Where a core's next completion record stands (R87). -/
def State.recordVa (s : State) (core : Nat) : Nat := s.params.crecVa * 65536 + core * pageSize + 32 * (s.core core).recSlot

/-- Write the completion record of an operation, and log its first LONG_SUM and OVF_REPLAYED of the step (R82, R87). -/
def putRecord (core : Nat) (it : Item) (i : Inflight) (s : State) : State :=
  let d := matDesc i.desc
  let c := s.core core
  let va := s.recordVa core
  let s := vmStore va (compRecord core (s.itemStep it) d i) (setCore core { c with recSlot := (c.recSlot + 1) % 65536 } s)
  logOnce 0x0103 core d i.status.replayed (logOnce 0x0101 core d i.status.longSum s)

/-- MATRIX_OPERATION_COMPLETE: the completion record of the oldest finished operation (R82, R86 to R88, R177). -/
def matrixCompleteState (core : Nat) (s : State) : State :=
  let c := s.core core
  match c.inflight.find? fun i => i.unit == .matrix with
  | none => s
  | some i =>
    if !(i.final && c.complete i) then s else
    let d := matDesc i.desc
    let rest := setCore core { c with inflight := c.inflight.filter fun x => x.id != i.id } s
    if d.ksN != 0 && d.ksIdx != 0 then rest
    else
      match s.coreItem core with
      | none => rest
      | some it =>
        if !s.vmGood (s.recordVa core) 32 then s else
        let s := putRecord core it i rest
        match it.kind with
        | .fwd | .bwd | .win | .upd => foldLstat core i s
        | _ => s

/-! ## Barriers (R133) -/

/-- The barrier a core stands at. -/
def CoreSt.atBarrier (c : CoreSt) : Option Nat :=
  match c.prog[c.pc]? with
  | some (.barrier w) => some (barrierId w)
  | _ => none

/-- GROUP_BARRIER: the core reaches the barrier at its program position, and the group passes it once every core of the
group stands at the same one with every earlier instruction complete. -/
def barrierState (core : Nat) (s : State) : State :=
  match s.coreGroup core, (s.core core).atBarrier with
  | some g, some id =>
    if !s.issuing core then s else
    let s := setCore core { s.core core with barrier := some id } s
    let cs := (s.groupOf g).cores
    if cs.all fun n =>
        let c := s.core n
        c.barrier == some id && c.inflight.isEmpty && c.side.isEmpty then
      cs.foldl (fun s n => let c := s.core n; setCore n { c with barrier := none, pc := c.pc + 1 } s) s
    else s
  | _, _ => s

/-- A core has nothing left of its program (R124). -/
def CoreSt.finished (c : CoreSt) : Bool :=
  decide (c.prog.length ≤ c.pc) && c.inflight.isEmpty && c.side.isEmpty && c.ctx.isEmpty

end Sys2Proof.Machine
end

