-- ==== Sys2Proof/Machine/Update.lean ====
section
/-! DEFINITION. The update unit: tie sums, root expansions, update kernels, generation bytes and the working copy
(chapter 9). -/

namespace Sys2Proof.Machine

/-! ## Tie sums and expansions (R230, R231) -/

/-- Binary32 words of an array in main memory. -/
def State.vmWords (s : State) (va n : Nat) : List W32 :=
  (List.range n).map fun i => BitVec.ofNat 32 (s.vmWord (va + 4 * i))

/-- Bytes of binary32 words. -/
def b32Bytes (l : List W32) : Bytes := l.flatMap fun w => leBytes 4 w.toNat

/-- R230: the uses' reduced gradients, added in order, stand over the first. -/
def tieSum (s : State) (b : BlockRec) : State :=
  if b.ties = 0 then s else
  let use (t : Nat) : List W32 := s.vmWords (b.gradVa + t * up4k (4 * b.elems)) b.elems
  let sum := (List.range b.ties).foldl (fun acc t => (acc.zip (use (t + 1))).map fun (x, y) => fadd x y) (use 0)
  vmStore b.gradVa (b32Bytes sum) s

/-- The problem of a job by its index in the job. -/
def State.rootOf (s : State) (jobId prob : Nat) : Option (Prob × Nat) :=
  if jobId = 0xFFFF then none else (s.probIdx.filter fun x => x.1.job.id == jobId)[prob]?

/-- What the update of a block reads before its kernel: the uses' gradients, and the slots of its roots. -/
def State.rootReads (s : State) (jobId prob : Nat) : List (Nat × Nat) :=
  match s.rootOf jobId prob with
  | none => []
  | some (p, i) =>
    if !s.rootActive jobId prob then [] else
    let r := s.rootRec p
    [(p.rootSlot (if (s.run i).latchStep = s.job.step then r.latchSlot else r.inForce), symSlot p.job.n)]
def State.beforeReads (s : State) (b : BlockRec) : List (Nat × Nat) :=
  (if b.ties = 0 then [] else (List.range (b.ties + 1)).map fun t => (b.gradVa + t * up4k (4 * b.elems), 4 * b.elems))
    ++ s.rootReads b.lJob b.lProb ++ s.rootReads b.rJob b.rProb

/-- Every range a unit is about to read is good (R320), and it reads them through the pantries (R99). -/
def State.allGood (s : State) (l : List (Nat × Nat)) : Bool := l.all fun r => s.vmGood r.1 r.2
def readAll (hearth : Nat) (l : List (Nat × Nat)) (s : State) : State := l.foldl (fun s r => readTouch hearth r.1 r.2 s) s

/-- R231: refresh one expansion area. -/
def expand (jobId prob va : Nat) (s : State) : State :=
  match s.rootOf jobId prob with
  | none => s
  | some (p, i) =>
    if !s.rootActive jobId prob then s else
    let r := s.rootRec p
    let slot := if (s.run i).latchStep = s.job.step then r.latchSlot else r.inForce
    let tag := s.vmRead (p.rootSlot slot) 8
    if s.vmRead va 8 = tag then s else
    let m := s.readSym (p.rootSlot slot + 4096) p.job.n
    vmStore va tag (vmStore (va + 4096) (m.flatMap b32Bytes) s)

/-- Order 4 of Table 09.4 for one block. -/
def expandBlock (s : State) (b : BlockRec) : State :=
  expand b.rJob b.rProb b.rexp (expand b.lJob b.lProb b.lexp s)

/-! ## Kernels (R236 to R241) -/

/-- What a kernel reads besides its registers: scalars, step number, layer status. -/
structure KEnv where
  scal : List W32
  step : Nat
  lstat : Nat
  deriving DecidableEq, Repr

/-- Table 09.8. -/
def KEnv.operand (e : KEnv) (regs : List W32) (c : Nat) : W32 :=
  if c < 16 then regs.getD c 0
  else if c < 28 then e.scal.getD (c - 16) 0
  else match c with
    | 28 => b32OfNat e.step
    | 29 => b32OfNat e.lstat
    | 30 => f32Zero
    | _ => f32One

/-- SIGN of Table 09.9. -/
def ksign (a : W32) : W32 :=
  let v := ofB32 a
  if v.isNan then toB32 .nan else if v.isZero then f32Zero else if v.sign then 0xBF800000 else f32One

/-- The one-result operations of Table 09.9. -/
def kOp (opc : Nat) (a b c : W32) : W32 :=
  match opc with
  | 0x03 => vopApply 0x00 a b c
  | 0x04 => fadd a b
  | 0x05 => fsub a b
  | 0x06 => fmul a b
  | 0x07 => ffma a b c
  | 0x08 => fdiv a b
  | 0x09 => fmin a b
  | 0x0A => fmax a b
  | 0x0B => fneg a
  | 0x0C => vopApply 0x08 a b c
  | 0x0D => fsqrt a
  | 0x0E => frsqrt a
  | 0x0F => frecip a
  | 0x10 => elemExp2 a
  | 0x11 => elemLog2 a
  | 0x13 => vopApply 0x17 a b c
  | 0x14 => vopApply 0x07 a b c
  | _ => ksign a

/-- One instruction on one element: `ins` are its input streams' values. -/
def kStep (e : KEnv) (ins : List W32) (st : List W32 × List (Nat × W32)) (w : W32) : List W32 × List (Nat × W32) :=
  let k := kInstr w
  let (regs, outs) := st
  let o := e.operand regs
  match k.opc with
  | 0x01 => (regs.set k.dst (ins.getD k.a 0), outs)
  | 0x02 => (regs, tset outs (k.dst % 4) (o k.a))
  | 0x12 =>
    let (w', c') := addx (o k.a) (o k.b) (o k.c)
    ((regs.set k.dst w').set (k.dst + 1) c', outs)
  | opc => (regs.set k.dst (kOp opc (o k.a) (o k.b) (o k.c)), outs)

/-- A kernel on one element: registers start at +0 (R237). -/
def kRun (k : Kernel) (e : KEnv) (ins : List W32) : List (Nat × W32) :=
  (k.code.foldl (kStep e ins) (List.replicate 16 f32Zero, [])).2

/-- Where a stream code of Table 09.6 lies, in slot `sl` of a block. -/
def BlockRec.partVa (b : BlockRec) (code sl : Nat) : Nat :=
  match code with
  | 1 => b.pVa
  | 2 => b.gradVa
  | 3 => b.slotVa sl
  | 4 => b.slotVa sl + b.compOff
  | 8 => b.auxVa
  | c => b.slotVa sl + b.momOff (c - 5)

/-- Element values of an input stream (R241). -/
def State.kernelIn (s : State) (b : BlockRec) (code sl : Nat) : List W32 :=
  if code = 0 then []
  else if code = 4 then
    (List.range b.elems).map fun i => toB32 (ofInt (signed 16 (ofLe (s.vmRead (b.partVa 4 sl + 2 * i) 2))))
  else s.vmWords (b.partVa code sl) b.elems

/-- Bytes of an output stream (R241). -/
def kernelOut (code : Nat) (vals : List W32) : Bytes :=
  if code = 4 then vals.flatMap fun v => leBytes 2 (toIntClamp (-32768) 32767 (ofB32 v) % 65536).toNat
  else b32Bytes vals

/-- What the kernel of a block reads in step n. -/
def State.kernelReads (s : State) (b : BlockRec) : List (Nat × Nat) :=
  ((kernelRec (s.ksec.kernels.getD b.kernel [])).ins.filter (· != 0)).map fun c =>
    (b.partVa c ((s.job.step + 1) % 2), (if c = 4 then 2 else 4) * b.elems)

/-- Order 6 of Table 09.4 for one block in step n: inputs from the current slot, outputs to slot n % 2. -/
def runKernel (layer : Nat) (s : State) (b : BlockRec) : State :=
  let n := s.job.step
  let k := kernelRec (s.ksec.kernels.getD b.kernel [])
  let e : KEnv := ⟨s.ksec.scalars.getD b.scal [], n, (s.layerStat layer).status.toNat⟩
  let ins := k.ins.map fun c => s.kernelIn b c ((n + 1) % 2)
  let res := (List.range b.elems).map fun i => kRun k e (ins.map fun l => l.getD i 0)
  (k.outs.zipIdx).foldl (fun s (c, t) =>
    if c = 0 then s
    else vmStore (b.partVa c (n % 2)) (kernelOut c (res.map fun o => tget 0 o t)) s) s

/-- Order 8: the generation byte of slot n % 2, the last byte written (R224). -/
def sealBlock (n : Nat) (s : State) (b : BlockRec) : State := vmStore (b.stateVa + n % 2) (leBytes 1 n) s

/-- R227, order 4: every expansion-area tag becomes 0. -/
def clearTags (s : State) : State := (expansions s).foldl (fun s x => vmStore x.2.1 (leBytes 8 0) s) s

end Sys2Proof.Machine
end

