-- ==== Sys2Proof/Machine/Sched.lean ====
section
/-! DEFINITION. Work items: slots of the interleave table, their inputs and completion, evaluation segments and inbox
responses, and the admission of elective root work (chapters 1, 7, 9, 14 and 17). -/

namespace Sys2Proof.Machine

/-! ## Inputs of a slot (Table 01.5) -/

/-- The runs of every collective that an item consumes are complete: of one micro-batch for F and B, all of them for W
and U. -/
def State.fed (s : State) (kind layer mb : Nat) : Bool :=
  s.colls.all fun c =>
    if c.trigger != 5 && !s.dormant c && c.consKind == kind && c.consLayer == layer then
      let done := (s.collRun c.id).finished
      if c.trigger = 1 ∨ c.trigger = 2 then
        (if kind ≤ 2 then done.contains mb else decide (s.collRuns c ≤ done.length))
      else done.contains 0
    else true

/-- Every B item of a layer has completed. -/
def State.allB (s : State) (layer : Nat) : Bool := (List.range s.params.mbPerStep).all fun m => s.isDone 2 layer m

/-- R28, R164, R218: the inputs of a slot are complete. -/
def State.inputsReady (s : State) (x : Slot) : Bool :=
  match x.kind with
  | 1 => (klook s.ingest.hdrs s.job.step).isSome && s.fed 1 x.layer x.mb
      && (match s.below x.layer with | some l => s.isDone 1 l x.mb | none => true)
  | 2 => s.isDone 1 x.layer x.mb && s.fed 2 x.layer x.mb
      && (match s.above x.layer with | some l => s.isDone 2 l x.mb | none => true)
  | 3 => s.allB x.layer && s.fed 3 x.layer 0
  | 4 => s.isDone 3 x.layer 0 && s.fed 4 x.layer 0 && s.decisionsHeld x.layer s.job.step
  | _ => true

/-- A borrowed piece holds a core of the group (R164, R202). -/
def State.pieceOn (s : State) (g : Nat) : Bool :=
  s.probIdx.any fun (_, i) => (s.run i).cores.any fun c => (s.groupOf g).cores.contains c

/-! ## The committed state (R183, R334) -/

/-- Ranges of main memory a checkpoint of step c holds: MASTER, COMP and moments of each block's slot; factor states of
the problems solved here; root stores. The arrays stand without their padding to 4 KiB (DEDUCED, notes/assumptions/30). -/
def State.blockRanges (s : State) (c : Nat) : List (Nat × Nat) :=
  s.blocks.flatMap fun b =>
    let a := b.slotVa (c % 2)
    (a, 4 * b.elems) :: (if b.comp then [(a + b.compOff, 2 * b.elems)] else [])
      ++ (List.range b.moms).map fun k => (a + b.momOff k, 4 * b.elems)
def State.rootRanges (s : State) : List (Nat × Nat) :=
  ((s.probs.filter fun p => p.role == 0).map fun p => (p.factorVa, 2 * symSlot p.job.n))
    ++ s.probs.map fun p => (p.rootVa, 4096 + 2 * symSlot p.job.n)

/-- The content of R334. -/
def State.ckptContent (s : State) (c : Nat) : Bytes :=
  (s.blockRanges c ++ s.rootRanges).flatMap fun r => s.vmRead r.1 r.2

/-! ## Starting an item -/

/-- A program on a core, from its first entry. End-to-end credit stays: a partner may report it before the item. -/
def CoreSt.start (c : CoreSt) (prog : Nat) : CoreSt :=
  { c with prog := tget [] c.descMem prog, pc := 0, inflight := [], side := [], barrier := none, ctx := [] }

/-- Start a program on every core of a group. -/
def startCores (g prog : Nat) (s : State) : State :=
  (s.groupOf g).cores.foldl (fun s n => setCore n ((s.core n).start prog) s) s

/-- Slot kind of an item, 0 for a bubble or an evaluation item. -/
def ItemKind.code : ItemKind → Nat
  | .fwd => 1 | .bwd => 2 | .win => 3 | .upd => 4 | .bubble => 0 | .eval _ _ => 0

/-- An item of a step as its replays are counted. -/
def Item.key (it : Item) (g : Nat) : Nat × Nat × Nat × Nat := (g, it.kind.code, it.layer, it.mb)

/-- Where an item's records count: its layer's status, U items together (R178). -/
def Item.lstatKey (it : Item) : Nat := if it.kind = .upd then 0x8000 else it.layer

/-- Put an item on a group. Replays count over all attempts of a step (R130). -/
def putItem (g : Nat) (it : Item) (s : State) : State :=
  let x := s.group g
  startCores g it.prog (setGroup g { x with
    item := some it, misses := [], got := LStat.zero, missTime := 0, drained := false
    replays := s.job.replayed.countP fun k => k == it.key g
    slotStart := s.localUs
    held := none, passed := false } s)

/-- Kind of a slot's item (Table 07.4). -/
def slotKind (k : Nat) : ItemKind :=
  match k with
  | 1 => .fwd | 2 => .bwd | 3 => .win | 4 => .upd | _ => .bubble

/-- Program a slot runs (R164); a bubble runs none. -/
def State.slotProg (s : State) (x : Slot) : Nat :=
  match s.layer? x.layer with
  | none => 0xFFFF
  | some l =>
    match x.kind with
    | 1 => l.fProg
    | 2 => l.bProg
    | 3 => if s.curv s.job.step && l.tapProg != 0xFFFF then l.tapProg else l.wProg
    | 4 => l.uProg
    | _ => 0xFFFF

/-- Valid tokens of a step on this device. -/
def State.validTokens (s : State) (n : Nat) : Nat :=
  (((klook s.ingest.hdrs n).getD []).map (·.valid)).foldl (· + ·) 0

/-- R174: the step's valid token count at the start of every factor region. -/
def writeCounts (s : State) : State :=
  (s.cont.regions.filter fun r => r.kind == .factor && r.core.isNone).foldl (fun s r =>
    vmStore r.base (leBytes 8 (s.validTokens s.job.step)) s) s

/-- R228: the current slot of a block is lost; the record of kind 8. `WEIGHT_ID` stands in bits [31:16] of
w6 (DESIGN CHOICE, notes/assumptions/28). -/
def genLog (b : BlockRec) (s : State) : State :=
  logAdd ECC_UNCORRECTABLE 8 0xFF 0 0xFFFF [8, 0, 0, 0, 0, 0, b.weight * 65536 + b.row, b.col] s

/-- At a boundary the halt waits for its order 8 (R270). -/
def genFail (b : BlockRec) (s : State) : State :=
  if s.job.haltPend.isSome then s else halt ECC_UNCORRECTABLE (genLog b s)

/-- Completion of a slot: the item is done, the group stands at its next slot; the layer status becomes final with the
layer's last F, B or W item (R178); buffers it consumed may be free (R250). -/
def State.layerOver (s : State) (layer : Nat) : Bool :=
  s.groupList.all fun g => g.slots.all fun x =>
    !(x.layer == layer && decide (1 ≤ x.kind ∧ x.kind ≤ 3)) || s.isDone x.kind layer x.mb

def finishItem (g : Nat) (it : Item) (s : State) : State :=
  let x := s.group g
  let s := setGroup g { x with
    item := none, pos := x.pos + 1, misses := [], got := LStat.zero, drained := false, replays := 0 } s
  let k := it.kind.code
  let key := it.lstatKey
  let s := if k = 0 then s else { s with lstat := tset s.lstat key ((s.layerStat key).add x.got) }
  let s := if k = 0 then s else { s with job := { s.job with done := (k, it.layer, it.mb) :: s.job.done } }
  let s := if decide (1 ≤ k ∧ k ≤ 3) && s.layerOver it.layer then writeLstat it.layer s else s
  pumpColls s

/-- Start a U item (Table 09.4, orders 2 to 5). -/
def startUpdate (g : Nat) (x : Slot) (s : State) : State :=
  let s := latchLayer x.layer s.job.step s
  let bs := s.layerBlocks x.layer
  let it : Item := ⟨.upd, x.layer, 0, s.slotProg x⟩
  if bs.isEmpty then finishItem g it s
  else match bs.find? fun b => !s.genOk b with
    | some b => genFail b s
    | none =>
      let l := bs.flatMap s.beforeReads
      if s.allGood l then
        putItem g it (bs.foldl expandBlock (bs.foldl tieSum (readAll ((s.groupOf g).cores.headD 0 / 96) l s)))
      else s

/-- R227, order 3: the first layer left whose U item is this group's runs its `U_PROG` + 1. -/
def startInstall (g : Nat) (s : State) : State :=
  match s.job.installing.find? fun l => (s.groupOf g).slots.any fun x => x.kind == 4 && x.layer == l with
  | none => s
  | some l => match s.layer? l with
    | some e => putItem g ⟨.upd, l, 0, e.uProg + 1⟩ s
    | none => s

/-- INTERLEAVE_SLOT_START (R164, R396). -/
def slotStartState (g : Nat) (s : State) : State :=
  let x := s.group g
  if !s.inStep || x.item.isSome || !x.misses.isEmpty then s
  else if !s.job.installing.isEmpty then startInstall g s
  else if !s.coll.released then s else
  match (s.groupOf g).slots[x.pos]? with
  | none => s
  | some sl =>
    if !s.inputsReady sl || s.pieceOn g then s
    else if sl.kind != 5 && s.gov.gating && !x.passed then
      if x.held.isSome then s
      else holdLog ((s.groupOf g).cores.headD 0 / 96) (setGroup g { x with held := some s.localUs } s)
    else if sl.kind = 4 then startUpdate g sl s
    else
      let s := if sl.kind = 3 && s.curv s.job.step then writeCounts s else s
      putItem g ⟨slotKind sl.kind, sl.layer, if sl.kind ≤ 2 then sl.mb else 0, s.slotProg sl⟩ s

/-- Segment records, and the evaluation layers of one in ascending order. -/
def State.segments (s : State) : List Segment := (records 8 s.cont.evalSec.length s.cont.evalSec).map segment
def State.segLayers (s : State) (g : Segment) : List Nat :=
  ((s.layers.filter fun l => !l.training && decide (g.first ≤ l.id) && decide (l.id ≤ g.last)).map (·.id)).mergeSort
    fun a b => decide (a ≤ b)
def State.segment? (s : State) (id : Nat) : Option Segment := s.segments.find? fun g => g.id = id

/-- The segment that serves a request operation. -/
def State.segmentFor (s : State) (op : Nat) : Option Segment :=
  if op = 0 then none else s.segments.find? fun g => g.inboxOp = op

/-- A segment due, or that a request waits for, has a layer among its own (R248, trigger 5). -/
def State.evalNeeds (s : State) (layer : Nat) : Bool :=
  (s.eval.dueSegs.filterMap s.segment? ++ s.eval.queue.filterMap fun q => s.segmentFor q.op).any fun g =>
    (s.segLayers g).contains layer

/-- COLLECTIVE_START (R228, R248, R250): a gather whose source slot is lost halts the job. -/
def collStartState (id m : Nat) (s : State) : State :=
  match s.coll? id with
  | none => s
  | some c =>
    let r := s.collRun id
    if !s.triggered c m || (c.trigger = 5 && !s.evalNeeds c.layer) || r.cur.isSome || r.finished.contains m || s.collRuns c ≤ m then s
    else match s.blockAt c.srcVa with
      | some b => if s.genOk b then beginColl c m s else genFail b s
      | none => beginColl c m s

/-! ## Evaluation (R182 to R185) -/

/-- What runs next at order 5: segments due in ascending `SEG_ID`, then requests in queue position (R184). -/
def State.nextEval (s : State) : Option (Segment × Option InboxReq) :=
  let due := if s.job.st = .paused then none else s.eval.dueSegs.head?
  match due with
  | some id => (s.segment? id).map fun g => (g, none)
  | none =>
    match s.eval.queue with
    | [] => none
    | q :: _ => (s.segmentFor q.op).map fun g => (g, some q)

/-- Estimate of a segment in mW: 3.2 W for each core of its group, at each hearth's VCORE (Table 17.8). -/
def State.segEst (s : State) (g : Segment) : Nat :=
  ((s.groupOf g.group).cores.map fun c => scaleEst s (c / 96) 3200).foldl (· + ·) 0

/-- R184, R398: a segment or request may begin; a diagnostic recipe runs each of its own (R406). -/
def State.evalFits (s : State) (g : Segment) : Bool :=
  s.isDiag || (s.eff.elective && s.eval.spent == 0
    && decide (s.localUs - s.bnd.orderStart + g.estUs ≤ s.params.evalBudget)
    && (s.groupOf g.group).cores.all fun c => decide (0 ≤ headroom s (some (c / 96))))

/-- The gathers of a segment's layers are complete (Table 10.2, trigger 5). -/
def State.evalFed (s : State) (g : Segment) : Bool :=
  s.colls.all fun c =>
    !(c.trigger == 5 && ((s.segLayers g).contains c.layer || (s.segLayers g).contains c.consLayer))
      || (s.collRun c.id).finished.contains 0

/-- An evaluation layer as a work item. -/
def putEval (g : Segment) (pos : Option Nat) (layer : Nat) (s : State) : State :=
  let prog := match s.layer? layer with | some l => l.fProg | none => 0xFFFF
  let s := { s with eval := { s.eval with running := some (g.id, pos, layer) } }
  putItem g.group ⟨.eval g.id pos, layer, pos.getD 0, prog⟩ s

/-- EVALUATION_SEGMENT: the next segment or request begins with its first layer. -/
def evalStartState (s : State) : State :=
  if s.bnd.order != 5 || s.eval.running.isSome then s else
  match s.nextEval with
  | none => s
  | some (g, q) =>
    if !s.evalFits g || !s.evalFed g || (s.group g.group).item.isSome || s.pieceOn g.group then s else
    match s.segLayers g with
    | [] => s
    | l :: _ =>
      let e := s.segEst g
      putEval g (q.map (·.pos)) l (addElective e { s with eval := { s.eval with est := e } })

/-- A core's streams are discarded with their prefetcher slots, and what its program left in flight (Table 05.7). -/
def dropStreams (n : Nat) (s : State) : State :=
  let c := s.core n
  let k := c.ctx.countP fun x => x.2.slot
  let s := setCore n { c with inflight := [], side := [], barrier := none, ctx := [], spent := c.credit } s
  { s with mm := { s.mm with slots := tset s.mm.slots (n / 96) (tget 0 s.mm.slots (n / 96) - k) } }

/-- The group's work stops; nothing runs. -/
def stopEval (g : Nat) (s : State) : State :=
  let x := s.group g
  let s := setGroup g { x with item := none, misses := [], drained := false, replays := 0 } s
  let s := (s.groupOf g).cores.foldl (fun s n =>
    let s := dropStreams n s
    setCore n { s.core n with prog := [], pc := 0 } s) s
  subElective s.eval.est { s with eval := { s.eval with running := none, est := 0 } }

/-- A diagnostic recipe's last segment is over: the job returns to LOADED (R406). -/
def diagOver (s : State) : State :=
  if s.isDiag && s.job.st = .running && s.eval.dueSegs.isEmpty then
    setJob .loaded 0 { s with bnd := Boundary.reset, job := { s.job with pend := none } }
  else s

/-- A segment or request leaves what waits. -/
def dropEval (seg : Nat) (pos : Option Nat) (s : State) : State :=
  match pos with
  | none => diagOver { s with eval := { s.eval with dueSegs := s.eval.dueSegs.filter fun i => i != seg } }
  | some p => { s with eval := { s.eval with queue := s.eval.queue.filter fun q => q.pos != p } }

/-- R340: the response of a request: header, result cut to fit, the closing `SEQ`. -/
def respBytes (q : InboxReq) (status n : Nat) (res : Bytes) : Bytes :=
  let room := (q.respLen - 72) / 8 * 8
  let cut := decide (room < res.length)
  let r := res.take room
  let st := if cut then BUDGET_EXCEEDED else status
  leBytes 8 q.seq ++ leBytes 2 st ++ leBytes 2 0 ++ leBytes 4 r.length ++ leBytes 8 n ++ leBytes 8 q.tag
    ++ List.replicate 32 0 ++ r ++ List.replicate ((8 - r.length % 8) % 8) 0 ++ leBytes 8 q.seq

/-- Post a response: the slot's last served word becomes its `SEQ`, and the request counts as answered. -/
def respond (q : InboxReq) (status : Nat) (res : Bytes) (s : State) : State :=
  let imm := if q.imm then some (q.seq % 2 ^ 32) else none
  let s := send (.response q.slot q.respVa q.rkey imm (respBytes q status s.job.committed res)) s
  bump 0x9200 2 1 64 { s with eval := { s.eval with
    served := tset s.eval.served q.slot q.seq, posted := tset s.eval.posted q.slot s.localUs } }

/-- The result of the request at a queue position, with its status (R340). -/
def State.inboxResult (s : State) (pos : Nat) : Nat × Bytes :=
  match s.cont.regions.find? fun r => r.kind == .inboxOut && r.core.isNone with
  | none => (OK, [])
  | some r =>
    let a := r.base + pos * 4096
    let n := s.vmWord a
    (if 4092 < n then BUDGET_EXCEEDED else OK, s.vmRead (a + 4) (min n 4092))

/-- R356: a publication of segment `id` to a result slot, with its event of kind 5. The manual names no source for a
periodic segment's value: it is open, a function of the segment, the committed step and the committed state (R183;
notes/assumptions/1). -/
def publish (id k : Nat) (s : State) : State :=
  let x := s.slot k
  let n := s.job.committed
  let y : ResultSlot := {
    seq := x.seq + 1, state := 1, value := (Config.segmentValue id n (s.ckptContent n)).take 65536
    replaced := if x.state = 1 then satAdd 32 x.replaced 1 else x.replaced, step := s.job.committed }
  let s := { s with results := tset s.results k y }
  raiseEvent (mkEvent s 5 0 (0x5400 + k) 1 (leBytes 8 y.seq) []) s

/-- The result of a request can be read (R320). -/
def State.resultGood (s : State) (pos : Nat) : Bool :=
  match s.cont.regions.find? fun r => r.kind == .inboxOut && r.core.isNone with
  | none => true
  | some r => s.vmGood (r.base + pos * 4096) (4 + (s.inboxResult pos).2.length)

/-- A segment or request that has run its last layer publishes (R185). -/
def publishEval (g : Segment) (pos : Option Nat) (s : State) : State :=
  if !(match pos with | none => true | some p => s.resultGood p) then s else
  let s := stopEval g.group s
  match pos with
  | none =>
    let s := if g.slot < 64 then publish g.id g.slot s else s
    dropEval g.id none s
  | some p =>
    match s.eval.queue.find? fun q => q.pos = p with
    | none => s
    | some q =>
      let (st, r) := s.inboxResult p
      dropEval g.id pos (respond q st r s)

/-- R185: the segment running is abandoned with a code; a request receives the code. -/
def abandonEval (code : Nat) (s : State) : State :=
  match s.eval.running with
  | none => s
  | some (id, pos, _) =>
    match s.segment? id with
    | none => s
    | some g =>
      let s := stopEval g.group s
      let s := match pos with
        | none => s
        | some p => match s.eval.queue.find? fun q => q.pos = p with
          | some q => respond q code [] s
          | none => s
      dropEval id pos s

/-- An evaluation item has completed: the next layer, or the result; with the budget spent the segment stops and
starts again at the next boundary (R184). -/
def advanceEval (s : State) : State :=
  match s.eval.running with
  | none => s
  | some (id, pos, layer) =>
    match s.segment? id with
    | none => s
    | some g =>
      if s.eval.spent != 0 then stopEval g.group s
      else match (s.segLayers g).find? fun l => decide (layer < l) with
        | none => publishEval g pos s
        | some l => putEval g pos l s

/-- EVALUATION_BUDGET_EXPIRY. -/
def evalExpiryState (s : State) : State :=
  if s.bnd.order = 5 && !s.isDiag then
    { s with localUs := max s.localUs (s.bnd.orderStart + s.params.evalBudget), eval := { s.eval with spent := 1 } }
  else s

/-- RESPONSE_TIMEOUT and RESPONSE_WRITE_REJECTED: the response is dropped and counted, not retried (R340). -/
def responseLost (slot wait : Nat) (s : State) : State :=
  match klook s.eval.posted slot with
  | none => s
  | some t => bump 0x9200 3 1 64 { s with
      localUs := if wait = 0 then s.localUs else max s.localUs (t + wait)
      eval := { s.eval with posted := kdel s.eval.posted slot } }

/-! ## Completion of an item -/

/-- Every core of a group has nothing left of its program (R124). -/
def State.groupFinished (s : State) (g : Nat) : Bool := (s.groupOf g).cores.all fun n => (s.core n).finished

/-- The group's bubble may end: its next slot's inputs are ready and no piece holds its cores (R164). -/
def State.bubbleOver (s : State) (g : Nat) : Bool :=
  !s.pieceOn g && (match (s.groupOf g).slots[(s.group g).pos + 1]? with
    | some x => s.inputsReady x
    | none => true)

/-- Cores a piece may take (R201) of a group whose bubble may still run: its next slot is not ready (R202, R208). -/
def State.pieceCores (s : State) (h : Nat) : List Nat :=
  (s.eligible h).filter fun c => s.bnd.order == 7 || (List.range s.groupList.length).all fun g =>
    !(s.groupOf g).cores.contains c || (match (s.groupOf g).slots[(s.group g).pos + 1]? with
      | some x => !s.inputsReady x
      | none => true)

/-- A borrowed problem has a product left to form: none of its pieces runs, and it has not loaded B or its sequence is not
over. -/
def State.pieceLeft (s : State) (i : Nat) (p : Prob) : Bool :=
  let x := s.run i
  x.cores.isEmpty && (if x.phase = .running then decide (x.pieces < (s.solution i p).1.products)
    else (s.loadReads i p).all fun r => s.vmGood r.1 r.2)

/-- Start a piece: one product on borrowed cores (R201, R207, R208). `point`: it needs an admission point of its own. -/
def takePiece (point : Bool) (i : Nat) (s : State) : State :=
  match s.prob? i with
  | none => s
  | some p =>
    let h := p.job.hearth
    let x := s.run i
    let n := p.job.borrowN + 1
    let cores := (s.pieceCores h).take n
    let est := scaleEst s h (3200 * n)
    let mine := if x.phase = .running then s.borrowedOn h = some i else s.firstRoot h true = some i && (s.borrowedOn h).isNone
    let elective := s.eff.elective && (!point || s.admitPoint h) && decide ((est : Int) ≤ headroom s (some h))
      && s.pieceFits cores (s.pieceUs p)
    if p.job.borrow && p.role = 0 && mine && cores.length = n && s.job.st.live && (s.mandatory x || elective)
        && s.pieceLeft i p then
      if s.gov.gating && !x.passed then
        if x.held.isSome then s else holdLog h (setRun i { x with held := some s.localUs } s)
      else
        let s := if x.phase = .waiting then loadProblem i p s else s
        let e := if s.mandatory x then 0 else est
        addElective e (setRun i { s.run i with cores := cores, est := e, held := none, passed := false } s)
    else s

/-- BORROWED_PIECE. -/
def startPiece (i : Nat) (s : State) : State := takePiece true i s

/-- BORROWED_PIECE_COMPLETE: the cores return, and the next piece of the problem follows at once where it may (R207);
after the boundary budget has expired none does. -/
def endPiece (i : Nat) (s : State) : State :=
  let x := s.run i
  if x.cores.isEmpty then s
  else
    let s := subElective x.est (setRun i { x with cores := [], pieces := x.pieces + 1, est := 0 } s)
    if s.bnd.order = 7 && s.leaven.closed then s else takePiece false i s

/-- R227: a layer's working copies stand; with the last layer's every expansion tag becomes 0 (order 4). -/
def installedLayer (g layer : Nat) (s : State) : State :=
  let s := setGroup g { s.group g with item := none, misses := [], got := LStat.zero, drained := false, replays := 0 }
    { s with job := { s.job with installing := s.job.installing.filter fun l => l != layer } }
  if s.job.installing.isEmpty then clearTags s else s

/-- A U item's program has completed (Table 09.4, orders 6 to 9). -/
def advanceUpdate (g : Nat) (it : Item) (s : State) : State :=
  let bs := s.layerBlocks it.layer
  match s.layer? it.layer with
  | none => s
  | some l =>
    if it.prog = l.uProg then
      let reads := bs.flatMap s.kernelReads
      if !s.allGood reads then s else
      let s := bs.foldl (runKernel it.layer) (readAll ((s.groupOf g).cores.headD 0 / 96) reads s)
      let s := setGroup g { s.group g with item := some { it with prog := l.uProg + 1 } } s
      startCores g (l.uProg + 1) s
    else if s.job.installing.isEmpty then finishItem g it (bs.foldl (sealBlock s.job.step) s)
    else installedLayer g it.layer s

/-- WORK_ITEM_COMPLETE. -/
def itemCompleteState (g : Nat) (s : State) : State :=
  let x := s.group g
  match x.item with
  | none => s
  | some it =>
    if !x.misses.isEmpty then s else
    match it.kind with
    | .bubble => if s.bubbleOver g then finishItem g it s else s
    | .upd => if s.groupFinished g then advanceUpdate g it s else s
    | .eval _ _ => if s.groupFinished g then advanceEval s else s
    | _ => if s.groupFinished g then finishItem g it s else s

/-! ## Elective roots (R207, R397) -/

/-- Admit every native problem of a hearth that fits, in the order of R204. -/
def admitNative (h : Nat) : Nat → State → State
  | 0, s => s
  | fuel + 1, s =>
    match s.firstRoot h false with
    | none => s
    | some i =>
      let t := admitRoot i s
      if (t.run i).phase = .waiting then s else admitNative h fuel t

/-- Start a borrowed piece on a hearth, of the problem running there or the first one waiting. -/
def admitBorrowed (h : Nat) (s : State) : State :=
  match s.borrowedOn h with
  | some i => startPiece i s
  | none => match s.firstRoot h true with
    | some i => startPiece i s
    | none => s

/-- ELECTIVE_ADMISSION: roots at a bubble or at order 7; BIST slices and scrubbing are admitted by their own events at
the same points (DESIGN CHOICE, notes/assumptions/29). -/
def electiveState (p : AdmitPoint) (s : State) : State :=
  let hs : List Nat := match p with
    | .order7 => if s.order7 then [0, 1, 2, 3] else []
    | .bubble g => if (s.bubble g).isSome then
        (List.range 4).filter fun h => (s.groupOf g).cores.any fun c => c / 96 = h
      else []
  hs.foldl (fun s h => admitBorrowed h (admitNative h s.probs.length s)) s

end Sys2Proof.Machine
end

