-- ==== Sys2Proof/Machine/Boundary.lean ====
section
/-! DEFINITION. The step boundary: step record, command, inbox scan, evaluation, checkpoint, elective work, next step;
and the cycle of a paused job (chapters 1, 7, 14 and 16). -/

namespace Sys2Proof.Machine

/-! ## Step record (Tables 16.7 and 16.8) -/

/-- Layer statuses of training layers, in ascending `LAYER_ID`. -/
def State.trainStats (s : State) : List (Nat × LStat) := s.lstat.filter fun x => decide (x.1 < 0x8000)

/-- Bytes 0x00 to 0x3F. Flush and saturation counts sum the layers; status, replays and translation replays take in
the records of U items too (DEDUCED from R178, notes/assumptions/31). -/
def recordHead (s : State) : Bytes :=
  let n := s.job.committed
  let all := s.lstat.map (·.2)
  let st := (all.foldl (fun a x => a.or x.status) NStatus.zero).or s.collStatus
  let sum (bits : Nat) (f : LStat → Nat) (l : List LStat) : Nat := l.foldl (fun a x => satAdd bits a (f x)) 0
  let tr := s.trainStats.map (·.2)
  leBytes 4 (2 * 2 ^ 24 + (s.job.attempt + 1) * 2 ^ 16 + st.toNat) ++ leBytes 8 n ++ leBytes 8 s.job.commitUs
    ++ leBytes 4 (min (s.job.commitUs - s.job.stepStart) (2 ^ 32 - 1))
    ++ leBytes 4 (sum 32 (·.flush) tr) ++ leBytes 4 (sum 32 (·.sat) tr)
    ++ leBytes 4 (sum 16 (·.replays) all * 2 ^ 16 + sum 16 (·.xlat) all)
    ++ leBytes 4 (s.leaven.missed % 2 ^ 16 * 2 ^ 16 + s.leaven.fresh % 2 ^ 16)
    ++ leBytes 4 (s.leaven.capped % 2 ^ 16 * 2 ^ 16 + s.leaven.pivoted % 2 ^ 16)
    ++ leBytes 4 (s.leaven.mismatches % 2 ^ 16 * 2 ^ 16 + s.job.fencedInStep % 2 ^ 16)
    ++ leBytes 8 (s.validTokens n)
    ++ leBytes 4 ((((klook s.ingest.hdrs n).getD []).map (·.dropped)).foldl (satAdd 32) 0)
    ++ leBytes 4 ((if s.curv n then 2 ^ 31 else 0)
        + (match klook s.ingest.split n with | some (some _) => 2 ^ 30 | _ => 0) + s.gov.minMv % 1024)

/-- Cursor of a step (R331). -/
def cursorBytes (c : Cursor) : Bytes := leBytes 4 c.epoch ++ leBytes 4 c.shard ++ leBytes 8 c.off

/-- Layers with a non-finite result. -/
def State.badLayers (s : State) : List Nat :=
  (s.trainStats.filter fun x => x.2.status.invalid || x.2.status.overflow || x.2.status.nanInput).map (·.1)

/-- Digest of the loaded recipe (R428). -/
def State.recipeDigest (s : State) : Bytes := Config.sha384 s.recipe.loadedBytes

/-- A step record of 256 bytes. -/
def stepRecord (s : State) : Bytes :=
  let cause (i : Nat) : Nat := match s.job.causes[i]? with
    | some (c, o) => c * 2 ^ 16 + o % 4096
    | none => 0
  let watts := if s.gov.powerN = 0 then 0 else s.gov.powerSum / s.gov.powerN / 1000
  recordHead s ++ (List.range 15).flatMap (fun i => leBytes 4 (cause i)) ++ leBytes 4 0
    ++ leBytes 4 (watts % 2 ^ 16 * 2 ^ 16 + min s.job.logInStep 0xFFFF)
    ++ cursorBytes ((klook s.ingest.cursorAt s.job.committed).getD Cursor.zero)
    ++ (List.range 8).flatMap (fun i => leBytes 2 (s.badLayers.getD i 0xFFFF))
    ++ s.recipeDigest ++ List.replicate 44 0

/-- Order 2: the record is published and appended to the history; subscribers are sent it (R376, R377). -/
def publishRecord (s : State) : State :=
  let r := stepRecord s
  let s := raiseEvent (mkEvent s 1 0 0x5100 0 [] r) s
  { s with
    record := r
    history := tset s.history (s.job.committed % 4096) r
    leaven := { s.leaven with fresh := 0, missed := 0, capped := 0, pivoted := 0, mismatches := 0 } }

/-! ## Commands (R33) -/

/-- A checkpoint is due at the boundary of step n (R335). -/
def State.ckptDueAt (s : State) (n : Nat) : Bool :=
  s.ing.ckptExt != 0xFFFF && ((s.ing.ckptEvery != 0 && n % s.ing.ckptEvery == 0) || s.job.ckptAsked)

/-- Order 3: the pending command is taken. -/
def takeCommand (s : State) : State :=
  match s.job.pend with
  | none => s
  | some .checkpointNow => { s with job := { s.job with pend := none, ckptAsked := true } }
  | some c => { s with job := { s.job with pend := none, taken := some c } }

/-! ## Inbox scan (R338, R339) -/

/-- The request a slot holds, with its payload length. -/
def slotRequest (m : Mem) (k : Nat) : InboxReq × Nat :=
  let f (off n : Nat) : Nat := ofLe (memBytes m (4096 * k + off) n)
  ({ pos := 0, slot := k, seq := f 0 8, op := f 0xA 2, imm := (f 8 1).testBit 0, respVa := f 0x10 8, rkey := f 0x18 4
     respLen := f 0x1C 4, tag := f 0x20 8 }, f 0xC 4 % 4096)

/-- A slot holds a new request. -/
def State.newRequest (s : State) (k : Nat) : Option (InboxReq × Nat) :=
  let r := slotRequest s.eval.inbox k
  let seqEnd := ofLe (memBytes s.eval.inbox (4096 * k + 0xFF8) 8)
  let held := (s.eval.queue ++ s.eval.refused).any fun q => q.slot = k && q.seq = r.1.seq
  if r.1.seq = seqEnd && decide (tget 0 s.eval.served k < r.1.seq) && !held then some r else none

/-- Queue a request at a position and copy it to the inbox input region. -/
def queueRequest (s : State) (x : InboxReq × Nat) (pos : Nat) : State :=
  let q := { x.1 with pos := pos }
  let bytes := memBytes s.eval.inbox (4096 * q.slot) 64 ++ memBytes s.eval.inbox (4096 * q.slot + 64) x.2
  let s := match s.cont.regions.find? fun r => r.kind == .inboxIn && r.core.isNone with
    | some r => vmStore (r.base + 4096 * pos) bytes s
    | none => s
  { s with eval := { s.eval with queue := (q :: s.eval.queue).mergeSort fun a b => decide (a.pos ≤ b.pos) } }

/-- A request that cannot be answered at all leaves its sequence word served, and counts (R340). -/
def dropShort (s : State) (x : InboxReq × Nat) : State :=
  bump 0x9200 3 1 64 { s with eval := { s.eval with served := tset s.eval.served x.1.slot x.1.seq } }

/-- Order 4. -/
def scanInbox (s : State) : State :=
  let new := (List.range s.regs.inboxSlots).filterMap s.newRequest
  let short := new.filter fun x => decide (x.1.respLen < 72)
  let rest := new.filter fun x => decide (72 ≤ x.1.respLen)
  let bad (x : InboxReq × Nat) : Bool := (s.segmentFor x.1.op).isNone || decide (4024 < x.2)
  let s := short.foldl dropShort s
  let s := { s with eval := { s.eval with refused := s.eval.refused ++ (rest.filter bad).map (·.1) } }
  let good := (rest.filter fun x => !bad x).mergeSort fun a b =>
    decide (a.1.seq < b.1.seq) || (a.1.seq == b.1.seq && decide (a.1.slot ≤ b.1.slot))
  let free := (List.range s.params.inboxLimit).filter fun p => !s.eval.queue.any fun q => q.pos = p
  (good.zip free).foldl (fun s x => queueRequest s x.1 x.2) s

/-- Refused requests are answered as order 5 begins (R339). -/
def postRefused (s : State) : State :=
  let l := s.eval.refused
  l.foldl (fun s q => respond q DESCRIPTOR_INVALID [] s) { s with eval := { s.eval with refused := [] } }

/-- Segments due at the boundary of step n join those left over (R184). -/
def dueSegments (n : Nat) (s : State) : State :=
  let due := (s.segments.filter fun g => g.period != 0 && n % g.period == 0).map (·.id)
  { s with eval := { s.eval with
      dueSegs := ((s.eval.dueSegs ++ due).eraseDups).mergeSort fun a b => decide (a ≤ b) } }

/-- Order 5 begins: refused requests are answered, unless elective work is off (R398). -/
def beginEval (s : State) : State :=
  let s := { s with bnd := { s.bnd with order := 5, orderStart := s.localUs }, eval := { s.eval with spent := 0 } }
  if s.eff.elective then postRefused s else s

/-- More evaluation can still run at this order 5. -/
def State.evalOpen (s : State) : Bool :=
  s.eval.running.isSome
    || (s.eff.elective && s.eval.spent == 0 && (match s.nextEval with
      | some (g, _) => decide (s.localUs - s.bnd.orderStart + g.estUs ≤ s.params.evalBudget)
      | none => false))

/-! ## Checkpoints (R334, R335) -/

/-- What is persistent whatever region it lies in: parameter state, factor states, root stores, the route table (R319). -/
def State.persistRanges (s : State) : List (Nat × Nat) :=
  (s.blocks.flatMap fun b => [(b.stateVa, 4096), (b.slotVa 0, b.slotBytes), (b.slotVa 1, b.slotBytes)]) ++ s.rootRanges
    ++ (if s.map.routed then [(s.map.routeVa, 4 * s.params.mbPerStep * s.params.tokenBudget)] else [])

/-- The header of R334. -/
def State.ckptHeader (s : State) (c : Nat) (content : Bytes) : Bytes :=
  let q := (klook s.ingest.queueAt (c + 1)).getD s.ingest.queue
  let h := leBytes 8 c ++ s.recipeDigest ++ cursorBytes ((klook s.ingest.cursorAt (c + 1)).getD s.ingest.cursor)
    ++ ((q.flatMap splitBytes) ++ List.replicate 1024 0).take 1024 ++ leBytes 8 content.length ++ Config.sha384 content
  h ++ List.replicate (4096 - h.length) 0

/-- A slot's header is valid for choosing (R334). -/
def State.ckptHdrOk (s : State) (k : Nat) : Bool :=
  let h := s.job.ckptHdrs.getD k (0, [])
  h.1 != 0 && h.2 == s.recipeDigest

/-- The slot a checkpoint goes to: 0 = A, 1 = B (R334). -/
def State.ckptChoice (s : State) : Nat :=
  let a := s.job.ckptHdrs.getD 0 (0, [])
  let b := s.job.ckptHdrs.getD 1 (0, [])
  match s.ckptHdrOk 0, s.ckptHdrOk 1 with
  | true, false => 1
  | true, true => if b.1 < a.1 then 1 else 0
  | _, _ => 0

/-- First logical block of a slot. -/
def State.ckptLba (s : State) (slot : Nat) : Nat :=
  let e := extentAt s.cont.budgetSec s.ing s.ing.ckptExt
  e.lba + slot * (e.blocks / 2)

/-- Logical blocks that cover `n` bytes of the checkpoint extent. -/
def State.ckptBlocks (s : State) (n : Nat) : Nat := n / s.lbSize (extentAt s.cont.budgetSec s.ing s.ing.ckptExt)

/-- Set the header a slot holds. -/
def setHdr (slot : Nat) (h : Nat × Bytes) (s : State) : State :=
  { s with job := { s.job with ckptHdrs := s.job.ckptHdrs.set slot h } }

/-- A checkpoint may begin: it is due, elective work is on and H is at least zero (R398). -/
def State.ckptMay (s : State) : Bool :=
  s.bnd.ckptDue && s.bnd.ckptPhase == 0 && s.eff.elective && decide (0 ≤ headroom s none)
    && (s.bnd.order == 6 || s.bnd.order == 3)

/-- Order 1 of R335: the slot becomes invalid. -/
def ckptBegin (s : State) : State :=
  let k := s.ckptChoice
  let e := 10000 * hearthModel (s.gov.vcore.headD 550) / 1150000
  let s := setHdr k (0, []) { s with bnd := { s.bnd with
    ckptPhase := 1, ckptSlot := k, ckptStep := s.job.committed, est := e } }
  send .nvmeFlush (send (.nvmeWrite (s.ckptLba k) (List.replicate 4096 0)) (addElective e s))

/-- CHECKPOINT_WRITE. A block whose current slot is lost halts the job (R228). -/
def ckptWriteState (s : State) : State :=
  if !s.ckptMay then s else
  match s.blocks.find? fun b => !s.genOk b with
  | some b => haltNow ECC_UNCORRECTABLE (genLog b s)
  | none => ckptBegin s

/-- Order 3 of R335. -/
def ckptFlush (s : State) : State := send .nvmeFlush { s with bnd := { s.bnd with ckptPhase := 3 } }

/-- Order 2: the content in Writes of at most 1 MiB (Table 14.2); none while a block of it reads uncorrectable (R320). -/
def ckptData (s : State) : State :=
  if !(s.blockRanges s.bnd.ckptStep ++ s.rootRanges).all fun r => s.vmGood r.1 r.2 then s else
  let bs := s.ckptContent s.bnd.ckptStep
  let n := cdiv bs.length (2 ^ 20)
  let base := s.ckptLba s.bnd.ckptSlot
  let s := (List.range n).foldl (fun s i =>
    send (.nvmeWrite (base + s.ckptBlocks (4096 + i * 2 ^ 20)) ((bs.drop (i * 2 ^ 20)).take (2 ^ 20))) s)
    { s with bnd := { s.bnd with ckptPhase := 2, writesLeft := n } }
  if n = 0 then ckptFlush s else s

/-- NVME_WRITE_COMPLETE. -/
def writeCompleteState (s : State) : State :=
  if s.bnd.ckptPhase = 2 && decide (0 < s.bnd.writesLeft) then
    let s := { s with bnd := { s.bnd with writesLeft := s.bnd.writesLeft - 1 } }
    if s.bnd.writesLeft = 0 then ckptFlush s else s
  else s

/-- The checkpoint attempt is over. -/
def ckptEnd (s : State) : State :=
  subElective s.bnd.est { s with bnd := { s.bnd with ckptPhase := 0, ckptDue := false, writesLeft := 0, est := 0 } }

/-- Orders 4 and 5: the header, and the second Flush. -/
def ckptSeal (s : State) : State :=
  let c := s.bnd.ckptStep
  let h := s.ckptHeader c (s.ckptContent c)
  send .nvmeFlush (send (.nvmeWrite (s.ckptLba s.bnd.ckptSlot) h) { s with bnd := { s.bnd with ckptPhase := 4 } })

/-- The second Flush has completed: the checkpoint is valid; record of kind 4 (R436). -/
def ckptDone (s : State) : State :=
  let c := s.bnd.ckptStep
  let k := s.bnd.ckptSlot
  let s := setHdr k (c, s.recipeDigest) s
  let s := { s with job := { s.job with ckptValid := c, ckptAsked := false } }
  ckptEnd (logPlain 0 ([4, k] ++ w64 c) s)

/-- FLUSH_COMPLETE. -/
def flushState (s : State) : State :=
  match s.bnd.ckptPhase with
  | 1 => ckptData s
  | 3 => ckptSeal s
  | 4 => ckptDone s
  | _ => s

/-- An attempt is abandoned before its header (R335): counted, logged with kind 5, tried again at the next boundary. -/
def ckptAbandon (s : State) : State :=
  let s := bump 0x9100 7 1 32 s
  let s := logPlain 0 ([5, s.bnd.ckptSlot] ++ w64 s.bnd.ckptStep) s
  ckptEnd { s with job := { s.job with ckptAsked := true } }

/-- CHECKPOINT_BUDGET_EXPIRY: deferred before order 1, abandoned before order 4. -/
def ckptExpiryState (s : State) : State :=
  if !s.bnd.ckptDue || (s.bnd.order != 6 && s.bnd.order != 3) then s else
  let s := { s with localUs := max s.localUs (s.bnd.orderStart + s.params.ckptBudget) }
  match s.bnd.ckptPhase with
  | 0 => { s with bnd := { s.bnd with ckptDue := false }, job := { s.job with ckptAsked := true } }
  | 4 => s
  | _ => ckptAbandon s

/-! ## The boundary (R31) -/

def setOrder (o : Nat) (s : State) : State := { s with bnd := { s.bnd with order := o, orderStart := s.localUs } }

/-- Order 7 begins: page retirements in any case, elective work when it is on (R321, R398). -/
def beginOrder7 (s : State) : State :=
  let s := retirePages (setOrder 7 s)
  { s with leaven := { s.leaven with closed := !s.eff.elective } }

/-- A STOP takes effect: the job is LOADED. -/
def stopJob (s : State) : State :=
  endEval (governorStop (setJob .loaded 0 { s with
    job := { s.job with taken := none }, bnd := Boundary.reset
    coll := { s.coll with digests := [], digestSent := false, released := false, answered := [] } }))

/-- Order 8: a halt that waited, the command taken at order 3, or the first slot of the next step. -/
def order8 (s : State) : State :=
  match s.job.haltPend with
  | some c => haltNow c s
  | none =>
    match s.job.taken with
    | some .pause => setJob .paused 0 { s with job := { s.job with taken := none }, bnd := Boundary.reset }
    | some .stop => stopJob s
    | _ => startStep { s with job := { s.job with taken := none } }

/-- STEP_BOUNDARY: the next event of Table 01.6. -/
def boundaryState (s : State) : State :=
  if !s.job.st.stepping || s.isDiag then s else
  match s.bnd.order with
  | 2 => setOrder 3 (publishRecord s)
  | 3 => setOrder 4 (takeCommand s)
  | 4 =>
    let s := dueSegments s.job.committed (scanInbox s)
    beginEval { s with bnd := { s.bnd with ckptDue := s.ckptDueAt s.job.committed } }
  | 5 => if s.evalOpen then s else setOrder 6 s
  | 6 =>
    if s.bnd.ckptDue && !s.eff.elective && s.bnd.ckptPhase == 0 then
      beginOrder7 { s with bnd := { s.bnd with ckptDue := false }, job := { s.job with ckptAsked := true } }
    else if s.bnd.ckptDue then s else beginOrder7 s
  | 7 => setOrder 8 { s with leaven := { s.leaven with closed := true } }
  | 8 => order8 s
  | _ => s

/-- BOUNDARY_BUDGET_EXPIRY: no more elective work is admitted (R31, R207). -/
def budgetExpiryState (s : State) : State :=
  if s.bnd.order = 7 then
    { s with
      localUs := max s.localUs (s.bnd.orderStart + s.params.boundaryBudget)
      leaven := { s.leaven with closed := true } }
  else s

/-! ## Paused (R34) -/

/-- Order 8 of a cycle: the command taken at its order 3, after orders 4 and 5 (R33, R34). -/
def pausedEnd (s : State) : State :=
  match s.job.taken with
  | some .resume => startStep (setJob .running 0 { s with job := { s.job with taken := none } })
  | some .stop => stopJob s
  | _ => s

/-- Orders 4 and 5 of a cycle, and order 8 at once where no request runs. -/
def pausedServe (s : State) : State :=
  let s := beginEval (scanInbox s)
  if s.evalOpen then s else pausedEnd s

/-- A cycle's order 3; CHECKPOINT_NOW comes before order 4 (Table 16.6). -/
def pausedCommand (s : State) : State :=
  let s := takeCommand s
  if s.job.taken.isNone && s.job.ckptAsked && s.ing.ckptExt != 0xFFFF && s.eff.elective then
    { s with bnd := { s.bnd with order := 3, orderStart := s.localUs, ckptDue := true } }
  else pausedServe s

/-- PAUSED_CYCLE: every 1 ms, orders 3 to 5; a checkpoint taken at order 3 runs before order 4, and a command taken there
ends the cycle at order 8. Entries written since the last boundary come into force (DEDUCED, notes/assumptions/16). -/
def pausedState (s : State) : State :=
  if s.job.st != .paused then s
  else if s.bnd.order = 3 then (if s.bnd.ckptDue then s else pausedServe s)
  else if s.bnd.order = 5 && s.evalOpen then s
  else if s.job.taken.isSome then pausedEnd s
  else
    let now := max s.localUs (s.bnd.started + 1000)
    pausedCommand { s with localUs := now, eff := s.regs, bnd :=
      { Boundary.reset with order := 4, started := now, orderStart := now } }

end Sys2Proof.Machine
end

