-- ==== Sys2Proof/Machine/MemFault.lean ====
section
/-! DEFINITION. Stalls, translation misses, uncorrectable data, scrubbing and fenced cores (chapters 1, 4, 5, 13, 18 and
20). -/

namespace Sys2Proof.Machine

/-! ## Fenced cores (R18, R411) -/

/-- Logical cores a container names in any section (R17). -/
def coresNamed (c : Container) : List Nat :=
  ((interleave c.interSec).2.flatMap (·.cores))
    ++ c.programs.flatMap (fun p => p.map (·.1))
    ++ c.regions.filterMap (·.core)
    ++ c.stats.map (·.core)
    ++ ((collList c.collSec).filter (·.toTile)).map (·.dstCore)

/-- Logical core that runs on a physical core. -/
def State.logicalOf (s : State) (phys : Nat) : Option Nat :=
  (List.range 384).find? fun n => n / 96 = phys / 100 && s.dev.map.getD n 0xFF = phys % 100

/-- Lowest spare of a hearth. -/
def State.spareOf (s : State) (h : Nat) : Option Nat :=
  (List.range 100).find? fun p => s.dev.phys.getD (100 * h + p) 3 = 1

/-- A logical core as it stands on a fresh physical core: its descriptor memory written from the recipe. -/
def CoreSt.fresh (c : CoreSt) : CoreSt := { CoreSt.reset with descMem := c.descMem }

/-- The map after a core is fenced: the spare that takes a logical core's place, if any; also while no job is live
(DEDUCED, notes/assumptions/52). -/
def fenceMap (phys : Nat) (s : State) : State × Option Nat :=
  let h := phys / 100
  let s := { s with dev := { s.dev with phys := s.dev.phys.set phys 2 } }
  match s.logicalOf phys with
  | none => (s, none)
  | some n =>
    match s.spareOf h with
    | some q =>
      ({ s with dev := { s.dev with map := s.dev.map.set n q, phys := s.dev.phys.set (100 * h + q) 0 } }, some q)
    | none => ({ s with dev := { s.dev with map := s.dev.map.set n 0xFF } }, none)

/-- An evaluation item runs on a core. -/
def State.evalOn (s : State) (n : Nat) : Bool :=
  match s.coreItem n with
  | some it => (match it.kind with | .eval _ _ => true | _ => false)
  | none => false

/-- What a fence of logical core n means for the job; `spare`: one took its place (R18, R185, R310, R416). -/
def fenceJob (n : Nat) (spare : Bool) (s : State) : State :=
  let used := (coresNamed s.cont).contains n
  let s := if s.evalOn n then abandonEval CORE_FENCED s else s
  if !s.job.st.live && !(s.job.st = .loaded && spare && s.recipe.damaged) then s
  else if spare && s.recipe.damaged then halt ECC_UNCORRECTABLE s
  else if !spare && used then halt CORE_FENCED s
  else if s.inStep then abortOwn STEP_REPEAT_FAULT [CORE_FENCED] s
  else s

/-- Fence a physical core, found in a slice of BIST or (0xFF) outside it. -/
def fenceCore (phys slice : Nat) (s : State) : State :=
  if !s.dev.mainUp || 400 ≤ phys || s.dev.phys.getD phys 3 = 2 then s else
  let n := s.logicalOf phys
  let (s, spare) := fenceMap phys s
  let s := logAdd CORE_FENCED 1 (phys / 100) (n.getD phys) 0xFFFF
    [phys, n.getD 0xFFFF, slice, 0, spare.getD 0xFF] s
  let s := bump 0x7200 6 1 32 { s with job := { s.job with fencedInStep := s.job.fencedInStep + 1 } }
  match n with
  | none => s
  | some n =>
    let s := cutPieces (fun c => c == n) s
    let t := fenceJob n spare.isSome s
    setCore n (t.core n).fresh t

/-- CORE_FENCED. -/
def coreFencedState (phys : Nat) (s : State) : State := fenceCore phys 0xFF s

/-! ## Stalls (R122, R185) -/

/-- `LAYER_ID` and `STREAM_TAG` of a stream the watchdog covers; or an instruction or barrier of the core that waits: the
item's layer and tag 0 (DESIGN CHOICE, notes/assumptions/54). -/
def State.stallWhere (s : State) (core ctx : Nat) (it : Item) : Option (Nat × Nat) :=
  let c := s.core core
  match s.streamAt core ctx with
  | some x =>
    let d := streamDesc x.desc
    if d.memKind = 2 && d.peerDev != s.devId then none else some (d.layerId, d.tag)
  | none => if c.pc < c.prog.length then some (it.layer, 0) else none

/-- STREAM_STALL. -/
def streamStallState (core ctx : Nat) (s : State) : State :=
  match s.coreItem core with
  | none => s
  | some it =>
    match s.stallWhere core ctx it with
    | none => s
    | some (layer, tag) =>
      if !s.issuing core then s else
      let s := { s with localUs := s.localUs + s.eff.streamWd }
      match it.kind with
      | .eval _ _ =>
        abandonEval STREAM_STALL (logAdd STREAM_STALL 1 (core / 96) core layer
          [s.job.attempt, s.devId, 0, 0, ctx, tag] s)
      | _ => abortOwn STREAM_STALL [0, 0, ctx, tag] s ⟨1, core / 96, core, layer⟩

/-! ## Translation misses (Table 05.7, R127 to R131) -/

/-- The misses of a group's item end with an outcome: each is logged, none is left; the steward completes their mapping. -/
def endMisses (g outcome : Nat) (s : State) : State :=
  let s := oweMisses (s.group g).misses (logMisses g outcome s)
  setGroup g { s.group g with misses := [], drained := false } s

/-- The step aborts because a miss is not replayed (R130). -/
def missAbort (g outcome : Nat) (s : State) : State :=
  abortOwn STEP_REPEAT_FAULT [TRANSLATION_MISS] (endMisses g outcome s)

/-- Add a miss to a group's item; the first one starts the replay bound. -/
def addMiss (g : Nat) (m : Miss) (s : State) : State :=
  let x := s.group g
  setGroup g { x with misses := x.misses ++ [m], missTime := if x.misses.isEmpty then s.localUs else x.missTime } s

/-- A miss of a step's item on group g. -/
def stepMiss (g : Nat) (it : Item) (m : Miss) (s : State) : State :=
  let replay := match s.layer? it.layer with | some l => l.xlatReplay | none => false
  let s := addMiss g m s
  if !s.mayMap m.va m.write then missAbort g 2 s
  else if !replay then missAbort g 1 s
  else if 4 ≤ (s.group g).replays then missAbort g 4 s
  else s

/-- TRANSLATION_MISS. A sideline transfer's miss has the event's context (DESIGN CHOICE, notes/assumptions/55). -/
def missState (core ctx va : Nat) (write : Bool) (s : State) : State :=
  match s.coreGroup core, s.coreItem core with
  | some g, some it =>
    if (s.xlat va write).isSome then s
    else if (s.group g).misses.any fun m => m.va / pageSize = va / pageSize && (m.write || !write) then s
    else
      let (layer, tag) := match s.streamAt core ctx with
        | some x => ((streamDesc x.desc).layerId, (streamDesc x.desc).tag)
        | none => (it.layer, 0)
      let m : Miss := ⟨core, ctx, layer, tag, va, write, false⟩
      match it.kind with
      | .bubble => s
      | .eval _ _ => abandonEval TRANSLATION_MISS (endMisses g (if s.mayMap va write then 1 else 2) (addMiss g m s))
      | _ => stepMiss g it m s
  | _, _ => s

/-- ITEM_DRAIN_COMPLETE: the rings of the item's streams are discarded (order 5). -/
def drainState (g : Nat) (s : State) : State :=
  let x := s.group g
  if x.misses.isEmpty || x.drained then s
  else (s.groupOf g).cores.foldl (fun s n => dropStreams n s) (setGroup g { x with drained := true } s)

/-- TRANSLATION_MAPPED: the steward maps a missed page, or refuses it (order 6); it maps the pages of misses whose item
has ended as well (R130, R131). -/
def mappedState (g va : Nat) (s : State) : State :=
  let s := mapOwed va s
  match (s.group g).misses.find? fun m => m.va / pageSize = va / pageSize && !m.mapped with
  | none => s
  | some m =>
    match serveMiss m.va m.write s with
    | none => missAbort g 2 s
    | some s =>
      let x := s.group g
      setGroup g { x with misses := x.misses.map fun k =>
        if k.va / pageSize = m.va / pageSize && (s.xlat k.va k.write).isSome then { k with mapped := true } else k } s

/-- Program of an item's first instruction: a U item that has come to its second program starts at the first. -/
def State.firstProg (s : State) (it : Item) : Nat :=
  if it.kind = .upd then match s.layer? it.layer with | some l => l.uProg | none => it.prog
  else it.prog

/-- WORK_ITEM_REPLAY: the item starts again from its first instruction (order 7). -/
def replayItemState (g : Nat) (s : State) : State :=
  let x := s.group g
  match x.item with
  | none => s
  | some it =>
    if x.misses.isEmpty || !x.drained || x.misses.any (fun m => !m.mapped) then s else
    let s := endMisses g 0 s
    let it := { it with prog := s.firstProg it }
    let s := setGroup g { s.group g with item := some it, got := LStat.zero, replays := x.replays + 1 } s
    let k := it.lstatKey
    let l := s.layerStat k
    startCores g it.prog { s with
      lstat := tset s.lstat k { l with xlat := satAdd 16 l.xlat 1 }
      job := { s.job with replayed := it.key g :: s.job.replayed } }

/-- REPLAY_BOUND_EXPIRY: order 6 is not complete within the bound from the first miss. -/
def replayBoundState (g : Nat) (s : State) : State :=
  let x := s.group g
  if x.misses.any fun m => !m.mapped then
    missAbort g 3 { s with localUs := max s.localUs (x.missTime + s.eff.replayBound) }
  else s

/-! ## Uncorrectable on-chip groups (R105) -/

def sramCode : SramKind → Nat
  | .tile => 1 | .side => 2 | .desc => 3 | .cell => 4 | .starter => 5 | .pantry => 6

/-- Mark a block: it holds poison (R318), or another pattern no read corrects. -/
def markPoison (block : Nat) (s : State) : State :=
  if s.mm.poison.contains block then s else { s with mm := { s.mm with poison := s.mm.poison ++ [block] } }
def markBroken (block : Nat) (s : State) : State :=
  if s.mm.broken.contains block then s else { s with mm := { s.mm with broken := s.mm.broken ++ [block] } }

/-- A marked block, in a pantry or not. -/
def State.marked (s : State) (block : Nat) : Bool := s.mm.poison.contains block || s.mm.broken.contains block

/-- Retire at once when no step runs (R321). -/
def retireNow (s : State) : State := if s.job.st.stepping then s else retirePages s

/-- A leaven cell leaves service; its problem waits for another cell (R105, R205). -/
def cellOut (cell : Nat) (s : State) : State :=
  let s := if s.dev.badCells.contains cell then s
    else { s with dev := { s.dev with badCells := s.dev.badCells ++ [cell] } }
  let s := setCounter 0x7200 9 s.dev.badCells.length s
  s.probIdx.foldl (fun s (p, i) =>
    let x := s.run i
    if p.job.hearth = cell / 16 && x.cell == some (cell % 16) then
      subElective x.est (setRun i { x with cell := none, phase := .waiting, mat := [], starter := none, est := 0 } s)
    else s) s

/-- A pantry line that reads uncorrectable: a clean one is fetched again, a dirty one goes to main memory as poison
(R105, R318). -/
def lineLost (pa : Nat) (dirty : Bool) (s : State) : State :=
  let s := { s with mm := s.mm.drop [pa] }
  if dirty then retireNow (wantRetire (pa / pageSize) (markPoison (pa / 128) s))
  else if s.bad pa then s
  else touchLines [pa] false false s

/-- What an uncorrectable group does (Table 04.3). -/
def sramLost (kind : SramKind) (unit word : Nat) (s : State) : State :=
  let w := memWhere (sramCode kind) unit
  let s := bump 0x7200 5 1 64 s
  let s := logAdd ECC_UNCORRECTABLE w.src w.hearth w.unit 0xFFFF [sramCode kind, word] s
  match kind with
  | .tile | .side | .desc =>
    (match s.dev.map[unit]? with
    | some p => if p = 0xFF then s else fenceCore (100 * (unit / 96) + p) 0xFF s
    | none => s)
  | .cell => cellOut unit s
  | .starter =>
    let k := 4096 * unit + word
    { s with leaven := { s.leaven with starters := kdel s.leaven.starters k, lostStarters := k :: s.leaven.lostStarters } }
  | .pantry =>
    let pa := lineAddr unit word s.mm.interleave
    (match s.mm.line? pa with
    | some e => lineLost pa e.2.2 s
    | none => s)

/-- The place holds data that a read can meet: a pantry line must be resident. -/
def State.sramHolds (s : State) (kind : SramKind) (unit word : Nat) : Bool :=
  kind != .pantry || (s.mm.line? (lineAddr unit word s.mm.interleave)).isSome

/-- SRAM_UNCORRECTABLE: a read by any user meets an error pattern in a word group; what the code corrects is corrected,
counted and logged (R93, R94), the rest does what Table 04.3 says. `unit`: logical core, cell 16 h + c, or hearth;
`word`: word, entry or home line. -/
def sramState (kind : SramKind) (unit word : Nat) (err : List SymErr) (s : State) : State :=
  if !s.dev.mainUp || !s.sramHolds kind unit word then s
  else if !hasError 36 err then s
  else if correctable 36 err then corrected ⟨sramCode kind, unit, word, 0, 0, err⟩ false s
  else sramLost kind unit word s

/-! ## Uncorrectable blocks of main memory (Table 13.3) -/

/-- The region an address lies in is scratch, and nothing lies there that is always persistent (R319); what no region
declares is taken as persistent. -/
def State.scratchAt (s : State) (va : Nat) : Bool :=
  !(s.persistRanges.any fun r => decide (r.1 ≤ va) && decide (va < r.1 + r.2)) &&
  match regionAt s.cont va with
  | some r => !r.persistent
  | none => false

/-- Log an uncorrectable block. -/
def logBlock (channel pa va : Nat) (s : State) : State :=
  let s := if s.mm.poison.contains (pa / 128) then bump 0x4100 4 1 64 s else bump 0x4100 3 1 64 s
  logAdd ECC_UNCORRECTABLE 4 (channel / 6) channel 0xFFFF ([7, channel] ++ w64 pa ++ w64 va) s

/-- Log an uncorrectable block, mark it, and mark its page for retirement (R320, R321). -/
def noteBlock (channel pa va : Nat) (s : State) : State :=
  let s := logBlock channel pa va s
  retireNow (wantRetire (pa / pageSize) (if s.marked (pa / 128) then s else markBroken (pa / 128) s))

/-- The step aborts on a scratch block; for a block in the ingest half of the step the repeat reads storage again, which
gives the same micro-batches (R181). -/
def scratchAbort (va : Nat) (s : State) : State :=
  let s := match regionAt s.cont va with
    | some r =>
      if r.kind == .ingest && s.inStep && (va - r.base) / (r.size / 2) == s.job.step % 2 then rereadHalf s.job.step s else s
    | none => s
  abortOwn STEP_REPEAT_FAULT [ECC_UNCORRECTABLE] s

/-- A persistent block is lost while a checkpoint is written: it is abandoned, the device halts at once (Table 20.4). -/
def ckptLost (s : State) : State :=
  let s := if s.bnd.ckptPhase = 0 then s else ckptAbandon s
  haltNow ECC_UNCORRECTABLE s

/-- A block of a held container reads uncorrectable: the container is damaged (R310). -/
def containerLost (pa : Nat) (s : State) : State :=
  { s with recipe := { s.recipe with
    damaged := s.recipe.damaged || s.mm.loadedPages.contains (pa / pageSize)
    stagedBad := s.recipe.stagedBad || s.mm.stagedPages.contains (pa / pageSize) } }

/-- The consequence of Table 13.3 for a reader. -/
def blockReader (reader : EccReader) (va : Nat) (s : State) : State :=
  match reader with
  | .checkpoint => ckptLost s
  | .steward | .prefetch => s
  | .evaluation =>
    if s.scratchAt va then abandonEval ECC_UNCORRECTABLE s else halt ECC_UNCORRECTABLE s
  | .stepWork | .other => if s.scratchAt va then scratchAbort va s else halt ECC_UNCORRECTABLE s

/-- An uncorrectable read. The steward writes a block of its own pages again from its copy, and marks a container
damaged; a prefetch leaves no trace (R103). -/
def blockLost (channel pa va : Nat) (reader : EccReader) (s : State) : State :=
  if reader = .prefetch then s
  else if pa / pageSize < 128 || reader = .steward then containerLost pa (logBlock channel pa va s)
  else blockReader reader va (noteBlock channel pa va s)

/-- The address a read gives: a unit reaches a block through its virtual address, the steward its own pages without. -/
def State.reads (s : State) (pa va : Nat) (reader : EccReader) : Bool :=
  reader == .steward || decide (pa / pageSize < 128) || (s.phys va).any fun p => p / 128 == pa / 128

/-- GDDR7_UNCORRECTABLE: a read of a block by any reader meets an error pattern (R103, R313, R314, R318, R320). The
controller knows poison before it decodes; a block already marked reads uncorrectable whatever else strikes it; a line
that a pantry holds is not read from its channel. -/
def gddrState (channel pa va : Nat) (reader : EccReader) (err : List SymErr) (s : State) : State :=
  if !s.mm.up || channel != (place pa s.mm.interleave).1 || (s.mm.line? pa).isSome || !s.reads pa va reader then s
  else if s.marked (pa / 128) then blockLost channel pa va reader s
  else if !hasError 68 err then s
  else if correctable 68 err then
    corrected ⟨7, channel, channel, pa, va, err⟩ false (touchLines [pa] false (reader == .prefetch) s)
  else blockLost channel pa va reader s

/-! ## Scrubbing (R317) -/

/-- Data blocks of the device: 180 GiB in blocks of 128 bytes. -/
def dataBlocks : Nat := 180 * 2 ^ 30 / 128

/-- Scrubbing is admitted: at a bubble or at order 7 of a job that steps, with headroom for 4 W; in an idle device
whenever main memory is up (R397; DESIGN CHOICE for the idle device, notes/assumptions/29). -/
def State.scrubMay (s : State) : Bool :=
  s.mm.up && s.dev.st != .sleep
    && (!s.job.st.live
      || (s.eff.elective && (s.order7 || (List.range 4).any fun h => !(s.bubblesOn h).isEmpty)
        && decide (((4000 * hearthModel (s.gov.vcore.headD 550) / 1150000 : Nat) : Int) ≤ headroom s none)))

/-- One more block of the pass; a pass that took longer than its period is counted. -/
def scrubTick (s : State) : State :=
  let n := s.mm.scrubDone + 1
  if n < dataBlocks then { s with mm := { s.mm with scrubDone := n } }
  else
    let s := if s.regs.scrubPeriod * 3600000000 < s.localUs - s.mm.scrubStart then bump 0x4000 6 1 32 s else s
    { s with mm := { s.mm with scrubDone := 0, scrubStart := s.localUs } }

/-- What a scrub finds in the block at `pa`: a correctable block is written back unless its line is dirty, an
uncorrectable one is logged and its page marked; nothing aborts. -/
def scrubBlock (pa : Nat) (err : List SymErr) (s : State) : State :=
  let c := (place pa s.mm.interleave).1
  if s.marked (pa / 128) then containerLost pa (noteBlock c pa 0 s)
  else if !hasError 68 err then s
  else if correctable 68 err then corrected ⟨7, c, c, pa, 0, err⟩ true s
  else containerLost pa (noteBlock c pa 0 s)

/-- PATROL_SCRUB: the next block of the pass; the pass takes the blocks in ascending address (DESIGN CHOICE,
notes/assumptions/69). `onDie`: corrections of their own that the devices report (0x4100:06). -/
def scrubState (block : Nat) (err : List SymErr) (onDie : Nat) (s : State) : State :=
  if !s.scrubMay || block != s.mm.scrubDone then s
  else scrubBlock (128 * block) err (scrubTick (bump 0x4100 6 onDie 64 s))

end Sys2Proof.Machine
end

