-- ==== Sys2Proof/Machine/FabEvents.lean ====
section
/-! DEFINITION. Ports going down, packets arriving, and what the units take from them (chapters 10 and 12). -/

namespace Sys2Proof.Machine

/-- Packets that lost their port go round it as they stood before the hop they did not take (R299, R300). -/
def reroute (l : List Waiting) (s : State) : State := l.foldl (fun s w => routePacket w.hold w.orig s) s

/-- PORT_DOWN (R299, R300): logged while a job is active, announced on the dimension line; waiting packets and
unacknowledged VL0 messages go round the port; unacknowledged bulk flits abort the attempt. -/
def portDownState (p : Nat) (s : State) : State :=
  let x := s.port p
  if !(x.usable || x.state = 2 || x.state = 5) then s else
  let bulk := x.unacked.any fun u => u.2.2.p.vl != 0
  let vl0 := (x.unacked.filter fun u => u.2.2.p.vl = 0).map (·.2.2)
  let s := setPort p { Port.reset with
    state := 1, peerDev := x.peerDev, peerPort := x.peerPort, hushing := x.hushing } s
  let s := if s.job.st.live then logAdd 0x0502 5 (p / 12) p 0xFFFF [p, 0, x.peerDev] s else s
  let s := reroute (vl0 ++ x.queue) (announceOne p false s)
  settleFabric (if bulk then abortOwn STEP_REPEAT_FAULT [0x0502] s else s)

/-- RETRAIN_COMPLETE: no good lane that the mask leaves takes the port down; a port that has not met its peer since its last training waits
for the identity exchange. -/
def retrainState (p lanes : Nat) (s : State) : State :=
  let x := s.port p
  if x.state != 2 then s
  else if min lanes (s.lanesAllowed p) = 0 then portDownState p s
  else if x.peerDev = 0xFFFF then setPort p { x with lanes := min (min lanes 4) (s.lanesAllowed p) } s
  else retrainUp p lanes s

/-- A message that stands for a packet of a higher attempt (R264). -/
def packetMsg (p : Packet) (s : State) : CommitMsg :=
  { digest := s.coll.digest, step := p.step, attempt := p.attempt, sender := p.src, code := 0, origin := p.src
    commit := false }

/-- A stream tile of the step and attempt goes into its ring, or waits for its stream; one of a higher attempt ends the
attempts below it and is kept for its own, as is one of a later step; an earlier one is dropped (R264). -/
def streamPacket (p : Packet) (s : State) : State :=
  let keep (s : State) : State := { s with coll := { s.coll with early := s.coll.early ++ [p] } }
  if !s.job.st.live then s
  else if p.step = s.job.step && p.attempt = s.job.attempt then
    (if (s.streamAt p.dstCore p.dstCtx).isSome then deliverTile p.dstCore p.dstCtx p.seq p.offset p.payload s else keep s)
  else if p.step = s.job.step && decide (s.job.attempt < p.attempt) then higherState (packetMsg p s) false (some p) s
  else if s.job.step < p.step then keep s
  else s

/-- A credit report of the step and attempt is taken, by the kneader for core number 511; one of a higher attempt ends the
attempts below it (R264). -/
def creditEventState (core ctx tiles step attempt : Nat) (s : State) : State :=
  let m : CommitMsg := { digest := s.coll.digest, step := step, attempt := attempt, sender := s.devId, code := 0
                         origin := s.devId, commit := false }
  let s := level m false s
  if step = s.job.step && attempt = s.job.attempt then creditReportState core ctx tiles s else s

/-- The unit named by `KIND` is handed a packet: stream tiles go into their rings and the kneader's credit is taken at once;
collective data and the peels' credit reports wait for the event that takes them; what a packet of `KIND` 2 or 4 to 6 says
is a command of its own. -/
def deliver (p : Packet) (s : State) : State :=
  if p.kind = 0 then streamPacket p s
  else if p.kind = 3 && p.dstCore = 511 then
    let s := level (packetMsg p s) false s
    if p.step = s.job.step && p.attempt = s.job.attempt then bucketCredit p s else s
  else if p.kind = 1 ∨ p.kind = 3 then { s with fab := { s.fab with delivered := s.fab.delivered ++ [p] } }
  else s

/-- A packet that a link brings (R289 to R291, R294): one whose codeword cannot be corrected, whose payload fails its CRC or
before which flits are missing is asked for again, from the first flit not accepted; one accepted before is acknowledged
again; any other is acknowledged, stands in the receive buffer, and goes to its unit or on. A device without coordinates
carries nothing for others (R303), nor does one that sleeps (R307). How a repeated number is told from a gap is DESIGN
CHOICE, notes/assumptions/77. -/
def receiveState (l : LinkIn) (p : Packet) (s : State) : State :=
  let x := s.port l.port
  let s := bump (0x3100 + l.port) 8 l.fixed 64 s
  let again : Tx := .linkReplay l.port x.nextIn
  let gap := (l.seqNo + 4096 - x.nextIn) % 4096
  if l.bad then send again (bump (0x3100 + l.port) 9 1 64 s)
  else if 2048 ≤ gap then send (.linkAck l.port ((x.nextIn + 4095) % 4096)) s
  else if gap != 0 || p.pcrc != crc32c p.payload then send again s
  else
    let n := flits p
    let c := creditClass s p
    let s := setPort l.port { x with nextIn := (l.seqNo + n) % 4096, held := tset x.held c (tget 0 x.held c + n) } s
    let s := send (.linkAck l.port ((l.seqNo + n + 4095) % 4096)) s
    if p.dst = s.fabId then deliver p (freeRx (some l.port) p s)
    else if s.fabId = 0xFFFF || s.dev.st = .sleep then freeRx (some l.port) p s
    else routePacket (some l.port) p s

/-- PACKET_FORWARD: a packet that comes on a port, or is handed in by a unit of this device. A port in keep-alive carries
VL0 only (R307). -/
def forwardState (from? : Option LinkIn) (p : Packet) (s : State) : State :=
  if !s.dev.mainUp then s else
  match from? with
  | none => if s.dev.st = .sleep then s else injectPacket p s
  | some l =>
    let x := s.port l.port
    if x.usable || (x.state == 5 && p.vl == 0) then receiveState l p s else s

/-- COLLECTIVE_PACKET (R251, R264): a packet of the step and attempt goes into its bucket, one of a higher attempt ends
the attempts below it, one of a later step is kept (DEDUCED, notes/assumptions/32), an earlier one is dropped. -/
def collPacketState (p : Packet) (s : State) : State :=
  let s := { s with fab := { s.fab with delivered := eraseFirst p s.fab.delivered } }
  if !s.job.st.live || p.dst != s.devId then s
  else if p.step = s.job.step && p.attempt = s.job.attempt then takePacket p s
  else if p.step = s.job.step && decide (s.job.attempt < p.attempt) then
    higherState (packetMsg p s) false (some p) s
  else if s.job.step < p.step then { s with coll := { s.coll with early := s.coll.early ++ [p] } }
  else s

/-- STREAM_CREDIT_REPORT: the report leaves the packets waiting for the peel. -/
def creditPacketState (core ctx tiles step attempt : Nat) (s : State) : State :=
  let mine (p : Packet) : Bool := p.kind == 3 && p.dstCore == core && p.dstCtx == ctx && ofLe p.payload == tiles
    && p.step == step && p.attempt == attempt
  let s := match s.fab.delivered.find? mine with
    | some p => { s with fab := { s.fab with delivered := eraseFirst p s.fab.delivered } }
    | none => s
  creditEventState core ctx tiles step attempt s

/-- ROOT_DELIVERY with the packets that carried it (R217, R261). -/
def rootDeliveryState (src weight side block slot due source kind esc : Nat) (header tiles : Bytes) (s : State) : State :=
  let mine (p : Packet) : Bool := p.kind == 1 && p.src == src && p.step == 0
  rootDelivered src weight side block slot due source kind esc header tiles
    { s with fab := { s.fab with delivered := s.fab.delivered.filter fun p => !mine p } }

/-- ROOT_DECISION_MESSAGE (R218, R264): one of a lower attempt of the step in progress is discarded, one of a higher attempt
ends the attempts below it. -/
def rootMessageState (src weight side block step attempt slot : Nat) (o : RootOutcome) (s : State) : State :=
  let m : CommitMsg := { digest := s.coll.digest, step := step, attempt := attempt, sender := src, code := 0
                         origin := src, commit := false }
  let s := level m false s
  if s.inStep && step = s.job.step && decide (attempt < s.job.attempt) then s
  else rootDecisionState src weight side block step slot o s

end Sys2Proof.Machine
end

