-- ==== Sys2Proof/Machine/CommitCmds.lean ====
section
/-! DEFINITION. Meanings of collectives and of the commit protocol (chapter 10). -/

namespace Sys2Proof.Machine

/-- COLLECTIVE_START (R248 to R250). -/
def execCollectiveStart (coll mb : Nat) (s : State) : Host.Outcome State Fault Refusal :=
  .next (collStartState coll mb s)

/-- COLLECTIVE_PACKET (R251, R264). -/
def execCollectivePacket (p : Packet) (s : State) : Host.Outcome State Fault Refusal := .next (collPacketState p s)

/-- COLLECTIVE_COMPLETE (R255). -/
def execCollectiveComplete (coll : Nat) (s : State) : Host.Outcome State Fault Refusal :=
  .next (collectiveCompleteState coll s)

/-- STREAM_CREDIT_REPORT (R121, R264). -/
def execStreamCreditReport (core ctx : Nat) (r : CreditReport) (s : State) : Host.Outcome State Fault Refusal :=
  .next (creditPacketState core ctx r.tiles r.step r.attempt s)

/-- COMMIT_PHASE_ONE (R262, R263). -/
def execCommitPhaseOne (s : State) : Host.Outcome State Fault Refusal := .next (phaseOneState s)

/-- PREPARE (R263). -/
def execPrepare (m : CommitMsg) (s : State) : Host.Outcome State Fault Refusal := .next (prepareState m (keepMsg kPREPARE m s))

/-- COMMIT (R263). -/
def execCommit (m : CommitMsg) (s : State) : Host.Outcome State Fault Refusal := .next (commitState m s)

/-- ABORT (R265). -/
def execAbort (m : CommitMsg) (s : State) : Host.Outcome State Fault Refusal := .next (abortState m (keepMsg kABORT m s))

/-- ABORT_REQ (R266). -/
def execAbortReq (m : CommitMsg) (s : State) : Host.Outcome State Fault Refusal :=
  .next (abortReqState m (keepMsg kABORT_REQ m s))

/-- QUERY (R268). -/
def execQuery (m : CommitMsg) (s : State) : Host.Outcome State Fault Refusal :=
  .next (queryState m (if s.rank = 0 then keepMsg kQUERY m s else s))

/-- DECISION (R268). -/
def execDecision (m : CommitMsg) (s : State) : Host.Outcome State Fault Refusal := .next (decisionState m s)

/-- HALT (R270). -/
def execHalt (m : CommitMsg) (s : State) : Host.Outcome State Fault Refusal := .next (haltState m s)

/-- HIGHER_ATTEMPT (R264). -/
def execHigherAttempt (m : CommitMsg) (isAbort : Bool) (data : Option Packet) (s : State) :
    Host.Outcome State Fault Refusal :=
  .next (higherState m isAbort data s)

/-- PARTNER_SILENT (R267). -/
def execPartnerSilent (wait : WaitKind) (partner item detail : Nat) (s : State) : Host.Outcome State Fault Refusal :=
  .next (partnerSilentState wait partner item detail s)

/-- COMMIT_OUTCOME_SILENCE (R268). -/
def execCommitOutcomeSilence (s : State) : Host.Outcome State Fault Refusal := .next (outcomeSilenceState s)

/-- DIGEST_EXCHANGE (R271). -/
def execDigestExchange (sender : Nat) (digest : W64) (s : State) : Host.Outcome State Fault Refusal :=
  .next (digestState sender digest s)

end Sys2Proof.Machine
end

