-- ==== Sys2Proof/Machine/CoreCmds.lean ====
section
/-! DEFINITION. Meanings of what the cores do (chapters 3 to 6). -/

namespace Sys2Proof.Machine

/-- MATRIX_OPERATION (R69 to R83). -/
def execMatrixOperation (core : Nat) (s : State) : Host.Outcome State Fault Refusal := .next (matrixState core s)

/-- MATRIX_OPERATION_COMPLETE (R88). -/
def execMatrixOperationComplete (core : Nat) (s : State) : Host.Outcome State Fault Refusal :=
  .next (matrixCompleteState core s)

/-- SPLIT_K_COMBINE (R85). -/
def execSplitKCombine (core level : Nat) (s : State) : Host.Outcome State Fault Refusal :=
  .next (combineState core level s)

/-- VECTOR_INSTRUCTION (R135). -/
def execVectorInstruction (core : Nat) (s : State) : Host.Outcome State Fault Refusal := .next (vectorState core s)

/-- ROW_OPERATION (R147). -/
def execRowOperation (core : Nat) (s : State) : Host.Outcome State Fault Refusal := .next (rowState core s)

/-- GROUP_BARRIER (R133). -/
def execGroupBarrier (core : Nat) (s : State) : Host.Outcome State Fault Refusal := .next (barrierState core s)

/-- SIDELINE_TRANSFER (R118). -/
def execSidelineTransfer (core : Nat) (s : State) : Host.Outcome State Fault Refusal := .next (sidelineState core s)

/-- STREAM_ADMISSION (R120). -/
def execStreamAdmission (core : Nat) (s : State) : Host.Outcome State Fault Refusal := .next (admissionState core s)

/-- DATA_TILE_FETCH (R115). -/
def execDataTileFetch (core ctx : Nat) (corr : Option Corrected) (s : State) : Host.Outcome State Fault Refusal :=
  .next (tileFetchState core ctx corr s)

/-- STREAM_RETIRE (R109). -/
def execStreamRetire (core ctx : Nat) (s : State) : Host.Outcome State Fault Refusal := .next (retireState core ctx s)

/-- STREAM_STALL (R122). -/
def execStreamStall (core ctx : Nat) (s : State) : Host.Outcome State Fault Refusal :=
  .next (streamStallState core ctx s)

/-- PANTRY_PREFETCH (R102). -/
def execPantryPrefetch (core ctx : Nat) (s : State) : Host.Outcome State Fault Refusal :=
  .next (prefetchState core ctx s)

/-- TRANSLATION_MISS (R129 to R131). -/
def execTranslationMiss (core ctx : Nat) (va : Nat) (write : Bool) (s : State) : Host.Outcome State Fault Refusal :=
  .next (missState core ctx va write s)

/-- ITEM_DRAIN_COMPLETE (Table 05.7, order 5). -/
def execItemDrainComplete (group : Nat) (s : State) : Host.Outcome State Fault Refusal := .next (drainState group s)

/-- TRANSLATION_MAPPED (R127). -/
def execTranslationMapped (group va : Nat) (s : State) : Host.Outcome State Fault Refusal :=
  .next (mappedState group va s)

/-- WORK_ITEM_REPLAY (Table 05.7, order 7). -/
def execWorkItemReplay (group : Nat) (s : State) : Host.Outcome State Fault Refusal := .next (replayItemState group s)

/-- REPLAY_BOUND_EXPIRY (R130). -/
def execReplayBoundExpiry (group : Nat) (s : State) : Host.Outcome State Fault Refusal :=
  .next (replayBoundState group s)

end Sys2Proof.Machine
end

