-- ==== Sys2Proof/Machine/LoadCheck.lean ====
section
/-! DEFINITION. The load checks of a recipe, one list of conditions in the order of R372 (chapters 2 to 11, 13, 14). The
first part: core programs, streams, vector and row programs. -/

namespace Sys2Proof.Machine

/-- One condition of a load check: the section it runs with, 0 for a descriptor's own condition and 1 for one on several
descriptors or the section as a whole, the byte offset logged (none where the manual gives the section no layout), the
code, and whether it holds (R372, Table 20.2). -/
structure Chk where
  sect : Nat
  phase : Nat
  off : Option Nat
  code : Nat
  ok : Bool
  deriving DecidableEq, Repr

/-- A condition on the descriptor at an offset, with DESCRIPTOR_INVALID. -/
def dchk (sect off : Nat) (ok : Bool) : Chk := ⟨sect, 0, some off, DESCRIPTOR_INVALID, ok⟩
/-- A condition on an entry of sections 2 to 4, whose layout the manual does not give. -/
def pchk (sect code : Nat) (ok : Bool) : Chk := ⟨sect, 0, none, code, ok⟩
/-- A condition on a section as a whole. -/
def wchk (sect code : Nat) (ok : Bool) : Chk := ⟨sect, 1, some 0xFFFFFFFF, code, ok⟩
/-- A condition that relates several descriptors, at the highest offset among them. -/
def rchk (sect off code : Nat) (ok : Bool) : Chk := ⟨sect, 1, some off, code, ok⟩

/-- Highest of some byte offsets. -/
def maxOff (l : List Nat) : Nat := l.foldl max 0

/-- The highest offset among descriptors that share a key with another: what a repeated key is logged with (R435; DEDUCED,
notes/assumptions/46). -/
def dupOff {α : Type} [BEq α] (l : List (α × Nat)) : Nat :=
  maxOff ((l.filter fun x => decide (2 ≤ l.countP fun y => y.1 == x.1)).map (·.2))

/-- The first failing condition in the order of R372. -/
def firstFail (l : List Chk) : Option Chk :=
  (List.range 11).findSome? fun k =>
    ((l.filter fun c => c.sect == k && c.phase == 0) ++ l.filter fun c => c.sect == k && c.phase == 1).find? fun c => !c.ok

/-! ## Footprints -/

/-- Lowest and highest byte a stream reaches. -/
def StreamDesc.foot (d : StreamDesc) : Int × Int :=
  let run : Nat := match d.dims with
    | x :: _ => cdiv (x.count * d.bits) 8
    | [] => 0
  d.dims.tail.foldl (fun f x =>
    let e : Int := ((x.count - 1 : Nat) : Int) * x.stride
    (f.1 + min 0 e, f.2 + max 0 e)) ((d.base : Int), (d.base : Int) + run - 1)

/-- Two streams reach into one range of one memory. -/
def footsMeet (a b : StreamDesc) : Bool :=
  a.memKind == b.memKind && a.memKind != 2 && decide (a.foot.1 ≤ b.foot.2) && decide (b.foot.1 ≤ a.foot.2)

/-- Identical stream geometry and format. -/
def sameGeom (a b : StreamDesc) : Bool :=
  a.memKind == b.memKind && a.base == b.base && a.dims == b.dims && a.fmt == b.fmt && a.tileKind == b.tileKind
    && a.linTile == b.linTile

/-- Declared region of a core's tile store, or of main memory, that holds an address. -/
def regionOf (c : Container) (home : Option Nat) (a : Int) : Option Region :=
  c.regions.find? fun r => r.core == home && decide ((r.base : Int) ≤ a) && decide (a < (r.base : Int) + r.size)

/-- A range lies in one declared region that satisfies a condition. -/
def rangeIn (c : Container) (home : Option Nat) (p : Region → Bool) (lo n : Nat) : Bool :=
  n == 0 || c.regions.any fun r => r.core == home && p r && decide (r.base ≤ lo) && decide (lo + n ≤ r.base + r.size)

/-- Table 05.3, fourth row, for micro-batch m (R162). -/
def footOk (c : Container) (core m : Nat) (d : StreamDesc) : Bool :=
  let move (a : Int) : Int := match regionOf c (if d.memKind = 1 then none else some core) a with
    | some r => a + m * r.stride
    | none => a
  match d.memKind with
  | 0 => (regionOf c (some core) (move d.foot.1)).isSome && (regionOf c (some core) (move d.foot.2)).isSome
  | 1 => decide (0 ≤ move d.foot.1) && decide (move d.foot.2 < 2 ^ 48)
  | _ => true

/-! ## What an instruction binds -/

/-- A stream an instruction binds: context, direction, tile kind, format byte, scale array or elements, count (R113,
R138, R147), and the source kind named (R67). -/
structure Bind where
  ctx : Nat
  dir : Bool
  tile : Nat
  fmt : Nat
  scale : Bool
  count : Nat
  src : Option Nat
  deriving DecidableEq, Repr

/-- A scale-array stream, where the path is a context. -/
def scaleBind (path : Nat) (dir : Bool) (count : Nat) : List Bind :=
  if path < 8 then [⟨path, dir, 3, 0, true, count, none⟩] else []

/-- Scale bytes an A or B stream enumerates, and a C or D stream (R119). -/
def abScaleCount (d : MatDesc) (other fmt : Nat) : Nat :=
  let f := opFmt fmt
  blockRows d * blockCols d * kTiles d other * (abScaleTile other (max 1 (blockElems f.blockSize)) f.blockDir false 0 0).1
def cdScaleCount (d : MatDesc) (fmt : Nat) : Nat :=
  let f := opFmt fmt
  let bs := max 1 (blockElems f.blockSize)
  let mb := shapeRows d.shape; let nb := shapeCols d.shape
  blockRows d * blockCols d * (if f.blockDir then max 1 (mb / bs) * nb else mb * max 1 (nb / bs))

/-- Bindings of a matrix operation (R66, R67, R113). -/
def matBinds (d : MatDesc) : List Bind :=
  let mb := shapeRows d.shape; let nb := shapeCols d.shape
  [⟨d.aCtx, false, 0, d.aFmt, false, abCount d mb, some d.aSrc⟩, ⟨d.bCtx, false, 1, d.bFmt, false, abCount d nb, some d.bSrc⟩]
    ++ (if d.accInit then [⟨d.cCtx, false, 2, d.cFmt, false, cdCount d, some d.cSrc⟩] else [])
    ++ [⟨d.dCtx, true, 2, d.dFmt, false, cdCount d, none⟩]
    ++ scaleBind d.asCtx false (abScaleCount d mb d.aFmt) ++ scaleBind d.bsCtx false (abScaleCount d nb d.bFmt)
    ++ scaleBind d.csCtx false (cdScaleCount d d.cFmt) ++ scaleBind d.dsCtx true (cdScaleCount d d.dFmt)

/-- Bindings of a vector instruction (R138, R142, R144). -/
def vecBinds (d : VecDesc) : List Bind :=
  let rows := cdiv d.count d.rowLen
  let sl (fmt : Nat) : Nat := viewScaleLen (opFmt fmt) rows d.rowLen
  [⟨d.xCtx, false, 3, d.xFmt, false, d.count, none⟩]
    ++ (if d.yCtx = 15 then [] else [⟨d.yCtx, false, 3, d.yFmt, false, d.count, none⟩])
    ++ [⟨d.zCtx, true, 3, d.zFmt, false, d.count, none⟩]
    ++ (if d.vCtx < 8 then [⟨d.vCtx, false, 3, d.vFmt, false, if d.bcast = 1 then d.rowLen else rows, none⟩] else [])
    ++ scaleBind d.xsCtx false (sl d.xFmt) ++ scaleBind d.ysCtx false (sl d.yFmt) ++ scaleBind d.zsCtx true (sl d.zFmt)

/-- Bindings of a row operation (R147). -/
def rowBinds (d : RowDesc) : List Bind :=
  let n := d.rows * d.rowLen
  let sl (fmt : Nat) : Nat := d.rows * cdiv d.rowLen (max 1 (blockElems (opFmt fmt).blockSize))
  [⟨d.xCtx, false, 3, d.xFmt, false, 2 * n, none⟩]
    ++ (if 4 ≤ d.rop then [⟨d.dyCtx, false, 3, d.dyFmt, false, 2 * n, none⟩] else [])
    ++ [⟨d.outCtx, true, 3, d.outFmt, false, n, none⟩]
    ++ (if d.gammaEn then [⟨d.gCtx, false, 3, d.parFmt, false, if 4 ≤ d.rop then 2 * n else n, none⟩] else [])
    ++ (if d.betaEn then [⟨d.bCtx, false, 3, d.parFmt, false, n, none⟩] else [])
    ++ scaleBind d.xsCtx false (2 * sl d.xFmt) ++ scaleBind d.dysCtx false (2 * sl d.dyFmt)
    ++ scaleBind d.osCtx true (sl d.outFmt)

def Issue.binds (i : Issue) : List Bind :=
  match i.unit with
  | .matrix => matBinds (matDesc i.desc)
  | .vector => vecBinds (vecDesc i.desc)
  | .row => rowBinds (rowDesc i.desc)

/-- The stream an instruction binds to a context. -/
def Issue.stream (i : Issue) (ctx : Nat) : StreamDesc := streamDesc ((klook i.streams ctx).getD [])

/-- A scale path is given exactly for a block-scaled operand (Table 03.3). -/
def pathOk (present : Bool) (fmt path : Nat) : Bool :=
  if present && (opFmt fmt).blockSize != 0 then decide (path ≤ 8) else path == 15

/-! ## Sideline commands (R117, R119, R143) -/

/-- Bytes that a role's command is limited to, where a rule limits or fixes them: (exact?, bytes). -/
def Issue.sideBytes (i : Issue) (role : Nat) : Bool × Nat :=
  let bs (fmt : Nat) : Nat := max 1 (blockElems (opFmt fmt).blockSize)
  match i.unit with
  | .matrix =>
    let d := matDesc i.desc
    match role with
    | 0 => (false, abDenseLen d.m d.k (bs d.aFmt) (opFmt d.aFmt).blockDir)
    | 1 => (false, abDenseLen d.n d.k (bs d.bFmt) (opFmt d.bFmt).blockDir)
    | 2 => (false, cdDenseLen d (bs d.cFmt) (opFmt d.cFmt).blockDir)
    | _ => (false, cdDenseLen d (bs d.dFmt) (opFmt d.dFmt).blockDir)
  | .vector =>
    let d := vecDesc i.desc
    let rows := cdiv d.count d.rowLen
    match role with
    | 0 => (true, 8)
    | 1 => (false, cdiv ((if d.bcast = 1 then d.rowLen else rows) * elemBits (opFmt d.vFmt).elemFmt) 8)
    | 2 => (false, viewScaleLen (opFmt d.xFmt) rows d.rowLen)
    | 3 => (false, viewScaleLen (opFmt d.yFmt) rows d.rowLen)
    | 4 => (false, viewScaleLen (opFmt d.zFmt) rows d.rowLen)
    | _ => (true, 16)
  | .row =>
    let d := rowDesc i.desc
    match role with
    | 2 => (false, d.rows * cdiv d.rowLen (bs d.xFmt))
    | 3 => (false, d.rows * cdiv d.rowLen (bs d.dyFmt))
    | 4 => (false, d.rows * cdiv d.rowLen (bs d.outFmt))
    | _ => (true, 16)

/-- The commands that follow an instruction, in order and no others. -/
def Issue.sideOk (i : Issue) : Bool :=
  i.side.length == i.roles.length && (i.side.zip i.roles).all fun (w, role) =>
    let c := sideCmd w
    let (exact, n) := i.sideBytes role
    Sys2Proof.Machine.sideOk w && c.near == 0 && c.toFar == roleWrites i.unit role
      && (if exact then c.len == n else decide (n ≤ 512))

/-- The sideline command that serves a role. -/
def Issue.sideFor (i : Issue) (role : Nat) : Option SideCmd :=
  ((i.roles.zip i.side).find? fun x => x.1 == role).map fun x => sideCmd x.2

/-- A stream and the far side of a sideline command reach into one range of one memory. -/
def sideMeets (z : StreamDesc) (m : Option SideCmd) : Bool :=
  match m with
  | none => false
  | some m => m.far == z.memKind && decide (z.memKind ≤ 1) && decide ((m.farAddr : Int) ≤ z.foot.2)
      && decide (z.foot.1 ≤ (m.farAddr : Int) + m.len - 1)

/-! ## Matrix operations (Table 03.4) -/

/-- Fields of R66 whose values are limited beyond the reserved bits. -/
def matFieldsOk (d : MatDesc) : Bool :=
  let path (p : Nat) : Bool := decide (p ≤ 8) || p == 15
  decide (1 ≤ d.m) && decide (1 ≤ d.n) && decide (1 ≤ d.k) && decide (d.aCtx ≤ 7) && decide (d.bCtx ≤ 7)
    && decide (d.dCtx ≤ 7)
    && (if d.accInit then decide (d.cCtx ≤ 7) else d.cCtx == 15 && d.cFmt == 0 && d.cSrc == 0)
    && path d.asCtx && path d.bsCtx && path d.csCtx && path d.dsCtx && (d.ksN != 0 || d.kTotal == d.k)

/-- R49, R41. -/
def matFmtOk (d : MatDesc) : Bool :=
  opFmtOk true d.aFmt && opFmtOk true d.bFmt && opFmtOk false d.cFmt && opFmtOk false d.dFmt && outBlockOk d.shape d.dFmt
    && (!d.split || ((opFmt d.aFmt).elemFmt == 0 && (opFmt d.bFmt).elemFmt == 0))

/-- R84: the fields that every member of a split-K group shares. -/
def ksAgree (a b : MatDesc) : Bool :=
  a.m == b.m && a.n == b.n && a.mBase == b.mBase && a.nBase == b.nBase && a.layerId == b.layerId && a.opTag == b.opTag
    && a.kTotal == b.kTotal && a.ksBase == b.ksBase && a.ksN == b.ksN && a.split == b.split && a.aFmt == b.aFmt
    && a.bFmt == b.bFmt && a.dFmt == b.dFmt

/-- Entries of program p on a core. -/
def progOf (c : Container) (p core : Nat) : List ProgItem := tget [] (c.programs.getD p []) core

/-- Matrix descriptors of a list of entries. -/
def matItems (l : List ProgItem) : List MatDesc :=
  l.filterMap fun x => match x with
    | .matrix w _ _ => some (matDesc w)
    | _ => none

/-- Member i of a split-K group: its operation, in the same program or, the first that agrees, in another. -/
def ksMember (c : Container) (p : Nat) (d : MatDesc) (i : Nat) : Option MatDesc :=
  ((p :: List.range c.programs.length).flatMap fun q => matItems (progOf c q (d.ksBase + i))).find? fun x =>
    ksAgree d x && x.ksIdx == i

/-- Table 03.4, seventh row; a descriptor without split is a group of one (DEDUCED, notes/assumptions/34). -/
def ksOk (c : Container) (p core : Nat) (d : MatDesc) : Bool :=
  decide (d.ksIdx ≤ d.ksN) && decide (d.ksBase + d.ksN ≤ 383) && d.ksBase + d.ksIdx == core
    && (d.ksN == 0 || (
      let ks := (List.range (d.ksN + 1)).filterMap (ksMember c p d)
      ks.length == d.ksN + 1
      && ((ks.zip ks.tail).all fun (a, b) => a.kBase + a.k == b.kBase) && ((ks.map (·.k)).foldl (· + ·) 0) == d.kTotal
      && ks.all fun x => !x.replayEn && (x.ksIdx == 0 || (!x.accInit && x.cFmt == 0))))

/-- Checks of one matrix operation. -/
def matChecks (s : State) (p core : Nat) (i : Issue) : List Chk :=
  let d := matDesc i.desc
  let a := i.stream d.aCtx; let b := i.stream d.bCtx; let cs := i.stream d.cCtx; let o := i.stream d.dCtx
  let writes := (klook i.streams d.dCtx).isSome
  [pchk 2 DESCRIPTOR_INVALID (matReservedOk i.desc && matFieldsOk d),
   pchk 2 DESCRIPTOR_INVALID (matFmtOk d),
   pchk 2 DESCRIPTOR_INVALID (pathOk true d.aFmt d.asCtx && pathOk true d.bFmt d.bsCtx && pathOk d.accInit d.cFmt d.csCtx
     && pathOk true d.dFmt d.dsCtx),
   pchk 3 DESCRIPTOR_INVALID (a.memKind == d.aSrc && b.memKind == d.bSrc && (!d.accInit || cs.memKind == d.cSrc)),
   pchk 2 DESCRIPTOR_INVALID (!d.replayEn || ((opFmt d.dFmt).blockSize != 0 && d.ksN == 0 && decide (d.aSrc ≤ 1)
     && decide (d.bSrc ≤ 1) && (!d.accInit || decide (d.cSrc ≤ 1)))),
   pchk 3 DESCRIPTOR_INVALID (!writes || (!footsMeet o a && !footsMeet o b
     && (!d.accInit || !footsMeet o cs || (sameGeom o cs && !d.replayEn)))),
   pchk 2 DESCRIPTOR_INVALID (ksOk s.cont p core d),
   pchk 2 K_TOO_LONG (decide ((if d.split then 3 else 1) * d.kTotal ≤ 2 ^ 26)),
   pchk 2 CORES_UNAVAILABLE (s.coreUp core && (List.range (d.ksN + 1)).all fun k => d.ksN == 0 || s.coreUp (d.ksBase + k)),
   pchk 2 DESCRIPTOR_INVALID i.sideOk]

/-! ## Vector instructions (R144) -/

/-- Selects an operation uses, and those it does not. -/
def usedSels (d : VecDesc) : List Nat := [d.selA, d.selB, d.selC].take (vopArity d.vop)
def unusedSels (d : VecDesc) : List Nat := [d.selA, d.selB, d.selC].drop (vopArity d.vop)

def vecChecks (i : Issue) : List Chk :=
  let d := vecDesc i.desc
  let u := usedSels d
  let yOn := d.yCtx != 15
  let x := i.stream d.xCtx; let y := i.stream d.yCtx; let z := i.stream d.zCtx; let v := i.stream d.vCtx
  let path (p : Nat) : Bool := decide (p ≤ 8) || p == 15
  let inPlace := sameGeom z x || (yOn && sameGeom z y)
  [pchk 4 DESCRIPTOR_INVALID (vecReservedOk i.desc && path d.xsCtx && path d.ysCtx && path d.zsCtx),
   pchk 4 DESCRIPTOR_INVALID ((unusedSels d).all (· == 0) && decide (d.xCtx ≤ 7) && decide (d.zCtx ≤ 7)
     && (if u.contains 1 then decide (d.yCtx ≤ 7) else d.yCtx == 15 && d.yFmt == 0)
     && (if u.contains 2 then d.bcast != 0 && decide (d.vCtx ≤ 8) else d.bcast == 0 && d.vCtx == 15 && d.vFmt == 0)),
   pchk 4 DESCRIPTOR_INVALID (opFmtOk false d.xFmt && opFmtOk false d.yFmt && opFmtOk false d.zFmt && opFmtOk false d.vFmt
     && (opFmt d.vFmt).blockSize == 0 && pathOk true d.xFmt d.xsCtx && pathOk yOn d.yFmt d.ysCtx
     && pathOk true d.zFmt d.zsCtx),
   pchk 4 DESCRIPTOR_INVALID (inPlace || (!footsMeet z x && !(yOn && footsMeet z y) && !(decide (d.vCtx < 8) && footsMeet z v)
     && !(d.vCtx == 8 && sideMeets z (i.sideFor 1)))),
   pchk 4 DESCRIPTOR_INVALID i.sideOk]

/-! ## Row operations (Table 06.8) -/

/-- Statistics a core declares. -/
def statOf (c : Container) (core : Nat) : StatBudget :=
  (c.stats.find? fun x => x.core == core).getD ⟨core, 0, 0, 0⟩

/-- Dimensions that walk: the first, and every other with more than one index. -/
def walking (l : List Dim) : List Dim := l.take 1 ++ l.tail.filter fun x => decide (1 < x.count)

/-- OUT has the geometry and format byte of an operand that is read twice a row: the operand's pattern without the
dimension that repeats the row (DEDUCED, notes/assumptions/61). -/
def sameRowGeom (o x : StreamDesc) : Bool :=
  o.memKind == x.memKind && o.base == x.base && o.fmt == x.fmt
    && walking o.dims == (match walking x.dims with
      | r :: p :: t => if p.stride == 0 && p.count == 2 then r :: t else r :: p :: t
      | l => l)

def rowChecks (s : State) (core : Nat) (i : Issue) : List Chk :=
  let d := rowDesc i.desc
  let st := statOf s.cont core
  let bwd := decide (4 ≤ d.rop)
  let norm := d.rop != 3 && d.rop != 6
  let stats := d.rop != 6 || d.yRecomp
  let x := i.stream d.xCtx; let dy := i.stream d.dyCtx; let o := i.stream d.outCtx
  let fmt (f : Nat) : Bool := opFmtOk false f && !(opFmt f).blockDir
  let path (p : Nat) : Bool := decide (p ≤ 8) || p == 15
  [pchk 4 DESCRIPTOR_INVALID (rowReservedOk i.desc && path d.xsCtx && path d.dysCtx && path d.osCtx
     && (decide (d.rop = 1 ∨ d.rop = 2 ∨ d.rop = 3 ∨ d.rop = 6) || d.param == 0)),
   pchk 4 DESCRIPTOR_INVALID ((!d.betaEn || d.rop == 1) && (!d.gammaEn || norm)
     && (!d.causal || d.rop == 3 || (d.rop == 6 && d.yRecomp)) && (!d.yRecomp || d.rop == 6)
     && (!d.caccEn || d.rop == 4 || d.rop == 5)),
   pchk 4 DESCRIPTOR_INVALID (decide (d.xCtx ≤ 7) && decide (d.outCtx ≤ 7)
     && (if bwd then decide (d.dyCtx ≤ 7) else d.dyCtx == 15 && d.dyFmt == 0)
     && (if d.gammaEn then decide (d.gCtx ≤ 7) else d.gCtx == 15)
     && (if d.betaEn then decide (d.bCtx ≤ 7) else d.bCtx == 15) && (d.gammaEn || d.betaEn || d.parFmt == 0)),
   pchk 4 DESCRIPTOR_INVALID (fmt d.xFmt && fmt d.dyFmt && fmt d.outFmt && opFmtOk false d.parFmt
     && (opFmt d.parFmt).blockSize == 0 && pathOk true d.xFmt d.xsCtx && pathOk bwd d.dyFmt d.dysCtx
     && pathOk true d.outFmt d.osCtx),
   wchk 9 DESCRIPTOR_INVALID (!stats || decide (d.statBase + (d.rows - 1) < st.count)),
   wchk 9 BUDGET_EXCEEDED (decide (st.count ≤ 32768) || s.cont.regions.any fun r =>
     r.core == some core && r.kind == .spill && decide (8 * (st.count - 32768) ≤ r.size)),
   wchk 9 BUDGET_EXCEEDED (!d.caccEn || (decide (st.accLo ≤ d.caccBase) && decide (d.caccBase + (d.rowLen - 1) ≤ st.accHi)
     && decide (min st.count 32768 ≤ st.accLo))),
   pchk 4 DESCRIPTOR_INVALID ((!footsMeet o x || sameRowGeom o x) && (!bwd || !footsMeet o dy || sameRowGeom o dy)),
   pchk 4 DESCRIPTOR_INVALID i.sideOk]

/-! ## Streams (Table 05.3) -/

/-- Every (core, context, stream) of the recipe. -/
def allStreams (c : Container) : List (Nat × Nat × StreamDesc) :=
  c.programs.flatMap fun p => p.flatMap fun (core, items) => items.flatMap fun x => match issueOf x with
    | some i => i.streams.map fun (k, w) => (core, k, streamDesc w)
    | none => []

/-- Seventh row: the partner of a delivered stream. The descriptor of a partner on another device stands in that device's
recipe: here its core number can be checked, and that the device belongs to the job (notes/assumptions/72). -/
def peerOk (s : State) (core ctx : Nat) (d : StreamDesc) : Bool :=
  d.memKind != 2 || ((d.peerDev == s.devId || s.coll.members.contains d.peerDev)
    && decide (d.peerCore < 384)
    && (d.peerDev != s.devId || (s.coreUp d.peerCore && (allStreams s.cont).any fun (n, k, e) =>
      n == d.peerCore && k == d.peerCtx && e.memKind == 2 && e.peerDev == s.devId && e.peerCore == core && e.peerCtx == ctx
        && e.dir == !d.dir && e.fmt == d.fmt && e.tileKind == d.tileKind && e.linTile == d.linTile)))

/-- Sixth row: the ring. -/
def ringOk (c : Container) (core : Nat) (i : Issue) (ctx : Nat) (d : StreamDesc) : Bool :=
  rangeIn c (some core) (fun r => r.kind == .ring) (256 * d.ringBase) (256 * d.ringWords)
    && i.streams.all fun (k, w) => k == ctx || !ringsMeet d (streamDesc w)

/-- The streams of one instruction: the contexts bound are those it names, and each stream meets Table 05.3. -/
def streamChecks (s : State) (core : Nat) (i : Issue) : List Chk :=
  let sec := if i.unit = .matrix then 3 else 4
  let bs := i.binds
  let mbs := s.params.mbPerStep
  let split := i.unit == .matrix && (matDesc i.desc).ksIdx != 0
  let named := bs.all fun b => (klook i.streams b.ctx).isSome || (split && b.dir)
  pchk sec DESCRIPTOR_INVALID ((i.streams.map (·.1)).Nodup && (bs.map (·.ctx)).Nodup && named
      && i.streams.all fun x => bs.any fun b => b.ctx == x.1) ::
    i.streams.flatMap fun (k, w) =>
      let d := streamDesc w
      let b := (bs.find? fun b => b.ctx == k).getD ⟨k, d.dir, d.tileKind, d.fmt, d.scaleArr, d.total, none⟩
      [pchk 3 DESCRIPTOR_INVALID (streamReservedOk w && opFmtOk true d.fmt && d.dir == b.dir && d.tileKind == b.tile
         && d.fmt == b.fmt && d.scaleArr == b.scale),
       pchk 3 DESCRIPTOR_INVALID ((d.dims.headD ⟨0, 1⟩).stride == 0 && d.dims.all fun x => decide (1 ≤ x.count)),
       pchk sec DESCRIPTOR_INVALID (d.total == b.count),
       pchk (if d.memKind = 0 then 9 else 3) DESCRIPTOR_INVALID (footOk s.cont core 0 d && footOk s.cont core (mbs - 1) d),
       pchk 3 DESCRIPTOR_INVALID (!d.dir || d.dims.tail.all fun x => decide (x.count ≤ 1) || x.stride != 0),
       wchk 9 BUDGET_EXCEEDED (ringOk s.cont core i k d),
       pchk 6 DESCRIPTOR_INVALID (peerOk s core k d)]

/-! ## Programs as a whole -/

/-- Bytes an entry and its descriptors take in a descriptor memory (R98). -/
def itemBytes (x : ProgItem) : Nat :=
  match x with
  | .matrix _ st sd => 64 + 64 * st.length + 16 * sd.length
  | .vector _ st sd | .row _ st sd => 32 + 64 * st.length + 16 * sd.length
  | .sideline _ => 16
  | .barrier _ => 32

/-- Barrier identifiers of a list of entries. -/
def barrierIds (l : List ProgItem) : List Nat :=
  l.filterMap fun x => match x with
    | .barrier w => some (barrierId w)
    | _ => none

/-- Programs a layer runs. -/
def Layer.progs (l : Layer) : List Nat :=
  ([l.fProg, l.bProg, l.wProg, l.tapProg, l.uProg] ++ (if l.uProg = 0xFFFF then [] else [l.uProg + 1])).filter (· != 0xFFFF)

/-- Programs of each work item of a layer. -/
def Layer.items (l : Layer) : List (List Nat) :=
  (([l.fProg, l.bProg, l.wProg, l.tapProg].filter (· != 0xFFFF)).map fun p => [p])
    ++ (if l.uProg = 0xFFFF then [] else [[l.uProg, l.uProg + 1]])

/-- Which group runs which program: a training layer's on its own group, an evaluation layer's `F_PROG` on the groups of
the segments it belongs to (R164, R182). -/
def groupRuns (s : State) : List (Nat × Nat) :=
  let segs := (records 8 s.cont.evalSec.length s.cont.evalSec).map segment
  s.layers.flatMap fun l =>
    if l.training then l.progs.map fun p => (l.group, p)
    else (segs.filter fun g => decide (g.first ≤ l.id) && decide (l.id ≤ g.last)).map fun g => (g.group, l.fProg)

/-- Checks of every entry of every program. -/
def itemChecks (s : State) (p core : Nat) (x : ProgItem) : List Chk :=
  match x with
  | .sideline w => [pchk 2 DESCRIPTOR_INVALID (sideOk w)]
  | .barrier w => [pchk 2 DESCRIPTOR_INVALID (barrierOk w)]
  | _ => match issueOf x with
    | none => []
    | some i => (match i.unit with
        | .matrix => matChecks s p core i
        | .vector => vecChecks i
        | .row => rowChecks s core i) ++ streamChecks s core i

/-- Section 2 to 4: every entry, then the conditions on the programs of a core and of a group (R17, R98, R133). -/
def programChecks (s : State) : List Chk :=
  let c := s.cont
  ((c.programs.zipIdx).flatMap fun (pr, p) => pr.flatMap fun (core, items) =>
      pchk 2 CORES_UNAVAILABLE (decide (core < 384) && s.coreUp core) :: items.flatMap (itemChecks s p core))
    ++ ((groupRuns s).map fun (g, p) =>
      wchk 7 DESCRIPTOR_INVALID (match (s.groupOf g).cores with
        | [] => true
        | n :: r => r.all fun m => barrierIds (progOf c p m) == barrierIds (progOf c p n)))
    ++ ((List.range 384).map fun n => wchk 9 BUDGET_EXCEEDED
      (decide ((c.programs.flatMap fun pr => (tget [] pr n).map itemBytes).foldl (· + ·) 0 ≤ 131072)))

end Sys2Proof.Machine
end

