-- ==== Sys2Proof/Machine/RecipeCheck.lean ====
section
/-! DEFINITION. The load checks of the recipe's other sections: layer table, kernels, collectives, interleave table, root
schedule, budgets and evaluation segments (chapters 7 to 11 and 14). -/

namespace Sys2Proof.Machine

/-! ## Section 1: layer table (R159 to R161, R167, R176) -/

/-- Layer entries with their byte offsets and words. -/
def layerEntries : Nat → Nat → Words → List (Nat × Words)
  | 0, _, _ => []
  | fuel + 1, off, w =>
    if w.isEmpty then [] else
    let n := 8 + 8 * fld (word w 0) 15 8
    (off, w.take n) :: layerEntries fuel (off + 4 * n) (w.drop n)

/-- Blocks of a side. -/
def sideBlocks (dim blk : Nat) : Nat := cdiv dim (max 1 blk)

/-- R161, third case: a side that computes blocks has at most 256 and names none beyond its last. -/
def tapBlocksOk (w : WeightRec) : Bool :=
  let ok (dim blk first cnt : Nat) : Bool :=
    cnt == 0 || (decide (sideBlocks dim blk ≤ 256) && decide (first + cnt ≤ sideBlocks dim blk))
  ok w.aDim w.aBlk w.aFirst w.aCnt && ok w.gDim w.gBlk w.gFirst w.gCnt

/-- Checks of one entry and its weight records. -/
def layerChecks (c : Container) (e : Nat × Words) : List Chk :=
  match layerTable 1 e.2 with
  | [] => [dchk 1 e.1 false]
  | l :: _ =>
    let np := c.programs.length
    [dchk 1 e.1 (layerReservedOk e.2 && (l.resident || l.resWords == 0) && (e.2.length == 8 + 8 * l.weights.length)),
     dchk 1 e.1 (!l.training || l.src == 0),
     dchk 1 e.1 (l.tapProg != 0xFFFF || l.weights.all fun w => w.aCnt + w.gCnt == 0),
     pchk 2 DESCRIPTOR_INVALID ([l.fProg, l.bProg, l.wProg, l.tapProg, l.uProg].all fun p => p == 0xFFFF || decide (p < np)),
     dchk 1 e.1 (l.training || !l.resident)]
    ++ (l.weights.zipIdx).flatMap fun (w, i) =>
      [dchk 1 (e.1 + 32 + 32 * i) (weightReservedOk ((e.2.drop (8 + 8 * i)).take 8) && (w.tieGroup != 0 || w.tieIndex == 0)),
       dchk 1 (e.1 + 32 + 32 * i) (tapBlocksOk w)]

/-- R176: the records of one tie group. -/
def tieOk (ws : List WeightRec) (g : Nat) : Bool :=
  let us := ws.filter fun w => w.tieGroup == g
  (us.map (·.tieIndex)).Nodup && us.all fun w => us.all fun v =>
    w.dIn == v.dIn && w.dOut == v.dOut && w.aBlk == v.aBlk && w.gBlk == v.gBlk && w.biasAug == v.biasAug

def layerSecChecks (s : State) : List Chk :=
  let c := s.cont
  let es := layerEntries c.layerSec.length 0 c.layerSec
  let ls := es.flatMap fun e => (layerTable 1 e.2).map fun l => (l, e.1)
  let tr := s.layers.filter Layer.training
  let trs := ls.filter fun x => x.1.training
  let res := trs.filter (·.1.resident)
  let mixed := (res.filter fun x => trs.any fun y => decide (x.1.id < y.1.id) && !y.1.resident).map (·.1.id)
  let ties := trs.flatMap fun (l, off) => (l.weights.zipIdx).map fun (w, i) => (w, off + 32 + 32 * i)
  (es.flatMap (layerChecks c))
    ++ [rchk 1 (dupOff (ls.map fun x => (x.1.id, x.2))) DESCRIPTOR_INVALID ((s.layers.map (·.id)).Nodup),
        rchk 1 (maxOff (res.map (·.2))) DESCRIPTOR_INVALID (decide (res.length ≤ 4)),
        rchk 1 (maxOff ((trs.filter fun x => mixed.any fun i => decide (i ≤ x.1.id)).map (·.2))) DESCRIPTOR_INVALID
          mixed.isEmpty]
    ++ ((tr.flatMap fun l => l.weights.map (·.tieGroup)).eraseDups.filter (· != 0)).map fun g =>
      rchk 1 (maxOff ((ties.filter fun x => x.1.tieGroup == g).map (·.2))) DESCRIPTOR_INVALID (tieOk (ties.map (·.1)) g)

/-! ## Items of a layer: replay and tap (R128, R172) -/

/-- Sideline transfers of an item's programs, as (core, command). -/
def sideCmds (c : Container) (p : Nat) : List (Nat × SideCmd) :=
  (c.programs.getD p []).flatMap fun (core, items) => items.flatMap fun x => match x with
    | .sideline w => [(core, sideCmd w)]
    | .matrix _ _ sd | .vector _ _ sd | .row _ _ sd => sd.map fun w => (core, sideCmd w)
    | .barrier _ => []

/-- Commands that accumulate a statistics word: they read what they write (R141). -/
def statReads (c : Container) (p : Nat) : List (Nat × SideCmd) :=
  (c.programs.getD p []).flatMap fun (core, items) => items.flatMap fun x => match x with
    | .vector d _ sd => if (vecDesc d).statMode = 2 then sd.getLast?.toList.map fun w => (core, sideCmd w) else []
    | .row d _ sd => if (rowDesc d).statMode = 2 then sd.getLast?.toList.map fun w => (core, sideCmd w) else []
    | _ => []

/-- Far range of a command. -/
def sideFar (core : Nat) (m : SideCmd) : Nat × Nat × Int × Int :=
  (m.far, if m.far = 1 then 0 else core, (m.farAddr : Int), (m.farAddr : Int) + m.len - 1)

/-- Ranges an item's program reads and writes, as (memory, core, lowest, highest); memory 0 tile store, 1 main memory,
2 side memory. Main memory belongs to no core. -/
def progReads (c : Container) (p : Nat) (write : Bool) : List (Nat × Nat × Int × Int) :=
  ((c.programs.getD p []).flatMap fun (core, items) => items.flatMap fun x => match issueOf x with
    | some i => i.streams.filterMap fun (_, w) =>
      let d := streamDesc w
      if d.dir = write ∧ d.memKind ≤ 1 then some (d.memKind, if d.memKind = 1 then 0 else core, d.foot.1, d.foot.2) else none
    | none => [])
  ++ (if write then [] else (statReads c p).map fun (core, m) => sideFar core m)
  ++ ((sideCmds c p).flatMap fun (core, m) =>
    let far := sideFar core m
    let near : Nat × Nat × Int × Int :=
      (if m.near = 1 then 0 else 2, core, (m.nearAddr : Int), (m.nearAddr : Int) + m.len - 1)
    (if m.toFar = write then [far] else []) ++ (if m.near != 0 && m.toFar != write then [near] else []))

/-- R128: may an item of these programs be replayed? A U item has two. -/
def replayable (c : Container) (ps : List Nat) : Bool :=
  (ps.all fun p => (c.programs.getD p []).all fun (_, items) => items.all fun x => match issueOf x with
    | some i => i.streams.all fun (_, w) => (streamDesc w).memKind != 2
    | none => true)
  && (ps.flatMap (progReads c · true)).all fun (k, n, lo, hi) =>
    (ps.flatMap (progReads c · false)).all fun (k', n', lo', hi') =>
      k != k' || n != n' || decide (hi < lo') || decide (hi' < lo)

/-- Tiles of a weight's factor region in their order: side, block, tile row and column (R174). -/
def factorTiles (w : WeightRec) : List (Nat × Nat × Nat × Nat) :=
  let side (k dim blk first cnt : Nat) : List (Nat × Nat × Nat × Nat) := (List.range cnt).flatMap fun i =>
    let t := cdiv (min blk (dim - (first + i) * blk)) 32
    (List.range t).flatMap fun r => (List.range (t - r)).map fun c => (k, first + i, r, r + c)
  side 0 w.aDim w.aBlk w.aFirst w.aCnt ++ side 1 w.gDim w.gBlk w.gFirst w.gCnt

/-- Address an operation reads for row (column) r and K step κ of its A (B) operand. -/
def opAddr (i : Issue) (b : Bool) (r κ : Nat) : Nat :=
  let d := matDesc i.desc
  if b then
    let n := shapeCols d.shape
    ((i.stream d.bCtx).place (abIndex d n (!d.bTrans) (r / n) r κ)).1
  else
    let n := shapeRows d.shape
    ((i.stream d.aCtx).place (abIndex d n d.aTrans (r / n * blockCols d) r κ)).1

/-- The declared region of main memory a stream starts in. -/
def mainRegion (c : Container) (x : StreamDesc) : Option Region := if x.memKind = 1 then regionOf c none x.foot.1 else none

/-- Where the window operations of a weight read feature f of a side at global K index k, and in what format (R169). -/
def windowAt (c : Container) (win : List Issue) (weight side f k : Nat) : Option (Nat × Nat) :=
  win.findSome? fun i =>
    let d := matDesc i.desc
    let x := if side = 0 then i.stream d.aCtx else i.stream d.bCtx
    let (base, n) := if side = 0 then (d.mBase, d.m) else (d.nBase, d.n)
    match mainRegion c x with
    | some r =>
      if r.kind = .window ∧ r.weight = weight ∧ base ≤ f ∧ f < base + n ∧ d.kBase ≤ k ∧ k < d.kBase + d.k then
        some (opAddr i (side != 0) (f - base) (k - d.kBase), if side = 0 then d.aFmt else d.bFmt)
      else none
    | none => none

/-- Both streams of a factor operation lie in the weight's window region, over the window's K (R172). -/
def factorInWindow (s : State) (w : WeightRec) (i : Issue) : Bool :=
  let d := matDesc i.desc
  let inWin (x : StreamDesc) : Bool := match mainRegion s.cont x with
    | some r => r.kind == .window && r.weight == w.id && decide (x.foot.2 < (r.base : Int) + r.size)
    | none => false
  d.kTotal == s.params.mbPerStep * s.params.tokenBudget && inWin (i.stream d.aCtx) && inWin (i.stream d.bCtx)

/-- The tiles a factor operation writes, where each is a tile of the weight's factor region laid out as R174 has it and
its operands are the window's rows for that tile (first and last row, column and K step); none where one is not. -/
def factorWrites (s : State) (w : WeightRec) (win : List Issue) (i : Issue) : Option (List Nat) :=
  let d := matDesc i.desc
  let o := i.stream d.dCtx
  match mainRegion s.cont o with
  | none => none
  | some r =>
    let at_ (x y : Nat) : Nat := (o.place (cdIndex d x y)).1
    let tile (ti tj : Nat) : Option Nat :=
      let a := at_ (32 * ti) (32 * tj)
      let id := (a - r.base - 256) / 4096
      let h := min 32 (d.m - 32 * ti); let v := min 32 (d.n - 32 * tj)
      match (factorTiles w)[id]? with
      | none => none
      | some (side, block, tr, tc) =>
        let f (t k : Nat) : Nat := block * (if side = 0 then w.aBlk else w.gBlk) + 32 * t + k
        let reads (b : Bool) (t n base : Nat) : Bool := [0, n - 1].all fun x => [0, d.k - 1].all fun κ =>
          windowAt s.cont win w.id side (f t x) (d.kBase + κ) == some (opAddr i b (base + x) κ, if b then d.bFmt else d.aFmt)
        if decide (r.base + 256 ≤ a) && (a - r.base - 256) % 4096 == 0
          && (List.range h).all (fun x => at_ (32 * ti + x) (32 * tj) == a + 128 * x
            && at_ (32 * ti + x) (32 * tj + (v - 1)) == a + 128 * x + 4 * (v - 1))
          && reads false tr h (32 * ti) && reads true tc v (32 * tj)
        then some id else none
    if r.kind = .factor ∧ r.weight = w.id ∧ d.dFmt = 0 then
      (List.range (cdiv d.m 32 * cdiv d.n 32)).mapM fun k => tile (k / cdiv d.n 32) (k % cdiv d.n 32)
    else none

/-- The tap program of a layer against its window program, core by core: the window operations stand in it unchanged and
in order, and the others are factor operations that cover each tile of the blocks computed here exactly once (R172). -/
def tapOk (s : State) (l : Layer) : Bool :=
  let c := s.cont
  let extra (n : Nat) : List ProgItem := (progOf c l.tapProg n).filter fun x => !(progOf c l.wProg n).contains x
  let cores := (c.programs.getD l.tapProg []).map (·.1)
  let win := ((c.programs.getD l.wProg []).flatMap (·.2)).filterMap issueOf |>.filter fun i => i.unit == .matrix
  let items := cores.flatMap extra
  let ops := items.filterMap issueOf
  (cores.all fun n => (progOf c l.tapProg n).filter (fun x => (progOf c l.wProg n).contains x) == progOf c l.wProg n)
    && ((c.programs.getD l.wProg []).all fun x => cores.contains x.1) && ops.length == items.length
    && (ops.all fun i => i.unit == .matrix && l.weights.any fun w => factorInWindow s w i)
    && l.weights.all fun w =>
      let mine := ops.filter fun i => (matDesc i.desc).ksIdx == 0 && (match mainRegion c (i.stream (matDesc i.desc).dCtx) with
        | some r => r.weight == w.id
        | none => false)
      let ws := mine.map (factorWrites s w win)
      ws.all Option.isSome && (let ids := (ws.filterMap id).flatMap (fun x => x)
        ids.Nodup && ids.length == (factorTiles w).length)

def itemSecChecks (s : State) : List Chk :=
  s.layers.flatMap fun l =>
    [wchk 4 DESCRIPTOR_INVALID (!l.xlatReplay || l.items.all (replayable s.cont)),
     wchk 3 DESCRIPTOR_INVALID (l.tapProg == 0xFFFF || tapOk s l)]

/-! ## Section 5: update kernels (R221, R222, R234, R236 to R242) -/

/-- Operands an operation uses (Table 09.9). -/
def kArity (opc : Nat) : Nat :=
  if opc = 1 then 0 else if opc = 7 ∨ opc = 0x12 ∨ opc = 0x13 ∨ opc = 0x14 then 3
  else if opc = 4 ∨ opc = 5 ∨ opc = 6 ∨ opc = 8 ∨ opc = 9 ∨ opc = 0x0A then 2 else 1

/-- R238, R239: encodings of an instruction word. -/
def kInstrOk (w : W32) : Bool :=
  let i := kInstr w
  let n := kArity i.opc
  decide (1 ≤ i.opc ∧ i.opc ≤ 0x15) && fld w 6 0 == 0 && (i.opc != 2 || decide (i.dst ≤ 3))
    && (i.opc != 1 || decide (i.a ≤ 5)) && (decide (2 ≤ n) || i.b == 0) && (decide (3 ≤ n) || i.c == 0)
    && (i.opc != 0x12 || decide (i.dst ≤ 14))

def kernelReservedOk (w : Words) : Bool :=
  let k := kernelRec w
  fld (word w 0) 31 24 == 0x0B && fld (word w 0) 23 6 == 0 && fld (word w 1) 31 24 == 0 && fld (word w 2) 31 16 == 0
    && word w 3 == 0 && k.ins.all (fun x => decide (x ≤ 8)) && k.outs.all (fun x => x == 0 || decide (3 ≤ x ∧ x ≤ 7))
    && k.code.all kInstrOk

/-- R242 for a block. -/
def kernelFits (c : Container) (b : BlockRec) (w : Words) : Bool :=
  let k := kernelRec w
  let ins := k.ins.filter (· != 0)
  let outs := (k.outs.filter (· != 0)).mergeSort (fun a b => decide (a ≤ b))
  let code := k.code.map kInstr
  let cnt (op : Nat) (at_ : KInstr → Nat) (t : Nat) : Nat := code.countP fun i => i.opc == op && at_ i == t
  kernelReservedOk w && ins.Nodup
    && ins.all (fun x => if x = 4 then b.comp else if 5 ≤ x ∧ x ≤ 7 then decide (x - 5 < b.moms)
        else if x = 8 then rangeIn c none (fun _ => true) b.auxVa (4 * b.elems) else true)
    && outs == 3 :: (if b.comp then [4] else []) ++ (List.range b.moms).map (· + 5)
    && ((List.range 6).all fun t => cnt 1 (·.a) t == (if k.ins.getD t 0 = 0 then 0 else 1))
    && ((List.range 4).all fun t => cnt 2 (·.dst) t == (if k.outs.getD t 0 = 0 then 0 else 1))

/-- Byte offsets of the block records in the section. -/
def blockOff (k : KernelSec) (i : Nat) : Nat :=
  let o1 := 4 + 4 * (k.kernels.map List.length).foldl (· + ·) 0
  let o2 := cdiv o1 64 * 64
  cdiv (o2 + 4 + 48 * k.scalars.length) 64 * 64 + 4 + 64 * i

/-- Rows or columns of block k of a side (R220). -/
def blockExt (dim blk k : Nat) : Nat := min blk (dim - k * blk)

/-- Checks of one block record (Table 09.2). Uses of a tie group on other devices are not seen here, so only the uses of this
device bound `TIE_CNT` (R176; DEDUCED, notes/assumptions/62). -/
def blockChecks (s : State) (bi : Words × Nat) : List Chk :=
  let k := s.ksec
  let b := blockRec bi.1
  let off := blockOff k bi.2
  let c := s.cont
  let w? := weightIn c b.weight
  let root (job prob side blk : Nat) : Bool := job == 0xFFFF || (match s.rootOf job prob with
    | some (p, _) => p.weight == b.weight && p.side == side && p.block == blk
    | none => false)
  let uses := match w? with
    | some w => if w.tieGroup = 0 then 1 else ((s.layers.flatMap (·.weights)).filter fun x => x.tieGroup == w.tieGroup).length
    | none => 0
  let f := opFmt b.wcFmt
  [dchk 5 off (blockReservedOk bi.1),
   dchk 5 off (match w? with
    | some w => b.rows == blockExt w.aDim w.aBlk b.row && b.cols == blockExt w.gDim w.gBlk b.col
    | none => false),
   dchk 5 off (match w? with | some w => if w.tieGroup = 0 then b.ties == 0 else decide (uses ≤ b.ties + 1) | none => false),
   dchk 5 off (!b.comp || decide (b.moms ≤ 2)),
   ⟨8, 0, some off, DESCRIPTOR_INVALID, root b.lJob b.lProb 0 b.row && root b.rJob b.rProb 1 b.col⟩,
   dchk 5 off (b.wcFmt == 1 || ((f.elemFmt == 3 || f.elemFmt == 4) && f.blockSize != 0 && opFmtOk false b.wcFmt)),
   dchk 5 off (decide (b.kernel < k.kernels.length) && decide (b.scal < k.scalars.length)
     && kernelFits c b (k.kernels.getD b.kernel [])),
   dchk 5 off (match layerOfWeight c b.weight with
    | some l => l.uProg != 0xFFFF && decide (l.uProg + 1 < c.programs.length)
    | none => false)]

/-- Areas a block names, as (first byte, bytes); a shared expansion area is named once by its root. -/
def BlockRec.areas (b : BlockRec) (aux : Bool) : List (Nat × Nat) :=
  (b.stateVa, 4096 + 2 * b.slotBytes) :: (b.pVa, 4 * b.elems)
    :: (List.range (b.ties + 1)).map (fun t => (b.gradVa + t * up4k (4 * b.elems), 4 * b.elems))
    ++ (if aux then [(b.auxVa, 4 * b.elems)] else [])

/-- Areas disjoint, each in a declared resident region of main memory. -/
def areasOk (c : Container) (l : List (Nat × Nat)) : Bool :=
  l.all (fun x => rangeIn c none (·.resident) x.1 x.2)
    && ((l.zipIdx).all fun (x, i) => (l.zipIdx).all fun (y, j) => i == j || decide (x.1 + x.2 ≤ y.1) || decide (y.1 + y.2 ≤ x.1)
      || x.2 == 0 || y.2 == 0)

/-- The elements of MASTER that a convert reads, in its order, with the block they belong to: every address of X is one of
the block's slot 0, and Z's is that element's in WC (R234). -/
def convertPart (bs : List BlockRec) (x : ProgItem) : Option (BlockRec × List Nat) :=
  match x with
  | .vector w st sd =>
    let d := vecDesc w
    let i : Issue := ⟨.vector, w, st, sd⟩
    let xs := i.stream d.xCtx; let zs := i.stream d.zCtx
    if d.vop = 0 ∧ d.selA = 0 ∧ d.xFmt = 0 ∧ xs.memKind = 1 ∧ zs.memKind = 1 then
      (bs.find? fun b => decide ((b.slotVa 0 : Int) ≤ xs.foot.1)
          && decide (xs.foot.2 < (b.slotVa 0 : Int) + 4 * b.elems)).bind fun b =>
        let at_ (e : Nat) : Nat := (xs.place e).1 - b.slotVa 0
        let ok (e : Nat) : Bool := at_ e % 4 == 0
          && zs.place e == (b.slotVa 0 + b.wcOff + at_ e / 4 * (elemBits (opFmt b.wcFmt).elemFmt / 8), 0)
        if d.zFmt = b.wcFmt ∧ (List.range d.count).all ok then some (b, (List.range d.count).map fun e => at_ e / 4)
        else none
    else none
  | _ => none

/-- The scale block of element e of a block's WC. -/
def wcBlock (b : BlockRec) (e : Nat) : Nat × Nat :=
  let f := opFmt b.wcFmt
  let n := max 1 (blockElems f.blockSize)
  if f.blockDir then (e / b.cols / n, e % b.cols) else (e / b.cols, e % b.cols / n)

/-- R234: the second program of a layer's U item converts every element of every block exactly once, and no scale block
straddles two instructions. -/
def convertsOk (s : State) (l : Layer) : Bool :=
  let bs := s.layerBlocks l.id
  let items := (s.cont.programs.getD (l.uProg + 1) []).flatMap (·.2)
  let ps := items.filterMap (convertPart bs)
  ps.length == items.length
    && bs.all fun b =>
      let mine := (ps.filter fun x => x.1 == b).map (·.2)
      let all := mine.flatMap id
      all.Nodup && all.length == b.elems
        && ((opFmt b.wcFmt).blockSize == 0 || mine.all fun es => (List.range b.elems).all fun e =>
          es.contains e || !es.any fun k => wcBlock b k == wcBlock b e)

def kernelSecChecks (s : State) : List Chk :=
  let k := s.ksec
  let bs := s.blocks
  let offs := (bs.zipIdx).map fun (b, i) => (b, blockOff k i)
  let roots := offs.flatMap fun (b, o) =>
    (if b.lJob = 0xFFFF then [] else [((b.lJob, b.lProb), (b.lexp, b.rows), o)])
      ++ (if b.rJob = 0xFFFF then [] else [((b.rJob, b.rProb), (b.rexp, b.cols), o)])
  let reads8 (b : BlockRec) : Bool := (kernelRec (k.kernels.getD b.kernel [])).ins.contains 8
  let ex := expansions s
  ((k.blocks.zipIdx).flatMap (blockChecks s))
    ++ [dchk 5 0 (k.kernels.all kernelReservedOk),
        rchk 5 (dupOff (offs.map fun x => ((x.1.weight, x.1.row, x.1.col), x.2))) DESCRIPTOR_INVALID
          ((bs.map fun b => (b.weight, b.row, b.col)).Nodup),
        rchk 5 (maxOff ((roots.filter fun x => roots.any fun y => x.1 == y.1 && x.2.1 != y.2.1).map (·.2.2)))
          DESCRIPTOR_INVALID ((ex.map (·.1)).Nodup)]
    ++ (s.layers.map fun l => wchk 5 DESCRIPTOR_INVALID ((s.layerBlocks l.id).isEmpty || convertsOk s l))
    ++ [wchk 9 BUDGET_EXCEEDED (areasOk s.cont ((bs.flatMap fun b => b.areas (reads8 b)) ++ ex.map (·.2)))]

/-! ## Section 6: collective schedule (R246, R249) -/

/-- Bytes a collective reads on this device. -/
def srcSize (c : Coll) (sec : Words) : Nat :=
  match c.op with
  | 0 => (if c.cnt then 256 else 0) + 4 * c.before sec c.groupN
  | 1 => c.count sec c.rank
  | 2 => if c.root = c.rank then c.elems else 0
  | 3 => 4096 + c.groupN * c.elems
  | 4 => c.elems
  | _ => 0

/-- A slot of a kind and layer stands in some list. -/
def State.hasSlot (s : State) (kind layer : Nat) : Bool :=
  s.groupList.any fun g => g.slots.any fun x => x.kind == kind && x.layer == layer

def collChecks (s : State) (ci : Words × Nat) : List Chk :=
  let sec := s.cont.collSec
  let c := coll ci.1
  let off := collsOff sec + 4 + 64 * ci.2
  let ms := c.members sec
  [dchk 6 off (collReservedOk ci.1),
   dchk 6 off (ms.length == c.groupN && ms.Nodup && ms.all (fun d => s.coll.members.contains d)
     && decide (c.rank < c.groupN) && ms.getD c.rank 0xFFFF == s.devId),
   dchk 6 off ((c.wire == 2) == (c.op != 0) && (!c.cnt || c.op == 0) && decide (c.root < c.groupN)
     && (c.op != 4 && c.op != 5 || c.groupN == 2) && (c.op != 3 || decide (c.groupN ≤ 64))),
   dchk 6 off ((c.countsOff == 0xFFFFFFFF || decide (c.countsOff + 4 * c.groupN ≤ 4 * sec.length))
     && decide ((c.buckets sec).length ≤ 65536)),
   ⟨7, 0, some off, DESCRIPTOR_INVALID,
     (if c.trigger = 0 then true else if c.trigger = 5 then s.layers.any fun l => l.id == c.layer && !l.training
       else s.hasSlot c.trigger c.layer) && (c.consKind == 0 || s.hasSlot c.consKind c.consLayer)⟩,
   ⟨9, 0, some off, BUDGET_EXCEEDED,
     rangeIn s.cont none (·.resident) c.srcVa (srcSize c sec)
       && (if c.toTile then rangeIn s.cont (some c.dstCore) (fun r => r.kind == .gatherBuf) c.dstVa (c.dstSize sec)
           else rangeIn s.cont none (·.resident) c.dstVa (c.dstSize sec))
       && (c.toTile || srcSize c sec == 0 || c.dstSize sec == 0 || decide (c.dstVa + c.dstSize sec ≤ c.srcVa)
           || decide (c.srcVa + srcSize c sec ≤ c.dstVa))⟩,
   dchk 6 off true, ⟨6, 0, some off, CORES_UNAVAILABLE, !c.toTile || s.coreUp c.dstCore⟩]

def collSecChecks (s : State) : List Chk :=
  let sec := s.cont.collSec
  let ms := jobMembers sec
  dchk 6 0 (ms.length == (word sec 0).toNat && (ms.zip ms.tail).all (fun (a, b) => decide (a < b)) && ms.contains s.devId)
    :: ((collWords sec).zipIdx).flatMap (collChecks s)
    ++ [rchk 6 (dupOff ((s.colls.zipIdx).map fun (c, i) => (c.id, collsOff sec + 4 + 64 * i))) DESCRIPTOR_INVALID
          ((s.colls.map (·.id)).Nodup)]

/-! ## Section 7: interleave table (R156, R158, R163, R165, R168) -/

/-- Slots with offsets, the end mark among them, and what follows. -/
def rawSlots : Nat → Nat → Words → List (Nat × Words) × Nat × Words
  | 0, off, w => ([], off, w)
  | fuel + 1, off, w =>
    if w.isEmpty then ([], off, w)
    else if (slotOf w).kind = 0 then ([(off, w.take 2)], off + 8, w.drop 2)
    else let (r, o, w') := rawSlots fuel (off + 8) (w.drop 2); ((off, w.take 2) :: r, o, w')

/-- Groups as (offset of the mask, mask, slots). -/
def rawGroups : Nat → Nat → Words → List (Nat × Words × List (Nat × Words))
  | 0, _, _ => []
  | n + 1, off, w =>
    let (r, o, w') := rawSlots w.length (off + 48) (w.drop 12)
    (off, w.take 12, r) :: rawGroups n o w'

/-- Table 07.4: encodings of a slot. -/
def slotWordsOk (w : Words) : Bool :=
  let x := slotOf w
  decide (x.kind ≤ 5) && fld (word w 0) 27 16 == 0 && (x.kind == 1 || x.kind == 2 || x.mb == 0) && (x.kind == 5 || x.estUs == 0)
    && (decide (1 ≤ x.kind ∧ x.kind ≤ 4) || x.layer == 0)

/-- R165, first to fourth conditions, for one training layer. -/
def layerSlotsOk (s : State) (l : Layer) : Bool :=
  let here := (s.groupOf l.group).slots
  let all := s.groupList.flatMap (·.slots)
  let cnt (k m : Nat) : Nat := all.countP fun x => x.kind == k && x.layer == l.id && x.mb == m
  let pos (k m : Nat) : Nat := here.findIdx fun x => x.kind == k && x.layer == l.id && x.mb == m
  let n := here.length
  (List.range s.params.mbPerStep).all (fun m => cnt 1 m == 1 && cnt 2 m == 1 && decide (pos 2 m < n)
      && decide (pos 1 m < pos 2 m) && (l.weights.isEmpty || decide (pos 2 m < pos 3 0)))
    && (if l.weights.isEmpty then cnt 3 0 == 0 && cnt 4 0 == 0
        else cnt 3 0 == 1 && cnt 4 0 == 1 && decide (pos 3 0 < pos 4 0) && decide (pos 4 0 < n))

/-- Layers of this device with a use of a parameter whose blocks the U item of a layer updates (R176). -/
def tiedLayers (s : State) (layer : Nat) : List Nat :=
  let ties := ((s.layerBlocks layer).filterMap fun b => (weightIn s.cont b.weight).map (·.tieGroup)).filter (· != 0)
  ((s.layers.filter Layer.training).filter fun l => l.weights.any fun w => ties.contains w.tieGroup).map (·.id)

/-- Table 01.5 between the layers of this device. -/
def slotFree (s : State) (done : List (Nat × Nat × Nat)) (x : Slot) : Bool :=
  match x.kind with
  | 1 => (match s.below x.layer with | some l => done.contains (1, l, x.mb) | none => true)
  | 2 => done.contains (1, x.layer, x.mb) && (match s.above x.layer with | some l => done.contains (2, l, x.mb) | none => true)
  | 3 => (List.range s.params.mbPerStep).all fun m => done.contains (2, x.layer, m)
  | 4 => done.contains (3, x.layer, 0) && (tiedLayers s x.layer).all fun l => done.contains (3, l, 0)
  | _ => true

/-- Run the lists against each other: one slot of each list a round (R165, last condition). -/
def listsRun (s : State) : Nat → List (List Slot) → List (Nat × Nat × Nat) → Bool
  | 0, ls, _ => ls.all List.isEmpty
  | fuel + 1, ls, done =>
    let r := ls.foldl (fun (acc : List (List Slot) × List (Nat × Nat × Nat)) l => match l with
      | [] => (acc.1 ++ [[]], acc.2)
      | x :: t => if slotFree s acc.2 x then (acc.1 ++ [t], (x.kind, x.layer, x.mb) :: acc.2) else (acc.1 ++ [l], acc.2))
      ([], done)
    if r.2.length = done.length then ls.all List.isEmpty else listsRun s fuel r.1 r.2

/-- R168: the peaks of a list, in KiB and tile-store words. -/
def peaks (s : State) (slots : List Slot) : Nat × Nat :=
  let r := slots.foldl (fun (a : Int × Int × Int × Int) x =>
    if x.kind = 1 ∨ x.kind = 2 then
      let l := s.layer? x.layer
      let sign : Int := if x.kind = 1 then 1 else -1
      let act := a.1 + sign * ((l.map (·.actKib)).getD 0 : Nat)
      let res := a.2.1 + sign * ((l.map (·.resWords)).getD 0 : Nat)
      (act, res, max a.2.2.1 act, max a.2.2.2 res)
    else a) (0, 0, 0, 0)
  (r.2.2.1.toNat, r.2.2.2.toNat)

/-- Bytes declared for a kind of region. -/
def declared (c : Container) (home : Option Nat) (k : RegionKind) : Nat :=
  ((c.regions.filter fun r => r.core == home && r.kind == k).map (·.size)).foldl (· + ·) 0

def interSecChecks (s : State) : List Chk :=
  let c := s.cont
  let w := c.interSec
  let p := s.params
  let raw := rawGroups p.groups 32 (w.drop 8)
  let masks := s.groupList.flatMap (·.cores)
  let tr := s.layers.filter Layer.training
  let pk := s.groupList.map fun g => peaks s g.slots
  let named := raw.flatMap fun (_, _, sl) => (sl.filter fun x => decide (1 ≤ (slotOf x.2).kind ∧ (slotOf x.2).kind ≤ 4)).map
    fun (o, x) => (((slotOf x).kind, (slotOf x).layer, (slotOf x).mb), o)
  let own := raw.flatMap fun (o, mask, _) => (maskCores mask).map fun n => (n, o)
  [dchk 7 0 (fld (word w 0) 31 24 == 7 && fld (word w 0) 23 22 == 0 && fld (word w 1) 31 24 == 0 && decide (64 ≤ p.tokenBudget)),
   ⟨7, 0, some 0, K_TOO_LONG, decide (p.mbPerStep * p.tokenBudget ≤ 2 ^ 26)⟩]
  ++ (raw.flatMap fun (off, mask, sl) =>
    ⟨7, 0, some off, CORES_UNAVAILABLE, (maskCores mask).all s.coreUp⟩ :: sl.map fun (o, x) =>
      dchk 7 o (slotWordsOk x && (decide ((slotOf x).kind = 0 ∨ (slotOf x).kind = 5) || tr.any fun l => l.id == (slotOf x).layer)
        && (decide (2 < (slotOf x).kind) || decide ((slotOf x).mb < p.mbPerStep))))
  ++ [rchk 7 (dupOff named) DESCRIPTOR_INVALID (named.map (·.1)).Nodup,
      wchk 7 DESCRIPTOR_INVALID (tr.all (layerSlotsOk s)),
      rchk 7 (dupOff own) DESCRIPTOR_INVALID masks.Nodup,
      wchk 7 DESCRIPTOR_INVALID (listsRun s ((s.groupList.map fun g => g.slots.length).foldl (· + ·) 0 + 1)
        (s.groupList.map (·.slots)) []),
      wchk 9 BUDGET_EXCEEDED (decide (1024 * (pk.map (·.1)).foldl (· + ·) 0 ≤ declared c none .activation)),
      wchk 9 BUDGET_EXCEEDED ((s.groupList.zip pk).all fun (g, k) => g.cores.all fun n =>
        decide (256 * k.2 ≤ declared c (some n) .residency)),
      wchk 9 BUDGET_EXCEEDED (decide (1024 * p.mbPerStep * (tr.map (·.winKib)).foldl (· + ·) 0 ≤ declared c none .window))]

/-! ## Section 8: root schedule (Table 08.3) -/

/-- A binary32 that is positive and normal. -/
def posNormal (w : W32) : Bool := decide (0x00800000 ≤ w.toNat ∧ w.toNat < 0x7F800000)

def lvJobOk (s : State) (ji : LvJob × Nat) : List Chk :=
  let j := ji.1
  let off := 64 * ji.2
  let p := s.params
  [dchk 8 off (lvJobReservedOk (entryAt s.cont.rootSec 0 16 ji.2)),
   dchk 8 off (if j.borrow then decide (513 ≤ j.n ∧ j.n ≤ 4096) else decide (1 ≤ j.n ∧ j.n ≤ 512)),
   dchk 8 off (decide (2 ≤ p.curvPeriod) && decide (2 ≤ j.lag ∧ j.lag ≤ p.curvPeriod) && decide (1 ≤ j.every)),
   dchk 8 off ((j.tol == 0 || posNormal j.tol) && posNormal j.epsFloor && decide (-64 ≤ j.damp ∧ j.damp ≤ 0))]

/-- Dimension of a problem's block under its weight record. -/
def probDim (s : State) (p : Prob) : Option Nat :=
  (weightIn s.cont p.weight).map fun w => if p.side = 0 then blockExt w.aDim w.aBlk p.block else blockExt w.gDim w.gBlk p.block

/-- The parameter of a use: the use with the lowest `TIE_INDEX` among this device's records. -/
def paramOf (s : State) (u : WeightRec) : Nat :=
  if u.tieGroup = 0 then u.id
  else (((s.layers.flatMap (·.weights)).filter fun x => x.tieGroup == u.tieGroup).mergeSort
    (fun a b => decide (a.tieIndex ≤ b.tieIndex))).head?.map (·.id) |>.getD u.id

/-- Factor blocks the reduce-scatters deliver to this device, as (parameter, side, block). -/
def delivered (s : State) : List (Nat × Nat × Nat) :=
  let sec := s.cont.collSec
  ((s.layers.flatMap (·.weights)).flatMap fun u =>
    match s.colls.find? fun c => c.op == 0 && c.cnt && (match regionAt s.cont c.srcVa with
        | some r => r.kind == .factor && r.weight == u.id
        | none => false) with
    | none => []
    | some c =>
      let lo := 4 * ((List.range c.rank).map fun r => c.count sec r).foldl (· + ·) 0
      let hi := lo + 4 * c.count sec c.rank
      let side (k first cnt dim blk : Nat) : List (Nat × Nat × Nat) := (List.range cnt).filterMap fun i =>
        let o := factorOff u k (first + i)
        if lo ≤ o ∧ o + 4096 * symTiles (blockExt dim blk (first + i)) ≤ hi then some (paramOf s u, k, first + i) else none
      side 0 u.aFirst u.aCnt u.aDim u.aBlk ++ side 1 u.gFirst u.gCnt u.gDim u.gBlk).eraseDups

/-- Work area of a borrowed job. -/
def LvJob.area (j : LvJob) : List (Nat × Nat) := if j.borrow then [(j.workVa, 7 * 4096 * symTiles j.n)] else []

/-- Logical cores of a hearth. -/
def hearthCores (h : Nat) : List Nat := (List.range 96).map (96 * h + ·)

/-- Table 08.3, last row. -/
def borrowOk (s : State) (j : LvJob) : Bool :=
  let mine := (hearthCores j.hearth).filter s.coreUp
  !j.borrow || decide (j.borrowN + 1 ≤ (mine.filter fun n => !s.groupedCores.contains n).length)
    || s.groupList.any fun g => g.slots.any (fun x => x.kind == 5)
      && decide (j.borrowN + 1 ≤ (g.cores.filter fun n => n / 96 == j.hearth).length)

def rootSecChecks (s : State) : List Chk :=
  let c := s.cont
  let js := rootJobs c.rootSec
  let ps := s.probs
  let solve := ps.filter fun p => p.role == 0
  let last := 4 * c.rootSec.length - 64
  let offs := (js.flatMap fun j => (List.range j.count).map fun i => (j, i)).map fun (j, i) =>
    (probOf j (entryAt c.rootSec j.probOff 16 i), j.probOff + 64 * i)
  ((js.zipIdx).flatMap (lvJobOk s))
  ++ ((js.flatMap fun j => (List.range j.count).map fun i => (j, i)).flatMap fun (j, i) =>
    let w := entryAt c.rootSec j.probOff 16 i
    let p := probOf j w
    let off := j.probOff + 64 * i
    [dchk 8 off (w.length == 16 && probReservedOk w),
     dchk 8 off (decide (p.beta.toNat ≤ 0x3F800000) || p.beta == 0x80000000),
     dchk 8 off (probDim s p == some j.n)])
  ++ [rchk 8 (dupOff ((js.zipIdx).map fun (j, i) => (j.id, 64 * i))) DESCRIPTOR_INVALID ((js.map (·.id)).Nodup),
      rchk 8 last DESCRIPTOR_INVALID ((delivered s).all fun (w, k, b) =>
        solve.countP (fun p => p.weight == w && p.side == k && p.block == b) == 1),
      rchk 8 (dupOff (offs.map fun x => ((x.1.weight, x.1.side, x.1.block), x.2))) DESCRIPTOR_INVALID
        ((ps.map fun p => (p.weight, p.side, p.block)).Nodup),
      rchk 8 (dupOff ((offs.filter fun x => x.1.role == 0).map fun x => ((x.1.job.hearth, x.1.starter), x.2)))
        DESCRIPTOR_INVALID ((solve.map fun p => (p.job.hearth, p.starter)).Nodup),
      wchk 9 BUDGET_EXCEEDED (areasOk c ((solve.map fun p => (p.factorVa, 2 * symSlot p.job.n))
        ++ ps.map (fun p => (p.rootVa, 4096 + 2 * symSlot p.job.n)) ++ js.flatMap LvJob.area))]
  ++ js.map fun j => wchk 8 CORES_UNAVAILABLE (borrowOk s j)

/-! ## Section 9: budgets (R98, R153, R274, R310, R329) -/

/-- Regions of one core: no overlap, at most 6 MiB. -/
def coreRegionsOk (c : Container) (n : Nat) : Bool :=
  let rs := c.regions.filter fun r => r.core == some n
  decide ((rs.map (·.size)).foldl (· + ·) 0 ≤ 6291456) && rs.all (fun r => decide (r.base + r.size ≤ 6291456))
    && (rs.zipIdx).all fun (x, i) => (rs.zipIdx).all fun (y, j) =>
      i == j || decide (x.base + x.size ≤ y.base) || decide (y.base + y.size ≤ x.base)

/-- A member list of the mapping record, in the collective-schedule section (R272): job members, no repeats, this device at its own rank. -/
def axisOk (s : State) (off size rank : Nat) : Bool :=
  let l := u16List s.cont.collSec off size
  l.Nodup && l.all (fun d => s.coll.members.contains d) && l.getD rank 0xFFFF == s.devId

/-- Table 11.3. The number of the model's layers is seen only on the last stage (DEDUCED, notes/assumptions/35). -/
def mappingChecks (s : State) : List Chk :=
  let w := s.cont.budgetSec
  let m := s.map
  let p := s.params
  let tr := s.layers.filter Layer.training
  let top := (tr.map (·.id)).foldl max 0
  [dchk 9 0 (decide (32 ≤ w.length) && mappingReservedOk w),
   dchk 9 0 (m.dSize * m.pSize * m.tSize == s.coll.members.length && decide (m.dRank < m.dSize) && decide (m.pRank < m.pSize)
     && decide (m.tRank < m.tSize) && decide (m.sRank < m.sSize) && decide (m.eRank < m.eSize)),
   dchk 9 0 (m.dSize % m.sSize == 0 && m.dSize % m.eSize == 0 && m.sRank == m.dRank % m.sSize && m.eRank == m.dRank % m.eSize),
   dchk 9 0 (axisOk s m.dOff m.dSize m.dRank && axisOk s m.tOff m.tSize m.tRank && axisOk s m.pOff m.pSize m.pRank
     && axisOk s m.sOff m.sSize m.sRank && axisOk s m.eOff m.eSize m.eRank),
   dchk 9 0 ((u16List s.cont.collSec m.tOff m.tSize).all fun d => d % 256 == s.devId % 256),
   dchk 9 0 (!tr.isEmpty && (m.pRank + 1 != m.pSize || decide (m.pSize ≤ top + 1))),
   dchk 9 0 (decide (m.sSize < 2) || decide (2 ≤ p.mbPerStep)),
   dchk 9 0 (!m.routed || m.eSize % m.experts == 0),
   ⟨9, 0, some 0, BUDGET_EXCEEDED, !m.routed || rangeIn s.cont none (·.resident) m.routeVa (4 * p.mbPerStep * p.tokenBudget)⟩]

/-- Content bytes of a checkpoint (R334). -/
def ckptSize (s : State) : Nat := 4096 + ((s.blockRanges 0 ++ s.rootRanges).map (·.2)).foldl (· + ·) 0

/-- Byte `o` of a section. -/
def byteAt (w : Words) (o : Nat) : Nat := (word w (o / 4)).toNat / 256 ^ (o % 4) % 256

/-- R328, R329; the 14 reserved bytes of each target entry are zero (R10). Logical blocks are counted as 4,096 bytes until START identifies the namespaces. -/
def ingestChecks (s : State) : List Chk :=
  let w := s.cont.budgetSec
  let r := s.ing
  let ext (i : Nat) : Extent := extentAt w r i
  let inShards (i : Nat) : Bool := i == 0xFFFF || !(decide (r.shardFirst ≤ i) && decide (i < r.shardFirst + r.shardCnt))
  [dchk 9 64 (ingestReservedOk (w.drop 16)),
   dchk 9 64 (decide (r.shardFirst + r.shardCnt ≤ r.extCnt) && decide (r.startShard < r.shardCnt)
     && (r.ckptExt == 0xFFFF || decide (r.ckptExt < r.extCnt)) && (r.imageExt == 0xFFFF || decide (r.imageExt < r.extCnt))
     && (List.range r.extCnt).all fun i => decide ((ext i).tgt < r.targets)
       && fld (word (entryAt w r.extOff 8 i) 0) 31 8 == 0 && zeroWords (entryAt w r.extOff 8 i) 6 8),
   dchk 9 64 ((List.range r.targets).all fun i => (List.range 14).all fun b => byteAt w (r.tgtOff + 256 * i + 242 + b) == 0),
   dchk 9 64 (inShards r.ckptExt && inShards r.imageExt),
   dchk 9 64 (decide (r.startOff ≤ 4096 * (ext (r.shardFirst + r.startShard)).blocks)),
   dchk 9 64 (r.ckptExt == 0xFFFF || decide (2 * ckptSize s ≤ 4096 * (ext r.ckptExt).blocks))]

/-- Map every resident region (R127). -/
def mapAll (s : State) : Option State :=
  (s.cont.regions.filter fun r => r.core.isNone && r.resident).foldl (fun o r => o.bind (mapRegion r)) (some s)

def regionChecks (s : State) : List Chk :=
  let c := s.cont
  [wchk 9 BUDGET_EXCEEDED ((List.range 384).all (coreRegionsOk c)),
   wchk 9 DESCRIPTOR_INVALID (c.stats.all fun x => decide (x.count ≤ 131072) && decide (x.accLo ≤ x.accHi) && decide (x.accHi < 32768)),
   wchk 9 CORES_UNAVAILABLE ((c.regions.all fun r => match r.core with | some n => s.coreUp n | none => true)
     && c.stats.all fun x => s.coreUp x.core),
   wchk 9 BUDGET_EXCEEDED (!s.mm.up || (mapAll s).isSome)]

/-! ## Section 10: evaluation segments (R182) -/

def segChecks (s : State) (wi : Words × Nat) : List Chk :=
  let g := segment wi.1
  let ev (l : Nat) : Bool := s.layers.any fun x => x.id == l && !x.training
  [dchk 10 (32 * wi.2) (wi.1.length == 8 && segmentReservedOk wi.1 && (decide (g.slot ≤ 63) || g.slot == 0xFFFF)),
   dchk 10 (32 * wi.2) (ev g.first && ev g.last && decide (g.first ≤ g.last))]

def evalSecChecks (s : State) : List Chk :=
  let ws := records 8 s.cont.evalSec.length s.cont.evalSec
  (ws.zipIdx).flatMap (segChecks s)
    ++ [rchk 10 (dupOff ((ws.zipIdx).map fun (w, i) => ((segment w).id, 32 * i))) DESCRIPTOR_INVALID
          ((ws.map fun w => (segment w).id).Nodup)]

/-- Every load check of a recipe. -/
def recipeChecks (s : State) : List Chk :=
  layerSecChecks s ++ programChecks s ++ itemSecChecks s ++ kernelSecChecks s ++ collSecChecks s ++ interSecChecks s
    ++ rootSecChecks s ++ regionChecks s ++ mappingChecks s ++ ingestChecks s ++ evalSecChecks s

/-- Those of a diagnostic recipe, after R406: it has no mapping record, no ingest record, no root schedule, no kernels and
no collective but an empty member list. -/
def diagChecks (s : State) : List Chk :=
  let ok7 := (interSecChecks s).filter fun c => c.sect != 9
  layerSecChecks s ++ programChecks s ++ itemSecChecks s ++ (if s.cont.interSec.isEmpty then [] else ok7) ++ regionChecks s
    ++ evalSecChecks s

end Sys2Proof.Machine
end

