-- ==== Sys2Proof/Machine/Security.lean ====
section
/-! DEFINITION. Ownership statements, sessions and attestation (chapters 15 and 19). -/

namespace Sys2Proof.Machine

/-- The 320 bytes of an enrolment statement and the 176 of a revocation (Table 19.3); signatures stand as one byte each
that says whether they hold, so that equal statements are equal data. -/
def stmtBytes (st : Statement) : Bytes :=
  leBytes 4 (st.stype * 2 ^ 24 + st.slot * 2 ^ 16 + st.right * 2 ^ 8 + st.reserved) ++ leBytes 8 st.ctr
    ++ st.serial ++ st.key ++ [if st.sig1Ok then 1 else 0, if st.sig2Ok then 1 else 0, if st.sig2Zero then 1 else 0]

/-- A key digest of an enrolment statement: SHA-384 of its 97-byte public key; a revocation names a digest. -/
def stmtDigest (st : Statement) : Bytes := if st.stype = 5 then st.key else Config.sha384 st.key

/-- R426, check 1: reserved bits and listed encodings. `idx8001`: the subindex written. -/
def stmtEncodingOk (sub : Nat) (st : Statement) : Bool :=
  (if sub = 1 then decide (1 ≤ st.stype ∧ st.stype ≤ 4) else st.stype == 5)
    && st.reserved == 0
    && (if st.stype = 2 then decide (st.slot < 32 ∧ st.right ≤ 1) else st.slot == 0 && st.right == 0)
    && (if st.stype = 3 ∨ st.stype = 4 then st.key.all fun b => b == 0 else true)
    && (if st.stype = 1 then true else st.stype == 5 || st.sig2Zero)

/-- R426, check 2: legal in the present state and job state (Table 19.2). -/
def stmtLegal (s : State) (st : Statement) : Bool :=
  match st.stype with
  | 1 => s.sec.state == 0 || s.sec.state == 1
  | 2 => s.sec.state == 1 || s.sec.state == 2
  | 3 => s.sec.state == 1 && s.job.st == .idle
  | 4 => s.sec.state == 1
  | 5 => s.sec.state == 1 || s.sec.state == 2
  | _ => false

/-- R426, check 3: serial, counter, signatures. -/
def stmtSigned (s : State) (st : Statement) : Bool :=
  (st.serial == Config.serial || st.serial == List.replicate 12 0) && decide (s.sec.ctr < st.ctr) && st.sig1Ok
    && (st.stype != 1 || st.sig2Ok)

/-- Client slot that holds a digest. -/
def slotOf? (s : State) (d : Bytes) : Option Nat := (s.sec.clients.find? fun c => c.2.1 == d).map (·.1)

/-- R426, check 4: no other slot holds the key, and the statement does not replace or revoke the writer's key. -/
def stmtWriter (s : State) (writer : Bytes) (st : Statement) : Bool :=
  match st.stype with
  | 1 => s.sec.state == 1 || (match slotOf? s (stmtDigest st) with | some k => k == 0 | none => true)
  | 2 =>
    (match slotOf? s (stmtDigest st) with | some k => k == st.slot | none => true)
      && (match s.sec.clients.find? fun c => c.1 == st.slot with | some c => c.2.1 != writer | none => true)
  | 5 => (stmtDigest st) != writer
  | _ => true

/-- Keep client slots sorted by slot. -/
def setClient (k : Nat) (d : Bytes) (r : Nat) (s : State) : State :=
  { s with sec := { s.sec with clients := tset s.sec.clients k (d, r) } }

/-- R424: the effect of an accepted statement; keys whose sessions close are closed by the caller's list. The second
component: sessions to close after the ACK. -/
def stmtEffect (st : Statement) (s : State) : State × List (BitVec 32) :=
  let s := { s with sec := { s.sec with ctr := st.ctr } }
  match st.stype with
  | 1 =>
    if s.sec.state = 0 then
      let fs := (s.edp.sessions.filter fun x => x.key == Config.factoryKeyDigest).map (·.sid)
      let s := { s with sec := { s.sec with state := 1, owner := (stmtDigest st) } }
      (setClient 0 (stmtDigest st) 1 s, fs)
    else ({ s with sec := { s.sec with owner := (stmtDigest st) } }, [])
  | 2 =>
    let s := match s.sec.clients.find? fun c => c.1 == st.slot with
      | some c => if c.2.1 == (stmtDigest st) then s else closeKey c.2.1 s
      | none => s
    (setClient st.slot (stmtDigest st) st.right s, [])
  | 3 =>
    let all := s.edp.sessions.map (·.sid)
    let s := { s with
      sec := { s.sec with state := 0, owner := [], clients := [(0, (Config.factoryKeyDigest, 1))] }
      regs := { s.regs with minSvn := 0 }, eff := { s.eff with minSvn := 0 } }
    (s, all)
  | 4 => ({ s with sec := { s.sec with state := 2 } }, [])
  | _ =>
    let s := closeKey (stmtDigest st) s
    ({ s with sec := { s.sec with clients := s.sec.clients.filter fun c => c.2.1 != (stmtDigest st) } }, [])

/-- R426, R424: take a statement written by a session. Result: the status, the state, and the sessions that close after
the ACK. A failed signature is logged (Table 20.2, 0x0801). -/
def takeStatement (sub : Nat) (writer : Bytes) (st : Statement) (s : State) : Nat × State × List (BitVec 32) :=
  if !stmtEncodingOk sub st then (TYPE_MISMATCH, s, [])
  else if !stmtLegal s st then (ACCESS_DENIED, s, [])
  else if !stmtSigned s st then (SIGNATURE_BAD, logPlain SIGNATURE_BAD ([2, st.stype] ++ w64 st.ctr) s, [])
  else if !stmtWriter s writer st then (ACCESS_DENIED, s, [])
  else let (s, cl) := stmtEffect st s; (OK, s, cl)

/-- R430: the 320 bytes an attestation report signs, and the report. -/
def reportBody (s : State) (nonce : Bytes) : Bytes :=
  leBytes 4 (1 * 2 ^ 16 + s.sec.state * 2 ^ 8 + s.dev.st.code) ++ leBytes 4 (s.devId * 2 ^ 16 + s.job.st.code * 2 ^ 8)
    ++ Config.serial ++ leBytes 4 s.dev.runningSvn ++ leBytes 4 s.regs.minSvn ++ leBytes 4 s.sec.floor
    ++ leBytes 8 s.sec.ctr ++ leBytes 8 s.job.committed ++ leBytes 8 s.localUs ++ leBytes 8 0 ++ nonce
    ++ (s.dev.runningDigest.getD (List.replicate 48 0))
    ++ (if s.sec.owner.isEmpty then List.replicate 48 0 else s.sec.owner)
    ++ (if s.recipe.loaded.isSome then Config.sha384 s.recipe.loadedBytes else List.replicate 48 0)
    ++ List.replicate 80 0

def report (s : State) (nonce : Bytes) : Bytes :=
  let b := reportBody s nonce
  b ++ Config.identitySign (Config.sha384 b)

/-- A fresh session identifier: nonzero and unused (R350). -/
def freshSid (s : State) : BitVec 32 :=
  let c := Config.sessionCandidate s.edp.sessionNo
  let used (x : BitVec 32) : Bool := x == 0 || s.edp.sessions.any fun y => y.sid == x
  if !used c then c
  else match (List.range 17).find? fun i => !used (BitVec.ofNat 32 (i + 1)) with
    | some i => BitVec.ofNat 32 (i + 1)
    | none => 1

/-- The right of an enrolled key. -/
def keyRight (s : State) (d : Bytes) : Option Nat := (s.sec.clients.find? fun c => c.2.1 == d).map (·.2.2)

/-- A hello's 274 bytes with its signature's outcome in place of the signature. -/
def helloBytes (h : Hello) : Bytes :=
  h.ephemeral ++ h.nonce ++ h.keyDigest ++ leBytes 1 h.right ++ [if h.sigOk then 1 else 0]

/-- R350: answer a client hello. -/
def answerHello (tr : Transport) (peer : Nat) (hello : Hello) (s : State) : Ack × State :=
  let deny : Ack := ackStatus ACCESS_DENIED 0x1100 0x10
  match keyRight s hello.keyDigest with
  | none => (deny, s)
  | some r =>
    if r < hello.right || !hello.sigOk then (deny, s)
    else if 16 ≤ s.edp.sessions.length then (ackStatus BUSY 0x1100 0x10, s)
    else
      let sid := freshSid s
      let n := s.edp.sessionNo
      let dk := Config.ephemeral n
      let dn := Config.deviceNonce n
      let sig := Config.identitySign (Config.sha384 (helloBytes hello ++ leBytes 4 sid.toNat ++ dk ++ dn))
      let x : Session := {
        sid := sid, right := hello.right, key := hello.keyDigest, transport := tr, peer := peer,
        opened := s.localUs, tagged := false, lastRx := s.localUs, rxHi := 0, rxSeen := [], txSeq := 0, cache := [],
        report := none }
      (⟨OK, 0x1100, 0x10, 9, 0, leBytes 4 sid.toNat ++ dk ++ dn ++ sig⟩,
       { s with edp := { s.edp with sessions := s.edp.sessions ++ [x], sessionNo := n + 1 } })

end Sys2Proof.Machine
end

