-- ==== Sys2Proof/Machine/Load.lean ====
section
/-! DEFINITION. LOAD: the checks of a container and what a successful LOAD does (chapters 11, 16, 18 and 19). -/

namespace Sys2Proof.Machine

/-! ## Container checks (R427 to R429) -/

/-- Security version of a container. -/
def contSvn (c : Container) : Nat := (word c.header 2).toNat

/-- Job seed of a recipe. -/
def contSeed (c : Container) : Nat := u64 c.header 4

/-- Section types a kind may hold (R427). -/
def sectListed (kind t : Nat) : Bool := if kind = 3 then decide (0x20 ≤ t ∧ t ≤ 0x22) else decide (1 ≤ t ∧ t ≤ 10)

/-- R429, check 1, against the number of bytes staged. -/
def headerOk (c : Container) (staged : Nat) : Bool :=
  let h := c.header
  let k := contKind c
  h.length == 16 && word h 0 == 0x31434746 && fld (word h 1) 31 16 == 1 && decide (1 ≤ k ∧ k ≤ 3) && fld (word h 1) 7 0 == 0
    && decide (1 ≤ fld (word h 3) 31 16 ∧ fld (word h 3) 31 16 ≤ 64) && fld (word h 3) 15 0 == 0
    && c.sects.length == fld (word h 3) 31 16 && c.sects.Nodup && c.sects.all (sectListed k)
    && (k != 3 || contSeed c == 0) && u64 h 6 == staged && zeroWords h 8 16 && c.tailZero

/-- Table 19.5. -/
def signerOk (s : State) (c : Container) : Bool :=
  let owner := !s.sec.owner.isEmpty && c.signer == s.sec.owner
  let release := c.signer == Config.releaseKeyDigest
  c.sigOk && (match contKind c, s.sec.state with
    | 1, 0 => false
    | 1, _ => owner
    | 2, 0 => release
    | 2, 1 => release || owner
    | 2, _ => owner
    | _, _ => release)

/-- R429, check 3. -/
def svnOk (s : State) (c : Container) : Bool :=
  if contKind c = 3 then decide (s.sec.floor ≤ contSvn c) else decide (s.regs.minSvn ≤ contSvn c)

/-! ## Diagnostic recipes (R406) -/

/-- Every stream and sideline command of a program entry stays in the tile store and the side memory. A command that
serves an instruction keeps `SL_NEAR` = 0 (R143; DEDUCED, notes/assumptions/36). -/
def localItem (x : ProgItem) : Bool :=
  let side (w : Words) : Bool := (sideCmd w).far != 1
  match x with
  | .matrix _ st sd | .vector _ st sd | .row _ st sd => st.all (fun y => (streamDesc y.2).memKind == 0) && sd.all side
  | .sideline w => side w
  | .barrier _ => true

/-- The conditions of R406 on a diagnostic recipe. `t`: the state with the container as its recipe. -/
def diagOk (t : State) : Bool :=
  let c := t.cont
  t.dev.st == .proofing && decide (3 ≤ t.dev.stage)
    && t.layers.all (fun l => !l.training && l.src == 0) && t.groupList.all (fun g => g.slots.isEmpty)
    && c.rootSec.isEmpty && c.kernelSec.isEmpty && (jobMembers c.collSec).isEmpty && (collWords c.collSec).isEmpty
    && (decide (c.budgetSec.length < 17) || fld (word c.budgetSec 16) 31 24 != 0x0E)
    && (c.programs.all fun p => p.all fun x => x.2.all localItem)
    && t.segments.all fun g => (t.groupOf g.group).cores.all t.coreUp

/-! ## Outcome of the checks -/

/-- The state the checks are run on: the container in place, the pages of the previous recipe returned (R310). -/
def candidate (c : Container) (s : State) : State :=
  { s with
    recipe := { s.recipe with loaded := some c }
    coll := { s.coll with members := jobMembers c.collSec }
    mm := { s.mm with
      pages := [], lost := [], owed := [], atc := [], atcOne := [], stagedPages := []
      loadedPages := if s.recipe.same then s.mm.loadedPages else s.mm.stagedPages } }

/-- The first failing check of a container with its code and detail words; a section offset the manual does not fix is an
open value (R372, R433, R435). -/
def loadFailure (s : State) (c : Container) : Option (Nat × Option (List Nat) × Nat) :=
  let t := candidate c s
  let k := contKind c
  let sig : Nat × Option (List Nat) × Nat := (SIGNATURE_BAD, some ([1, k] ++ w64 (contSvn c)), 0)
  if (if s.recipe.same then s.recipe.damaged else s.recipe.stagedBad) then some (ECC_UNCORRECTABLE, some [7], 0)
  else if !headerOk c s.recipe.stagedBytes.length then some (DESCRIPTOR_INVALID, some [0, 0], 0)
  else if !signerOk s c || !svnOk s c then some sig
  else if s.devId = 0xFFFF || (k = 2 && !diagOk t) then some (DESCRIPTOR_INVALID, some [0, 0], 0)
  else if k = 3 then none
  else match firstFail (if k = 1 then recipeChecks t else diagChecks t) with
    | none => none
    | some x => some (x.code, x.off.map fun o => [x.sect, o], x.sect)

/-! ## Effect -/

/-- R280: the replica a slot's token goes to. -/
def route (seed : W64) (eRank m k c : Nat) : Nat :=
  let x := 0x4558000000000000 + eRank * 2 ^ 40 + m * 2 ^ 24 + k
  (mix64 (seed ^^^ mix64 (BitVec.ofNat 64 x)) >>> 32).toNat % max 1 c

/-- Write the route table. -/
def writeRoutes (s : State) : State :=
  let m := s.map
  let p := s.params
  if !m.routed then s
  else vmStore m.routeVa ((List.range p.mbPerStep).flatMap fun i => (List.range p.tokenBudget).flatMap fun k =>
    leBytes 4 (b32OfNat (route (BitVec.ofNat 64 s.job.seed) m.eRank i k (m.eSize / m.experts))).toNat) s

/-- R215, R226: root records and the source steps of factor states at the load of a fresh job. -/
def writeRecords (s : State) : State :=
  s.probs.foldl (fun s p =>
    let s := vmStore p.rootVa (List.replicate 64 0) s
    if p.role = 0 then vmStore (p.factorSlot 1) (leBytes 8 0) (vmStore (p.factorSlot 0) (leBytes 8 0) s) else s) s

/-- Programs the loaded recipe gives a core. -/
def State.recipeMem (s : State) (n : Nat) : List (Nat × List ProgItem) :=
  (s.cont.programs.zipIdx).filterMap fun (p, i) => (klook p n).map fun x => (i, x)

/-- R98: the descriptor memories written from a recipe; what a core executed is gone, its memories stand. -/
def writeDescMem (s : State) : State :=
  let c := s.cont
  let ids := (s.cores.map (·.1) ++ c.programs.flatMap fun p => p.map (·.1)).eraseDups
  ids.foldl (fun s n =>
    setCore n { CoreSt.reset with descMem := s.recipeMem n, tile := (s.core n).tile, sideMem := (s.core n).sideMem } s) s

/-- The lists of R271: the section's third and fourth parts, its member lists and count tables, whole (R246, R262). -/
def digestWords (s : State) : List Nat :=
  let sec := s.cont.collSec
  (sec.drop (cdiv (collsOff sec + 4 + 64 * (collWords sec).length) 64 * 16)).map (·.toNat)

/-- What a successful LOAD of a recipe sets back (R339, R355, R372, R376, R377). -/
def freshRecipe (c : Container) (s : State) : State :=
  let s := candidate c s
  { s with
    recipe := { s.recipe with loadedBytes := s.recipe.stagedBytes, damaged := false, stagedBad := false, same := true }
    job := { Job.reset with st := s.job.st, haltCode := s.job.haltCode, seed := contSeed c, ckptValid := s.job.ckptValid }
    bnd := Boundary.reset
    results := [], history := [], record := List.replicate 256 0
    eval := { Eval.reset with inbox := s.eval.inbox }
    ingest := { Ingest.reset with nextCid := s.ingest.nextCid, nextPort := s.ingest.nextPort }
    groups := [], lstat := []
    leaven := LeavenSt.reset
    coll := { CollSt.reset with members := s.coll.members, digest := Config.jobDigest s.coll.members (digestWords s) }
    fab := { s.fab with inject := [], delivered := []
                        gathers := (s.colls.filter fun x => x.trigger == 0 || x.trigger == 5).map (·.id) } }

/-- A recipe that has passed its checks is loaded. -/
def loadRecipe (c : Container) (s : State) : State :=
  let s := freshRecipe c s
  let s := if s.mm.up then (mapAll s).getD s else s
  setJob .loaded 0 (writeDescMem (rebuildStarters (writeRecords (writeRoutes s))))

/-- R421: the image goes to the inactive bank, which becomes active for the next boot. -/
def installImage (c : Container) (s : State) : State :=
  if s.dev.activeB then
    { s with dev := { s.dev with bankA := some c, activeB := false }, pins := { s.pins with bankAOk := true } }
  else
    { s with dev := { s.dev with bankB := some c, activeB := true }, pins := { s.pins with bankBOk := true } }

/-- The outcome shown at 0x5010:03. -/
def setOutcome (code : Nat) (s : State) : State := { s with recipe := { s.recipe with outcome := code } }

/-- Run a LOAD that has been taken (R372). -/
def runLoad (c : Container) (s : State) : State :=
  match loadFailure s c with
  | some (code, some w, _) => setOutcome code (logPlain code w s)
  | some (code, none, sect) =>
    let (f, s) := takeFree s
    setOutcome code (logPlain code [sect, (Config.freeWord f).toNat] s)
  | none => setOutcome OK (if contKind c = 3 then installImage c s else loadRecipe c s)

/-- The WRITE of LOAD: refused where R372, R373, R406 and R421 say so, and while a reconfiguration runs (Table 12.7, order 6; BUSY
is DESIGN CHOICE, notes/assumptions/82); taken otherwise. -/
def loadCommand (s : State) : Nat × State :=
  if s.job.st.live || s.fab.rebuilding then (BUSY, s) else
  match s.recipe.staged with
  | none => (NOT_READY, s)
  | some c =>
    if contKind c = 1 && (s.dev.st = .standby || s.dev.st = .sleep) then (NOT_READY, s)
    else if contKind c = 1 && s.dev.st = .proofing then (DESCRIPTOR_INVALID, s)
    else if contKind c = 3 && !(s.job.st = .idle && (s.dev.st = .ready || (s.dev.st = .proofing && 3 ≤ s.dev.stage))) then
      (BUSY, s)
    else (OK, runLoad c s)

end Sys2Proof.Machine
end

