-- ==== Sys2Proof/Machine/Jobs.lean ====
section
/-! DEFINITION. The job commands of Table 16.6 (chapters 14 and 16). -/

namespace Sys2Proof.Machine

/-! ## START (R227, R271, R336) -/

/-- What a job starts from: committed step, content, whether it holds the problems' state too, cursor and split queue. -/
structure Source where
  step : Nat
  content : Bytes
  whole : Bool
  cursor : Cursor
  queue : List SplitEntry
  deriving DecidableEq, Repr

/-- A checkpoint slot qualifies for a resume step. -/
def State.slotFits (s : State) (k : CkptImage) : Bool := k.step == s.regs.resumeStep && k.digest == s.recipeDigest

/-- R336. A recipe without an initial image starts from the zeros its regions were mapped with (DESIGN CHOICE,
notes/assumptions/37). -/
def State.source (s : State) (i : Install) : Option Source :=
  if s.regs.resumeStep = 0 then
    let r := s.ing
    let c : Cursor := ⟨r.startEpoch, r.startShard, r.startOff⟩
    if r.imageExt = 0xFFFF then some ⟨0, [], false, c, []⟩ else i.image.map fun b => ⟨0, b, false, c, []⟩
  else
    ([i.slotA, i.slotB].find? fun k => s.slotFits k && k.contentOk).map fun k => ⟨k.step, k.content, true, k.cursor, k.queue⟩

/-- Write consecutive bytes over a list of ranges. -/
def spreadBytes : List (Nat × Nat) → Bytes → State → State
  | [], _, s => s
  | (a, n) :: r, bs, s => spreadBytes r (bs.drop n) (vmStore a (bs.take n) s)

/-- Training layers with blocks here, whose working copies `U_PROG` + 1 writes. -/
def State.toInstall (s : State) : List Nat :=
  (s.layers.filter fun l => l.training && l.uProg != 0xFFFF && !(s.layerBlocks l.id).isEmpty).map (·.id)

/-- The bytes of the source take their places. -/
def placeSource (src : Source) (s : State) : State :=
  if src.content.isEmpty then s
  else spreadBytes (s.blockRanges src.step ++ (if src.whole then s.rootRanges else [])) src.content s

/-- Layers whose working copies must still be made. -/
def queueInstall (s : State) : State := { s with job := { s.job with installing := s.toInstall } }

/-- R227, orders 1 and 2; order 3 is left to `U_PROG` + 1 of each training layer, and order 4 follows it. -/
def installState (src : Source) (s : State) : State :=
  let s := placeSource src s
  let s := queueInstall (s.blocks.foldl (sealBlock src.step) s)
  if s.job.installing.isEmpty then clearTags s else s

/-- This device stands in its member lists where they put it: its identifier may have changed since LOAD (R285, R306). -/
def State.inLists (s : State) : Bool :=
  s.coll.members.contains s.devId && s.colls.all fun c => (c.members s.cont.collSec).getD c.rank 0xFFFF == s.devId

/-- R271: this device's digest goes up the commit tree; step work waits for the commit root's reply. A device that its own
lists no longer hold is caught here (DEDUCED from R285 and R306, notes/assumptions/81). -/
def sendDigest (s : State) : State :=
  let s := { s with coll := { s.coll with digestSent := true, released := false } }
  if !s.inLists then haltNow DESCRIPTOR_INVALID s
  else if s.rank = 0 then releaseAll s else sendWords s.parentDev 8 [s.devId, s.coll.digest.toNat] s

/-- R298: a degraded port retrains at the start of a job. -/
def retrainDegraded (s : State) : State :=
  (List.range 48).foldl (fun s p => if (s.port p).state = 4 then laneFailureState p s else s) s

/-- The job runs from its source: state, roots, ingest, the exchange, and the first slot of step c + 1. -/
def beginJob (src : Source) (s : State) : State :=
  let s := installState src s
  let s := { s with job := { s.job with committed := src.step }, coll := { s.coll with early := [], held := [], answered := [] } }
  let s := rebuildStarters (resumeRoots s)
  sendDigest (startStep (startIngest src.cursor src.queue s))

/-- START of a recipe that has been taken. -/
def startJob (i : Install) (s : State) : State :=
  let s := { s with
    eff := s.regs
    ingest := { s.ingest with blk4k := i.blk4k }
    job := { s.job with ckptHdrs := [(i.slotA.step, i.slotA.digest), (i.slotB.step, i.slotB.digest)], pend := none,
                        taken := none, ckptAsked := false } }
  let s := governorStart (setJob .running 0 (retrainDegraded s))
  match s.source i with
  | none => haltNow NOT_READY s
  | some src => beginJob src s

/-- START of a diagnostic recipe: its segments run once, in ascending `SEG_ID` (R406). -/
def startDiag (s : State) : State :=
  let ids := (s.segments.map (·.id)).mergeSort fun a b => decide (a ≤ b)
  let s := setJob .running 0 { s with
    bnd := { Boundary.reset with order := 5, started := s.localUs, orderStart := s.localUs }
    eval := { s.eval with dueSegs := ids, spent := 0 } }
  diagOver s

/-- The WRITE of START. A namespace that is absent or too small leaves the job LOADED (R329). -/
def startCommand (i : Install) (s : State) : Nat × State :=
  if s.job.st != .loaded then (BUSY, s)
  else if s.isDiag then (if s.dev.st = .proofing then (OK, startDiag s) else (BUSY, s))
  else if s.dev.st != .ready then (BUSY, s)
  else if !i.nsOk then (DESCRIPTOR_INVALID, s)
  else (OK, startJob i s)

/-! ## Commands that wait (R33, R373, R374) -/

/-- Hold a command pending for order 3. -/
def holdCommand (c : JobCmd) (s : State) : Nat × State :=
  if s.job.pend.isSome then (BUSY, s) else (OK, { s with job := { s.job with pend := some c } })

def pauseCommand (s : State) : Nat × State := if s.job.st.stepping then holdCommand .pause s else (BUSY, s)

def resumeCommand (s : State) : Nat × State := if s.job.st = .paused then holdCommand .resume s else (BUSY, s)

def checkpointCommand (s : State) : Nat × State := if s.job.st.live then holdCommand .checkpointNow s else (BUSY, s)

/-- Unload the recipe: its pages are free, its container stays staged until it is replaced (R310, R439). -/
def unload (s : State) : State :=
  { s with
    recipe := { s.recipe with
      loaded := none, loadedBytes := [], damaged := false, same := false
      stagedBad := if s.recipe.same then s.recipe.damaged else s.recipe.stagedBad }
    job := { s.job with seed := 0 }
    groups := [], lstat := [], coll := CollSt.reset, leaven := LeavenSt.reset
    cores := s.cores.map fun (n, c) => (n, { CoreSt.reset with tile := c.tile, sideMem := c.sideMem })
    eval := { Eval.reset with inbox := s.eval.inbox }
    ingest := Ingest.reset
    mm := { s.mm with
      pages := [], lost := [], owed := [], atc := [], atcOne := [], slots := [], loadedPages := []
      stagedPages := if s.recipe.same then s.mm.loadedPages else s.mm.stagedPages } }

/-- STOP: held while the job is live, at once in LOADED and HALTED. -/
def stopCommand (s : State) : Nat × State :=
  if s.job.st.live then holdCommand .stop s
  else if s.job.st = .loaded ∨ s.job.st = .halted then (OK, unload (setJob .idle 0 s))
  else (BUSY, s)

/-- ABORT_STEP: at once; with PREPARE sent it goes to the commit root, and after the commit it is ignored (R266). -/
def abortStepCommand (s : State) : Nat × State :=
  if !s.job.st.stepping then (BUSY, s)
  else if !s.inStep then (OK, abortIgnored s)
  else if s.coll.prepSent then (OK, { abortOwn OK [] s with job := { (abortOwn OK [] s).job with abortAsked := true } })
  else (OK, abortOwn OK [] s)

end Sys2Proof.Machine
end

