-- ==== Sys2Proof/Machine/Dict.lean ====
section
/-! DEFINITION. The object dictionary: its entries with their types, access classes and persistence, the value each
shows, and the static ranges and stores of the writable ones (chapter 16; Tables 08.4, 12.9, 13.4, 14.6, 15.7, 15.10). -/

namespace Sys2Proof.Machine

/-! ## Entries (R364) -/

/-- Access classes (Table 15.6). -/
inductive Access where
  | ro | rw | wo | const_ | rws
  deriving DecidableEq, Repr

/-- Type code (Table 15.5), access class, and whether the value persists. -/
structure Entry where
  ty : Nat
  acc : Access
  keep : Bool
  deriving DecidableEq, Repr

def tBOOL : Nat := 1
def tU8 : Nat := 2
def tU16 : Nat := 3
def tU32 : Nat := 4
def tU64 : Nat := 5
def tI32 : Nat := 6
def tF32 : Nat := 7
def tSTR : Nat := 8
def tOCTETS : Nat := 9
def tRECORD : Nat := 10
def tARRAY : Nat := 11

def roE (t : Nat) : Entry := ⟨t, .ro, false⟩
def roP (t : Nat) : Entry := ⟨t, .ro, true⟩
def cE (t : Nat) : Entry := ⟨t, .const_, false⟩
def rwP (t : Nat) : Entry := ⟨t, .rw, true⟩
def woE (t : Nat) : Entry := ⟨t, .wo, false⟩
def rwsP (t : Nat) : Entry := ⟨t, .rws, true⟩

/-- Tables 16.2, 15.10 and 16.3: identity, protocol, power. -/
def rows1 : List (Nat × Nat × Entry) :=
  [(0x1000, 0, cE tRECORD), (0x1000, 1, cE tSTR), (0x1000, 2, cE tSTR), (0x1000, 3, cE tSTR), (0x1000, 4, cE tOCTETS),
   (0x1000, 5, cE tOCTETS), (0x1000, 6, cE tOCTETS), (0x1000, 7, roE tU8), (0x1000, 8, roE tU8), (0x1000, 9, roE tU16),
   (0x1000, 0x0A, roE tU64), (0x1000, 0x0B, roP tU32), (0x1000, 0x0C, roP tU64),
   (0x1008, 1, cE tSTR), (0x1008, 2, roP tSTR), (0x1008, 3, roP tSTR), (0x1008, 4, cE tU8), (0x1008, 5, cE tU16),
   (0x1008, 6, roP tOCTETS),
   (0x1100, 1, rwP tU8), (0x1100, 2, roE tU8), (0x1100, 3, cE tU16), (0x1100, 4, roE tU8), (0x1100, 5, rwP tU16),
   (0x1100, 6, roE tU64), (0x1100, 7, roE tU64), (0x1100, 8, roE tU64), (0x1100, 9, roE tU64),
   (0x1100, 0x0A, roE tU64), (0x1100, 0x0B, roE tOCTETS), (0x1100, 0x10, woE tOCTETS), (0x1100, 0x12, woE tU32)]

def rows2 : List (Nat × Nat × Entry) :=
  [(0x2000, 0, rwP tU16), (0x2001, 1, roE tU16), (0x2001, 2, roE tU16), (0x2001, 3, roE tU32), (0x2001, 4, roP tU64),
   (0x2010, 0, roE tARRAY), (0x2010, 1, roE tU16), (0x2010, 2, roE tU16), (0x2010, 3, roE tU16), (0x2010, 4, roE tU16),
   (0x2020, 1, roE tI32), (0x2020, 2, roE tI32), (0x2020, 3, roE tI32), (0x2020, 4, roE tI32), (0x2020, 5, roE tI32),
   (0x2020, 6, roE tI32), (0x2020, 7, roE tI32), (0x2020, 8, roE tI32), (0x2020, 9, roE tI32),
   (0x2100, 1, rwP tU8), (0x2100, 2, rwP tU8), (0x2100, 3, rwP tU16), (0x2100, 4, rwP tU16), (0x2100, 5, rwP tBOOL),
   (0x2100, 6, rwP tU16), (0x2200, 1, woE tU8), (0x2200, 2, rwP tBOOL)]

/-- Tables 12.9, 13.4 and 16.5: fabric, main memory, job. -/
def rows3 : List (Nat × Nat × Entry) :=
  [(0x3000, 1, rwP tU8), (0x3000, 2, rwP tU8), (0x3000, 3, rwP tU8), (0x3000, 4, roE tU16), (0x3000, 5, roE tU8),
   (0x3000, 6, rwP tU8), (0x3000, 7, rwP tU8), (0x3000, 8, woE tU8), (0x3010, 0, rwsP tU8),
   (0x4000, 1, rwsP tU8), (0x4000, 2, roE tU64), (0x4000, 3, roE tOCTETS), (0x4000, 4, rwP tU32), (0x4000, 5, roE tU32),
   (0x4000, 6, roE tU32), (0x4100, 1, roE tU64), (0x4100, 2, roE tU64), (0x4100, 3, roE tU64), (0x4100, 4, roE tU64),
   (0x4100, 5, roE tOCTETS), (0x4100, 6, roE tU64), (0x4200, 1, roE tU64), (0x4200, 2, roP tU32),
   (0x4200, 3, roP tOCTETS)]

def rows4 : List (Nat × Nat × Entry) :=
  [(0x5000, 1, roE tU8), (0x5000, 2, roE tU16), (0x5000, 3, roE tU64), (0x5000, 4, roE tU8), (0x5000, 5, roE tU64),
   (0x5001, 1, woE tU8), (0x5001, 2, roE tU8), (0x5002, 0, rwP tU8), (0x5003, 0, rwP tU32), (0x5004, 0, rwP tU32),
   (0x5005, 0, rwP tU32), (0x5010, 1, woE tOCTETS), (0x5010, 2, roE tU32), (0x5010, 3, roE tU16),
   (0x5010, 4, roE tOCTETS), (0x5100, 0, roE tOCTETS), (0x5200, 1, roE tU32), (0x5200, 2, roE tOCTETS),
   (0x5200, 3, roE tU64)]

/-- Tables 08.4, 16.10, 16.11, 14.6 and 16.12: leaven, self-test, security, host ports, log. -/
def rows5 : List (Nat × Nat × Entry) :=
  [(0x6000, 1, rwP tF32), (0x6000, 2, rwP tF32), (0x6000, 3, rwP tU8), (0x6000, 4, rwP tU8), (0x6100, 1, roE tU32),
   (0x6100, 2, roE tOCTETS), (0x7000, 0, woE tU32), (0x7001, 1, roE tU8), (0x7001, 2, roE tU8), (0x7001, 3, roE tU16),
   (0x7001, 4, roE tU32), (0x7100, 1, roE tU16), (0x7100, 2, roE tOCTETS), (0x7100, 3, roE tOCTETS),
   (0x7200, 1, roE tU64), (0x7200, 2, roE tU64), (0x7200, 3, roE tU64), (0x7200, 4, roE tU64), (0x7200, 5, roP tU64),
   (0x7200, 6, roE tU32), (0x7200, 7, roE tU32), (0x7200, 8, roE tU32), (0x7200, 9, roE tU8), (0x7200, 0x0A, roE tU64),
   (0x7200, 0x0B, roE tU64), (0x7200, 0x0C, roP tU64), (0x7200, 0x0D, roP tU32)]

def rows6 : List (Nat × Nat × Entry) :=
  [(0x8000, 1, roP tU8), (0x8000, 2, roP tOCTETS), (0x8000, 3, rwsP tU32), (0x8001, 1, woE tOCTETS),
   (0x8001, 2, woE tOCTETS), (0x8010, 1, woE tOCTETS), (0x8010, 2, roE tOCTETS), (0x8010, 3, cE tU16),
   (0x9000, 1, rwP tSTR), (0x9000, 2, rwP tSTR), (0x9000, 3, rwP tU16), (0x9000, 4, rwP tU16), (0x9000, 5, rwsP tU8),
   (0x9000, 6, rwsP tU8), (0x9000, 7, rwsP tU8), (0x9100, 1, roE tOCTETS), (0x9100, 2, roE tU64), (0x9100, 3, roE tU64),
   (0x9100, 4, roE tU64), (0x9100, 5, roE tU64), (0x9100, 6, roE tU64), (0x9100, 7, roE tU32), (0x9100, 8, rwP tU32),
   (0x9100, 9, ⟨tU64, .rw, false⟩), (0x9200, 1, rwP tU16), (0x9200, 2, roE tU64), (0x9200, 3, roE tU64),
   (0x9200, 4, roE tU32), (0xA000, 1, roE tU32), (0xA000, 2, roE tU64), (0xA000, 3, roE tOCTETS), (0xA000, 4, rwP tU16),
   (0xA000, 5, roP tU32), (0xA000, 6, roP tOCTETS), (0xA000, 7, woE tU8)]

/-- Entry `sub` of a numbered object whose subindices start at 1. -/
def nthE (l : List Entry) (sub : Nat) : Option Entry := if sub = 0 then none else l[sub - 1]?

/-- The objects that come in numbers: subscriptions, port records, result slots, client keys. -/
def subscriptionE : List Entry := [roE tU32, roE tU32, roE tU16, roE tU64]
def portE : List Entry :=
  [roE tU8, roE tU8, roE tU16, roE tU8, roE tU8, rwP tU8, rwP tU8, roE tU64, roE tU64, roE tU64, roE tU32, roE tU32,
   roE tU32, roE tU32]
def slotE : List Entry := [roE tU64, roE tU8, roE tOCTETS, woE tU64, roE tU32, roE tU64]
def keyE : List Entry := [roP tOCTETS, roP tU8]
def hostPortE : List Entry := [roE tU8, roE tU64, roE tU64, roE tU64, roE tU32]

/-- R364: the entry at an index and subindex, none when the device does not implement it. -/
def entryOf (idx sub : Nat) : Option Entry :=
  if 0x1800 ≤ idx ∧ idx < 0x1820 then nthE subscriptionE sub
  else if 0x3100 ≤ idx ∧ idx < 0x3130 then nthE portE sub
  else if 0x5400 ≤ idx ∧ idx < 0x5440 then nthE slotE sub
  else if 0x8020 ≤ idx ∧ idx < 0x8040 then nthE keyE sub
  else if idx = 0x9000 ∧ 0x10 ≤ sub then (if sub < 0x30 then hostPortE[sub % 16]? else none)
  else if idx = 0x9200 ∧ 0x10 ≤ sub then (if sub < 0x50 then some (rwP tOCTETS) else none)
  else ((rows1 ++ rows2 ++ rows3 ++ rows4 ++ rows5 ++ rows6).find? fun r => r.1 == idx && r.2.1 == sub).map (·.2.2)

/-- R366: entries the steward answers READ for in STANDBY. -/
def standbyReads (idx : Nat) (e : Entry) : Bool :=
  e.keep || e.acc == .const_
    || [0x1000, 0x1008, 0x1100, 0x2001, 0x2020, 0x2200, 0x7001, 0x8000, 0x8010, 0xA000].contains idx
    || decide (0x1800 ≤ idx ∧ idx < 0x1820) || decide (0x8020 ≤ idx ∧ idx < 0x8040)

/-! ## Values -/

/-- "CYS-NQ7-M192" and "A1" (R1). -/
def partNumber : Bytes := [0x43, 0x59, 0x53, 0x2D, 0x4E, 0x51, 0x37, 0x2D, 0x4D, 0x31, 0x39, 0x32]
def stepping : Bytes := [0x41, 0x31]

/-- Digest of the running firmware image; 48 zero bytes when none runs (R420). -/
def State.fwDigest (s : State) : Bytes := s.dev.runningDigest.getD (List.replicate 48 0)

def valIdentity (s : State) (idx sub : Nat) : Bytes :=
  if idx = 0x1000 then
    match sub with
    | 0 => [0x0C] | 1 => partNumber | 2 => stepping | 3 => Config.serial
    | 4 => Config.mac 0 | 5 => Config.mac 1 | 6 => Config.mac 2
    | 7 => leBytes 1 s.dev.st.code | 8 => leBytes 1 s.pins.slotId | 9 => leBytes 2 s.available
    | 0x0A => leBytes 8 s.localUs | 0x0B => leBytes 4 (s.counter idx sub) | _ => leBytes 8 (s.counter idx sub)
  else
    match sub with
    | 1 => Config.bootRomVersion | 2 => Config.firmwareVersion 0 s.fwDigest | 3 => Config.firmwareVersion 1 s.fwDigest
    | 4 => [1] | 5 => leBytes 2 1 | _ => s.fwDigest

def valProtocol (s : State) (sub : Nat) : Bytes :=
  match sub with
  | 1 => leBytes 1 s.regs.plcaNode | 2 => leBytes 1 s.edp.t1s | 3 => leBytes 2 4470
  | 4 => leBytes 1 s.edp.sessions.length | 5 => leBytes 2 s.regs.idleTime
  | 0x0B => Config.certificateChain | n => leBytes 8 (s.counter 0x1100 n)

def valSubscription (s : State) (k sub : Nat) : Bytes :=
  match s.edp.subs.find? fun x => x.1 == k with
  | none => match sub with | 3 => leBytes 2 0 | 4 => leBytes 8 0 | _ => leBytes 4 0
  | some (_, x) =>
    match sub with
    | 1 => leBytes 4 x.sid.toNat | 2 => leBytes 4 (x.classes.toNat * 2 ^ 16 + x.kinds.toNat)
    | 3 => leBytes 2 (queued x.queue) | _ => leBytes 8 x.dropped

/-- A signed 32-bit value. -/
def i32Bytes (x : Int) : Bytes := leBytes 4 (x % 4294967296).toNat

def valPower (s : State) (idx sub : Nat) : Bytes :=
  if idx = 0x2000 then leBytes 2 s.regs.inputCap
  else if idx = 0x2001 then
    match sub with
    | 1 => leBytes 2 (s.gov.inputMw / 1000) | 2 => leBytes 2 (s.gov.inputMv / 10) | 3 => leBytes 4 s.gov.inputMa
    | _ => leBytes 8 (s.gov.energy / 10000000)
  else if idx = 0x2010 then (if sub = 0 then [4] else leBytes 2 (s.gov.vcore.getD (sub - 1) 0))
  else if idx = 0x2020 then
    match sub with
    | 5 => i32Bytes s.gov.inlet | 6 => i32Bytes s.gov.outlet | 7 => i32Bytes s.gov.crust | 8 => i32Bytes s.gov.gddr
    | 9 => i32Bytes s.gov.regulator | n => i32Bytes (s.gov.tj.getD (n - 1) 0)
  else if idx = 0x2100 then
    match sub with
    | 1 => leBytes 1 s.regs.tjLimit | 2 => leBytes 1 s.regs.outLimit | 3 => leBytes 2 s.regs.vMax
    | 4 => leBytes 2 s.regs.vMin | 5 => leBytes 1 s.regs.elective.toNat | _ => leBytes 2 s.regs.holdback
  else leBytes 1 s.regs.autoProof.toNat

def valFabric (s : State) (idx sub : Nat) : Bytes :=
  if idx = 0x3000 then
    match sub with
    | 4 => leBytes 2 s.devId | 5 => [16] | 6 => leBytes 1 s.regs.nY | 7 => leBytes 1 s.regs.nZ
    | n => leBytes 1 (s.regs.coord.getD (n - 1) 0xFF)
  else if idx = 0x3010 then leBytes 1 s.regs.cabling
  else if sub ≤ 7 then portValue s (idx - 0x3100) sub
  else if sub ≤ 0x0A then leBytes 8 (s.counter idx sub) else leBytes 4 (s.counter idx sub)

/-- Bytes available to recipe regions (R310). -/
def State.regionBytes (s : State) : Nat :=
  if s.mm.up then (s.topPage - 128 - s.mm.retired.countP fun p => decide (128 ≤ p) && decide (p < s.topPage)) * pageSize
  else 0

def valMemory (s : State) (idx sub : Nat) : Bytes :=
  if idx = 0x4000 then
    match sub with
    | 1 => leBytes 1 s.regs.interleave | 2 => leBytes 8 s.regionBytes | 3 => s.mm.rates.map fun r => BitVec.ofNat 8 r
    | 4 => leBytes 4 s.regs.scrubPeriod | 5 => leBytes 4 (s.mm.scrubDone * 1000 / dataBlocks)
    | _ => leBytes 4 (s.counter idx sub)
  else if idx = 0x4100 then
    (if sub = 5 then (List.range 24).flatMap fun c => leBytes 4 (s.counter 0x14105 c) else leBytes 8 (s.counter idx sub))
  else
    match sub with
    | 1 => leBytes 8 tableRoot | 2 => leBytes 4 s.mm.retired.length
    | _ => s.mm.retired.flatMap fun p => leBytes 4 p

/-- Step of a step record. -/
def recStep (r : Bytes) : Nat := ofLe ((r.drop 4).take 8)

/-- Step of the latest and of the oldest record held. -/
def State.lastRecord (s : State) : Nat := (s.history.map fun r => recStep r.2).foldl max 0
def State.firstRecord (s : State) : Nat := (s.history.map fun r => recStep r.2).foldl min s.lastRecord

/-- 0x5010:04. -/
def State.loadedDigest (s : State) : Bytes := if s.recipe.loaded.isSome then s.recipeDigest else []

def valJob (s : State) (idx sub : Nat) : Bytes :=
  if idx = 0x5000 then
    match sub with
    | 1 => leBytes 1 s.job.st.code | 2 => leBytes 2 s.job.haltCode | 3 => leBytes 8 s.job.committed
    | 4 => leBytes 1 s.job.attempt | _ => leBytes 8 s.job.seed
  else if idx = 0x5001 then leBytes 1 ((s.job.pend.map JobCmd.code).getD 0)
  else if idx = 0x5002 then leBytes 1 s.regs.repeatLimit
  else if idx = 0x5003 then leBytes 4 s.regs.streamWd
  else if idx = 0x5004 then leBytes 4 s.regs.replayBound
  else if idx = 0x5005 then leBytes 4 s.regs.silence
  else if idx = 0x5010 then
    match sub with
    | 2 => leBytes 4 s.recipe.stagedBytes.length | 3 => leBytes 2 s.recipe.outcome | _ => s.loadedDigest
  else if idx = 0x5100 then s.record
  else
    match sub with
    | 1 => leBytes 4 s.history.length
    | 2 => (List.range 4096).flatMap fun p => (klook s.history p).getD (List.replicate 256 0)
    | _ => leBytes 8 s.firstRecord

def valSlot (s : State) (k sub : Nat) : Bytes :=
  let x := s.slot k
  match sub with
  | 1 => leBytes 8 x.seq | 2 => leBytes 1 x.state | 3 => x.value | 5 => leBytes 4 x.replaced | _ => leBytes 8 x.step

/-- R378: root records of the problems solved here, in recipe order. -/
def State.rootTable (s : State) : List Bytes :=
  (s.probs.filter fun p => p.role == 0).map fun p => s.vmRead p.rootVa 64

def valLeaven (s : State) (idx sub : Nat) : Bytes :=
  if idx = 0x6000 then
    match sub with
    | 1 => leBytes 4 s.regs.lvTolNative.toNat | 2 => leBytes 4 s.regs.lvTolBorrowed.toNat
    | 3 => leBytes 1 s.regs.lvIterCap | _ => leBytes 1 s.regs.lvMissLimit
  else if sub = 1 then leBytes 4 s.rootTable.length else s.rootTable.flatten

/-- Octets of a 0x7200 counter. -/
def relWidth (sub : Nat) : Nat := if sub = 9 then 1 else if sub = 6 ∨ sub = 7 ∨ sub = 8 ∨ sub = 0x0D then 4 else 8

def valTest (s : State) (idx sub : Nat) : Bytes :=
  if idx = 0x7001 then
    match sub with
    | 1 => leBytes 1 s.dev.test.state | 2 => leBytes 1 s.dev.stage | 3 => leBytes 2 s.dev.reason
    | _ => leBytes 4 s.dev.test.slices.length
  else if idx = 0x7100 then
    match sub with
    | 1 => leBytes 2 s.available | 2 => s.dev.map.map fun p => BitVec.ofNat 8 p
    | _ => s.dev.phys.map fun p => BitVec.ofNat 8 p
  else leBytes (relWidth sub) (s.counter idx sub)

def valSecurity (s : State) (x : Option Session) (idx sub : Nat) : Bytes :=
  if idx = 0x8000 then
    match sub with
    | 1 => leBytes 1 s.sec.state | 2 => s.sec.owner | _ => leBytes 4 s.regs.minSvn
  else if idx = 0x8010 then (if sub = 3 then leBytes 2 1 else (x.bind (·.report)).getD [])
  else
    match s.sec.clients.find? fun c => c.1 == idx - 0x8020 with
    | some c => if sub = 1 then c.2.1 else leBytes 1 c.2.2
    | none => if sub = 1 then [] else [0]

def valHost (s : State) (idx sub : Nat) : Bytes :=
  if idx = 0x9000 then
    if 0x10 ≤ sub then
      let p := s.ports.getD (sub / 16 - 1) HostPort.reset
      match sub % 16 with
      | 0 => leBytes 1 p.up.toNat | 1 => leBytes 8 p.received | 2 => leBytes 8 p.discarded | 3 => leBytes 8 p.pfc
      | _ => leBytes 4 p.losses
    else if sub ≤ 2 then s.regs.portAddr.getD (sub - 1) []
    else if sub ≤ 4 then leBytes 2 (s.regs.vlan.getD (sub - 3) 0)
    else leBytes 1 (s.regs.prio.getD (sub - 5) 0)
  else if idx = 0x9100 then
    match sub with
    | 1 => cursorBytes ((klook s.ingest.cursorAt s.job.committed).getD Cursor.zero)
    | 6 => leBytes 8 s.job.ckptValid | 7 => leBytes 4 (s.counter idx 7) | 8 => leBytes 4 s.regs.ingestBound
    | 9 => leBytes 8 s.regs.resumeStep | n => leBytes 8 (s.counter idx n)
  else
    match sub with
    | 1 => leBytes 2 s.regs.inboxSlots | 2 => leBytes 8 (s.counter idx 2) | 3 => leBytes 8 (s.counter idx 3)
    | 4 => leBytes 4 Config.inboxBase | n => tget [] s.regs.clients (n - 0x10)

def valLog (s : State) (sub : Nat) : Bytes :=
  match sub with
  | 1 => leBytes 4 s.log.ring.length | 2 => leBytes 8 ((s.log.ring.head?.map (·.seq)).getD 0)
  | 3 => s.log.ring.flatMap LogRec.bytes | 4 => leBytes 2 s.regs.logMask
  | 5 => leBytes 4 s.log.fault.length | _ => s.log.fault.flatMap LogRec.bytes

/-- The value of an entry as a session reads it. -/
def entryValue (s : State) (x : Option Session) (idx sub : Nat) : Bytes :=
  match idx / 0x1000 with
  | 1 => if idx = 0x1100 then valProtocol s sub else if 0x1800 ≤ idx then valSubscription s (idx - 0x1800) sub
         else valIdentity s idx sub
  | 2 => valPower s idx sub
  | 3 => valFabric s idx sub
  | 4 => valMemory s idx sub
  | 5 => if 0x5400 ≤ idx then valSlot s (idx - 0x5400) sub else valJob s idx sub
  | 6 => valLeaven s idx sub
  | 7 => valTest s idx sub
  | 8 => valSecurity s x idx sub
  | 9 => valHost s idx sub
  | _ => valLog s sub

/-- The version of a value (R348, R377): the sequence number of a result slot, the step of the latest history record;
elsewhere a number the manual leaves open (notes/assumptions/33). -/
def entryVersion (s : State) (x : Option Session) (idx sub : Nat) : Nat :=
  if 0x5400 ≤ idx ∧ idx < 0x5440 ∧ sub = 3 then (s.slot (idx - 0x5400)).seq % 2 ^ 32
  else if idx = 0x5200 ∧ sub = 2 then s.lastRecord % 2 ^ 32
  else (Config.valueVersion (ck idx sub) (entryValue s x idx sub)).toNat

/-! ## Types and ranges (R352, R10) -/

/-- A UTF-8 continuation byte. -/
def utf8Tail (l : Bytes) (n : Nat) : Bool := decide (n ≤ l.length) && (l.take n).all fun b => b.toNat / 64 == 2

/-- Well-formed UTF-8 (RFC 3629), within `fuel` characters. -/
def utf8Ok : Nat → Bytes → Bool
  | _, [] => true
  | 0, _ :: _ => false
  | fuel + 1, b :: r =>
    let n := b.toNat
    let c := (r.headD 0).toNat
    if n < 0x80 then utf8Ok fuel r
    else if 0xC2 ≤ n ∧ n ≤ 0xDF then utf8Tail r 1 && utf8Ok fuel (r.drop 1)
    else if 0xE0 ≤ n ∧ n ≤ 0xEF then
      utf8Tail r 2 && (n != 0xE0 || decide (0xA0 ≤ c)) && (n != 0xED || decide (c ≤ 0x9F)) && utf8Ok fuel (r.drop 2)
    else if 0xF0 ≤ n ∧ n ≤ 0xF4 then
      utf8Tail r 3 && (n != 0xF0 || decide (0x90 ≤ c)) && (n != 0xF4 || decide (c ≤ 0x8F)) && utf8Ok fuel (r.drop 3)
    else false

/-- Octets of a fixed-size type. -/
def tySize (ty : Nat) : Option Nat :=
  match ty with
  | 1 | 2 | 10 | 11 => some 1
  | 3 => some 2
  | 4 | 6 | 7 => some 4
  | 5 => some 8
  | _ => none

/-- A value has a form of its type. -/
def formOk (ty : Nat) (v : Bytes) : Bool :=
  (match tySize ty with
    | some n => v.length == n
    | none => ty != 8 || (decide (v.length ≤ 255) && utf8Ok 255 v))
    && (ty != 1 || decide (ofLe v ≤ 1))

/-- The bytes written to 0x8001 have the length and a listed `STMT_TYPE` of Table 19.3, and a zero reserved byte (R10, R425). -/
def stmtForm (sub : Nat) (val : Bytes) : Bool :=
  let ty := (val.getD 3 0).toNat
  val.length == (if sub = 1 then 320 else 176) && val.headD 0 == 0
    && (if sub = 1 then decide (1 ≤ ty ∧ ty ≤ 4) else ty == 5)

/-- The listed range or encodings of an entry. -/
def rangeOk (idx sub : Nat) (val : Bytes) : Bool :=
  let v := ofLe val
  let within (a b : Nat) : Bool := decide (a ≤ v) && decide (v ≤ b)
  if idx = 0x1100 then (if sub = 1 then within 0 254 else if sub = 5 then within 10 3600 else true)
  else if idx = 0x2000 then within 800 2100
  else if idx = 0x2100 then
    match sub with
    | 1 => within 70 105 | 2 => within 40 70 | 3 => within 600 850 | 4 => within 550 750 | 6 => within 0 400 | _ => true
  else if idx = 0x2200 then sub != 1 || within 1 4
  else if idx = 0x3000 then
    match sub with
    | 6 | 7 => [1, 2, 4, 8, 16].contains v | 8 => v == 1 | _ => true
  else if idx = 0x3010 then within 0 1
  else if 0x3100 ≤ idx ∧ idx < 0x3130 then
    match sub with
    | 6 => v == 0xFF || (decide (0x312D ≤ idx) && within 0 44) | 7 => within 0 15 | _ => true
  else if idx = 0x4000 then (if sub = 1 then within 0 1 else if sub = 4 then within 1 8760 else true)
  else if idx = 0x5001 then within 1 7
  else if idx = 0x5002 then within 0 15
  else if idx = 0x5003 ∨ idx = 0x5004 then within 1000 10000000
  else if idx = 0x5005 then within 10000 60000000
  else if idx = 0x6000 then (match sub with | 3 => within 1 63 | 4 => within 1 255 | _ => true)
  else if idx = 0x7000 then
    decide (v / 2 ^ 16 = 1 ∨ v / 2 ^ 16 = 2)
      && (decide (v % 2 ^ 16 ≤ 0x17F) || (decide (0x8000 ≤ v % 2 ^ 16) && decide (v % 2 ^ 16 < 0x8000 + 400))
        || v % 2 ^ 16 == 0xFFFF)
  else if idx = 0x8001 then stmtForm sub val
  else if idx = 0x8010 then val.length == 32
  else if idx = 0x9000 then (if 5 ≤ sub ∧ sub ≤ 7 then within 0 7 else true)
  else if idx = 0x9100 then (if sub = 8 then within 100 600000 else true)
  else if idx = 0x9200 then (if sub = 1 then within 16 1024 else val.isEmpty || val.length == 20)
  else if idx = 0xA000 then (if sub = 7 then within 1 2 else true)
  else true

/-! ## Own rules and stores -/

/-- Size a coordinate entry's dimension has as written (R286). -/
def State.sizeOf (s : State) (d : Nat) : Nat := if d = 0 then 16 else if d = 1 then s.regs.nY else s.regs.nZ

/-- R286: coordinates and sizes. -/
def coordRule (s : State) (sub v : Nat) : Nat :=
  if s.job.st.live then BUSY
  else if sub ≤ 3 then (if v != 0xFF && decide (s.sizeOf (sub - 1) ≤ v) then TYPE_MISMATCH else OK)
  else
    let c := s.regs.coord.getD (sub - 5) 0xFF
    if c != 0xFF && decide (v ≤ c) then TYPE_MISMATCH else OK

/-- The refusal an entry's own rule gives a value, OK when it takes it. -/
def ownRule (s : State) (idx sub : Nat) (val : Bytes) : Nat :=
  let v := ofLe val
  if idx = 0x2100 then
    (if (sub = 3 ∧ v < s.regs.vMin) ∨ (sub = 4 ∧ s.regs.vMax < v) then TYPE_MISMATCH else OK)
  else if idx = 0x3000 then coordRule s sub v
  else if 0x3100 ≤ idx ∧ idx < 0x3130 then (if sub = 6 ∧ s.job.st.live then BUSY else OK)
  else if idx = 0x5002 then (if s.dev.st = .active then BUSY else OK)
  else if idx = 0x8000 then (if s.sec.state = 2 ∧ v < s.regs.minSvn then TYPE_MISMATCH else OK)
  else if idx = 0x9100 then (if sub = 9 ∧ s.job.st ≠ .loaded then BUSY else OK)
  else if idx = 0x9200 then (if sub = 1 ∧ s.recipe.loaded.isSome then BUSY else OK)
  else OK

/-- Remember or forget an inbox client (Table 14.6). -/
def setInboxClient (k : Nat) (val : Bytes) (r : Regs) : Regs :=
  { r with clients := if val.isEmpty then kdel r.clients k else tset r.clients k val }

def putPower (idx sub v : Nat) (r : Regs) : Regs :=
  if idx = 0x2000 then { r with inputCap := v }
  else if idx = 0x2200 then { r with autoProof := v == 1 }
  else match sub with
    | 1 => { r with tjLimit := v } | 2 => { r with outLimit := v } | 3 => { r with vMax := v } | 4 => { r with vMin := v }
    | 5 => { r with elective := v == 1 } | _ => { r with holdback := v }

def putFabric (idx sub v : Nat) (r : Regs) : Regs :=
  if idx = 0x3000 then
    match sub with
    | 6 => { r with nY := v } | 7 => { r with nZ := v } | n => { r with coord := r.coord.set (n - 1) v }
  else if idx = 0x3010 then { r with cabling := v }
  else if sub = 6 then { r with spare := r.spare.set (idx - 0x3100) v }
  else { r with laneMask := r.laneMask.set (idx - 0x3100) v }

def putJob (idx v : Nat) (r : Regs) : Regs :=
  if idx = 0x5002 then { r with repeatLimit := v }
  else if idx = 0x5003 then { r with streamWd := v }
  else if idx = 0x5004 then { r with replayBound := v }
  else { r with silence := v }

def putLeaven (sub v : Nat) (r : Regs) : Regs :=
  match sub with
  | 1 => { r with lvTolNative := BitVec.ofNat 32 v } | 2 => { r with lvTolBorrowed := BitVec.ofNat 32 v }
  | 3 => { r with lvIterCap := v } | _ => { r with lvMissLimit := v }

def putHost (idx sub : Nat) (val : Bytes) (r : Regs) : Regs :=
  let v := ofLe val
  if idx = 0x9000 then
    if sub ≤ 2 then { r with portAddr := r.portAddr.set (sub - 1) val }
    else if sub ≤ 4 then { r with vlan := r.vlan.set (sub - 3) v } else { r with prio := r.prio.set (sub - 5) v }
  else if idx = 0x9100 then (if sub = 8 then { r with ingestBound := v } else { r with resumeStep := v })
  else if sub = 1 then { r with inboxSlots := v } else setInboxClient (sub - 0x10) val r

/-- The register that a value written to a stored entry goes to. -/
def putReg (idx sub : Nat) (val : Bytes) (r : Regs) : Regs :=
  let v := ofLe val
  match idx / 0x1000 with
  | 1 => if sub = 1 then { r with plcaNode := v } else { r with idleTime := v }
  | 2 => putPower idx sub v r
  | 3 => putFabric idx sub v r
  | 4 => if sub = 1 then { r with interleave := v } else { r with scrubPeriod := v }
  | 5 => putJob idx v r
  | 6 => putLeaven sub v r
  | 8 => { r with minSvn := v }
  | 9 => putHost idx sub val r
  | _ => { r with logMask := v }

/-- Entries whose value takes effect at the next step boundary while a job runs (R129, R214, R267, R368). -/
def deferred (idx : Nat) : Bool := [0x2000, 0x2100, 0x6000, 0x5003, 0x5004, 0x5005].contains idx

/-- Store a value. -/
def storeEntry (idx sub : Nat) (val : Bytes) (s : State) : State :=
  { s with
    regs := putReg idx sub val s.regs
    eff := if deferred idx && s.job.st.live then s.eff else putReg idx sub val s.eff }

end Sys2Proof.Machine
end

