-- ==== Sys2Proof/Machine/PowerCmd.lean ====
section
/-! DEFINITION. Proofing as a whole and the power-state command of 0x2200:01 (chapters 12, 16, 17 and 18). -/

namespace Sys2Proof.Machine

/-! ## Proofing (Table 18.1) -/

/-- Both host ports take the link state met at order 7. -/
def setHostUp (up : List Bool) (s : State) : State :=
  { s with
    dev := { s.dev with hostUp := [up.getD 0 false, up.getD 1 false] }
    ports := s.ports.zipIdx.map fun (p, i) => { p with up := up.getD i false } }

/-- Entry to READY: stage 7, PASSED, VCORE 0.55 V, the firmware floor (R395, R403, R419). -/
def enterReady (s : State) : State :=
  let s := { s with
    dev := { s.dev with stage := 7, reason := 0, test := { SelfTest.idle with state := 3 } }
    sec := { s.sec with floor := max s.sec.floor s.dev.runningSvn } }
  setDev .ready (setVcore 550 s)

/-- Orders 7 to 9: host ports, port training, identities. A diagnostic recipe is unloaded (R406). -/
def proofLast (p : ProofInput) (s : State) : State :=
  let s := proofFabric p.lanes p.ids (setHostUp p.hostUp s)
  enterReady (if s.isDiag then unload (setJob .idle 0 s) else s)

/-- PROOFING: the events of Table 18.1 from order 4 on, of a module that has just entered PROOFING. -/
def proofingState (p : ProofInput) (s : State) : State :=
  if s.dev.st = .proofing && !s.dev.proofFailed && s.dev.stage = 1 then
    match proofFirst p s with
    | (s, true) => proofLast p s
    | (s, false) => s
  else s

/-! ## SLEEP and wake (Tables 12.8 and 17.9) -/

/-- Every pantry written back and empty, its disabled ways kept (R104). -/
def emptyPantries (s : State) : State :=
  let m := s.mm.flush fun _ _ => true
  { s with mm := { m with
      pantry := m.pantry.filterMap fun (k, x) => if x.disabled.isEmpty then none else some (k, { PSet.empty with disabled := x.disabled })
      slots := [], atc := [], atcOne := [] } }

/-- On-chip memories without power: tile stores, side memories, descriptor memories and starter tables (R402). -/
def loseSram (s : State) : State :=
  { s with cores := [], leaven := { s.leaven with starters := [], lostStarters := [] } }

/-- Both host ports go down with their connections (R362). -/
def hostPortsDown (s : State) : State :=
  { setHostUp [false, false] s with conns := [] }

/-- The events of Table 17.9. -/
def sleepState (s : State) : State :=
  let s := hostPortsDown (loseSram (emptyPantries (hushAll 2000 s)))
  let s := fabSleep (setVcore 0 { s with mm := { s.mm with up := false } })
  logPlain 0 [6] (setDev .sleep s)

/-- SLEEP: from READY, with the job IDLE, LOADED or HALTED and no self-test waiting (R35, R369, Table 18.6). -/
def sleepCommand (s : State) : Nat × State :=
  if s.dev.st = .ready && !s.job.st.live && s.dev.test.state != 1 && s.dev.test.state != 2 then (OK, sleepState s)
  else (BUSY, s)

/-- The steward writes descriptor memories and starter tables again; a damaged container halts the job (R310, R402). -/
def restoreSram (s : State) : State :=
  if s.recipe.loaded.isNone then s
  else if s.recipe.damaged then haltNow ECC_UNCORRECTABLE s
  else writeDescMem (rebuildStarters s)

/-- Table 12.8 from order 1, in a sleeping device: orders 2 and 3 begin, the ports meet their peers in events of their own,
and with the last of them the device is READY (order 5). A wake under way is not begun again. -/
def wakeState (s : State) : State :=
  if s.dev.st = .sleep && !s.fab.waking then
    fabWake (restoreSram (setVcore 550 { s with mm := { s.mm with up := true } }))
  else s

/-- WAKE. -/
def wakeCommand (s : State) : Nat × State := if s.dev.st = .sleep then (OK, wakeState s) else (BUSY, s)

/-! ## STANDBY and PROOF -/

/-- STANDBY: from READY, SLEEP or PROOFING (Table 16.4). -/
def standbyCommand (s : State) : Nat × State :=
  match s.dev.st with
  | .ready | .sleep | .proofing => (OK, refreshAlert (enterStandby s))
  | _ => (BUSY, s)

/-- Main power may rise on a command: PWR_EN is asserted and nothing holds it back (R387, R389, R401, R449). -/
def State.powerAllowed (s : State) : Bool :=
  s.pins.pwrEn && !s.pins.latch && !s.pins.earlyPwrEn && !s.pins.thermTrip && !s.pins.interlockOpen

/-- PROOF: from STANDBY with PWR_EN asserted; in READY with no live job, and after a failed proofing, main power goes
down first (R369, R370, R404). -/
def proofCommand (s : State) : Nat × State :=
  match s.dev.st with
  | .standby => if s.powerAllowed then (OK, beginProofing s) else (BUSY, s)
  | .ready => if s.job.st.live then (BUSY, s) else (OK, beginProofing (dropJob (railsDown s)))
  | .proofing => if s.dev.proofFailed then (OK, beginProofing (dropJob (railsDown s))) else (BUSY, s)
  | _ => (BUSY, s)

/-- A power-state command by its code. -/
def powerCommand (v : Nat) (s : State) : Nat × State :=
  match v with
  | 1 => sleepCommand s
  | 2 => wakeCommand s
  | 3 => standbyCommand s
  | 4 => proofCommand s
  | _ => (TYPE_MISMATCH, s)

end Sys2Proof.Machine
end

