-- ==== Sys2Proof/Machine/SelfTest.lean ====
section
/-! DEFINITION. Self-test after proofing: the command of 0x7000 and BIST slices (R379, R412 to R417). A unit of a slice
is a logical core by its single number, 0x4000 + leaven cell, or 0x8000 + physical core 100 h + p. -/

namespace Sys2Proof.Machine

/-! ## The command (R379) -/

/-- Hearth of a unit. -/
def unitHearth (u : Nat) : Nat :=
  if 0x8000 ≤ u then (u - 0x8000) / 100 else if 0x4000 ≤ u then (u - 0x4000) / 16 else u / 96

/-- Slices 0 to 14 of a unit. -/
def coreSlices (u : Nat) : List (Nat × Nat) := (List.range 15).map fun k => (u, k)

/-- R412: the slices a target receives. -/
def State.targetSlices (s : State) (target : Nat) : List (Nat × Nat) :=
  if target = 0xFFFF then
    (List.range 400).flatMap (fun p => coreSlices (0x8000 + p))
      ++ ((List.range 64).filter fun c => !s.dev.badCells.contains c).map fun c => (0x4000 + c, 0)
  else coreSlices target

/-- Hearths with a core among the slices of a command (R413). -/
def sliceHearths (l : List (Nat × Nat)) : List Nat :=
  ((l.filter fun x => decide (x.1 < 0x4000 ∨ 0x8000 ≤ x.1)).map fun x => unitHearth x.1).eraseDups

/-- Reserve the save area of some hearths (R413): its dirty lines are written back, and the pantry caches nothing in it. -/
def reserveSave (hs : List Nat) (s : State) : State :=
  let m := s.mm.flush fun k e => hs.contains (k / 49152) && s.mm.saveWay (k / 49152) (k % 49152) == some e.1
  { s with mm := { m with saving := hs } }

/-- A target is a core marked unavailable. -/
def State.targetGone (s : State) (target : Nat) : Bool := decide (target < 0x180) && !s.coreUp target

/-- The WRITE of a self-test command: mode 1 queued, 2 immediate. -/
def selfTestCommand (mode target : Nat) (s : State) : Nat × State :=
  if s.dev.st != .ready && s.dev.st != .active then (NOT_READY, s)
  else if mode = 2 && s.job.st.live then (BUSY, s)
  else if s.dev.test.state = 1 || s.dev.test.state = 2 then (BUSY, s)
  else if s.targetGone target then (TYPE_MISMATCH, s)
  else
    let l := s.targetSlices target
    let s := { s with dev := { s.dev with
      test := { state := if s.job.st.live then 1 else 2, target := target, slices := l, running := false } } }
    (OK, reserveSave (sliceHearths l) s)

/-! ## Slices -/

/-- Physical core of a unit, none for a cell and for a logical core that is gone. -/
def State.slicePhys (s : State) (u : Nat) : Option Nat :=
  if 0x8000 ≤ u then some (u - 0x8000)
  else if 0x4000 ≤ u then none
  else let p := s.dev.map.getD u 0xFF; if p = 0xFF then none else some (100 * (u / 96) + p)

/-- Table 18.4: KiB saved and test beats. -/
def sliceKib (u k : Nat) : Nat :=
  if 0x4000 ≤ u ∧ u < 0x8000 then 0 else if k = 0 then 0 else if k ≤ 12 then 512 else if k = 13 then 256 else 128
def sliceBeats (u k : Nat) : Nat :=
  if 0x4000 ≤ u ∧ u < 0x8000 then 753664 else if k = 0 then 524288 else if k ≤ 13 then 88064 else 44032

/-- Longest duration of a slice in µs: save, test and restore at the hearth's present beat rate (R412). -/
def State.sliceUs (s : State) (u k : Nat) : Nat :=
  let h := unitHearth u
  cdiv ((sliceBeats u k + 8 * sliceKib u k) * 1000) (max 1 (beatRate (s.gov.vcore.getD h 550) (s.gov.tj.getD h 0)))

/-- The group a logical core belongs to. -/
def State.groupIdxOf (s : State) (n : Nat) : Option Nat :=
  (List.range s.groupList.length).find? fun g => (s.groupOf g).cores.contains n

/-- Time a core slice has at the present moment of a job that steps, none when its core may not be taken (R415). A core
of no group, or a spare, has no bound outside orders 5 and 6. -/
def State.coreTime (s : State) (phys : Nat) : Option (Option Nat) :=
  if s.order7 then some (some (s.bnd.orderStart + s.params.boundaryBudget - s.localUs))
  else if s.bnd.order = 5 ∨ s.bnd.order = 6 then none
  else match (s.logicalOf phys).bind s.groupIdxOf with
    | none => some none
    | some g => (s.bubble g).map fun b => some ((s.group g).slotStart + b.estUs - s.localUs)

/-- Time a cell slice has: at a bubble of the hearth or at order 7, with the cell free and no problem waiting for it. -/
def State.cellTime (s : State) (cell : Nat) : Option (Option Nat) :=
  let h := cell / 16
  let used := s.probIdx.any fun (p, i) => p.job.hearth = h && (s.run i).cell == some (cell % 16)
  if used || (s.firstRoot h false).isSome || !s.admitPoint h then none else some (some (s.timeLeft h))

/-- Table 18.5, order 1: the core of a unit has no admitted stream (R124). -/
def State.coreFree (s : State) (u : Nat) : Bool :=
  match (s.slicePhys u).bind s.logicalOf with
  | some n => (s.core n).ctx.isEmpty
  | none => true

/-- R415: is the slice admitted now? -/
def State.sliceMay (s : State) (u k : Nat) : Bool :=
  if !s.coreFree u then false
  else if !s.job.st.stepping then s.job.st != .paused || s.bnd.order = 0 else
  let h := unitHearth u
  let room := if 0x4000 ≤ u ∧ u < 0x8000 then s.cellTime (u - 0x4000)
    else match s.slicePhys u with | some p => s.coreTime p | none => some none
  s.eff.elective && decide (((scaleEst s h 5100 : Nat) : Int) ≤ headroom s (some h))
    && (match room with
      | none => false
      | some none => true
      | some (some t) => decide (s.sliceUs u k ≤ t))

/-- The command ends, 3 PASSED or 4 FAILED, and the save areas are free again. -/
def endTest (st : Nat) (s : State) : State :=
  { s with
    mm := { s.mm with saving := [] }
    dev := { s.dev with
      test := { s.dev.test with state := st, slices := [], running := false }
      reason := if st = 4 then s.dev.test.target else s.dev.reason } }

/-- A slice is over: the count falls by one, and the last one ends the command PASSED. -/
def sliceDone (s : State) : State :=
  let r := s.dev.test.slices.drop 1
  let s := bump 0x7200 0x0B 1 64 s
  let s := { s with dev := { s.dev with test := { s.dev.test with state := 2, slices := r, running := true } } }
  if r.isEmpty then endTest 3 s else s

/-- R416: a slice fails. A core is fenced, or stays so; a cell leaves service. -/
def sliceFailed (u k : Nat) (r : BistResult) (s : State) : State :=
  let s := bump 0x7200 0x0B 1 64 (endTest 4 s)
  if 0x4000 ≤ u ∧ u < 0x8000 then
    let s := cellOut (u - 0x4000) s
    logAdd 0x0702 2 (unitHearth u) (u - 0x4000) 0xFFFF
      ([0x10 + (u - 0x4000), 0] ++ w64 (Config.goldenSignature (u - 0x4000)).toNat ++ w64 r.obtained.toNat) s
  else match s.slicePhys u with
    | some p => fenceCore p k s
    | none => s

/-- The sets of one of the eight regions of a hearth's save area, 4,096 lines each (R413). -/
def MemSt.saveRegion (m : MemSt) (h r : Nat) : List Nat :=
  (((List.range 49152).filter fun set => (m.saveWay h set).isSome).drop (4096 * r)).take 4096

/-- An uncorrectable save line at order 5 (Table 18.6). Which line of the core's region it is stands open; the region is the
first, as slices run one after another here (DESIGN CHOICE, notes/assumptions/70). The descriptor words of slice 14 are
written again from the recipe. -/
def saveLost (u k : Nat) (s : State) : State :=
  let (f, s) := takeFree s
  let h := unitHearth u
  let set := (s.mm.saveRegion h 0).getD ((Config.freeWord f).toNat % 4096) 0
  let s := logAdd ECC_UNCORRECTABLE 3 h 0 0xFFFF [6, set] (bump 0x7200 5 1 64 s)
  if k = 14 then
    match (s.slicePhys u).bind s.logicalOf with
    | some n => setCore n { s.core n with descMem := s.recipeMem n } s
    | none => s
  else if s.inStep then abortOwn STEP_REPEAT_FAULT [ECC_UNCORRECTABLE] s else s

/-- The events of Table 18.5 for an admitted slice. A core slice runs on with local memories intact: the save and restore
leave the tested region as it was. -/
def runSlice (u k : Nat) (r : BistResult) (s : State) : State :=
  let s := { s with localUs := s.localUs + s.sliceUs u k }
  if !r.pass then sliceFailed u k r s
  else sliceDone (if r.saveBad && sliceKib u k != 0 then saveLost u k s else s)

/-- BIST_SLICE: the next slice of the command, when it is admitted. A slice of a logical core that is gone passes over. -/
def bistSliceState (r : BistResult) (s : State) : State :=
  if (s.dev.st != .ready && s.dev.st != .active) || (s.dev.test.state != 1 && s.dev.test.state != 2) then s else
  match s.dev.test.slices with
  | [] => s
  | (u, k) :: _ => if s.sliceMay u k then runSlice u k r s else s

end Sys2Proof.Machine
end

