-- ==== Sys2Proof/Machine/Edp.lean ====
section
/-! DEFINITION. The Ebsen Dictionary Protocol: how a message is received, what reads and writes answer, blocks,
subscriptions, events, relay and timers (chapter 15). -/

namespace Sys2Proof.Machine

/-- What an accepted request gives: its acknowledgment, the state, and the sessions that close after the ACK. -/
abbrev Served := Ack × State × List (BitVec 32)

/-- An acknowledgment that only carries a status. -/
def answer (status idx sub ty : Nat) (s : State) : Served := (⟨status, idx, sub, ty, 0, []⟩, s, [])

/-! ## Messages (R342, R344, R345) -/

/-- Largest `BODY_LEN` of a transport (Table 15.1). -/
def bodyLimit : Transport → Nat
  | .t1s => 1280
  | .host _ => 8192
  | .relay _ => 3968

/-- Body bytes of a message (Table 15.3). -/
def bodySize : EdpBody → Nat
  | .read _ _ => 4
  | .write _ _ _ val => 4 + val.length
  | .readBlock _ _ _ _ => 12
  | .writeBlock _ _ _ _ _ _ data => 12 + data.length
  | .subscribe _ _ => 4
  | .ack _ => 0

/-- `MSG_TYPE` of a body. -/
def bodyType : EdpBody → Nat
  | .read _ _ => 1 | .write _ _ _ _ => 2 | .readBlock _ _ _ _ => 3 | .writeBlock _ _ _ _ _ _ _ => 4
  | .subscribe _ _ => 5 | .ack _ => 7

/-- The body's bytes, little-endian (R344). -/
def bodyBytes : EdpBody → Bytes
  | .read i k => leBytes 2 i ++ leBytes 1 k ++ [0]
  | .write i k t v => leBytes 2 i ++ leBytes 1 k ++ leBytes 1 t ++ v
  | .readBlock i k o n => leBytes 2 i ++ leBytes 1 k ++ [0] ++ leBytes 4 o ++ leBytes 4 n
  | .writeBlock i k t o n _ d => leBytes 2 i ++ leBytes 1 k ++ leBytes 1 t ++ leBytes 4 o ++ leBytes 4 n ++ d
  | .subscribe k c => leBytes 2 k.toNat ++ leBytes 2 c.toNat
  | .ack _ => []

/-- The 24-byte header, big-endian (Table 15.2). -/
def hdrBytes (h : EdpHdr) (b : EdpBody) : Bytes :=
  let final := match b with | .writeBlock _ _ _ _ _ f _ => f.toNat | _ => 0
  let ackSeq := match b with | .ack n => n | _ => 0
  (leBytes 4 (h.magic.toNat * 2 ^ 16 + h.version.toNat * 2 ^ 8 + bodyType b)).reverse ++ (leBytes 4 h.session.toNat).reverse
    ++ (leBytes 4 h.seq).reverse ++ (leBytes 4 (h.target * 2 ^ 16 + h.reserved.toNat * 2 + final)).reverse
    ++ (leBytes 4 (h.bodyLen * 2 ^ 16)).reverse ++ (leBytes 4 ackSeq).reverse

/-- R344: the message is not discarded as malformed. `size`: the bytes of its body. A body above the transport's limit
counts as malformed (DEDUCED, notes/assumptions/33). -/
def msgOk (h : EdpHdr) (size : Nat) : Bool :=
  h.magic == 0x4544 && h.version == 1 && h.reserved == 0 && h.bodyLen == size && decide (size ≤ bodyLimit h.transport)
    && h.datagramLen == 24 + size + (if h.session = 0 then 0 else 48)

/-- Table 15.1: a transport on which the device answers in its present state. -/
def State.reaches (s : State) (t : Transport) : Bool :=
  match t with
  | .t1s => true
  | .host p => s.dev.hostUp.getD p false && (s.dev.st == .ready || s.dev.st == .active || s.dev.st == .proofing)
  | .relay _ => s.dev.mainUp

/-- The request is for another device (R343). -/
def State.elsewhere (s : State) (h : EdpHdr) : Bool := h.target != 0xFFFF && h.target != s.devId

/-! ## Relay (R343) -/

/-- Count a malformed or badly tagged message, a replay. -/
def countBad (s : State) : State := bump 0x1100 6 1 64 s
def countReplay (s : State) : State := bump 0x1100 7 1 64 s

/-- A usable path to a device (R299). -/
def State.pathTo (s : State) (dev : Nat) : Bool :=
  s.dev.mainUp && s.fabId != 0xFFFF && decide (dev < 4096)
    && (match s.nextHop (vl0Packet s dev 4 []) [0, 1, 2] true none with | .go _ _ => true | _ => false)

/-- Forward a message to its target and keep where it came from. -/
def relayOut (h : EdpHdr) (body : EdpBody) (s : State) : State :=
  if s.pathTo h.target then
    let s := bump 0x1100 8 1 64 s
    let others := s.edp.relays.filter fun r => !(r.1 == h.target && r.2.1 == h.session && r.2.2.1 == h.seq)
    let s := { s with edp := { s.edp with relays := others ++ [(h.target, h.session, h.seq, h.transport, h.peer)] } }
    send (.relay h.target h body) (injectPacket (vl0Packet s h.target 4 (hdrBytes h body ++ bodyBytes body)) s)
  else bump 0x1100 9 1 64 s

/-! ## Receiving a message -/

/-- What the checks before a request make of a message: it is over, it stands in session 0, or in a live session. -/
inductive Admitted where
  | over (s : State)
  | zero (s : State)
  | inSession (x : Session) (s : State)
  deriving DecidableEq, Repr

/-- R342 to R344, R350, R351: transport, layout, target, session and tag. -/
def receive (h : EdpHdr) (body : EdpBody) (size : Nat) (s : State) : Admitted :=
  if !s.reaches h.transport then .over s
  else if !msgOk h size then .over (countBad s)
  else if s.elsewhere h then .over (relayOut h body s)
  else if h.session = 0 then .zero s
  else match s.session h.session with
    | none => .over (countBad s)
    | some x =>
      if h.tagOk then .inSession { x with tagged := true } (setSession { x with tagged := true } s)
      else .over (countBad s)

/-- R346: a sequence number the session has not accepted, above or within 64 below the highest. -/
def seqOk (x : Session) (n : Nat) : Bool :=
  decide (1 ≤ n) && (decide (x.rxHi < n) || (decide (x.rxHi ≤ n + 64) && !x.rxSeen.contains n))

/-- The session after accepting a sequence number. -/
def acceptSeq (x : Session) (n : Nat) (now : Nat) : Session :=
  let hi := max x.rxHi n
  { x with rxHi := hi, rxSeen := (n :: x.rxSeen).filter fun k => decide (hi ≤ k + 64), lastRx := now }

/-- R431: the last sequence number closes the session. -/
def lastSeq (h : EdpHdr) (s : State) : State := if h.seq = 0xFFFFFFFF then closeSession h.session s else s

/-- An acknowledgment as a message: the header of Table 15.2 and the body of Table 15.3, without its tag. -/
def ackBytes (h : EdpHdr) (a : Ack) : Bytes :=
  (leBytes 4 (0x4544 * 2 ^ 16 + 2 ^ 8 + 7)).reverse ++ (leBytes 4 h.session.toNat).reverse ++ (leBytes 4 h.seq).reverse
    ++ (leBytes 4 (h.target * 2 ^ 16)).reverse ++ (leBytes 4 ((12 + a.data.length) * 2 ^ 16 + a.status)).reverse
    ++ (leBytes 4 h.seq).reverse ++ leBytes 2 a.idx ++ leBytes 1 a.sub ++ leBytes 1 a.ty ++ leBytes 8 a.aux ++ a.data

/-- Send an acknowledgment; to a device that relayed the request it goes on VL0 (R343). -/
def sendAck (h : EdpHdr) (a : Ack) (s : State) : State :=
  let s := match h.transport with
    | .relay dev => injectPacket (vl0Packet s dev 4 (ackBytes h a)) s
    | _ => s
  send (.ack h.transport h.peer h.session h.seq a) s

/-- Keep the ACK of the last 64 requests (R347). -/
def cacheAck (h : EdpHdr) (body : EdpBody) (a : Ack) (s : State) : State :=
  match s.session h.session with
  | none => s
  | some x => setSession { x with cache := ringPush 64 x.cache (h.seq, body, a) } s

/-- The hold of an entry. -/
def State.hold? (s : State) (idx sub : Nat) : Option Hold := s.edp.holds.find? fun d => d.idx == idx && d.sub == sub

/-- Pages of a staging whose hold is gone return. -/
def returnPages (s : State) : State :=
  if (s.hold? 0x5010 1).isSome then s else { s with mm := { s.mm with holdPages := [] } }

/-- What follows a request: the ACK is kept and sent, sessions close, pages of a staging that is gone return. -/
def finishRequest (h : EdpHdr) (body : EdpBody) (r : Served) : State :=
  returnPages (lastSeq h (r.2.2.foldl (fun s i => closeSession i s) (sendAck h r.1 (cacheAck h body r.1 r.2.1))))

/-- The session as an accepted message leaves it (R346, R350). -/
def acceptedSession (h : EdpHdr) (x : Session) (s : State) : Session := acceptSeq { x with tagged := true } h.seq s.localUs

/-- R346, R347: a request in a live session. -/
def serveIn (h : EdpHdr) (body : EdpBody) (act : Option Session → State → Served) (x : Session) (s : State) : State :=
  match x.cache.find? fun c => c.1 == h.seq with
  | some (_, b, a) => if b = body then sendAck h a s else countReplay s
  | none =>
    if !seqOk x h.seq then countReplay s else
    let y := acceptedSession h x s
    finishRequest h body (act (some y) (setSession y s))

/-- R349: requests answered in session 0. -/
def zeroOk (body : EdpBody) : Bool :=
  match body with
  | .read idx sub => idx == 0x1000 || (idx == 0x1100 && sub == 0x0B)
  | .writeBlock idx sub _ off total final data =>
    idx == 0x1100 && sub == 0x10 && final && off == 0 && total == data.length
  | _ => false

/-- Entry and subindex a body names. -/
def bodyEntry : EdpBody → Nat × Nat
  | .read i k => (i, k) | .write i k _ _ => (i, k) | .readBlock i k _ _ => (i, k) | .writeBlock i k _ _ _ _ _ => (i, k)
  | .subscribe _ _ => (0, 0) | .ack _ => (0, 0)

/-- The answer ACCESS_DENIED to a body. -/
def denied (body : EdpBody) (s : State) : Served := answer ACCESS_DENIED (bodyEntry body).1 (bodyEntry body).2 0 s

/-- R420: the boot ROM answers reads of identity in session 0 on T1S, and denies the rest. -/
def bootServe (h : EdpHdr) (body : EdpBody) (size : Nat) (act : Option Session → State → Served) (s : State) : State :=
  if s.dev.st = .standby && s.dev.bootFailed && !s.pins.resetAsserted && h.transport == .t1s && msgOk h size
      && h.session == 0 && !s.elsewhere h then
    let ok := match body with
      | .read idx sub => idx == 0x1000 || idx == 0x1008 || (idx == 0x1100 && sub == 0x0B)
      | _ => false
    let (a, s, _) := if ok then act none s else denied body s
    sendAck h a s
  else s

/-- One request, from its arrival to its ACK. -/
def serveSized (h : EdpHdr) (body : EdpBody) (size : Nat) (act : Option Session → State → Served) (s : State) : State :=
  if !s.stewardUp then bootServe h body size act s else
  match receive h body size s with
  | .over s => s
  | .zero s =>
    let (a, s, _) := if zeroOk body then act none s else denied body s
    sendAck h a s
  | .inSession x s => serveIn h body act x s

def serve (h : EdpHdr) (body : EdpBody) (act : Option Session → State → Served) (s : State) : State :=
  serveSized h body (bodySize body) act s

/-! ## Reads (R352, R354, R357, R366, R381) -/

/-- The value is longer than a READ on this transport can carry. -/
def tooLong (lim : Nat) (e : Entry) (v : Bytes) : Bool := (e.ty == tSTR || e.ty == tOCTETS) && decide (lim - 12 < v.length)

/-- An entry's own rule for reading: OK, or NOT_READY. -/
def readRule (s : State) (x : Option Session) (idx sub : Nat) (e : Entry) : Nat :=
  if s.dev.st = .standby && !standbyReads idx e then NOT_READY
  else if 0x5400 ≤ idx ∧ idx < 0x5440 ∧ sub = 3 ∧ (s.slot (idx - 0x5400)).state ≠ 1 then NOT_READY
  else if idx = 0x8010 ∧ sub = 2 ∧ ((x.bind (·.report)).isNone) then NOT_READY
  else OK

/-- `AUX` of a READ: the sequence number of a result slot's value (R357). -/
def readAux (s : State) (idx sub : Nat) : Nat :=
  if 0x5400 ≤ idx ∧ idx < 0x5440 ∧ sub = 3 then (s.slot (idx - 0x5400)).seq else 0

/-- READ. -/
def readAct (idx sub lim : Nat) (x : Option Session) (s : State) : Served :=
  match entryOf idx sub with
  | none => answer ACCESS_DENIED idx sub 0 s
  | some e =>
    if e.acc = .wo then answer ACCESS_DENIED idx sub 0 s
    else if tooLong lim e (entryValue s x idx sub) then answer TYPE_MISMATCH idx sub e.ty s
    else if readRule s x idx sub e = OK then
      (⟨OK, idx, sub, e.ty, readAux s idx sub, entryValue s x idx sub⟩, s, [])
    else (⟨NOT_READY, idx, sub, e.ty, readAux s idx sub, []⟩, s, [])

/-- READ_BLOCK. -/
def readBlockAct (idx sub off len lim : Nat) (x : Option Session) (s : State) : Served :=
  match entryOf idx sub with
  | none => answer ACCESS_DENIED idx sub 0 s
  | some e =>
    if e.acc = .wo then answer ACCESS_DENIED idx sub 0 s
    else if len = 0 || decide (lim - 16 < len) then answer TYPE_MISMATCH idx sub e.ty s
    else if readRule s x idx sub e = OK then
      let v := entryValue s x idx sub
      (⟨OK, idx, sub, e.ty, v.length * 2 ^ 32 + entryVersion s x idx sub, (v.drop off).take len⟩, s, [])
    else (⟨NOT_READY, idx, sub, e.ty, readAux s idx sub, []⟩, s, [])

/-! ## Writes (R351 to R354) -/

/-- An entry is held by another session (R353). -/
def State.heldElse (s : State) (x : Session) (idx sub : Nat) : Bool :=
  s.edp.holds.any fun d => d.idx == idx && d.sub == sub && d.sid != x.sid

/-- Existence, right and class of a write: OK or the code of the first that fails. -/
def writeClass (s : State) (x : Session) (idx sub : Nat) : Nat :=
  match entryOf idx sub with
  | none => ACCESS_DENIED
  | some e =>
    if x.right = 0 then ACCESS_DENIED
    else match e.acc with
      | .ro | .const_ => ACCESS_DENIED
      | .rws => if s.dev.st = .standby then OK else BUSY
      | .rw => OK
      | .wo => if idx = 0x1100 ∧ sub = 0x10 then ACCESS_DENIED else OK

/-- Type code of an entry. -/
def entryTy (idx sub : Nat) : Nat := ((entryOf idx sub).map (·.ty)).getD 0

/-- Type, form and range of a whole value. -/
def valueOk (idx sub ty : Nat) (val : Bytes) : Bool :=
  ty == entryTy idx sub && formOk ty val && rangeOk idx sub val

/-- A WRITE by its entry's effect: the checks of R354 in order, then the effect. -/
def writeWith (idx sub ty : Nat) (val : Bytes) (eff : Session → State → Nat × State × List (BitVec 32))
    (x : Option Session) (s : State) : Served :=
  match x with
  | none => answer ACCESS_DENIED idx sub ty s
  | some x =>
    let c := writeClass s x idx sub
    if c ≠ OK then answer c idx sub ty s
    else if !valueOk idx sub ty val then answer TYPE_MISMATCH idx sub ty s
    else if s.heldElse x idx sub then answer BUSY idx sub ty s
    else if ownRule s idx sub val ≠ OK then answer (ownRule s idx sub val) idx sub ty s
    else
      let (st, s, cl) := eff x s
      (⟨st, idx, sub, ty, 0, []⟩, s, cl)

/-- An effect that closes no session. -/
def noClose (r : Nat × State) : Nat × State × List (BitVec 32) := (r.1, r.2, [])

/-! ## Effects of entries -/

/-- R358: a write of sequence number q to the consume entry of slot k. -/
def consumeSlot (k q : Nat) (s : State) : Nat × State :=
  let x := s.slot k
  if x.state = 0 then (NOT_READY, s)
  else if q != x.seq then (BUSY, s)
  else (OK, { s with results := tset s.results k { x with state := 2 } })

/-- R382: clear the log ring (1) or the fault log (2). -/
def clearLog (v : Nat) (s : State) : State :=
  if v = 1 then { s with log := { s.log with ring := [] } } else { s with log := { s.log with fault := [] } }

/-- R430: the report over a nonce stands for the session. -/
def takeNonce (x : Session) (nonce : Bytes) (s : State) : State :=
  match s.session x.sid with
  | some y => setSession { y with report := some (report s nonce) } s
  | none => s

/-- RECONFIGURE (R306): ports retrain where the fabric is powered; elsewhere what was written takes effect at proofing. -/
def reconfigureCommand (s : State) : Nat × State := (OK, if s.dev.st = .ready then reconfigureState s else s)

/-- R308: a lane mask is stored, and the port retrains from order 2 of Table 12.5, one that is down too. -/
def laneMaskState (p : Nat) (val : Bytes) (s : State) : State :=
  let s := storeEntry (0x3100 + p) 7 val s
  let x := s.port p
  if x.state = 1 && s.dev.mainUp && s.dev.st != .sleep then send (.retrain p) (setPort p { x with state := 2 } s) else laneFailureState p s

/-- A job command that needs nothing beside its code (Table 16.5). START comes as a command of its own. -/
def jobCommand (v : Nat) (s : State) : Nat × State :=
  match v with
  | 1 => loadCommand s
  | 3 => pauseCommand s
  | 4 => resumeCommand s
  | 5 => stopCommand s
  | 6 => abortStepCommand s
  | 7 => checkpointCommand s
  | _ => (BUSY, s)

/-- The effect of a written value on any entry but those of START, statements, hellos and staging. -/
def entryEffect (idx sub : Nat) (val : Bytes) (x : Session) (s : State) : Nat × State × List (BitVec 32) :=
  let v := ofLe val
  if idx = 0x1100 ∧ sub = 0x12 then (OK, s, [BitVec.ofNat 32 v])
  else if idx = 0x2200 ∧ sub = 1 then noClose (powerCommand v s)
  else if idx = 0x3000 ∧ sub = 8 then noClose (reconfigureCommand s)
  else if 0x3100 ≤ idx ∧ idx < 0x3130 ∧ sub = 7 then (OK, laneMaskState (idx - 0x3100) val s, [])
  else if idx = 0x5001 ∧ sub = 1 then noClose (jobCommand v s)
  else if idx = 0x7000 then noClose (selfTestCommand (v / 2 ^ 16) (v % 2 ^ 16) s)
  else if 0x5400 ≤ idx ∧ idx < 0x5440 ∧ sub = 4 then noClose (consumeSlot (idx - 0x5400) v s)
  else if idx = 0x8010 ∧ sub = 1 then (OK, takeNonce x val s, [])
  else if idx = 0xA000 ∧ sub = 7 then (OK, clearLog v s, [])
  else (OK, storeEntry idx sub val s, [])

/-- WRITE of an entry. -/
def writeAct (idx sub ty : Nat) (val : Bytes) : Option Session → State → Served :=
  writeWith idx sub ty val (entryEffect idx sub val)

/-! ## Blocks (R353) -/

/-- Bytes a hold has received. -/
def Hold.got (d : Hold) : Nat := (d.chunks.map fun c => c.2.length).foldl (· + ·) 0

/-- A chunk overlaps bytes already received. -/
def Hold.overlaps (d : Hold) (off n : Nat) : Bool :=
  d.chunks.any fun c => decide (off < c.1 + c.2.length) && decide (c.1 < off + n)

/-- The value a complete hold has built. -/
def Hold.value (d : Hold) : Bytes :=
  ((d.chunks.filter fun c => !c.2.isEmpty).mergeSort fun a b => decide (a.1 ≤ b.1)).flatMap (·.2)

/-- Replace, or release, the hold of an entry. -/
def putHold (d : Hold) (s : State) : State :=
  { s with edp := { s.edp with holds := d :: s.edp.holds.filter fun e => !(e.idx == d.idx && e.sub == d.sub) } }
def dropHold (idx sub : Nat) (s : State) : State :=
  { s with edp := { s.edp with holds := s.edp.holds.filter fun e => !(e.idx == idx && e.sub == sub) } }

/-- A chunk is added; the value is complete when `FINAL` has been seen and no byte is missing. -/
def addChunk (d : Hold) (off : Nat) (final : Bool) (data : Bytes)
    (finish : Bytes → State → Nat × State × List (BitVec 32)) (s : State) : Served :=
  let d := { d with chunks := d.chunks ++ [(off, data)], final := d.final || final, last := s.localUs }
  if d.final && d.got == d.total then
    let (st, s, cl) := finish d.value (dropHold d.idx d.sub s)
    (⟨st, d.idx, d.sub, d.ty, 0, []⟩, s, cl)
  else answer OK d.idx d.sub d.ty (putHold d s)

/-- One chunk of a WRITE_BLOCK. `first`: what the entry's rule says when a hold begins; `finish`: what completing does. -/
def chunkAct (idx sub ty off total : Nat) (final : Bool) (data : Bytes) (first : State → Nat × State)
    (finish : Session → Bytes → State → Nat × State × List (BitVec 32)) (x : Option Session) (s : State) : Served :=
  match x with
  | none => answer ACCESS_DENIED idx sub ty s
  | some x =>
    let c := writeClass s x idx sub
    if c ≠ OK then answer c idx sub ty s
    else if ty ≠ entryTy idx sub || decide (total < off + data.length) then answer TYPE_MISMATCH idx sub ty s
    else if s.heldElse x idx sub then answer BUSY idx sub ty s
    else match s.hold? idx sub with
      | some d =>
        if ty ≠ d.ty || total ≠ d.total || d.overlaps off data.length then answer TYPE_MISMATCH idx sub ty s
        else addChunk d off final data (finish x) s
      | none =>
        match first s with
        | (0, s) => addChunk ⟨idx, sub, x.sid, ty, total, [], false, s.localUs⟩ off final data (finish x) s
        | (st, s) => answer st idx sub ty s

/-- Completing a block of an ordinary entry: form, range, own rule, effect. -/
def finishBlock (idx sub ty : Nat) (x : Session) (val : Bytes) (s : State) : Nat × State × List (BitVec 32) :=
  if !valueOk idx sub ty val then (TYPE_MISMATCH, s, [])
  else if ownRule s idx sub val ≠ OK then (ownRule s idx sub val, s, [])
  else entryEffect idx sub val x s

/-- WRITE_BLOCK of an ordinary entry. -/
def writeBlockAct (idx sub ty off total : Nat) (final : Bool) (data : Bytes) : Option Session → State → Served :=
  chunkAct idx sub ty off total final data (fun s => (OK, s)) (finishBlock idx sub ty)

/-- R310: a staging takes `need` pages, the lowest of which stays above the tables and every other page in use. -/
def stagingPages (need : Nat) (s : State) : Nat × State :=
  let pgs := s.pagesFor need
  let low := pgs.foldl min s.topPage
  if pgs.length < need || low < 128 || (s.mm.pages.any fun p => decide (low ≤ p.2.ppn))
      || (s.mm.lost.any fun p => decide (low ≤ p.2)) then (BUDGET_EXCEEDED, s)
  else (OK, { s with mm := { s.mm with holdPages := pgs } })

/-- R310: a staging takes its pages when its first chunk arrives; with main memory down up to 64 MiB are held. -/
def stagingFirst (total : Nat) (s : State) : Nat × State :=
  if s.mm.up then stagingPages (cdiv total pageSize) s
  else if 64 * 2 ^ 20 < total then (NOT_READY, s) else (OK, s)

/-- A completed staging replaces any earlier one. -/
def stagingDone (content : Container) (val : Bytes) (s : State) : Nat × State × List (BitVec 32) :=
  (OK, { s with
    recipe := { s.recipe with staged := some content, stagedBytes := val, stagedBad := false, same := false }
    mm := { s.mm with stagedPages := s.mm.holdPages, holdPages := [] } }, [])

/-- WRITE_BLOCK of 0x5010:01. -/
def stagingAct (off total : Nat) (final : Bool) (data : Bytes) (content : Container) : Option Session → State → Served :=
  chunkAct 0x5010 1 tOCTETS off total final data (stagingFirst total) (fun _ => stagingDone content)

/-! ## Subscriptions and events (R359 to R361) -/

/-- Set subscription k. -/
def putSub (k : Nat) (y : Subscription) (s : State) : State :=
  { s with edp := { s.edp with subs := tset s.edp.subs k y } }

/-- SUBSCRIBE. A new subscription takes the lowest free number; the queue of an old one stands. -/
def subscribeAct (h : EdpHdr) (kinds classes : BitVec 16) (x : Option Session) (s : State) : Served :=
  match x with
  | none => answer ACCESS_DENIED 0 0 0 s
  | some x =>
    let old := s.edp.subs.find? fun y => y.2.sid == x.sid
    if kinds = 0 ∧ classes = 0 then
      answer OK 0 0 0 { s with edp := { s.edp with subs := s.edp.subs.filter fun y => y.2.sid != x.sid } }
    else match old with
      | some (k, y) =>
        answer OK 0 0 0 (putSub k { y with kinds := kinds, classes := classes, transport := h.transport, peer := h.peer } s)
      | none =>
        match (List.range 32).find? fun k => !s.edp.subs.any fun y => y.1 == k with
        | none => answer BUSY 0 0 0 s
        | some k =>
          answer OK 0 0 0 (putSub k ⟨x.sid, kinds, classes, h.transport, h.peer, [], 0, 0⟩ s)

/-- An event of a session is acknowledged, which makes room for further ones. -/
def ackEvent (sid : BitVec 32) (n : Nat) (s : State) : State :=
  match s.edp.subs.find? fun y => y.2.sid == sid with
  | none => s
  | some (k, y) =>
    let y := { y with queue := y.queue.filter fun e => e.seq != some n }
    pump k 17 (putSub k y s)

/-- A driver's ACK takes a sequence number and gets no answer (R345, R346). -/
def serveAck (h : EdpHdr) (n : Nat) (s : State) : State :=
  if !s.stewardUp then s else
  match receive h (.ack n) 0 s with
  | .over s => s
  | .zero s => s
  | .inSession x s =>
    if x.cache.any (fun c => c.1 == h.seq) || !seqOk x h.seq then countReplay s
    else lastSeq h (ackEvent x.sid n (setSession (acceptSeq x h.seq s.localUs) s))

/-- Count carried by a kind 6 event. -/
def Event.tallied (e : Event) : Nat := ofLe (e.detail.take 4)

/-- After its tenth resend an event is dropped; a kind 6 event returns its count to the tally. -/
def dropEventAt (k : Nat) (y : Subscription) (e : Event) (s : State) : State :=
  let q := y.queue.filter fun f => f.seq != e.seq
  let y := if e.kind = 6 then { y with queue := q, tally := y.tally + e.tallied }
    else { y with queue := q, tally := y.tally + 1, dropped := y.dropped + 1 }
  let s := putSub k y s
  pump k 17 (if e.kind = 6 then s else bump 0x1100 0x0A 1 64 s)

/-- EVENT_RESEND_TIMER. -/
def resendState (k n : Nat) (s : State) : State :=
  match s.edp.subs.find? fun y => y.1 == k with
  | none => s
  | some (_, y) =>
    match y.queue.find? fun e => e.seq == some n with
    | none => s
    | some e =>
      if 10 ≤ e.resends then dropEventAt k y e s
      else
        let e' := { e with resends := e.resends + 1 }
        let y := { y with queue := y.queue.map fun f => if f.seq == some n then e' else f }
        send (.event y.transport y.peer y.sid n e') (putSub k y s)

/-! ## Any body -/

/-- What an ordinary body asks. -/
def bodyAct (h : EdpHdr) (body : EdpBody) : Option Session → State → Served :=
  match body with
  | .read i k => readAct i k (bodyLimit h.transport)
  | .write i k t v => writeAct i k t v
  | .readBlock i k o n => readBlockAct i k o n (bodyLimit h.transport)
  | .writeBlock i k t o n f d => writeBlockAct i k t o n f d
  | .subscribe k c => subscribeAct h k c
  | .ack _ => fun _ s => answer OK 0 0 0 s

/-- Serve a message of any body. -/
def serveBody (h : EdpHdr) (body : EdpBody) (s : State) : State :=
  match body with
  | .ack n => serveAck h n s
  | b => serve h b (bodyAct h b) s

/-- Entries whose writes carry more than their bytes say and come as commands of their own: START, the client hello,
statements, staging. -/
def ownCommand (body : EdpBody) : Bool :=
  match body with
  | .write idx sub _ val => (idx == 0x5001 && sub == 1 && val == [2]) || (idx == 0x8001 && stmtForm sub val)
  | .writeBlock idx sub _ off total fin data =>
    (idx == 0x5001 && sub == 1 && data == [2])
      || (idx == 0x8001 && (stmtForm sub data || !(off == 0 && fin && data.length == total)))
      || (idx == 0x5010 && sub == 1) || (idx == 0x1100 && sub == 0x10)
  | _ => false

/-- RELAY_PACKET: at its target a message is served; where its request was relayed, an ACK goes back to the driver (the
ACK's data are not in the command). -/
def relayPacketState (dev : Nat) (h : EdpHdr) (body : EdpBody) (s : State) : State :=
  match body, s.edp.relays.find? fun r => r.1 == dev && r.2.1 == h.session && decide (body = .ack r.2.2.1) with
  | .ack _, some (d, sid, n, tr, peer) =>
    send (.relayBack tr peer h body) { s with edp := { s.edp with relays := s.edp.relays.filter fun r => r != (d, sid, n, tr, peer) } }
  | b, _ => if ownCommand b then s else serveBody { h with transport := .relay dev } b s

/-! ## Hellos (R346, R349, R350) -/

/-- Remember an accepted hello, and forget those older than 10 s. -/
def keepHello (r : HelloRec) (s : State) : State :=
  { s with edp := { s.edp with hellos := r :: s.edp.hellos.filter fun q => decide (s.localUs ≤ q.at_ + 10000000) } }

/-- A hello in session 0: one that repeats an accepted hello within 10 s gets the same ACK. -/
def helloAct (h : EdpHdr) (hello : Hello) (x : Option Session) (s : State) : Served :=
  match x with
  | some _ => answer ACCESS_DENIED 0x1100 0x10 tOCTETS s
  | none =>
    let fits (r : HelloRec) : Bool := r.transport == h.transport && r.peer == h.peer && r.seq == h.seq && r.hello == hello
      && decide (s.localUs ≤ r.at_ + 10000000)
    match s.edp.hellos.find? fits with
    | some r => (r.ack, s, [])
    | none =>
      let (a, s) := answerHello h.transport h.peer hello s
      (a, if a.status = OK then keepHello ⟨h.transport, h.peer, h.seq, hello, a, s.localUs⟩ s else s, [])

/-- A statement written to 0x8001:`sub` (R380, R426). -/
def statementAct (sub : Nat) (st : Statement) (x : Option Session) (s : State) : Served :=
  match x with
  | none => answer ACCESS_DENIED 0x8001 sub tOCTETS s
  | some x =>
    let c := writeClass s x 0x8001 sub
    if c ≠ OK then answer c 0x8001 sub tOCTETS s
    else if s.heldElse x 0x8001 sub then answer BUSY 0x8001 sub tOCTETS s
    else
      let (code, s, cl) := takeStatement sub x.key st s
      (⟨code, 0x8001, sub, tOCTETS, 0, []⟩, s, cl)

/-- START, with what the storage shows (R336). -/
def startAct (inst : Install) : Option Session → State → Served :=
  writeWith 0x5001 1 tU8 [2] (fun _ s => noClose (startCommand inst s))

/-- A WRITE with an effect of its own. -/
def writeCommand (h : EdpHdr) (idx sub ty : Nat) (val : Bytes) (eff : Session → State → Nat × State × List (BitVec 32))
    (s : State) : State := serve h (.write idx sub ty val) (writeWith idx sub ty val eff) s

/-- The WRITE of a job command, a power-state command or another code that only needs the state. -/
def codeCommand (h : EdpHdr) (idx sub v : Nat) (f : State → Nat × State) (s : State) : State :=
  writeCommand h idx sub tU8 (leBytes 1 v) (fun _ s => noClose (f s)) s

/-- A statement of 320 bytes at 0x8001:01, or of 176 at :02 (R425). -/
def statementCommand (h : EdpHdr) (sub : Nat) (st : Statement) (s : State) : State :=
  serveSized h (.write 0x8001 sub tOCTETS (stmtBytes st)) (4 + (if sub = 1 then 320 else 176)) (statementAct sub st) s

/-- A message of any body that needs no more than it says; one for another device is relayed. -/
def ordinary (h : EdpHdr) (body : EdpBody) (s : State) : State :=
  if ownCommand body && !s.elsewhere h then s else serveBody h body s

/-! ## Timers -/

/-- SESSION_IDLE_TIMEOUT (R351). -/
def idleTimeoutState (sid : BitVec 32) (s : State) : State :=
  match s.session sid with
  | none => s
  | some x => returnPages (closeSession sid { s with localUs := max s.localUs (x.lastRx + 1000000 * s.regs.idleTime) })

/-- HELLO_TAG_TIMEOUT (R350). -/
def tagTimeoutState (sid : BitVec 32) (s : State) : State :=
  match s.session sid with
  | none => s
  | some x =>
    if x.tagged then s
    else returnPages (closeSession sid { s with localUs := max s.localUs (x.opened + 10000000) })

/-- WRITE_BLOCK_HOLD_TIMEOUT (R353). -/
def holdTimeoutState (idx sub : Nat) (s : State) : State :=
  match s.hold? idx sub with
  | none => s
  | some d => returnPages (dropHold idx sub { s with localUs := max s.localUs (d.last + 10000000) })

/-- RELAY_RECORD_EXPIRY (R343). -/
def relayExpiryState (target : Nat) (sid : BitVec 32) (n : Nat) (s : State) : State :=
  { s with edp := { s.edp with relays := s.edp.relays.filter fun r => !(r.1 == target && r.2.1 == sid && r.2.2.1 == n) } }

end Sys2Proof.Machine
end

