-- ==== Sys2Proof/Machine/EdpCmds.lean ====
section
/-! DEFINITION. Meanings of the dictionary protocol (chapter 15). -/

namespace Sys2Proof.Machine

/-- RECIPE_STAGING (R310, R353, R372). -/
def execRecipeStaging (h : EdpHdr) (off total : Nat) (final : Bool) (data : Bytes) (content : Container) (s : State) :
    Host.Outcome State Fault Refusal :=
  .next (serve h (.writeBlock 0x5010 1 tOCTETS off total final data) (stagingAct off total final data content) s)

/-- WRITE_ENTRY (R352, R354). -/
def execWriteEntry (h : EdpHdr) (idx sub ty : Nat) (val : Bytes) (s : State) : Host.Outcome State Fault Refusal :=
  .next (ordinary h (.write idx sub ty val) s)

/-- READ (R352, R354, R357, R366). -/
def execRead (h : EdpHdr) (idx sub : Nat) (s : State) : Host.Outcome State Fault Refusal :=
  .next (serve h (.read idx sub) (readAct idx sub (bodyLimit h.transport)) s)

/-- READ_BLOCK (R348, R352). -/
def execReadBlock (h : EdpHdr) (idx sub off len : Nat) (s : State) : Host.Outcome State Fault Refusal :=
  .next (serve h (.readBlock idx sub off len) (readBlockAct idx sub off len (bodyLimit h.transport)) s)

/-- WRITE_BLOCK (R353). -/
def execWriteBlock (h : EdpHdr) (idx sub ty off total : Nat) (final : Bool) (data : Bytes) (s : State) :
    Host.Outcome State Fault Refusal :=
  .next (ordinary h (.writeBlock idx sub ty off total final data) s)

/-- SUBSCRIBE (R359). -/
def execSubscribe (h : EdpHdr) (kinds classes : BitVec 16) (s : State) : Host.Outcome State Fault Refusal :=
  .next (serve h (.subscribe kinds classes) (subscribeAct h kinds classes) s)

/-- EVENT_ACK (R345, R361). -/
def execEventAck (h : EdpHdr) (ackSeq : Nat) (s : State) : Host.Outcome State Fault Refusal :=
  .next (serveAck h ackSeq s)

/-- EVENT_RESEND_TIMER (R361). -/
def execEventResendTimer (sub evSeq : Nat) (s : State) : Host.Outcome State Fault Refusal :=
  .next (resendState sub evSeq s)

/-- RELAY_REQUEST (R343). -/
def execRelayRequest (h : EdpHdr) (body : EdpBody) (s : State) : Host.Outcome State Fault Refusal :=
  .next (ordinary h body s)

/-- RELAY_PACKET (R343). -/
def execRelayPacket (dev : Nat) (h : EdpHdr) (body : EdpBody) (s : State) : Host.Outcome State Fault Refusal :=
  .next (relayPacketState dev h body s)

/-- RELAY_RECORD_EXPIRY (R343). -/
def execRelayRecordExpiry (target : Nat) (session : BitVec 32) (seq : Nat) (s : State) :
    Host.Outcome State Fault Refusal :=
  .next (relayExpiryState target session seq s)

/-- SESSION_IDLE_TIMEOUT (R351). -/
def execSessionIdleTimeout (sid : BitVec 32) (s : State) : Host.Outcome State Fault Refusal :=
  .next (idleTimeoutState sid s)

/-- HELLO_TAG_TIMEOUT (R350). -/
def execHelloTagTimeout (sid : BitVec 32) (s : State) : Host.Outcome State Fault Refusal :=
  .next (tagTimeoutState sid s)

/-- WRITE_BLOCK_HOLD_TIMEOUT (R353). -/
def execWriteBlockHoldTimeout (idx sub : Nat) (s : State) : Host.Outcome State Fault Refusal :=
  .next (holdTimeoutState idx sub s)

end Sys2Proof.Machine
end

