-- ==== Sys2Proof/Machine/FabricCmds.lean ====
section
/-! DEFINITION. Meanings of the fabric entries and of what happens on the ports (chapter 12). -/

namespace Sys2Proof.Machine

/-- RECONFIGURE (R306, R308). -/
def execReconfigure (h : EdpHdr) (s : State) : Host.Outcome State Fault Refusal :=
  .next (codeCommand h 0x3000 8 1 reconfigureCommand s)

/-- PORT_TRAIN_TIMEOUT (R306). -/
def execPortTrainTimeout (port : Nat) (s : State) : Host.Outcome State Fault Refusal := .next (trainTimeoutState port s)

/-- LANE_MASK_WRITE (R308). -/
def execLaneMaskWrite (h : EdpHdr) (port mask : Nat) (s : State) : Host.Outcome State Fault Refusal :=
  .next (writeCommand h (0x3100 + port) 7 tU8 (leBytes 1 mask) (fun _ s => (OK, laneMaskState port (leBytes 1 mask) s, [])) s)

/-- COORDINATE_WRITE (R286, R306). -/
def execCoordinateWrite (h : EdpHdr) (sub value : Nat) (s : State) : Host.Outcome State Fault Refusal :=
  .next (writeCommand h 0x3000 sub tU8 (leBytes 1 value) (fun _ s => (OK, storeEntry 0x3000 sub (leBytes 1 value) s, [])) s)

/-- SPARE_SUBSTITUTION (R305). -/
def execSpareSubstitution (h : EdpHdr) (port value : Nat) (s : State) : Host.Outcome State Fault Refusal :=
  .next (writeCommand h (0x3100 + port) 6 tU8 (leBytes 1 value) (fun _ s => (OK, storeEntry (0x3100 + port) 6 (leBytes 1 value) s, [])) s)

/-- LANE_FAILURE (R298). -/
def execLaneFailure (port : Nat) (s : State) : Host.Outcome State Fault Refusal := .next (laneFailureState port s)

/-- RETRAIN_COMPLETE (Table 12.5). -/
def execRetrainComplete (port lanes : Nat) (s : State) : Host.Outcome State Fault Refusal :=
  .next (retrainState port lanes s)

/-- PORT_DOWN (R299, R300). -/
def execPortDown (port : Nat) (s : State) : Host.Outcome State Fault Refusal := .next (portDownState port s)

/-- LINK_STATE_ANNOUNCEMENT (R301). -/
def execLinkStateAnnouncement (dev port : Nat) (up : Bool) (s : State) : Host.Outcome State Fault Refusal :=
  .next (linkStateState dev port up s)

/-- DOWN_PORT_RETRY (R301). -/
def execDownPortRetry (port : Nat) (ok : Bool) (s : State) : Host.Outcome State Fault Refusal :=
  .next (downRetryState port ok s)

/-- PACKET_FORWARD (R289 to R295, R297, R299, R302). -/
def execPacketForward (inPort : Option LinkIn) (p : Packet) (s : State) : Host.Outcome State Fault Refusal :=
  .next (forwardState inPort p s)

/-- LINK_REPLAY_REQUEST (R290). -/
def execLinkReplayRequest (port seqNo : Nat) (s : State) : Host.Outcome State Fault Refusal :=
  .next (replayState port seqNo s)

/-- HUSH (R296). -/
def execHush (port : Nat) (s : State) : Host.Outcome State Fault Refusal := .next (hushState port s)

/-- HUSH_LAPSE (R296). -/
def execHushLapse (port : Nat) (s : State) : Host.Outcome State Fault Refusal := .next (hushLapseState port s)

/-- OVERLONG_HUSH (R296). -/
def execOverlongHush (port : Nat) (s : State) : Host.Outcome State Fault Refusal := .next (overlongState port s)

/-- IDENTITY_EXCHANGE (R303). -/
def execIdentityExchange (port : Nat) (id : Identity) (s : State) : Host.Outcome State Fault Refusal :=
  .next (identityExchangeState port id s)

/-- LINK_ACKNOWLEDGMENT (R290). -/
def execLinkAcknowledgment (port seqNo : Nat) (s : State) : Host.Outcome State Fault Refusal :=
  .next (linkAckState port seqNo s)

/-- LINK_CREDIT_RETURN (R294). -/
def execLinkCreditReturn (port vl cls flits : Nat) (s : State) : Host.Outcome State Fault Refusal :=
  .next (creditState port vl cls flits s)

/-- HUSH_HOLD_END (R296). -/
def execHushHoldEnd (port : Nat) (s : State) : Host.Outcome State Fault Refusal := .next (hushHoldEndState port s)

end Sys2Proof.Machine
end

