-- ==== Sys2Proof/Machine/HostCmds.lean ====
section
/-! DEFINITION. Meanings of ingest, host ports and the inbox (chapters 7, 11 and 14). -/

namespace Sys2Proof.Machine

/-- INGEST_PACKING (R179, R330). -/
def execIngestPacking (s : State) : Host.Outcome State Fault Refusal := .next (ingestState s)

/-- NVME_READ_COMPLETE (R332). -/
def execNvmeReadComplete (cid status : Nat) (data : Bytes) (s : State) : Host.Outcome State Fault Refusal :=
  .next (readCompleteState cid status data s)

/-- NVME_READ_TIMEOUT (R333). -/
def execNvmeReadTimeout (cid status : Nat) (s : State) : Host.Outcome State Fault Refusal :=
  .next (readTimeoutState cid status s)

/-- NVME_KEEP_ALIVE (R327). -/
def execNvmeKeepAlive (tgt : Nat) (s : State) : Host.Outcome State Fault Refusal := .next (keepAliveState tgt s)

/-- INGEST_BOUND_EXPIRY (R333). -/
def execIngestBoundExpiry (late : Nat) (s : State) : Host.Outcome State Fault Refusal := .next (ingestBoundState late s)

/-- SPLIT_NOTICE (R282). -/
def execSplitNotice (src step : Nat) (samples : List SplitEntry) (s : State) : Host.Outcome State Fault Refusal :=
  .next (splitNoticeState src step samples s)

/-- HOST_PORT_LINK_LOSS (R325). -/
def execHostPortLinkLoss (port : Nat) (s : State) : Host.Outcome State Fault Refusal := .next (linkLossState port s)

/-- HOST_PORT_LINK_UP (R325). -/
def execHostPortLinkUp (port : Nat) (s : State) : Host.Outcome State Fault Refusal := .next (hostUpState port s)

/-- CONGESTION_NOTIFICATION (R326). -/
def execCongestionNotification (conn : Nat) (s : State) : Host.Outcome State Fault Refusal :=
  .next (congestionState conn s)

/-- ETHERNET_FRAME_RECEIVED (R323 to R326). -/
def execEthernetFrameReceived (f : Frame) (s : State) : Host.Outcome State Fault Refusal := .next (frameState f s)

/-- PFC_FRAME (R324). -/
def execPfcFrame (port prio : Nat) (quanta : Nat) (s : State) : Host.Outcome State Fault Refusal :=
  .next (pfcState port prio quanta s)

/-- RESPONSE_TIMEOUT (R340). -/
def execResponseTimeout (slot : Nat) (s : State) : Host.Outcome State Fault Refusal :=
  .next (responseLost slot 1000000 s)

/-- RESPONSE_WRITE_REJECTED (R340). -/
def execResponseWriteRejected (slot : Nat) (s : State) : Host.Outcome State Fault Refusal :=
  .next (responseLost slot 0 s)

/-- INBOX_CLIENT_CONNECT (R326, R337). -/
def execInboxClientConnect (addr : Nat) (s : State) : Host.Outcome State Fault Refusal :=
  .next (clientConnectState addr s)

end Sys2Proof.Machine
end

