-- ==== Sys2Proof/Machine/JobCmds.lean ====
section
/-! DEFINITION. Meanings of the job commands of 0x5001:01 (Table 16.6). -/

namespace Sys2Proof.Machine

/-- LOAD (R372, R429). -/
def execLoad (h : EdpHdr) (s : State) : Host.Outcome State Fault Refusal :=
  .next (codeCommand h 0x5001 1 1 loadCommand s)

/-- START (R227, R271, R336, R373, R406). -/
def execStart (h : EdpHdr) (inst : Install) (s : State) : Host.Outcome State Fault Refusal :=
  .next (serve h (.write 0x5001 1 tU8 [2]) (startAct inst) s)

/-- PAUSE (R33, R34, R373). -/
def execPause (h : EdpHdr) (s : State) : Host.Outcome State Fault Refusal :=
  .next (codeCommand h 0x5001 1 3 pauseCommand s)

/-- RESUME (R34, R373). -/
def execResume (h : EdpHdr) (s : State) : Host.Outcome State Fault Refusal :=
  .next (codeCommand h 0x5001 1 4 resumeCommand s)

/-- STOP (R33, R373). -/
def execStop (h : EdpHdr) (s : State) : Host.Outcome State Fault Refusal :=
  .next (codeCommand h 0x5001 1 5 stopCommand s)

/-- ABORT_STEP (R30, R33, R266). -/
def execAbortStep (h : EdpHdr) (s : State) : Host.Outcome State Fault Refusal :=
  .next (codeCommand h 0x5001 1 6 abortStepCommand s)

/-- CHECKPOINT_NOW (R33, R335). -/
def execCheckpointNow (h : EdpHdr) (s : State) : Host.Outcome State Fault Refusal :=
  .next (codeCommand h 0x5001 1 7 checkpointCommand s)

end Sys2Proof.Machine
end

