-- ==== Sys2Proof/Machine/LogCmds.lean ====
section
/-! DEFINITION. Meanings of the log and result-slot writes (chapters 15 and 16). -/

namespace Sys2Proof.Machine

/-- CLEAR_LOG_RING (R382). -/
def execClearLogRing (h : EdpHdr) (s : State) : Host.Outcome State Fault Refusal :=
  .next (writeCommand h 0xA000 7 tU8 [1] (fun _ s => (OK, clearLog 1 s, [])) s)

/-- CLEAR_FAULT_LOG (R382). -/
def execClearFaultLog (h : EdpHdr) (s : State) : Host.Outcome State Fault Refusal :=
  .next (writeCommand h 0xA000 7 tU8 [2] (fun _ s => (OK, clearLog 2 s, [])) s)

/-- CONSUME (R358). -/
def execConsume (h : EdpHdr) (slot seqNo : Nat) (s : State) : Host.Outcome State Fault Refusal :=
  .next (writeCommand h (0x5400 + slot) 4 tU64 (leBytes 8 seqNo) (fun _ s => noClose (consumeSlot slot seqNo s)) s)

end Sys2Proof.Machine
end

