-- ==== Sys2Proof/Machine/MemCmds.lean ====
section
/-! DEFINITION. Meanings of memory errors and scrubbing (chapters 1, 4 and 13). -/

namespace Sys2Proof.Machine

/-- SRAM_UNCORRECTABLE (R105). -/
def execSramUncorrectable (kind : SramKind) (unit : Nat) (r : WordRead) (s : State) : Host.Outcome State Fault Refusal :=
  .next (sramState kind unit r.word r.err s)

/-- GDDR7_UNCORRECTABLE (R318 to R320). -/
def execGddr7Uncorrectable (channel pa va : Nat) (reader : EccReader) (err : List SymErr) (s : State) :
    Host.Outcome State Fault Refusal :=
  .next (gddrState channel pa va reader err s)

/-- PATROL_SCRUB (R317). -/
def execPatrolScrub (block : Nat) (r : ScrubRead) (s : State) : Host.Outcome State Fault Refusal :=
  .next (scrubState block r.err r.onDie s)

/-- CORE_FENCED (R18). -/
def execCoreFenced (phys : Nat) (s : State) : Host.Outcome State Fault Refusal := .next (coreFencedState phys s)

end Sys2Proof.Machine
end

