-- ==== Sys2Proof/Machine/PinCmds.lean ====
section
/-! DEFINITION. Meanings of pins, rails and the governor (chapters 17 and 21). -/

namespace Sys2Proof.Machine

/-- PWR_EN_RISE (R387, R449). -/
def execPwrEnRise (s : State) : Host.Outcome State Fault Refusal := .next (pwrEnRiseState s)

/-- PWR_EN_FALL (R388, R449). -/
def execPwrEnFall (s : State) : Host.Outcome State Fault Refusal := .next (pwrEnFallState s)

/-- INTERLOCK_OPEN (R446, R454). -/
def execInterlockOpen (s : State) : Host.Outcome State Fault Refusal := .next (interlockState s)

/-- RESET_N_ASSERT (R450). -/
def execResetNAssert (s : State) : Host.Outcome State Fault Refusal := .next (resetAssertState s)

/-- RESET_N_RELEASE (R450). -/
def execResetNRelease (s : State) : Host.Outcome State Fault Refusal := .next (resetReleaseState s)

/-- STBY_GOOD (R387, R418, R451). -/
def execStbyGood (slotId : Nat) (bankAOk bankBOk : Bool) (s : State) : Host.Outcome State Fault Refusal :=
  .next (stbyGoodState slotId bankAOk bankBOk s)

/-- RAIL_TIMEOUT (R387). -/
def execRailTimeout (row hearth : Nat) (s : State) : Host.Outcome State Fault Refusal :=
  .next (railTimeoutState row hearth s)

/-- RAIL_FAULT (R389). -/
def execRailFault (row : Nat) (s : State) : Host.Outcome State Fault Refusal := .next (railFaultState row s)

/-- INPUT_VOLTAGE_FAULT (R384): above 60.0 V the manual guarantees no behaviour. -/
def execInputVoltageFault (mv : Nat) (s : State) : Host.Outcome State Fault Refusal :=
  if 60000 < mv then .fault .absoluteMaximum else .next (inputVoltageState mv s)

/-- INPUT_LOSS (Table 16.4). -/
def execInputLoss (s : State) : Host.Outcome State Fault Refusal := .next (inputLossState s)

/-- OVERCURRENT (R385). -/
def execOvercurrent (s : State) : Host.Outcome State Fault Refusal := .next (overcurrentState s)

/-- THERMAL_TRIP (R401). -/
def execThermalTrip (s : State) : Host.Outcome State Fault Refusal := .next (thermalTripState s)

/-- GOVERNOR_DECISION (R392 to R396). -/
def execGovernorDecision (m : Meas) (s : State) : Host.Outcome State Fault Refusal := .next (governorState m s)

/-- GATING_HOLD_LIMIT (R396). -/
def execGatingHoldLimit (group : Nat) (s : State) : Host.Outcome State Fault Refusal := .next (gatingLimitState group s)

/-- ALERT_RELEASE_TIMER (R400). -/
def execAlertReleaseTimer (s : State) : Host.Outcome State Fault Refusal := .next (alertTimerState s)

/-- PLCA_BEACON_LOST: back to CSMA/CD (R342). -/
def execPlcaBeaconLost (s : State) : Host.Outcome State Fault Refusal :=
  .next (if s.stewardUp && s.edp.t1s == 2 then { s with edp := { s.edp with t1s := 1 } } else s)

/-- PLCA_BEACON_SEEN (R342). -/
def execPlcaBeaconSeen (s : State) : Host.Outcome State Fault Refusal :=
  .next (if s.stewardUp then { s with edp := { s.edp with t1s := 2 } } else s)

end Sys2Proof.Machine
end

