-- ==== Sys2Proof/Machine/PowerCmds.lean ====
section
/-! DEFINITION. Meanings of the power-state commands, of proofing and of self-test (chapters 12, 16 to 18). -/

namespace Sys2Proof.Machine

/-- SLEEP (R104, R369, R402). -/
def execSleep (h : EdpHdr) (s : State) : Host.Outcome State Fault Refusal :=
  .next (codeCommand h 0x2200 1 1 sleepCommand s)

/-- WAKE (R307, R369). -/
def execWake (h : EdpHdr) (s : State) : Host.Outcome State Fault Refusal :=
  .next (codeCommand h 0x2200 1 2 wakeCommand s)

/-- WAKE_PACKET from a device (R307): ignored unless the device sleeps. -/
def execWakePacket (src : Nat) (s : State) : Host.Outcome State Fault Refusal :=
  .next (if src < 4096 then wakeState s else s)

/-- STANDBY (R369, R388). -/
def execStandby (h : EdpHdr) (s : State) : Host.Outcome State Fault Refusal :=
  .next (codeCommand h 0x2200 1 3 standbyCommand s)

/-- PROOF (R369, R370, R404). -/
def execProof (h : EdpHdr) (s : State) : Host.Outcome State Fault Refusal :=
  .next (codeCommand h 0x2200 1 4 proofCommand s)

/-- PROOFING (R403 to R411). -/
def execProofing (p : ProofInput) (s : State) : Host.Outcome State Fault Refusal := .next (proofingState p s)

/-- SELF_TEST_QUEUED (R379). -/
def execSelfTestQueued (h : EdpHdr) (target : Nat) (s : State) : Host.Outcome State Fault Refusal :=
  .next (writeCommand h 0x7000 0 tU32 (leBytes 4 (0x10000 + target % 0x10000)) (fun _ s => noClose (selfTestCommand 1 (target % 0x10000) s)) s)

/-- SELF_TEST_IMMEDIATE (R379). -/
def execSelfTestImmediate (h : EdpHdr) (target : Nat) (s : State) : Host.Outcome State Fault Refusal :=
  .next (writeCommand h 0x7000 0 tU32 (leBytes 4 (0x20000 + target % 0x10000)) (fun _ s => noClose (selfTestCommand 2 (target % 0x10000) s)) s)

/-- BIST_SLICE (R412 to R417). -/
def execBistSlice (r : BistResult) (s : State) : Host.Outcome State Fault Refusal := .next (bistSliceState r s)

end Sys2Proof.Machine
end

