-- ==== Sys2Proof/Machine/RootCmds.lean ====
section
/-! DEFINITION. Meanings of the leaven engines (chapter 8). -/

namespace Sys2Proof.Machine

/-- ROOT_DELIVERY (R217, R261). -/
def execRootDelivery (src weight side block slot due source : Nat) (head : RootHead) (tiles : Bytes) (s : State) :
    Host.Outcome State Fault Refusal :=
  .next (rootDeliveryState src weight side block slot due source head.kind head.esc head.header tiles s)

/-- FACTOR_FOLD (R191, R226). -/
def execFactorFold (s : State) : Host.Outcome State Fault Refusal := .next (factorFoldState s)

/-- ROOT_PROBLEM_ADMISSION (R204, R207). -/
def execRootProblemAdmission (prob : Nat) (s : State) : Host.Outcome State Fault Refusal := .next (admitRoot prob s)

/-- BORROWED_PIECE (R201, R202). -/
def execBorrowedPiece (prob : Nat) (s : State) : Host.Outcome State Fault Refusal := .next (startPiece prob s)

/-- BORROWED_PIECE_COMPLETE (R202). -/
def execBorrowedPieceComplete (prob : Nat) (s : State) : Host.Outcome State Fault Refusal := .next (endPiece prob s)

/-- ROOT_PROBLEM_DECIDED (R195 to R200, R211). -/
def execRootProblemDecided (prob : Nat) (s : State) : Host.Outcome State Fault Refusal := .next (decideRoot prob s)

/-- ROOT_COMMIT (R206, R217). -/
def execRootCommit (prob : Nat) (s : State) : Host.Outcome State Fault Refusal := .next (commitRoot prob s)

/-- ROOT_DECISION_MESSAGE (R218). -/
def execRootDecisionMessage (src weight side block : Nat) (att : StepAttempt) (slot : Nat) (outcome : RootOutcome) (s : State) :
    Host.Outcome State Fault Refusal :=
  .next (rootMessageState src weight side block att.step att.attempt slot outcome s)

/-- ROOT_DELIVERY_ACK (R217). -/
def execRootDeliveryAck (prob dev : Nat) (s : State) : Host.Outcome State Fault Refusal := .next (rootAck prob dev s)

end Sys2Proof.Machine
end

