-- ==== Sys2Proof/Machine/SecurityCmds.lean ====
section
/-! DEFINITION. Meanings of sessions, statements and attestation (chapters 15 and 19). -/

namespace Sys2Proof.Machine

/-- CLOSE_SESSION (R351). -/
def execCloseSession (h : EdpHdr) (sid : BitVec 32) (s : State) : Host.Outcome State Fault Refusal :=
  .next (writeCommand h 0x1100 0x12 tU32 (leBytes 4 sid.toNat) (fun _ s => (OK, s, [sid])) s)

/-- CLIENT_HELLO (R346, R349, R350). -/
def execClientHello (h : EdpHdr) (hello : Hello) (s : State) : Host.Outcome State Fault Refusal :=
  .next (serveSized h (.writeBlock 0x1100 0x10 tOCTETS 0 (helloBytes hello).length true (helloBytes hello)) (12 + 274) (helloAct h hello) s)

/-- ENROL_OWNER (R424 to R426). -/
def execEnrolOwner (h : EdpHdr) (st : Statement) (s : State) : Host.Outcome State Fault Refusal :=
  .next (statementCommand h 1 { st with stype := 1 } s)

/-- ENROL_CLIENT (R424 to R426). -/
def execEnrolClient (h : EdpHdr) (st : Statement) (s : State) : Host.Outcome State Fault Refusal :=
  .next (statementCommand h 1 { st with stype := 2 } s)

/-- RELEASE (R424 to R426). -/
def execRelease (h : EdpHdr) (st : Statement) (s : State) : Host.Outcome State Fault Refusal :=
  .next (statementCommand h 1 { st with stype := 3 } s)

/-- LOCK (R424 to R426). -/
def execLock (h : EdpHdr) (st : Statement) (s : State) : Host.Outcome State Fault Refusal :=
  .next (statementCommand h 1 { st with stype := 4 } s)

/-- REVOKE (R381, R424 to R426). -/
def execRevoke (h : EdpHdr) (st : Statement) (s : State) : Host.Outcome State Fault Refusal :=
  .next (statementCommand h 2 { st with stype := 5 } s)

/-- ATTESTATION_NONCE (R381, R430). -/
def execAttestationNonce (h : EdpHdr) (nonce : Bytes) (s : State) : Host.Outcome State Fault Refusal :=
  .next (writeCommand h 0x8010 1 tOCTETS nonce (fun x s => (OK, takeNonce x nonce s, [])) s)

end Sys2Proof.Machine
end

