-- ==== Sys2Proof/Machine/StepCmds.lean ====
section
/-! DEFINITION. Meanings of the step and its boundary (chapters 1, 7, 14 and 17). -/

namespace Sys2Proof.Machine

/-- INTERLEAVE_SLOT_START (R164). -/
def execInterleaveSlotStart (group : Nat) (s : State) : Host.Outcome State Fault Refusal :=
  .next (slotStartState group s)

/-- WORK_ITEM_COMPLETE (R165, R178). -/
def execWorkItemComplete (group : Nat) (s : State) : Host.Outcome State Fault Refusal :=
  .next (itemCompleteState group s)

/-- ELECTIVE_ADMISSION (R397). -/
def execElectiveAdmission (point : AdmitPoint) (s : State) : Host.Outcome State Fault Refusal :=
  .next (electiveState point s)

/-- STEP_BOUNDARY (Table 01.6). -/
def execStepBoundary (s : State) : Host.Outcome State Fault Refusal := .next (boundaryState s)

/-- PAUSED_CYCLE (R34). -/
def execPausedCycle (s : State) : Host.Outcome State Fault Refusal := .next (pausedState s)

/-- EVALUATION_SEGMENT (R182 to R185). -/
def execEvaluationSegment (s : State) : Host.Outcome State Fault Refusal := .next (evalStartState s)

/-- EVALUATION_BUDGET_EXPIRY (R184). -/
def execEvaluationBudgetExpiry (s : State) : Host.Outcome State Fault Refusal := .next (evalExpiryState s)

/-- CHECKPOINT_WRITE (R335). -/
def execCheckpointWrite (s : State) : Host.Outcome State Fault Refusal := .next (ckptWriteState s)

/-- FLUSH_COMPLETE (R335). -/
def execFlushComplete (s : State) : Host.Outcome State Fault Refusal := .next (flushState s)

/-- NVME_WRITE_COMPLETE (R335). -/
def execNvmeWriteComplete (s : State) : Host.Outcome State Fault Refusal := .next (writeCompleteState s)

/-- CHECKPOINT_BUDGET_EXPIRY (R335). -/
def execCheckpointBudgetExpiry (s : State) : Host.Outcome State Fault Refusal := .next (ckptExpiryState s)

/-- BOUNDARY_BUDGET_EXPIRY (R31, R207). -/
def execBoundaryBudgetExpiry (s : State) : Host.Outcome State Fault Refusal := .next (budgetExpiryState s)

end Sys2Proof.Machine
end

