-- ==== Sys2Proof/Machine/Dispatch.lean ====
section
/-! DEFINITION. One arm per command: each calls the meaning of its own. -/

namespace Sys2Proof.Machine

/-- The effect of a command on everything but the queue. -/
def exec (i : Instr) (s : State) : Host.Outcome State Fault Refusal :=
  match i with
  | .load h => Sys2Proof.Machine.execLoad h s
  | .start h inst => Sys2Proof.Machine.execStart h inst s
  | .pause h => Sys2Proof.Machine.execPause h s
  | .resume h => Sys2Proof.Machine.execResume h s
  | .stop h => Sys2Proof.Machine.execStop h s
  | .abortStep h => Sys2Proof.Machine.execAbortStep h s
  | .checkpointNow h => Sys2Proof.Machine.execCheckpointNow h s
  | .sleep h => Sys2Proof.Machine.execSleep h s
  | .wake h => Sys2Proof.Machine.execWake h s
  | .wakePacket src => Sys2Proof.Machine.execWakePacket src s
  | .standby h => Sys2Proof.Machine.execStandby h s
  | .proof h => Sys2Proof.Machine.execProof h s
  | .proofing p => Sys2Proof.Machine.execProofing p s
  | .selfTestQueued h target => Sys2Proof.Machine.execSelfTestQueued h target s
  | .selfTestImmediate h target => Sys2Proof.Machine.execSelfTestImmediate h target s
  | .bistSlice r => Sys2Proof.Machine.execBistSlice r s
  | .reconfigure h => Sys2Proof.Machine.execReconfigure h s
  | .portTrainTimeout port => Sys2Proof.Machine.execPortTrainTimeout port s
  | .clearLogRing h => Sys2Proof.Machine.execClearLogRing h s
  | .clearFaultLog h => Sys2Proof.Machine.execClearFaultLog h s
  | .consume h slot seqNo => Sys2Proof.Machine.execConsume h slot seqNo s
  | .closeSession h sid => Sys2Proof.Machine.execCloseSession h sid s
  | .clientHello h hello => Sys2Proof.Machine.execClientHello h hello s
  | .enrolOwner h st => Sys2Proof.Machine.execEnrolOwner h st s
  | .enrolClient h st => Sys2Proof.Machine.execEnrolClient h st s
  | .release h st => Sys2Proof.Machine.execRelease h st s
  | .lock h st => Sys2Proof.Machine.execLock h st s
  | .revoke h st => Sys2Proof.Machine.execRevoke h st s
  | .attestationNonce h nonce => Sys2Proof.Machine.execAttestationNonce h nonce s
  | .recipeStaging h off total final data content => Sys2Proof.Machine.execRecipeStaging h off total final data content s
  | .laneMaskWrite h port mask => Sys2Proof.Machine.execLaneMaskWrite h port mask s
  | .coordinateWrite h sub value => Sys2Proof.Machine.execCoordinateWrite h sub value s
  | .spareSubstitution h port value => Sys2Proof.Machine.execSpareSubstitution h port value s
  | .writeEntry h idx sub ty val => Sys2Proof.Machine.execWriteEntry h idx sub ty val s
  | .read h idx sub => Sys2Proof.Machine.execRead h idx sub s
  | .readBlock h idx sub off len => Sys2Proof.Machine.execReadBlock h idx sub off len s
  | .writeBlock h idx sub ty off total final data => Sys2Proof.Machine.execWriteBlock h idx sub ty off total final data s
  | .subscribe h kinds classes => Sys2Proof.Machine.execSubscribe h kinds classes s
  | .eventAck h ackSeq => Sys2Proof.Machine.execEventAck h ackSeq s
  | .eventResendTimer sub evSeq => Sys2Proof.Machine.execEventResendTimer sub evSeq s
  | .relayRequest h body => Sys2Proof.Machine.execRelayRequest h body s
  | .relayPacket dev h body => Sys2Proof.Machine.execRelayPacket dev h body s
  | .relayRecordExpiry target session seq => Sys2Proof.Machine.execRelayRecordExpiry target session seq s
  | .sessionIdleTimeout sid => Sys2Proof.Machine.execSessionIdleTimeout sid s
  | .helloTagTimeout sid => Sys2Proof.Machine.execHelloTagTimeout sid s
  | .writeBlockHoldTimeout idx sub => Sys2Proof.Machine.execWriteBlockHoldTimeout idx sub s
  | .matrixOperation core => Sys2Proof.Machine.execMatrixOperation core s
  | .matrixOperationComplete core => Sys2Proof.Machine.execMatrixOperationComplete core s
  | .splitKCombine core level => Sys2Proof.Machine.execSplitKCombine core level s
  | .vectorInstruction core => Sys2Proof.Machine.execVectorInstruction core s
  | .rowOperation core => Sys2Proof.Machine.execRowOperation core s
  | .groupBarrier core => Sys2Proof.Machine.execGroupBarrier core s
  | .sidelineTransfer core => Sys2Proof.Machine.execSidelineTransfer core s
  | .streamAdmission core => Sys2Proof.Machine.execStreamAdmission core s
  | .dataTileFetch core ctx corr => Sys2Proof.Machine.execDataTileFetch core ctx corr s
  | .streamCreditReport core ctx r => Sys2Proof.Machine.execStreamCreditReport core ctx r s
  | .streamRetire core ctx => Sys2Proof.Machine.execStreamRetire core ctx s
  | .streamStall core ctx => Sys2Proof.Machine.execStreamStall core ctx s
  | .pantryPrefetch core ctx => Sys2Proof.Machine.execPantryPrefetch core ctx s
  | .translationMiss core ctx va write => Sys2Proof.Machine.execTranslationMiss core ctx va write s
  | .itemDrainComplete group => Sys2Proof.Machine.execItemDrainComplete group s
  | .translationMapped group va => Sys2Proof.Machine.execTranslationMapped group va s
  | .workItemReplay group => Sys2Proof.Machine.execWorkItemReplay group s
  | .replayBoundExpiry group => Sys2Proof.Machine.execReplayBoundExpiry group s
  | .sramUncorrectable kind unit r => Sys2Proof.Machine.execSramUncorrectable kind unit r s
  | .gddr7Uncorrectable channel pa va reader err => Sys2Proof.Machine.execGddr7Uncorrectable channel pa va reader err s
  | .patrolScrub block r => Sys2Proof.Machine.execPatrolScrub block r s
  | .coreFenced phys => Sys2Proof.Machine.execCoreFenced phys s
  | .interleaveSlotStart group => Sys2Proof.Machine.execInterleaveSlotStart group s
  | .workItemComplete group => Sys2Proof.Machine.execWorkItemComplete group s
  | .electiveAdmission point => Sys2Proof.Machine.execElectiveAdmission point s
  | .ingestPacking => Sys2Proof.Machine.execIngestPacking s
  | .nvmeReadComplete cid status data => Sys2Proof.Machine.execNvmeReadComplete cid status data s
  | .nvmeReadTimeout cid status => Sys2Proof.Machine.execNvmeReadTimeout cid status s
  | .nvmeKeepAlive tgt => Sys2Proof.Machine.execNvmeKeepAlive tgt s
  | .ingestBoundExpiry late => Sys2Proof.Machine.execIngestBoundExpiry late s
  | .splitNotice src step samples => Sys2Proof.Machine.execSplitNotice src step samples s
  | .hostPortLinkLoss port => Sys2Proof.Machine.execHostPortLinkLoss port s
  | .congestionNotification conn => Sys2Proof.Machine.execCongestionNotification conn s
  | .collectiveStart coll mb => Sys2Proof.Machine.execCollectiveStart coll mb s
  | .collectivePacket p => Sys2Proof.Machine.execCollectivePacket p s
  | .collectiveComplete coll => Sys2Proof.Machine.execCollectiveComplete coll s
  | .rootDelivery src weight side block slot due source head tiles => Sys2Proof.Machine.execRootDelivery src weight side block slot due source head tiles s
  | .commitPhaseOne => Sys2Proof.Machine.execCommitPhaseOne s
  | .prepare m => Sys2Proof.Machine.execPrepare m s
  | .commit m => Sys2Proof.Machine.execCommit m s
  | .abort m => Sys2Proof.Machine.execAbort m s
  | .abortReq m => Sys2Proof.Machine.execAbortReq m s
  | .query m => Sys2Proof.Machine.execQuery m s
  | .decision m => Sys2Proof.Machine.execDecision m s
  | .halt m => Sys2Proof.Machine.execHalt m s
  | .higherAttempt m isAbort data => Sys2Proof.Machine.execHigherAttempt m isAbort data s
  | .partnerSilent wait partner item detail => Sys2Proof.Machine.execPartnerSilent wait partner item detail s
  | .commitOutcomeSilence => Sys2Proof.Machine.execCommitOutcomeSilence s
  | .digestExchange sender digest => Sys2Proof.Machine.execDigestExchange sender digest s
  | .stepBoundary => Sys2Proof.Machine.execStepBoundary s
  | .pausedCycle => Sys2Proof.Machine.execPausedCycle s
  | .evaluationSegment => Sys2Proof.Machine.execEvaluationSegment s
  | .responseTimeout slot => Sys2Proof.Machine.execResponseTimeout slot s
  | .inboxClientConnect addr => Sys2Proof.Machine.execInboxClientConnect addr s
  | .evaluationBudgetExpiry => Sys2Proof.Machine.execEvaluationBudgetExpiry s
  | .checkpointWrite => Sys2Proof.Machine.execCheckpointWrite s
  | .flushComplete => Sys2Proof.Machine.execFlushComplete s
  | .checkpointBudgetExpiry => Sys2Proof.Machine.execCheckpointBudgetExpiry s
  | .boundaryBudgetExpiry => Sys2Proof.Machine.execBoundaryBudgetExpiry s
  | .factorFold => Sys2Proof.Machine.execFactorFold s
  | .rootProblemAdmission prob => Sys2Proof.Machine.execRootProblemAdmission prob s
  | .borrowedPiece prob => Sys2Proof.Machine.execBorrowedPiece prob s
  | .borrowedPieceComplete prob => Sys2Proof.Machine.execBorrowedPieceComplete prob s
  | .rootProblemDecided prob => Sys2Proof.Machine.execRootProblemDecided prob s
  | .rootCommit prob => Sys2Proof.Machine.execRootCommit prob s
  | .rootDecisionMessage src weight side block att slot outcome => Sys2Proof.Machine.execRootDecisionMessage src weight side block att slot outcome s
  | .laneFailure port => Sys2Proof.Machine.execLaneFailure port s
  | .retrainComplete port lanes => Sys2Proof.Machine.execRetrainComplete port lanes s
  | .portDown port => Sys2Proof.Machine.execPortDown port s
  | .linkStateAnnouncement dev port up => Sys2Proof.Machine.execLinkStateAnnouncement dev port up s
  | .downPortRetry port ok => Sys2Proof.Machine.execDownPortRetry port ok s
  | .packetForward inPort p => Sys2Proof.Machine.execPacketForward inPort p s
  | .linkReplayRequest port seqNo => Sys2Proof.Machine.execLinkReplayRequest port seqNo s
  | .hush port => Sys2Proof.Machine.execHush port s
  | .hushLapse port => Sys2Proof.Machine.execHushLapse port s
  | .overlongHush port => Sys2Proof.Machine.execOverlongHush port s
  | .identityExchange port id => Sys2Proof.Machine.execIdentityExchange port id s
  | .pwrEnRise => Sys2Proof.Machine.execPwrEnRise s
  | .pwrEnFall => Sys2Proof.Machine.execPwrEnFall s
  | .interlockOpen => Sys2Proof.Machine.execInterlockOpen s
  | .resetNAssert => Sys2Proof.Machine.execResetNAssert s
  | .resetNRelease => Sys2Proof.Machine.execResetNRelease s
  | .stbyGood slotId bankAOk bankBOk => Sys2Proof.Machine.execStbyGood slotId bankAOk bankBOk s
  | .railTimeout row hearth => Sys2Proof.Machine.execRailTimeout row hearth s
  | .railFault row => Sys2Proof.Machine.execRailFault row s
  | .inputVoltageFault mv => Sys2Proof.Machine.execInputVoltageFault mv s
  | .inputLoss => Sys2Proof.Machine.execInputLoss s
  | .overcurrent => Sys2Proof.Machine.execOvercurrent s
  | .thermalTrip => Sys2Proof.Machine.execThermalTrip s
  | .governorDecision m => Sys2Proof.Machine.execGovernorDecision m s
  | .gatingHoldLimit group => Sys2Proof.Machine.execGatingHoldLimit group s
  | .alertReleaseTimer => Sys2Proof.Machine.execAlertReleaseTimer s
  | .ethernetFrameReceived f => Sys2Proof.Machine.execEthernetFrameReceived f s
  | .pfcFrame port prio quanta => Sys2Proof.Machine.execPfcFrame port prio quanta s
  | .hostPortLinkUp port => Sys2Proof.Machine.execHostPortLinkUp port s
  | .plcaBeaconLost => Sys2Proof.Machine.execPlcaBeaconLost s
  | .plcaBeaconSeen => Sys2Proof.Machine.execPlcaBeaconSeen s
  | .nvmeWriteComplete => Sys2Proof.Machine.execNvmeWriteComplete s
  | .linkAcknowledgment port seqNo => Sys2Proof.Machine.execLinkAcknowledgment port seqNo s
  | .linkCreditReturn port vl cls flits => Sys2Proof.Machine.execLinkCreditReturn port vl cls flits s
  | .rootDeliveryAck prob dev => Sys2Proof.Machine.execRootDeliveryAck prob dev s
  | .hushHoldEnd port => Sys2Proof.Machine.execHushHoldEnd port s
  | .responseWriteRejected slot => Sys2Proof.Machine.execResponseWriteRejected slot s

end Sys2Proof.Machine
end

