-- ==== Sys2Proof/WellFormed.lean ====
section
/-! DEFINITION. Well-formed commands: every operand fits the field, number or list the manual gives it. -/

namespace Sys2Proof

/-- A number that fits `n` bits. -/
def fits (n x : Nat) : Bool := decide (x < 2 ^ n)

/-- A header's numbers fit Table 15.2; a host port is 0 or 1; a device identifier has 12 bits (R285). -/
def hdrWf (h : EdpHdr) : Bool :=
  fits 16 h.bodyLen && fits 32 h.seq && fits 16 h.target
    && (match h.transport with | .t1s => true | .host p => fits 1 p | .relay d => fits 12 d)

/-- Index and subindex (R345), and a type code. -/
def entryWf (idx sub : Nat) : Bool := fits 16 idx && fits 8 sub
def tyWf (ty : Nat) : Bool := fits 8 ty

/-- Offset and total of a block: U32 (Table 15.3). -/
def blockWf (off total : Nat) : Bool := fits 32 off && fits 32 total

/-- The bytes of a statement of Table 19.3 to 0x8001:`sub`, as far as its length, type and reserved byte say. -/
def stmtBytesWf (sub : Nat) (val : Bytes) : Bool :=
  let ty := (val.getD 3 0).toNat
  val.length == (if sub = 1 then 320 else 176) && val.headD 0 == 0
    && (if sub = 1 then decide (1 ≤ ty ∧ ty ≤ 4) else ty == 5)

/-- A write of an entry that has a command of its own for the sake of what its bytes do not carry: START and statements. -/
def ownWrite (idx sub : Nat) (val : Bytes) : Bool :=
  (idx == 0x5001 && sub == 1 && val == [2]) || (idx == 0x8001 && stmtBytesWf sub val)

/-- Blocks to such entries: staging, hello, START and statements. -/
def ownBlock (idx sub off total : Nat) (fin : Bool) (data : Bytes) : Bool :=
  (idx == 0x5001 && sub == 1 && data == [2])
    || (idx == 0x8001 && (stmtBytesWf sub data || !(off == 0 && fin && data.length == total)))
    || (idx == 0x5010 && sub == 1) || (idx == 0x1100 && sub == 0x10)

/-- A body of Table 15.3. -/
def bodyWf (b : EdpBody) : Bool :=
  match b with
  | .read i k => entryWf i k
  | .write i k t _ => entryWf i k && tyWf t
  | .readBlock i k o n => entryWf i k && blockWf o n
  | .writeBlock i k t o n _ _ => entryWf i k && tyWf t && blockWf o n
  | .subscribe _ _ => true
  | .ack n => fits 32 n

/-- A body that needs no operand beside its bytes. -/
def plainBody (b : EdpBody) : Bool :=
  match b with
  | .write i k _ v => !ownWrite i k v
  | .writeBlock i k _ o n f d => !ownBlock i k o n f d
  | _ => true

/-- A statement of Table 19.3: field widths, a key of 97 bytes (48 for a revocation), a serial of 12. -/
def stmtWf (rev : Bool) (st : Statement) : Bool :=
  fits 8 st.slot && fits 8 st.right && fits 8 st.reserved && fits 64 st.ctr && st.serial.length == 12
    && st.key.length == (if rev then 48 else 97)

/-- A hello of R349. -/
def helloWf (h : Hello) : Bool :=
  h.ephemeral.length == 97 && h.nonce.length == 32 && h.keyDigest.length == 48 && fits 8 h.right

/-- A container's words: a header of 16 words, a signer digest of 48 bytes, section types of 32 bits. -/
def containerWf (c : Container) : Bool := c.header.length == 16 && c.signer.length == 48 && c.sects.all (fits 32)

/-- A fabric port (R287), and a logical core (R15), a context (Table 05.1), a group (Table 07.1). -/
def portWf (p : Nat) : Bool := decide (p < 48)
def coreWf (n : Nat) : Bool := decide (n < 384)
def ctxWf (c : Nat) : Bool := fits 3 c
def groupWf (g : Nat) : Bool := decide (g < 384)

/-- A link sequence number (R290). -/
def linkSeqWf (n : Nat) : Bool := fits 12 n

/-- A device identifier (R285). -/
def devWf (d : Nat) : Bool := fits 12 d

/-- A packet of Table 12.1. -/
def packetWf (p : Packet) : Bool :=
  devWf p.dst && devWf p.src && fits 2 p.vl && fits 2 p.origVl && fits 3 p.escClass && fits 4 p.kind && fits 4 p.hops
    && fits 2 p.dstHearth && fits 9 p.dstCore && fits 16 p.flow && fits 4 p.attempt && fits 3 p.dstCtx && fits 64 p.step
    && fits 32 p.seq && fits 24 p.offset && fits 32 p.pcrc && fits 16 p.nstatus && decide (1 ≤ p.payload.length ∧ p.payload.length ≤ 4096)

/-- A commit message (R262). -/
def msgWf (m : CommitMsg) : Bool := fits 64 m.step && fits 4 m.attempt && fits 16 m.sender && fits 16 m.code && fits 16 m.origin

/-- A split sample (R282). -/
def splitWf (e : SplitEntry) : Bool := fits 8 e.tgt && fits 32 e.ns && fits 64 e.addr && fits 24 e.tokens

/-- A frame on a host port. -/
def frameWf (f : Frame) : Bool :=
  fits 1 f.port && (match f.vlan with | some v => fits 12 v | none => true)

/-- An identity (R303). -/
def identityWf (d : Identity) : Bool := fits 16 d.dev && fits 8 d.port && fits 8 d.mode && fits 8 d.ny && fits 8 d.nz

/-- A proofing outcome: numbers of rails, cores, units, ways, words, cells, channels and ports. -/
def proofWf (p : ProofInput) : Bool :=
  (match p.railFail with | some (r, h) => decide (1 ≤ r ∧ r ≤ 7) && decide (h < 4 ∨ h = 0xF) | none => true)
    && p.badCores.all (fun c => decide (c.1 < 400) && decide (c.2 ≤ 14))
    && (match p.unitFail with | some (h, u) => decide (h < 4) && decide (1 ≤ u ∧ u ≤ 5) | none => true)
    && p.badWays.all (fun w => decide (w.1 < 4) && decide (w.2.1 < 49152) && decide (w.2.2 < 16))
    && p.badCells.all (fits 6) && p.sigCells.all (fits 6) && p.rates.length == 24
    && p.rates.all (fun r => r == 0 || r == 28 || r == 32 || r == 36)
    && p.lanes.length == 48 && p.lanes.all (fun n => decide (n ≤ 4))
    && p.ids.all (fun x => portWf x.1 && identityWf x.2) && p.hostUp.length == 2

/-- A governor sample has one junction temperature for each hearth. -/
def measWf (m : Meas) : Bool := m.tj.length == 4

/-- An error pattern: symbols of a codeword of `n`, each named once, with something flipped in it (R93, R313). -/
def errWf (n : Nat) (e : List SymErr) : Bool :=
  e.all (fun x => decide (x.sym < n) && x.mask != 0) && decide ((e.map (·.sym)).Nodup)

/-- Well-formed commands. -/
def wellFormed : Instr → Bool
  | .load h | .pause h | .resume h | .stop h | .abortStep h | .checkpointNow h => hdrWf h
  | .start h i => hdrWf h && i.blk4k.all (fun x => fits 8 x.1 && fits 32 x.2)
  | .sleep h | .wake h | .standby h | .proof h | .reconfigure h | .clearLogRing h | .clearFaultLog h => hdrWf h
  | .wakePacket d => devWf d
  | .proofing p => proofWf p
  | .selfTestQueued h t | .selfTestImmediate h t => hdrWf h && fits 16 t
  | .bistSlice _ => true
  | .portTrainTimeout p | .laneFailure p | .portDown p | .hush p | .hushLapse p | .overlongHush p | .hushHoldEnd p =>
    portWf p
  | .consume h k n => hdrWf h && fits 6 k && fits 64 n
  | .closeSession h _ => hdrWf h
  | .clientHello h e => hdrWf h && helloWf e
  | .enrolOwner h st | .enrolClient h st | .release h st | .lock h st => hdrWf h && stmtWf false st
  | .revoke h st => hdrWf h && stmtWf true st
  | .attestationNonce h n => hdrWf h && decide (n.length < 65536)
  | .recipeStaging h o n _ _ c => hdrWf h && blockWf o n && containerWf c
  | .laneMaskWrite h p m => hdrWf h && portWf p && fits 8 m
  | .coordinateWrite h k v => hdrWf h && [1, 2, 3, 6, 7].contains k && fits 8 v
  | .spareSubstitution h p v => hdrWf h && portWf p && fits 8 v
  | .writeEntry h i k t v => hdrWf h && entryWf i k && tyWf t && !ownWrite i k v
  | .read h i k => hdrWf h && entryWf i k
  | .readBlock h i k o n => hdrWf h && entryWf i k && blockWf o n
  | .writeBlock h i k t o n f d => hdrWf h && entryWf i k && tyWf t && blockWf o n && !ownBlock i k o n f d
  | .subscribe h _ _ => hdrWf h
  | .eventAck h n => hdrWf h && fits 32 n
  | .eventResendTimer k n => decide (k < 32) && fits 32 n
  | .relayRequest h b => hdrWf h && bodyWf b
  | .relayPacket d h b => devWf d && hdrWf h && bodyWf b && plainBody b
  | .relayRecordExpiry d _ n => devWf d && fits 32 n
  | .sessionIdleTimeout _ | .helloTagTimeout _ => true
  | .writeBlockHoldTimeout i k => entryWf i k
  | .matrixOperation n | .matrixOperationComplete n | .vectorInstruction n | .rowOperation n | .groupBarrier n
  | .sidelineTransfer n | .streamAdmission n => coreWf n
  | .splitKCombine n l => coreWf n && fits 4 l
  | .dataTileFetch n c _ | .streamRetire n c | .streamStall n c | .pantryPrefetch n c => coreWf n && ctxWf c
  | .streamCreditReport n c r => coreWf n && ctxWf c && fits 64 r.step && fits 4 r.attempt
  | .translationMiss n c a _ => coreWf n && ctxWf c && fits 48 a
  | .itemDrainComplete g | .workItemReplay g | .replayBoundExpiry g | .interleaveSlotStart g | .workItemComplete g
  | .gatingHoldLimit g => groupWf g
  | .translationMapped g a => groupWf g && fits 48 a
  | .sramUncorrectable _ u r => coreWf u && errWf 36 r.err
  | .gddr7Uncorrectable c pa va _ e => decide (c < 24) && decide (pa < 180 * 2 ^ 30) && fits 48 va && errWf 68 e
  | .patrolScrub b r => decide (b < 180 * 2 ^ 30 / 128) && errWf 68 r.err
  | .coreFenced p => decide (p < 400)
  | .electiveAdmission p => match p with | .bubble g => groupWf g | .order7 => true
  | .ingestPacking | .commitPhaseOne | .commitOutcomeSilence | .stepBoundary | .pausedCycle | .evaluationSegment
  | .evaluationBudgetExpiry | .checkpointWrite | .flushComplete | .checkpointBudgetExpiry | .boundaryBudgetExpiry
  | .factorFold | .pwrEnRise | .pwrEnFall | .interlockOpen | .resetNAssert | .resetNRelease | .inputLoss | .overcurrent
  | .thermalTrip | .alertReleaseTimer | .plcaBeaconLost | .plcaBeaconSeen | .nvmeWriteComplete => true
  | .nvmeReadComplete c st _ | .nvmeReadTimeout c st => fits 16 c && fits 16 st
  | .nvmeKeepAlive t => decide (t < 32)
  | .ingestBoundExpiry _ => true
  | .splitNotice d n l => devWf d && fits 64 n && l.all splitWf
  | .hostPortLinkLoss p | .hostPortLinkUp p => fits 1 p
  | .congestionNotification _ => true
  | .collectiveStart c _ | .collectiveComplete c => fits 16 c
  | .collectivePacket p => packetWf p
  | .rootDelivery d w k b sl _ _ x _ =>
    devWf d && fits 16 w && fits 1 k && fits 15 b && fits 1 sl && fits 2 x.kind && fits 2 x.esc
  | .prepare m | .commit m | .abort m | .abortReq m | .query m | .decision m | .halt m => msgWf m
  | .higherAttempt m _ p => msgWf m && (match p with | some p => packetWf p | none => true)
  | .partnerSilent _ d _ _ => devWf d
  | .digestExchange d _ => devWf d
  | .responseTimeout k | .responseWriteRejected k => decide (k < 1024)
  | .inboxClientConnect a => fits 128 a
  | .rootProblemAdmission i | .borrowedPiece i | .borrowedPieceComplete i | .rootProblemDecided i | .rootCommit i =>
    fits 16 i
  | .rootDecisionMessage d w k b a sl _ => devWf d && fits 16 w && fits 1 k && fits 15 b && fits 4 a.attempt && fits 1 sl
  | .retrainComplete p n => portWf p && decide (n ≤ 4)
  | .linkStateAnnouncement d p _ => devWf d && portWf p
  | .downPortRetry p _ => portWf p
  | .packetForward q p => packetWf p && (match q with | some l => portWf l.port && linkSeqWf l.seqNo | none => true)
  | .linkReplayRequest p n | .linkAcknowledgment p n => portWf p && linkSeqWf n
  | .identityExchange p d => portWf p && identityWf d
  | .stbyGood k _ _ => fits 6 k
  | .railTimeout r h => decide (1 ≤ r ∧ r ≤ 7) && decide (h < 4)
  | .railFault r => decide (1 ≤ r ∧ r ≤ 8)
  | .inputVoltageFault _ => true
  | .governorDecision m => measWf m
  | .ethernetFrameReceived f => frameWf f
  | .pfcFrame p k _ => fits 1 p && fits 3 k
  | .linkCreditReturn p vl c _ => portWf p && fits 2 vl && fits 3 c
  | .rootDeliveryAck i d => fits 16 i && devWf d

/-- The header, index and subindex of the entry a command addresses, for the commands that are dictionary messages to one
entry (R345). -/
def addressed : Instr → Option (EdpHdr × Nat × Nat)
  | .load h | .start h _ | .pause h | .resume h | .stop h | .abortStep h | .checkpointNow h => some (h, 0x5001, 1)
  | .sleep h | .wake h | .standby h | .proof h => some (h, 0x2200, 1)
  | .selfTestQueued h _ | .selfTestImmediate h _ => some (h, 0x7000, 0)
  | .reconfigure h => some (h, 0x3000, 8)
  | .clearLogRing h | .clearFaultLog h => some (h, 0xA000, 7)
  | .consume h k _ => some (h, 0x5400 + k, 4)
  | .closeSession h _ => some (h, 0x1100, 0x12)
  | .clientHello h _ => some (h, 0x1100, 0x10)
  | .enrolOwner h _ | .enrolClient h _ | .release h _ | .lock h _ => some (h, 0x8001, 1)
  | .revoke h _ => some (h, 0x8001, 2)
  | .attestationNonce h _ => some (h, 0x8010, 1)
  | .recipeStaging h _ _ _ _ _ => some (h, 0x5010, 1)
  | .laneMaskWrite h p _ => some (h, 0x3100 + p, 7)
  | .coordinateWrite h k _ => some (h, 0x3000, k)
  | .spareSubstitution h p _ => some (h, 0x3100 + p, 6)
  | .writeEntry h i k _ _ => some (h, i, k)
  | .read h i k => some (h, i, k)
  | .readBlock h i k _ _ => some (h, i, k)
  | .writeBlock h i k _ _ _ _ _ => some (h, i, k)
  | _ => none

end Sys2Proof
end

