-- ==== Sys2Proof/Safety.lean ====
section
/-! DEFINITION. The terms claims are stated in: when a message is carried out, and what holds of every state. -/

namespace Sys2Proof.Machine

/-! ## Messages -/

/-- A message of a live session that reaches its request: the steward serves the transport, header, length, target and tag
hold, and its sequence number has not been used (R342 to R347, R351). -/
structure Accepts (h : EdpHdr) (body : EdpBody) (size : Nat) (x : Session) (s : State) : Prop where
  steward : s.stewardUp = true
  reaches : s.reaches h.transport = true
  layout : msgOk h size = true
  here : s.elsewhere h = false
  session : h.session ≠ 0
  found : s.session h.session = some x
  tag : h.tagOk = true
  fresh : (x.cache.find? fun c => c.1 == h.seq) = none
  seq : seqOk { x with tagged := true } h.seq = true

/-- The state in which an accepted request is carried out: its session has taken the sequence number. -/
def atRequest (h : EdpHdr) (x : Session) (s : State) : State :=
  setSession (acceptedSession h x s) (setSession { x with tagged := true } s)

/-- A controller's WRITE of an entry that no other session holds for a block (R351 to R354). -/
structure SendsWrite (h : EdpHdr) (idx sub ty : Nat) (val : Bytes) (x : Session) (s : State) : Prop where
  accepts : Accepts h (.write idx sub ty val) (4 + val.length) x s
  right : x.right = 1
  free : s.heldElse x idx sub = false

/-- A controller's WRITE of a one-byte code. -/
abbrev SendsCode (h : EdpHdr) (idx sub v : Nat) (x : Session) (s : State) : Prop :=
  SendsWrite h idx sub tU8 (leBytes 1 v) x s

/-- The acknowledgment of a request that carries a status and no value (R348). -/
def statusAck (status idx sub ty : Nat) : Ack := ⟨status, idx, sub, ty, 0, []⟩

/-- The last message sent is the ACK of a request. -/
def Acked (h : EdpHdr) (a : Ack) (t : State) : Prop :=
  t.tx.getLast? = some (.ack h.transport h.peer h.session h.seq a)

/-- Everything but the protocol's own bookkeeping: sessions and queues, messages sent, pages of an unfinished staging. -/
def State.body (s : State) : State :=
  { s with edp := Edp.reset, tx := [], mm := { s.mm with holdPages := [] } }

/-! ## Memories -/

/-- Every byte memory is in canonical form: main memory, the inbox region, tile stores and side memories. -/
def memsOk (s : State) : Bool :=
  memWf s.mm.mem && memWf s.eval.inbox && s.cores.all fun c => memWf c.2.tile && memWf c.2.sideMem

/-! ## Ownership -/

/-- What the security state may do in a step: LOCKED stays, the statement counter and the firmware floor never fall
(R419, R424, R426). -/
def secKept (s t : State) : Prop :=
  (s.sec.state = 2 → t.sec.state = 2) ∧ s.sec.ctr ≤ t.sec.ctr ∧ s.sec.floor ≤ t.sec.floor

/-! ## Frames -/

/-- Only the fabric, the counters of port records and what has been sent may differ. -/
def FabricOnly (s t : State) : Prop :=
  t = { s with fab := t.fab, counters := t.counters, tx := t.tx }
    ∧ ∀ k, k / 256 < 0x3100 → tget 0 t.counters k = tget 0 s.counters k

/-- Only one fabric port, the receive buffers its packets leave (R294) and what has been sent may differ. -/
def PortOnly (p : Nat) (s t : State) : Prop :=
  (∀ q, q ≠ p → t.port q = { s.port q with held := (t.port q).held })
    ∧ t = { s with fab := { s.fab with ports := t.fab.ports }, tx := t.tx }

/-- The message came over the fabric relay, so its ACK goes back that way (R343). -/
def relayed (h : EdpHdr) : Bool := match h.transport with | .relay _ => true | _ => false

/-- A request leaves the state `u`, but for the protocol's own bookkeeping; the ACK of a relayed one passes through the
fabric. -/
def Leaves (h : EdpHdr) (u t : State) : Prop := FabricOnly u.body t.body ∧ (relayed h = false → t.body = u.body)

/-- The newest record of the log ring, while its class is enabled (R382). -/
def Logged (code : Nat) (detail : List Nat) (s t : State) : Prop :=
  s.regs.logMask.testBit (code / 256) = true →
    ∃ r, t.log.ring.getLast? = some r ∧ r.code = code ∧ r.detail = detail

/-- The device has gone down to STANDBY (R351, R365, R370, R388): no job, no recipe, empty main memory, no session; values
and counters that persist stand, the others are at their start values. -/
structure PoweredDown (s t : State) : Prop where
  device : t.dev.st = .standby
  power : t.pins.pwrGood = false ∧ t.dev.mainUp = false ∧ t.gov.vcore = [0, 0, 0, 0]
  job : t.job.st = .idle ∧ t.job.committed = 0 ∧ t.job.haltCode = 0
  recipe : t.recipe = Recipe.reset ∧ t.results = [] ∧ t.history = []
  memory : t.mm.mem = [] ∧ t.mm.pages = [] ∧ t.mm.retired = s.mm.retired ∧ t.cores = []
  sessions : t.edp.sessions = [] ∧ t.edp.subs = [] ∧ t.edp.holds = []
  values : t.regs = { s.regs with resumeStep := 0 } ∧ t.sec = s.sec
  counters : ∀ k, tget 0 t.counters k = if persistentCounter k then tget 0 s.counters k else 0

/-- Only one core, the pantries with the blocks they write back, the translation caches and the prefetcher slots may differ. -/
def CoreOnly (core : Nat) (s t : State) : Prop :=
  (∀ n, n ≠ core → t.core n = s.core n)
    ∧ t = { s with cores := t.cores, mm := { s.mm with
        pantry := t.mm.pantry, atc := t.mm.atc, atcOne := t.mm.atcOne, slots := t.mm.slots
        poison := t.mm.poison, broken := t.mm.broken } }

/-- An instruction takes its tiles: its core changes and, where a partner delivers to it, the partner's credit, in the core
that writes or in a report over the fabric (R121). -/
def TakesTiles (core id : Nat) (s t : State) : Prop :=
  (∀ n, n ≠ core → t.core n = { s.core n with credit := (t.core n).credit })
    ∧ FabricOnly { s with cores := t.cores } t
    ∧ ((∀ x ∈ (s.core core).readsOf id, (streamDesc x.2.desc).memKind ≠ 2) → CoreOnly core s t)

/-- The attempt in progress has been given up for a cause that arose on a device, and the next one runs (R265, R269). -/
def RepeatsFrom (cause origin : Nat) (s t : State) : Prop :=
  t.job.attempt = s.job.attempt + 1 ∧ t.job.st = .repeating ∧ t.job.causes = s.job.causes ++ [(cause, origin)]
    ∧ t.job.step = s.job.step ∧ t.job.committed = s.job.committed ∧ t.groups = []

/-- The attempt has been given up for a cause of this device. -/
def Repeats (cause : Nat) (s t : State) : Prop := RepeatsFrom cause s.devId s t

/-- The job stands HALTED with a code; nothing runs (R270, R374). -/
def Halted (code : Nat) (s t : State) : Prop :=
  t.job.st = .halted ∧ t.job.haltCode = code ∧ t.job.pend = none ∧ t.bnd = Boundary.reset ∧ t.groups = []
    ∧ t.job.committed = s.job.committed ∧ t.recipe.loaded = s.recipe.loaded ∧ t.regs = s.regs ∧ t.sec = s.sec

/-- A halt cause takes effect at once: a job stands loaded or live, and no boundary is under way (R270). -/
def HaltsNow (s : State) : Prop :=
  (s.job.st.live = true ∨ s.job.st = .loaded) ∧ (s.bnd.order = 0 ∨ s.job.st.stepping = false)

/-- The step in progress has committed here (order 1 of Table 01.6, R263): the commit has gone to the children of the commit
tree, the boundary begins, and values written since the last one take effect (R366). -/
def Committed (s t : State) : Prop :=
  t.job.committed = s.job.step ∧ t.job.st = .running ∧ t.job.step = s.job.step ∧ t.job.attempt = s.job.attempt
    ∧ t.job.commitUs = s.localUs ∧ t.bnd.order = 2 ∧ t.eff = s.regs ∧ t.regs = s.regs
    ∧ ∀ d ∈ s.kids, .commit d kCOMMIT (s.msg 0 s.devId true) ∈ t.tx

/-- A program stands at its first entry on every core of a group. -/
def Started (g prog : Nat) (s t : State) : Prop :=
  ∀ n ∈ (s.groupOf g).cores, (t.core n).prog = tget [] (s.core n).descMem prog ∧ (t.core n).pc = 0 ∧ (t.core n).inflight = []

/-- A device that can give its attempt up on its own: the step has not committed, PREPARE is not sent, and the repeat limit
leaves an attempt (R265, R266). -/
def CanRepeat (s : State) : Prop := s.inStep = true ∧ s.coll.prepSent = false ∧ s.job.attempt < s.eff.repeatLimit

/-- Nothing of step n has come before it began: no message and no packet of it is kept (R264). -/
def NothingEarly (n : Nat) (s : State) : Prop := (∀ x ∈ s.coll.held, x.2.step ≠ n) ∧ ∀ p ∈ s.coll.early, p.step ≠ n

/-- Bytes of main memory outside some device-virtual ranges keep their values: each range is an address and a length. -/
def MemoryOutside (ranges : List (Nat × Nat)) (s t : State) : Prop :=
  ∀ p, (∀ r ∈ ranges, ∀ i < r.2, s.phys (r.1 + i) ≠ some p) → memRead t.mm.mem p = memRead s.mm.mem p

/-- A device state in which main power is up or coming up. -/
def DevState.powered (d : DevState) : Prop := d = .ready ∨ d = .active ∨ d = .sleep ∨ d = .proofing

end Sys2Proof.Machine
end

