-- ==== Sys2Proof/Certificates/Slice0/Obligations.lean ====
section
/-! DEFINITION. What is claimed of the machine. An obligation is one claim, or several that belong together; the claims of
one obligation stand before it. -/

open Sys2Proof Sys2Proof.Machine

/-! ## The machine as a whole -/

/-- A step carries out the command at the front of the queue, with the queue's rest. -/
def Obligations.StepRunsFront : Prop :=
  ∀ (c : Instr) (r : List Instr) (s : State), s.pending = c :: r → step s = exec c { s with pending := r }

/-- On an empty queue one microsecond of local time passes (the model's choice, notes/assumptions/3). With main power a port
that is hushed is sent the symbol again, until its hush ends (R296), and packets that wait for the token bucket may go
(R297); nothing else changes. -/
def Obligations.IdleStepCountsTime : Prop :=
  ∀ s : State, s.pending = [] → s.stewardUp = true →
    ∃ t, step s = .next t
      ∧ t = { s with localUs := s.localUs + 1, counters := t.counters, fab := t.fab, tx := t.tx }
      ∧ (s.dev.mainUp = false ∨ (s.fab.inject = [] ∧ ∀ x ∈ s.fab.ports, x.2.hushing = none) →
          t.fab = s.fab ∧ t.tx = s.tx)
      ∧ (s.dev.mainUp = true → ∀ p x a b, (p, x) ∈ s.fab.ports → x.hushing = some (a, b) →
          (s.localUs + 1 < b → .hush p (s.localUs + 1) ∈ t.tx)
          ∧ (b ≤ s.localUs + 1 → (t.port p).hushing = none))

/-- What a reset module holds (R8, R315, R351, R368, R374, R384, R423; RESET_N acts, the model's choice of the moment,
notes/assumptions/4). -/
def Obligations.ResetState : Prop :=
  State.reset.pending = [] ∧ State.reset.dev.st = .standby ∧ State.reset.pins.resetAsserted = true
    ∧ State.reset.localUs = 0 ∧ State.reset.sec.state = 0
    ∧ State.reset.sec.ctr = 0 ∧ State.reset.sec.clients = [(0, (Config.factoryKeyDigest, 1))]
    ∧ State.reset.job.st = .idle ∧ State.reset.job.haltCode = 0 ∧ State.reset.job.committed = 0
    ∧ State.reset.recipe.loaded = none ∧ State.reset.results = [] ∧ State.reset.edp.sessions = []
    ∧ State.reset.regs.inputCap = 2000 ∧ State.reset.regs.repeatLimit = 3 ∧ State.reset.regs.silence = 500000
    ∧ memsOk State.reset = true

/-- Every command answers a next state; only an input above the absolute maximum of Table 17.1 stops the model. -/
def Sys2Proof.Claims.EveryCommandAnswers : Prop :=
  ∀ (c : Instr) (s : State), (∀ mv, c = .inputVoltageFault mv → mv ≤ 60000) → ∃ t, exec c s = .next t

/-- No command touches the queue. -/
def Sys2Proof.Claims.QueueUntouched : Prop :=
  ∀ (c : Instr) (s t : State), exec c s = .next t → t.pending = s.pending

/-- Every command answers a next state and leaves the queue alone. -/
def Obligations.CommandsAnswerAndLeaveTheQueue : Prop :=
  Claims.EveryCommandAnswers
    ∧ Claims.QueueUntouched

/-- Ownership only tightens (R419, R424, R426): LOCKED is never left, the statement counter and the floor of the firmware
version never fall. -/
def Obligations.OwnershipKept : Prop := ∀ s t : State, step s = .next t → secKept s t

/-- Every step keeps every byte memory in canonical form. -/
def Obligations.MemoriesStayCanonical : Prop := ∀ s t : State, memsOk s = true → step s = .next t → memsOk t = true

/-- No command but an ownership statement, and proofing for the firmware floor, changes the security state (R419, R424). -/
def Obligations.OnlyStatementsChangeOwnership : Prop :=
  ∀ (c : Instr) (s t : State),
    (match c with
      | .enrolOwner _ _ | .enrolClient _ _ | .release _ _ | .lock _ _ | .revoke _ _ | .proofing _ => False
      | _ => True) →
    exec c s = .next t → t.sec = s.sec

/-- The local count never falls but where the boot chain starts it again (R8, R450). -/
def Obligations.LocalCountNeverFalls : Prop :=
  ∀ (c : Instr) (s t : State), (match c with | .stbyGood _ _ _ | .resetNRelease => False | _ => True) →
    exec c s = .next t → s.localUs ≤ t.localUs

/-! ## Number formats -/

/-- Every NaN written is the canonical one of its format, generated or propagated, whatever its payload and sign were (R45);
every other binary32 value read is written as it was. -/
def Obligations.NaNsAreCanonical : Prop :=
  (toB32 .nan = 0x7FC00000 ∧ (convElem 1 .nan).1 = 0x7FC0 ∧ (convElem 2 .nan).1 = 0x7E00 ∧ (convElem 4 .nan).1 = 0x7E
    ∧ (convElem 3 .nan).1 = 0x7F)
  ∧ (∀ w : W32, toB32 (ofB32 w) = if (ofB32 w).isNan = true then 0x7FC00000 else w)
  ∧ (∀ w : W32, 0x7F800000 < (w &&& 0x7FFFFFFF).toNat ↔ (ofB32 w).isNan = true)
  ∧ (∀ a b c : W32, (ofB32 a).isNan = true →
      fadd a b = 0x7FC00000 ∧ fadd b a = 0x7FC00000 ∧ fsub a b = 0x7FC00000 ∧ fsub b a = 0x7FC00000
      ∧ fmul a b = 0x7FC00000 ∧ fmul b a = 0x7FC00000 ∧ fdiv a b = 0x7FC00000 ∧ fdiv b a = 0x7FC00000
      ∧ ffma a b c = 0x7FC00000 ∧ ffma b a c = 0x7FC00000 ∧ ffma b c a = 0x7FC00000
      ∧ fsqrt a = 0x7FC00000 ∧ frsqrt a = 0x7FC00000 ∧ frecip a = 0x7FC00000 ∧ fneg a = 0x7FC00000)

/-! ## Job commands -/

/-- PAUSE, RESUME, STOP and CHECKPOINT_NOW wait for order 3 of a boundary (R33, R373, R374). -/
def Sys2Proof.Claims.JobCommandsAreHeld : Prop :=
  ∀ (h : EdpHdr) (x : Session) (s : State), s.job.pend = none →
    let held (c : JobCmd) (i : Instr) : Prop := ∃ t, exec i s = .next t ∧ Acked h (statusAck OK 0x5001 1 tU8) t
      ∧ Leaves h { s with job := { s.job with pend := some c } } t
    (SendsCode h 0x5001 1 3 x s → s.job.st.stepping = true → held .pause (.pause h))
    ∧ (SendsCode h 0x5001 1 4 x s → s.job.st = .paused → held .resume (.resume h))
    ∧ (SendsCode h 0x5001 1 5 x s → s.job.st.live = true → held .stop (.stop h))
    ∧ (SendsCode h 0x5001 1 7 x s → s.job.st.live = true → held .checkpointNow (.checkpointNow h))

/-- A job command that the job's state does not allow, or that finds another one waiting, is BUSY and changes nothing (R33,
R373). -/
def Sys2Proof.Claims.IllegalJobCommandsAreBusy : Prop :=
  ∀ (h : EdpHdr) (x : Session) (s : State) (inst : Install),
    let busy (i : Instr) : Prop := ∃ t, exec i s = .next t ∧ Acked h (statusAck BUSY 0x5001 1 tU8) t ∧ Leaves h s t
    (SendsCode h 0x5001 1 1 x s → s.job.st.live = true → busy (.load h))
    ∧ (SendsCode h 0x5001 1 2 x s → s.job.st ≠ .loaded → busy (.start h inst))
    ∧ (SendsCode h 0x5001 1 3 x s → s.job.st.stepping = false ∨ s.job.pend ≠ none → busy (.pause h))
    ∧ (SendsCode h 0x5001 1 4 x s → s.job.st ≠ .paused ∨ s.job.pend ≠ none → busy (.resume h))
    ∧ (SendsCode h 0x5001 1 5 x s → s.job.st = .idle ∨ (s.job.st.live = true ∧ s.job.pend ≠ none) → busy (.stop h))
    ∧ (SendsCode h 0x5001 1 6 x s → s.job.st.stepping = false → busy (.abortStep h))
    ∧ (SendsCode h 0x5001 1 7 x s → s.job.st.live = false ∨ s.job.pend ≠ none → busy (.checkpointNow h))

/-- STOP in LOADED and HALTED unloads the recipe at once; its container stays staged and main memory keeps its bytes (R310,
R374, R439; for HALTED DEDUCED, notes/assumptions/15). -/
def Sys2Proof.Claims.StopUnloads : Prop :=
  ∀ (h : EdpHdr) (x : Session) (s : State), SendsCode h 0x5001 1 5 x s → s.job.st = .loaded ∨ s.job.st = .halted →
    ∃ t, exec (.stop h) s = .next t ∧ Acked h (statusAck OK 0x5001 1 tU8) t
      ∧ t.job.st = .idle ∧ t.job.haltCode = 0 ∧ t.recipe.loaded = none ∧ t.mm.pages = []
      ∧ t.recipe.staged = s.recipe.staged ∧ t.mm.mem = s.mm.mem ∧ t.mm.retired = s.mm.retired ∧ t.dev.st = s.dev.st
      ∧ t.regs = s.regs ∧ t.sec = s.sec ∧ t.results = s.results ∧ t.log = s.log ∧ t.pins = s.pins
      ∧ (relayed h = false → t.fab = s.fab)

/-- Job commands wait for order 3, act at once, or are BUSY. -/
def Obligations.JobCommandsWaitOrAreBusy : Prop :=
  Claims.JobCommandsAreHeld
    ∧ Claims.IllegalJobCommandsAreBusy
    ∧ Claims.StopUnloads

/-- LOAD (R372, R429): its outcome stands at 0x5010:03, and a recipe that is refused leaves everything else as it was. -/
def Sys2Proof.Claims.LoadReportsItsOutcome : Prop :=
  ∀ (h : EdpHdr) (x : Session) (s : State) (c : Container), SendsCode h 0x5001 1 1 x s → s.job.st.live = false →
    s.dev.st = .ready → s.fab.rebuilding = false → contKind c = 1 → s.recipe.staged = some c →
    ∃ t, exec (.load h) s = .next t ∧ Acked h (statusAck OK 0x5001 1 tU8) t
      ∧ t.regs = s.regs ∧ t.sec = s.sec ∧ t.dev = s.dev ∧ t.pins = s.pins
      ∧ match loadFailure (atRequest h x s) c with
        | some (code, _, _) => t.recipe = { s.recipe with outcome := code } ∧ t.job.st = s.job.st ∧ t.results = s.results
            ∧ t.history = s.history ∧ t.mm = { s.mm with holdPages := t.mm.holdPages } ∧ t.cores = s.cores ∧ t.leaven = s.leaven
        | none => t.recipe.outcome = OK ∧ t.recipe.loaded = some c ∧ t.job.st = .loaded ∧ t.job.committed = 0
            ∧ t.results = [] ∧ t.history = []

/-- LOAD with no container staged is NOT_READY (R373); one during a reconfiguration of the fabric waits: it is BUSY (R306; the
code is the model's choice, notes/assumptions/82). -/
def Sys2Proof.Claims.LoadNeedsStagedContainer : Prop :=
  ∀ (h : EdpHdr) (x : Session) (s : State), SendsCode h 0x5001 1 1 x s → s.job.st.live = false →
    (s.fab.rebuilding = false → s.recipe.staged = none →
      ∃ t, exec (.load h) s = .next t ∧ Acked h (statusAck NOT_READY 0x5001 1 tU8) t ∧ Leaves h s t)
    ∧ (s.fab.rebuilding = true →
      ∃ t, exec (.load h) s = .next t ∧ Acked h (statusAck BUSY 0x5001 1 tU8) t ∧ Leaves h s t)

/-- LOAD takes a recipe or records why not. -/
def Obligations.LoadReportsItsOutcome : Prop :=
  Claims.LoadReportsItsOutcome
    ∧ Claims.LoadNeedsStagedContainer

/-- START (R227, R271, R329, R336, R373, R406): the job runs from its source, with the working copies of its layers still to
be made; a device that its own member lists no longer hold halts (the model's choice, log entry 81). -/
def Obligations.StartRunsTheJob : Prop :=
  ∀ (h : EdpHdr) (x : Session) (s : State) (i : Install), SendsCode h 0x5001 1 2 x s → s.job.st = .loaded →
    (∀ src, s.isDiag = false → s.dev.st = .ready → i.nsOk = true → s.source i = some src →
      (s.inLists = true → ∃ t, exec (.start h i) s = .next t ∧ Acked h (statusAck OK 0x5001 1 tU8) t ∧ t.job.st = .running
        ∧ t.dev.st = .active
        ∧ t.job.committed = src.step ∧ t.job.step = src.step + 1 ∧ t.job.attempt = 0 ∧ t.bnd.order = 0
        ∧ t.job.installing = s.toInstall
        ∧ t.eff = s.regs ∧ t.regs = s.regs ∧ t.ingest.packStep = src.step + 1 ∧ t.ingest.cursor = src.cursor
        ∧ t.coll.digestSent = true ∧ t.recipe = s.recipe ∧ t.sec = s.sec ∧ t.results = s.results)
      ∧ (s.inLists = false → ∃ t, exec (.start h i) s = .next t ∧ Acked h (statusAck OK 0x5001 1 tU8) t
        ∧ Halted DESCRIPTOR_INVALID { s with job := { s.job with committed := src.step } } t))
    ∧ (s.isDiag = false → s.dev.st = .ready → i.nsOk = true → s.source i = none →
      ∃ t, exec (.start h i) s = .next t ∧ Acked h (statusAck OK 0x5001 1 tU8) t ∧ Halted NOT_READY s t
        ∧ t.mm.mem = s.mm.mem)
    ∧ (s.isDiag = false → s.dev.st = .ready → i.nsOk = false →
      ∃ t, exec (.start h i) s = .next t ∧ Acked h (statusAck DESCRIPTOR_INVALID 0x5001 1 tU8) t ∧ Leaves h s t)
    ∧ (s.isDiag = true → s.dev.st = .proofing → s.segments ≠ [] →
      ∃ t, exec (.start h i) s = .next t ∧ Acked h (statusAck OK 0x5001 1 tU8) t ∧ t.job.st = .running
        ∧ t.dev = s.dev ∧ t.bnd.order = 5 ∧ (∀ g ∈ s.segments, g.id ∈ t.eval.dueSegs) ∧ t.mm.mem = s.mm.mem
        ∧ t.regs = s.regs)
    ∧ ((s.isDiag = false ∧ s.dev.st ≠ .ready) ∨ (s.isDiag = true ∧ s.dev.st ≠ .proofing) →
      ∃ t, exec (.start h i) s = .next t ∧ Acked h (statusAck BUSY 0x5001 1 tU8) t ∧ Leaves h s t)

/-- ABORT_STEP (R30, R266): the attempt is given up; with PREPARE sent the commit root is asked; after the commit it is
ignored and logged. -/
def Obligations.AbortStepRepeats : Prop :=
  ∀ (h : EdpHdr) (x : Session) (s : State), SendsCode h 0x5001 1 6 x s → s.job.st.stepping = true →
    (CanRepeat s → ∃ t, exec (.abortStep h) s = .next t ∧ Acked h (statusAck OK 0x5001 1 tU8) t ∧ Repeats OK s t
      ∧ t.regs = s.regs ∧ t.recipe = s.recipe)
    ∧ (s.inStep = true → s.coll.prepSent = true → ∃ t, exec (.abortStep h) s = .next t
      ∧ Acked h (statusAck OK 0x5001 1 tU8) t ∧ .commit s.commitRoot kABORT_REQ (s.msg OK s.devId false) ∈ t.tx
      ∧ FabricOnly { s with job := { s.job with abortAsked := true } }.body t.body)
    ∧ (s.inStep = false → ∃ t, exec (.abortStep h) s = .next t ∧ Acked h (statusAck OK 0x5001 1 tU8) t
      ∧ t.job.st = s.job.st ∧ t.job.attempt = s.job.attempt ∧ Logged 0 ([8, s.job.attempt] ++ w64 s.job.committed) s t)

/-! ## Fabric -/

/-- Timers and signals of one port (R290, R296, R298, R299, R306): that port changes; a port that has not trained in time is
down and announced so, and the last one ends a wake (Table 12.8, order 5). -/
def Sys2Proof.Claims.PortSignalsActOnOnePort : Prop :=
  ∀ (p : Nat) (s : State),
    ((s.port p).state = 2 → ∃ t, exec (.portTrainTimeout p) s = .next t
        ∧ t.port p = { s.port p with state := 1, lanes := 0 } ∧ (∀ q, q ≠ p → (t.port q).state = (s.port q).state)
        ∧ (s.fab.waking = false → FabricOnly s t)
        ∧ (s.fab.waking = true → (∀ q, q ≠ p → (s.port q).state ≠ 2) → t.dev.st = .ready ∧ t.fab.waking = false)
        ∧ t.job = s.job ∧ t.mm = s.mm ∧ t.cores = s.cores ∧ t.regs = s.regs ∧ t.sec = s.sec)
    ∧ ((s.port p).state ≠ 2 → exec (.portTrainTimeout p) s = .next s)
    ∧ ((s.port p).state = 3 ∨ (s.port p).state = 4 → ∃ t, exec (.laneFailure p) s = .next t ∧ PortOnly p s t
        ∧ t.port p = { s.port p with state := 2 } ∧ t.tx = s.tx ++ [.retrain p])
    ∧ ((s.port p).disregardUntil ≤ s.localUs → ∃ t, exec (.hush p) s = .next t ∧ PortOnly p s t
        ∧ (t.port p).hushLast = some s.localUs
        ∧ (t.port p).hushSince = (if (s.port p).hushLast = none then s.localUs else (s.port p).hushSince)
        ∧ (t.port p).queue = (s.port p).queue)
    ∧ (s.localUs < (s.port p).disregardUntil → exec (.hush p) s = .next s)
    ∧ (∃ t, exec (.hushHoldEnd p) s = .next t ∧ PortOnly p s t ∧ t.port p = { s.port p with hushing := none })

/-- The end of a received hush (R296): it lapses 4 µs after its last symbol; one of more than 2 ms is disregarded for the
next 10 ms and counted. -/
def Sys2Proof.Claims.HushEnds : Prop :=
  ∀ (p u : Nat) (s : State), (s.port p).hushLast = some u →
    (∃ t, exec (.hushLapse p) s = .next t ∧ t.localUs = max s.localUs (u + 4) ∧ (t.port p).hushLast = none
        ∧ PortOnly p { s with localUs := max s.localUs (u + 4) } t)
    ∧ (let now := max s.localUs ((s.port p).hushSince + 2000)
       ∃ t, exec (.overlongHush p) s = .next t ∧ t.localUs = now ∧ (t.port p).hushLast = none
        ∧ (t.port p).disregardUntil = now + 10000
        ∧ t.counter (0x3100 + p) 0x0E = satAdd 32 (s.counter (0x3100 + p) 0x0E) 1
        ∧ PortOnly p { s with localUs := now, counters := t.counters } t
        ∧ ∀ k, k ≠ ck (0x3100 + p) 0x0E → tget 0 t.counters k = tget 0 s.counters k)

/-- Bulk traffic of a hushed port waits, VL0 does not (R296). -/
def Sys2Proof.Claims.HushHoldsBulk : Prop :=
  ∀ (s : State) (x : Port) (p : Packet), x.hushLast.isSome = true → x.disregardUntil ≤ s.localUs → p.vl ≠ 0 →
    startable s x p = none

/-- Signals and timers of a port act on that port alone. -/
def Obligations.PortSignalsAndHush : Prop :=
  Claims.PortSignalsActOnOnePort
    ∧ Claims.HushEnds
    ∧ Claims.HushHoldsBulk

/-- Link level (R290, R294): a replay request resends every flit held from the one it names; an acknowledgment releases the
packets whose flits all lie at or before its number, the rest keep their order; credit comes back to its class. -/
def Sys2Proof.Claims.LinkLevel : Prop :=
  ∀ (p n : Nat) (s : State),
    (∀ pre w post, (s.port p).replay = pre ++ w :: post → w.seqNo = n → (∀ v ∈ pre, v.seqNo ≠ n) →
        ∃ t, exec (.linkReplayRequest p n) s = .next t ∧ t.tx = s.tx ++ [.words p (w :: post)]
          ∧ t.counter (0x3100 + p) 0x0A = satAdd 64 (s.counter (0x3100 + p) 0x0A) 1
          ∧ t = { s with tx := t.tx, counters := t.counters })
    ∧ ((∀ v ∈ (s.port p).replay, v.seqNo ≠ n) → exec (.linkReplayRequest p n) s = .next s)
    ∧ (∀ u r, (s.port p).unacked = u :: r → ∃ t k more, exec (.linkAcknowledgment p n) s = .next t ∧ PortOnly p s t
        ∧ k ≤ (u :: r).length ∧ (t.port p).unacked = (u :: r).drop k ++ more
        ∧ (((u :: r).take k).map (·.2.1)).sum ≤ (n + 1 + 4096 - u.1) % 4096
        ∧ (k < (u :: r).length → (n + 1 + 4096 - u.1) % 4096 < (((u :: r).take (k + 1)).map (·.2.1)).sum))
    ∧ ((s.port p).unacked = [] → exec (.linkAcknowledgment p n) s = .next s)
    ∧ (∀ vl cls fl, cls < 6 → ∃ t, exec (.linkCreditReturn p vl cls fl) s = .next t ∧ PortOnly p s t
        ∧ ((s.port p).queue = [] →
            let c := if vl = 0 then cls else if vl = 3 then 24 + cls else if vl = 2 then 16 else if cls = 1 then 9 else 8
            tget 0 (t.port p).used c = tget 0 (s.port p).used c - fl
            ∧ tget 0 (t.port p).used 32 = tget 0 (s.port p).used 32 - (if vl = 0 then 0 else fl - tget 0 (s.port p).used c)))

/-- R290: what a link brings spoiled is asked for again from the first flit not accepted: a codeword beyond the code's reach, a
payload that fails its CRC, and what follows a gap (how a gap is told from a repeat is the model's choice,
notes/assumptions/77). -/
def Sys2Proof.Claims.SpoiledPacketsAreAskedAgain : Prop :=
  ∀ (l : LinkIn) (k : Packet) (s : State), s.dev.mainUp = true → (s.port l.port).usable = true →
    let gap := (l.seqNo + 4096 - (s.port l.port).nextIn) % 4096
    (l.bad = true ∨ (gap = 0 ∧ k.pcrc ≠ crc32c k.payload) ∨ (0 < gap ∧ gap < 2048)) →
    ∃ t, exec (.packetForward (some l) k) s = .next t ∧ t.tx = s.tx ++ [.linkReplay l.port (s.port l.port).nextIn]
      ∧ t = { s with tx := t.tx, counters := t.counters }
      ∧ t.counter (0x3100 + l.port) 9 =
          (if l.bad then satAdd 64 (s.counter (0x3100 + l.port) 9) 1 else s.counter (0x3100 + l.port) 9)

/-- Replay, acknowledgment and credit of a link. -/
def Obligations.LinkLevel : Prop :=
  Claims.LinkLevel
    ∧ Claims.SpoiledPacketsAreAskedAgain

/-- Training (R298, Table 12.5): a port comes back with the good lanes its mask leaves, UP with four and DEGRADED with
fewer, which is counted and logged; its unacknowledged packets go out again. A port that has not met its peer waits for it
(R303); one left without a lane is down. -/
def Obligations.RetrainBringsPortUp : Prop :=
  ∀ (p lanes : Nat) (s : State), (s.port p).state = 2 →
    let n := min (min lanes 4) (s.lanesAllowed p)
    (0 < n → (s.port p).peerDev ≠ 0xFFFF →
      ∃ t, exec (.retrainComplete p lanes) s = .next t ∧ (t.port p).lanes = n
      ∧ (t.port p).state = (if n = 4 then 3 else 4)
      ∧ (t.port p).unacked.take (s.port p).unacked.length = (s.port p).unacked
      ∧ ((s.port p).replay ≠ [] → .words p (s.port p).replay ∈ t.tx)
      ∧ (n < 4 → t.counter (0x3100 + p) 0x0B = satAdd 32 (s.counter (0x3100 + p) 0x0B) 1
          ∧ Logged 0x0501 [p, n, (s.port p).peerDev] s t)
      ∧ (n = 4 → PortOnly p s t)
      ∧ t.regs = s.regs ∧ t.dev = s.dev ∧ t.mm = s.mm ∧ t.cores = s.cores ∧ t.sec = s.sec ∧ t.job.st = s.job.st
      ∧ t.fab.down = s.fab.down ∧ ∀ q, q ≠ p → t.port q = { s.port q with held := (t.port q).held })
    ∧ (0 < n → (s.port p).peerDev = 0xFFFF → ∃ t, exec (.retrainComplete p lanes) s = .next t ∧ PortOnly p s t
      ∧ t.port p = { s.port p with lanes := n })
    ∧ (n = 0 → exec (.retrainComplete p lanes) s = exec (.portDown p) s)

/-- A port that goes down (R299, R300): DOWN, its lanes gone; bulk flits it had not had acknowledged abort the attempt. -/
def Sys2Proof.Claims.PortDownLosesBulk : Prop :=
  ∀ (p : Nat) (s : State), (s.port p).state = 2 ∨ (s.port p).state = 3 ∨ (s.port p).state = 4 ∨ (s.port p).state = 5 →
    ∃ t, exec (.portDown p) s = .next t ∧ (t.port p).state = 1 ∧ (t.port p).lanes = 0
      ∧ ((∀ u ∈ (s.port p).unacked, u.2.2.p.vl = 0) → t.job.attempt = s.job.attempt ∧ t.job.st = s.job.st)
      ∧ ((∃ u ∈ (s.port p).unacked, u.2.2.p.vl ≠ 0) → s.inStep = true → s.coll.prepSent = false →
          s.job.attempt < s.eff.repeatLimit →
          t.job.attempt = s.job.attempt + 1 ∧ t.job.st = .repeating
            ∧ t.job.causes = s.job.causes ++ [(STEP_REPEAT_FAULT, s.devId)])
      ∧ t.regs = s.regs ∧ t.sec = s.sec ∧ t.job.committed = s.job.committed ∧ t.recipe = s.recipe

/-- A down port that trains one lane at its retry serves degraded (R301; that it is one lane, notes/assumptions/38); one that fails stays down. -/
def Sys2Proof.Claims.DownPortRetries : Prop :=
  ∀ (p : Nat) (ok : Bool) (s : State),
    ((s.port p).state = 1 → ok = true → ∃ t, exec (.downPortRetry p ok) s = .next t ∧ FabricOnly s t
        ∧ (t.port p).state = 4 ∧ (t.port p).lanes = 1)
    ∧ ((s.port p).state ≠ 1 ∨ ok = false → exec (.downPortRetry p ok) s = .next s)

/-- A port that goes down, and its retries. -/
def Obligations.PortDownAndRetry : Prop :=
  Claims.PortDownLosesBulk
    ∧ Claims.DownPortRetries

/-- The link-state map (R301): an announcement enters or removes one link of it. -/
def Sys2Proof.Claims.AnnouncementSetsLink : Prop :=
  ∀ (dev port : Nat) (up : Bool) (s : State), s.dev.mainUp = true →
    ∃ t, exec (.linkStateAnnouncement dev port up) s = .next t
      ∧ (((dev, port) ∈ t.fab.down) ↔ up = false)
      ∧ (∀ x, x ≠ (dev, port) → (x ∈ t.fab.down ↔ x ∈ s.fab.down))
      ∧ t = { s with fab := { s.fab with down := t.fab.down } }

/-- A link brings a packet that is accepted (R290): the port carries traffic, no codeword is beyond the code's reach, no flit
is missing before it, and its payload agrees with its CRC. -/
def Sys2Proof.Claims.Accepted (l : LinkIn) (k : Packet) (s : State) : Prop :=
  s.dev.mainUp = true ∧ s.dev.st ≠ .sleep ∧ (s.port l.port).usable = true ∧ l.bad = false
    ∧ (l.seqNo + 4096 - (s.port l.port).nextIn) % 4096 = 0 ∧ k.pcrc = crc32c k.payload

/-- Forwarding (R290, R292, R295, R299, R302, R303): an accepted packet for another device is acknowledged and leaves by the
port of its next hop with its hop count raised, on VL3 when it detours. -/
def Sys2Proof.Claims.ForwardingTakesNextHop : Prop :=
  ∀ (l : LinkIn) (p : Nat) (detour : Bool) (k : Packet) (s : State), Claims.Accepted l k s → s.fabId ≠ 0xFFFF →
    k.dst ≠ s.fabId → s.nextHop k [0, 1, 2] true none = .go p detour → k.hops < 8 →
    (k.vl = 0 → k.hops ≤ 5) → (k.vl = 3 → k.escClass < 5) →
    ∃ t m, exec (.packetForward (some l) k) s = .next t ∧ FabricOnly s t
      ∧ ((∃ w ∈ (t.port p).queue, w.p = m) ∨ ∃ n, .words p (linkWords n m) ∈ t.tx)
      ∧ .linkAck l.port ((l.seqNo + flits k + 4095) % 4096) ∈ t.tx
      ∧ m.hops = k.hops + 1 ∧ m.dst = k.dst ∧ m.src = k.src ∧ m.payload = k.payload ∧ m.kind = k.kind ∧ m.flow = k.flow
      ∧ m.vl = (if k.vl = 0 then 0 else if detour = true ∨ k.vl = 3 then 3 else k.vl)
      ∧ (m.vl = 0 → m.escClass = k.hops) ∧ (k.vl = 3 → m.escClass = k.escClass + 1)
      ∧ ∀ r, r ≠ p → r ≠ l.port → t.port r = { s.port r with held := (t.port r).held }

/-- R302: an accepted packet without a usable hop, beyond eight hops, or beyond the last hop class of VL3 is dropped and
counted in the record of the port it could not use; no packet is sent, only the link's acknowledgment and credit. -/
def Sys2Proof.Claims.UnroutablePacketsAreDropped : Prop :=
  ∀ (l : LinkIn) (p : Nat) (k : Packet) (s : State), Claims.Accepted l k s → s.fabId ≠ 0xFFFF → k.dst ≠ s.fabId →
    (s.nextHop k [0, 1, 2] true none = .drop p ∨ ((∃ d, s.nextHop k [0, 1, 2] true none = .go p d)
      ∧ (8 ≤ k.hops ∨ (k.vl = 3 ∧ 5 ≤ k.escClass)))) →
    ∃ t, exec (.packetForward (some l) k) s = .next t
      ∧ t.tx = s.tx ++ [.linkAck l.port ((l.seqNo + flits k + 4095) % 4096), .linkCredit l.port k.vl (classTag s k) (flits k)]
      ∧ FabricOnly s t ∧ t.fab.delivered = s.fab.delivered ∧ t.fab.inject = s.fab.inject
      ∧ (∀ r, (t.port r).queue = (s.port r).queue ∧ (t.port r).unacked = (s.port r).unacked)
      ∧ t.counter (0x3100 + p) 0x0D = satAdd 32 (s.counter (0x3100 + p) 0x0D) 1
      ∧ ∀ j, j ≠ ck (0x3100 + p) 0x0D → j ≠ ck (0x3100 + l.port) 8 → tget 0 t.counters j = tget 0 s.counters j

/-- Packets addressed to this device (R217, R251, R290, R294): collective data and root deliveries are acknowledged and wait
for the unit that takes them; the credit of their receive buffer goes back. -/
def Sys2Proof.Claims.OwnPacketsAreDelivered : Prop :=
  ∀ (l : LinkIn) (k : Packet) (s : State), Claims.Accepted l k s → k.dst = s.fabId → k.kind = 1 →
    ∃ t, exec (.packetForward (some l) k) s = .next t ∧ t.fab.delivered = s.fab.delivered ++ [k] ∧ FabricOnly s t
      ∧ t.tx = s.tx ++ [.linkAck l.port ((l.seqNo + flits k + 4095) % 4096), .linkCredit l.port k.vl (classTag s k) (flits k)]
      ∧ (t.port l.port).nextIn = (l.seqNo + flits k) % 4096

/-- Packets take the next hop, are delivered, or are dropped and counted. -/
def Obligations.PacketsAreForwardedOrDropped : Prop :=
  Claims.AnnouncementSetsLink
    ∧ Claims.ForwardingTakesNextHop
    ∧ Claims.UnroutablePacketsAreDropped
    ∧ Claims.OwnPacketsAreDelivered

/-- Identities (R303): a port whose peer is no NQ7, or has another cabling mode or other sizes, ends in state 7; with the
right peer it is UP with four lanes and DEGRADED with fewer; a port whose mask leaves it no lane is down. -/
def Obligations.IdentityDecidesPort : Prop :=
  ∀ (p dim d : Nat) (id : Identity) (s : State), s.roleOf p = some (dim, d) →
    (s.port p).state = 2 ∨ (s.port p).state = 3 ∨ (s.port p).state = 4 ∨ (s.port p).state = 6 ∨ (s.port p).state = 7 →
    ∃ t, exec (.identityExchange p id) s = .next t ∧ (s.fab.waking = false → FabricOnly s t)
      ∧ (s.fab.waking = true → (∀ q, q ≠ p → (s.port q).state ≠ 2) → t.dev.st = .ready)
      ∧ (t.port p).peerDev = id.dev ∧ (t.port p).peerPort = id.port
      ∧ ((s.port p).lanes = 0 → s.lanesAllowed p = 0 → (t.port p).state = 1)
      ∧ (0 < (s.port p).lanes ∨ 0 < s.lanesAllowed p →
        (id.nq7 = false ∨ id.mode ≠ s.fab.cabling ∨ id.ny ≠ s.fab.nY ∨ id.nz ≠ s.fab.nZ → (t.port p).state = 7)
        ∧ (id.nq7 = true → id.mode = s.fab.cabling → id.ny = s.fab.nY → id.nz = s.fab.nZ → s.fabId ≠ 0xFFFF →
          let peer := withCoord s.fabId dim ((coordOf s.fabId dim + d) % s.dimSize dim)
          (id.dev ≠ peer → (t.port p).state = 6)
          ∧ (id.dev = peer → id.port < 45 → id.port ≠ 3 * (15 - d) + dim → (t.port p).state = 6)
          ∧ (id.dev = peer → id.port = 3 * (15 - d) + dim → (t.port p).state = (if (t.port p).lanes < 4 then 4 else 3))))

/-- RECONFIGURE in READY (R306, R308): coordinates, sizes and substitutions take effect, the link-state map is empty, and every
wired port retrains; LOAD waits (Table 12.7, order 6). BUSY for a running job. In another state nothing retrains and what was
written takes effect at proofing (the model's choice, notes/assumptions/12). `u`: what the command leaves before its ACK. -/
def Obligations.ReconfigureRetrains : Prop :=
  ∀ (h : EdpHdr) (x : Session) (s : State), SendsCode h 0x3000 8 1 x s →
    (s.job.st.live = false → s.dev.st = .ready → ∃ t u, exec (.reconfigure h) s = .next t
      ∧ Acked h (statusAck OK 0x3000 8 tU8) t ∧ Leaves h u t ∧ u.body = { s with fab := u.fab }.body
      ∧ u.fab.coord = s.regs.coord ∧ u.fab.nY = s.regs.nY ∧ u.fab.nZ = s.regs.nZ ∧ u.fab.subst = s.regs.spare
      ∧ u.fab.down = [] ∧ u.fab.rebuilding = true ∧ u.fab.cabling = s.fab.cabling
      ∧ (∀ p < 48, (u.port p).state = (if (u.roleOf p).isSome then 2 else if 45 ≤ p then 8 else 0)
          ∧ (u.port p).lanes = 0 ∧ (u.port p).peerDev = 0xFFFF ∧ (u.port p).unacked = []))
    ∧ (s.job.st.live = false → s.dev.st ≠ .ready → ∃ t, exec (.reconfigure h) s = .next t
      ∧ Acked h (statusAck OK 0x3000 8 tU8) t ∧ Leaves h s t)
    ∧ (s.job.st.live = true → ∃ t, exec (.reconfigure h) s = .next t
      ∧ Acked h (statusAck BUSY 0x3000 8 tU8) t ∧ Leaves h s t)

/-- Fabric registers (R286, R305, R308): a lane mask and a spare's substitution go to their port's entry; a port that
carries traffic, or one that is down, retrains under its new mask; a substitution waits for no running job and is out of
range on a wired port. `u`: what the command leaves before its ACK. -/
def Sys2Proof.Claims.FabricRegisters : Prop :=
  ∀ (h : EdpHdr) (x : Session) (s : State) (p v : Nat), p < 48 → v < 256 →
    (SendsWrite h (0x3100 + p) 7 tU8 (leBytes 1 v) x s → v < 16 → ∃ t u, exec (.laneMaskWrite h p v) s = .next t
      ∧ Acked h (statusAck OK (0x3100 + p) 7 tU8) t ∧ Leaves h u t
      ∧ u.body = { s with regs := { s.regs with laneMask := s.regs.laneMask.set p v }
                          eff := { s.eff with laneMask := s.eff.laneMask.set p v }, fab := u.fab }.body
      ∧ (∀ q, q ≠ p → u.port q = s.port q)
      ∧ ((s.port p).state = 3 ∨ (s.port p).state = 4 → u.port p = { s.port p with state := 2 })
      ∧ ((s.port p).state = 1 → s.dev.mainUp = true → s.dev.st ≠ .sleep → u.port p = { s.port p with state := 2 }))
    ∧ (SendsWrite h (0x3100 + p) 6 tU8 (leBytes 1 v) x s → s.job.st.live = false → v = 0xFF ∨ (45 ≤ p ∧ v < 45) →
      ∃ t, exec (.spareSubstitution h p v) s = .next t ∧ Acked h (statusAck OK (0x3100 + p) 6 tU8) t
      ∧ Leaves h { s with regs := { s.regs with spare := s.regs.spare.set p v }
                          eff := { s.eff with spare := s.eff.spare.set p v } } t)
    ∧ (SendsWrite h (0x3100 + p) 6 tU8 (leBytes 1 v) x s → s.job.st.live = true → v = 0xFF ∨ (45 ≤ p ∧ v < 45) →
      ∃ t, exec (.spareSubstitution h p v) s = .next t ∧ Acked h (statusAck BUSY (0x3100 + p) 6 tU8) t ∧ Leaves h s t)
    ∧ (SendsWrite h (0x3100 + p) 6 tU8 (leBytes 1 v) x s → p < 45 → v ≠ 0xFF →
      ∃ t, exec (.spareSubstitution h p v) s = .next t ∧ Acked h (statusAck TYPE_MISMATCH (0x3100 + p) 6 tU8) t
        ∧ Leaves h s t)
    ∧ (SendsWrite h (0x3100 + p) 7 tU8 (leBytes 1 v) x s → 16 ≤ v →
      ∃ t, exec (.laneMaskWrite h p v) s = .next t ∧ Acked h (statusAck TYPE_MISMATCH (0x3100 + p) 7 tU8) t
        ∧ Leaves h s t)

/-- R286: a coordinate lies within its dimension's size or is unassigned; none changes while a job is live. -/
def Sys2Proof.Claims.CoordinateRules : Prop :=
  ∀ (h : EdpHdr) (x : Session) (s : State) (d v : Nat), d < 3 → v < 256 →
    SendsWrite h 0x3000 (d + 1) tU8 (leBytes 1 v) x s →
    (s.job.st.live = false → v = 0xFF ∨ v < s.sizeOf d → ∃ t, exec (.coordinateWrite h (d + 1) v) s = .next t
      ∧ Acked h (statusAck OK 0x3000 (d + 1) tU8) t
      ∧ Leaves h { s with regs := { s.regs with coord := s.regs.coord.set d v }
                          eff := { s.eff with coord := s.eff.coord.set d v } } t)
    ∧ (s.job.st.live = false → v ≠ 0xFF → s.sizeOf d ≤ v → ∃ t, exec (.coordinateWrite h (d + 1) v) s = .next t
      ∧ Acked h (statusAck TYPE_MISMATCH 0x3000 (d + 1) tU8) t ∧ Leaves h s t)
    ∧ (s.job.st.live = true → ∃ t, exec (.coordinateWrite h (d + 1) v) s = .next t
      ∧ Acked h (statusAck BUSY 0x3000 (d + 1) tU8) t ∧ Leaves h s t)

/-- R286: the size of Y or Z is 1, 2, 4, 8 or 16 and above the coordinate in force there, unless that is unassigned (for a
size equal to the coordinate DEDUCED, notes/assumptions/45); none changes while a job is live. -/
def Sys2Proof.Claims.SizeRules : Prop :=
  ∀ (h : EdpHdr) (x : Session) (s : State) (d v : Nat), d = 1 ∨ d = 2 → v < 256 →
    SendsWrite h 0x3000 (d + 5) tU8 (leBytes 1 v) x s →
    let sends (code : Nat) (f : Regs → Regs) : Prop := ∃ t, exec (.coordinateWrite h (d + 5) v) s = .next t
      ∧ Acked h (statusAck code 0x3000 (d + 5) tU8) t
      ∧ Leaves h { s with regs := f s.regs, eff := f s.eff } t
    let size : Bool := v == 1 || v == 2 || v == 4 || v == 8 || v == 16
    let above : Bool := s.regs.coord.getD d 0xFF == 0xFF || decide (s.regs.coord.getD d 0xFF < v)
    (size = true → s.job.st.live = false → above = true →
      sends OK fun r => if d = 1 then { r with nY := v } else { r with nZ := v })
    ∧ (size = true → s.job.st.live = false → above = false → sends TYPE_MISMATCH id)
    ∧ (size = false → sends TYPE_MISMATCH id)
    ∧ (size = true → s.job.st.live = true → sends BUSY id)

/-- Lane masks, substitutions and coordinates. -/
def Obligations.FabricRegistersAreChecked : Prop :=
  Claims.FabricRegisters
    ∧ Claims.CoordinateRules
    ∧ Claims.SizeRules

/-! ## Dictionary protocol -/

/-- READ and READ_BLOCK (R348, R352, R357): the value with its type, and nothing changes but the session's own records;
no entry and a write-only one are ACCESS_DENIED. -/
def Obligations.ReadsAnswerTheValue : Prop :=
  ∀ (h : EdpHdr) (x : Session) (s : State) (idx sub off len : Nat),
    (Accepts h (.read idx sub) 4 x s → ∀ e, entryOf idx sub = some e → e.acc ≠ .wo → readRule s (some x) idx sub e = OK →
      tooLong (bodyLimit h.transport) e (entryValue s (some x) idx sub) = false →
      ∃ t, exec (.read h idx sub) s = .next t ∧ Leaves h s t
        ∧ Acked h ⟨OK, idx, sub, e.ty, readAux s idx sub, entryValue s (some x) idx sub⟩ t)
    ∧ (Accepts h (.readBlock idx sub off len) 12 x s → ∀ e, entryOf idx sub = some e → e.acc ≠ .wo →
      readRule s (some x) idx sub e = OK → 0 < len → len + 16 ≤ bodyLimit h.transport →
      ∃ t v, exec (.readBlock h idx sub off len) s = .next t ∧ Leaves h s t
        ∧ Acked h ⟨OK, idx, sub, e.ty, (entryValue s (some x) idx sub).length * 2 ^ 32 + v,
            ((entryValue s (some x) idx sub).drop off).take len⟩ t)
    ∧ (Accepts h (.read idx sub) 4 x s → (∀ e, entryOf idx sub = some e → e.acc = .wo) →
      ∃ t, exec (.read h idx sub) s = .next t ∧ Leaves h s t ∧ Acked h (statusAck ACCESS_DENIED idx sub 0) t)

/-- What a WRITE of a stored entry leaves (R308, R352, R368): the register takes the value, and so does the value in force,
but for a limit or a bound in a job that runs; a lane mask also has its port retrain. -/
def Sys2Proof.Claims.Stored (idx sub : Nat) (val : Bytes) (s u : State) : Prop :=
  u.body = { s with
      regs := putReg idx sub val s.regs
      eff := if deferred idx = true ∧ s.job.st.live = true then s.eff else putReg idx sub val s.eff
      fab := u.fab }.body
    ∧ (¬ (0x3100 ≤ idx ∧ idx < 0x3130 ∧ sub = 7) → u.fab = s.fab)
    ∧ (∀ p < 48, idx = 0x3100 + p → sub = 7 → (∀ q, q ≠ p → u.port q = s.port q)
        ∧ ((s.port p).usable = true ∨ ((s.port p).state = 1 ∧ s.dev.mainUp = true ∧ s.dev.st ≠ .sleep) →
            u.port p = { s.port p with state := 2 }))

/-- WRITE of a stored entry (R308, R352, R353, R368), and one complete chunk of a WRITE_BLOCK of it. A WRITE of a command entry
is that command. `u`: what the write leaves before its ACK. -/
def Sys2Proof.Claims.WritesStoreTheValue : Prop :=
  ∀ (h : EdpHdr) (x : Session) (s : State),
    (∀ (idx sub ty : Nat) (val : Bytes) (e : Entry),
      entryOf idx sub = some e → (e.acc = .rw ∨ (e.acc = .rws ∧ s.dev.st = .standby)) → valueOk idx sub ty val = true →
      ownRule s idx sub val = OK →
      (SendsWrite h idx sub ty val x s → ∃ t u, exec (.writeEntry h idx sub ty val) s = .next t
        ∧ Acked h (statusAck OK idx sub ty) t ∧ Leaves h u t ∧ Claims.Stored idx sub val s u)
      ∧ (Accepts h (.writeBlock idx sub ty 0 val.length true val) (12 + val.length) x s → x.right = 1 →
        s.heldElse x idx sub = false → s.hold? idx sub = none →
        ∃ t u, exec (.writeBlock h idx sub ty 0 val.length true val) s = .next t
          ∧ Acked h (statusAck OK idx sub ty) t ∧ Leaves h u t ∧ Claims.Stored idx sub val s u))
    ∧ (∀ c v i, (c, i) ∈ [(1, Instr.load h), (3, .pause h), (4, .resume h), (5, .stop h), (6, .abortStep h),
        (7, .checkpointNow h)] → v = leBytes 1 c → exec (.writeEntry h 0x5001 1 tU8 v) s = exec i s)
    ∧ (∀ c v i, (c, i) ∈ [(1, Instr.sleep h), (2, .wake h), (3, .standby h), (4, .proof h)] → v = leBytes 1 c →
        exec (.writeEntry h 0x2200 1 tU8 v) s = exec i s)
    ∧ exec (.writeEntry h 0x3000 8 tU8 [1]) s = exec (.reconfigure h) s
    ∧ exec (.writeEntry h 0xA000 7 tU8 [1]) s = exec (.clearLogRing h) s
    ∧ exec (.writeEntry h 0xA000 7 tU8 [2]) s = exec (.clearFaultLog h) s
    ∧ (∀ sid : BitVec 32, exec (.writeEntry h 0x1100 0x12 tU32 (leBytes 4 sid.toNat)) s = exec (.closeSession h sid) s)
    ∧ (∀ k q, k < 64 → q < 2 ^ 64 →
        exec (.writeEntry h (0x5400 + k) 4 tU64 (leBytes 8 q)) s = exec (.consume h k q) s)
    ∧ (∀ nonce, exec (.writeEntry h 0x8010 1 tOCTETS nonce) s = exec (.attestationNonce h nonce) s)

/-- The checks of a WRITE in their order (R354): existence, right and class, then type and range, then a hold, then the
entry's own rule; each answers its code and changes nothing. -/
def Sys2Proof.Claims.WritesCheckInOrder : Prop :=
  ∀ (h : EdpHdr) (x : Session) (s : State) (idx sub ty : Nat) (val : Bytes),
    Accepts h (.write idx sub ty val) (4 + val.length) x s → ownCommand (.write idx sub ty val) = false →
    let refused (code : Nat) : Prop := ∃ t, exec (.writeEntry h idx sub ty val) s = .next t
      ∧ Acked h (statusAck code idx sub ty) t ∧ Leaves h s t
    let written (e : Entry) : Prop := e.acc = .rw ∨ (e.acc = .wo ∧ ¬ (idx = 0x1100 ∧ sub = 0x10))
    (entryOf idx sub = none → refused ACCESS_DENIED)
    ∧ (x.right = 0 → refused ACCESS_DENIED)
    ∧ (∀ e, entryOf idx sub = some e → e.acc = .ro ∨ e.acc = .const_ → refused ACCESS_DENIED)
    ∧ (∀ e, entryOf idx sub = some e → x.right = 1 → e.acc = .rws → s.dev.st ≠ .standby → refused BUSY)
    ∧ (∀ e, entryOf idx sub = some e → x.right = 1 → written e → valueOk idx sub ty val = false → refused TYPE_MISMATCH)
    ∧ (∀ e, entryOf idx sub = some e → x.right = 1 → written e → valueOk idx sub ty val = true →
        s.heldElse x idx sub = true → refused BUSY)
    ∧ (∀ e, entryOf idx sub = some e → x.right = 1 → written e → valueOk idx sub ty val = true →
        s.heldElse x idx sub = false → ownRule s idx sub val ≠ OK → refused (ownRule s idx sub val))

/-- A chunk that leaves its value incomplete is held for its session (R353), and the entry keeps its value; the chunk that
completes it has the value checked and stored, and the hold ends. -/
def Sys2Proof.Claims.ChunksAreHeld : Prop :=
  ∀ (h : EdpHdr) (x : Session) (s : State) (idx sub ty off total : Nat) (final : Bool) (data : Bytes) (e : Entry),
    Accepts h (.writeBlock idx sub ty off total final data) (12 + data.length) x s → entryOf idx sub = some e →
    e.acc = .rw → x.right = 1 → ty = e.ty → off + data.length ≤ total → h.seq ≠ 0xFFFFFFFF →
    s.heldElse x idx sub = false →
    (s.hold? idx sub = none → final = false →
      ∃ t d, exec (.writeBlock h idx sub ty off total final data) s = .next t ∧ Acked h (statusAck OK idx sub ty) t
        ∧ Leaves h s t ∧ t.hold? idx sub = some d ∧ d.sid = x.sid ∧ d.total = total ∧ d.chunks = [(off, data)]
        ∧ d.final = false)
    ∧ (∀ d, s.hold? idx sub = some d → d.ty = ty → d.total = total → d.overlaps off data.length = false →
      let done : Hold := { d with chunks := d.chunks ++ [(off, data)], final := d.final || final }
      ((done.final && done.got == total) = false →
        ∃ t k, exec (.writeBlock h idx sub ty off total final data) s = .next t ∧ Acked h (statusAck OK idx sub ty) t
          ∧ Leaves h s t ∧ t.hold? idx sub = some k ∧ k = { done with last := s.localUs })
      ∧ ((done.final && done.got == total) = true → valueOk idx sub ty done.value = true →
        ownRule s idx sub done.value = OK →
        ∃ t u, exec (.writeBlock h idx sub ty off total final data) s = .next t ∧ Acked h (statusAck OK idx sub ty) t
          ∧ Leaves h u t ∧ Claims.Stored idx sub done.value s u ∧ t.hold? idx sub = none))

/-- WRITE and WRITE_BLOCK check, hold and store. -/
def Obligations.WritesAreCheckedAndStored : Prop :=
  Claims.WritesStoreTheValue
    ∧ Claims.WritesCheckInOrder
    ∧ Claims.ChunksAreHeld

/-- Staging (R310, R353, R372): a container that has arrived whole replaces the one staged before, and holds its pages; one
whose pages are short is BUDGET_EXCEEDED; its first chunk takes the pages and is held. -/
def Obligations.StagingReplacesContainer : Prop :=
  ∀ (h : EdpHdr) (x : Session) (s : State) (data : Bytes) (c : Container), s.heldElse x 0x5010 1 = false →
    x.right = 1 → s.hold? 0x5010 1 = none →
    let staged (pages : List Nat) : State := { s with
      recipe := { s.recipe with staged := some c, stagedBytes := data, stagedBad := false, same := false }
      mm := { s.mm with stagedPages := pages } }
    (Accepts h (.writeBlock 0x5010 1 tOCTETS 0 data.length true data) (12 + data.length) x s →
      let need := cdiv data.length pageSize
      (s.mm.up = true → (stagingPages need s).1 = OK →
        ∃ t, exec (.recipeStaging h 0 data.length true data c) s = .next t
          ∧ Acked h (statusAck OK 0x5010 1 tOCTETS) t ∧ Leaves h (staged (s.pagesFor need)) t)
      ∧ (s.mm.up = true → (s.pagesFor need).length < need →
        ∃ t, exec (.recipeStaging h 0 data.length true data c) s = .next t
          ∧ Acked h (statusAck BUDGET_EXCEEDED 0x5010 1 tOCTETS) t ∧ Leaves h s t)
      ∧ (s.mm.up = false → s.mm.holdPages = [] → data.length ≤ 64 * 2 ^ 20 →
        ∃ t, exec (.recipeStaging h 0 data.length true data c) s = .next t
          ∧ Acked h (statusAck OK 0x5010 1 tOCTETS) t ∧ Leaves h (staged []) t)
      ∧ (s.mm.up = false → 64 * 2 ^ 20 < data.length →
        ∃ t, exec (.recipeStaging h 0 data.length true data c) s = .next t
          ∧ Acked h (statusAck NOT_READY 0x5010 1 tOCTETS) t ∧ Leaves h s t))
    ∧ (∀ off total, Accepts h (.writeBlock 0x5010 1 tOCTETS off total false data) (12 + data.length) x s →
      off + data.length ≤ total → h.seq ≠ 0xFFFFFFFF → s.mm.up = true → (stagingPages (cdiv total pageSize) s).1 = OK →
      ∃ t d, exec (.recipeStaging h off total false data c) s = .next t ∧ Acked h (statusAck OK 0x5010 1 tOCTETS) t
        ∧ Leaves h s t ∧ t.mm.holdPages = s.pagesFor (cdiv total pageSize) ∧ t.hold? 0x5010 1 = some d ∧ d.total = total
        ∧ d.chunks = [(off, data)] ∧ d.sid = x.sid)

/-- SUBSCRIBE (R359): a new subscription takes the lowest free number, a full table is BUSY, zero masks end it. -/
def Sys2Proof.Claims.SubscribeTakesLowestNumber : Prop :=
  ∀ (h : EdpHdr) (x : Session) (s : State) (kinds classes : BitVec 16),
    Accepts h (.subscribe kinds classes) 4 x s → h.seq ≠ 0xFFFFFFFF →
    (¬ (kinds = 0 ∧ classes = 0) → (∀ y ∈ s.edp.subs, y.2.sid ≠ x.sid) → ∀ k < 32,
      (∀ y ∈ s.edp.subs, y.1 ≠ k) → (∀ j < k, ∃ y ∈ s.edp.subs, y.1 = j) →
      ∃ t, exec (.subscribe h kinds classes) s = .next t ∧ Leaves h s t ∧ Acked h (statusAck OK 0 0 0) t
        ∧ (k, (⟨x.sid, kinds, classes, h.transport, h.peer, [], 0, 0⟩ : Subscription)) ∈ t.edp.subs
        ∧ ∀ y ∈ s.edp.subs, y ∈ t.edp.subs)
    ∧ (¬ (kinds = 0 ∧ classes = 0) → (∀ y ∈ s.edp.subs, y.2.sid ≠ x.sid) →
      (∀ j < 32, ∃ y ∈ s.edp.subs, y.1 = j) →
      ∃ t, exec (.subscribe h kinds classes) s = .next t ∧ Leaves h s t ∧ Acked h (statusAck BUSY 0 0 0) t
        ∧ t.edp.subs = s.edp.subs)
    ∧ (kinds = 0 → classes = 0 → ∃ t, exec (.subscribe h kinds classes) s = .next t ∧ Leaves h s t
        ∧ Acked h (statusAck OK 0 0 0) t ∧ t.edp.subs = s.edp.subs.filter fun y => y.2.sid != x.sid)

/-- Events (R361): an acknowledged event leaves the queue; an unacknowledged one is sent again, and after ten resends it is
dropped and counted. -/
def Sys2Proof.Claims.EventsAreAckedOrResent : Prop :=
  ∀ (s : State) (k n : Nat) (y : Subscription),
    s.edp.subs.find? (fun z => z.1 == k) = some (k, y) → (s.edp.subs.map (·.1)).Nodup →
    (∀ (h : EdpHdr) (x : Session), Accepts h (.ack n) 0 x s → s.edp.subs.find? (fun z => z.2.sid == x.sid) = some (k, y) →
      n ≤ x.txSeq → ∃ t, exec (.eventAck h n) s = .next t ∧ t = { s with edp := t.edp, tx := t.tx }
        ∧ ∀ z, t.edp.subs.find? (fun z => z.1 == k) = some (k, z) → ∀ e ∈ z.queue, e.seq ≠ some n)
    ∧ (∀ e, y.queue.find? (fun e => e.seq == some n) = some e → e.resends < 10 →
      ∃ t, exec (.eventResendTimer k n) s = .next t ∧ t = { s with edp := t.edp, tx := t.tx }
        ∧ t.tx = s.tx ++ [.event y.transport y.peer y.sid n { e with resends := e.resends + 1 }])
    ∧ (∀ e, y.queue.find? (fun e => e.seq == some n) = some e → 10 ≤ e.resends → e.kind ≠ 6 →
      ∃ t, exec (.eventResendTimer k n) s = .next t ∧ t = { s with edp := t.edp, tx := t.tx, counters := t.counters }
        ∧ t.counter 0x1100 0x0A = satAdd 64 (s.counter 0x1100 0x0A) 1)
    ∧ (y.queue.find? (fun e => e.seq == some n) = none → exec (.eventResendTimer k n) s = .next s)

/-- Subscriptions take numbers; events are acknowledged or resent. -/
def Obligations.SubscriptionsAndEvents : Prop :=
  Claims.SubscribeTakesLowestNumber
    ∧ Claims.EventsAreAckedOrResent

/-- Relay (R343): a request for another device goes out on the fabric and is remembered, or is dropped and counted where no
path is usable; its acknowledgment goes back to the driver; a record expires. -/
def Obligations.RelayRemembersRequests : Prop :=
  ∀ (h : EdpHdr) (body : EdpBody) (s : State),
    (s.stewardUp = true → s.reaches h.transport = true → msgOk h (bodySize body) = true → s.elsewhere h = true →
      (∀ n, body ≠ .ack n) →
      (s.pathTo h.target = true → ∃ t, exec (.relayRequest h body) s = .next t ∧ .relay h.target h body ∈ t.tx
        ∧ t.edp.relays = s.edp.relays.filter (fun r => !(r.1 == h.target && r.2.1 == h.session && r.2.2.1 == h.seq))
            ++ [(h.target, h.session, h.seq, h.transport, h.peer)]
        ∧ t.edp = { s.edp with relays := t.edp.relays } ∧ t.counter 0x1100 8 = satAdd 64 (s.counter 0x1100 8) 1
        ∧ t = { s with edp := t.edp, tx := t.tx, counters := t.counters, fab := t.fab })
      ∧ (s.pathTo h.target = false → ∃ t, exec (.relayRequest h body) s = .next t
        ∧ t = { s with counters := t.counters } ∧ t.counter 0x1100 9 = satAdd 64 (s.counter 0x1100 9) 1))
    ∧ (∀ dev n tr peer, body = .ack n →
      s.edp.relays.find? (fun r => r.1 == dev && r.2.1 == h.session && decide (n = r.2.2.1)) = some (dev, h.session, n, tr, peer) →
      ∃ t, exec (.relayPacket dev h body) s = .next t ∧ t.tx = s.tx ++ [.relayBack tr peer h body]
        ∧ t.edp.relays = s.edp.relays.filter (fun r => r != (dev, h.session, n, tr, peer))
        ∧ t = { s with tx := t.tx, edp := { s.edp with relays := t.edp.relays } })
    ∧ (∀ dev idx sub, body = .read idx sub →
      exec (.relayPacket dev h body) s = exec (.read { h with transport := .relay dev } idx sub) s)
    ∧ (∀ dev idx sub ty val, body = .write idx sub ty val → ownCommand body = false →
      exec (.relayPacket dev h body) s = exec (.writeEntry { h with transport := .relay dev } idx sub ty val) s)
    ∧ (∀ target sid n, ∃ t, exec (.relayRecordExpiry target sid n) s = .next t
        ∧ t = { s with edp := { s.edp with relays := t.edp.relays } }
        ∧ ∀ r, r ∈ t.edp.relays ↔ r ∈ s.edp.relays ∧ ¬ (r.1 = target ∧ r.2.1 = sid ∧ r.2.2.1 = n))

/-- A session that closes takes its subscriptions and holds with it (R351): on the driver's command, after its idle time, and
when no tagged message came within 10 s of its hello (R350). -/
def Sys2Proof.Claims.ClosedSessionsLeaveNothing : Prop :=
  ∀ (s : State) (sid : BitVec 32),
    let gone (t : State) : Prop := t.session sid = none ∧ (∀ y ∈ t.edp.subs, y.2.sid ≠ sid) ∧ ∀ d ∈ t.edp.holds, d.sid ≠ sid
    (∀ h x, SendsWrite h 0x1100 0x12 tU32 (leBytes 4 sid.toNat) x s → ∃ t, exec (.closeSession h sid) s = .next t
      ∧ Acked h (statusAck OK 0x1100 0x12 tU32) t ∧ Leaves h s t ∧ gone t)
    ∧ (∀ x, s.session sid = some x → ∃ t, exec (.sessionIdleTimeout sid) s = .next t ∧ gone t
      ∧ t.localUs = max s.localUs (x.lastRx + 1000000 * s.regs.idleTime)
      ∧ t.body = { s with localUs := t.localUs }.body)
    ∧ (∀ x, s.session sid = some x → x.tagged = false → ∃ t, exec (.helloTagTimeout sid) s = .next t ∧ gone t
      ∧ t.localUs = max s.localUs (x.opened + 10000000) ∧ t.body = { s with localUs := t.localUs }.body)
    ∧ (∀ x, s.session sid = some x → x.tagged = true → exec (.helloTagTimeout sid) s = .next s)

/-- A hold without a chunk for 10 s is given up (R353). -/
def Sys2Proof.Claims.HoldsTimeOut : Prop :=
  ∀ (s : State) (idx sub : Nat) (d : Hold), s.hold? idx sub = some d →
    ∃ t, exec (.writeBlockHoldTimeout idx sub) s = .next t ∧ t.hold? idx sub = none
      ∧ t.localUs = max s.localUs (d.last + 10000000) ∧ t.edp = { s.edp with holds := t.edp.holds }
      ∧ (∀ i k, (i, k) ≠ (idx, sub) → t.hold? i k = s.hold? i k) ∧ t.body = { s with localUs := t.localUs }.body

/-- A session that ends takes its subscriptions and holds with it. -/
def Obligations.ClosedSessionsLeaveNothing : Prop :=
  Claims.ClosedSessionsLeaveNothing
    ∧ Claims.HoldsTimeOut

/-- A client hello (R350): an enrolled key with a right no higher than its own opens one new session under a fresh nonzero
identifier; any other hello opens none. -/
def Obligations.HelloOpensSession : Prop :=
  ∀ (h : EdpHdr) (hello : Hello) (s : State), s.stewardUp = true → s.reaches h.transport = true → msgOk h 286 = true →
    s.elsewhere h = false → h.session = 0 →
    (∀ r ∈ s.edp.hellos, ¬ (r.transport = h.transport ∧ r.peer = h.peer ∧ r.seq = h.seq ∧ r.hello = hello)) →
    ((∃ r, keyRight s hello.keyDigest = some r ∧ hello.right ≤ r) → hello.sigOk = true → s.edp.sessions.length < 16 →
      ∃ t x a, exec (.clientHello h hello) s = .next t ∧ t.edp.sessions = s.edp.sessions ++ [x] ∧ x.sid ≠ 0
        ∧ (∀ y ∈ s.edp.sessions, y.sid ≠ x.sid) ∧ x.right = hello.right ∧ x.key = hello.keyDigest ∧ x.tagged = false
        ∧ Acked h a t ∧ a.status = OK ∧ Leaves h s t)
    ∧ ((∀ r, keyRight s hello.keyDigest = some r → r < hello.right) ∨ hello.sigOk = false →
      ∃ t, exec (.clientHello h hello) s = .next t ∧ t.edp = s.edp ∧ Leaves h s t
        ∧ Acked h (ackStatus ACCESS_DENIED 0x1100 0x10) t)
    ∧ ((∃ r, keyRight s hello.keyDigest = some r ∧ hello.right ≤ r) → hello.sigOk = true → 16 ≤ s.edp.sessions.length →
      ∃ t, exec (.clientHello h hello) s = .next t ∧ t.edp = s.edp ∧ Leaves h s t
        ∧ Acked h (ackStatus BUSY 0x1100 0x10) t)

/-- A repeated request gets its recorded acknowledgment again and nothing is carried out twice (R347); another request under
a used number is discarded and counted. -/
def Obligations.RepeatsAreNotCarriedOut : Prop :=
  ∀ (h : EdpHdr) (s : State) (x : Session) (idx sub ty : Nat) (val : Bytes) (b : EdpBody) (a : Ack),
    s.stewardUp = true → s.reaches h.transport = true → msgOk h (4 + val.length) = true → s.elsewhere h = false →
    h.session ≠ 0 → s.session h.session = some x → h.tagOk = true → ownCommand (.write idx sub ty val) = false →
    x.cache.find? (fun c => c.1 == h.seq) = some (h.seq, b, a) →
    (b = .write idx sub ty val → ∃ t, exec (.writeEntry h idx sub ty val) s = .next t ∧ Acked h a t ∧ Leaves h s t
      ∧ t.edp.subs = s.edp.subs ∧ t.edp.holds = s.edp.holds)
    ∧ (b ≠ .write idx sub ty val → ∃ t, exec (.writeEntry h idx sub ty val) s = .next t ∧ t.tx = s.tx
      ∧ t.counter 0x1100 7 = satAdd 64 (s.counter 0x1100 7) 1 ∧ t.body = { s with counters := t.counters }.body)

/-! ## Security, log and results -/

/-- The ownership statements (R424, R426): each takes effect where the state of the module and its signatures allow it, and
the statement counter becomes the statement's. -/
def Sys2Proof.Claims.StatementsChangeOwnership : Prop :=
  ∀ (h : EdpHdr) (x : Session) (s : State) (st : Statement),
    let sends (sub ty : Nat) : Prop :=
      Accepts h (.write 0x8001 sub tOCTETS (stmtBytes { st with stype := ty })) (4 + if sub = 1 then 320 else 176) x s
        ∧ x.right = 1 ∧ s.heldElse x 0x8001 sub = false ∧ stmtEncodingOk sub { st with stype := ty } = true
        ∧ stmtSigned s { st with stype := ty } = true ∧ stmtWriter s x.key { st with stype := ty } = true
    let done (i : Instr) (sub : Nat) (sec : Sec) : Prop :=
      ∃ t, exec i s = .next t ∧ Acked h (statusAck OK 0x8001 sub tOCTETS) t ∧ t.sec = sec
        ∧ t.job = s.job ∧ t.dev = s.dev ∧ t.mm.mem = s.mm.mem ∧ t.log = s.log ∧ t.recipe = s.recipe
    let key := Config.sha384 st.key
    (sends 1 1 → s.sec.state = 0 → done (.enrolOwner h st) 1
      { s.sec with state := 1, owner := key, ctr := st.ctr, clients := tset s.sec.clients 0 (key, 1) })
    ∧ (sends 1 1 → s.sec.state = 1 → done (.enrolOwner h st) 1 { s.sec with owner := key, ctr := st.ctr })
    ∧ (sends 1 2 → s.sec.state = 1 ∨ s.sec.state = 2 → done (.enrolClient h st) 1
      { s.sec with ctr := st.ctr, clients := tset s.sec.clients st.slot (key, st.right) })
    ∧ (sends 1 3 → s.sec.state = 1 → s.job.st = .idle → done (.release h st) 1
      { s.sec with state := 0, owner := [], ctr := st.ctr, clients := [(0, (Config.factoryKeyDigest, 1))] })
    ∧ (sends 1 4 → s.sec.state = 1 → done (.lock h st) 1 { s.sec with state := 2, ctr := st.ctr })
    ∧ (sends 2 5 → s.sec.state = 1 ∨ s.sec.state = 2 → done (.revoke h st) 2
      { s.sec with ctr := st.ctr, clients := s.sec.clients.filter fun c => c.2.1 != st.key })

/-- A statement whose signature or counter fails is refused and logged, one that is not legal in the present state is
refused; ownership does not change (R426). -/
def Sys2Proof.Claims.BadStatementsAreRefused : Prop :=
  ∀ (h : EdpHdr) (x : Session) (s : State) (st : Statement),
    let st1 : Statement := { st with stype := 1 }
    Accepts h (.write 0x8001 1 tOCTETS (stmtBytes st1)) 324 x s → x.right = 1 → s.heldElse x 0x8001 1 = false →
    stmtEncodingOk 1 st1 = true →
    (s.sec.state = 0 ∨ s.sec.state = 1 → st.ctr ≤ s.sec.ctr ∨ st.sig1Ok = false ∨ st.sig2Ok = false →
      ∃ t, exec (.enrolOwner h st) s = .next t ∧ Acked h (statusAck SIGNATURE_BAD 0x8001 1 tOCTETS) t ∧ t.sec = s.sec
        ∧ Logged SIGNATURE_BAD ([2, 1] ++ w64 st.ctr) s t)
    ∧ (s.sec.state = 2 → ∃ t, exec (.enrolOwner h st) s = .next t
      ∧ Acked h (statusAck ACCESS_DENIED 0x8001 1 tOCTETS) t ∧ t.sec = s.sec ∧ Leaves h s t)

/-- An attestation nonce (R430): the session that wrote it can read a report over it. -/
def Sys2Proof.Claims.NonceGivesReport : Prop :=
  ∀ (h : EdpHdr) (x : Session) (s : State) (nonce : Bytes), SendsWrite h 0x8010 1 tOCTETS nonce x s → nonce.length = 32 →
    h.seq ≠ 0xFFFFFFFF → ∃ t y, exec (.attestationNonce h nonce) s = .next t
      ∧ Acked h (statusAck OK 0x8010 1 tOCTETS) t ∧ Leaves h s t ∧ t.session x.sid = some y
      ∧ y.report = some (report s nonce)

/-- Ownership statements and attestation. -/
def Obligations.StatementsChangeOwnership : Prop :=
  Claims.StatementsChangeOwnership
    ∧ Claims.BadStatementsAreRefused
    ∧ Claims.NonceGivesReport

/-- CLEAR_LOG_RING and CLEAR_FAULT_LOG (R382) empty one log each; CONSUME (R358) acts on the value whose number it names. -/
def Obligations.ResultsAreConsumedByNumber : Prop :=
  ∀ (h : EdpHdr) (x : Session) (s : State),
    (SendsWrite h 0xA000 7 tU8 [1] x s → ∃ t, exec (.clearLogRing h) s = .next t
      ∧ Acked h (statusAck OK 0xA000 7 tU8) t ∧ Leaves h { s with log := { s.log with ring := [] } } t)
    ∧ (SendsWrite h 0xA000 7 tU8 [2] x s → ∃ t, exec (.clearFaultLog h) s = .next t
      ∧ Acked h (statusAck OK 0xA000 7 tU8) t ∧ Leaves h { s with log := { s.log with fault := [] } } t)
    ∧ (∀ k q, k < 64 → q < 2 ^ 64 → SendsWrite h (0x5400 + k) 4 tU64 (leBytes 8 q) x s →
      ((s.slot k).state ≠ 0 → (s.slot k).seq = q → ∃ t, exec (.consume h k q) s = .next t
        ∧ Acked h (statusAck OK (0x5400 + k) 4 tU64) t ∧ t.slot k = { s.slot k with state := 2 }
        ∧ (∀ j, j ≠ k → t.slot j = s.slot j) ∧ Leaves h { s with results := t.results } t)
      ∧ ((s.slot k).state ≠ 0 → (s.slot k).seq ≠ q → ∃ t, exec (.consume h k q) s = .next t
        ∧ Acked h (statusAck BUSY (0x5400 + k) 4 tU64) t ∧ Leaves h s t)
      ∧ ((s.slot k).state = 0 → ∃ t, exec (.consume h k q) s = .next t
        ∧ Acked h (statusAck NOT_READY (0x5400 + k) 4 tU64) t ∧ Leaves h s t))

/-! ## Power, bring-up and self-test -/

/-- SLEEP (R35, R104, R307, R369, R402, Table 17.9): from READY without a live job and with no self-test waiting; pantries are
written back and emptied, on-chip memories lose their content, main memory keeps its own, ports with a peer go to their
keep-alive lane; BUSY otherwise. `u`: what the command leaves before its ACK. -/
def Sys2Proof.Claims.SleepKeepsMainMemory : Prop :=
  ∀ (h : EdpHdr) (x : Session) (s : State), SendsCode h 0x2200 1 1 x s →
    (s.dev.st = .ready → s.job.st.live = false → s.dev.test.state ≠ 1 → s.dev.test.state ≠ 2 →
      ∃ t u, exec (.sleep h) s = .next t ∧ Acked h (statusAck OK 0x2200 1 tU8) t ∧ Leaves h u t
        ∧ u.dev = { s.dev with st := .sleep, hostUp := [false, false] } ∧ u.gov = { s.gov with vcore := [0, 0, 0, 0] }
        ∧ u.mm.up = false ∧ u.mm.mem = s.mm.mem ∧ u.mm.pages = s.mm.pages
        ∧ (∀ k w, (k, w) ∈ u.mm.pantry → w.ways = []) ∧ u.cores = [] ∧ u.leaven.starters = [] ∧ u.conns = []
        ∧ (∀ p < 48, (s.port p).state = 3 ∨ (s.port p).state = 4 ∨ (s.port p).state = 6 ∨ (s.port p).state = 7 →
            (u.port p).state = 5 ∧ (u.port p).lanes = 1)
        ∧ Logged 0 [6] s u
        ∧ u.regs = s.regs ∧ u.sec = s.sec ∧ u.recipe = s.recipe ∧ u.results = s.results ∧ u.job.st = s.job.st
        ∧ u.job.committed = s.job.committed ∧ u.pins = s.pins)
    ∧ (s.dev.st ≠ .ready ∨ s.job.st.live = true ∨ s.dev.test.state = 1 ∨ s.dev.test.state = 2 →
      ∃ t, exec (.sleep h) s = .next t ∧ Acked h (statusAck BUSY 0x2200 1 tU8) t ∧ Leaves h s t)

/-- What an accepted wake leaves (R307, R402, Table 12.8, orders 2 to 5): power and main memory are back, every wired port
trains anew; a recipe whose container was found damaged halts (R310). READY comes with the last port: at once where none is
wired. -/
def Sys2Proof.Claims.WakeBegun (s u : State) : Prop :=
  u.mm.up = true ∧ u.mm.mem = s.mm.mem ∧ u.gov.vcore = [550, 550, 550, 550]
    ∧ (∀ p < 48, (s.roleOf p).isSome = true → (u.port p).state = 2 ∧ (u.port p).lanes = 0)
    ∧ u.fab.waking = u.portsTrain ∧ u.dev.st = (if u.portsTrain then .sleep else .ready)
    ∧ (s.recipe.damaged = false ∨ s.recipe.loaded = none → u.job.st = s.job.st)
    ∧ (s.recipe.damaged = true → s.recipe.loaded.isSome = true → s.job.st = .loaded →
        u.job.st = .halted ∧ u.job.haltCode = ECC_UNCORRECTABLE)
    ∧ u.regs = s.regs ∧ u.sec = s.sec ∧ u.recipe = s.recipe ∧ u.results = s.results
    ∧ u.job.committed = s.job.committed

/-- Wake (R307, R402, Table 12.8), by the command or by a packet of another device: the ports retrain, and with the last of
them the device is READY (`PortSignalsActOnOnePort`, `IdentityDecidesPort`). A wake under way is not begun again; a device
that does not sleep ignores the packet. `u`: what the command leaves before its ACK. -/
def Sys2Proof.Claims.WakeRestoresReady : Prop :=
  ∀ (s : State),
    (∀ h x, SendsCode h 0x2200 1 2 x s → s.dev.st = .sleep → s.fab.waking = false →
      ∃ t u, exec (.wake h) s = .next t ∧ Acked h (statusAck OK 0x2200 1 tU8) t ∧ Leaves h u t ∧ Claims.WakeBegun s u)
    ∧ (∀ h x, SendsCode h 0x2200 1 2 x s → s.dev.st = .sleep → s.fab.waking = true →
      ∃ t, exec (.wake h) s = .next t ∧ Acked h (statusAck OK 0x2200 1 tU8) t ∧ Leaves h s t)
    ∧ (∀ h x, SendsCode h 0x2200 1 2 x s → s.dev.st ≠ .sleep →
      ∃ t, exec (.wake h) s = .next t ∧ Acked h (statusAck BUSY 0x2200 1 tU8) t ∧ Leaves h s t)
    ∧ (∀ src, src < 4096 → s.dev.st = .sleep → s.fab.waking = false →
      ∃ t, exec (.wakePacket src) s = .next t ∧ Claims.WakeBegun s t)
    ∧ (∀ src, s.dev.st ≠ .sleep ∨ s.fab.waking = true ∨ 4096 ≤ src → exec (.wakePacket src) s = .next s)

/-- SLEEP keeps main memory, and a wake brings it back. -/
def Obligations.SleepAndWake : Prop :=
  Claims.SleepKeepsMainMemory
    ∧ Claims.WakeRestoresReady

/-- STANDBY and PROOF (R369, R370, R387, R404): the power-state commands that take main power down or prove the device. -/
def Obligations.StandbyAndProof : Prop :=
  ∀ (h : EdpHdr) (x : Session) (s : State),
    (SendsCode h 0x2200 1 3 x s → s.dev.st = .ready ∨ s.dev.st = .sleep ∨ s.dev.st = .proofing →
      ∃ t, exec (.standby h) s = .next t ∧ Acked h (statusAck OK 0x2200 1 tU8) t ∧ PoweredDown s t)
    ∧ (SendsCode h 0x2200 1 3 x s → s.dev.st = .standby ∨ s.dev.st = .active →
      ∃ t, exec (.standby h) s = .next t ∧ Acked h (statusAck BUSY 0x2200 1 tU8) t ∧ Leaves h s t)
    ∧ (SendsCode h 0x2200 1 4 x s → s.dev.st = .standby → s.powerAllowed = true →
      ∃ t, exec (.proof h) s = .next t ∧ Acked h (statusAck OK 0x2200 1 tU8) t ∧ t.dev.st = .proofing ∧ t.dev.stage = 1
        ∧ t.dev.reason = 0 ∧ t.dev.test.state = 2 ∧ t.regs = s.regs ∧ t.sec = s.sec ∧ t.job = s.job ∧ t.pins = s.pins)
    ∧ (SendsCode h 0x2200 1 4 x s → (s.dev.st = .ready ∧ s.job.st.live = false)
        ∨ (s.dev.st = .proofing ∧ s.dev.proofFailed = true) →
      ∃ t, exec (.proof h) s = .next t ∧ Acked h (statusAck OK 0x2200 1 tU8) t ∧ t.dev.st = .proofing ∧ t.dev.stage = 1
        ∧ t.dev.proofFailed = false ∧ t.dev.mainUp = false ∧ t.mm.mem = [] ∧ t.recipe = Recipe.reset ∧ t.job.st = .idle
        ∧ t.regs = s.regs ∧ t.sec = s.sec)
    ∧ (SendsCode h 0x2200 1 4 x s → (s.dev.st = .standby ∧ s.powerAllowed = false) ∨ s.dev.st = .active
        ∨ s.dev.st = .sleep ∨ (s.dev.st = .ready ∧ s.job.st.live = true)
        ∨ (s.dev.st = .proofing ∧ s.dev.proofFailed = false) →
      ∃ t, exec (.proof h) s = .next t ∧ Acked h (statusAck BUSY 0x2200 1 tU8) t ∧ Leaves h s t)

/-- Proofing passes (R16, R395, R403, R419): the device is READY at stage 7 with a core map that gives each logical core the
lowest healthy physical cores, main memory zero, and the firmware floor no lower than the running version. -/
def Obligations.ProofingPasses : Prop :=
  ∀ (p : ProofInput) (s : State), s.dev.st = .proofing → s.dev.proofFailed = false → s.dev.stage = 1 → p.railFail = none →
    p.unitFail = none → (∀ h < 4, waysFail p.badWays h = false) → (∀ c < 24, p.rates.getD c 0 ≠ 0) →
    ∃ t, exec (.proofing p) s = .next t ∧ t.dev.st = .ready ∧ t.dev.stage = 7 ∧ t.dev.reason = 0 ∧ t.dev.test.state = 3
      ∧ t.dev.mainUp = true ∧ t.gov.vcore = [550, 550, 550, 550] ∧ t.mm.mem = [] ∧ t.mm.up = true
      ∧ t.sec = { s.sec with floor := max s.sec.floor s.dev.runningSvn } ∧ t.regs = s.regs
      ∧ (∀ h < 4, ∀ c < 96, t.dev.map.getD (96 * h + c) 0 =
          (((List.range 100).filter fun q => !(p.badCores.map (·.1)).contains (100 * h + q)).getD c 0xFF))
      ∧ (∀ q < 48, (t.port q).state ≠ 2)

/-- Proofing fails (R387, R404, Tables 18.1 and 18.3): the device stays in PROOFING and shows the stage and the unit. -/
def Obligations.ProofingFails : Prop :=
  ∀ (p : ProofInput) (s : State), s.dev.st = .proofing → s.dev.proofFailed = false → s.dev.stage = 1 →
    let failed (t : State) (stage hearth unit : Nat) : Prop := t.dev.st = .proofing ∧ t.dev.proofFailed = true
      ∧ t.dev.stage = stage ∧ t.dev.reason = stage * 4096 + hearth * 256 + unit ∧ t.dev.test.state = 4
      ∧ t.sec = s.sec ∧ t.regs = s.regs
    (∀ row h, p.railFail = some (row, h) → ∃ t, exec (.proofing p) s = .next t
      ∧ failed t 2 (if row = 7 then h else 15) row ∧ t.dev.mainUp = false)
    ∧ (∀ h u, p.railFail = none → p.unitFail = some (h, u) → ∃ t, exec (.proofing p) s = .next t ∧ failed t 3 h u)
    ∧ (∀ c, p.railFail = none → p.unitFail = none → (∀ h < 4, waysFail p.badWays h = false) → c < 24 →
      p.rates.getD c 0 = 0 → (∀ d < c, p.rates.getD d 0 ≠ 0) →
      ∃ t, exec (.proofing p) s = .next t ∧ failed t 4 (c / 6) c)
    ∧ (∀ row h, s.dev.mainUp = false → ∃ t, exec (.railTimeout row h) s = .next t
      ∧ failed t 2 (if row = 7 then h else 15) row ∧ t.dev.mainUp = false)

/-- Self-test commands (R379, R413): taken in READY and ACTIVE while none waits or runs, an immediate one not beside a live
job; the save areas of their hearths are reserved, what the pantries hold there written back. `u`: what the command leaves
before its ACK. -/
def Sys2Proof.Claims.SelfTestIsTakenOnce : Prop :=
  ∀ (h : EdpHdr) (x : Session) (s : State) (n : Nat), n ≤ 0x17F ∨ (0x8000 ≤ n ∧ n < 0x8000 + 400) ∨ n = 0xFFFF →
    let queued := SendsWrite h 0x7000 0 tU32 (leBytes 4 (0x10000 + n)) x s
    let immediate := SendsWrite h 0x7000 0 tU32 (leBytes 4 (0x20000 + n)) x s
    let refuses (i : Instr) (code : Nat) : Prop :=
      ∃ t, exec i s = .next t ∧ Acked h (statusAck code 0x7000 0 tU32) t ∧ Leaves h s t
    let hs := sliceHearths (s.targetSlices n)
    let takes (i : Instr) (state : Nat) : Prop :=
      ∃ t u, exec i s = .next t ∧ Acked h (statusAck OK 0x7000 0 tU32) t ∧ Leaves h u t
        ∧ u.body = { s with mm := u.mm, dev := { s.dev with
            test := { state := state, target := n, slices := s.targetSlices n, running := false } } }.body
        ∧ u.mm.saving = hs ∧ u.mm.mem = s.mm.mem ∧ u.mm.pages = s.mm.pages
        ∧ ∀ k w e, (k, w) ∈ u.mm.pantry → e ∈ w.ways → k / 49152 ∈ hs →
            s.mm.saveWay (k / 49152) (k % 49152) ≠ some e.1
    let free := s.dev.test.state ≠ 1 ∧ s.dev.test.state ≠ 2
    let may := s.dev.st = .ready ∨ s.dev.st = .active
    (queued → may → free → s.targetGone n = false → takes (.selfTestQueued h n) (if s.job.st.live then 1 else 2))
    ∧ (immediate → may → s.job.st.live = false → free → s.targetGone n = false → takes (.selfTestImmediate h n) 2)
    ∧ (immediate → may → s.job.st.live = true → refuses (.selfTestImmediate h n) BUSY)
    ∧ (queued → may → ¬ free → refuses (.selfTestQueued h n) BUSY)
    ∧ (queued → may → free → s.targetGone n = true → refuses (.selfTestQueued h n) TYPE_MISMATCH)
    ∧ (immediate → may → s.job.st.live = false → ¬ free → refuses (.selfTestImmediate h n) BUSY)
    ∧ (immediate → may → s.job.st.live = false → free → s.targetGone n = true →
      refuses (.selfTestImmediate h n) TYPE_MISMATCH)
    ∧ (queued → ¬ may → refuses (.selfTestQueued h n) NOT_READY)
    ∧ (immediate → ¬ may → refuses (.selfTestImmediate h n) NOT_READY)

/-- One slice of a self-test (R412, R413, R415, R416, Table 18.6): it is counted; the last that passes ends the command PASSED
and frees the save areas, one that fails ends it FAILED and takes its core out of use; an uncorrectable save line is counted
and, in a step, ends the attempt. -/
def Sys2Proof.Claims.SlicesEndTheCommand : Prop :=
  ∀ (u k : Nat) (rest : List (Nat × Nat)) (r : BistResult) (s : State), s.dev.st = .ready ∨ s.dev.st = .active →
    s.dev.test.state = 1 ∨ s.dev.test.state = 2 → s.dev.test.slices = (u, k) :: rest → s.sliceMay u k = true →
    (r.pass = true → r.saveBad = false → ∃ t, exec (.bistSlice r) s = .next t ∧ t.dev.test.slices = rest
      ∧ t.dev.test.state = (if rest = [] then 3 else 2) ∧ t.counter 0x7200 0x0B = satAdd 64 (s.counter 0x7200 0x0B) 1
      ∧ t.localUs = s.localUs + s.sliceUs u k
      ∧ (rest = [] → t.mm.saving = []) ∧ t.mm = { s.mm with saving := t.mm.saving }
      ∧ t = { s with localUs := t.localUs, counters := t.counters, mm := t.mm, dev := { s.dev with test := t.dev.test } })
    ∧ (r.pass = true → r.saveBad = true → sliceKib u k ≠ 0 → ∃ t, exec (.bistSlice r) s = .next t
      ∧ t.dev.test.slices = rest ∧ t.counter 0x7200 5 = satAdd 64 (s.counter 0x7200 5) 1
      ∧ t.counter 0x7200 0x0B = satAdd 64 (s.counter 0x7200 0x0B) 1
      ∧ (k ≠ 14 → CanRepeat s → t.job.attempt = s.job.attempt + 1 ∧ t.job.st = .repeating)
      ∧ (k = 14 ∨ s.inStep = false → t.job.st = s.job.st ∧ t.job.attempt = s.job.attempt) ∧ t.regs = s.regs ∧ t.sec = s.sec)
    ∧ (r.pass = false → ∃ t, exec (.bistSlice r) s = .next t ∧ t.dev.test.state = 4 ∧ t.dev.test.slices = []
      ∧ t.dev.reason = s.dev.test.target ∧ t.counter 0x7200 0x0B = satAdd 64 (s.counter 0x7200 0x0B) 1
      ∧ (∀ p, s.slicePhys u = some p → s.dev.mainUp = true → p < 400 → s.dev.phys.length = 400 →
          t.dev.phys.getD p 3 = 2)
      ∧ t.regs = s.regs ∧ t.sec = s.sec)

/-- Self-test commands are taken one at a time and run by slices. -/
def Obligations.SelfTestsRunBySlices : Prop :=
  Claims.SelfTestIsTakenOnce
    ∧ Claims.SlicesEndTheCommand

/-- PWR_EN rises (R387, R449): proofing begins from STANDBY when it is enabled; a level already high changes nothing. -/
def Sys2Proof.Claims.PowerEnableStartsProofing : Prop :=
  ∀ (s : State),
    (s.pins.pwrEn = false → s.dev.st = .standby → s.stewardUp = true → s.pins.thermTrip = false → s.regs.autoProof = true →
      ∃ t, exec .pwrEnRise s = .next t ∧ t.pins = { s.pins with pwrEn := true, interlockOpen := false, latch := false }
        ∧ t.dev.st = .proofing ∧ t.dev.stage = 1 ∧ t.dev.test.state = 2 ∧ t.regs = s.regs ∧ t.sec = s.sec
        ∧ t.job = s.job ∧ t.mm = s.mm)
    ∧ (s.pins.pwrEn = false → s.dev.st ≠ .standby ∨ s.regs.autoProof = false →
      ∃ t, exec .pwrEnRise s = .next t ∧ t = { s with pins := t.pins } ∧ t.pins.pwrEn = true)
    ∧ (s.pins.pwrEn = true → exec .pwrEnRise s = .next s)

/-- What takes main power down (R384, R388, R389, R401, R446, R449, R450): a falling PWR_EN, an open interlock, a thermal
trip, a rail fault, an input voltage outside 40 to 58 V, and RESET_N. -/
def Sys2Proof.Claims.PowerGoesDown : Prop :=
  ∀ (s : State), s.dev.st.powered →
    (∃ t, exec .pwrEnFall s = .next t ∧ PoweredDown s t ∧ t.pins.pwrEn = false ∧ t.pins.thermTrip = false
      ∧ t.pins.latch = false)
    ∧ (∃ t, exec .interlockOpen s = .next t ∧ PoweredDown s t ∧ t.pins.interlockOpen = true ∧ t.pins.latch = true
      ∧ (s.dev.st = .proofing → t.dev.test.state = s.dev.test.state))
    ∧ (s.dev.mainUp = true → ∃ t, exec .thermalTrip s = .next t ∧ PoweredDown s t ∧ t.pins.thermTrip = true)
    ∧ (∀ row, s.dev.mainUp = true → ∃ t, exec (.railFault row) s = .next t ∧ PoweredDown s t ∧ t.pins.latch = true
      ∧ Logged 0 [2, row] s t)
    ∧ (∀ mv, (30000 ≤ mv ∧ mv < 40000) ∨ (58000 < mv ∧ mv ≤ 60000) →
      ∃ t, exec (.inputVoltageFault mv) s = .next t ∧ PoweredDown s t ∧ t.pins.alert = true ∧ t.gov.inputFault = true)
    ∧ (∃ t, exec .resetNAssert s = .next t ∧ PoweredDown s t ∧ t.pins.resetAsserted = true ∧ t.log.ring = [])

/-- What raises main power and what takes it down. -/
def Obligations.MainPowerGoesUpAndDown : Prop :=
  Claims.PowerEnableStartsProofing
    ∧ Claims.PowerGoesDown

/-- The input (R384, Table 16.4, Table 17.1): outside 44 to 58 V it alerts, without the 50 V the module is OFF, and above
60.0 V the manual guarantees nothing: the model stops. -/
def Obligations.InputVoltage : Prop :=
  ∀ (s : State) (mv : Nat),
    (s.dev.st ≠ .off → 40000 ≤ mv → mv < 44000 → ∃ t, exec (.inputVoltageFault mv) s = .next t
      ∧ t.gov = { s.gov with inputMv := mv, inputFault := true, alertClearAt := none }
      ∧ t = { s with gov := t.gov, pins := { s.pins with alert := true } })
    ∧ (s.dev.st ≠ .off → 44000 ≤ mv → mv ≤ 58000 → ∃ t, exec (.inputVoltageFault mv) s = .next t
      ∧ t.gov.inputFault = false ∧ t.gov.inputMv = mv ∧ t.dev = s.dev ∧ t.job = s.job ∧ t.mm = s.mm)
    ∧ (s.dev.st ≠ .off → ∃ t, exec .inputLoss s = .next t ∧ t.dev.st = .off ∧ t.pins.stbyGood = false
      ∧ t.pins.pwrEn = s.pins.pwrEn ∧ t.edp.sessions = [] ∧ t.log.ring = [] ∧ t.log.fault = s.log.fault
      ∧ t.regs = { s.regs with resumeStep := 0 } ∧ t.sec = s.sec ∧ t.mm.mem = [])
    ∧ (s.dev.st ≠ .off → mv < 30000 → exec (.inputVoltageFault mv) s = exec .inputLoss s)
    ∧ (60000 < mv → exec (.inputVoltageFault mv) s = .fault .absoluteMaximum)

/-- Boot (R8, R387, R418 to R420, R450, R451): the local count starts at 0, SLOT_ID is sampled, and the active bank runs if
it verifies; with no bank that verifies the boot has failed; a PWR_EN already high is ignored and alerts. -/
def Obligations.BootChain : Prop :=
  ∀ (s : State) (slot : Nat) (a b : Bool),
    let act (a b : Bool) : Bool := bankVerifies s (if s.dev.activeB then s.dev.bankB else s.dev.bankA) (if s.dev.activeB then b else a)
    let oth (a b : Bool) : Bool := bankVerifies s (if s.dev.activeB then s.dev.bankA else s.dev.bankB) (if s.dev.activeB then a else b)
    (s.dev.st = .off → ∃ t, exec (.stbyGood slot a b) s = .next t ∧ t.dev.st = .standby ∧ t.localUs = 0
      ∧ t.pins.stbyGood = true ∧ t.pins.slotId = slot % 64 ∧ t.pins.resetAsserted = false
      ∧ t.counter 0x1000 0x0B = satAdd 32 (s.counter 0x1000 0x0B) 1
      ∧ (act a b = true → t.dev.stage = 1 ∧ t.dev.bootFailed = false ∧ t.dev.activeB = s.dev.activeB)
      ∧ (act a b = false → oth a b = true →
          t.dev.stage = 1 ∧ t.dev.bootFailed = false ∧ t.dev.activeB = !s.dev.activeB)
      ∧ (act a b = false → oth a b = false → t.dev.stage = 0 ∧ t.dev.bootFailed = true ∧ t.pins.alert = true)
      ∧ (s.pins.pwrEn = true → t.pins.earlyPwrEn = true ∧ t.pins.alert = true)
      ∧ t.regs = s.regs ∧ t.sec = s.sec ∧ t.mm = s.mm)
    ∧ (s.dev.st ≠ .off → exec (.stbyGood slot a b) s = .next s)
    ∧ (s.dev.st ≠ .off → s.pins.resetAsserted = true → ∃ t, exec .resetNRelease s = .next t ∧ t.dev.st = s.dev.st
      ∧ t.localUs = 0 ∧ t.pins.resetAsserted = false
      ∧ (act s.pins.bankAOk s.pins.bankBOk = true → t.dev.stage = 1 ∧ t.dev.bootFailed = false) ∧ t.regs = s.regs)

/-- A decision of the governor (R392 to R395): what was measured stands in the registers, and of a live job the target moves
by the rule of R394 within the set range, no hearth running above it. -/
def Sys2Proof.Claims.GovernorDecides : Prop :=
  ∀ (m : Meas) (s : State), s.dev.st ≠ .off → s.pins.resetAsserted = false →
    let u : State := { s with gov := { s.gov with
      inputMw := m.inputMw, inputMv := m.inputMv, inputMa := m.inputMa, tj := m.tj, inlet := m.inlet, outlet := m.outlet
      crust := m.crust, gddr := m.gddr, regulator := m.regulator } }
    ∃ t, exec (.governorDecision m) s = .next t ∧ t.gov.inputMw = m.inputMw ∧ t.gov.inputMv = m.inputMv
      ∧ t.gov.inputMa = m.inputMa ∧ t.gov.tj = m.tj ∧ t.gov.inlet = m.inlet ∧ t.gov.outlet = m.outlet
      ∧ t.gov.energy = s.gov.energy + m.inputMw
      ∧ (s.job.st.live = false → t.gov.target = s.gov.target ∧ t.gov.vcore = s.gov.vcore ∧ t.groups = s.groups)
      ∧ (s.job.st.live = true → s.dev.st = .active → s.dev.mainUp = true → s.eff.vMin ≤ s.eff.vMax →
          (inBinds u = true → t.gov.target = max s.eff.vMin (min s.eff.vMax (s.gov.target - 25)))
          ∧ (inBinds u = false → anyNear u = true → t.gov.target = max s.eff.vMin (min s.eff.vMax s.gov.target))
          ∧ (t.gov.target = max s.eff.vMin (min s.eff.vMax (s.gov.target + 5)) ∨ t.gov.target ≤ max s.eff.vMin s.gov.target)
          ∧ s.eff.vMin ≤ t.gov.target ∧ t.gov.target ≤ s.eff.vMax
          ∧ (∀ v ∈ t.gov.vcore, v ≤ t.gov.target))
      ∧ t.regs = s.regs ∧ t.job = s.job ∧ t.mm = s.mm ∧ t.dev = s.dev ∧ t.sec = s.sec ∧ t.log = s.log

/-- Gating ends a hold after at most 2 ms (R396), an overcurrent takes every hearth to the floor (R385), ALERT_N is
released 100 ms after its last cause (R400), and the T1S link follows its beacon (R342). -/
def Sys2Proof.Claims.TimersOfTheGovernor : Prop :=
  ∀ (s : State),
    (∀ g u, g < 64 → (s.group g).held = some u → ∃ t, exec (.gatingHoldLimit g) s = .next t
      ∧ t.localUs = max s.localUs (u + 2000) ∧ (t.group g).held = none ∧ (t.group g).passed = true
      ∧ (∀ k, k ≠ g → t.group k = s.group k) ∧ t = { s with localUs := t.localUs, groups := t.groups })
    ∧ (∀ g, g < 64 → (s.group g).held = none → exec (.gatingHoldLimit g) s = .next s)
    ∧ (s.dev.mainUp = true → s.job.st.live = true → ∃ t, exec .overcurrent s = .next t ∧ t.gov.target = s.eff.vMin
      ∧ t.gov.vcore.length = s.gov.vcore.length ∧ (∀ v ∈ t.gov.vcore, v ≤ s.eff.vMin)
      ∧ t = { s with gov := { s.gov with target := t.gov.target, vcore := t.gov.vcore } })
    ∧ (∀ u, s.gov.alertClearAt = some u → alertCause s = false → ∃ t, exec .alertReleaseTimer s = .next t
      ∧ t.localUs = max s.localUs u ∧ t.pins = { s.pins with alert := false }
      ∧ t = { s with localUs := t.localUs, pins := t.pins, gov := { s.gov with alertClearAt := none } })
    ∧ (s.stewardUp = true → s.edp.t1s = 2 →
      exec .plcaBeaconLost s = .next { s with edp := { s.edp with t1s := 1 } })
    ∧ (s.stewardUp = true → exec .plcaBeaconSeen s = .next { s with edp := { s.edp with t1s := 2 } })

/-- The oven governor's decision and its timers. -/
def Obligations.GovernorDecides : Prop :=
  Claims.GovernorDecides
    ∧ Claims.TimersOfTheGovernor

/-! ## Cores, streams and translation -/

/-- A matrix operation whose data are there runs (R69, R77, R84, R115, R118, R232, R233): its instruction is executed, an
unsplit one has its status and its D stream produced, a split-K member holds its partials; memory and the other cores stand.
While data are missing the array takes what its rings hold, and nothing is executed. -/
def Sys2Proof.Claims.MatrixOperationRuns : Prop :=
  (∀ (core : Nat) (i : Inflight) (s : State), s.ready core .matrix = some i →
    let d := matDesc i.desc
    (d.ksN = 0 →
      let o := match s.passThrough core d with
        | some left => s.passOut core d left
        | none => s.runMatrixOp core i d
      ∃ t j, exec (.matrixOperation core) s = .next t ∧ TakesTiles core i.id s t ∧ j ∈ (t.core core).inflight ∧ j.id = i.id
        ∧ j.executed = true ∧ j.final = true ∧ j.status = i.status.or o.status ∧ j.flush = o.flush ∧ j.sat = o.sat
        ∧ j.replays = o.replays
        ∧ (∀ x, s.streamAt core d.dCtx = some x → ∃ y, t.streamAt core d.dCtx = some y ∧ y.produced = true)
        ∧ (t.core core).sideMem = (s.core core).sideMem ∧ (t.core core).pc = (s.core core).pc)
    ∧ (d.ksN ≠ 0 → ∃ t j, exec (.matrixOperation core) s = .next t ∧ TakesTiles core i.id s t ∧ j ∈ (t.core core).inflight
        ∧ j.id = i.id ∧ j.executed = true ∧ j.partials = (s.runMember core i d).1 ∧ j.status = (s.runMember core i d).2
        ∧ j.final = i.final
        ∧ (t.core core).tile = (s.core core).tile ∧ (t.core core).sideMem = (s.core core).sideMem))
  ∧ ∀ (core : Nat) (s : State), s.ready core .matrix = none → ∃ t, exec (.matrixOperation core) s = .next t
      ∧ (t.core core).inflight = (s.core core).inflight ∧ (t.core core).tile = (s.core core).tile
      ∧ (t.core core).sideMem = (s.core core).sideMem ∧ t.mm = s.mm

/-- Completion of a matrix operation (R86 to R88, R177, R178): its record stands in the core's next record slot, its status
and counts are added to what its group's item brings to the layer's status, and it leaves the core; no other byte of main
memory changes. A split-K member other than member 0 leaves without a record. -/
def Sys2Proof.Claims.MatrixCompletionLeavesRecord : Prop :=
  ∀ (core : Nat) (i : Inflight) (s : State),
    (s.core core).inflight.find? (fun i => i.unit == .matrix) = some i → i.final = true → (s.core core).complete i = true →
    let d := matDesc i.desc
    let a := s.recordVa core
    (∀ (it : Item) (g : Nat), d.ksN = 0 ∨ d.ksIdx = 0 → s.coreGroup core = some g → s.coreItem core = some it →
      s.vmGood a 32 = true →
      ∃ t, exec (.matrixOperationComplete core) s = .next t
        ∧ ((s.phys a).isSome = true → memWf s.mm.mem = true → t.vmRead a 32 = compRecord core (s.itemStep it) d i)
        ∧ MemoryOutside [(a, 32)] s t
        ∧ (t.core core).inflight = (s.core core).inflight.filter (fun x => x.id != i.id)
        ∧ (t.core core).recSlot = ((s.core core).recSlot + 1) % 65536 ∧ (∀ n, n ≠ core → t.core n = s.core n)
        ∧ (it.kind = .fwd ∨ it.kind = .bwd ∨ it.kind = .win ∨ it.kind = .upd →
            (t.group g).got = (s.group g).got.add ⟨i.status, i.flush, i.sat, i.replays, 0⟩
            ∧ ∀ k, k ≠ g → t.group k = s.group k)
        ∧ ((∃ a b, it.kind = .eval a b) → t.groups = s.groups)
        ∧ t.lstat = s.lstat ∧ t.regs = s.regs ∧ t.results = s.results ∧ t.job.attempt = s.job.attempt)
    ∧ (d.ksN ≠ 0 → d.ksIdx ≠ 0 → ∃ t, exec (.matrixOperationComplete core) s = .next t
        ∧ (t.core core).inflight = (s.core core).inflight.filter (fun x => x.id != i.id)
        ∧ (∀ n, n ≠ core → t.core n = s.core n) ∧ t = { s with cores := t.cores })

/-- Matrix operations run and leave their records. -/
def Obligations.MatrixOperationsRunAndComplete : Prop :=
  Claims.MatrixOperationRuns
    ∧ Claims.MatrixCompletionLeavesRecord

/-- One combination of a split-K group (R85): the lower member holds the sums, the upper one is over; a member without a
partner at a level goes up with what it holds. -/
def Obligations.SplitKCombines : Prop :=
  ∀ (core level : Nat) (i : Inflight) (s : State), (s.core core).splitOp = some i →
    let d := matDesc i.desc
    let pc := d.ksBase + d.ksIdx + 2 ^ level
    i.level = level → d.ksIdx % 2 ^ (level + 1) = 0 →
    (∀ j, core ≠ pc → d.ksIdx + 2 ^ level < d.ksN + 1 →
      (s.core pc).splitOp = some j → (matDesc j.desc).ksBase = d.ksBase → (matDesc j.desc).ksIdx = d.ksIdx + 2 ^ level →
      (matDesc j.desc).opTag = d.opTag → j.level = level →
      ∃ t a b, exec (.splitKCombine core level) s = .next t ∧ a ∈ (t.core core).inflight ∧ a.id = i.id
        ∧ a.partials = (treeCombine i.partials j.partials).1 ∧ a.level = level + 1
        ∧ (a.final = true ↔ (d.ksIdx = 0 ∧ d.ksN + 1 ≤ 2 ^ (level + 1)))
        ∧ b ∈ (t.core pc).inflight ∧ b.id = j.id ∧ b.final = true ∧ b.partials = []
        ∧ (∀ n, n ≠ core → n ≠ pc → t.core n = s.core n) ∧ t = { s with cores := t.cores })
    ∧ (d.ksN + 1 ≤ d.ksIdx + 2 ^ level → ∃ t a, exec (.splitKCombine core level) s = .next t
        ∧ a ∈ (t.core core).inflight ∧ a.id = i.id ∧ a.partials = i.partials ∧ a.level = level + 1
        ∧ (a.final = true ↔ d.ksIdx = 0)
        ∧ (∀ n, n ≠ core → t.core n = s.core n) ∧ t = { s with cores := t.cores })

/-- A vector instruction and a row operation whose data are there run (R135, R147, R151, R152): the output stream is
produced; main memory and the other cores stand, and of the side memory a vector instruction changes nothing, a row
operation no byte but its statistics slots and its column accumulators. While data are missing nothing is executed. -/
def Obligations.VectorAndRowRun : Prop :=
  (∀ (core : Nat) (i : Inflight) (s : State),
    (s.ready core .vector = some i → ∃ t, exec (.vectorInstruction core) s = .next t ∧ TakesTiles core i.id s t
      ∧ (∀ x, s.streamAt core (vecDesc i.desc).zCtx = some x →
          ∃ y, t.streamAt core (vecDesc i.desc).zCtx = some y ∧ y.produced = true)
      ∧ (t.core core).sideMem = (s.core core).sideMem ∧ (t.core core).pc = (s.core core).pc)
    ∧ (s.ready core .row = some i →
      let d := rowDesc i.desc
      ∃ t, exec (.rowOperation core) s = .next t ∧ TakesTiles core i.id s t
        ∧ (∀ x, s.streamAt core d.outCtx = some x → ∃ y, t.streamAt core d.outCtx = some y ∧ y.produced = true)
        ∧ (t.core core).pc = (s.core core).pc
        ∧ ∀ a, (∀ r < d.rows, ¬ (8 * ((d.statBase + r) % 32768) ≤ a ∧ a < 8 * ((d.statBase + r) % 32768) + 8)) →
          (d.caccEn = true → ¬ (8 * d.caccBase ≤ a ∧ a < 8 * (d.caccBase + d.rowLen))) →
          memRead (t.core core).sideMem a = memRead (s.core core).sideMem a))
  ∧ ∀ (core : Nat) (s : State),
    (s.ready core .vector = none → ∃ t, exec (.vectorInstruction core) s = .next t
      ∧ (t.core core).inflight = (s.core core).inflight ∧ (t.core core).tile = (s.core core).tile
      ∧ (t.core core).sideMem = (s.core core).sideMem ∧ t.mm = s.mm)
    ∧ (s.ready core .row = none → ∃ t, exec (.rowOperation core) s = .next t
      ∧ (t.core core).inflight = (s.core core).inflight ∧ (t.core core).tile = (s.core core).tile
      ∧ (t.core core).sideMem = (s.core core).sideMem ∧ t.mm = s.mm)

/-- A core passes a barrier together with its group (R133): it waits while some core of the group has not reached it. -/
def Sys2Proof.Claims.BarrierJoinsGroup : Prop :=
  ∀ (core g id : Nat) (s : State), s.coreGroup core = some g → (s.core core).atBarrier = some id →
    s.issuing core = true → (s.groupOf g).cores.Nodup →
    let here (n : Nat) : Prop := (n = core ∨ (s.core n).barrier = some id) ∧ (s.core n).inflight = [] ∧ (s.core n).side = []
    ((∀ n ∈ (s.groupOf g).cores, here n) → ∃ t, exec (.groupBarrier core) s = .next t
      ∧ (∀ n ∈ (s.groupOf g).cores, (t.core n).pc = (s.core n).pc + 1 ∧ (t.core n).barrier = none)
      ∧ (∀ n, n ≠ core → n ∉ (s.groupOf g).cores → t.core n = s.core n) ∧ t = { s with cores := t.cores })
    ∧ ((∃ n ∈ (s.groupOf g).cores, ¬ here n) → ∃ t, exec (.groupBarrier core) s = .next t
      ∧ (t.core core).barrier = some id ∧ (t.core core).pc = (s.core core).pc
      ∧ (∀ n, n ≠ core → t.core n = s.core n) ∧ t = { s with cores := t.cores })

/-- Bytes a sideline transfer has written at an address of one side (R117): tile store 0, main memory 1, side memory 2. -/
def Sys2Proof.Claims.Written (core mem a : Nat) (bs : Bytes) (s t : State) : Prop :=
  let va := a + s.shift core true a
  (∀ n, n ≠ core → t.core n = s.core n)
  ∧ (mem = 0 → (t.core core).tile = memStore (s.core core).tile (a + s.shift core false a) bs
      ∧ (t.core core).sideMem = (s.core core).sideMem ∧ t.mm.mem = s.mm.mem)
  ∧ (mem = 1 → (t.core core).tile = (s.core core).tile ∧ (t.core core).sideMem = (s.core core).sideMem
      ∧ MemoryOutside [(va, bs.length)] s t
      ∧ (memWf s.mm.mem = true → bs.length ≤ pageSize →
          (∀ i < bs.length, ∃ p, s.phys (va + i) = some p ∧ s.marked (p / 128) = false) → t.vmRead va bs.length = bs))
  ∧ (mem = 2 → (t.core core).sideMem = memStore (s.core core).sideMem a bs ∧ (t.core core).tile = (s.core core).tile
      ∧ t.mm.mem = s.mm.mem)
  ∧ t.job = s.job ∧ t.regs = s.regs ∧ t.mm.pages = s.mm.pages

/-- A sideline command moves bytes between two memories as one access (R117, R118, R141): one of its own from its near to
its far side or back; one that serves an instruction brings an operand, or carries out what the instruction left, and waits
until that stands. -/
def Sys2Proof.Claims.SidelineMovesBytes : Prop :=
  ∀ (core : Nat) (r : SideReq) (rest : List SideReq) (s : State), s.issuing core = true → (s.core core).side = r :: rest →
    let m := sideCmd r.cmd
    let far := m.farAddr + s.shift core true m.farAddr
    (r.inst = none → m.far < 3 → (m.far = 1 → s.rangeOk far m.len m.toFar = true) →
      ∃ t, exec (.sidelineTransfer core) s = .next t ∧ (t.core core).side = rest
        ∧ (t.core core).inflight = (s.core core).inflight
        ∧ (if m.toFar then Claims.Written core m.far m.farAddr (s.sideRead core (nearMem m.near) m.nearAddr m.len) s t
           else Claims.Written core (nearMem m.near) m.nearAddr (s.sideRead core m.far m.farAddr m.len) s t))
    ∧ (∀ id i, r.inst = some id → (s.core core).inflight.find? (fun i => i.id = id) = some i →
        (roleWrites i.unit r.role = false → (m.far = 1 → s.rangeOk far m.len false = true) →
          ∃ t, exec (.sidelineTransfer core) s = .next t ∧ (t.core core).side = rest
            ∧ (t.core core).inflight = (s.core core).inflight.map (fun j =>
                if j.id = i.id then { j with reads := (r.role, s.sideRead core m.far m.farAddr m.len) :: j.reads } else j)
            ∧ (t.core core).tile = (s.core core).tile ∧ (t.core core).sideMem = (s.core core).sideMem
            ∧ CoreOnly core s t)
        ∧ (roleWrites i.unit r.role = true → i.executed = true → (i.unit = .matrix → i.final = true) →
            (r.role = 5 → (s.core core).drained i = true) → m.far < 3 →
            (m.far = 1 → s.rangeOk far m.len true = true ∧ (r.role = 5 → i.accumulates = true → s.rangeOk far m.len false = true)) →
            let bs := (klook i.outs r.role).getD []
            ∃ t, exec (.sidelineTransfer core) s = .next t ∧ (t.core core).side = rest
              ∧ Claims.Written core m.far m.farAddr (((if r.role = 5 ∧ i.accumulates = true
                  then statAccum (s.sideRead core m.far m.farAddr m.len) bs else bs)).take m.len) s t)
        ∧ (roleWrites i.unit r.role = true →
            i.executed = false ∨ (i.unit = .matrix ∧ i.final = false) ∨ (r.role = 5 ∧ (s.core core).drained i = false) →
            exec (.sidelineTransfer core) s = .next s))
    ∧ (r.inst = none → m.far = 1 → s.rangeOk far m.len m.toFar = false → exec (.sidelineTransfer core) s = .next s)

/-- Group barriers and sideline transfers. -/
def Obligations.BarriersAndTheSideline : Prop :=
  Claims.BarrierJoinsGroup
    ∧ Claims.SidelineMovesBytes

/-- Admission (R108, R118, R120, R132): an instruction enters with all its streams together, or not at all; a sideline
command of its own while fewer than four transfers are outstanding; a barrier not at all. -/
def Sys2Proof.Claims.AdmissionIsAllOrNothing : Prop :=
  ∀ (core : Nat) (p : ProgItem) (s : State), s.issuing core = true → (s.core core).prog[(s.core core).pc]? = some p →
    (∀ i, issueOf p = some i → orderOk (s.core core) i = true → roomFor (s.core core) i = true →
      let id := (s.core core).nextId
      let delivered (b : Nat × Words) : Bool := (streamDesc b.2).memKind == 2 && !(streamDesc b.2).dir
      ∃ t f, exec (.streamAdmission core) s = .next t ∧ (t.core core).pc = (s.core core).pc + 1
        ∧ (t.core core).nextId = id + 1 ∧ (t.core core).inflight = (s.core core).inflight ++ [f]
        ∧ f.id = id ∧ f.unit = i.unit ∧ f.desc = i.desc ∧ f.executed = false
        ∧ (t.core core).side = (s.core core).side ++ (i.roles.zip i.side).map (fun x => ⟨some id, id, x.1, x.2⟩)
        ∧ (∀ b ∈ i.streams, ∃ x, t.streamAt core b.1 = some x ∧ x.inst = id ∧ x.taken = 0
            ∧ ((∀ c ∈ i.streams, delivered c = false) → x.fetched = 0))
        ∧ (∀ k, (∀ b ∈ i.streams, b.1 ≠ k) → t.streamAt core k = s.streamAt core k)
        ∧ ((∀ c ∈ i.streams, delivered c = false) → (t.core core).tile = (s.core core).tile
            ∧ ∀ n, n ≠ core → t.core n = s.core n)
        ∧ (∀ n, n ≠ core → t.core n = { s.core n with credit := (t.core n).credit })
        ∧ t.mm.mem = s.mm.mem ∧ t.job = s.job ∧ t.regs = s.regs)
    ∧ (∀ i, issueOf p = some i → orderOk (s.core core) i = false ∨ roomFor (s.core core) i = false →
        exec (.streamAdmission core) s = .next s)
    ∧ (∀ w, p = .sideline w → (s.core core).side.length < 4 → ∃ t, exec (.streamAdmission core) s = .next t
        ∧ (t.core core).pc = (s.core core).pc + 1
        ∧ (t.core core).side = (s.core core).side ++ [⟨none, (s.core core).nextId, 0, w⟩]
        ∧ (t.core core).inflight = (s.core core).inflight ∧ (∀ n, n ≠ core → t.core n = s.core n)
        ∧ t = { s with cores := t.cores })
    ∧ ((∃ w, p = .sideline w) → 4 ≤ (s.core core).side.length → exec (.streamAdmission core) s = .next s)
    ∧ ((∃ w, p = .barrier w) → exec (.streamAdmission core) s = .next s)

/-- Tiles (R112 to R115, R121): a read stream's next tile comes into its ring slot, at most three ahead of the array; a
write stream drains its oldest tile, to main memory, where no other byte changes, or to a partner on credit; the producer
fills the slot again. -/
def Sys2Proof.Claims.TilesMoveInOrder : Prop :=
  ∀ (core ctx : Nat) (x : Stream) (s : State), s.issuing core = true → s.streamAt core ctx = some x →
    let d := streamDesc x.desc
    let left := { x with out := x.out.drop 1 ++ x.todo.take (3 - (x.out.length - 1))
                         todo := x.todo.drop (3 - (x.out.length - 1)), drained := x.drained + 1 }
    (d.dir = false → d.memKind = 1 → x.fetched < x.tiles → x.fetched < x.taken + 3 → s.tileOk core d x.fetched = true →
      s.skipped core ctx x = false →
      let y := { x with recv := x.recv ++ [(65536 * x.fetched, s.tileFrom core d x.fetched)] }
      ∃ t, exec (.dataTileFetch core ctx none) s = .next t ∧ CoreOnly core s t
        ∧ t.streamAt core ctx = some { y with fetched := y.arrivedTiles }
        ∧ (t.core core).tile = memStore (s.core core).tile (d.slotAddr x.fetched) (s.tileFrom core d x.fetched)
        ∧ (x.tiles = d.nTiles → d.bits ≠ 0 → x.arrivedTiles = x.fetched → (∀ p ∈ x.recv, p.1 / 65536 < x.fetched) →
            y.arrivedTiles = x.fetched + 1))
    ∧ (d.dir = false → d.memKind ≠ 1 ∨ x.tiles ≤ x.fetched ∨ x.taken + 3 ≤ x.fetched ∨ s.tileOk core d x.fetched = false
        ∨ s.skipped core ctx x = true → exec (.dataTileFetch core ctx none) s = .next s)
    ∧ (∀ es rest, d.dir = true → x.out = es :: rest →
        let ws := s.tileWrites core d es
        (d.memKind = 1 → s.writeOk ws = true → ∃ t, exec (.dataTileFetch core ctx none) s = .next t
          ∧ t.streamAt core ctx = some left
          ∧ MemoryOutside (ws.map fun w => (w.addr, max 1 w.data.length)) s t
          ∧ (∀ n, n ≠ core → t.core n = s.core n) ∧ t.job = s.job ∧ t.regs = s.regs ∧ t.mm.pages = s.mm.pages)
        ∧ (d.memKind = 1 → s.writeOk ws = false → exec (.dataTileFetch core ctx none) s = .next s)
        ∧ (d.memKind ≠ 1 → 0 < (s.core core).creditLeft ctx → ∃ t, exec (.dataTileFetch core ctx none) s = .next t
          ∧ t.streamAt core ctx = some left
          ∧ tget 0 (t.core core).spent ctx = tget 0 (s.core core).spent ctx + 1
          ∧ (∀ y, d.peerDev = s.devId → s.streamAt d.peerCore d.peerCtx = some y → (streamDesc y.desc).memKind = 2 →
              (streamDesc y.desc).dir = false → ∃ z, t.streamAt d.peerCore d.peerCtx = some z
                ∧ z.recv = y.recv ++ [(65536 * x.drained, (tileImage d x.drained es s).1)])
          ∧ t.mm = s.mm ∧ t.job = s.job ∧ t.regs = s.regs)
        ∧ (d.memKind ≠ 1 → (s.core core).creditLeft ctx = 0 → exec (.dataTileFetch core ctx none) s = .next s))
    ∧ (d.dir = true → x.out = [] → exec (.dataTileFetch core ctx none) s = .next s)

/-- Streams are admitted together and move in order. -/
def Obligations.StreamsAdmitAndMove : Prop :=
  Claims.AdmissionIsAllOrNothing
    ∧ Claims.TilesMoveInOrder

/-- Credit, prefetch and retirement of a stream (R102, R109, R121): a report of the step and attempt raises a context's
credit to the slots reported; the prefetcher takes the next tile within its lead; a stream whose last tile has been taken
or drained retires. -/
def Sys2Proof.Claims.StreamsRunAndRetire : Prop :=
  ∀ (core ctx : Nat) (s : State),
    (∀ n, s.inStep = true → ∃ t, exec (.streamCreditReport core ctx ⟨n, s.job.step, s.job.attempt⟩) s = .next t
      ∧ tget 0 (t.core core).credit ctx = max (tget 0 (s.core core).credit ctx) n
      ∧ (t.core core).ctx = (s.core core).ctx ∧ (∀ m, m ≠ core → t.core m = s.core m)
      ∧ t = { s with cores := t.cores, fab := { s.fab with delivered := t.fab.delivered } })
    ∧ (∀ n k, s.inStep = true → k < s.job.attempt → ∃ t, exec (.streamCreditReport core ctx ⟨n, s.job.step, k⟩) s = .next t
      ∧ t = { s with fab := { s.fab with delivered := t.fab.delivered } })
    ∧ (∀ x, s.streamAt core ctx = some x →
        (x.slot = true → x.ahead < x.tiles → x.ahead < x.oldest + 3 + (streamDesc x.desc).lead →
          ∃ t, exec (.pantryPrefetch core ctx) s = .next t ∧ CoreOnly core s t
            ∧ t.streamAt core ctx = some { x with prefetched := x.ahead + 1 })
        ∧ (x.slot = false ∨ x.tiles ≤ x.ahead ∨ x.oldest + 3 + (streamDesc x.desc).lead ≤ x.ahead →
          exec (.pantryPrefetch core ctx) s = .next s))
    ∧ (∀ x, s.streamAt core ctx = some x →
        let d := streamDesc x.desc
        let ended := if d.dir = true then x.produced = true ∧ x.drained = x.tiles ∧ s.inTransit d = false else x.taken = x.tiles
        (ended → ∃ t, exec (.streamRetire core ctx) s = .next t ∧ t.streamAt core ctx = none
          ∧ (∀ k, k ≠ ctx → t.streamAt core k = s.streamAt core k)
          ∧ (x.slot = true → tget 0 t.mm.slots (core / 96) = tget 0 s.mm.slots (core / 96) - 1)
          ∧ (t.core core).tile = (s.core core).tile ∧ CoreOnly core s t)
        ∧ (¬ ended → exec (.streamRetire core ctx) s = .next s))

/-- A stall (R122, R185): of a step's item it ends the attempt; of an evaluation item it does not; a stream between devices
is not covered. -/
def Sys2Proof.Claims.StallsEndTheAttempt : Prop :=
  ∀ (core ctx : Nat) (it : Item) (s : State), s.coreItem core = some it →
    (∀ w, s.stallWhere core ctx it = some w → s.issuing core = true →
      (it.kind = .fwd ∨ it.kind = .bwd ∨ it.kind = .win ∨ it.kind = .upd → CanRepeat s →
        ∃ t, exec (.streamStall core ctx) s = .next t ∧ Repeats STREAM_STALL s t
          ∧ t.localUs = s.localUs + s.eff.streamWd ∧ t.regs = s.regs ∧ t.sec = s.sec ∧ t.recipe = s.recipe)
      ∧ ((∃ a b, it.kind = .eval a b) → ∃ t, exec (.streamStall core ctx) s = .next t
          ∧ t.job.attempt = s.job.attempt ∧ t.localUs = s.localUs + s.eff.streamWd ∧ t.regs = s.regs))
    ∧ (∀ x, s.streamAt core ctx = some x → (streamDesc x.desc).memKind = 2 → (streamDesc x.desc).peerDev ≠ s.devId →
        exec (.streamStall core ctx) s = .next s)

/-- Credit, prefetch, retirement and stalls of streams. -/
def Obligations.StreamsRetireOrStall : Prop :=
  Claims.StreamsRunAndRetire
    ∧ Claims.StallsEndTheAttempt

/-- A translation miss (R127, R129, R130): where the layer replays, the item waits for its page; elsewhere the attempt
ends. An address that is mapped, or whose page is missed already, misses nothing. -/
def Sys2Proof.Claims.MissesAreReplayed : Prop :=
  ∀ (core ctx va g : Nat) (write : Bool) (it : Item) (s : State), s.coreGroup core = some g →
    s.coreItem core = some it → it.kind = .fwd ∨ it.kind = .bwd ∨ it.kind = .win ∨ it.kind = .upd →
    let known := ∃ m ∈ (s.group g).misses, m.va / pageSize = va / pageSize ∧ (m.write = true ∨ write = false)
    ((s.xlat va write).isSome = true ∨ known → exec (.translationMiss core ctx va write) s = .next s)
    ∧ (s.xlat va write = none → ¬ known →
        let replays := match s.layer? it.layer with | some l => l.xlatReplay | none => false
        (s.mayMap va write = true → replays = true → (s.group g).replays < 4 →
          ∃ t m, exec (.translationMiss core ctx va write) s = .next t
          ∧ (t.group g).misses = (s.group g).misses ++ [m] ∧ m.va = va ∧ m.write = write ∧ m.core = core ∧ m.ctx = ctx
          ∧ (∀ x, s.streamAt core ctx = some x → m.layer = (streamDesc x.desc).layerId ∧ m.tag = (streamDesc x.desc).tag)
          ∧ m.mapped = false ∧ (t.group g).item = (s.group g).item
          ∧ (∀ k, k ≠ g → t.group k = s.group k) ∧ t = { s with groups := t.groups })
        ∧ (s.mayMap va write = false ∨ replays = false ∨ 4 ≤ (s.group g).replays → CanRepeat s →
          ∃ t, exec (.translationMiss core ctx va write) s = .next t
          ∧ Repeats STEP_REPEAT_FAULT s t ∧ t.regs = s.regs ∧ t.sec = s.sec))

/-- Table 05.7, orders 5 to 7: the group's streams are discarded, the page is mapped, and the item runs again from its
first instruction, its counts started over; a page that does not come within the bound ends the attempt (R129, R130). -/
def Sys2Proof.Claims.ReplayGoesOn : Prop :=
  ∀ (g : Nat) (s : State),
    ((s.group g).misses ≠ [] → (s.group g).drained = false → ∃ t, exec (.itemDrainComplete g) s = .next t
      ∧ (t.group g).drained = true ∧ (t.group g).misses = (s.group g).misses ∧ t.mm.mem = s.mm.mem
      ∧ (∀ n ∈ (s.groupOf g).cores, (t.core n).ctx = [] ∧ (t.core n).inflight = [] ∧ (t.core n).tile = (s.core n).tile)
      ∧ (∀ n, n ∉ (s.groupOf g).cores → t.core n = s.core n) ∧ t.job = s.job)
    ∧ (∀ va m u, (s.group g).misses.find? (fun m => m.va / pageSize = va / pageSize && !m.mapped) = some m →
        (∀ x ∈ s.mm.owed, x.1 / pageSize ≠ va / pageSize) →
        klook s.mm.pages (m.va / pageSize) = none → serveMiss m.va m.write s = some u →
        ∃ t, exec (.translationMapped g va) s = .next t ∧ (t.xlat m.va m.write).isSome = true
          ∧ (∀ v, v / pageSize ≠ m.va / pageSize → ∀ w, t.xlat v w = s.xlat v w)
          ∧ t.job = s.job ∧ t.cores = s.cores ∧ t.regs = s.regs)
    ∧ (∀ it, (s.group g).item = some it → (s.group g).misses ≠ [] → (s.group g).drained = true →
        (∀ m ∈ (s.group g).misses, m.mapped = true) → (s.groupOf g).cores.Nodup →
        ∃ t, exec (.workItemReplay g) s = .next t ∧ (t.group g).misses = []
          ∧ (t.group g).item = some { it with prog := s.firstProg it }
          ∧ (t.group g).got = LStat.zero ∧ (t.group g).replays = (s.group g).replays + 1
          ∧ (∀ n ∈ (s.groupOf g).cores, (t.core n).pc = 0 ∧ (t.core n).prog = tget [] (s.core n).descMem (s.firstProg it))
          ∧ t.mm = s.mm ∧ t.job.attempt = s.job.attempt)
    ∧ ((∃ m ∈ (s.group g).misses, m.mapped = false) → CanRepeat s → ∃ t, exec (.replayBoundExpiry g) s = .next t
        ∧ Repeats STEP_REPEAT_FAULT s t ∧ t.localUs = max s.localUs ((s.group g).missTime + s.eff.replayBound))

/-- Translation misses are replayed or end the attempt. -/
def Obligations.MissesAreReplayedOrAbort : Prop :=
  Claims.MissesAreReplayed
    ∧ Claims.ReplayGoesOn

/-! ## Memory errors -/

/-- CORE_FENCED (R16, R18, R310, R416): the core is out of use, a spare of its hearth takes its logical core's place, and the
attempt in progress is repeated; where the spare's descriptor memory cannot be written from the container, or no spare is
left for a core the recipe names, the job halts. A core out of use already changes nothing. -/
def Sys2Proof.Claims.FencedCoresAreReplaced : Prop :=
  ∀ (q : Nat) (s : State),
    (s.dev.mainUp = true → q < 400 → s.dev.phys.length = 400 → s.dev.phys.getD q 3 ≠ 2 →
      let used := s.dev.phys.getD q 3 = 0
      ∃ t, exec (.coreFenced q) s = .next t ∧ t.dev.phys.getD q 3 = 2
        ∧ t.counter 0x7200 6 = satAdd 32 (s.counter 0x7200 6) 1 ∧ t.regs = s.regs ∧ t.sec = s.sec
        ∧ (∀ n r, used → s.logicalOf q = some n → s.spareOf (q / 100) = some r → n < s.dev.map.length →
            t.dev.map.getD n 0 = r ∧ t.dev.phys.getD (100 * (q / 100) + r) 3 = 0)
        ∧ (∀ n, used → s.logicalOf q = some n → s.spareOf (q / 100) = none → n < s.dev.map.length → t.dev.map.getD n 0 = 0xFF)
        ∧ (∀ n, s.logicalOf q ≠ some n → t.dev.map.getD n 0 = s.dev.map.getD n 0)
        ∧ (CanRepeat s → s.isDiag = false → s.recipe.damaged = false → used → (s.logicalOf q).isSome = true →
            (s.spareOf (q / 100)).isSome = true → Repeats STEP_REPEAT_FAULT s t)
        ∧ (HaltsNow s → s.isDiag = false → s.recipe.damaged = true → used → (s.logicalOf q).isSome = true →
            (s.spareOf (q / 100)).isSome = true → Halted ECC_UNCORRECTABLE s t)
        ∧ (∀ n, HaltsNow s → s.job.st.live = true → s.isDiag = false → used → s.logicalOf q = some n →
            s.spareOf (q / 100) = none → n ∈ coresNamed s.cont → Halted CORE_FENCED s t))
    ∧ (s.dev.mainUp = false ∨ 400 ≤ q ∨ s.dev.phys.getD q 3 = 2 → exec (.coreFenced q) s = .next s)

/-- SRAM_UNCORRECTABLE (R93, R94, R105, Table 04.3): an error the code corrects is counted and does nothing else; of the
rest a core's memory fences the core, a cell leaves service, a starter is forgotten, a clean line is fetched again, a dirty
one leaves its block uncorrectable in main memory. -/
def Sys2Proof.Claims.SramErrorsAreContained : Prop :=
  ∀ (unit word : Nat) (err : List SymErr) (s : State), s.dev.mainUp = true →
    let pa := lineAddr unit word s.mm.interleave
    let same (t : State) : Prop := t.job.st = s.job.st ∧ t.job.attempt = s.job.attempt ∧ t.mm.mem = s.mm.mem
    let after (kind : SramKind) (p : State → Prop) : Prop := ∃ t, exec (.sramUncorrectable kind unit ⟨word, err⟩) s = .next t
      ∧ t.counter 0x7200 5 = satAdd 64 (s.counter 0x7200 5) 1 ∧ t.regs = s.regs ∧ t.sec = s.sec ∧ p t
    let counts (kind : SramKind) (sub : Nat) : Prop := ∃ t, exec (.sramUncorrectable kind unit ⟨word, err⟩) s = .next t
      ∧ t.counter 0x7200 sub = satAdd 64 (s.counter 0x7200 sub) 1 ∧ t.mm = s.mm ∧ t.dev = s.dev ∧ t.cores = s.cores ∧ same t
    (hasError 36 err = true → correctable 36 err = false →
      (∀ kind p, kind = .tile ∨ kind = .side ∨ kind = .desc → s.dev.map[unit]? = some p → p < 100 → unit < 384 →
          s.dev.phys.length = 400 → after kind fun t => t.dev.phys.getD (100 * (unit / 96) + p) 3 = 2)
      ∧ after .cell (fun t => same t ∧ unit ∈ t.dev.badCells ∧ t.counter 0x7200 9 = t.dev.badCells.length)
      ∧ after .starter (fun t => same t ∧ klook t.leaven.starters (4096 * unit + word) = none)
      ∧ (∀ e, s.mm.line? pa = some e →
          (e.2.2 = false → s.marked (pa / 128) = false → after .pantry fun t => same t ∧ (t.mm.line? pa).isSome = true)
          ∧ (e.2.2 = true → after .pantry fun t => same t ∧ t.mm.line? pa = none ∧ pa / 128 ∈ t.mm.poison)))
    ∧ (hasError 36 err = true → correctable 36 err = true → counts .tile 1 ∧ counts .side 2 ∧ counts .desc 2
        ∧ counts .cell 3 ∧ counts .starter 3 ∧ ((s.mm.line? pa).isSome = true → counts .pantry 4))
    ∧ (∀ kind, hasError 36 err = false → exec (.sramUncorrectable kind unit ⟨word, err⟩) s = .next s)

/-- Fenced cores are replaced, on-chip errors contained. -/
def Obligations.FencesAndSramErrors : Prop :=
  Claims.FencedCoresAreReplaced
    ∧ Claims.SramErrorsAreContained

/-- GDDR7_UNCORRECTABLE (R103, R313, R318, R320, Table 13.3): what a read meets in a block of main memory that no pantry
holds. Corrected errors are counted; of uncorrectable data, scratch ends the attempt, persistent data halt the job, a
container is damaged, and a prefetch that fails is no error of any work. -/
def Sys2Proof.Claims.UncorrectableBlocksAreHandled : Prop :=
  ∀ (pa va : Nat) (err : List SymErr) (s : State), s.mm.up = true → s.mm.line? pa = none →
    let c := (place pa s.mm.interleave).1
    let lost := s.marked (pa / 128) = true ∨ (hasError 68 err = true ∧ correctable 68 err = false)
    let n := if s.mm.poison.contains (pa / 128) then 4 else 3
    let after (r : EccReader) (p : State → Prop) : Prop :=
      ∃ t, exec (.gddr7Uncorrectable c pa va r err) s = .next t ∧ t.regs = s.regs ∧ t.sec = s.sec
        ∧ t.counter 0x4100 n = satAdd 64 (s.counter 0x4100 n) 1 ∧ p t
    (lost → 128 ≤ pa / pageSize → (∃ p, s.phys va = some p ∧ p / 128 = pa / 128) →
      (∀ r, r = .stepWork ∨ r = .other →
        (s.scratchAt va = true → CanRepeat s → after r (Repeats STEP_REPEAT_FAULT s))
        ∧ (s.scratchAt va = false → HaltsNow s →
            after r fun t => Halted ECC_UNCORRECTABLE s t ∧ t.marked (pa / 128) = true))
      ∧ (s.scratchAt va = true → after .evaluation fun t => t.job.attempt = s.job.attempt ∧ t.marked (pa / 128) = true)
      ∧ (s.scratchAt va = false → HaltsNow s → after .evaluation (Halted ECC_UNCORRECTABLE s))
      ∧ (s.job.st.live = true → after .checkpoint (Halted ECC_UNCORRECTABLE s)))
    ∧ (lost → pa / pageSize ∈ s.mm.loadedPages → after .steward fun t => t.recipe.damaged = true ∧ t.job.st = s.job.st)
    ∧ (lost → exec (.gddr7Uncorrectable c pa va .prefetch err) s = .next s)
    ∧ (∀ r, s.marked (pa / 128) = false → hasError 68 err = true → correctable 68 err = true → s.reads pa va r = true →
        ∃ t, exec (.gddr7Uncorrectable c pa va r err) s = .next t ∧ t.counter 0x4100 1 = satAdd 64 (s.counter 0x4100 1) 1
          ∧ t.mm.mem = s.mm.mem ∧ t.job.st = s.job.st ∧ t.job.attempt = s.job.attempt)

/-- PATROL_SCRUB (R317): one block of the pass, in ascending order (the model's choice, log entry 69); what it corrects is
counted, what it cannot correct is marked, and no work ends for it. -/
def Sys2Proof.Claims.ScrubbingDisturbsNothing : Prop :=
  ∀ (block onDie : Nat) (err : List SymErr) (s : State), s.scrubMay = true →
    let last := dataBlocks ≤ s.mm.scrubDone + 1
    let next := { s.mm with scrubDone := if last then 0 else s.mm.scrubDone + 1
                            scrubStart := if last then s.localUs else s.mm.scrubStart }
    let after (p : State → Prop) : Prop := ∃ t, exec (.patrolScrub block ⟨err, onDie⟩) s = .next t
      ∧ t.counter 0x4100 6 = satAdd 64 (s.counter 0x4100 6) onDie
      ∧ t.mm.scrubDone = next.scrubDone ∧ t.mm.mem = s.mm.mem ∧ t.job.st = s.job.st ∧ t.job.attempt = s.job.attempt ∧ p t
    (block ≠ s.mm.scrubDone → exec (.patrolScrub block ⟨err, onDie⟩) s = .next s)
    ∧ (block = s.mm.scrubDone →
      (s.marked block = false → hasError 68 err = false → after fun t => t.mm = next)
      ∧ (s.marked block = false → hasError 68 err = true → correctable 68 err = true →
          after fun t => t.mm = next ∧ t.counter 0x4100 2 = satAdd 64 (s.counter 0x4100 2) 1)
      ∧ (s.marked block = true ∨ (hasError 68 err = true ∧ correctable 68 err = false) →
          let n := if s.mm.poison.contains block then 4 else 3
          after fun t => t.marked block = true ∧ t.counter 0x4100 n = satAdd 64 (s.counter 0x4100 n) 1))

/-- Uncorrectable blocks of main memory, and scrubbing. -/
def Obligations.MainMemoryErrorsAndScrubbing : Prop :=
  Claims.UncorrectableBlocksAreHandled
    ∧ Claims.ScrubbingDisturbsNothing

/-! ## The step -/

/-- INTERLEAVE_SLOT_START (R28, R164, R227, R396, Table 01.5): a slot starts its item on every core of its group once its
inputs are complete, and not before; under gating it holds first. While the job is installed the group runs `U_PROG` + 1 of
its layers instead. -/
def Sys2Proof.Claims.SlotsStartWhenFed : Prop :=
  ∀ (g : Nat) (s : State), s.inStep = true → (s.group g).item = none → (s.group g).misses = [] →
    (∀ sl, s.job.installing = [] → s.coll.released = true → (s.groupOf g).slots[(s.group g).pos]? = some sl →
      let fed := s.inputsReady sl = true ∧ s.pieceOn g = false
      let free := s.gov.gating = false ∨ (s.group g).passed = true ∨ sl.kind = 5
      let u := latchLayer sl.layer s.job.step s
      (fed → free → sl.kind ≠ 4 → ∃ t it, exec (.interleaveSlotStart g) s = .next t ∧ (t.group g).item = some it
        ∧ it.kind = slotKind sl.kind ∧ it.layer = sl.layer ∧ it.prog = s.slotProg sl ∧ Started g (s.slotProg sl) s t
        ∧ (∀ n, n ∉ (s.groupOf g).cores → t.core n = s.core n) ∧ (∀ k, k ≠ g → t.group k = s.group k)
        ∧ t.job = s.job ∧ t.regs = s.regs)
      ∧ (fed → free → sl.kind = 4 → u.layerBlocks sl.layer ≠ [] → (∀ b ∈ u.layerBlocks sl.layer, u.genOk b = true) →
          u.allGood ((u.layerBlocks sl.layer).flatMap u.beforeReads) = true →
          ∃ t, exec (.interleaveSlotStart g) s = .next t
            ∧ (t.group g).item = some ⟨.upd, sl.layer, 0, u.slotProg sl⟩ ∧ Started g (u.slotProg sl) s t)
      ∧ (fed → ¬ free → ∃ t, exec (.interleaveSlotStart g) s = .next t ∧ (t.group g).item = none
          ∧ (t.group g).held.isSome = true ∧ t.cores = s.cores ∧ t.mm = s.mm ∧ t.job.st = s.job.st)
      ∧ (¬ fed → exec (.interleaveSlotStart g) s = .next s))
    ∧ (∀ l e, s.job.installing.find? (fun l => (s.groupOf g).slots.any fun x => x.kind == 4 && x.layer == l) = some l →
        s.layer? l = some e → ∃ t, exec (.interleaveSlotStart g) s = .next t
          ∧ (t.group g).item = some ⟨.upd, l, 0, e.uProg + 1⟩ ∧ Started g (e.uProg + 1) s t ∧ t.mm = s.mm ∧ t.job = s.job)
    ∧ (s.job.installing = [] → s.coll.released = false → exec (.interleaveSlotStart g) s = .next s)

/-- WORK_ITEM_COMPLETE (R124, R164, R165, R178, R227): an item is over when every core of its group has nothing left of its
program; what it counted joins its layer's status, and its group stands at the next slot. A U item runs its two programs in
turn, with the kernel between them. -/
def Sys2Proof.Claims.ItemsCompleteTogether : Prop :=
  ∀ (g : Nat) (it : Item) (s : State), (s.group g).item = some it → (s.group g).misses = [] →
    let ended (t : State) : Prop := (t.group g).item = none ∧ (t.group g).pos = (s.group g).pos + 1
      ∧ t.layerStat it.lstatKey = (s.layerStat it.lstatKey).add (s.group g).got
      ∧ t.job = { s.job with done := (it.kind.code, it.layer, it.mb) :: s.job.done }
      ∧ (∀ k, k ≠ g → t.group k = s.group k) ∧ t.regs = s.regs ∧ t.results = s.results
    (it.kind = .fwd ∨ it.kind = .bwd ∨ it.kind = .win → s.groupFinished g = true →
      ∃ t, exec (.workItemComplete g) s = .next t ∧ ended t)
    ∧ (it.kind ≠ .bubble → s.groupFinished g = false → exec (.workItemComplete g) s = .next s)
    ∧ (∀ l, it.kind = .upd → s.groupFinished g = true → s.layer? it.layer = some l →
      (it.prog = l.uProg → s.allGood ((s.layerBlocks it.layer).flatMap s.kernelReads) = true →
        ∃ t, exec (.workItemComplete g) s = .next t ∧ (t.group g).item = some { it with prog := l.uProg + 1 }
          ∧ Started g (l.uProg + 1) s t ∧ (t.group g).pos = (s.group g).pos ∧ t.job.done = s.job.done)
      ∧ (it.prog ≠ l.uProg → s.job.installing = [] → ∃ t, exec (.workItemComplete g) s = .next t ∧ ended t)
      ∧ (it.prog ≠ l.uProg → s.job.installing ≠ [] → ∃ t, exec (.workItemComplete g) s = .next t
          ∧ (t.group g).item = none ∧ (t.group g).pos = (s.group g).pos
          ∧ t.job = { s.job with installing := s.job.installing.filter fun k => k != it.layer }))

/-- ELECTIVE_ADMISSION (R204, R207, R397): at the start of a bubble the first waiting problem of the hearth whose estimate
fits the headroom takes the lowest free cell, once its factor average can be read. -/
def Sys2Proof.Claims.ElectiveWorkIsAdmitted : Prop :=
  ∀ (g h i c : Nat) (p : Prob) (s : State), (s.bubble g).isSome = true → (s.groupOf g).cores ≠ [] →
    (∀ n ∈ (s.groupOf g).cores, n / 96 = h) → h < 4 → s.firstRoot h false = some i → s.prob? i = some p →
    s.freeCell h = some c → s.job.st.live = true → s.eff.elective = true → s.admitPoint h = true →
    (scaleEst s h 1500 : Int) ≤ headroom s (some h) → (∀ r ∈ s.loadReads i p, s.vmGood r.1 r.2 = true) →
    ∃ t, exec (.electiveAdmission (.bubble g)) s = .next t ∧ (t.run i).phase = .running ∧ (t.run i).cell = some c
      ∧ (s.firstRoot h true = none → s.borrowedOn h = none → t.mm.mem = s.mm.mem)
      ∧ t.job.st = s.job.st ∧ t.groups = s.groups ∧ t.regs = s.regs

/-- Work items start when fed and complete together. -/
def Obligations.WorkItemsFollowTheTable : Prop :=
  Claims.SlotsStartWhenFed
    ∧ Claims.ItemsCompleteTogether
    ∧ Claims.ElectiveWorkIsAdmitted

/-- STEP_BOUNDARY (R31, R33, R376, R377, Table 01.6): the orders of a boundary, one after the other. -/
def Sys2Proof.Claims.BoundaryKeepsItsOrder : Prop :=
  ∀ (s : State), s.job.st.stepping = true → s.isDiag = false →
    let after (p : State → Prop) : Prop := ∃ t, exec .stepBoundary s = .next t ∧ t.regs = s.regs ∧ t.sec = s.sec ∧ p t
    (s.bnd.order = 0 → exec .stepBoundary s = .next s)
    ∧ (s.bnd.order = 2 → after fun t => t.bnd.order = 3 ∧ t.record = stepRecord s
        ∧ klook t.history (s.job.committed % 4096) = some (stepRecord s) ∧ t.job = s.job)
    ∧ (∀ c, s.bnd.order = 3 → s.job.pend = some c → after fun t => t.bnd.order = 4 ∧ t.job.pend = none
        ∧ (if c = .checkpointNow then t.job.ckptAsked = true else t.job.taken = some c))
    ∧ (s.bnd.order = 3 → s.job.pend = none → after fun t => t.bnd.order = 4 ∧ t.job = s.job)
    ∧ (s.bnd.order = 4 → after fun t => t.bnd.order = 5 ∧ t.bnd.ckptDue = s.ckptDueAt s.job.committed ∧ t.job = s.job
        ∧ ∀ x ∈ s.segments, x.period ≠ 0 → s.job.committed % x.period = 0 → x.id ∈ t.eval.dueSegs)
    ∧ (s.bnd.order = 5 → s.evalOpen = false → after fun t =>
        t = { s with bnd := { s.bnd with order := 6, orderStart := s.localUs } })
    ∧ (s.bnd.order = 5 → s.evalOpen = true → exec .stepBoundary s = .next s)
    ∧ (s.bnd.order = 6 → s.bnd.ckptDue = false → after fun t => t.bnd.order = 7 ∧ t.mm.retirePending = []
        ∧ t.leaven.closed = !s.eff.elective ∧ t.job = s.job ∧ t.mm.mem = s.mm.mem)
    ∧ (s.bnd.order = 6 → s.bnd.ckptDue = true → s.eff.elective = true ∨ s.bnd.ckptPhase ≠ 0 → exec .stepBoundary s = .next s)
    ∧ (s.bnd.order = 6 → s.bnd.ckptDue = true → s.eff.elective = false → s.bnd.ckptPhase = 0 → after fun t =>
        t.bnd.order = 7 ∧ t.bnd.ckptDue = false ∧ t.job = { s.job with ckptAsked := true } ∧ t.mm.mem = s.mm.mem)
    ∧ (s.bnd.order = 7 → after fun t => t.bnd.order = 8 ∧ t.leaven.closed = true ∧ t.job = s.job)
    ∧ (s.bnd.order = 8 → s.job.haltPend = none → s.job.taken = none → NothingEarly (s.job.committed + 1) s →
      after fun t => t.bnd.order = 0
        ∧ t.job.st = s.job.st ∧ t.job.step = s.job.committed + 1 ∧ t.job.attempt = 0 ∧ t.job.committed = s.job.committed)
    ∧ (s.bnd.order = 8 → s.job.haltPend = none → s.job.taken = some .pause → after fun t => t.job.st = .paused
        ∧ (s.dev.st = .active → t.dev.st = .active) ∧ t.job.committed = s.job.committed ∧ t.mm = s.mm)
    ∧ (s.bnd.order = 8 → s.job.haltPend = none → s.job.taken = some .stop → after fun t => t.job.st = .loaded
        ∧ t.gov.vcore = [550, 550, 550, 550] ∧ t.job.committed = s.job.committed ∧ t.mm = s.mm ∧ t.eval.queue = []
        ∧ t.eval.served = s.eval.served)
    ∧ (∀ c, s.bnd.order = 8 → s.job.haltPend = some c → after (Halted c s))

/-- PAUSED_CYCLE (R33, R34, R340): every 1 ms a paused job takes its pending command and serves evaluation. RESUME and STOP take
effect at order 8, at once where no request runs at order 5, else by the cycle that finds order 5 over. -/
def Sys2Proof.Claims.PausedJobsStillServe : Prop :=
  ∀ (s : State), s.job.st = .paused → s.bnd.order ≠ 3 → s.bnd.order ≠ 5 ∨ s.evalOpen = false →
    let after (us : Nat) (p : State → Prop) : Prop := ∃ t, exec .pausedCycle s = .next t ∧ t.regs = s.regs ∧ t.sec = s.sec
      ∧ t.localUs = us ∧ t.job.committed = s.job.committed ∧ p t
    let now := max s.localUs (s.bnd.started + 1000)
    let resumed (t : State) : Prop := t.job.st = .running ∧ t.job.step = s.job.committed + 1 ∧ t.bnd.order = 0
    let stopped (t : State) : Prop := t.job.st = .loaded ∧ t.eval.queue = [] ∧ t.bnd.order = 0
    let serves (c : JobCmd) (t : State) : Prop := t.job.st = .paused ∧ t.job.taken = some c ∧ t.job.pend = none
      ∧ t.bnd.order = 5 ∧ t.evalOpen = true
    (s.job.taken = none → s.job.pend = some .resume → NothingEarly (s.job.committed + 1) s →
      after now fun t => resumed t ∨ serves .resume t)
    ∧ (s.job.taken = none → s.job.pend = some .stop → after now fun t => stopped t ∨ serves .stop t)
    ∧ (s.job.taken = some .resume → NothingEarly (s.job.committed + 1) s → after s.localUs resumed)
    ∧ (s.job.taken = some .stop → after s.localUs stopped)
    ∧ (s.job.pend = none → s.job.taken = none → s.job.ckptAsked = false → after now fun t => t.job = s.job ∧ t.bnd.order = 5)
    ∧ (s.job.pend = some .checkpointNow → s.job.taken = none → s.ing.ckptExt ≠ 0xFFFF → s.regs.elective = true →
        after now fun t => t.job.st = .paused ∧ t.bnd.order = 3 ∧ t.bnd.ckptDue = true)

/-- The orders of a step boundary, and the cycle of a paused job. -/
def Obligations.BoundaryKeepsItsOrder : Prop :=
  Claims.BoundaryKeepsItsOrder
    ∧ Claims.PausedJobsStillServe

/-- EVALUATION_SEGMENT (R182 to R184): the first segment due, or the first request waiting, starts its first layer at order 5;
the budgets of orders 5 and 7 stop what is admitted after them (R31, R184, R207). -/
def Sys2Proof.Claims.EvaluationRunsAtOrderFive : Prop :=
  ∀ (s : State) (x : Segment) (q : Option InboxReq) (l : Nat) (r : List Nat), s.bnd.order = 5 →
    (s.eval.running = none → s.nextEval = some (x, q) → s.evalFits x = true → s.evalFed x = true →
      (s.group x.group).item = none → s.pieceOn x.group = false → s.segLayers x = l :: r →
      ∃ t it, exec .evaluationSegment s = .next t ∧ t.eval.running = some (x.id, q.map (·.pos), l)
        ∧ (t.group x.group).item = some it ∧ it.kind = .eval x.id (q.map (·.pos)) ∧ it.layer = l
        ∧ Started x.group it.prog s t ∧ (∀ k, k ≠ x.group → t.group k = s.group k) ∧ t.job = s.job ∧ t.mm = s.mm)
    ∧ (s.nextEval = none → exec .evaluationSegment s = .next s)
    ∧ (s.isDiag = false → ∃ t, exec .evaluationBudgetExpiry s = .next t ∧ (∀ y, t.evalFits y = false)
        ∧ t = { s with localUs := max s.localUs (s.bnd.orderStart + s.params.evalBudget), eval := { s.eval with spent := 1 } })

/-- BOUNDARY_BUDGET_EXPIRY (R31, R207), and responses that do not arrive (R340): counted, dropped, not sent again. -/
def Sys2Proof.Claims.BudgetsAndLostResponses : Prop :=
  ∀ (s : State) (k u : Nat),
    (s.bnd.order = 7 → ∃ t, exec .boundaryBudgetExpiry s = .next t ∧ (t.order7 = false)
      ∧ t = { s with localUs := max s.localUs (s.bnd.orderStart + s.params.boundaryBudget)
                     leaven := { s.leaven with closed := true } })
    ∧ (klook s.eval.posted k = some u →
      (∃ t, exec (.responseTimeout k) s = .next t ∧ t.localUs = max s.localUs (u + 1000000)
        ∧ klook t.eval.posted k = none ∧ t.counter 0x9200 3 = satAdd 64 (s.counter 0x9200 3) 1 ∧ t.tx = s.tx
        ∧ t.eval = { s.eval with posted := t.eval.posted } ∧ t.job = s.job)
      ∧ (∃ t, exec (.responseWriteRejected k) s = .next t ∧ t.localUs = s.localUs
        ∧ klook t.eval.posted k = none ∧ t.counter 0x9200 3 = satAdd 64 (s.counter 0x9200 3) 1 ∧ t.tx = s.tx
        ∧ t.eval = { s.eval with posted := t.eval.posted } ∧ t.job = s.job))
    ∧ (klook s.eval.posted k = none → exec (.responseTimeout k) s = .next s ∧ exec (.responseWriteRejected k) s = .next s)

/-- Evaluation, the boundary's budgets, and lost responses. -/
def Obligations.EvaluationAndBudgets : Prop :=
  Claims.EvaluationRunsAtOrderFive
    ∧ Claims.BudgetsAndLostResponses

/-- CHECKPOINT_WRITE, FLUSH_COMPLETE and NVME_WRITE_COMPLETE (R334, R335): the older slot is made invalid first, then its
content, its header, and the flush that makes it valid; a block whose current slot is lost halts the job (R228). -/
def Sys2Proof.Claims.CheckpointsAreWrittenInOrder : Prop :=
  ∀ (s : State),
    (s.ckptMay = true → (∀ b ∈ s.blocks, s.genOk b = true) → ∃ t, exec .checkpointWrite s = .next t
      ∧ t.bnd = { s.bnd with ckptPhase := 1, ckptSlot := s.ckptChoice, ckptStep := s.job.committed, est := t.bnd.est }
      ∧ t.job = { s.job with ckptHdrs := s.job.ckptHdrs.set s.ckptChoice (0, []) }
      ∧ t.tx = s.tx ++ [.nvmeWrite (s.ckptLba s.ckptChoice) (List.replicate 4096 0), .nvmeFlush]
      ∧ t.mm = s.mm ∧ t.regs = s.regs)
    ∧ (s.ckptMay = true → s.job.st.live = true → (∃ b ∈ s.blocks, s.genOk b = false) →
      ∃ t, exec .checkpointWrite s = .next t ∧ Halted ECC_UNCORRECTABLE s t)
    ∧ (s.ckptHdrOk s.ckptChoice = true → s.ckptHdrOk (1 - s.ckptChoice) = true
        ∧ (s.job.ckptHdrs.getD s.ckptChoice (0, [])).1 ≤ (s.job.ckptHdrs.getD (1 - s.ckptChoice) (0, [])).1)
    ∧ (s.bnd.ckptPhase = 1 → (∃ r ∈ s.blockRanges s.bnd.ckptStep ++ s.rootRanges, s.vmGood r.1 r.2 = false) →
      exec .flushComplete s = .next s)
    ∧ (s.bnd.ckptPhase = 1 → (∀ r ∈ s.blockRanges s.bnd.ckptStep ++ s.rootRanges, s.vmGood r.1 r.2 = true) →
      ∃ t, exec .flushComplete s = .next t ∧ t.mm = s.mm ∧ t.job = s.job
      ∧ (let n := cdiv (s.ckptContent s.bnd.ckptStep).length (2 ^ 20)
         t.bnd = { s.bnd with ckptPhase := if n = 0 then 3 else 2, writesLeft := n }
          ∧ t.tx.length = s.tx.length + if n = 0 then 1 else n))
    ∧ (∀ n, s.bnd.ckptPhase = 2 → s.bnd.writesLeft = n + 1 → ∃ t, exec .nvmeWriteComplete s = .next t
      ∧ t.bnd = { s.bnd with ckptPhase := if n = 0 then 3 else 2, writesLeft := n }
      ∧ t.tx = s.tx ++ (if n = 0 then [.nvmeFlush] else []) ∧ t = { s with bnd := t.bnd, tx := t.tx })
    ∧ (s.bnd.ckptPhase = 3 → ∃ t, exec .flushComplete s = .next t
      ∧ t.tx = s.tx ++ [.nvmeWrite (s.ckptLba s.bnd.ckptSlot)
          (s.ckptHeader s.bnd.ckptStep (s.ckptContent s.bnd.ckptStep)), .nvmeFlush]
      ∧ t = { s with tx := t.tx, bnd := { s.bnd with ckptPhase := 4 } })
    ∧ (s.bnd.ckptPhase = 4 → ∃ t, exec .flushComplete s = .next t ∧ t.bnd.ckptPhase = 0 ∧ t.bnd.ckptDue = false
      ∧ t.job.ckptValid = s.bnd.ckptStep ∧ t.job.ckptAsked = false
      ∧ t.job.ckptHdrs = s.job.ckptHdrs.set s.bnd.ckptSlot (s.bnd.ckptStep, s.recipeDigest)
      ∧ Logged 0 ([4, s.bnd.ckptSlot] ++ w64 s.bnd.ckptStep) s t ∧ t.mm = s.mm ∧ t.regs = s.regs)

/-- CHECKPOINT_BUDGET_EXPIRY (R335): a checkpoint not yet begun is put off, one begun is abandoned unless its header is
written; both are due again at the next boundary. -/
def Sys2Proof.Claims.LateCheckpointsAreAbandoned : Prop :=
  ∀ (s : State), s.bnd.ckptDue = true → s.bnd.order = 6 ∨ s.bnd.order = 3 →
    let now := max s.localUs (s.bnd.orderStart + s.params.ckptBudget)
    (s.bnd.ckptPhase = 0 → ∃ t, exec .checkpointBudgetExpiry s = .next t
      ∧ t = { s with localUs := now, bnd := { s.bnd with ckptDue := false }, job := { s.job with ckptAsked := true } })
    ∧ (s.bnd.ckptPhase = 4 → ∃ t, exec .checkpointBudgetExpiry s = .next t ∧ t = { s with localUs := now })
    ∧ (s.bnd.ckptPhase = 1 ∨ s.bnd.ckptPhase = 2 ∨ s.bnd.ckptPhase = 3 → ∃ t, exec .checkpointBudgetExpiry s = .next t
      ∧ t.bnd.ckptPhase = 0 ∧ t.bnd.ckptDue = false ∧ t.job.ckptAsked = true ∧ t.localUs = now
      ∧ t.job.ckptHdrs = s.job.ckptHdrs ∧ t.job.ckptValid = s.job.ckptValid
      ∧ t.counter 0x9100 7 = satAdd 32 (s.counter 0x9100 7) 1 ∧ t.mm = s.mm)

/-- Checkpoints are written in order or abandoned. -/
def Obligations.CheckpointsAreWrittenInOrder : Prop :=
  Claims.CheckpointsAreWrittenInOrder
    ∧ Claims.LateCheckpointsAreAbandoned

/-! ## Storage and host ports -/

/-- INGEST_PACKING (R179 to R181, R330): the step whose last micro-batch has closed is packed; its headers stand, and the
next step opens. What the record at the cursor does to the open micro-batch. -/
def Sys2Proof.Claims.PackingFollowsTheCursor : Prop :=
  ∀ (s : State),
    (s.job.st.live = true → s.ingest.packStep ≤ s.job.committed + 2 → s.packCount ≤ s.ingest.open_ → s.split = false →
      ∃ t, exec .ingestPacking s = .next t ∧ t.ingest.packStep = s.ingest.packStep + 1
        ∧ klook t.ingest.hdrs s.ingest.packStep = some s.ingest.mbs ∧ t.ingest.open_ = 0
        ∧ t.ingest.cursor = s.ingest.cursor ∧ klook t.ingest.cursorAt (s.ingest.packStep + 1) = some s.ingest.cursor
        ∧ t.job = s.job ∧ t.groups = s.groups ∧ t.regs = s.regs)
    ∧ (s.job.st.live = false ∨ s.job.committed + 2 < s.ingest.packStep → exec .ingestPacking s = .next s)
    ∧ (∀ len, takeRecord 0 len s
        = some { s with ingest := { s.ingest with cursor := { s.ingest.cursor with off := s.ingest.cursor.off + len } } })
    ∧ (∀ l len, s.params.tokenBudget < l → s.split = false → ∃ t, takeRecord l len s = some t
        ∧ t.ingest.cursor = { s.ingest.cursor with off := s.ingest.cursor.off + len }
        ∧ t.counter 0x9100 2 = satAdd 64 (s.counter 0x9100 2) 1 ∧ t.ingest.open_ = s.ingest.open_)
    ∧ (∀ l len, 0 < l → l ≤ s.params.tokenBudget →
        s.params.tokenBudget - (s.ingest.mbs.getD s.ingest.open_ MbHdr.empty).valid < l →
        ∃ t, takeRecord l len s = some t ∧ t.ingest.open_ = s.ingest.open_ + 1 ∧ t.ingest.cursor = s.ingest.cursor)

/-- NVMe Reads (R332, R333): a Read that succeeds leaves its bytes; one that fails or times out goes out again as a new
command through the other port, the fourth failure halts the job. -/
def Sys2Proof.Claims.FailedReadsGoOutAgain : Prop :=
  ∀ (cid status : Nat) (r : NvmeRead) (s : State), s.ingest.reads.find? (fun r => r.cid = cid) = some r →
    let retry (us : Nat) : NvmeRead :=
      { r with cid := s.ingest.nextCid, port := 1 - r.port, tries := r.tries + 1, sent := us }
    let again (t : State) (us : Nat) : Prop := t.tx = s.tx ++ [.nvmeRead (retry us)]
      ∧ t.ingest.reads = s.ingest.reads.filter (fun x => x.cid != cid) ++ [retry us]
      ∧ t.ingest = { s.ingest with reads := t.ingest.reads, nextCid := s.ingest.nextCid + 1 } ∧ t.localUs = us
      ∧ t = { s with tx := t.tx, ingest := t.ingest, localUs := us }
    let late := max s.localUs (r.sent + 5000000)
    (∀ data, ∃ t, exec (.nvmeReadComplete cid 0 data) s = .next t
      ∧ t = { s with ingest := { s.ingest with
          reads := s.ingest.reads.filter (fun x => x.cid != cid), bytes := s.ingest.bytes ++ [(r.pos, data.take r.len)] } })
    ∧ (∀ data, status ≠ 0 → r.tries < 3 → ∃ t, exec (.nvmeReadComplete cid status data) s = .next t ∧ again t s.localUs)
    ∧ (r.tries < 3 → ∃ t, exec (.nvmeReadTimeout cid 0) s = .next t ∧ again t late)
    ∧ (∀ data, status ≠ 0 → 3 ≤ r.tries → HaltsNow s →
      ∃ t, exec (.nvmeReadComplete cid status data) s = .next t ∧ Halted PARTNER_SILENT s t ∧ t.mm.mem = s.mm.mem)

/-- NVME_KEEP_ALIVE (R327), SPLIT_NOTICE (R282) and INGEST_BOUND_EXPIRY (R332, R333). -/
def Sys2Proof.Claims.IngestWaitsForItsPartners : Prop :=
  ∀ (s : State),
    (∀ tgt, s.recipe.loaded.isSome = true → s.dev.mainUp = true → tgt < s.ing.targets →
      ∃ t, exec (.nvmeKeepAlive tgt) s = .next t ∧ t = { s with tx := s.tx ++ [.nvmeOther tgt 0] })
    ∧ (∀ src step l, src ∈ s.sMembers → s.split = true → s.job.st.live = false ∨ s.ingest.packStep ≤ step →
      ∃ t, exec (.splitNotice src step l) s = .next t
        ∧ klook t.ingest.notices (noticeKey step (s.sMembers.idxOf src)) = some l
        ∧ t = { s with ingest := { s.ingest with notices := t.ingest.notices } })
    ∧ (∀ src step l, src ∉ s.sMembers → exec (.splitNotice src step l) s = .next s)
    ∧ (∀ late, s.job.st.live = true → s.isDiag = false → klook s.ingest.hdrs (s.job.committed + 1) = none →
      let now := max s.localUs (s.job.commitUs + (s.ingest.lateBounds + 1) * (s.eff.ingestBound * 1000))
      (s.ingest.lateBounds < 3 → ∃ t, exec (.ingestBoundExpiry late) s = .next t ∧ t.localUs = now
        ∧ t.ingest = { s.ingest with lateBounds := s.ingest.lateBounds + 1 } ∧ t.job.st = s.job.st
        ∧ t.job.attempt = s.job.attempt ∧ t.mm = s.mm)
      ∧ (3 ≤ s.ingest.lateBounds → HaltsNow s →
        ∃ t, exec (.ingestBoundExpiry late) s = .next t ∧ Halted PARTNER_SILENT s t ∧ t.localUs = now))
    ∧ (∀ late, (klook s.ingest.hdrs (s.job.committed + 1)).isSome = true → exec (.ingestBoundExpiry late) s = .next s)

/-- Ingest packs steps and asks again for failed Reads. -/
def Obligations.IngestPacksAndRetries : Prop :=
  Claims.PackingFollowsTheCursor
    ∧ Claims.FailedReadsGoOutAgain
    ∧ Claims.IngestWaitsForItsPartners

/-- HOST_PORT_LINK_LOSS, HOST_PORT_LINK_UP and INBOX_CLIENT_CONNECT (R325, R326): connections and commands of a port that
loses its link go on through the other; a registered client gets one connection. -/
def Sys2Proof.Claims.ConnectionsMoveToTheOtherPort : Prop :=
  ∀ (p : Nat) (s : State), p < 2 → s.ports.length = 2 →
    ((s.host p).up = true → ∃ t, exec (.hostPortLinkLoss p) s = .next t ∧ (t.host p).up = false
      ∧ (t.host p).losses = satAdd 32 (s.host p).losses 1 ∧ t.host (1 - p) = s.host (1 - p)
      ∧ (∀ c ∈ t.conns, c.port ≠ p) ∧ t.conns.map (·.id) = s.conns.map (·.id)
      ∧ (∀ r ∈ t.ingest.reads, r.port ≠ p) ∧ t.ingest.reads.map (·.cid) = s.ingest.reads.map (·.cid)
      ∧ Logged 0 [1, p] s t ∧ t.job.st = s.job.st ∧ t.mm = s.mm)
    ∧ ((s.host p).up = false → exec (.hostPortLinkLoss p) s = .next s)
    ∧ (s.dev.mainUp = true → s.dev.st ≠ .sleep → ∃ t, exec (.hostPortLinkUp p) s = .next t
      ∧ t.host p = { s.host p with up := true } ∧ t.host (1 - p) = s.host (1 - p) ∧ t.conns = s.conns
      ∧ t = { s with ports := t.ports, dev := { s.dev with hostUp := s.dev.hostUp.set p true } })
    ∧ (∀ addr k v, s.regs.clients.find? (fun c => ofLe (c.2.take 16) = addr) = some (k, v) →
      (s.host s.ingest.nextPort).up = true → s.ingest.nextPort < 2 →
      s.conns.countP (fun c => decide (0x100 ≤ c.id)) < 64 →
      ∃ t, exec (.inboxClientConnect addr) s = .next t ∧ ⟨0x100 + k, s.ingest.nextPort, fullRate, 0⟩ ∈ t.conns
        ∧ (∀ c ∈ s.conns, c.id ≠ 0x100 + k → c ∈ t.conns) ∧ t.ingest.nextPort = 1 - s.ingest.nextPort
        ∧ t = { s with conns := t.conns, ingest := { s.ingest with nextPort := t.ingest.nextPort } })
    ∧ (∀ addr, s.regs.clients.find? (fun c => ofLe (c.2.take 16) = addr) = none →
      exec (.inboxClientConnect addr) s = .next s)

/-- Frames (R323, R324, R326, R337): what the port does not support is discarded and counted; a request written inside its
client's window lands in the inbox, one outside leaves it as it stands; a congestion notification halves the rate; a PFC
frame of another priority pauses nothing. -/
def Sys2Proof.Claims.FramesAreTakenOrDiscarded : Prop :=
  ∀ (f : Frame) (s : State), f.port < 2 → s.ports.length = 2 → (s.host f.port).up = true →
    let counted (x : HostPort) : HostPort := { x with received := satAdd 64 x.received 1 }
    (s.frameOk f = false → ∃ t, exec (.ethernetFrameReceived f) s = .next t
      ∧ t.host f.port = { counted (s.host f.port) with discarded := satAdd 64 (s.host f.port).discarded 1 }
      ∧ t = { s with ports := t.ports })
    ∧ (f.body = .icmpEcho → s.frameOk f = true → ∃ t, exec (.ethernetFrameReceived f) s = .next t
      ∧ t.tx = s.tx ++ [.frame f.port frameEchoReply] ∧ t.host f.port = counted (s.host f.port)
      ∧ t = { s with ports := t.ports, tx := t.tx })
    ∧ (∀ c off data lo n, f.body = .inboxWrite c off data → f.ce = false → s.frameOk f = true →
      (∃ k ∈ s.conns, k.id = c ∧ k.port = f.port) → s.window c = some (lo, n) → s.mm.up = true →
      memWf s.eval.inbox = true →
      (lo ≤ off → off + data.length ≤ lo + n → ∃ t, exec (.ethernetFrameReceived f) s = .next t
        ∧ (∀ i < data.length, memRead t.eval.inbox (off + i) = data.getD i 0)
        ∧ (∀ a, a < off ∨ off + data.length ≤ a → memRead t.eval.inbox a = memRead s.eval.inbox a)
        ∧ t = { s with ports := t.ports, eval := { s.eval with inbox := t.eval.inbox } })
      ∧ (off < lo ∨ lo + n < off + data.length → ∃ t, exec (.ethernetFrameReceived f) s = .next t
        ∧ t = { s with ports := t.ports }))
    ∧ (∀ prio q, ∃ t, exec (.pfcFrame f.port prio q) s = .next t ∧ (t.host f.port).pfc = satAdd 64 (s.host f.port).pfc 1
      ∧ t = { s with ports := t.ports } ∧ (prio ≠ s.regs.prio.getD 0 3 →
          (t.host f.port).pausedUntil = (s.host f.port).pausedUntil)
      ∧ (prio = s.regs.prio.getD 0 3 →
          tget 0 (t.host f.port).pausedUntil prio = s.localUs + cdiv (q % 65536 * 128) 100000))
    ∧ (∀ c, ∃ t, exec (.congestionNotification c) s = .next t ∧ t = { s with conns := t.conns }
      ∧ t.conns = s.conns.map fun k =>
          if k.id = c then { k with rate := k.now s.localUs / 2, recoverAt := s.localUs + 1000 } else k)

/-- Host ports, connections and frames. -/
def Obligations.HostPortsCarryConnections : Prop :=
  Claims.ConnectionsMoveToTheOtherPort
    ∧ Claims.FramesAreTakenOrDiscarded

/-! ## Collectives, commit and roots -/

/-- Collectives (R228, R248 to R251, R255, R264): a run starts once its trigger has come; packets of the present attempt are
taken into it, those of a later step wait, those of an earlier attempt are dropped; it is over when all it owes is written
and acknowledged. -/
def Obligations.CollectivesRunOnce : Prop :=
  ∀ (c : Coll) (m : Nat) (s : State), s.coll? c.id = some c →
    (s.triggered c m = true → (c.trigger = 5 → s.evalNeeds c.layer = true) → (s.collRun c.id).cur = none →
      m ∉ (s.collRun c.id).finished → m < s.collRuns c →
      ((∀ b, s.blockAt c.srcVa = some b → s.genOk b = true) → (c.op = 3 → s.a2aGood c m = true) →
        ∃ t, exec (.collectiveStart c.id m) s = .next t
        ∧ (t.collRun c.id).cur = some m ∧ (t.collRun c.id).finished = (s.collRun c.id).finished
        ∧ (∀ k, k ≠ c.id → t.collRun k = s.collRun k) ∧ t.job = s.job ∧ t.groups = s.groups ∧ t.regs = s.regs)
      ∧ (∀ b, s.blockAt c.srcVa = some b → s.genOk b = false → s.job.haltPend = none →
        (HaltsNow s → ∃ t, exec (.collectiveStart c.id m) s = .next t ∧ Halted ECC_UNCORRECTABLE s t)
        ∧ (s.job.st.stepping = true → s.bnd.order ≠ 0 → ∃ t, exec (.collectiveStart c.id m) s = .next t
            ∧ t.job.haltPend = some ECC_UNCORRECTABLE ∧ t.job.st = s.job.st ∧ t.bnd = s.bnd)))
    ∧ (s.triggered c m = false ∨ (c.trigger = 5 ∧ s.evalNeeds c.layer = false) →
        exec (.collectiveStart c.id m) s = .next s)
    ∧ (∀ (p : Packet) (k : Nat), p.flow = c.id → c.rankOf s.cont.collSec p.src = some k → s.job.st.live = true →
      p.dst = s.devId →
      (p.step = s.job.step → p.attempt = s.job.attempt → ∃ t, exec (.collectivePacket p) s = .next t
        ∧ ((s.collRun c.id).cur = none →
            (t.collRun c.id).got = (s.collRun c.id).got ++ [⟨p.seq, k, p.offset, p.nstatus, p.payload⟩])
        ∧ (t.collRun c.id).cur = (s.collRun c.id).cur
        ∧ (∀ b ∈ (s.collRun c.id).doneBuckets, b ∈ (t.collRun c.id).doneBuckets)
        ∧ (∀ j, j ≠ c.id → t.collRun j = s.collRun j) ∧ t.job = s.job ∧ t.groups = s.groups)
      ∧ (s.job.step < p.step → ∃ t, exec (.collectivePacket p) s = .next t ∧ t.coll.early = s.coll.early ++ [p]
        ∧ t.coll.runs = s.coll.runs ∧ t.job = s.job ∧ t.mm = s.mm)
      ∧ (p.step < s.job.step ∨ (p.step = s.job.step ∧ p.attempt < s.job.attempt) →
        ∃ t, exec (.collectivePacket p) s = .next t ∧ t = { s with fab := { s.fab with delivered := t.fab.delivered } }))
    ∧ ((s.collRun c.id).cur = some m →
      ((∀ k ∈ c.duties s.cont.collSec, k ∈ (s.collRun c.id).doneBuckets) → s.unsent c = false →
        ∃ t, exec (.collectiveComplete c.id) s = .next t ∧ (t.collRun c.id).cur = none
          ∧ (t.collRun c.id).finished = m :: (s.collRun c.id).finished ∧ (∀ j, j ≠ c.id → t.collRun j = s.collRun j)
          ∧ t = { s with coll := { s.coll with runs := t.coll.runs } })
      ∧ ((∃ k ∈ c.duties s.cont.collSec, k ∉ (s.collRun c.id).doneBuckets) ∨ s.unsent c = true →
        exec (.collectiveComplete c.id) s = .next s))

/-- Commit (R262, R263, R268): phase one met and PREPARE in from every child, a device sends PREPARE to its parent and the
commit root commits; COMMIT, or a DECISION to commit, commits a device that has sent PREPARE. -/
def Obligations.StepsCommitThroughTheTree : Prop :=
  ∀ (s : State), s.inStep = true →
    (s.phaseOneMet = true → s.coll.phaseOne = false → s.coll.prepSent = false →
      ((∃ d ∈ s.kids, d ∉ s.coll.prepGot) → ∃ t, exec .commitPhaseOne s = .next t
        ∧ t = { s with coll := { s.coll with phaseOne := true } })
      ∧ ((∀ d ∈ s.kids, d ∈ s.coll.prepGot) → s.rank ≠ 0 → ∃ t, exec .commitPhaseOne s = .next t
        ∧ FabricOnly { s with coll := { s.coll with phaseOne := true, prepSent := true } } t
        ∧ .commit s.parentDev kPREPARE (s.msg 0 s.devId false) ∈ t.tx)
      ∧ ((∀ d ∈ s.kids, d ∈ s.coll.prepGot) → s.rank = 0 → ∃ t, exec .commitPhaseOne s = .next t ∧ Committed s t
        ∧ t.coll.decided = some true))
    ∧ (s.phaseOneMet = false → exec .commitPhaseOne s = .next s)
    ∧ (∀ m, s.forStep m = true → m.attempt = s.job.attempt →
      (m.sender ∈ s.kids → m.sender ∉ s.coll.prepGot → s.coll.phaseOne = false → ∃ t, exec (.prepare m) s = .next t
        ∧ t = { s with coll := { s.coll with prepGot := m.sender :: s.coll.prepGot } })
      ∧ (m.sender ∈ s.kids → m.sender ∉ s.coll.prepGot → s.coll.phaseOne = true → s.coll.prepSent = false →
        (∀ d ∈ s.kids, d = m.sender ∨ d ∈ s.coll.prepGot) → s.rank = 0 →
        ∃ t, exec (.prepare m) s = .next t ∧ Committed s t)
      ∧ (m.sender ∈ s.kids → m.sender ∉ s.coll.prepGot → s.coll.phaseOne = true → s.coll.prepSent = false →
        (∀ d ∈ s.kids, d = m.sender ∨ d ∈ s.coll.prepGot) → s.rank ≠ 0 → ∃ t, exec (.prepare m) s = .next t
        ∧ FabricOnly { s with coll := { s.coll with prepGot := m.sender :: s.coll.prepGot, prepSent := true } } t
        ∧ .commit s.parentDev kPREPARE (s.msg 0 s.devId false) ∈ t.tx)
      ∧ (s.coll.prepSent = true → ∃ t, exec (.commit m) s = .next t ∧ Committed s t)
      ∧ (s.coll.prepSent = false → exec (.commit m) s = .next s)
      ∧ (s.coll.prepSent = true → m.commit = true → ∃ t, exec (.decision m) s = .next t ∧ Committed s t)
      ∧ (s.coll.prepSent = true → m.commit = false → s.job.attempt < s.eff.repeatLimit →
        ∃ t, exec (.decision m) s = .next t ∧ RepeatsFrom STEP_REPEAT_FAULT m.sender s t))

/-- Abort (R264 to R266, R269): ABORT discards the attempt with the sender's cause, the last attempt of the limit halts the
job; ABORT_REQ has the commit root abort for every member; an item of a higher attempt discards every one below it. -/
def Sys2Proof.Claims.AttemptsAreAborted : Prop :=
  ∀ (m : CommitMsg) (s : State),
    (s.forStep m = true → m.attempt = s.job.attempt →
      (s.job.attempt < s.eff.repeatLimit → ∃ t, exec (.abort m) s = .next t ∧ RepeatsFrom m.code m.origin s t)
      ∧ (s.eff.repeatLimit ≤ s.job.attempt → ∃ t, exec (.abort m) s = .next t ∧ Halted REPEAT_LIMIT s t)
      ∧ (s.rank = 0 → s.job.attempt < s.eff.repeatLimit → ∃ t, exec (.abortReq m) s = .next t
        ∧ RepeatsFrom m.code m.sender s t ∧ ∀ d ∈ s.others, .commit d kABORT (s.msg m.code m.sender false) ∈ t.tx)
      ∧ (s.rank ≠ 0 → exec (.abortReq m) s = .next s))
    ∧ (s.inStep = true → m.step = s.job.step → s.mine m = true → s.job.attempt < m.attempt →
      m.attempt ≤ s.eff.repeatLimit → m.attempt ≤ s.job.attempt + 16 →
      ∃ t, exec (.higherAttempt m true none) s = .next t ∧ t.job.attempt = m.attempt ∧ t.job.st = .repeating
        ∧ t.job.causes = s.job.causes ++ List.replicate (m.attempt - s.job.attempt) (m.code, m.origin)
        ∧ t.job.committed = s.job.committed ∧ t.job.step = s.job.step ∧ t.groups = [])
    ∧ (m.step < s.job.step → m.step ≤ s.job.committed → exec (.abort m) s = .next s)
    ∧ (m.step ≠ s.job.step → exec (.higherAttempt m true none) s = .next s)
    ∧ (s.mine m = true → s.inStep = true → s.job.committed < m.step → s.job.step < m.step →
      ∃ t, exec (.abort m) s = .next t ∧ t = { s with coll := { s.coll with held := s.coll.held ++ [(kABORT, m)] } })

/-- QUERY and HALT (R268, R270): the commit root answers a query once it is decided, and each query once (the model's
choice, log entry 80); HALT stops every member, at order 8 where a boundary is under way. -/
def Sys2Proof.Claims.QueriesAndHalts : Prop :=
  ∀ (m : CommitMsg) (s : State), s.mine m = true →
    let asked := (m.step, m.attempt, m.sender) ∈ s.coll.answered
    let answers (commit : Bool) : Prop := ∃ t, exec (.query m) s = .next t
      ∧ FabricOnly { s with coll := { s.coll with answered := (m.step, m.attempt, m.sender) :: s.coll.answered } } t
      ∧ .commit m.sender kDECISION { s.msg 0 s.devId commit with step := m.step, attempt := m.attempt } ∈ t.tx
    let now := s.inStep = true ∧ s.job.committed < m.step ∧ m.step = s.job.step
    (s.rank = 0 → m.step ≤ s.job.committed → ¬ asked → answers (s.committedAs m.step m.attempt))
    ∧ (s.rank = 0 → now → m.attempt < s.job.attempt → ¬ asked → answers false)
    ∧ (s.rank = 0 → m.step ≤ s.job.committed ∨ (now ∧ m.attempt < s.job.attempt) → asked →
        exec (.query m) s = .next s)
    ∧ (s.rank = 0 → now → m.attempt = s.job.attempt → m.sender ∉ s.coll.queries →
      ∃ t, exec (.query m) s = .next t ∧ t = { s with coll := { s.coll with queries := s.coll.queries ++ [m.sender] } })
    ∧ (s.rank = 0 → now → m.attempt = s.job.attempt → m.sender ∈ s.coll.queries → exec (.query m) s = .next s)
    ∧ (s.rank ≠ 0 → exec (.query m) s = .next s)
    ∧ (HaltsNow s → ∃ t, exec (.halt m) s = .next t ∧ Halted m.code s t ∧ t.mm.mem = s.mm.mem)
    ∧ (s.job.st.stepping = true → s.bnd.order ≠ 0 → s.job.haltPend = none → ∃ t, exec (.halt m) s = .next t
      ∧ t = { s with job := { s.job with haltPend := some m.code } })

/-- Silence (R267, R268) and the exchange of digests (R271). -/
def Sys2Proof.Claims.SilenceAndDigests : Prop :=
  ∀ (s : State),
    (∀ w partner item detail, CanRepeat s → s.waitsFor w partner item detail = true →
      ∃ t, exec (.partnerSilent w partner item detail) s = .next t ∧ Repeats STEP_REPEAT_LATE s t
        ∧ t.localUs = max s.localUs (s.job.stepStart + s.eff.silence))
    ∧ (∀ w partner item detail, s.waitsFor w partner item detail = false →
      exec (.partnerSilent w partner item detail) s = .next s)
    ∧ (∀ partner item detail, s.bnd.order = 5 → s.waitsFor .bucket partner item detail = true →
      ∃ t, exec (.partnerSilent .bucket partner item detail) s = .next t ∧ t.job.st = s.job.st
        ∧ t.job.attempt = s.job.attempt ∧ t.localUs = max s.localUs (s.bnd.orderStart + s.eff.silence) ∧ t.coll = s.coll)
    ∧ (s.inStep = true → s.coll.prepSent = true → s.coll.silences < 3 → ∃ t, exec .commitOutcomeSilence s = .next t
      ∧ t.coll = { s.coll with silences := s.coll.silences + 1 } ∧ t.localUs = s.localUs + s.eff.silence
      ∧ .commit s.commitRoot kQUERY (s.msg 0 s.devId false) ∈ t.tx ∧ t.job.st = s.job.st
      ∧ t.job.attempt = s.job.attempt ∧ t.mm = s.mm)
    ∧ (s.inStep = true → s.coll.prepSent = true → 3 ≤ s.coll.silences → ∃ t, exec .commitOutcomeSilence s = .next t
      ∧ Halted PARTNER_SILENT s t)
    ∧ (∀ sender d, s.job.st.live = true →
      (s.rank = 0 → d ≠ s.coll.digest → HaltsNow s → ∃ t, exec (.digestExchange sender d) s = .next t
        ∧ Halted DESCRIPTOR_INVALID s t)
      ∧ (s.rank = 0 → d = s.coll.digest → ∃ t, exec (.digestExchange sender d) s = .next t
        ∧ t.coll.digests = (sender, d) :: s.coll.digests.filter (fun x => x.1 != sender)
        ∧ (s.coll.digestSent = true → s.coll.members.length ≤ t.coll.digests.length + 1 → t.coll.released = true
            ∧ ∀ k ∈ s.others, .vl0 k 9 [s.coll.digest.toNat] ∈ t.tx)
        ∧ FabricOnly { s with coll := t.coll } t)
      ∧ (s.rank ≠ 0 → sender = s.commitRoot → s.coll.digestSent = true → ∃ t, exec (.digestExchange sender d) s = .next t
        ∧ t = { s with coll := { s.coll with released := true } })
      ∧ (s.rank ≠ 0 → sender ≠ s.commitRoot → ∃ t, exec (.digestExchange sender d) s = .next t
        ∧ FabricOnly s t ∧ .vl0 s.parentDev 8 [sender, d.toNat] ∈ t.tx))

/-- Aborts, queries, halts, silence and digests. -/
def Obligations.AbortsQueriesAndSilence : Prop :=
  Claims.AttemptsAreAborted
    ∧ Claims.QueriesAndHalts
    ∧ Claims.SilenceAndDigests

/-- Admission (R201, R204, R207, R208): the first waiting problem of its hearth takes a free cell, or a piece of it its
borrowed cores, once what it loads can be read; another is not admitted before it. -/
def Sys2Proof.Claims.RootsAreAdmittedInOrder : Prop :=
  ∀ (i : Nat) (p : Prob) (s : State), s.prob? i = some p → s.job.st.live = true →
    let h := p.job.hearth
    let loads := ∀ r ∈ s.loadReads i p, s.vmGood r.1 r.2 = true
    let n := p.job.borrowN + 1
    let cores := (s.pieceCores h).take n
    (∀ c, s.firstRoot h false = some i → s.freeCell h = some c → loads →
      s.mandatory (s.run i) = true ∨ (s.eff.elective = true ∧ s.admitPoint h = true
        ∧ (scaleEst s h 1500 : Int) ≤ headroom s (some h)) →
      ∃ t, exec (.rootProblemAdmission i) s = .next t ∧ (t.run i).phase = .running ∧ (t.run i).cell = some c
        ∧ (t.run i).src = (s.run i).src ∧ (t.run i).due = (s.run i).due ∧ (∀ k, k ≠ i → t.run k = s.run k)
        ∧ t.mm.mem = s.mm.mem ∧ t.job.st = s.job.st ∧ t.regs = s.regs)
    ∧ (s.firstRoot h false ≠ some i → exec (.rootProblemAdmission i) s = .next s)
    ∧ (p.job.borrow = true → p.role = 0 → (s.run i).cores = [] → cores.length = n → s.gov.gating = false →
      ((s.run i).phase = .waiting ∧ s.firstRoot h true = some i ∧ s.borrowedOn h = none ∧ loads)
        ∨ ((s.run i).phase = .running ∧ s.borrowedOn h = some i ∧ (s.run i).pieces < (s.solution i p).1.products) →
      s.mandatory (s.run i) = true ∨ (s.eff.elective = true ∧ s.admitPoint h = true
        ∧ (scaleEst s h (3200 * n) : Int) ≤ headroom s (some h) ∧ s.pieceFits cores (s.pieceUs p) = true) →
      ∃ t, exec (.borrowedPiece i) s = .next t ∧ (t.run i).phase = .running ∧ (t.run i).cores = cores
        ∧ (∀ k, k ≠ i → t.run k = s.run k) ∧ MemoryOutside [(p.job.workVa, 7 * (4096 * symTiles p.job.n))] s t
        ∧ t.cores = s.cores ∧ t.job.st = s.job.st)
    ∧ ((s.run i).cores ≠ [] → (s.run i).phase = .running → ∃ t, exec (.borrowedPieceComplete i) s = .next t
        ∧ (t.run i).pieces = (s.run i).pieces + 1 ∧ (∀ k, k ≠ i → t.run k = s.run k) ∧ t.mm = s.mm ∧ t.cores = s.cores
        ∧ (s.bnd.order = 7 → s.leaven.closed = true → (t.run i).cores = []
            ∧ t = { s with leaven := t.leaven, gov := { s.gov with electiveMw := t.gov.electiveMw } }))

/-- ROOT_PROBLEM_DECIDED and ROOT_COMMIT (R195 to R200, R206, R211): a solution that passes is held for its commit, a failure
is recorded and logged; a root is ready once it is written and every destination has acknowledged it. -/
def Sys2Proof.Claims.RootsAreDecidedAndWritten : Prop :=
  ∀ (i : Nat) (p : Prob) (s : State), s.prob? i = some p →
    let sol := (s.solution i p).1
    ((s.run i).phase = .running → (s.run i).cores = [] → (p.job.borrow = true → sol.products ≤ (s.run i).pieces) →
      (sol.code = 0 → ∃ t, exec (.rootProblemDecided i) s = .next t ∧ (t.run i).phase = .decided
        ∧ (t.run i).sol = sol.sol ∧ (t.run i).resid = sol.resid ∧ (t.run i).cell = none ∧ t.mm = s.mm ∧ t.log = s.log
        ∧ t.job = s.job ∧ ∀ k, k ≠ i → t.run k = s.run k)
      ∧ (sol.code ≠ 0 → ∃ t, exec (.rootProblemDecided i) s = .next t
        ∧ (t.run i).phase = (if (s.run i).later = [] then .none else .waiting)
        ∧ (t.run i).ended = (s.run i).ended ++ [((s.run i).due, sol.code)]
        ∧ (t.run i).cell = none ∧ MemoryOutside [(p.rootVa, 64)] s t
        ∧ Logged sol.code ([p.sig0, p.sig1] ++ w64 (s.run i).due ++ [sol.iters, sol.resid.toNat, sol.esc]) s t
        ∧ t.job.st = s.job.st ∧ ∀ k, k ≠ i → t.run k = s.run k))
    ∧ ((s.run i).phase = .decided → ∃ t, exec (.rootCommit i) s = .next t ∧ (t.run i).written = true
      ∧ ((s.run i).written = true → (t.run i).acks = (s.run i).acks)
      ∧ (t.run i).phase = (if (t.run i).acks = [] then .ready else .decided) ∧ t.job = s.job ∧ t.regs = s.regs
      ∧ ∀ k, k ≠ i → t.run k = s.run k)
    ∧ ((s.run i).phase ≠ .decided → exec (.rootCommit i) s = .next s)
    ∧ (∀ d, ∃ t, exec (.rootDeliveryAck i d) s = .next t
      ∧ t.run i = { s.run i with acks := (s.run i).acks.filter fun k => k != d }
      ∧ (∀ k, k ≠ i → t.run k = s.run k) ∧ t = { s with leaven := { s.leaven with probs := t.leaven.probs } })

/-- Roots are admitted in order, decided and written. -/
def Obligations.RootsAreAdmittedAndDecided : Prop :=
  Claims.RootsAreAdmittedInOrder
    ∧ Claims.RootsAreDecidedAndWritten

/-- FACTOR_FOLD, ROOT_DELIVERY and ROOT_DECISION_MESSAGE (R188, R191, R209, R212, R217, R218, R226, R264): factors fold once
in a curvature step, when they have come, into the slot not in force; a delivered root is ready and acknowledged; its
owner's decision is latched. -/
def Obligations.RootsReachTheirDestinations : Prop :=
  ∀ (s : State),
    (s.inStep = true → s.curv s.job.step = true → s.leaven.folded = false →
      (∀ p ∈ s.probs, p.role = 0 → s.factorsHere p = true ∧ ∀ r ∈ s.foldReads p, s.vmGood r.1 r.2 = true) →
      ∃ t, exec .factorFold s = .next t ∧ t.leaven.folded = true ∧ t.groups = s.groups ∧ t.cores = s.cores
        ∧ t.job.st = s.job.st ∧ t.job.attempt = s.job.attempt ∧ t.regs = s.regs
        ∧ ∀ p, s.probs = [p] → p.role = 0 → (s.run 0).phase ≠ .waiting → (s.run 0).later = [] → memWf s.mm.mem = true →
            let k := 1 - s.factorCur p s.job.committed
            p.factorSlot k % 8 = 0 → (∃ q, s.phys (p.factorSlot k) = some q ∧ s.marked (q / 128) = false) →
            t.factorSrc p k = s.job.step % 2 ^ 64)
    ∧ (s.curv s.job.step = false ∨ s.leaven.folded = true ∨ (∃ p ∈ s.probs, p.role = 0 ∧ s.factorsHere p = false) →
        exec .factorFold s = .next s)
    ∧ (∀ src w side blk slot due source kind esc header tiles p i, s.destProb w side blk src = some (p, i) →
      ∃ t, exec (.rootDelivery src w side blk slot due source ⟨kind, esc, header⟩ tiles) s = .next t
        ∧ t.run i = { s.run i with phase := .ready, src := source, due := due } ∧ (∀ k, k ≠ i → t.run k = s.run k)
        ∧ .vl0 src 7 [w, side, blk, source] ∈ t.tx
        ∧ MemoryOutside [(p.rootVa, 64), (p.rootSlot slot, 4096), (p.rootSlot slot + 4096, 4096 * symTiles p.job.n)] s t
        ∧ t.job = s.job ∧ t.groups = s.groups ∧ t.regs = s.regs)
    ∧ (∀ src w side blk step attempt slot o,
      (s.inStep = true → step = s.job.step → attempt < s.job.attempt →
        exec (.rootDecisionMessage src w side blk ⟨step, attempt⟩ slot o) s = .next s)
      ∧ (step ≠ s.job.step ∨ attempt = s.job.attempt →
        (∀ p i, s.destProb w side blk src = some (p, i) →
          (s.job.committed < step → (s.run i).latchStep ≠ step → (s.run i).latch = 0 →
            ∃ t, exec (.rootDecisionMessage src w side blk ⟨step, attempt⟩ slot o) s = .next t
            ∧ t.run i = { s.run i with latch := latchKind o, latchStep := step }
            ∧ (∀ k, k ≠ i → t.run k = s.run k) ∧ MemoryOutside [(p.rootVa, 64)] s t ∧ t.job = s.job ∧ t.tx = s.tx)
          ∧ (s.job.committed < step → (s.run i).latchStep < step → (s.run i).latch ≠ 0 →
            ∃ t, exec (.rootDecisionMessage src w side blk ⟨step, attempt⟩ slot o) s = .next t
            ∧ t.run i = { s.run i with notes := tset (s.run i).notes step (slot, latchKind o) }
            ∧ (∀ k, k ≠ i → t.run k = s.run k) ∧ t = { s with leaven := { s.leaven with probs := t.leaven.probs } })
          ∧ (s.job.committed < step → (s.run i).latchStep = step → (s.run i).latch = 2 → o = .abandoned →
            ∃ t, exec (.rootDecisionMessage src w side blk ⟨step, attempt⟩ slot o) s = .next t
            ∧ t.run i = { s.run i with latch := 3 }
            ∧ (∀ k, k ≠ i → t.run k = s.run k) ∧ t = { s with leaven := { s.leaven with probs := t.leaven.probs } })
          ∧ (step ≤ s.job.committed ∨ ((s.run i).latchStep = step ∧ ((s.run i).latch ≠ 2 ∨ o ≠ .abandoned)) →
            exec (.rootDecisionMessage src w side blk ⟨step, attempt⟩ slot o) s = .next s))
        ∧ (s.destProb w side blk src = none →
          exec (.rootDecisionMessage src w side blk ⟨step, attempt⟩ slot o) s = .next s)))
end

