-- ==== Sys2Proof/Laws/Keeps.lean ====
section
/-! SUPPORT. What most operations keep: the queue of commands, the security state, and the growth of the local count and of
the log's sequence number. -/

namespace Sys2Proof.Machine

/-- The queue and the security state stand; the local count and the log sequence number do not fall. -/
structure Keeps (s t : State) : Prop where
  queue : t.pending = s.pending
  sec : t.sec = s.sec
  us : s.localUs ≤ t.localUs
  seq : s.log.seq ≤ t.log.seq

theorem Keeps.refl (s : State) : Keeps s s := ⟨rfl, rfl, Nat.le_refl _, Nat.le_refl _⟩

theorem Keeps.trans {s t u : State} (h : Keeps s t) (k : Keeps t u) : Keeps s u :=
  ⟨k.queue.trans h.queue, k.sec.trans h.sec, Nat.le_trans h.us k.us, Nat.le_trans h.seq k.seq⟩

/-- A fold of operations that keep, keeps. -/
theorem keeps_foldl {α : Type} (g : State → α → State) (h : ∀ s a, Keeps s (g s a)) (l : List α) (s : State) :
    Keeps s (l.foldl g s) := by
  induction l generalizing s with
  | nil => exact Keeps.refl s
  | cons a l ih => exact (h s a).trans (ih (g s a))

theorem keeps_getD {o : Option State} {s : State} (h : ∀ t, o = some t → Keeps s t) : Keeps s (o.getD s) := by
  cases o with
  | none => exact Keeps.refl s
  | some t => exact h t rfl

/-- The queue stands; LOCKED, the statement counter and the firmware floor obey their rules (R419, R424, R426); the local
count and the log sequence number do not fall. -/
structure Grows (s t : State) : Prop where
  queue : t.pending = s.pending
  own : secKept s t
  us : s.localUs ≤ t.localUs
  seq : s.log.seq ≤ t.log.seq

/-- A relation of states that `Keeps` implies and that composes. -/
structure Loose (Q : State → State → Prop) : Prop where
  of : ∀ {s t}, Keeps s t → Q s t
  trans : ∀ {s t u}, Q s t → Q t u → Q s u

theorem loose_keeps : Loose Keeps := ⟨id, Keeps.trans⟩

theorem loose_grows : Loose Grows :=
  ⟨fun h => ⟨h.queue, ⟨fun e => h.sec ▸ e, h.sec ▸ Nat.le_refl _, h.sec ▸ Nat.le_refl _⟩, h.us, h.seq⟩,
   fun h k => ⟨k.queue.trans h.queue,
    ⟨fun e => k.own.1 (h.own.1 e), Nat.le_trans h.own.2.1 k.own.2.1, Nat.le_trans h.own.2.2 k.own.2.2⟩, Nat.le_trans h.us k.us, Nat.le_trans h.seq k.seq⟩⟩

theorem keeps_foldl_fst {α β : Type} (g : State × β → α → State × β) (h : ∀ x a, Keeps x.1 (g x a).1) (l : List α)
    (x : State × β) : Keeps x.1 (l.foldl g x).1 := by
  induction l generalizing x with
  | nil => exact Keeps.refl x.1
  | cons a l ih => exact (h x a).trans (ih (g x a))

theorem keeps_foldl_bind {α : Type} (g : α → State → Option State) (h : ∀ a s t, g a s = some t → Keeps s t)
    (l : List α) (s : State) {t : State} (e : l.foldl (fun o a => o.bind (g a)) (some s) = some t) : Keeps s t := by
  induction l generalizing s with
  | nil => cases e; exact Keeps.refl _
  | cons a l ih =>
    rw [List.foldl_cons, Option.bind_some] at e
    cases hg : g a s with
    | none =>
      rw [hg] at e
      have : ∀ l : List α, l.foldl (fun o a => o.bind (g a)) (none : Option State) = none := by
        intro l; induction l with
        | nil => rfl
        | cons a l ih => exact ih
      rw [this] at e; cases e
    | some u => rw [hg] at e; exact (h a s u hg).trans (ih u e)

end Sys2Proof.Machine
end

