-- ==== Sys2Proof/Laws/KeepsOps.lean ====
section
/-! SUPPORT. Operations of Machine/Ops.lean keep (Laws/Keeps.lean). -/

namespace Sys2Proof.Machine

theorem bump_keeps (idx sub n bits : Nat) (s : State) : Keeps s (bump idx sub n bits s) := by
  unfold bump; grind [Keeps]

theorem setCounter_keeps (idx sub n : Nat) (s : State) : Keeps s (setCounter idx sub n s) := by
  unfold setCounter; grind [Keeps]

theorem send_keeps (t : Tx) (s : State) : Keeps s (send t s) := by
  unfold send; grind [Keeps]

theorem setGroup_keeps (g : Nat) (x : GroupSt) (s : State) : Keeps s (setGroup g x s) := by
  unfold setGroup; grind [Keeps]

theorem setCore_keeps (n : Nat) (x : CoreSt) (s : State) : Keeps s (setCore n x s) := by
  unfold setCore; grind [Keeps]

theorem takeFree_keeps (s : State) : Keeps s (takeFree s).2 := by
  unfold takeFree; grind [Keeps]

theorem setSession_keeps (x : Session) (s : State) : Keeps s (setSession x s) := by
  unfold setSession; grind [Keeps]

theorem closeSession_keeps (sid : BitVec 32) (s : State) : Keeps s (closeSession sid s) := by
  unfold closeSession; grind [Keeps]

theorem closeAll_keeps (s : State) : Keeps s (closeAll s) := by
  unfold closeAll; grind [Keeps]

theorem closeKey_keeps (key : Bytes) (s : State) : Keeps s (closeKey key s) := by
  unfold closeKey; grind [Keeps, closeSession_keeps, keeps_foldl]

theorem nextTx_keeps (sid : BitVec 32) (s : State) : Keeps s (nextTx sid s).2 := by
  unfold nextTx; grind [Keeps, setSession_keeps]

theorem pump_keeps (k : Nat) (fuel : Nat) (s : State) : Keeps s (pump k fuel s) := by
  induction fuel generalizing s with
  | zero => unfold pump; grind [Keeps]
  | succ n ih => unfold pump; grind [Keeps, send_keeps, closeSession_keeps, nextTx_keeps]

theorem enqueue_keeps (k : Nat) (e : Event) (s : State) : Keeps s (enqueue k e s) := by
  unfold enqueue; grind [Keeps, bump_keeps, pump_keeps]

theorem raiseEvent_keeps (e : Event) (s : State) : Keeps s (raiseEvent e s) := by
  unfold raiseEvent; grind [Keeps, enqueue_keeps, keeps_foldl]

theorem logAdd_keeps (code src hearth unit layer : Nat) (detail : List Nat) (s : State) : Keeps s (logAdd code src hearth unit layer detail s) := by
  unfold logAdd; grind [Keeps, raiseEvent_keeps]

theorem logPlain_keeps (code : Nat) (detail : List Nat) (s : State) : Keeps s (logPlain code detail s) := by
  unfold logPlain; grind [Keeps, logAdd_keeps]

theorem setDev_keeps (d : DevState) (s : State) : Keeps s (setDev d s) := by
  unfold setDev; grind [Keeps, raiseEvent_keeps]

theorem jobRecord_keeps (j : JobState) (halt : Nat) (s : State) : Keeps s (jobRecord j halt s) := by
  unfold jobRecord; grind [Keeps]

theorem followJob_keeps (old j : JobState) (s : State) : Keeps s (followJob old j s) := by
  unfold followJob; grind [Keeps, setDev_keeps]

theorem setJob_keeps (j : JobState) (halt : Nat) (s : State) : Keeps s (setJob j halt s) := by
  unfold setJob; grind [Keeps, raiseEvent_keeps, jobRecord_keeps, followJob_keeps]

theorem setVcore_keeps (mv : Nat) (s : State) : Keeps s (setVcore mv s) := by
  unfold setVcore; grind [Keeps]

end Sys2Proof.Machine
end

