-- ==== Sys2Proof/Laws/KeepsFabric.lean ====
section
/-! SUPPORT. Operations of Machine/Fabric.lean keep (Laws/Keeps.lean). -/

namespace Sys2Proof.Machine

theorem setPort_keeps (p : Nat) (x : Port) (s : State) : Keeps s (setPort p x s) := by
  unfold setPort; grind [Keeps]

theorem freeRx_keeps (hold : Option Nat) (p : Packet) (s : State) : Keeps s (freeRx hold p s) := by
  unfold freeRx; grind [Keeps, send_keeps, setPort_keeps]

theorem pumpPort_keeps (n : Nat) (fuel : Nat) (s : State) : Keeps s (pumpPort n fuel s) := by
  induction fuel generalizing s with
  | zero => unfold pumpPort; grind [Keeps]
  | succ fuel ih =>
    unfold pumpPort
    dsimp only
    split
    · exact Keeps.refl s
    · exact (((setPort_keeps _ _ _).trans (freeRx_keeps _ _ _)).trans (send_keeps _ _)).trans (ih _)

theorem pumpAll_keeps (n : Nat) (s : State) : Keeps s (pumpAll n s) := by
  unfold pumpAll; grind [Keeps, pumpPort_keeps]

theorem countDetour_keeps (port dst : Nat) (s : State) : Keeps s (countDetour port dst s) := by
  unfold countDetour; grind [Keeps, bump_keeps]

theorem routePacket_keeps (hold : Option Nat) (p : Packet) (s : State) : Keeps s (routePacket hold p s) := by
  unfold routePacket; grind [Keeps, bump_keeps, freeRx_keeps, setPort_keeps, pumpAll_keeps, countDetour_keeps]

theorem refill_keeps (s : State) : Keeps s (refill s) := by
  unfold refill; grind [Keeps]

theorem pumpInject_keeps  (fuel : Nat) (s : State) : Keeps s (pumpInject  fuel s) := by
  induction fuel generalizing s with
  | zero => unfold pumpInject; grind [Keeps]
  | succ n ih => unfold pumpInject; grind [Keeps, routePacket_keeps]

theorem injectPacket_keeps (p : Packet) (s : State) : Keeps s (injectPacket p s) := by
  unfold injectPacket; grind [Keeps, routePacket_keeps, refill_keeps, pumpInject_keeps]

theorem sendControl_keeps (dst step attempt : Nat) (t : Tx) (body : Bytes) (s : State) :
    Keeps s (sendControl dst step attempt t body s) := by
  unfold sendControl
  exact (send_keeps _ _).trans (keeps_foldl _ (fun s _ => injectPacket_keeps _ s) _ _)

theorem sendWords_keeps (dst code : Nat) (ws : List Nat) (s : State) : Keeps s (sendWords dst code ws s) := by
  unfold sendWords; exact sendControl_keeps ..

theorem announce_keeps (p : Nat) (up : Bool) (s : State) : Keeps s (announce p up s) := by
  unfold announce; grind [Keeps, injectPacket_keeps, keeps_foldl]

theorem announceAll_keeps (s : State) : Keeps s (announceAll s) := by
  unfold announceAll; grind [Keeps, announce_keeps, keeps_foldl]

theorem settleFabric_keeps (s : State) : Keeps s (settleFabric s) := by
  unfold settleFabric; grind [Keeps, announceAll_keeps, setDev_keeps]

theorem announceOne_keeps (p : Nat) (up : Bool) (s : State) : Keeps s (announceOne p up s) := by
  unfold announceOne; grind [Keeps, announce_keeps]

theorem linkStateState_keeps (dev port : Nat) (up : Bool) (s : State) : Keeps s (linkStateState dev port up s) := by
  unfold linkStateState; grind [Keeps]

theorem laneFailureState_keeps (p : Nat) (s : State) : Keeps s (laneFailureState p s) := by
  unfold laneFailureState; grind [Keeps, send_keeps, setPort_keeps]

theorem resend_keeps (p : Nat) (l : List LinkWord) (s : State) : Keeps s (resend p l s) := by
  unfold resend; grind [Keeps, send_keeps]

theorem retrainUp_keeps (p lanes : Nat) (s : State) : Keeps s (retrainUp p lanes s) := by
  unfold retrainUp; grind [Keeps, bump_keeps, logAdd_keeps, setPort_keeps, pumpAll_keeps, resend_keeps]

theorem replayState_keeps (p seqNo : Nat) (s : State) : Keeps s (replayState p seqNo s) := by
  unfold replayState; grind [Keeps, bump_keeps, resend_keeps]

theorem linkAckState_keeps (p seqNo : Nat) (s : State) : Keeps s (linkAckState p seqNo s) := by
  unfold linkAckState; grind [Keeps, setPort_keeps, pumpAll_keeps]

theorem creditState_keeps (p vl cls n : Nat) (s : State) : Keeps s (creditState p vl cls n s) := by
  unfold creditState; grind [Keeps, setPort_keeps, pumpAll_keeps]

theorem hushState_keeps (p : Nat) (s : State) : Keeps s (hushState p s) := by
  unfold hushState; grind [Keeps, setPort_keeps]

theorem hushLapseState_keeps (p : Nat) (s : State) : Keeps s (hushLapseState p s) := by
  unfold hushLapseState; grind [Keeps, setPort_keeps, pumpAll_keeps]

theorem overlongState_keeps (p : Nat) (s : State) : Keeps s (overlongState p s) := by
  unfold overlongState; grind [Keeps, bump_keeps, setPort_keeps, pumpAll_keeps]

theorem hushAll_keeps (us : Nat) (s : State) : Keeps s (hushAll us s) := by
  unfold hushAll; grind [Keeps, send_keeps, setPort_keeps, keeps_foldl]

theorem hushHoldEndState_keeps (p : Nat) (s : State) : Keeps s (hushHoldEndState p s) := by
  unfold hushHoldEndState; grind [Keeps, setPort_keeps]

theorem hushTick_keeps (s : State) : Keeps s (hushTick s) := by
  unfold hushTick; grind [Keeps, send_keeps, hushHoldEndState_keeps, keeps_foldl]

theorem fabTick_keeps (s : State) : Keeps s (fabTick s) := by
  unfold fabTick; grind [Keeps, hushTick_keeps, refill_keeps, pumpInject_keeps]

theorem identityExchangeState_keeps (p : Nat) (id : Identity) (s : State) : Keeps s (identityExchangeState p id s) := by
  unfold identityExchangeState; grind [Keeps, setPort_keeps, settleFabric_keeps, announceOne_keeps]

theorem applyCoords_keeps (s : State) : Keeps s (applyCoords s) := by
  unfold applyCoords; grind [Keeps]

theorem retrainAll_keeps (s : State) : Keeps s (retrainAll s) := by
  unfold retrainAll; grind [Keeps, setPort_keeps, keeps_foldl]

theorem reconfigureState_keeps (s : State) : Keeps s (reconfigureState s) := by
  unfold reconfigureState; grind [Keeps, applyCoords_keeps, retrainAll_keeps]

theorem trainTimeoutState_keeps (p : Nat) (s : State) : Keeps s (trainTimeoutState p s) := by
  unfold trainTimeoutState; grind [Keeps, setPort_keeps, settleFabric_keeps, announceOne_keeps]

theorem downRetryState_keeps (p : Nat) (ok : Bool) (s : State) : Keeps s (downRetryState p ok s) := by
  unfold downRetryState; grind [Keeps, setPort_keeps, announce_keeps]

theorem proofFabric_keeps (lanes : List Nat) (ids : List (Nat × Identity)) (s : State) : Keeps s (proofFabric lanes ids s) := by
  unfold proofFabric; grind [Keeps, setPort_keeps, announce_keeps, identityExchangeState_keeps, applyCoords_keeps, retrainAll_keeps, keeps_foldl]

theorem fabSleep_keeps (s : State) : Keeps s (fabSleep s) := by
  unfold fabSleep; grind [Keeps, setPort_keeps, keeps_foldl]

theorem fabWake_keeps (s : State) : Keeps s (fabWake s) := by
  unfold fabWake; grind [Keeps, setPort_keeps, settleFabric_keeps, keeps_foldl]

end Sys2Proof.Machine
end

