-- ==== Sys2Proof/Laws/KeepsPower.lean ====
section
/-! SUPPORT. Operations of Machine/Power.lean keep (Laws/Keeps.lean). -/

namespace Sys2Proof.Machine

theorem refreshAlert_keeps (s : State) : Keeps s (refreshAlert s) := by
  unfold refreshAlert; grind [Keeps]

theorem tick_keeps (s : State) : Keeps s (tick s) := by
  unfold tick; grind [Keeps, bump_keeps, fabTick_keeps]

theorem railsDown_keeps (s : State) : Keeps s (railsDown s) := by
  unfold railsDown; grind [Keeps]

theorem dropJob_keeps (s : State) : Keeps s (dropJob s) := by
  unfold dropJob; grind [Keeps, setJob_keeps]

theorem enterStandby_keeps (s : State) : Keeps s (enterStandby s) := by
  unfold enterStandby; grind [Keeps, closeAll_keeps, setDev_keeps, railsDown_keeps, dropJob_keeps]

theorem forcedRelease_keeps (s : State) : Keeps s (forcedRelease s) := by
  unfold forcedRelease; grind [Keeps, enterStandby_keeps]

/-- The local count starts again (R8); the rest is kept. -/
theorem bootChain_boots (s : State) :
    (bootChain s).pending = s.pending ∧ (bootChain s).sec = s.sec ∧ s.log.seq ≤ (bootChain s).log.seq := by
  unfold bootChain; grind [Keeps, refreshAlert_keeps, logPlain_keeps]

/-- The local count starts again (R8); the rest is kept. -/
theorem stbyGoodState_boots (slotId : Nat) (a b : Bool) (s : State) :
    (stbyGoodState slotId a b s).pending = s.pending ∧ (stbyGoodState slotId a b s).sec = s.sec ∧ s.log.seq ≤ (stbyGoodState slotId a b s).log.seq := by
  unfold stbyGoodState; grind [Keeps, bump_keeps, setDev_keeps, bootChain_boots]

theorem resetAssertState_keeps (s : State) : Keeps s (resetAssertState s) := by
  unfold resetAssertState; grind [Keeps, enterStandby_keeps]

/-- The local count starts again (R8); the rest is kept. -/
theorem resetReleaseState_boots (s : State) :
    (resetReleaseState s).pending = s.pending ∧ (resetReleaseState s).sec = s.sec ∧ s.log.seq ≤ (resetReleaseState s).log.seq := by
  unfold resetReleaseState; grind [Keeps, bootChain_boots]

theorem inputLossState_keeps (s : State) : Keeps s (inputLossState s) := by
  unfold inputLossState; grind [Keeps, enterStandby_keeps]

theorem beginProofing_keeps (s : State) : Keeps s (beginProofing s) := by
  unfold beginProofing; grind [Keeps, setDev_keeps]

theorem pwrEnRiseState_keeps (s : State) : Keeps s (pwrEnRiseState s) := by
  unfold pwrEnRiseState; grind [Keeps, beginProofing_keeps]

theorem pwrEnFallState_keeps (s : State) : Keeps s (pwrEnFallState s) := by
  unfold pwrEnFallState; grind [Keeps, refreshAlert_keeps, enterStandby_keeps]

theorem interlockState_keeps (s : State) : Keeps s (interlockState s) := by
  unfold interlockState; grind [Keeps, forcedRelease_keeps]

theorem thermalTripState_keeps (s : State) : Keeps s (thermalTripState s) := by
  unfold thermalTripState; grind [Keeps, setVcore_keeps, forcedRelease_keeps]

theorem railFaultState_keeps (row : Nat) (s : State) : Keeps s (railFaultState row s) := by
  unfold railFaultState; grind [Keeps, logPlain_keeps, forcedRelease_keeps]

theorem proofFail_keeps (stage hearth unit : Nat) (s : State) : Keeps s (proofFail stage hearth unit s) := by
  unfold proofFail; grind [Keeps]

theorem railTimeoutState_keeps (row hearth : Nat) (s : State) : Keeps s (railTimeoutState row hearth s) := by
  unfold railTimeoutState; grind [Keeps, railsDown_keeps, proofFail_keeps]

theorem inputVoltageState_keeps (mv : Nat) (s : State) : Keeps s (inputVoltageState mv s) := by
  unfold inputVoltageState; grind [Keeps, refreshAlert_keeps, forcedRelease_keeps, inputLossState_keeps]

theorem overcurrentState_keeps (s : State) : Keeps s (overcurrentState s) := by
  unfold overcurrentState; grind [Keeps]

theorem alertTimerState_keeps (s : State) : Keeps s (alertTimerState s) := by
  unfold alertTimerState; grind [Keeps]

theorem signatureLog_keeps (src hearth unit word golden : Nat) (s : State) : Keeps s (signatureLog src hearth unit word golden s) := by
  unfold signatureLog; grind [Keeps, takeFree_keeps, logAdd_keeps]

theorem bistAll_keeps (p : ProofInput) (s : State) : Keeps s (bistAll p s) := by
  unfold bistAll; grind [Keeps, setCounter_keeps, logAdd_keeps, signatureLog_keeps, keeps_foldl]

theorem proofFirst_keeps (p : ProofInput) (s : State) : Keeps s (proofFirst p s).1 := by
  unfold proofFirst; grind [Keeps, setVcore_keeps, railsDown_keeps, proofFail_keeps, signatureLog_keeps, bistAll_keeps]

theorem endHolds_keeps (s : State) : Keeps s (endHolds s) := by
  unfold endHolds; grind [Keeps]

theorem holdLog_keeps (hearth : Nat) (s : State) : Keeps s (holdLog hearth s) := by
  unfold holdLog; grind [Keeps, logPlain_keeps]

theorem governorState_keeps (m : Meas) (s : State) : Keeps s (governorState m s) := by
  unfold governorState; grind [Keeps, refreshAlert_keeps, endHolds_keeps, keeps_foldl]

theorem governorStart_keeps (s : State) : Keeps s (governorStart s) := by
  unfold governorStart; grind [Keeps]

theorem governorStop_keeps (s : State) : Keeps s (governorStop s) := by
  unfold governorStop; grind [Keeps]

theorem gatingLimitState_keeps (g : Nat) (s : State) : Keeps s (gatingLimitState g s) := by
  unfold gatingLimitState; grind [Keeps, setGroup_keeps]

end Sys2Proof.Machine
end

