-- ==== Sys2Proof/Laws/KeepsVm.lean ====
section
/-! SUPPORT. Operations of Machine/Vm.lean keep (Laws/Keeps.lean). -/

namespace Sys2Proof.Machine

theorem touchLines_keeps (lines : List Nat) (dirty streaming : Bool) (s : State) : Keeps s (touchLines lines dirty streaming s) :=
  ⟨rfl, rfl, Nat.le_refl _, Nat.le_refl _⟩

theorem touchRange_keeps (va n : Nat) (dirty streaming : Bool) (s : State) : Keeps s (touchRange va n dirty streaming s) := by
  unfold touchRange; exact touchLines_keeps _ _ _ s

theorem atcTouch_keeps (hearth vpn : Nat) (s : State) : Keeps s (atcTouch hearth vpn s) := by
  unfold atcTouch; grind [Keeps]

theorem readTouch_keeps (hearth va n : Nat) (s : State) : Keeps s (readTouch hearth va n s) := by
  unfold readTouch
  dsimp only
  split
  · exact touchRange_keeps _ _ _ _ _
  · exact (touchRange_keeps _ _ _ _ _).trans (keeps_foldl _ (fun s _ => atcTouch_keeps _ _ s) _ _)

theorem vmStore_keeps (va : Nat) (bs : Bytes) (s : State) : Keeps s (vmStore va bs s) := by
  exact ⟨rfl, rfl, Nat.le_refl _, Nat.le_refl _⟩

theorem vmStoreW_keeps (va n : Nat) (s : State) : Keeps s (vmStoreW va n s) := by
  unfold vmStoreW; grind [Keeps, vmStore_keeps]

theorem mapPage_keeps (r : Region) (vpn : Nat) (s : State) {t : State} (h : mapPage r vpn s = some t) : Keeps s t := by
  unfold mapPage at h; grind [Keeps]

theorem mapRegion_keeps (r : Region) (s : State) {t : State} (h : mapRegion r s = some t) : Keeps s t := by
  unfold mapRegion at h
  exact keeps_foldl_bind (fun i => mapPage r (r.base / pageSize + i)) (fun _ _ _ h => mapPage_keeps _ _ _ h) _ _ h

theorem serveMiss_keeps (va : Nat) (write : Bool) (s : State) {t : State} (h : serveMiss va write s = some t) : Keeps s t := by
  unfold serveMiss at h; grind [Keeps, mapPage_keeps]

theorem oweMisses_keeps (l : List Miss) (s : State) : Keeps s (oweMisses l s) := by
  unfold oweMisses; grind [Keeps]

theorem mapOwed_keeps (va : Nat) (s : State) : Keeps s (mapOwed va s) := by
  have h : ∀ s (x : Nat × Bool), Keeps s ((serveMiss x.1 x.2 s).getD s) := fun s x =>
    keeps_getD fun t e => serveMiss_keeps _ _ s e
  have := keeps_foldl _ h (s.mm.owed.filter fun x => x.1 / pageSize == va / pageSize) s
  unfold mapOwed; grind [Keeps]

theorem retirePages_keeps (s : State) : Keeps s (retirePages s) := by
  unfold retirePages; grind [Keeps]

theorem wantRetire_keeps (p : Nat) (s : State) : Keeps s (wantRetire p s) := by
  unfold wantRetire; grind [Keeps]

theorem storeSym_keeps (va n : Nat) (m : List (List W32)) (s : State) : Keeps s (storeSym va n m s) := by
  unfold storeSym; grind [Keeps, vmStore_keeps, keeps_foldl]

end Sys2Proof.Machine
end

