-- ==== Sys2Proof/Laws/KeepsRecipe.lean ====
section
/-! SUPPORT. Operations of Machine/Recipe.lean keep (Laws/Keeps.lean). -/

namespace Sys2Proof.Machine

theorem writeLstat_keeps (l : Nat) (s : State) : Keeps s (writeLstat l s) := by
  unfold writeLstat; grind [Keeps, vmStore_keeps]

end Sys2Proof.Machine
end

