-- ==== Sys2Proof/Laws/KeepsLeaven.lean ====
section
/-! SUPPORT. Operations of Machine/Leaven.lean keep (Laws/Keeps.lean). -/

namespace Sys2Proof.Machine

theorem setRootRec_keeps (p : Prob) (r : RootRec) (s : State) : Keeps s (setRootRec p r s) := by
  unfold setRootRec; grind [Keeps, vmStore_keeps]

theorem setRun_keeps (i : Nat) (x : ProbSt) (s : State) : Keeps s (setRun i x s) := by
  unfold setRun; grind [Keeps]

theorem rootMissed_keeps (i : Nat) (p : Prob) (step due : Nat) (s : State) : Keeps s (rootMissed i p step due s) := by
  unfold rootMissed; grind [Keeps, logAdd_keeps, setRootRec_keeps, setRun_keeps]

theorem sendDecision_keeps (p : Prob) (step slot : Nat) (o : RootOutcome) (s : State) : Keeps s (sendDecision p step slot o s) := by
  unfold sendDecision; exact keeps_foldl _ (fun s _ => sendWords_keeps _ _ _ s) _ _

theorem nextSource_keeps (i : Nat) (p : Prob) (now : Nat) (s : State) : Keeps s (nextSource i p now s) := by
  unfold nextSource; grind [Keeps, setRootRec_keeps, setRun_keeps]

theorem abandonRoot_keeps (n : Nat) (i : Nat) (p : Prob) (due : Nat) (s : State) : Keeps s (abandonRoot n i p due s) := by
  unfold abandonRoot; grind [Keeps, setRun_keeps, rootMissed_keeps, sendDecision_keeps]

theorem abandonStale_keeps (n : Nat) (i : Nat) (p : Prob) (s : State) : Keeps s (abandonStale n i p s) := by
  unfold abandonStale; grind [Keeps, setRootRec_keeps, setRun_keeps, abandonRoot_keeps, nextSource_keeps]

theorem readFold_keeps (s : State) (p : Prob) : Keeps s (readFold s p) :=
  keeps_foldl _ (fun s _ => readTouch_keeps _ _ _ s) _ _

theorem foldStale_keeps (n : Nat) (s : State) (x : Prob × Nat) : Keeps s (foldStale n s x) := by
  unfold foldStale
  split
  · exact abandonStale_keeps _ _ _ _
  · exact Keeps.refl s

theorem foldInto_keeps (n : Nat) (s : State) (x : Prob × Nat) : Keeps s (foldInto n s x) := by
  unfold foldInto
  dsimp only
  split
  · exact (storeSym_keeps _ _ _ _).trans (vmStore_keeps _ _ _)
  · exact Keeps.refl s

theorem setFolded_keeps (s : State) : Keeps s (setFolded s) := ⟨rfl, rfl, Nat.le_refl _, Nat.le_refl _⟩

theorem factorFoldState_keeps (s : State) : Keeps s (factorFoldState s) := by
  unfold factorFoldState
  dsimp only
  split
  · exact Keeps.refl s
  · split
    · exact Keeps.refl s
    · exact (((keeps_foldl _ readFold_keeps _ _).trans (keeps_foldl _ (foldStale_keeps _) _ _)).trans
        (keeps_foldl _ (foldInto_keeps _) _ _)).trans (setFolded_keeps _)

theorem workCopy_keeps (p : Prob) (a : LMat) (s : State) : Keeps s (workCopy p a s) := by
  unfold workCopy; grind [Keeps, vmStore_keeps, storeSym_keeps, keeps_foldl]

theorem loadProblem_keeps (i : Nat) (p : Prob) (s : State) : Keeps s (loadProblem i p s) := by
  unfold loadProblem; grind [Keeps, workCopy_keeps, readTouch_keeps, keeps_foldl, logAdd_keeps, setRun_keeps]

theorem addElective_keeps (mw : Nat) (s : State) : Keeps s (addElective mw s) := by
  unfold addElective; grind [Keeps]

theorem subElective_keeps (mw : Nat) (s : State) : Keeps s (subElective mw s) := by
  unfold subElective; grind [Keeps]

theorem admitRoot_keeps (i : Nat) (s : State) : Keeps s (admitRoot i s) := by
  unfold admitRoot; grind [Keeps, setRun_keeps, loadProblem_keeps, addElective_keeps]

theorem cutPieces_keeps (hit : Nat → Bool) (s : State) : Keeps s (cutPieces hit s) := by
  unfold cutPieces; grind [Keeps, setRun_keeps, subElective_keeps, keeps_foldl]

theorem decideRoot_keeps (i : Nat) (s : State) : Keeps s (decideRoot i s) := by
  unfold decideRoot; grind [Keeps, logAdd_keeps, setRootRec_keeps, setRun_keeps, subElective_keeps, nextSource_keeps]

theorem commitRoot_keeps (i : Nat) (s : State) : Keeps s (commitRoot i s) := by
  unfold commitRoot; grind [Keeps, injectPacket_keeps, vmStore_keeps, storeSym_keeps, setRootRec_keeps, setRun_keeps, keeps_foldl]

theorem rootAck_keeps (i dev : Nat) (s : State) : Keeps s (rootAck i dev s) := by
  unfold rootAck; grind [Keeps, setRun_keeps]

theorem rootDelivered_keeps (src weight side block slot due source kind esc : Nat) (header tiles : Bytes) (s : State) :
    Keeps s (rootDelivered src weight side block slot due source kind esc header tiles s) := by
  unfold rootDelivered; grind [Keeps, sendWords_keeps, vmStore_keeps, setRootRec_keeps, setRun_keeps]

theorem latchRoot_keeps (i : Nat) (p : Prob) (n slot kind : Nat) (s : State) : Keeps s (latchRoot i p n slot kind s) := by
  unfold latchRoot; grind [Keeps, setRootRec_keeps, setRun_keeps]

theorem ownDecision_keeps (n : Nat) (s : State) (pi : Prob × Nat) : Keeps s (ownDecision n s pi) := by
  unfold ownDecision; grind [Keeps, rootMissed_keeps, sendDecision_keeps, latchRoot_keeps]

theorem latchLayer_keeps (layer n : Nat) (s : State) : Keeps s (latchLayer layer n s) := by
  unfold latchLayer; grind [Keeps, ownDecision_keeps, keeps_foldl]

theorem rootDecisionState_keeps (src weight side block step slot : Nat) (o : RootOutcome) (s : State) : Keeps s (rootDecisionState src weight side block step slot o s) := by
  unfold rootDecisionState; grind [Keeps, latchRoot_keeps, setRun_keeps]

theorem setStarter_keeps (p : Prob) (slot : Nat) (s : State) : Keeps s (setStarter p slot s) := by
  unfold setStarter; grind [Keeps]

theorem reportEnded_keeps (n i : Nat) (s : State) : Keeps s (reportEnded n i s) := by
  unfold reportEnded; grind [Keeps, setRun_keeps]

theorem takeNote_keeps (i : Nat) (p : Prob) (s : State) : Keeps s (takeNote i p s) := by
  unfold takeNote; grind [Keeps, setRun_keeps, latchRoot_keeps]

theorem applyDecision_keeps (n i : Nat) (p : Prob) (s : State) : Keeps s (applyDecision n i p s) := by
  unfold applyDecision; grind [Keeps, setRun_keeps, setRootRec_keeps, nextSource_keeps, setStarter_keeps]

theorem applyLatch_keeps (n : Nat) (acc : State × Bool) (pi : Prob × Nat) : Keeps acc.1 (applyLatch n acc pi).1 := by
  unfold applyLatch; grind [Keeps, setRootRec_keeps, reportEnded_keeps, takeNote_keeps, applyDecision_keeps]

theorem newSource_keeps (n : Nat) (s : State) (pi : Prob × Nat) : Keeps s (newSource n s pi) := by
  unfold newSource; grind [Keeps, setRootRec_keeps, setRun_keeps]

theorem commitRoots_keeps (n : Nat) (s : State) : Keeps s (commitRoots n s).1 := by
  have h := keeps_foldl_fst (applyLatch n) (applyLatch_keeps n) s.probIdx (s, false)
  unfold commitRoots; grind [Keeps, newSource_keeps, keeps_foldl]

theorem rebuildStarters_keeps (s : State) : Keeps s (rebuildStarters s) := by
  unfold rebuildStarters; grind [Keeps, setStarter_keeps, keeps_foldl]

theorem resumeRoots_keeps (s : State) : Keeps s (resumeRoots s) := by
  unfold resumeRoots; grind [Keeps, setRun_keeps, keeps_foldl]

end Sys2Proof.Machine
end

