-- ==== Sys2Proof/Laws/KeepsColl.lean ====
section
/-! SUPPORT. Operations of Machine/Coll.lean keep (Laws/Keeps.lean). -/

namespace Sys2Proof.Machine

theorem sendBucket_keeps (c : Coll) (rank bucket : Nat) (bs : Bytes) (st : List NStatus) (s : State) : Keeps s (sendBucket c rank bucket bs st s) := by
  unfold sendBucket; grind [Keeps, injectPacket_keeps, keeps_foldl]

theorem sendCount_keeps (c : Coll) (rank seg n : Nat) (s : State) : Keeps s (sendCount c rank seg n s) := by
  unfold sendCount; grind [Keeps, injectPacket_keeps]

theorem setCollRun_keeps (id : Nat) (r : CollRun) (s : State) : Keeps s (setCollRun id r s) := by
  unfold setCollRun; grind [Keeps]

theorem writeDst_keeps (c : Coll) (m off : Nat) (bs : Bytes) (s : State) : Keeps s (writeDst c m off bs s) := by
  unfold writeDst; grind [Keeps, setCore_keeps, vmStore_keeps]

theorem duty_keeps (c : Coll) (k : Nat) (left : List Arrival → List Arrival) (s : State) : Keeps s (duty c k left s) := by
  unfold duty; exact setCollRun_keeps _ _ _

theorem kneaderRead_keeps (c : Coll) (va n : Nat) (k : Bytes → State → State) (s : State)
    (h : ∀ bs s, Keeps s (k bs s)) : Keeps s (kneaderRead c va n k s) := by
  unfold kneaderRead
  split
  · exact (readTouch_keeps _ _ _ s).trans (h _ _)
  · exact Keeps.refl s

theorem reduceBucket_keeps (c : Coll) (m b seg off len : Nat) (s : State) : Keeps s (reduceBucket c m b seg off len s) := by
  unfold reduceBucket
  dsimp only
  split
  · exact Keeps.refl s
  · refine kneaderRead_keeps _ _ _ _ _ fun bs s => ?_
    split
    · exact ((duty_keeps _ _ _ _).trans (writeDst_keeps _ _ _ _ _)).trans (setCollRun_keeps _ _ _)
    · exact (duty_keeps _ _ _ _).trans (sendBucket_keeps _ _ _ _ _ _)

theorem spreadOn_keeps (c : Coll) (m b seg off len : Nat) (bs : Bytes) (s : State) :
    Keeps s (spreadOn c m b seg off len bs s) := by
  unfold spreadOn
  exact ((writeDst_keeps _ _ _ _ _).trans (keeps_foldl _ (fun s _ => sendBucket_keeps _ _ _ _ _ s) _ _)).trans
    (duty_keeps _ _ _ _)

theorem spreadBucket_keeps (c : Coll) (m b seg off len : Nat) (s : State) : Keeps s (spreadBucket c m b seg off len s) := by
  unfold spreadBucket
  split
  · exact Keeps.refl s
  · split
    · exact kneaderRead_keeps _ _ _ _ _ fun bs s => spreadOn_keeps _ _ _ _ _ _ _ _
    · split
      · exact Keeps.refl s
      · exact spreadOn_keeps _ _ _ _ _ _ _ _

theorem grantBuckets_keeps (c : Coll) (n : Nat) (s : State) : Keeps s (grantBuckets c n s) := by
  unfold grantBuckets; grind [Keeps, injectPacket_keeps, setCollRun_keeps]

theorem p2pBucket_keeps (c : Coll) (m b off len : Nat) (s : State) : Keeps s (p2pBucket c m b off len s) := by
  unfold p2pBucket
  dsimp only
  split
  · split
    · exact Keeps.refl s
    · exact kneaderRead_keeps _ _ _ _ _ fun bs s =>
        ((setCollRun_keeps _ _ _).trans (sendBucket_keeps _ _ _ _ _ _)).trans (duty_keeps _ _ _ _)
  · split
    · exact Keeps.refl s
    · split
      · exact Keeps.refl s
      · split
        · exact ((writeDst_keeps _ _ _ _ _).trans (duty_keeps _ _ _ _)).trans (grantBuckets_keeps _ _ _)
        · exact (writeDst_keeps _ _ _ _ _).trans (duty_keeps _ _ _ _)

theorem a2aSend_keeps (c : Coll) (m j : Nat) (s : State) : Keeps s (a2aSend c m j s) := by
  unfold a2aSend
  exact ((readTouch_keeps _ _ _ _).trans (sendCount_keeps _ _ _ _ _)).trans
    (keeps_foldl _ (fun s _ => sendBucket_keeps _ _ _ _ _ s) _ _)

theorem a2aWrite_keeps (c : Coll) (m i : Nat) (bs : Bytes) (s : State) : Keeps s (a2aWrite c m i bs s) := by
  unfold a2aWrite; exact (writeDst_keeps _ _ _ _ _).trans (writeDst_keeps _ _ _ _ _)

theorem a2aDuty_keeps (c : Coll) (m i : Nat) (s : State) : Keeps s (a2aDuty c m i s) := by
  unfold a2aDuty
  split
  · exact Keeps.refl s
  · split
    · exact kneaderRead_keeps _ _ _ _ _ fun bs s => (a2aWrite_keeps _ _ _ _ _).trans (duty_keeps _ _ _ _)
    · split
      · exact (a2aWrite_keeps _ _ _ _ _).trans (duty_keeps _ _ _ _)
      · exact Keeps.refl s

theorem countBucket_keeps (c : Coll) (m seg : Nat) (s : State) : Keeps s (countBucket c m seg s) := by
  unfold countBucket
  dsimp only
  split
  · exact Keeps.refl s
  · refine kneaderRead_keeps _ _ _ _ _ fun bs s => ?_
    split
    · exact (duty_keeps _ _ _ _).trans (writeDst_keeps _ _ _ _ _)
    · exact (duty_keeps _ _ _ _).trans (sendCount_keeps _ _ _ _ _)

theorem pumpColl_keeps (c : Coll) (s : State) : Keeps s (pumpColl c s) := by
  unfold pumpColl; grind [Keeps, reduceBucket_keeps, spreadBucket_keeps, p2pBucket_keeps, a2aDuty_keeps, countBucket_keeps, keeps_foldl]

theorem pumpColls_keeps (s : State) : Keeps s (pumpColls s) := by
  unfold pumpColls; grind [Keeps, pumpColl_keeps, keeps_foldl]

theorem beginColl_keeps (c : Coll) (m : Nat) (s : State) : Keeps s (beginColl c m s) := by
  unfold beginColl; grind [Keeps, grantBuckets_keeps, setCollRun_keeps, a2aSend_keeps, pumpColl_keeps, keeps_foldl]

theorem collectiveCompleteState_keeps (id : Nat) (s : State) : Keeps s (collectiveCompleteState id s) := by
  unfold collectiveCompleteState; grind [Keeps, setCollRun_keeps]

theorem bucketCredit_keeps (p : Packet) (s : State) : Keeps s (bucketCredit p s) := by
  unfold bucketCredit; grind [Keeps, setCollRun_keeps, pumpColl_keeps]

theorem takePacket_keeps (p : Packet) (s : State) : Keeps s (takePacket p s) := by
  unfold takePacket; grind [Keeps, setCollRun_keeps, pumpColl_keeps]

end Sys2Proof.Machine
end

