-- ==== Sys2Proof/Laws/KeepsCommit.lean ====
section
/-! SUPPORT. Operations of Machine/Commit.lean keep (Laws/Keeps.lean). -/

namespace Sys2Proof.Machine

theorem sendCommit_keeps (dst kind : Nat) (m : CommitMsg) (s : State) : Keeps s (sendCommit dst kind m s) := by
  unfold sendCommit; exact sendControl_keeps _ _ _ _ _ _

theorem sendMembers_keeps (kind : Nat) (m : CommitMsg) (s : State) : Keeps s (sendMembers kind m s) := by
  unfold sendMembers; exact keeps_foldl _ (fun s _ => sendCommit_keeps _ _ _ s) _ _

theorem logMisses_keeps (g : Nat) (outcome : Nat) (s : State) : Keeps s (logMisses g outcome s) := by
  unfold logMisses; grind [Keeps, logAdd_keeps, keeps_foldl]

theorem clearAttempt_keeps (s : State) : Keeps s (clearAttempt s) := by
  unfold clearAttempt; grind [Keeps, oweMisses_keeps]

theorem deliverEarly_keeps (s : State) : Keeps s (deliverEarly s) := by
  unfold deliverEarly; grind [Keeps, takePacket_keeps, keeps_foldl]

theorem startAttempt_keeps (s : State) : Keeps s (startAttempt s) := by
  unfold startAttempt; grind [Keeps, deliverEarly_keeps, keeps_foldl]

theorem endEval_keeps (s : State) : Keeps s (endEval s) := by
  unfold endEval; grind [Keeps]

theorem haltNow_keeps (code : Nat) (s : State) : Keeps s (haltNow code s) := by
  unfold haltNow; grind [Keeps, bump_keeps, setJob_keeps, hushAll_keeps, governorStop_keeps, retirePages_keeps, cutPieces_keeps, sendMembers_keeps, clearAttempt_keeps, endEval_keeps]

theorem halt_keeps (code : Nat) (s : State) : Keeps s (halt code s) := by
  unfold halt; grind [Keeps, haltNow_keeps]

theorem answerQuery_keeps (dev step attempt : Nat) (commit : Bool) (s : State) : Keeps s (answerQuery dev step attempt commit s) := by
  unfold answerQuery; grind [Keeps, sendCommit_keeps]

theorem answerHeld_keeps (commit : Bool) (s : State) : Keeps s (answerHeld commit s) := by
  have h : Keeps s { s with coll := { s.coll with queries := [] } } := by grind [Keeps]
  unfold answerHeld; exact h.trans (keeps_foldl _ (fun s _ => answerQuery_keeps _ _ _ _ s) _ _)

theorem endAttempt_keeps (cause origin : Nat) (extra : List Nat) (w : Where) (s : State) : Keeps s (endAttempt cause origin extra w s) := by
  unfold endAttempt; grind [Keeps, answerHeld_keeps, bump_keeps, logAdd_keeps, hushAll_keeps, cutPieces_keeps, logMisses_keeps, clearAttempt_keeps, keeps_foldl]

theorem discardAttempt_keeps (cause origin : Nat) (extra : List Nat) (s : State) (w : Where := Where.plain) : Keeps s (discardAttempt cause origin extra s w) := by
  unfold discardAttempt; grind [Keeps, logPlain_keeps, setJob_keeps, startAttempt_keeps, haltNow_keeps, endAttempt_keeps]

theorem abortOwn_keeps (cause : Nat) (extra : List Nat) (s : State) (w : Where := Where.plain) : Keeps s (abortOwn cause extra s w) := by
  unfold abortOwn; grind [Keeps, logAdd_keeps, sendCommit_keeps, sendMembers_keeps, discardAttempt_keeps]

theorem abortIgnored_keeps (s : State) : Keeps s (abortIgnored s) := by
  unfold abortIgnored; grind [Keeps, logPlain_keeps]

theorem commitStep_keeps (s : State) : Keeps s (commitStep s) := by
  unfold commitStep; grind [Keeps, setJob_keeps, commitRoots_keeps, abortIgnored_keeps]

theorem takeCommit_keeps (s : State) : Keeps s (takeCommit s) := by
  unfold takeCommit; grind [Keeps, sendCommit_keeps, commitStep_keeps, keeps_foldl]

theorem pumpCommit_keeps (s : State) : Keeps s (pumpCommit s) := by
  unfold pumpCommit; grind [Keeps, sendCommit_keeps, takeCommit_keeps, answerHeld_keeps]

theorem phaseOneState_keeps (s : State) : Keeps s (phaseOneState s) := by
  unfold phaseOneState; grind [Keeps, pumpCommit_keeps]

theorem catchUp_keeps (attempt cause origin : Nat) (fuel : Nat) (s : State) : Keeps s (catchUp attempt cause origin fuel s) := by
  induction fuel generalizing s with
  | zero => unfold catchUp; grind [Keeps]
  | succ n ih => unfold catchUp; grind [Keeps, discardAttempt_keeps]

theorem higherState_keeps (m : CommitMsg) (isAbort : Bool) (data : Option Packet) (s : State) : Keeps s (higherState m isAbort data s) := by
  unfold higherState; grind [Keeps, catchUp_keeps]

theorem level_keeps (m : CommitMsg) (isAbort : Bool) (s : State) : Keeps s (level m isAbort s) := by
  unfold level; grind [Keeps, higherState_keeps]

theorem prepareState_keeps (m : CommitMsg) (s : State) : Keeps s (prepareState m s) := by
  unfold prepareState; grind [Keeps, pumpCommit_keeps, level_keeps]

theorem commitState_keeps (m : CommitMsg) (s : State) : Keeps s (commitState m s) := by
  unfold commitState; grind [Keeps, takeCommit_keeps, level_keeps]

theorem abortState_keeps (m : CommitMsg) (s : State) : Keeps s (abortState m s) := by
  unfold abortState; grind [Keeps, discardAttempt_keeps, level_keeps]

theorem abortReqState_keeps (m : CommitMsg) (s : State) : Keeps s (abortReqState m s) := by
  unfold abortReqState; grind [Keeps, sendMembers_keeps, discardAttempt_keeps, answerQuery_keeps, level_keeps, keeps_foldl]

theorem queryState_keeps (m : CommitMsg) (s : State) : Keeps s (queryState m s) := by
  unfold queryState; grind [Keeps, answerQuery_keeps, level_keeps]

theorem decisionState_keeps (m : CommitMsg) (s : State) : Keeps s (decisionState m s) := by
  unfold decisionState; grind [Keeps, level_keeps, discardAttempt_keeps, takeCommit_keeps]

theorem haltState_keeps (m : CommitMsg) (s : State) : Keeps s (haltState m s) := by
  unfold haltState; grind [Keeps, halt_keeps]

theorem partnerSilentState_keeps (w : WaitKind) (partner item detail : Nat) (s : State) : Keeps s (partnerSilentState w partner item detail s) := by
  unfold partnerSilentState; grind [Keeps, logPlain_keeps, abortOwn_keeps]

theorem outcomeSilenceState_keeps (s : State) : Keeps s (outcomeSilenceState s) := by
  unfold outcomeSilenceState; grind [Keeps, sendCommit_keeps, logPlain_keeps, halt_keeps]

theorem keepMsg_keeps (kind : Nat) (m : CommitMsg) (s : State) : Keeps s (keepMsg kind m s) := by
  unfold keepMsg; grind [Keeps]

theorem takeHeld_keeps (s : State) : Keeps s (takeHeld s) := by
  unfold takeHeld; grind [Keeps, prepareState_keeps, abortState_keeps, abortReqState_keeps, queryState_keeps, keeps_foldl]

theorem catchUpEarly_keeps (s : State) : Keeps s (catchUpEarly s) := by
  unfold catchUpEarly; grind [Keeps, catchUp_keeps, keeps_foldl]

theorem startStep_keeps (s : State) : Keeps s (startStep s) := by
  unfold startStep; grind [Keeps, clearAttempt_keeps, startAttempt_keeps, takeHeld_keeps, catchUpEarly_keeps]

theorem releaseAll_keeps (s : State) : Keeps s (releaseAll s) := by
  unfold releaseAll; grind [Keeps, sendWords_keeps, keeps_foldl]

theorem digestState_keeps (sender : Nat) (d : W64) (s : State) : Keeps s (digestState sender d s) := by
  unfold digestState; grind [Keeps, sendWords_keeps, sendMembers_keeps, halt_keeps, releaseAll_keeps]

end Sys2Proof.Machine
end

