-- ==== Sys2Proof/Laws/KeepsCoreData.lean ====
section
/-! SUPPORT. Operations of Machine/CoreData.lean keep (Laws/Keeps.lean). -/

namespace Sys2Proof.Machine

theorem produce_keeps (core ctx : Nat) (elems : List (Nat × Nat)) (s : State) : Keeps s (produce core ctx elems s) := by
  unfold produce; grind [Keeps, setCore_keeps, keeps_foldl]

theorem writeMain_keeps (s : State) (w : EWrite) : Keeps s (writeMain s w) := by
  unfold writeMain; grind [Keeps, vmStore_keeps]

theorem putMatrix_keeps (core : Nat) (i : Inflight) (d : MatDesc) (o : MatOut) (s : State) : Keeps s (putMatrix core i d o s) := by
  unfold putMatrix; grind [Keeps, setCore_keeps, produce_keeps]

theorem putConv_keeps (core : Nat) (i : Inflight) (ctx path role : Nat) (o : ConvOut) (s : State) : Keeps s (putConv core i ctx path role o s) := by
  unfold putConv; grind [Keeps, setCore_keeps, produce_keeps]

end Sys2Proof.Machine
end

