-- ==== Sys2Proof/Laws/KeepsIngest.lean ====
section
/-! SUPPORT. Operations of Machine/Ingest.lean keep (Laws/Keeps.lean). -/

namespace Sys2Proof.Machine

theorem takePort_keeps (s : State) : Keeps s (takePort s).2 := by
  unfold takePort; grind [Keeps]

theorem issueRead_keeps (base pos limit : Nat) (s : State) : Keeps s (issueRead base pos limit s) := by
  unfold issueRead; grind [Keeps, send_keeps, takePort_keeps]

theorem readAhead_keeps (fuel : Nat) (s : State) : Keeps s (readAhead fuel s) := by
  induction fuel generalizing s with
  | zero => exact Keeps.refl s
  | succ n ih =>
    unfold readAhead
    split
    · exact Keeps.refl s
    · split
      · exact Keeps.refl s
      · exact (issueRead_keeps _ _ _ _).trans (ih _)

theorem trimBytes_keeps (s : State) : Keeps s (trimBytes s) := by
  unfold trimBytes; grind [Keeps]

theorem onOpen_keeps (f : MbHdr → MbHdr) (s : State) : Keeps s (onOpen f s) := by
  unfold onOpen; grind [Keeps]

theorem closeMb_keeps (s : State) : Keeps s (closeMb s) := by
  unfold closeMb; grind [Keeps, onOpen_keeps]

theorem moveTo_keeps (c : Cursor) (s : State) : Keeps s (moveTo c s) := by
  unfold moveTo; grind [Keeps]

theorem usable_keeps (s : State) : Keeps s (usable s) := by
  unfold usable; grind [Keeps]

theorem packIdle_keeps (s : State) : Keeps s (packIdle s) := by
  unfold packIdle; grind [Keeps, logAdd_keeps]

theorem appendSample_keeps (l : Nat) (tokens : Bytes) (s : State) : Keeps s (appendSample l tokens s) := by
  unfold appendSample; grind [Keeps, onOpen_keeps]

theorem overLong_keeps (c : Cursor) (l : Nat) (s : State) : Keeps s (overLong c l s) := by
  unfold overLong; grind [Keeps, bump_keeps, onOpen_keeps, usable_keeps]

theorem takeRecord_keeps (l len : Nat) (s : State) {t : State} (h : takeRecord l len s = some t) : Keeps s t := by
  unfold takeRecord at h; grind [Keeps, closeMb_keeps, moveTo_keeps, usable_keeps, appendSample_keeps, overLong_keeps]

theorem packOne_keeps (s : State) {t : State} (h : packOne s = some t) : Keeps s t := by
  unfold packOne at h; grind [Keeps, bump_keeps, moveTo_keeps, packIdle_keeps, takeRecord_keeps]

theorem packAll_keeps (fuel : Nat) (s : State) : Keeps s (packAll fuel s) := by
  induction fuel generalizing s with
  | zero => exact Keeps.refl s
  | succ n ih =>
    unfold packAll
    split
    · exact Keeps.refl s
    · exact (packOne_keeps s (by assumption)).trans (ih _)

theorem sendNotice_keeps (s : State) : Keeps s (sendNotice s) := by
  unfold sendNotice; grind [Keeps, sendControl_keeps, keeps_foldl]

theorem takeHead_keeps (s : State) : Keeps s (takeHead s) := by
  unfold takeHead; grind [Keeps, bump_keeps]

theorem readPart_keeps (e : SplitEntry) (p n : Nat) (s : State) : Keeps s (readPart e p n s) := by
  unfold readPart; grind [Keeps, send_keeps, takePort_keeps]

theorem readChunk_keeps (e : SplitEntry) (s : State) : Keeps s (readChunk e s) := by
  unfold readChunk
  dsimp only
  split
  · exact Keeps.refl s
  · exact keeps_foldl _ (fun s _ => readPart_keeps _ _ _ s) _ s

theorem writeHalf_keeps (n : Nat) (s : State) : Keeps s (writeHalf n s) := by
  unfold writeHalf; grind [Keeps, vmStore_keeps, keeps_foldl]

theorem beginPack_keeps (n : Nat) (s : State) : Keeps s (beginPack n s) := by
  unfold beginPack; grind [Keeps]

theorem rereadHalf_keeps (n : Nat) (s : State) : Keeps s (rereadHalf n s) := by
  unfold rereadHalf; grind [Keeps, beginPack_keeps]

theorem endPack_keeps (extra : List MbHdr) (s : State) : Keeps s (endPack extra s) := by
  unfold endPack; grind [Keeps, writeHalf_keeps, beginPack_keeps]

theorem ingestState_keeps (s : State) : Keeps s (ingestState s) := by
  unfold ingestState
  split
  · exact Keeps.refl s
  · dsimp only
    generalize hu : readAhead 64 (trimBytes (packAll _ s)) = u
    have h : Keeps s u := hu ▸ ((packAll_keeps _ s).trans (trimBytes_keeps _)).trans (readAhead_keeps 64 _)
    clear hu
    grind [Keeps, sendNotice_keeps, takeHead_keeps, readChunk_keeps, endPack_keeps]

theorem splitNoticeState_keeps (src step : Nat) (l : List SplitEntry) (s : State) : Keeps s (splitNoticeState src step l s) := by
  unfold splitNoticeState; grind [Keeps]

theorem startIngest_keeps (c : Cursor) (q : List SplitEntry) (s : State) : Keeps s (startIngest c q s) := by
  unfold startIngest; grind [Keeps, beginPack_keeps]

theorem logRead_keeps (r : NvmeRead) (status : Nat) (s : State) : Keeps s (logRead r status s) := by
  unfold logRead; grind [Keeps, logAdd_keeps]

theorem retryRead_keeps (cid status : Nat) (s : State) : Keeps s (retryRead cid status s) := by
  unfold retryRead; grind [Keeps, send_keeps, halt_keeps, logRead_keeps]

theorem readCompleteState_keeps (cid status : Nat) (data : Bytes) (s : State) : Keeps s (readCompleteState cid status data s) := by
  unfold readCompleteState; grind [Keeps, retryRead_keeps]

theorem readTimeoutState_keeps (cid status : Nat) (s : State) : Keeps s (readTimeoutState cid status s) := by
  unfold readTimeoutState; grind [Keeps, retryRead_keeps]

theorem ingestBoundState_keeps (late : Nat) (s : State) : Keeps s (ingestBoundState late s) := by
  unfold ingestBoundState; grind [Keeps, logAdd_keeps, halt_keeps, logRead_keeps]

theorem keepAliveState_keeps (tgt : Nat) (s : State) : Keeps s (keepAliveState tgt s) := by
  unfold keepAliveState; grind [Keeps, send_keeps]

theorem setHost_keeps (p : Nat) (x : HostPort) (s : State) : Keeps s (setHost p x s) := by
  unfold setHost; grind [Keeps]

theorem linkLossState_keeps (p : Nat) (s : State) : Keeps s (linkLossState p s) := by
  unfold linkLossState; grind [Keeps, send_keeps, logAdd_keeps, setHost_keeps, keeps_foldl]

theorem hostUpState_keeps (p : Nat) (s : State) : Keeps s (hostUpState p s) := by
  unfold hostUpState; grind [Keeps, setHost_keeps]

theorem congestionState_keeps (conn : Nat) (s : State) : Keeps s (congestionState conn s) := by
  unfold congestionState; grind [Keeps]

theorem pfcState_keeps (p prio : Nat) (quanta : Nat) (s : State) : Keeps s (pfcState p prio quanta s) := by
  unfold pfcState; grind [Keeps, setHost_keeps]

theorem inboxWrite_keeps (conn off : Nat) (data : Bytes) (s : State) : Keeps s (inboxWrite conn off data s) := by
  unfold inboxWrite; grind [Keeps]

theorem frameState_keeps (f : Frame) (s : State) : Keeps s (frameState f s) := by
  unfold frameState; grind [Keeps, send_keeps, setHost_keeps, inboxWrite_keeps]

theorem clientConnectState_keeps (addr : Nat) (s : State) : Keeps s (clientConnectState addr s) := by
  unfold clientConnectState; grind [Keeps, takePort_keeps]

end Sys2Proof.Machine
end

