-- ==== Sys2Proof/Laws/KeepsCores.lean ====
section
/-! SUPPORT. Operations of Machine/Cores.lean keep (Laws/Keeps.lean). -/

namespace Sys2Proof.Machine

theorem countCorrected_keeps (c : Corrected) (scrub : Bool) (s : State) : Keeps s (countCorrected c scrub s) := by
  unfold countCorrected; grind [Keeps, bump_keeps]

theorem corrected_keeps (c : Corrected) (scrub : Bool) (s : State) : Keeps s (corrected c scrub s) := by
  unfold corrected; grind [Keeps, countCorrected_keeps, logAdd_keeps]

theorem corrected?_keeps (c : Option Corrected) (s : State) : Keeps s (corrected? c s) := by
  unfold corrected?; grind [Keeps, corrected_keeps]

theorem takeSlot_keeps (hearth : Nat) (d : StreamDesc) (s : State) : Keeps s (takeSlot hearth d s).2 := by
  unfold takeSlot; grind [Keeps, bump_keeps]

theorem reportCredit_keeps (core ctx : Nat) (d : StreamDesc) (n : Nat) (s : State) : Keeps s (reportCredit core ctx d n s) := by
  unfold reportCredit; grind [Keeps, injectPacket_keeps, setCore_keeps]

theorem ringBytes_keeps (core ctx t off : Nat) (bs : Bytes) (s : State) : Keeps s (ringBytes core ctx t off bs s) := by
  unfold ringBytes; grind [Keeps, setCore_keeps]

theorem deliverTile_keeps (core ctx t off : Nat) (bs : Bytes) (s : State) : Keeps s (deliverTile core ctx t off bs s) := by
  unfold deliverTile; grind [Keeps, ringBytes_keeps]

theorem earlyTiles_keeps (core ctx : Nat) (s : State) : Keeps s (earlyTiles core ctx s) := by
  have h (l : List Packet) : Keeps s { s with coll := { s.coll with early := l } } := ⟨rfl, rfl, Nat.le_refl _, Nat.le_refl _⟩
  unfold earlyTiles; exact (h _).trans (keeps_foldl _ (fun s _ => deliverTile_keeps _ _ _ _ _ s) _ _)

theorem admitStream_keeps (core id : Nat) (s : State) (b : Nat × Words) : Keeps s (admitStream core id s b) := by
  unfold admitStream; grind [Keeps, takeSlot_keeps, reportCredit_keeps, earlyTiles_keeps, setCore_keeps]

theorem admissionState_keeps (core : Nat) (s : State) : Keeps s (admissionState core s) := by
  unfold admissionState; grind [Keeps, setCore_keeps, level_keeps, admitStream_keeps, keeps_foldl]

theorem touchPages_keeps (hearth : Nat) (lines : List Nat) (s : State) : Keeps s (touchPages hearth lines s) := by
  unfold touchPages; exact keeps_foldl _ (fun s _ => atcTouch_keeps _ _ s) _ _

theorem touchTile_keeps (core : Nat) (d : StreamDesc) (vas : List Nat) (s : State) : Keeps s (touchTile core d vas s) := by
  unfold touchTile; exact (touchLines_keeps _ _ _ s).trans (touchPages_keeps _ _ _)

theorem tileImage_keeps (d : StreamDesc) (t : Nat) (l : List (Nat × Nat)) (s : State) : Keeps s (tileImage d t l s).2 := by
  unfold tileImage; grind [Keeps, takeFree_keeps]

theorem drainOne_keeps (core ctx : Nat) (s : State) : Keeps s (drainOne core ctx s) := by
  unfold drainOne; grind [Keeps, setCore_keeps]

theorem drainDelivery_keeps (core ctx : Nat) (x : Stream) (d : StreamDesc) (l : List (Nat × Nat)) (s : State) :
    Keeps s (drainDelivery core ctx x d l s) := by
  have h (v : List (Nat × Nat)) (s : State) : Keeps s (setCore core { s.core core with spent := v } s) := by
    exact setCore_keeps _ _ _
  unfold drainDelivery
  dsimp only
  have e (v : List (Nat × Nat)) := ((tileImage_keeps d x.drained l s).trans (drainOne_keeps core ctx _)).trans (h v _)
  split
  · exact (e _).trans (deliverTile_keeps _ _ _ _ _ _)
  · exact (e _).trans (keeps_foldl _ (fun s _ => injectPacket_keeps _ s) _ _)

theorem clearCovered_keeps (ws : List EWrite) (s : State) : Keeps s (clearCovered ws s) := by
  unfold clearCovered; grind [Keeps]

theorem tileFetchState_keeps (core ctx : Nat) (corr : Option Corrected) (s : State) : Keeps s (tileFetchState core ctx corr s) := by
  unfold tileFetchState; grind [Keeps, writeMain_keeps, corrected?_keeps, touchTile_keeps, drainDelivery_keeps, clearCovered_keeps, ringBytes_keeps, drainOne_keeps, keeps_foldl]

theorem creditReportState_keeps (core ctx tiles : Nat) (s : State) : Keeps s (creditReportState core ctx tiles s) := by
  unfold creditReportState; grind [Keeps, setCore_keeps]

theorem prefetchTile_keeps (core ctx t : Nat) (x : Stream) (s : State) : Keeps s (prefetchTile core ctx t x s) := by
  unfold prefetchTile
  exact (setCore_keeps _ _ s).trans (touchLines_keeps _ _ _ _)

theorem prefetchState_keeps (core ctx : Nat) (s : State) : Keeps s (prefetchState core ctx s) := by
  unfold prefetchState
  split
  · exact Keeps.refl s
  · split
    · exact prefetchTile_keeps _ _ _ _ s
    · exact Keeps.refl s

theorem sideWrite_keeps (core mem a : Nat) (bs : Bytes) (s : State) : Keeps s (sideWrite core mem a bs s) := by
  unfold sideWrite; grind [Keeps, vmStore_keeps, readTouch_keeps, setCore_keeps]

theorem sideTouch_keeps (core mem a n : Nat) (s : State) : Keeps s (sideTouch core mem a n s) := by
  unfold sideTouch; grind [Keeps, readTouch_keeps]

theorem sideForInst_keeps (core : Nat) (r : SideReq) (i : Inflight) (m : SideCmd) (s : State) : Keeps s (sideForInst core r i m s) := by
  unfold sideForInst; grind [Keeps, sideTouch_keeps, setCore_keeps, sideWrite_keeps]

theorem sidelineState_keeps (core : Nat) (s : State) : Keeps s (sidelineState core s) := by
  unfold sidelineState; grind [Keeps, sideTouch_keeps, setCore_keeps, sideWrite_keeps, sideForInst_keeps]

theorem takeTo_keeps (core : Nat) (s : State) (x : Nat × Stream × Nat) : Keeps s (takeTo core s x) := by
  unfold takeTo; grind [Keeps, reportCredit_keeps, setCore_keeps]

theorem takeSome_keeps (core : Nat) (u : CUnit) (s : State) : Keeps s (takeSome core u s) := by
  unfold takeSome
  split
  · exact Keeps.refl s
  · exact keeps_foldl _ (fun s _ => takeTo_keeps _ s _) _ _

theorem takeAll_keeps (core id : Nat) (s : State) : Keeps s (takeAll core id s) := by
  unfold takeAll
  exact (keeps_foldl _ (fun s _ => takeTo_keeps _ s _) _ _).trans (setCore_keeps _ _ _)

theorem matrixState_keeps (core : Nat) (s : State) : Keeps s (matrixState core s) := by
  unfold matrixState; grind [Keeps, takeSome_keeps, setCore_keeps, putMatrix_keeps, takeAll_keeps]

theorem vectorState_keeps (core : Nat) (s : State) : Keeps s (vectorState core s) := by
  unfold vectorState; grind [Keeps, takeSome_keeps, setCore_keeps, putConv_keeps, takeAll_keeps]

theorem rowState_keeps (core : Nat) (s : State) : Keeps s (rowState core s) := by
  unfold rowState; grind [Keeps, takeSome_keeps, setCore_keeps, putConv_keeps, takeAll_keeps, keeps_foldl]

theorem passedOn_keeps (core id : Nat) (s : State) : Keeps s (passedOn core id s) := by
  unfold passedOn; grind [Keeps, setCore_keeps]

theorem combineState_keeps (core level : Nat) (s : State) : Keeps s (combineState core level s) := by
  unfold combineState; grind [Keeps, setCore_keeps, putMatrix_keeps, passedOn_keeps]

theorem retireState_keeps (core ctx : Nat) (s : State) : Keeps s (retireState core ctx s) := by
  unfold retireState; grind [Keeps, setCore_keeps]

theorem logOnce_keeps (code core : Nat) (d : MatDesc) (on : Bool) (s : State) : Keeps s (logOnce code core d on s) := by
  unfold logOnce; grind [Keeps, logAdd_keeps]

theorem foldLstat_keeps (l : Nat) (i : Inflight) (s : State) : Keeps s (foldLstat l i s) := by
  unfold foldLstat; grind [Keeps, setGroup_keeps]

theorem putRecord_keeps (core : Nat) (it : Item) (i : Inflight) (s : State) : Keeps s (putRecord core it i s) := by
  unfold putRecord
  refine Keeps.trans ?_ (logOnce_keeps _ _ _ _ _)
  refine Keeps.trans ?_ (logOnce_keeps _ _ _ _ _)
  refine Keeps.trans ?_ (vmStore_keeps _ _ _)
  exact setCore_keeps _ _ s

theorem matrixCompleteState_keeps (core : Nat) (s : State) : Keeps s (matrixCompleteState core s) := by
  unfold matrixCompleteState
  dsimp only
  split
  · exact Keeps.refl s
  · next i _ =>
    have rest : Keeps s (setCore core { s.core core with inflight := (s.core core).inflight.filter fun x => x.id != i.id } s) := by
      exact setCore_keeps _ _ s
    split
    · exact Keeps.refl s
    · split
      · exact rest
      · split
        · exact rest
        · split
          · exact Keeps.refl s
          · next it _ _ =>
            have h := rest.trans (putRecord_keeps core it i _)
            split
            case h_5 => exact h
            all_goals exact h.trans (foldLstat_keeps _ _ _)

theorem barrierState_keeps (core : Nat) (s : State) : Keeps s (barrierState core s) := by
  unfold barrierState; grind [Keeps, setCore_keeps, keeps_foldl]

end Sys2Proof.Machine
end

