-- ==== Sys2Proof/Laws/KeepsUpdate.lean ====
section
/-! SUPPORT. Operations of Machine/Update.lean keep (Laws/Keeps.lean). -/

namespace Sys2Proof.Machine

theorem tieSum_keeps (s : State) (b : BlockRec) : Keeps s (tieSum s b) := by
  unfold tieSum; grind [Keeps, vmStore_keeps, keeps_foldl]

theorem expand_keeps (jobId prob va : Nat) (s : State) : Keeps s (expand jobId prob va s) := by
  unfold expand; grind [Keeps, vmStore_keeps]

theorem expandBlock_keeps (s : State) (b : BlockRec) : Keeps s (expandBlock s b) := by
  unfold expandBlock; grind [Keeps, expand_keeps]

theorem runKernel_keeps (layer : Nat) (s : State) (b : BlockRec) : Keeps s (runKernel layer s b) := by
  unfold runKernel; grind [Keeps, vmStore_keeps, keeps_foldl]

theorem sealBlock_keeps (n : Nat) (s : State) (b : BlockRec) : Keeps s (sealBlock n s b) := by
  unfold sealBlock; grind [Keeps, vmStore_keeps]

theorem readAll_keeps (hearth : Nat) (l : List (Nat × Nat)) (s : State) : Keeps s (readAll hearth l s) := by
  unfold readAll; exact keeps_foldl _ (fun s _ => readTouch_keeps _ _ _ s) _ _

theorem clearTags_keeps (s : State) : Keeps s (clearTags s) := by
  unfold clearTags; exact keeps_foldl _ (fun s _ => vmStore_keeps _ _ s) _ _

end Sys2Proof.Machine
end

