-- ==== Sys2Proof/Laws/KeepsSched.lean ====
section
/-! SUPPORT. Operations of Machine/Sched.lean keep (Laws/Keeps.lean). -/

namespace Sys2Proof.Machine

theorem startCores_keeps (g prog : Nat) (s : State) : Keeps s (startCores g prog s) := by
  unfold startCores; grind [Keeps, setCore_keeps, keeps_foldl]

theorem putItem_keeps (g : Nat) (it : Item) (s : State) : Keeps s (putItem g it s) := by
  unfold putItem; grind [Keeps, setGroup_keeps, startCores_keeps]

theorem writeCounts_keeps (s : State) : Keeps s (writeCounts s) := by
  unfold writeCounts; grind [Keeps, vmStore_keeps, keeps_foldl]

theorem genLog_keeps (b : BlockRec) (s : State) : Keeps s (genLog b s) := by
  unfold genLog; grind [Keeps, logAdd_keeps]

theorem genFail_keeps (b : BlockRec) (s : State) : Keeps s (genFail b s) := by
  unfold genFail; grind [Keeps, genLog_keeps, halt_keeps]

theorem finishItem_keeps (g : Nat) (it : Item) (s : State) : Keeps s (finishItem g it s) := by
  unfold finishItem; grind [Keeps, setGroup_keeps, writeLstat_keeps, pumpColls_keeps]

theorem startUpdate_keeps (g : Nat) (x : Slot) (s : State) : Keeps s (startUpdate g x s) := by
  unfold startUpdate
  dsimp only
  have h := latchLayer_keeps x.layer s.job.step s
  split
  · exact h.trans (finishItem_keeps _ _ _)
  · split
    · exact h.trans (genFail_keeps _ _)
    · split
      · exact (((h.trans (readAll_keeps _ _ _)).trans (keeps_foldl _ tieSum_keeps _ _)).trans (keeps_foldl _ expandBlock_keeps _ _)).trans
          (putItem_keeps _ _ _)
      · exact h

theorem startInstall_keeps (g : Nat) (s : State) : Keeps s (startInstall g s) := by
  unfold startInstall; grind [Keeps, putItem_keeps]

theorem slotStartState_keeps (g : Nat) (s : State) : Keeps s (slotStartState g s) := by
  unfold slotStartState
  dsimp only
  split
  · exact Keeps.refl s
  · split
    · exact startInstall_keeps _ s
    · split
      · exact Keeps.refl s
      · split
        · exact Keeps.refl s
        · split
          · exact Keeps.refl s
          · split
            · split
              · exact Keeps.refl s
              · exact (setGroup_keeps _ _ s).trans (holdLog_keeps _ _)
            · split
              · exact startUpdate_keeps _ _ s
              · refine Keeps.trans ?_ (putItem_keeps _ _ _)
                split
                · exact writeCounts_keeps s
                · exact Keeps.refl s

theorem collStartState_keeps (id m : Nat) (s : State) : Keeps s (collStartState id m s) := by
  unfold collStartState; grind [Keeps, beginColl_keeps, genFail_keeps]

theorem putEval_keeps (g : Segment) (pos : Option Nat) (layer : Nat) (s : State) : Keeps s (putEval g pos layer s) := by
  unfold putEval; grind [Keeps, putItem_keeps]

theorem evalStartState_keeps (s : State) : Keeps s (evalStartState s) := by
  unfold evalStartState; grind [Keeps, addElective_keeps, putEval_keeps]

theorem dropStreams_keeps (n : Nat) (s : State) : Keeps s (dropStreams n s) := by
  unfold dropStreams; grind [Keeps, setCore_keeps]

theorem stopEval_keeps (g : Nat) (s : State) : Keeps s (stopEval g s) := by
  unfold stopEval; grind [Keeps, setGroup_keeps, setCore_keeps, subElective_keeps, dropStreams_keeps, keeps_foldl]

theorem diagOver_keeps (s : State) : Keeps s (diagOver s) := by
  unfold diagOver; grind [Keeps, setJob_keeps]

theorem dropEval_keeps (seg : Nat) (pos : Option Nat) (s : State) : Keeps s (dropEval seg pos s) := by
  unfold dropEval; grind [Keeps, diagOver_keeps]

theorem respond_keeps (q : InboxReq) (status : Nat) (res : Bytes) (s : State) : Keeps s (respond q status res s) := by
  unfold respond; grind [Keeps, bump_keeps, send_keeps]

theorem publish_keeps (id k : Nat) (s : State) : Keeps s (publish id k s) := by
  unfold publish; grind [Keeps, raiseEvent_keeps]

theorem publishEval_keeps (g : Segment) (pos : Option Nat) (s : State) : Keeps s (publishEval g pos s) := by
  unfold publishEval; grind [Keeps, stopEval_keeps, dropEval_keeps, respond_keeps, publish_keeps]

theorem abandonEval_keeps (code : Nat) (s : State) : Keeps s (abandonEval code s) := by
  unfold abandonEval
  split
  · exact Keeps.refl s
  · split
    · exact Keeps.refl s
    · refine Keeps.trans ?_ (dropEval_keeps _ _ _)
      have := stopEval_keeps
      split
      · exact stopEval_keeps _ s
      · split
        · exact (stopEval_keeps _ s).trans (respond_keeps _ _ _ _)
        · exact stopEval_keeps _ s

theorem advanceEval_keeps (s : State) : Keeps s (advanceEval s) := by
  unfold advanceEval; grind [Keeps, putEval_keeps, stopEval_keeps, publishEval_keeps]

theorem evalExpiryState_keeps (s : State) : Keeps s (evalExpiryState s) := by
  unfold evalExpiryState; grind [Keeps]

theorem responseLost_keeps (slot wait : Nat) (s : State) : Keeps s (responseLost slot wait s) := by
  unfold responseLost; grind [Keeps, bump_keeps]

theorem takePiece_keeps (point : Bool) (i : Nat) (s : State) : Keeps s (takePiece point i s) := by
  unfold takePiece; grind [Keeps, holdLog_keeps, setRun_keeps, loadProblem_keeps, addElective_keeps]

theorem startPiece_keeps (i : Nat) (s : State) : Keeps s (startPiece i s) := by
  unfold startPiece; grind [Keeps, takePiece_keeps]

theorem endPiece_keeps (i : Nat) (s : State) : Keeps s (endPiece i s) := by
  unfold endPiece; grind [Keeps, setRun_keeps, subElective_keeps, takePiece_keeps]

theorem installedLayer_keeps (g layer : Nat) (s : State) : Keeps s (installedLayer g layer s) := by
  unfold installedLayer; grind [Keeps, setGroup_keeps, clearTags_keeps]


theorem advanceUpdate_keeps (g : Nat) (it : Item) (s : State) : Keeps s (advanceUpdate g it s) := by
  unfold advanceUpdate
  dsimp only
  split
  · exact Keeps.refl s
  · split
    · split
      · exact Keeps.refl s
      · exact (((readAll_keeps _ _ s).trans (keeps_foldl _ (runKernel_keeps _) _ _)).trans (setGroup_keeps _ _ _)).trans
          (startCores_keeps _ _ _)
    · split
      · exact (keeps_foldl _ (sealBlock_keeps _) _ s).trans (finishItem_keeps _ _ _)
      · exact installedLayer_keeps _ _ _

theorem itemCompleteState_keeps (g : Nat) (s : State) : Keeps s (itemCompleteState g s) := by
  unfold itemCompleteState; grind [Keeps, finishItem_keeps, advanceEval_keeps, advanceUpdate_keeps]

theorem admitNative_keeps (h : Nat) (fuel : Nat) (s : State) : Keeps s (admitNative h fuel s) := by
  induction fuel generalizing s with
  | zero => unfold admitNative; grind [Keeps]
  | succ n ih => unfold admitNative; grind [Keeps, admitRoot_keeps]

theorem admitBorrowed_keeps (h : Nat) (s : State) : Keeps s (admitBorrowed h s) := by
  unfold admitBorrowed; grind [Keeps, startPiece_keeps]

theorem electiveState_keeps (p : AdmitPoint) (s : State) : Keeps s (electiveState p s) := by
  unfold electiveState; grind [Keeps, admitNative_keeps, admitBorrowed_keeps, keeps_foldl]

end Sys2Proof.Machine
end

