-- ==== Sys2Proof/Laws/KeepsBoundary.lean ====
section
/-! SUPPORT. Operations of Machine/Boundary.lean keep (Laws/Keeps.lean). -/

namespace Sys2Proof.Machine

theorem publishRecord_keeps (s : State) : Keeps s (publishRecord s) := by
  unfold publishRecord; grind [Keeps, raiseEvent_keeps]

theorem takeCommand_keeps (s : State) : Keeps s (takeCommand s) := by
  unfold takeCommand; grind [Keeps]

theorem queueRequest_keeps (s : State) (x : InboxReq × Nat) (pos : Nat) : Keeps s (queueRequest s x pos) := by
  unfold queueRequest; grind [Keeps, vmStore_keeps]

theorem dropShort_keeps (s : State) (x : InboxReq × Nat) : Keeps s (dropShort s x) := by
  unfold dropShort; grind [Keeps, bump_keeps]

theorem scanInbox_keeps (s : State) : Keeps s (scanInbox s) := by
  unfold scanInbox; grind [Keeps, queueRequest_keeps, dropShort_keeps, keeps_foldl]

theorem postRefused_keeps (s : State) : Keeps s (postRefused s) := by
  unfold postRefused; grind [Keeps, respond_keeps, keeps_foldl]

theorem dueSegments_keeps (n : Nat) (s : State) : Keeps s (dueSegments n s) := by
  unfold dueSegments; grind [Keeps]

theorem beginEval_keeps (s : State) : Keeps s (beginEval s) := by
  unfold beginEval; grind [Keeps, postRefused_keeps]

theorem setHdr_keeps (slot : Nat) (h : Nat × Bytes) (s : State) : Keeps s (setHdr slot h s) := by
  unfold setHdr; grind [Keeps]

theorem ckptBegin_keeps (s : State) : Keeps s (ckptBegin s) := by
  unfold ckptBegin; grind [Keeps, send_keeps, addElective_keeps, setHdr_keeps]

theorem ckptWriteState_keeps (s : State) : Keeps s (ckptWriteState s) := by
  unfold ckptWriteState; grind [Keeps, haltNow_keeps, genLog_keeps, ckptBegin_keeps]

theorem ckptFlush_keeps (s : State) : Keeps s (ckptFlush s) := by
  unfold ckptFlush; grind [Keeps, send_keeps]

theorem ckptData_keeps (s : State) : Keeps s (ckptData s) := by
  have h (n : Nat) (f : State → Nat → Tx) : Keeps s ((List.range n).foldl (fun s i => send (f s i) s)
      { s with bnd := { s.bnd with ckptPhase := 2, writesLeft := n } }) := by
    grind [Keeps, keeps_foldl, send_keeps]
  unfold ckptData
  dsimp only
  split
  · exact Keeps.refl s
  · split
    · exact (h _ _).trans (ckptFlush_keeps _)
    · exact h _ _

theorem writeCompleteState_keeps (s : State) : Keeps s (writeCompleteState s) := by
  unfold writeCompleteState; grind [Keeps, ckptFlush_keeps]

theorem ckptEnd_keeps (s : State) : Keeps s (ckptEnd s) := by
  unfold ckptEnd; grind [Keeps, subElective_keeps]

theorem ckptSeal_keeps (s : State) : Keeps s (ckptSeal s) := by
  unfold ckptSeal; grind [Keeps, send_keeps]

theorem ckptDone_keeps (s : State) : Keeps s (ckptDone s) := by
  unfold ckptDone; grind [Keeps, logPlain_keeps, setHdr_keeps, ckptEnd_keeps]

theorem flushState_keeps (s : State) : Keeps s (flushState s) := by
  unfold flushState; grind [Keeps, ckptData_keeps, ckptSeal_keeps, ckptDone_keeps]

theorem ckptAbandon_keeps (s : State) : Keeps s (ckptAbandon s) := by
  unfold ckptAbandon; grind [Keeps, bump_keeps, logPlain_keeps, ckptEnd_keeps]

theorem ckptExpiryState_keeps (s : State) : Keeps s (ckptExpiryState s) := by
  unfold ckptExpiryState; grind [Keeps, ckptAbandon_keeps]

theorem setOrder_keeps (o : Nat) (s : State) : Keeps s (setOrder o s) := by
  unfold setOrder; grind [Keeps]

theorem beginOrder7_keeps (s : State) : Keeps s (beginOrder7 s) := by
  unfold beginOrder7; grind [Keeps, retirePages_keeps, setOrder_keeps]

theorem stopJob_keeps (s : State) : Keeps s (stopJob s) := by
  unfold stopJob; grind [Keeps, setJob_keeps, governorStop_keeps, endEval_keeps]

theorem order8_keeps (s : State) : Keeps s (order8 s) := by
  unfold order8; grind [Keeps, setJob_keeps, stopJob_keeps, haltNow_keeps, startStep_keeps]

theorem boundaryState_keeps (s : State) : Keeps s (boundaryState s) := by
  unfold boundaryState; grind [Keeps, publishRecord_keeps, takeCommand_keeps, scanInbox_keeps, dueSegments_keeps, beginEval_keeps, setOrder_keeps, beginOrder7_keeps, order8_keeps]

theorem budgetExpiryState_keeps (s : State) : Keeps s (budgetExpiryState s) := by
  unfold budgetExpiryState; grind [Keeps]

theorem pausedEnd_keeps (s : State) : Keeps s (pausedEnd s) := by
  unfold pausedEnd; grind [Keeps, setJob_keeps, startStep_keeps, stopJob_keeps]

theorem pausedServe_keeps (s : State) : Keeps s (pausedServe s) := by
  unfold pausedServe; grind [Keeps, scanInbox_keeps, beginEval_keeps, pausedEnd_keeps]

theorem pausedCommand_keeps (s : State) : Keeps s (pausedCommand s) := by
  unfold pausedCommand; grind [Keeps, takeCommand_keeps, pausedServe_keeps]

theorem pausedState_keeps (s : State) : Keeps s (pausedState s) := by
  unfold pausedState; grind [Keeps, pausedServe_keeps, pausedEnd_keeps, pausedCommand_keeps]

end Sys2Proof.Machine
end

