-- ==== Sys2Proof/Laws/KeepsMemFault.lean ====
section
/-! SUPPORT. Operations of Machine/MemFault.lean keep (Laws/Keeps.lean). -/

namespace Sys2Proof.Machine

theorem fenceMap_keeps (phys : Nat) (s : State) : Keeps s (fenceMap phys s).1 := by
  unfold fenceMap; grind [Keeps]

theorem fenceJob_keeps (n : Nat) (spare : Bool) (s : State) : Keeps s (fenceJob n spare s) := by
  unfold fenceJob; grind [Keeps, halt_keeps, abortOwn_keeps, abandonEval_keeps]

theorem fenceCore_keeps (phys slice : Nat) (s : State) : Keeps s (fenceCore phys slice s) := by
  unfold fenceCore; grind [Keeps, bump_keeps, setCore_keeps, logAdd_keeps, cutPieces_keeps, fenceMap_keeps, fenceJob_keeps]

theorem coreFencedState_keeps (phys : Nat) (s : State) : Keeps s (coreFencedState phys s) := by
  unfold coreFencedState; grind [Keeps, fenceCore_keeps]

theorem streamStallState_keeps (core ctx : Nat) (s : State) : Keeps s (streamStallState core ctx s) := by
  unfold streamStallState; grind [Keeps, logAdd_keeps, abortOwn_keeps, abandonEval_keeps]

theorem endMisses_keeps (g outcome : Nat) (s : State) : Keeps s (endMisses g outcome s) := by
  unfold endMisses; grind [Keeps, oweMisses_keeps, setGroup_keeps, logMisses_keeps]

theorem missAbort_keeps (g outcome : Nat) (s : State) : Keeps s (missAbort g outcome s) := by
  unfold missAbort; grind [Keeps, abortOwn_keeps, endMisses_keeps]

theorem addMiss_keeps (g : Nat) (m : Miss) (s : State) : Keeps s (addMiss g m s) := by
  unfold addMiss; grind [Keeps, setGroup_keeps]

theorem stepMiss_keeps (g : Nat) (it : Item) (m : Miss) (s : State) : Keeps s (stepMiss g it m s) := by
  have h (s : State) : Keeps s ((serveMiss m.va m.write s).getD s) := keeps_getD (fun _ => serveMiss_keeps _ _ _)
  unfold stepMiss; grind [Keeps, missAbort_keeps, addMiss_keeps]

theorem missState_keeps (core ctx va : Nat) (write : Bool) (s : State) : Keeps s (missState core ctx va write s) := by
  unfold missState; grind [Keeps, abandonEval_keeps, endMisses_keeps, addMiss_keeps, stepMiss_keeps]

theorem drainState_keeps (g : Nat) (s : State) : Keeps s (drainState g s) := by
  unfold drainState; grind [Keeps, setGroup_keeps, dropStreams_keeps, keeps_foldl]

theorem mappedState_keeps (g va : Nat) (s : State) : Keeps s (mappedState g va s) := by
  unfold mappedState
  dsimp only
  have h := mapOwed_keeps va s
  split
  · exact h
  · split
    · exact h.trans (missAbort_keeps _ _ _)
    · exact (h.trans (serveMiss_keeps _ _ _ (by assumption))).trans (setGroup_keeps _ _ _)

theorem replayItemState_keeps (g : Nat) (s : State) : Keeps s (replayItemState g s) := by
  unfold replayItemState; grind [Keeps, setGroup_keeps, startCores_keeps, endMisses_keeps]

theorem replayBoundState_keeps (g : Nat) (s : State) : Keeps s (replayBoundState g s) := by
  unfold replayBoundState; grind [Keeps, missAbort_keeps]

theorem markPoison_keeps (block : Nat) (s : State) : Keeps s (markPoison block s) := by
  unfold markPoison; grind [Keeps]

theorem markBroken_keeps (block : Nat) (s : State) : Keeps s (markBroken block s) := by
  unfold markBroken; grind [Keeps]

theorem retireNow_keeps (s : State) : Keeps s (retireNow s) := by
  unfold retireNow; grind [Keeps, retirePages_keeps]

theorem cellOut_keeps (cell : Nat) (s : State) : Keeps s (cellOut cell s) := by
  unfold cellOut; grind [Keeps, setCounter_keeps, setRun_keeps, subElective_keeps, keeps_foldl]

theorem lineLost_keeps (pa : Nat) (dirty : Bool) (s : State) : Keeps s (lineLost pa dirty s) := by
  have h : Keeps s { s with mm := s.mm.drop [pa] } := ⟨rfl, rfl, Nat.le_refl _, Nat.le_refl _⟩
  unfold lineLost
  dsimp only
  split
  · exact ((h.trans (markPoison_keeps _ _)).trans (wantRetire_keeps _ _)).trans (retireNow_keeps _)
  · split
    · exact h
    · exact h.trans (touchLines_keeps _ _ _ _)

theorem sramLost_keeps (kind : SramKind) (unit word : Nat) (s : State) : Keeps s (sramLost kind unit word s) := by
  unfold sramLost; grind [Keeps, bump_keeps, logAdd_keeps, fenceCore_keeps, cellOut_keeps, lineLost_keeps]

theorem sramState_keeps (kind : SramKind) (unit word : Nat) (err : List SymErr) (s : State) : Keeps s (sramState kind unit word err s) := by
  unfold sramState; grind [Keeps, corrected_keeps, sramLost_keeps]

theorem logBlock_keeps (channel pa va : Nat) (s : State) : Keeps s (logBlock channel pa va s) := by
  unfold logBlock; grind [Keeps, bump_keeps, logAdd_keeps]

theorem noteBlock_keeps (channel pa va : Nat) (s : State) : Keeps s (noteBlock channel pa va s) := by
  unfold noteBlock; grind [Keeps, logBlock_keeps, wantRetire_keeps, markBroken_keeps, retireNow_keeps]

theorem scratchAbort_keeps (va : Nat) (s : State) : Keeps s (scratchAbort va s) := by
  unfold scratchAbort; grind [Keeps, abortOwn_keeps, rereadHalf_keeps]

theorem ckptLost_keeps (s : State) : Keeps s (ckptLost s) := by
  unfold ckptLost; grind [Keeps, haltNow_keeps, ckptAbandon_keeps]

theorem containerLost_keeps (pa : Nat) (s : State) : Keeps s (containerLost pa s) := by
  unfold containerLost; grind [Keeps]

theorem blockReader_keeps (reader : EccReader) (va : Nat) (s : State) : Keeps s (blockReader reader va s) := by
  unfold blockReader; grind [Keeps, halt_keeps, abandonEval_keeps, scratchAbort_keeps, ckptLost_keeps]

theorem blockLost_keeps (channel pa va : Nat) (reader : EccReader) (s : State) : Keeps s (blockLost channel pa va reader s) := by
  unfold blockLost; grind [Keeps, containerLost_keeps, logBlock_keeps, noteBlock_keeps, blockReader_keeps]

theorem gddrState_keeps (channel pa va : Nat) (reader : EccReader) (err : List SymErr) (s : State) :
    Keeps s (gddrState channel pa va reader err s) := by
  unfold gddrState
  split
  · exact Keeps.refl s
  · split
    · exact blockLost_keeps _ _ _ _ s
    · split
      · exact Keeps.refl s
      · split
        · exact (touchLines_keeps _ _ _ s).trans (corrected_keeps _ _ _)
        · exact blockLost_keeps _ _ _ _ s

theorem scrubTick_keeps (s : State) : Keeps s (scrubTick s) := by
  unfold scrubTick; grind [Keeps, bump_keeps]

theorem scrubBlock_keeps (pa : Nat) (err : List SymErr) (s : State) : Keeps s (scrubBlock pa err s) := by
  unfold scrubBlock; grind [Keeps, containerLost_keeps, noteBlock_keeps, corrected_keeps]

theorem scrubState_keeps (block : Nat) (err : List SymErr) (onDie : Nat) (s : State) : Keeps s (scrubState block err onDie s) := by
  unfold scrubState; grind [Keeps, bump_keeps, scrubTick_keeps, scrubBlock_keeps]

end Sys2Proof.Machine
end

