-- ==== Sys2Proof/Laws/KeepsFabEvents.lean ====
section
/-! SUPPORT. Operations of Machine/FabEvents.lean keep (Laws/Keeps.lean). -/

namespace Sys2Proof.Machine

theorem reroute_keeps (l : List Waiting) (s : State) : Keeps s (reroute l s) := by
  unfold reroute; exact keeps_foldl _ (fun s _ => routePacket_keeps _ _ s) _ _

theorem portDownState_keeps (p : Nat) (s : State) : Keeps s (portDownState p s) := by
  unfold portDownState; grind [Keeps, logAdd_keeps, setPort_keeps, announceOne_keeps, abortOwn_keeps, reroute_keeps, settleFabric_keeps]

theorem retrainState_keeps (p lanes : Nat) (s : State) : Keeps s (retrainState p lanes s) := by
  unfold retrainState; grind [Keeps, setPort_keeps, retrainUp_keeps, portDownState_keeps]

theorem streamPacket_keeps (p : Packet) (s : State) : Keeps s (streamPacket p s) := by
  unfold streamPacket; grind [Keeps, deliverTile_keeps, higherState_keeps]

theorem creditEventState_keeps (core ctx tiles step attempt : Nat) (s : State) : Keeps s (creditEventState core ctx tiles step attempt s) := by
  unfold creditEventState; grind [Keeps, level_keeps, creditReportState_keeps]

theorem deliver_keeps (p : Packet) (s : State) : Keeps s (deliver p s) := by
  unfold deliver; grind [Keeps, streamPacket_keeps, level_keeps, bucketCredit_keeps]

theorem receiveState_keeps (l : LinkIn) (p : Packet) (s : State) : Keeps s (receiveState l p s) := by
  unfold receiveState; grind [Keeps, bump_keeps, send_keeps, setPort_keeps, freeRx_keeps, deliver_keeps, routePacket_keeps]

theorem forwardState_keeps (from? : Option LinkIn) (p : Packet) (s : State) : Keeps s (forwardState from? p s) := by
  unfold forwardState; grind [Keeps, injectPacket_keeps, receiveState_keeps]

theorem collPacketState_keeps (p : Packet) (s : State) : Keeps s (collPacketState p s) := by
  unfold collPacketState; grind [Keeps, takePacket_keeps, higherState_keeps]

theorem creditPacketState_keeps (core ctx tiles step attempt : Nat) (s : State) : Keeps s (creditPacketState core ctx tiles step attempt s) := by
  unfold creditPacketState; grind [Keeps, creditEventState_keeps]

theorem rootDeliveryState_keeps (src weight side block slot due source kind esc : Nat) (header tiles : Bytes) (s : State) :
    Keeps s (rootDeliveryState src weight side block slot due source kind esc header tiles s) := by
  unfold rootDeliveryState
  dsimp only
  refine Keeps.trans ?_ (rootDelivered_keeps _ _ _ _ _ _ _ _ _ _ _ _)
  exact ⟨rfl, rfl, Nat.le_refl _, Nat.le_refl _⟩

theorem rootMessageState_keeps (src weight side block step attempt slot : Nat) (o : RootOutcome) (s : State) : Keeps s (rootMessageState src weight side block step attempt slot o s) := by
  unfold rootMessageState; grind [Keeps, level_keeps, rootDecisionState_keeps]

end Sys2Proof.Machine
end

