-- ==== Sys2Proof/Laws/KeepsRecipeCheck.lean ====
section
/-! SUPPORT. Operations of Machine/RecipeCheck.lean keep (Laws/Keeps.lean). -/

namespace Sys2Proof.Machine

theorem mapAll_keeps (s : State) {t : State} (h : mapAll s = some t) : Keeps s t :=
  keeps_foldl_bind mapRegion (fun _ _ _ h => mapRegion_keeps _ _ h) _ _ h

end Sys2Proof.Machine
end

