-- ==== Sys2Proof/Laws/KeepsSecurity.lean ====
section
/-! SUPPORT. Operations of Machine/Security.lean keep (Laws/Keeps.lean). -/

namespace Sys2Proof.Machine

/-- Storing a client slot leaves ownership, counter and floor. -/
theorem setClient_grows (k : Nat) (d : Bytes) (r : Nat) (s : State) : Grows s (setClient k d r s) :=
  ⟨rfl, ⟨id, Nat.le_refl _, Nat.le_refl _⟩, Nat.le_refl _, Nat.le_refl _⟩

/-- The effect of a legal statement with a higher counter. -/
theorem stmtEffect_grows (st : Statement) (s : State) (h1 : stmtLegal s st = true) (h2 : s.sec.ctr < st.ctr) :
    Grows s (stmtEffect st s).1 := by
  unfold stmtEffect
  unfold stmtLegal at h1
  split <;> dsimp only <;> grind [Grows, Keeps, secKept, closeKey_keeps, setClient]

/-- An accepted statement raises the counter, and none leaves LOCKED. -/
theorem takeStatement_grows (sub : Nat) (writer : Bytes) (st : Statement) (s : State) :
    Grows s (takeStatement sub writer st s).2.1 := by
  have hr := loose_grows.of (Keeps.refl s)
  have hl (a : List Nat) := loose_grows.of (logPlain_keeps SIGNATURE_BAD a s)
  have he := stmtEffect_grows st s
  unfold takeStatement
  unfold stmtSigned
  grind

theorem answerHello_keeps (tr : Transport) (peer : Nat) (hello : Hello) (s : State) : Keeps s (answerHello tr peer hello s).2 := by
  unfold answerHello; grind [Keeps]

end Sys2Proof.Machine
end

