-- ==== Sys2Proof/Laws/KeepsLoad.lean ====
section
/-! SUPPORT. Operations of Machine/Load.lean keep (Laws/Keeps.lean). -/

namespace Sys2Proof.Machine

theorem candidate_keeps (c : Container) (s : State) : Keeps s (candidate c s) := by
  unfold candidate; grind [Keeps]

theorem writeRoutes_keeps (s : State) : Keeps s (writeRoutes s) := by
  unfold writeRoutes; grind [Keeps, vmStore_keeps]

theorem writeRecords_keeps (s : State) : Keeps s (writeRecords s) := by
  unfold writeRecords; grind [Keeps, vmStore_keeps, keeps_foldl]

theorem writeDescMem_keeps (s : State) : Keeps s (writeDescMem s) := by
  unfold writeDescMem; grind [Keeps, setCore_keeps, keeps_foldl]

theorem freshRecipe_keeps (c : Container) (s : State) : Keeps s (freshRecipe c s) := by
  unfold freshRecipe; grind [Keeps, candidate_keeps]

theorem loadRecipe_keeps (c : Container) (s : State) : Keeps s (loadRecipe c s) := by
  have h (s : State) : Keeps s ((mapAll s).getD s) := keeps_getD (fun _ => mapAll_keeps _)
  unfold loadRecipe
  grind [Keeps, setJob_keeps, rebuildStarters_keeps, writeRoutes_keeps, writeRecords_keeps, writeDescMem_keeps, freshRecipe_keeps]

theorem installImage_keeps (c : Container) (s : State) : Keeps s (installImage c s) := by
  unfold installImage; grind [Keeps]

theorem setOutcome_keeps (code : Nat) (s : State) : Keeps s (setOutcome code s) := by
  unfold setOutcome; grind [Keeps]

theorem runLoad_keeps (c : Container) (s : State) : Keeps s (runLoad c s) := by
  unfold runLoad; grind [Keeps, takeFree_keeps, logPlain_keeps, loadRecipe_keeps, installImage_keeps, setOutcome_keeps]

theorem loadCommand_keeps (s : State) : Keeps s (loadCommand s).2 := by
  unfold loadCommand; grind [Keeps, runLoad_keeps]

end Sys2Proof.Machine
end

