-- ==== Sys2Proof/Laws/KeepsJobs.lean ====
section
/-! SUPPORT. Operations of Machine/Jobs.lean keep (Laws/Keeps.lean). -/

namespace Sys2Proof.Machine

theorem spreadBytes_keeps (rs : List (Nat × Nat)) (bs : Bytes) (s : State) : Keeps s (spreadBytes rs bs s) := by
  induction rs generalizing bs s with
  | nil => exact Keeps.refl s
  | cons r rs ih => exact (vmStore_keeps _ _ s).trans (ih _ _)

theorem placeSource_keeps (src : Source) (s : State) : Keeps s (placeSource src s) := by
  unfold placeSource
  split
  · exact Keeps.refl s
  · exact spreadBytes_keeps _ _ _

theorem queueInstall_keeps (s : State) : Keeps s (queueInstall s) := ⟨rfl, rfl, Nat.le_refl _, Nat.le_refl _⟩

theorem installState_keeps (src : Source) (s : State) : Keeps s (installState src s) := by
  unfold installState
  dsimp only
  have h := ((placeSource_keeps src s).trans
    (keeps_foldl _ (sealBlock_keeps src.step) (placeSource src s).blocks _)).trans (queueInstall_keeps _)
  split
  · exact h.trans (clearTags_keeps _)
  · exact h

theorem sendDigest_keeps (s : State) : Keeps s (sendDigest s) := by
  unfold sendDigest; grind [Keeps, sendWords_keeps, haltNow_keeps, releaseAll_keeps]

theorem retrainDegraded_keeps (s : State) : Keeps s (retrainDegraded s) := by
  unfold retrainDegraded; grind [Keeps, laneFailureState_keeps, keeps_foldl]

theorem beginJob_keeps (src : Source) (s : State) : Keeps s (beginJob src s) := by
  unfold beginJob; grind [Keeps, rebuildStarters_keeps, resumeRoots_keeps, startStep_keeps, startIngest_keeps, installState_keeps, sendDigest_keeps]

theorem startJob_keeps (i : Install) (s : State) : Keeps s (startJob i s) := by
  unfold startJob; grind [Keeps, setJob_keeps, governorStart_keeps, haltNow_keeps, retrainDegraded_keeps, beginJob_keeps]

theorem startDiag_keeps (s : State) : Keeps s (startDiag s) := by
  unfold startDiag; grind [Keeps, setJob_keeps, diagOver_keeps]

theorem startCommand_keeps (i : Install) (s : State) : Keeps s (startCommand i s).2 := by
  unfold startCommand; grind [Keeps, startJob_keeps, startDiag_keeps]

theorem holdCommand_keeps (c : JobCmd) (s : State) : Keeps s (holdCommand c s).2 := by
  unfold holdCommand; grind [Keeps]

theorem pauseCommand_keeps (s : State) : Keeps s (pauseCommand s).2 := by
  unfold pauseCommand; grind [Keeps, holdCommand_keeps]

theorem resumeCommand_keeps (s : State) : Keeps s (resumeCommand s).2 := by
  unfold resumeCommand; grind [Keeps, holdCommand_keeps]

theorem checkpointCommand_keeps (s : State) : Keeps s (checkpointCommand s).2 := by
  unfold checkpointCommand; grind [Keeps, holdCommand_keeps]

theorem unload_keeps (s : State) : Keeps s (unload s) := by
  unfold unload; grind [Keeps]

theorem stopCommand_keeps (s : State) : Keeps s (stopCommand s).2 := by
  unfold stopCommand; grind [Keeps, setJob_keeps, holdCommand_keeps, unload_keeps]

theorem abortStepCommand_keeps (s : State) : Keeps s (abortStepCommand s).2 := by
  unfold abortStepCommand; grind [Keeps, abortOwn_keeps, abortIgnored_keeps]

end Sys2Proof.Machine
end

