-- ==== Sys2Proof/Laws/KeepsDict.lean ====
section
/-! SUPPORT. Operations of Machine/Dict.lean keep (Laws/Keeps.lean). -/

namespace Sys2Proof.Machine

theorem storeEntry_keeps (idx sub : Nat) (val : Bytes) (s : State) : Keeps s (storeEntry idx sub val s) := by
  unfold storeEntry; grind [Keeps]

end Sys2Proof.Machine
end

