-- ==== Sys2Proof/Laws/KeepsPowerCmd.lean ====
section
/-! SUPPORT. Operations of Machine/PowerCmd.lean keep (Laws/Keeps.lean). -/

namespace Sys2Proof.Machine

theorem setHostUp_keeps (up : List Bool) (s : State) : Keeps s (setHostUp up s) := by
  unfold setHostUp; grind [Keeps]

/-- The firmware floor never falls (R419). -/
theorem enterReady_grows (s : State) : Grows s (enterReady s) := by
  unfold enterReady; grind [Grows, Keeps, secKept, setDev_keeps, setVcore_keeps]

theorem proofLast_grows (p : ProofInput) (s : State) : Grows s (proofLast p s) := by
  have hf := (setHostUp_keeps p.hostUp s).trans (proofFabric_keeps p.lanes p.ids _)
  unfold proofLast
  refine loose_grows.trans (loose_grows.of ?_) (enterReady_grows _)
  split
  · exact hf.trans ((setJob_keeps _ _ _).trans (unload_keeps _))
  · exact hf

theorem proofingState_grows (p : ProofInput) (s : State) : Grows s (proofingState p s) := by
  unfold proofingState; grind [Grows, Keeps, secKept, proofFirst_keeps, proofLast_grows]

theorem emptyPantries_keeps (s : State) : Keeps s (emptyPantries s) := by
  unfold emptyPantries; grind [Keeps]

theorem loseSram_keeps (s : State) : Keeps s (loseSram s) := by
  unfold loseSram; grind [Keeps]

theorem hostPortsDown_keeps (s : State) : Keeps s (hostPortsDown s) := by
  unfold hostPortsDown; grind [Keeps, setHostUp_keeps]

theorem sleepState_keeps (s : State) : Keeps s (sleepState s) := by
  unfold sleepState; grind [Keeps, logPlain_keeps, setDev_keeps, setVcore_keeps, hushAll_keeps, fabSleep_keeps, emptyPantries_keeps, loseSram_keeps, hostPortsDown_keeps]

theorem sleepCommand_keeps (s : State) : Keeps s (sleepCommand s).2 := by
  unfold sleepCommand; grind [Keeps, sleepState_keeps]

theorem restoreSram_keeps (s : State) : Keeps s (restoreSram s) := by
  unfold restoreSram; grind [Keeps, rebuildStarters_keeps, haltNow_keeps, writeDescMem_keeps]

theorem wakeState_keeps (s : State) : Keeps s (wakeState s) := by
  unfold wakeState; grind [Keeps, setDev_keeps, setVcore_keeps, fabWake_keeps, restoreSram_keeps]

theorem wakeCommand_keeps (s : State) : Keeps s (wakeCommand s).2 := by
  unfold wakeCommand; grind [Keeps, wakeState_keeps]

theorem standbyCommand_keeps (s : State) : Keeps s (standbyCommand s).2 := by
  unfold standbyCommand; grind [Keeps, refreshAlert_keeps, enterStandby_keeps]

theorem proofCommand_keeps (s : State) : Keeps s (proofCommand s).2 := by
  unfold proofCommand; grind [Keeps, railsDown_keeps, dropJob_keeps, beginProofing_keeps]

theorem powerCommand_keeps (v : Nat) (s : State) : Keeps s (powerCommand v s).2 := by
  unfold powerCommand; grind [Keeps, sleepCommand_keeps, wakeCommand_keeps, standbyCommand_keeps, proofCommand_keeps]

end Sys2Proof.Machine
end

