-- ==== Sys2Proof/Laws/KeepsSelfTest.lean ====
section
/-! SUPPORT. Operations of Machine/SelfTest.lean keep (Laws/Keeps.lean). -/

namespace Sys2Proof.Machine

theorem reserveSave_keeps (hs : List Nat) (s : State) : Keeps s (reserveSave hs s) := by
  unfold reserveSave; exact ⟨rfl, rfl, Nat.le_refl _, Nat.le_refl _⟩

theorem selfTestCommand_keeps (mode target : Nat) (s : State) : Keeps s (selfTestCommand mode target s).2 := by
  unfold selfTestCommand; grind [Keeps, reserveSave_keeps]

theorem endTest_keeps (st : Nat) (s : State) : Keeps s (endTest st s) := by
  unfold endTest; grind [Keeps]

theorem sliceDone_keeps (s : State) : Keeps s (sliceDone s) := by
  unfold sliceDone; grind [Keeps, bump_keeps, endTest_keeps]

theorem sliceFailed_keeps (u k : Nat) (r : BistResult) (s : State) : Keeps s (sliceFailed u k r s) := by
  unfold sliceFailed; grind [Keeps, bump_keeps, logAdd_keeps, fenceCore_keeps, cellOut_keeps, endTest_keeps]

theorem saveLost_keeps (u k : Nat) (s : State) : Keeps s (saveLost u k s) := by
  unfold saveLost; grind [Keeps, bump_keeps, setCore_keeps, takeFree_keeps, logAdd_keeps, abortOwn_keeps]

theorem runSlice_keeps (u k : Nat) (r : BistResult) (s : State) : Keeps s (runSlice u k r s) := by
  unfold runSlice; grind [Keeps, sliceDone_keeps, sliceFailed_keeps, saveLost_keeps]

theorem bistSliceState_keeps (r : BistResult) (s : State) : Keeps s (bistSliceState r s) := by
  unfold bistSliceState; grind [Keeps, runSlice_keeps]

end Sys2Proof.Machine
end

