-- ==== Sys2Proof/Laws/KeepsEdp.lean ====
section
/-! SUPPORT. Operations of Machine/Edp.lean keep (Laws/Keeps.lean). -/

namespace Sys2Proof.Machine

theorem answer_keeps (status idx sub ty : Nat) (s : State) : Keeps s (answer status idx sub ty s).2.1 := by
  unfold answer; grind [Keeps]

theorem countBad_keeps (s : State) : Keeps s (countBad s) := by
  unfold countBad; grind [Keeps, bump_keeps]

theorem countReplay_keeps (s : State) : Keeps s (countReplay s) := by
  unfold countReplay; grind [Keeps, bump_keeps]

theorem relayOut_keeps (h : EdpHdr) (body : EdpBody) (s : State) : Keeps s (relayOut h body s) := by
  unfold relayOut; grind [Keeps, bump_keeps, send_keeps, injectPacket_keeps]

theorem lastSeq_keeps (h : EdpHdr) (s : State) : Keeps s (lastSeq h s) := by
  unfold lastSeq; grind [Keeps, closeSession_keeps]

theorem sendAck_keeps (h : EdpHdr) (a : Ack) (s : State) : Keeps s (sendAck h a s) := by
  unfold sendAck; grind [Keeps, send_keeps, injectPacket_keeps]

theorem cacheAck_keeps (h : EdpHdr) (body : EdpBody) (a : Ack) (s : State) : Keeps s (cacheAck h body a s) := by
  unfold cacheAck; grind [Keeps, setSession_keeps]

theorem returnPages_keeps (s : State) : Keeps s (returnPages s) := by
  unfold returnPages; grind [Keeps]

theorem finishRequest_keeps (h : EdpHdr) (body : EdpBody) (r : Served) : Keeps r.2.1 (finishRequest h body r) := by
  unfold finishRequest
  grind [Keeps, returnPages_keeps, lastSeq_keeps, keeps_foldl, closeSession_keeps, sendAck_keeps, cacheAck_keeps]

/-- A message is served as its request is: what the request's effect obeys, the whole obeys. -/
theorem serveIn_loose {Q : State → State → Prop} (hQ : Loose Q) (h : EdpHdr) (body : EdpBody)
    (act : Option Session → State → Served) (ha : ∀ x s, Q s (act x s).2.1) (x : Session) (s : State) :
    Q s (serveIn h body act x s) := by
  unfold serveIn
  split
  · split
    · exact hQ.of (sendAck_keeps _ _ s)
    · exact hQ.of (countReplay_keeps s)
  · dsimp only
    split
    · exact hQ.of (countReplay_keeps s)
    · exact hQ.trans (hQ.trans (hQ.of (setSession_keeps _ s)) (ha _ _)) (hQ.of (finishRequest_keeps _ _ _))

theorem denied_keeps (body : EdpBody) (s : State) : Keeps s (denied body s).2.1 := by
  unfold denied; grind [Keeps, answer_keeps]

theorem bootServe_loose {Q : State → State → Prop} (hQ : Loose Q) (h : EdpHdr) (body : EdpBody) (size : Nat)
    (act : Option Session → State → Served) (ha : ∀ x s, Q s (act x s).2.1) (s : State) :
    Q s (bootServe h body size act s) := by
  have key (b : Bool) : Q s (if b = true then act none s else denied body s).2.1 := by
    cases b
    · exact hQ.of (denied_keeps _ _)
    · exact ha _ _
  unfold bootServe
  split
  · exact hQ.trans (key _) (hQ.of (sendAck_keeps _ _ _))
  · exact hQ.of (Keeps.refl s)

theorem receive_over {h : EdpHdr} {body : EdpBody} {size : Nat} {s t : State} (e : receive h body size s = .over t) :
    Keeps s t := by
  unfold receive at e; grind [Keeps, countBad_keeps, relayOut_keeps, setSession_keeps]

theorem receive_zero {h : EdpHdr} {body : EdpBody} {size : Nat} {s t : State} (e : receive h body size s = .zero t) :
    t = s := by
  unfold receive at e; grind

theorem receive_inSession {h : EdpHdr} {body : EdpBody} {size : Nat} {s t : State} {x : Session}
    (e : receive h body size s = .inSession x t) : Keeps s t := by
  unfold receive at e; grind [Keeps, setSession_keeps]

theorem serveSized_loose {Q : State → State → Prop} (hQ : Loose Q) (h : EdpHdr) (body : EdpBody) (size : Nat)
    (act : Option Session → State → Served) (ha : ∀ x s, Q s (act x s).2.1) (s : State) :
    Q s (serveSized h body size act s) := by
  unfold serveSized
  split
  · exact bootServe_loose hQ _ _ _ _ ha s
  · split
    · next e => exact hQ.of (receive_over e)
    · next e =>
      cases receive_zero e
      have key (b : Bool) : Q s (if b = true then act none s else denied body s).2.1 := by
        cases b
        · exact hQ.of (denied_keeps _ _)
        · exact ha _ _
      exact hQ.trans (key _) (hQ.of (sendAck_keeps _ _ _))
    · next e => exact hQ.trans (hQ.of (receive_inSession e)) (serveIn_loose hQ h body act ha _ _)

theorem serve_loose {Q : State → State → Prop} (hQ : Loose Q) (h : EdpHdr) (body : EdpBody)
    (act : Option Session → State → Served) (ha : ∀ x s, Q s (act x s).2.1) (s : State) : Q s (serve h body act s) :=
  serveSized_loose hQ h body _ act ha s

theorem readAct_keeps (idx sub lim : Nat) (x : Option Session) (s : State) : Keeps s (readAct idx sub lim x s).2.1 := by
  unfold readAct; grind [Keeps, answer_keeps]

theorem readBlockAct_keeps (idx sub off len lim : Nat) (x : Option Session) (s : State) : Keeps s (readBlockAct idx sub off len lim x s).2.1 := by
  unfold readBlockAct; grind [Keeps, answer_keeps]

theorem writeWith_loose {Q : State → State → Prop} (hQ : Loose Q) (idx sub ty : Nat) (val : Bytes)
    (eff : Session → State → Nat × State × List (BitVec 32)) (he : ∀ x s, Q s (eff x s).2.1) (x : Option Session)
    (s : State) : Q s (writeWith idx sub ty val eff x s).2.1 := by
  have hr (n a b c : Nat) : Q s (answer n a b c s).2.1 := hQ.of (answer_keeps _ _ _ _ s)
  unfold writeWith
  grind

theorem consumeSlot_keeps (k q : Nat) (s : State) : Keeps s (consumeSlot k q s).2 := by
  unfold consumeSlot; grind [Keeps]

theorem clearLog_keeps (v : Nat) (s : State) : Keeps s (clearLog v s) := by
  unfold clearLog; grind [Keeps]

theorem takeNonce_keeps (x : Session) (nonce : Bytes) (s : State) : Keeps s (takeNonce x nonce s) := by
  unfold takeNonce; grind [Keeps, setSession_keeps]

theorem reconfigureCommand_keeps (s : State) : Keeps s (reconfigureCommand s).2 := by
  unfold reconfigureCommand; grind [Keeps, reconfigureState_keeps]

theorem laneMaskState_keeps (p : Nat) (val : Bytes) (s : State) : Keeps s (laneMaskState p val s) := by
  unfold laneMaskState; grind [Keeps, send_keeps, setPort_keeps, laneFailureState_keeps, storeEntry_keeps]

theorem jobCommand_keeps (v : Nat) (s : State) : Keeps s (jobCommand v s).2 := by
  unfold jobCommand; grind [Keeps, loadCommand_keeps, pauseCommand_keeps, resumeCommand_keeps, checkpointCommand_keeps, stopCommand_keeps, abortStepCommand_keeps]

theorem entryEffect_keeps (idx sub : Nat) (val : Bytes) (x : Session) (s : State) : Keeps s (entryEffect idx sub val x s).2.1 := by
  unfold entryEffect noClose
  grind [Keeps, powerCommand_keeps, selfTestCommand_keeps, consumeSlot_keeps, clearLog_keeps, takeNonce_keeps,
    reconfigureCommand_keeps, laneMaskState_keeps, jobCommand_keeps, storeEntry_keeps]

theorem putHold_keeps (d : Hold) (s : State) : Keeps s (putHold d s) := by
  unfold putHold; grind [Keeps]

theorem dropHold_keeps (idx sub : Nat) (s : State) : Keeps s (dropHold idx sub s) := by
  unfold dropHold; grind [Keeps]

theorem addChunk_loose {Q : State → State → Prop} (hQ : Loose Q) (d : Hold) (off : Nat) (final : Bool) (data : Bytes)
    (fin : Bytes → State → Nat × State × List (BitVec 32)) (hf : ∀ v s, Q s (fin v s).2.1) (s : State) :
    Q s (addChunk d off final data fin s).2.1 := by
  unfold addChunk
  dsimp only
  split
  · exact hQ.trans (hQ.of (dropHold_keeps _ _ s)) (hf _ _)
  · exact hQ.of ((putHold_keeps _ s).trans (answer_keeps _ _ _ _ _))

theorem chunkAct_loose {Q : State → State → Prop} (hQ : Loose Q) (idx sub ty off total : Nat) (final : Bool) (data : Bytes)
    (first : State → Nat × State) (fin : Session → Bytes → State → Nat × State × List (BitVec 32))
    (h1 : ∀ s, Keeps s (first s).2) (hf : ∀ x v s, Q s (fin x v s).2.1) (x : Option Session) (s : State) :
    Q s (chunkAct idx sub ty off total final data first fin x s).2.1 := by
  have hr (n a b c : Nat) (s : State) : Keeps s (answer n a b c s).2.1 := answer_keeps _ _ _ _ s
  unfold chunkAct
  split
  · exact hQ.of (hr _ _ _ _ s)
  · dsimp only
    split
    · exact hQ.of (hr _ _ _ _ s)
    · split
      · exact hQ.of (hr _ _ _ _ s)
      · split
        · exact hQ.of (hr _ _ _ _ s)
        · split
          · split
            · exact hQ.of (hr _ _ _ _ s)
            · exact addChunk_loose hQ _ _ _ _ _ (hf _) _
          · split
            · next e => exact hQ.trans (hQ.of (by simpa [e] using h1 s)) (addChunk_loose hQ _ _ _ _ _ (hf _) _)
            · next e => exact hQ.of ((by simpa [e] using h1 s : Keeps s _).trans (hr _ _ _ _ _))

theorem finishBlock_keeps (idx sub ty : Nat) (x : Session) (val : Bytes) (s : State) : Keeps s (finishBlock idx sub ty x val s).2.1 := by
  unfold finishBlock; grind [Keeps, entryEffect_keeps]

theorem stagingPages_keeps (need : Nat) (s : State) : Keeps s (stagingPages need s).2 := by
  unfold stagingPages; grind [Keeps, keeps_foldl]

theorem stagingFirst_keeps (total : Nat) (s : State) : Keeps s (stagingFirst total s).2 := by
  unfold stagingFirst
  split
  · exact stagingPages_keeps _ s
  · split
    · exact Keeps.refl s
    · exact Keeps.refl s

theorem stagingDone_keeps (content : Container) (val : Bytes) (s : State) : Keeps s (stagingDone content val s).2.1 := by
  unfold stagingDone; grind [Keeps]

theorem putSub_keeps (k : Nat) (y : Subscription) (s : State) : Keeps s (putSub k y s) := by
  unfold putSub; grind [Keeps]

theorem subscribeAct_keeps (h : EdpHdr) (kinds classes : BitVec 16) (x : Option Session) (s : State) : Keeps s (subscribeAct h kinds classes x s).2.1 := by
  unfold subscribeAct; grind [Keeps, answer_keeps, putSub_keeps]

theorem ackEvent_keeps (sid : BitVec 32) (n : Nat) (s : State) : Keeps s (ackEvent sid n s) := by
  unfold ackEvent; grind [Keeps, pump_keeps, putSub_keeps]

theorem serveAck_keeps (h : EdpHdr) (n : Nat) (s : State) : Keeps s (serveAck h n s) := by
  unfold serveAck
  split
  · exact Keeps.refl s
  · split
    · next e => exact receive_over e
    · next e => exact receive_zero e ▸ Keeps.refl _
    · next e =>
      refine (receive_inSession e).trans ?_
      split
      · exact countReplay_keeps _
      · exact ((setSession_keeps _ _).trans (ackEvent_keeps _ _ _)).trans (lastSeq_keeps _ _)

theorem dropEventAt_keeps (k : Nat) (y : Subscription) (e : Event) (s : State) : Keeps s (dropEventAt k y e s) := by
  unfold dropEventAt; grind [Keeps, bump_keeps, pump_keeps, putSub_keeps]

theorem resendState_keeps (k n : Nat) (s : State) : Keeps s (resendState k n s) := by
  unfold resendState; grind [Keeps, send_keeps, putSub_keeps, dropEventAt_keeps]

theorem bodyAct_keeps (h : EdpHdr) (body : EdpBody) (x : Option Session) (s : State) :
    Keeps s (bodyAct h body x s).2.1 := by
  unfold bodyAct
  split
  · exact readAct_keeps _ _ _ x s
  · exact writeWith_loose loose_keeps _ _ _ _ _ (fun x s => entryEffect_keeps _ _ _ x s) x s
  · exact readBlockAct_keeps _ _ _ _ _ x s
  · exact chunkAct_loose loose_keeps _ _ _ _ _ _ _ _ _ Keeps.refl (fun x v s => finishBlock_keeps _ _ _ x v s) x s
  · exact subscribeAct_keeps _ _ _ x s
  · exact answer_keeps _ _ _ _ s

theorem serveBody_keeps (h : EdpHdr) (body : EdpBody) (s : State) : Keeps s (serveBody h body s) := by
  unfold serveBody
  split
  · exact serveAck_keeps _ _ s
  · exact serve_loose loose_keeps _ _ _ (bodyAct_keeps _ _) s

theorem relayPacketState_keeps (dev : Nat) (h : EdpHdr) (body : EdpBody) (s : State) : Keeps s (relayPacketState dev h body s) := by
  unfold relayPacketState; grind [Keeps, send_keeps, serveBody_keeps]

theorem keepHello_keeps (r : HelloRec) (s : State) : Keeps s (keepHello r s) := by
  unfold keepHello; grind [Keeps]

theorem helloAct_keeps (h : EdpHdr) (hello : Hello) (x : Option Session) (s : State) : Keeps s (helloAct h hello x s).2.1 := by
  unfold helloAct; grind [Keeps, answerHello_keeps, answer_keeps, keepHello_keeps]

theorem statementAct_grows (sub : Nat) (st : Statement) (x : Option Session) (s : State) :
    Grows s (statementAct sub st x s).2.1 := by
  have h1 (n a b c : Nat) : Grows s (answer n a b c s).2.1 := loose_grows.of (answer_keeps _ _ _ _ s)
  have h2 := takeStatement_grows sub
  unfold statementAct
  grind

theorem writeCommand_keeps (h : EdpHdr) (idx sub ty : Nat) (val : Bytes)
    (eff : Session → State → Nat × State × List (BitVec 32)) (he : ∀ x s, Keeps s (eff x s).2.1) (s : State) :
    Keeps s (writeCommand h idx sub ty val eff s) :=
  serve_loose loose_keeps _ _ _ (writeWith_loose loose_keeps _ _ _ _ _ he) s

theorem codeCommand_keeps (h : EdpHdr) (idx sub v : Nat) (f : State → Nat × State) (hf : ∀ s, Keeps s (f s).2)
    (s : State) : Keeps s (codeCommand h idx sub v f s) :=
  writeCommand_keeps _ _ _ _ _ _ (fun _ s => hf s) s

theorem statementCommand_grows (h : EdpHdr) (sub : Nat) (st : Statement) (s : State) :
    Grows s (statementCommand h sub st s) :=
  serveSized_loose loose_grows _ _ _ _ (statementAct_grows _ _) s

theorem ordinary_keeps (h : EdpHdr) (body : EdpBody) (s : State) : Keeps s (ordinary h body s) := by
  unfold ordinary; grind [Keeps, serveBody_keeps]

theorem idleTimeoutState_keeps (sid : BitVec 32) (s : State) : Keeps s (idleTimeoutState sid s) := by
  unfold idleTimeoutState; grind [Keeps, closeSession_keeps, returnPages_keeps]

theorem tagTimeoutState_keeps (sid : BitVec 32) (s : State) : Keeps s (tagTimeoutState sid s) := by
  unfold tagTimeoutState; grind [Keeps, closeSession_keeps, returnPages_keeps]

theorem holdTimeoutState_keeps (idx sub : Nat) (s : State) : Keeps s (holdTimeoutState idx sub s) := by
  unfold holdTimeoutState; grind [Keeps, returnPages_keeps, dropHold_keeps]

theorem relayExpiryState_keeps (target : Nat) (sid : BitVec 32) (n : Nat) (s : State) : Keeps s (relayExpiryState target sid n s) := by
  unfold relayExpiryState; grind [Keeps]

end Sys2Proof.Machine
end

