-- ==== Sys2Proof/Laws/KeepsExec.lean ====
section
/-! SUPPORT. What each command keeps, if it answers a next state (Laws/Keeps.lean). Statements and proofing obey the
ownership rules instead; the two events that start the boot chain start the local count again. -/

namespace Sys2Proof.Machine

theorem execCollectiveStart_keeps (coll mb : Nat) (s : State) {t : State}
    (h : execCollectiveStart coll mb s = .next t) : Keeps s t := by
  cases h; exact collStartState_keeps _ _ _

theorem execCollectivePacket_keeps (p : Packet) (s : State) {t : State}
    (h : execCollectivePacket p s = .next t) : Keeps s t := by
  cases h; exact collPacketState_keeps _ _

theorem execCollectiveComplete_keeps (coll : Nat) (s : State) {t : State}
    (h : execCollectiveComplete coll s = .next t) : Keeps s t := by
  cases h; exact collectiveCompleteState_keeps _ _

theorem execStreamCreditReport_keeps (core ctx : Nat) (r : CreditReport) (s : State) {t : State}
    (h : execStreamCreditReport core ctx r s = .next t) : Keeps s t := by
  cases h; exact creditPacketState_keeps _ _ _ _ _ _

theorem execCommitPhaseOne_keeps (s : State) {t : State}
    (h : execCommitPhaseOne s = .next t) : Keeps s t := by
  cases h; exact phaseOneState_keeps _

theorem execPrepare_keeps (m : CommitMsg) (s : State) {t : State}
    (h : execPrepare m s = .next t) : Keeps s t := by
  cases h; grind [Keeps, keepMsg_keeps, prepareState_keeps]

theorem execCommit_keeps (m : CommitMsg) (s : State) {t : State}
    (h : execCommit m s = .next t) : Keeps s t := by
  cases h; exact commitState_keeps _ _

theorem execAbort_keeps (m : CommitMsg) (s : State) {t : State}
    (h : execAbort m s = .next t) : Keeps s t := by
  cases h; grind [Keeps, keepMsg_keeps, abortState_keeps]

theorem execAbortReq_keeps (m : CommitMsg) (s : State) {t : State}
    (h : execAbortReq m s = .next t) : Keeps s t := by
  cases h; grind [Keeps, keepMsg_keeps, abortReqState_keeps]

theorem execQuery_keeps (m : CommitMsg) (s : State) {t : State}
    (h : execQuery m s = .next t) : Keeps s t := by
  cases h; grind [Keeps, keepMsg_keeps, queryState_keeps]

theorem execDecision_keeps (m : CommitMsg) (s : State) {t : State}
    (h : execDecision m s = .next t) : Keeps s t := by
  cases h; exact decisionState_keeps _ _

theorem execHalt_keeps (m : CommitMsg) (s : State) {t : State}
    (h : execHalt m s = .next t) : Keeps s t := by
  cases h; exact haltState_keeps _ _

theorem execHigherAttempt_keeps (m : CommitMsg) (isAbort : Bool) (data : Option Packet) (s : State) {t : State}
    (h : execHigherAttempt m isAbort data s = .next t) : Keeps s t := by
  cases h; exact higherState_keeps _ _ _ _

theorem execPartnerSilent_keeps (wait : WaitKind) (partner item detail : Nat) (s : State) {t : State}
    (h : execPartnerSilent wait partner item detail s = .next t) : Keeps s t := by
  cases h; exact partnerSilentState_keeps _ _ _ _ _

theorem execCommitOutcomeSilence_keeps (s : State) {t : State}
    (h : execCommitOutcomeSilence s = .next t) : Keeps s t := by
  cases h; exact outcomeSilenceState_keeps _

theorem execDigestExchange_keeps (sender : Nat) (digest : W64) (s : State) {t : State}
    (h : execDigestExchange sender digest s = .next t) : Keeps s t := by
  cases h; exact digestState_keeps _ _ _

theorem execMatrixOperation_keeps (core : Nat) (s : State) {t : State}
    (h : execMatrixOperation core s = .next t) : Keeps s t := by
  cases h; exact matrixState_keeps _ _

theorem execMatrixOperationComplete_keeps (core : Nat) (s : State) {t : State}
    (h : execMatrixOperationComplete core s = .next t) : Keeps s t := by
  cases h; exact matrixCompleteState_keeps _ _

theorem execSplitKCombine_keeps (core level : Nat) (s : State) {t : State}
    (h : execSplitKCombine core level s = .next t) : Keeps s t := by
  cases h; exact combineState_keeps _ _ _

theorem execVectorInstruction_keeps (core : Nat) (s : State) {t : State}
    (h : execVectorInstruction core s = .next t) : Keeps s t := by
  cases h; exact vectorState_keeps _ _

theorem execRowOperation_keeps (core : Nat) (s : State) {t : State}
    (h : execRowOperation core s = .next t) : Keeps s t := by
  cases h; exact rowState_keeps _ _

theorem execGroupBarrier_keeps (core : Nat) (s : State) {t : State}
    (h : execGroupBarrier core s = .next t) : Keeps s t := by
  cases h; exact barrierState_keeps _ _

theorem execSidelineTransfer_keeps (core : Nat) (s : State) {t : State}
    (h : execSidelineTransfer core s = .next t) : Keeps s t := by
  cases h; exact sidelineState_keeps _ _

theorem execStreamAdmission_keeps (core : Nat) (s : State) {t : State}
    (h : execStreamAdmission core s = .next t) : Keeps s t := by
  cases h; exact admissionState_keeps _ _

theorem execDataTileFetch_keeps (core ctx : Nat) (corr : Option Corrected) (s : State) {t : State}
    (h : execDataTileFetch core ctx corr s = .next t) : Keeps s t := by
  cases h; exact tileFetchState_keeps _ _ _ _

theorem execStreamRetire_keeps (core ctx : Nat) (s : State) {t : State}
    (h : execStreamRetire core ctx s = .next t) : Keeps s t := by
  cases h; exact retireState_keeps _ _ _

theorem execStreamStall_keeps (core ctx : Nat) (s : State) {t : State}
    (h : execStreamStall core ctx s = .next t) : Keeps s t := by
  cases h; exact streamStallState_keeps _ _ _

theorem execPantryPrefetch_keeps (core ctx : Nat) (s : State) {t : State}
    (h : execPantryPrefetch core ctx s = .next t) : Keeps s t := by
  cases h; exact prefetchState_keeps _ _ _

theorem execTranslationMiss_keeps (core ctx : Nat) (va : Nat) (write : Bool) (s : State) {t : State}
    (h : execTranslationMiss core ctx va write s = .next t) : Keeps s t := by
  cases h; exact missState_keeps _ _ _ _ _

theorem execItemDrainComplete_keeps (group : Nat) (s : State) {t : State}
    (h : execItemDrainComplete group s = .next t) : Keeps s t := by
  cases h; exact drainState_keeps _ _

theorem execTranslationMapped_keeps (group va : Nat) (s : State) {t : State}
    (h : execTranslationMapped group va s = .next t) : Keeps s t := by
  cases h; exact mappedState_keeps _ _ _

theorem execWorkItemReplay_keeps (group : Nat) (s : State) {t : State}
    (h : execWorkItemReplay group s = .next t) : Keeps s t := by
  cases h; exact replayItemState_keeps _ _

theorem execReplayBoundExpiry_keeps (group : Nat) (s : State) {t : State}
    (h : execReplayBoundExpiry group s = .next t) : Keeps s t := by
  cases h; exact replayBoundState_keeps _ _

theorem execRecipeStaging_keeps (h : EdpHdr) (off total : Nat) (final : Bool) (data : Bytes) (content : Container) (s : State) {t : State}
    (h : execRecipeStaging h off total final data content s = .next t) : Keeps s t := by
  cases h; exact serve_loose loose_keeps _ _ _
    (chunkAct_loose loose_keeps _ _ _ _ _ _ _ _ _ (stagingFirst_keeps _) (fun _ v s => stagingDone_keeps _ v s)) s

theorem execWriteEntry_keeps (h : EdpHdr) (idx sub ty : Nat) (val : Bytes) (s : State) {t : State}
    (h : execWriteEntry h idx sub ty val s = .next t) : Keeps s t := by
  unfold execWriteEntry at h; grind [Keeps, ordinary_keeps]

theorem execRead_keeps (h : EdpHdr) (idx sub : Nat) (s : State) {t : State}
    (h : execRead h idx sub s = .next t) : Keeps s t := by
  cases h; exact serve_loose loose_keeps _ _ _ (readAct_keeps _ _ _) s

theorem execReadBlock_keeps (h : EdpHdr) (idx sub off len : Nat) (s : State) {t : State}
    (h : execReadBlock h idx sub off len s = .next t) : Keeps s t := by
  cases h; exact serve_loose loose_keeps _ _ _ (readBlockAct_keeps _ _ _ _ _) s

theorem execWriteBlock_keeps (h : EdpHdr) (idx sub ty off total : Nat) (final : Bool) (data : Bytes) (s : State) {t : State}
    (h : execWriteBlock h idx sub ty off total final data s = .next t) : Keeps s t := by
  unfold execWriteBlock at h; grind [Keeps, ordinary_keeps]

theorem execSubscribe_keeps (h : EdpHdr) (kinds classes : BitVec 16) (s : State) {t : State}
    (h : execSubscribe h kinds classes s = .next t) : Keeps s t := by
  cases h; exact serve_loose loose_keeps _ _ _ (subscribeAct_keeps _ _ _) s

theorem execEventAck_keeps (h : EdpHdr) (ackSeq : Nat) (s : State) {t : State}
    (h : execEventAck h ackSeq s = .next t) : Keeps s t := by
  cases h; exact serveAck_keeps _ _ _

theorem execEventResendTimer_keeps (sub evSeq : Nat) (s : State) {t : State}
    (h : execEventResendTimer sub evSeq s = .next t) : Keeps s t := by
  cases h; exact resendState_keeps _ _ _

theorem execRelayRequest_keeps (h : EdpHdr) (body : EdpBody) (s : State) {t : State}
    (h : execRelayRequest h body s = .next t) : Keeps s t := by
  cases h; exact ordinary_keeps _ _ _

theorem execRelayPacket_keeps (dev : Nat) (h : EdpHdr) (body : EdpBody) (s : State) {t : State}
    (h : execRelayPacket dev h body s = .next t) : Keeps s t := by
  cases h; exact relayPacketState_keeps _ _ _ _

theorem execRelayRecordExpiry_keeps (target : Nat) (session : BitVec 32) (seq : Nat) (s : State) {t : State}
    (h : execRelayRecordExpiry target session seq s = .next t) : Keeps s t := by
  cases h; exact relayExpiryState_keeps _ _ _ _

theorem execSessionIdleTimeout_keeps (sid : BitVec 32) (s : State) {t : State}
    (h : execSessionIdleTimeout sid s = .next t) : Keeps s t := by
  cases h; exact idleTimeoutState_keeps _ _

theorem execHelloTagTimeout_keeps (sid : BitVec 32) (s : State) {t : State}
    (h : execHelloTagTimeout sid s = .next t) : Keeps s t := by
  cases h; exact tagTimeoutState_keeps _ _

theorem execWriteBlockHoldTimeout_keeps (idx sub : Nat) (s : State) {t : State}
    (h : execWriteBlockHoldTimeout idx sub s = .next t) : Keeps s t := by
  cases h; exact holdTimeoutState_keeps _ _ _

theorem execReconfigure_keeps (h : EdpHdr) (s : State) {t : State}
    (h : execReconfigure h s = .next t) : Keeps s t := by
  cases h; exact codeCommand_keeps _ _ _ _ _ reconfigureCommand_keeps s

theorem execPortTrainTimeout_keeps (port : Nat) (s : State) {t : State}
    (h : execPortTrainTimeout port s = .next t) : Keeps s t := by
  cases h; exact trainTimeoutState_keeps _ _

theorem execLaneMaskWrite_keeps (h : EdpHdr) (port mask : Nat) (s : State) {t : State}
    (h : execLaneMaskWrite h port mask s = .next t) : Keeps s t := by
  cases h; exact writeCommand_keeps _ _ _ _ _ _ (fun _ s => laneMaskState_keeps _ _ s) s

theorem execCoordinateWrite_keeps (h : EdpHdr) (sub value : Nat) (s : State) {t : State}
    (h : execCoordinateWrite h sub value s = .next t) : Keeps s t := by
  cases h; exact writeCommand_keeps _ _ _ _ _ _ (fun _ s => storeEntry_keeps _ _ _ s) s

theorem execSpareSubstitution_keeps (h : EdpHdr) (port value : Nat) (s : State) {t : State}
    (h : execSpareSubstitution h port value s = .next t) : Keeps s t := by
  cases h; exact writeCommand_keeps _ _ _ _ _ _ (fun _ s => storeEntry_keeps _ _ _ s) s

theorem execLaneFailure_keeps (port : Nat) (s : State) {t : State}
    (h : execLaneFailure port s = .next t) : Keeps s t := by
  cases h; exact laneFailureState_keeps _ _

theorem execRetrainComplete_keeps (port lanes : Nat) (s : State) {t : State}
    (h : execRetrainComplete port lanes s = .next t) : Keeps s t := by
  cases h; exact retrainState_keeps _ _ _

theorem execPortDown_keeps (port : Nat) (s : State) {t : State}
    (h : execPortDown port s = .next t) : Keeps s t := by
  cases h; exact portDownState_keeps _ _

theorem execLinkStateAnnouncement_keeps (dev port : Nat) (up : Bool) (s : State) {t : State}
    (h : execLinkStateAnnouncement dev port up s = .next t) : Keeps s t := by
  cases h; exact linkStateState_keeps _ _ _ _

theorem execDownPortRetry_keeps (port : Nat) (ok : Bool) (s : State) {t : State}
    (h : execDownPortRetry port ok s = .next t) : Keeps s t := by
  cases h; exact downRetryState_keeps _ _ _

theorem execPacketForward_keeps (inPort : Option LinkIn) (p : Packet) (s : State) {t : State}
    (h : execPacketForward inPort p s = .next t) : Keeps s t := by
  cases h; exact forwardState_keeps _ _ _

theorem execLinkReplayRequest_keeps (port seqNo : Nat) (s : State) {t : State}
    (h : execLinkReplayRequest port seqNo s = .next t) : Keeps s t := by
  cases h; exact replayState_keeps _ _ _

theorem execHush_keeps (port : Nat) (s : State) {t : State}
    (h : execHush port s = .next t) : Keeps s t := by
  cases h; exact hushState_keeps _ _

theorem execHushLapse_keeps (port : Nat) (s : State) {t : State}
    (h : execHushLapse port s = .next t) : Keeps s t := by
  cases h; exact hushLapseState_keeps _ _

theorem execOverlongHush_keeps (port : Nat) (s : State) {t : State}
    (h : execOverlongHush port s = .next t) : Keeps s t := by
  cases h; exact overlongState_keeps _ _

theorem execIdentityExchange_keeps (port : Nat) (id : Identity) (s : State) {t : State}
    (h : execIdentityExchange port id s = .next t) : Keeps s t := by
  cases h; exact identityExchangeState_keeps _ _ _

theorem execLinkAcknowledgment_keeps (port seqNo : Nat) (s : State) {t : State}
    (h : execLinkAcknowledgment port seqNo s = .next t) : Keeps s t := by
  cases h; exact linkAckState_keeps _ _ _

theorem execLinkCreditReturn_keeps (port vl cls flits : Nat) (s : State) {t : State}
    (h : execLinkCreditReturn port vl cls flits s = .next t) : Keeps s t := by
  cases h; exact creditState_keeps _ _ _ _ _

theorem execHushHoldEnd_keeps (port : Nat) (s : State) {t : State}
    (h : execHushHoldEnd port s = .next t) : Keeps s t := by
  cases h; exact hushHoldEndState_keeps _ _

theorem execIngestPacking_keeps (s : State) {t : State}
    (h : execIngestPacking s = .next t) : Keeps s t := by
  cases h; exact ingestState_keeps _

theorem execNvmeReadComplete_keeps (cid status : Nat) (data : Bytes) (s : State) {t : State}
    (h : execNvmeReadComplete cid status data s = .next t) : Keeps s t := by
  cases h; exact readCompleteState_keeps _ _ _ _

theorem execNvmeReadTimeout_keeps (cid status : Nat) (s : State) {t : State}
    (h : execNvmeReadTimeout cid status s = .next t) : Keeps s t := by
  cases h; exact readTimeoutState_keeps _ _ _

theorem execNvmeKeepAlive_keeps (tgt : Nat) (s : State) {t : State}
    (h : execNvmeKeepAlive tgt s = .next t) : Keeps s t := by
  cases h; exact keepAliveState_keeps _ _

theorem execIngestBoundExpiry_keeps (late : Nat) (s : State) {t : State}
    (h : execIngestBoundExpiry late s = .next t) : Keeps s t := by
  cases h; exact ingestBoundState_keeps _ _

theorem execSplitNotice_keeps (src step : Nat) (samples : List SplitEntry) (s : State) {t : State}
    (h : execSplitNotice src step samples s = .next t) : Keeps s t := by
  cases h; exact splitNoticeState_keeps _ _ _ _

theorem execHostPortLinkLoss_keeps (port : Nat) (s : State) {t : State}
    (h : execHostPortLinkLoss port s = .next t) : Keeps s t := by
  cases h; exact linkLossState_keeps _ _

theorem execHostPortLinkUp_keeps (port : Nat) (s : State) {t : State}
    (h : execHostPortLinkUp port s = .next t) : Keeps s t := by
  cases h; exact hostUpState_keeps _ _

theorem execCongestionNotification_keeps (conn : Nat) (s : State) {t : State}
    (h : execCongestionNotification conn s = .next t) : Keeps s t := by
  cases h; exact congestionState_keeps _ _

theorem execEthernetFrameReceived_keeps (f : Frame) (s : State) {t : State}
    (h : execEthernetFrameReceived f s = .next t) : Keeps s t := by
  cases h; exact frameState_keeps _ _

theorem execPfcFrame_keeps (port prio : Nat) (quanta : Nat) (s : State) {t : State}
    (h : execPfcFrame port prio quanta s = .next t) : Keeps s t := by
  cases h; exact pfcState_keeps _ _ _ _

theorem execResponseTimeout_keeps (slot : Nat) (s : State) {t : State}
    (h : execResponseTimeout slot s = .next t) : Keeps s t := by
  cases h; exact responseLost_keeps _ _ _

theorem execResponseWriteRejected_keeps (slot : Nat) (s : State) {t : State}
    (h : execResponseWriteRejected slot s = .next t) : Keeps s t := by
  cases h; exact responseLost_keeps _ _ _

theorem execInboxClientConnect_keeps (addr : Nat) (s : State) {t : State}
    (h : execInboxClientConnect addr s = .next t) : Keeps s t := by
  cases h; exact clientConnectState_keeps _ _

theorem execLoad_keeps (h : EdpHdr) (s : State) {t : State}
    (h : execLoad h s = .next t) : Keeps s t := by
  cases h; exact codeCommand_keeps _ _ _ _ _ loadCommand_keeps s

theorem execStart_keeps (h : EdpHdr) (inst : Install) (s : State) {t : State}
    (h : execStart h inst s = .next t) : Keeps s t := by
  cases h; exact serve_loose loose_keeps _ _ _ (writeWith_loose loose_keeps _ _ _ _ _ (fun _ s => startCommand_keeps _ s)) s

theorem execPause_keeps (h : EdpHdr) (s : State) {t : State}
    (h : execPause h s = .next t) : Keeps s t := by
  cases h; exact codeCommand_keeps _ _ _ _ _ pauseCommand_keeps s

theorem execResume_keeps (h : EdpHdr) (s : State) {t : State}
    (h : execResume h s = .next t) : Keeps s t := by
  cases h; exact codeCommand_keeps _ _ _ _ _ resumeCommand_keeps s

theorem execStop_keeps (h : EdpHdr) (s : State) {t : State}
    (h : execStop h s = .next t) : Keeps s t := by
  cases h; exact codeCommand_keeps _ _ _ _ _ stopCommand_keeps s

theorem execAbortStep_keeps (h : EdpHdr) (s : State) {t : State}
    (h : execAbortStep h s = .next t) : Keeps s t := by
  cases h; exact codeCommand_keeps _ _ _ _ _ abortStepCommand_keeps s

theorem execCheckpointNow_keeps (h : EdpHdr) (s : State) {t : State}
    (h : execCheckpointNow h s = .next t) : Keeps s t := by
  cases h; exact codeCommand_keeps _ _ _ _ _ checkpointCommand_keeps s

theorem execClearLogRing_keeps (h : EdpHdr) (s : State) {t : State}
    (h : execClearLogRing h s = .next t) : Keeps s t := by
  cases h; exact writeCommand_keeps _ _ _ _ _ _ (fun _ s => clearLog_keeps 1 s) s

theorem execClearFaultLog_keeps (h : EdpHdr) (s : State) {t : State}
    (h : execClearFaultLog h s = .next t) : Keeps s t := by
  cases h; exact writeCommand_keeps _ _ _ _ _ _ (fun _ s => clearLog_keeps 2 s) s

theorem execConsume_keeps (h : EdpHdr) (slot seqNo : Nat) (s : State) {t : State}
    (h : execConsume h slot seqNo s = .next t) : Keeps s t := by
  cases h; exact writeCommand_keeps _ _ _ _ _ _ (fun _ s => consumeSlot_keeps _ _ s) s

theorem execSramUncorrectable_keeps (kind : SramKind) (unit : Nat) (r : WordRead) (s : State) {t : State}
    (h : execSramUncorrectable kind unit r s = .next t) : Keeps s t := by
  cases h; exact sramState_keeps _ _ _ _ _

theorem execGddr7Uncorrectable_keeps (channel pa va : Nat) (reader : EccReader) (err : List SymErr) (s : State) {t : State}
    (h : execGddr7Uncorrectable channel pa va reader err s = .next t) : Keeps s t := by
  cases h; exact gddrState_keeps _ _ _ _ _ _

theorem execPatrolScrub_keeps (block : Nat) (r : ScrubRead) (s : State) {t : State}
    (h : execPatrolScrub block r s = .next t) : Keeps s t := by
  cases h; exact scrubState_keeps _ _ _ _

theorem execCoreFenced_keeps (phys : Nat) (s : State) {t : State}
    (h : execCoreFenced phys s = .next t) : Keeps s t := by
  cases h; exact coreFencedState_keeps _ _

theorem execPwrEnRise_keeps (s : State) {t : State}
    (h : execPwrEnRise s = .next t) : Keeps s t := by
  cases h; exact pwrEnRiseState_keeps _

theorem execPwrEnFall_keeps (s : State) {t : State}
    (h : execPwrEnFall s = .next t) : Keeps s t := by
  cases h; exact pwrEnFallState_keeps _

theorem execInterlockOpen_keeps (s : State) {t : State}
    (h : execInterlockOpen s = .next t) : Keeps s t := by
  cases h; exact interlockState_keeps _

theorem execResetNAssert_keeps (s : State) {t : State}
    (h : execResetNAssert s = .next t) : Keeps s t := by
  cases h; exact resetAssertState_keeps _

theorem execResetNRelease_boots (s : State) {t : State}
    (h : execResetNRelease s = .next t) : t.pending = s.pending ∧ t.sec = s.sec ∧ s.log.seq ≤ t.log.seq := by
  cases h; exact resetReleaseState_boots _

theorem execStbyGood_boots (slotId : Nat) (bankAOk bankBOk : Bool) (s : State) {t : State}
    (h : execStbyGood slotId bankAOk bankBOk s = .next t) : t.pending = s.pending ∧ t.sec = s.sec ∧ s.log.seq ≤ t.log.seq := by
  cases h; exact stbyGoodState_boots _ _ _ _

theorem execRailTimeout_keeps (row hearth : Nat) (s : State) {t : State}
    (h : execRailTimeout row hearth s = .next t) : Keeps s t := by
  cases h; exact railTimeoutState_keeps _ _ _

theorem execRailFault_keeps (row : Nat) (s : State) {t : State}
    (h : execRailFault row s = .next t) : Keeps s t := by
  cases h; exact railFaultState_keeps _ _

theorem execInputVoltageFault_keeps (mv : Nat) (s : State) {t : State}
    (h : execInputVoltageFault mv s = .next t) : Keeps s t := by
  unfold execInputVoltageFault at h; grind [Keeps, inputVoltageState_keeps]

theorem execInputLoss_keeps (s : State) {t : State}
    (h : execInputLoss s = .next t) : Keeps s t := by
  cases h; exact inputLossState_keeps _

theorem execOvercurrent_keeps (s : State) {t : State}
    (h : execOvercurrent s = .next t) : Keeps s t := by
  cases h; exact overcurrentState_keeps _

theorem execThermalTrip_keeps (s : State) {t : State}
    (h : execThermalTrip s = .next t) : Keeps s t := by
  cases h; exact thermalTripState_keeps _

theorem execGovernorDecision_keeps (m : Meas) (s : State) {t : State}
    (h : execGovernorDecision m s = .next t) : Keeps s t := by
  cases h; exact governorState_keeps _ _

theorem execGatingHoldLimit_keeps (group : Nat) (s : State) {t : State}
    (h : execGatingHoldLimit group s = .next t) : Keeps s t := by
  cases h; exact gatingLimitState_keeps _ _

theorem execAlertReleaseTimer_keeps (s : State) {t : State}
    (h : execAlertReleaseTimer s = .next t) : Keeps s t := by
  cases h; exact alertTimerState_keeps _

theorem execPlcaBeaconLost_keeps (s : State) {t : State}
    (h : execPlcaBeaconLost s = .next t) : Keeps s t := by
  unfold execPlcaBeaconLost at h; grind [Keeps]

theorem execPlcaBeaconSeen_keeps (s : State) {t : State}
    (h : execPlcaBeaconSeen s = .next t) : Keeps s t := by
  unfold execPlcaBeaconSeen at h; grind [Keeps]

theorem execSleep_keeps (h : EdpHdr) (s : State) {t : State}
    (h : execSleep h s = .next t) : Keeps s t := by
  cases h; exact codeCommand_keeps _ _ _ _ _ sleepCommand_keeps s

theorem execWake_keeps (h : EdpHdr) (s : State) {t : State}
    (h : execWake h s = .next t) : Keeps s t := by
  cases h; exact codeCommand_keeps _ _ _ _ _ wakeCommand_keeps s

theorem execWakePacket_keeps (src : Nat) (s : State) {t : State}
    (h : execWakePacket src s = .next t) : Keeps s t := by
  unfold execWakePacket at h; grind [Keeps, wakeState_keeps]

theorem execStandby_keeps (h : EdpHdr) (s : State) {t : State}
    (h : execStandby h s = .next t) : Keeps s t := by
  cases h; exact codeCommand_keeps _ _ _ _ _ standbyCommand_keeps s

theorem execProof_keeps (h : EdpHdr) (s : State) {t : State}
    (h : execProof h s = .next t) : Keeps s t := by
  cases h; exact codeCommand_keeps _ _ _ _ _ proofCommand_keeps s

theorem execProofing_grows (p : ProofInput) (s : State) {t : State}
    (h : execProofing p s = .next t) : Grows s t := by
  cases h; exact proofingState_grows _ _

theorem execSelfTestQueued_keeps (h : EdpHdr) (target : Nat) (s : State) {t : State}
    (h : execSelfTestQueued h target s = .next t) : Keeps s t := by
  cases h; exact writeCommand_keeps _ _ _ _ _ _ (fun _ s => selfTestCommand_keeps _ _ s) s

theorem execSelfTestImmediate_keeps (h : EdpHdr) (target : Nat) (s : State) {t : State}
    (h : execSelfTestImmediate h target s = .next t) : Keeps s t := by
  cases h; exact writeCommand_keeps _ _ _ _ _ _ (fun _ s => selfTestCommand_keeps _ _ s) s

theorem execBistSlice_keeps (r : BistResult) (s : State) {t : State}
    (h : execBistSlice r s = .next t) : Keeps s t := by
  cases h; exact bistSliceState_keeps _ _

theorem execRootDelivery_keeps (src weight side block slot due source : Nat) (head : RootHead) (tiles : Bytes) (s : State)
    {t : State}
    (h : execRootDelivery src weight side block slot due source head tiles s = .next t) : Keeps s t := by
  cases h; exact rootDeliveryState_keeps _ _ _ _ _ _ _ _ _ _ _ _

theorem execFactorFold_keeps (s : State) {t : State}
    (h : execFactorFold s = .next t) : Keeps s t := by
  cases h; exact factorFoldState_keeps _

theorem execRootProblemAdmission_keeps (prob : Nat) (s : State) {t : State}
    (h : execRootProblemAdmission prob s = .next t) : Keeps s t := by
  cases h; exact admitRoot_keeps _ _

theorem execBorrowedPiece_keeps (prob : Nat) (s : State) {t : State}
    (h : execBorrowedPiece prob s = .next t) : Keeps s t := by
  cases h; exact startPiece_keeps _ _

theorem execBorrowedPieceComplete_keeps (prob : Nat) (s : State) {t : State}
    (h : execBorrowedPieceComplete prob s = .next t) : Keeps s t := by
  cases h; exact endPiece_keeps _ _

theorem execRootProblemDecided_keeps (prob : Nat) (s : State) {t : State}
    (h : execRootProblemDecided prob s = .next t) : Keeps s t := by
  cases h; exact decideRoot_keeps _ _

theorem execRootCommit_keeps (prob : Nat) (s : State) {t : State}
    (h : execRootCommit prob s = .next t) : Keeps s t := by
  cases h; exact commitRoot_keeps _ _

theorem execRootDecisionMessage_keeps (src weight side block : Nat) (att : StepAttempt) (slot : Nat) (outcome : RootOutcome) (s : State) {t : State}
    (h : execRootDecisionMessage src weight side block att slot outcome s = .next t) : Keeps s t := by
  cases h; exact rootMessageState_keeps _ _ _ _ _ _ _ _ _

theorem execRootDeliveryAck_keeps (prob dev : Nat) (s : State) {t : State}
    (h : execRootDeliveryAck prob dev s = .next t) : Keeps s t := by
  cases h; exact rootAck_keeps _ _ _

theorem execCloseSession_keeps (h : EdpHdr) (sid : BitVec 32) (s : State) {t : State}
    (h : execCloseSession h sid s = .next t) : Keeps s t := by
  cases h; exact writeCommand_keeps _ _ _ _ _ _ (fun _ s => Keeps.refl s) s

theorem execClientHello_keeps (h : EdpHdr) (hello : Hello) (s : State) {t : State}
    (h : execClientHello h hello s = .next t) : Keeps s t := by
  cases h; exact serveSized_loose loose_keeps _ _ _ _ (helloAct_keeps _ _) s

theorem execEnrolOwner_grows (h : EdpHdr) (st : Statement) (s : State) {t : State}
    (h : execEnrolOwner h st s = .next t) : Grows s t := by
  cases h; exact statementCommand_grows _ _ _ _

theorem execEnrolClient_grows (h : EdpHdr) (st : Statement) (s : State) {t : State}
    (h : execEnrolClient h st s = .next t) : Grows s t := by
  cases h; exact statementCommand_grows _ _ _ _

theorem execRelease_grows (h : EdpHdr) (st : Statement) (s : State) {t : State}
    (h : execRelease h st s = .next t) : Grows s t := by
  cases h; exact statementCommand_grows _ _ _ _

theorem execLock_grows (h : EdpHdr) (st : Statement) (s : State) {t : State}
    (h : execLock h st s = .next t) : Grows s t := by
  cases h; exact statementCommand_grows _ _ _ _

theorem execRevoke_grows (h : EdpHdr) (st : Statement) (s : State) {t : State}
    (h : execRevoke h st s = .next t) : Grows s t := by
  cases h; exact statementCommand_grows _ _ _ _

theorem execAttestationNonce_keeps (h : EdpHdr) (nonce : Bytes) (s : State) {t : State}
    (h : execAttestationNonce h nonce s = .next t) : Keeps s t := by
  cases h; exact writeCommand_keeps _ _ _ _ _ _ (fun _ s => takeNonce_keeps _ _ s) s

theorem execInterleaveSlotStart_keeps (group : Nat) (s : State) {t : State}
    (h : execInterleaveSlotStart group s = .next t) : Keeps s t := by
  cases h; exact slotStartState_keeps _ _

theorem execWorkItemComplete_keeps (group : Nat) (s : State) {t : State}
    (h : execWorkItemComplete group s = .next t) : Keeps s t := by
  cases h; exact itemCompleteState_keeps _ _

theorem execElectiveAdmission_keeps (point : AdmitPoint) (s : State) {t : State}
    (h : execElectiveAdmission point s = .next t) : Keeps s t := by
  cases h; exact electiveState_keeps _ _

theorem execStepBoundary_keeps (s : State) {t : State}
    (h : execStepBoundary s = .next t) : Keeps s t := by
  cases h; exact boundaryState_keeps _

theorem execPausedCycle_keeps (s : State) {t : State}
    (h : execPausedCycle s = .next t) : Keeps s t := by
  cases h; exact pausedState_keeps _

theorem execEvaluationSegment_keeps (s : State) {t : State}
    (h : execEvaluationSegment s = .next t) : Keeps s t := by
  cases h; exact evalStartState_keeps _

theorem execEvaluationBudgetExpiry_keeps (s : State) {t : State}
    (h : execEvaluationBudgetExpiry s = .next t) : Keeps s t := by
  cases h; exact evalExpiryState_keeps _

theorem execCheckpointWrite_keeps (s : State) {t : State}
    (h : execCheckpointWrite s = .next t) : Keeps s t := by
  cases h; exact ckptWriteState_keeps _

theorem execFlushComplete_keeps (s : State) {t : State}
    (h : execFlushComplete s = .next t) : Keeps s t := by
  cases h; exact flushState_keeps _

theorem execNvmeWriteComplete_keeps (s : State) {t : State}
    (h : execNvmeWriteComplete s = .next t) : Keeps s t := by
  cases h; exact writeCompleteState_keeps _

theorem execCheckpointBudgetExpiry_keeps (s : State) {t : State}
    (h : execCheckpointBudgetExpiry s = .next t) : Keeps s t := by
  cases h; exact ckptExpiryState_keeps _

theorem execBoundaryBudgetExpiry_keeps (s : State) {t : State}
    (h : execBoundaryBudgetExpiry s = .next t) : Keeps s t := by
  cases h; exact budgetExpiryState_keeps _

end Sys2Proof.Machine
end

