-- ==== Sys2Proof/Laws/Memory.lean ====
section
/-! SUPPORT. Byte memories: the canonical form is kept, a read after a write gives what was written, and a write leaves every
other byte alone. -/

namespace Sys2Proof.Machine

/-- A bound below every address of a list. -/
theorem memAbove_mono {x y : Nat} (h : x ≤ y) : ∀ m : Mem, memAbove y m = true → memAbove x m = true := by
  intro m; unfold memAbove
  induction m with
  | nil => simp
  | cons c r ih => simp only [List.all_cons, Bool.and_eq_true, decide_eq_true_eq]; exact fun k => ⟨by omega, ih k.2⟩

/-- Writing above a bound stays above it. -/
theorem memAbove_write {y x : Nat} {v : Byte} (h : y < x) :
    ∀ m : Mem, memAbove y m = true → memAbove y (memWrite m x v) = true := by
  intro m; unfold memAbove
  induction m with
  | nil => intro _; unfold memWrite; split <;> simp [h]
  | cons c r ih =>
    obtain ⟨a, b⟩ := c
    intro k
    simp only [List.all_cons, Bool.and_eq_true, decide_eq_true_eq] at k
    obtain ⟨ka, kr⟩ := k
    unfold memWrite
    split
    · split <;> simp only [List.all_cons, Bool.and_eq_true, decide_eq_true_eq]
      · exact ⟨ka, kr⟩
      · exact ⟨h, ka, kr⟩
    · split
      · split
        · exact kr
        · simp only [List.all_cons, Bool.and_eq_true, decide_eq_true_eq]; exact ⟨h, kr⟩
      · simp only [List.all_cons, Bool.and_eq_true, decide_eq_true_eq]; exact ⟨ka, ih kr⟩

/-- A write keeps the canonical form. -/
theorem memWrite_wf (x : Nat) (v : Byte) : ∀ m : Mem, memWf m = true → memWf (memWrite m x v) = true := by
  intro m
  induction m with
  | nil => intro _; unfold memWrite; split <;> simp_all [memWf, memAbove]
  | cons c r ih =>
    obtain ⟨a, b⟩ := c
    intro k
    simp only [memWf, Bool.and_eq_true, bne_iff_ne, ne_eq] at k
    obtain ⟨⟨hb, ha⟩, hr⟩ := k
    unfold memWrite
    split
    · next hx =>
      split
      · simp [memWf, hb, ha, hr]
      · next hv =>
        have h2 : memAbove x ((a, b) :: r) = true := by
          have := memAbove_mono (Nat.le_of_lt hx) r ha
          simp only [memAbove, List.all_cons, Bool.and_eq_true, decide_eq_true_eq] at this ⊢
          exact ⟨hx, this⟩
        simp [memWf, hv, hb, ha, hr, h2]
    · split
      · next hx =>
        subst hx
        split
        · exact hr
        · next hv => simp [memWf, hv, ha, hr]
      · next h1 h2 =>
        have : a < x := by omega
        simp [memWf, hb, memAbove_write this r ha, ih hr]

/-- Writing bytes keeps the canonical form. -/
theorem memStore_wf (bs : Bytes) : ∀ (m : Mem) (a : Nat), memWf m = true → memWf (memStore m a bs) = true := by
  induction bs with
  | nil => intro m a h; exact h
  | cons b bs ih => intro m a h; exact ih _ _ (memWrite_wf a b m h)

/-- Dropping cells keeps the canonical form. -/
theorem memFilter_wf (p : Host.Cell → Bool) : ∀ m : Mem, memWf m = true → memWf (m.filter p) = true := by
  intro m
  induction m with
  | nil => intro _; rfl
  | cons c r ih =>
    intro k
    simp only [memWf, Bool.and_eq_true] at k
    rw [List.filter_cons]
    split
    · simp only [memWf, Bool.and_eq_true]
      refine ⟨⟨k.1.1, ?_⟩, ih k.2⟩
      have h := k.1.2
      unfold memAbove at h ⊢
      rw [List.all_eq_true] at h ⊢
      exact fun d hd => h d (List.mem_filter.mp hd).1
    · exact ih k.2

/-- Clearing a range keeps the canonical form. -/
theorem memZero_wf (m : Mem) (a n : Nat) (h : memWf m = true) : memWf (memZero m a n) = true := memFilter_wf _ m h

/-- An address below every cell reads as an unlisted one. -/
theorem memRead_above {x : Nat} : ∀ m : Mem, memAbove x m = true → memRead m x = memDefault := by
  intro m
  induction m with
  | nil => intro _; rfl
  | cons c r ih =>
    intro k
    simp only [memAbove, List.all_cons, Bool.and_eq_true, decide_eq_true_eq] at k
    unfold memRead
    rw [if_neg (by omega)]
    exact ih k.2

/-- A read after a write to the same address gives the value written. -/
theorem memRead_write_same (x : Nat) (v : Byte) : ∀ m : Mem, memWf m = true → memRead (memWrite m x v) x = v := by
  intro m
  induction m with
  | nil => intro _; unfold memWrite; split <;> simp_all [memRead]
  | cons c r ih =>
    obtain ⟨a, b⟩ := c
    intro k
    simp only [memWf, Bool.and_eq_true] at k
    unfold memWrite
    split
    · next hx =>
      split
      · next hv =>
        have h := memRead_above r (memAbove_mono (Nat.le_of_lt hx) r k.1.2)
        simp [memRead, hv, h, show ¬a = x by omega]
      · simp [memRead]
    · split
      · next hx =>
        subst hx
        split
        · next hv => rw [hv]; exact memRead_above r k.1.2
        · simp [memRead]
      · simp [memRead, show ¬a = x by omega, ih k.2]

/-- A write leaves every other byte as it was. -/
theorem memRead_write_other {x y : Nat} (v : Byte) (h : y ≠ x) : ∀ m : Mem, memRead (memWrite m x v) y = memRead m y := by
  intro m
  induction m with
  | nil => unfold memWrite; split <;> simp [memRead, Ne.symm h]
  | cons c r ih =>
    obtain ⟨a, b⟩ := c
    unfold memWrite
    split
    · split <;> simp [memRead, Ne.symm h]
    · split
      · next hx =>
        subst hx
        split <;> simp [memRead, Ne.symm h]
      · simp [memRead, ih]

/-- A store leaves every byte outside its range as it was. -/
theorem memRead_store_other {y : Nat} (bs : Bytes) :
    ∀ (m : Mem) (a : Nat), (y < a ∨ a + bs.length ≤ y) → memRead (memStore m a bs) y = memRead m y := by
  induction bs with
  | nil => intro m a _; rfl
  | cons b bs ih =>
    intro m a h
    unfold memStore
    rw [ih _ _ (by simp only [List.length_cons] at h; omega)]
    exact memRead_write_other b (by simp only [List.length_cons] at h; omega) m

/-- A store can be read back. -/
theorem memBytes_store (bs : Bytes) : ∀ (m : Mem) (a : Nat), memWf m = true → memBytes (memStore m a bs) a bs.length = bs := by
  induction bs with
  | nil => intro m a _; rfl
  | cons b bs ih =>
    intro m a h
    have hw := memWrite_wf a b m h
    simp only [memStore, List.length_cons, memBytes]
    rw [memRead_store_other bs _ _ (Or.inl (Nat.lt_succ_self a)), memRead_write_same a b m h, ih _ _ hw]

/-- A cleared byte reads as an unlisted one. -/
theorem memRead_zero_in {y a n : Nat} (h : a ≤ y ∧ y < a + n) : ∀ m : Mem, memRead (memZero m a n) y = memDefault := by
  intro m
  induction m with
  | nil => rfl
  | cons c r ih =>
    unfold memZero at ih ⊢
    rw [List.filter_cons]
    split
    · next hc =>
      simp only [Bool.or_eq_true, decide_eq_true_eq] at hc
      unfold memRead
      rw [if_neg (by omega)]
      exact ih
    · exact ih

/-- Reset's memory is in canonical form. -/
theorem reset_mem_wf : Memory.wf State.reset.mm.mem = true := rfl

end Sys2Proof.Machine
end

