-- ==== Sys2Proof/Laws/Mems.lean ====
section
/-! SUPPORT. Operations that keep every byte memory in canonical form. -/

namespace Sys2Proof.Machine

/-- Memories in canonical form stay so. -/
structure Mems (s t : State) : Prop where
  ok : memsOk s = true → memsOk t = true

theorem Mems.refl (s : State) : Mems s s := ⟨id⟩

theorem Mems.trans {s t u : State} (h : Mems s t) (k : Mems t u) : Mems s u := ⟨fun e => k.ok (h.ok e)⟩

/-- Equal memories. -/
theorem mems_of {s t : State} (h1 : t.mm.mem = s.mm.mem) (h2 : t.eval.inbox = s.eval.inbox) (h3 : t.cores = s.cores) :
    Mems s t := ⟨by unfold memsOk; rw [h1, h2, h3]; exact id⟩

theorem mems_foldl {α : Type} (g : State → α → State) (h : ∀ s a, Mems s (g s a)) (l : List α) (s : State) :
    Mems s (l.foldl g s) := by
  induction l generalizing s with
  | nil => exact Mems.refl s
  | cons a l ih => exact (h s a).trans (ih (g s a))

theorem mems_getD {o : Option State} {s : State} (h : ∀ t, o = some t → Mems s t) : Mems s (o.getD s) := by
  cases o with
  | none => exact Mems.refl s
  | some t => exact h t rfl

theorem mems_foldl_fst {α β : Type} (g : State × β → α → State × β) (h : ∀ x a, Mems x.1 (g x a).1) (l : List α)
    (x : State × β) : Mems x.1 (l.foldl g x).1 := by
  induction l generalizing x with
  | nil => exact Mems.refl x.1
  | cons a l ih => exact (h x a).trans (ih (g x a))

theorem mems_foldl_bind {α : Type} (g : α → State → Option State) (h : ∀ a s t, g a s = some t → Mems s t)
    (l : List α) (s : State) {t : State} (e : l.foldl (fun o a => o.bind (g a)) (some s) = some t) : Mems s t := by
  induction l generalizing s with
  | nil => cases e; exact Mems.refl _
  | cons a l ih =>
    rw [List.foldl_cons, Option.bind_some] at e
    cases hg : g a s with
    | none =>
      rw [hg] at e
      have : ∀ l : List α, l.foldl (fun o a => o.bind (g a)) (none : Option State) = none := by
        intro l; induction l with
        | nil => rfl
        | cons a l ih => exact ih
      rw [this] at e; cases e
    | some u => rw [hg] at e; exact (h a s u hg).trans (ih u e)

/-- A relation of states that `Mems` implies and that composes. -/
structure LooseM (Q : State → State → Prop) : Prop where
  of : ∀ {s t}, Mems s t → Q s t
  trans : ∀ {s t u}, Q s t → Q t u → Q s u

theorem loose_mems : LooseM Mems := ⟨id, Mems.trans⟩

/-- A folded store of bytes keeps the canonical form. -/
theorem mem_foldl_wf {α : Type} (g : Mem → α → Mem) (h : ∀ m a, memWf m = true → memWf (g m a) = true) (l : List α)
    (m : Mem) (hm : memWf m = true) : memWf (l.foldl g m) = true := by
  induction l generalizing m with
  | nil => exact hm
  | cons a l ih => exact ih _ (h m a hm)

/-- Memories of one core of a state in canonical form. -/
theorem core_wf {s : State} (h : memsOk s = true) (n : Nat) :
    memWf (s.core n).tile = true ∧ memWf (s.core n).sideMem = true := by
  unfold memsOk at h
  simp only [Bool.and_eq_true] at h
  have hl := h.2
  unfold State.core
  generalize s.cores = l at hl
  induction l with
  | nil => exact ⟨rfl, rfl⟩
  | cons c r ih =>
    simp only [List.all_cons, Bool.and_eq_true] at hl
    unfold tget
    split
    · exact hl.1
    · exact ih hl.2

theorem core_tile_wf {s : State} (n : Nat) (h : memsOk s = true) : memWf (s.core n).tile = true := (core_wf h n).1
theorem core_side_wf {s : State} (n : Nat) (h : memsOk s = true) : memWf (s.core n).sideMem = true := (core_wf h n).2

theorem tset_all {α : Type} (p : Nat × α → Bool) (i : Nat) (x : α) (hx : ∀ k, p (k, x) = true) :
    ∀ l : List (Nat × α), l.all p = true → (tset l i x).all p = true := by
  intro l
  induction l with
  | nil => intro _; simp [tset, hx]
  | cons c r ih =>
    obtain ⟨k, v⟩ := c
    intro h
    simp only [List.all_cons, Bool.and_eq_true] at h
    unfold tset
    split
    · simp [hx, h]
    · split
      · simp [hx, h.2]
      · simp only [List.all_cons, Bool.and_eq_true]; exact ⟨h.1, ih h.2⟩

theorem setCore_ok {n : Nat} {x : CoreSt} {s : State} (h : memsOk s = true) (a : memWf x.tile = true)
    (b : memWf x.sideMem = true) : memsOk (setCore n x s) = true := by
  unfold memsOk at h ⊢
  unfold setCore
  simp only [Bool.and_eq_true] at h ⊢
  exact ⟨h.1, tset_all _ n x (fun k => by simp [a, b]) s.cores h.2⟩

theorem setCore_mems (n : Nat) (x : CoreSt) (s : State) (h1 : memsOk s = true → memWf x.tile = true)
    (h2 : memsOk s = true → memWf x.sideMem = true) : Mems s (setCore n x s) :=
  ⟨fun h => setCore_ok h (h1 h) (h2 h)⟩

end Sys2Proof.Machine
end

