-- ==== Sys2Proof/Laws/MemsOps.lean ====
section
/-! SUPPORT. Operations of Machine/Ops.lean keep memories in canonical form (Laws/Mems.lean). -/

namespace Sys2Proof.Machine

theorem bump_mems (idx sub n bits : Nat) (s : State) : Mems s (bump idx sub n bits s) := by
  unfold bump; grind [Mems, memsOk]

theorem setCounter_mems (idx sub n : Nat) (s : State) : Mems s (setCounter idx sub n s) := by
  unfold setCounter; grind [Mems, memsOk]

theorem send_mems (t : Tx) (s : State) : Mems s (send t s) := by
  unfold send; grind [Mems, memsOk]

theorem setGroup_mems (g : Nat) (x : GroupSt) (s : State) : Mems s (setGroup g x s) := by
  unfold setGroup; grind [Mems, memsOk]

theorem takeFree_mems (s : State) : Mems s (takeFree s).2 := by
  unfold takeFree; grind [Mems, memsOk]

theorem setSession_mems (x : Session) (s : State) : Mems s (setSession x s) := by
  unfold setSession; grind [Mems, memsOk]

theorem closeSession_mems (sid : BitVec 32) (s : State) : Mems s (closeSession sid s) := by
  unfold closeSession; grind [Mems, memsOk]

theorem closeAll_mems (s : State) : Mems s (closeAll s) := by
  unfold closeAll; grind [Mems, memsOk]

theorem closeKey_mems (key : Bytes) (s : State) : Mems s (closeKey key s) := by
  unfold closeKey; grind [Mems, memsOk, closeSession_mems, mems_foldl]

theorem nextTx_mems (sid : BitVec 32) (s : State) : Mems s (nextTx sid s).2 := by
  unfold nextTx; grind [Mems, memsOk, setSession_mems]

theorem pump_mems (k : Nat) (fuel : Nat) (s : State) : Mems s (pump k fuel s) := by
  induction fuel generalizing s with
  | zero => unfold pump; grind [Mems]
  | succ n ih => unfold pump; grind [Mems, memsOk, send_mems, closeSession_mems, nextTx_mems]

theorem enqueue_mems (k : Nat) (e : Event) (s : State) : Mems s (enqueue k e s) := by
  unfold enqueue; grind [Mems, memsOk, bump_mems, pump_mems]

theorem raiseEvent_mems (e : Event) (s : State) : Mems s (raiseEvent e s) := by
  unfold raiseEvent; grind [Mems, memsOk, enqueue_mems, mems_foldl]

theorem logAdd_mems (code src hearth unit layer : Nat) (detail : List Nat) (s : State) : Mems s (logAdd code src hearth unit layer detail s) := by
  unfold logAdd; grind [Mems, memsOk, raiseEvent_mems]

theorem logPlain_mems (code : Nat) (detail : List Nat) (s : State) : Mems s (logPlain code detail s) := by
  unfold logPlain; grind [Mems, memsOk, logAdd_mems]

theorem setDev_mems (d : DevState) (s : State) : Mems s (setDev d s) := by
  unfold setDev; grind [Mems, memsOk, raiseEvent_mems]

theorem jobRecord_mems (j : JobState) (halt : Nat) (s : State) : Mems s (jobRecord j halt s) := by
  unfold jobRecord; grind [Mems, memsOk]

theorem followJob_mems (old j : JobState) (s : State) : Mems s (followJob old j s) := by
  unfold followJob; grind [Mems, memsOk, setDev_mems]

theorem setJob_mems (j : JobState) (halt : Nat) (s : State) : Mems s (setJob j halt s) := by
  unfold setJob; grind [Mems, memsOk, raiseEvent_mems, jobRecord_mems, followJob_mems]

theorem setVcore_mems (mv : Nat) (s : State) : Mems s (setVcore mv s) := by
  unfold setVcore; grind [Mems, memsOk]

end Sys2Proof.Machine
end

