-- ==== Sys2Proof/Laws/MemsFabric.lean ====
section
/-! SUPPORT. Operations of Machine/Fabric.lean keep memories in canonical form (Laws/Mems.lean). -/

namespace Sys2Proof.Machine

theorem setPort_mems (p : Nat) (x : Port) (s : State) : Mems s (setPort p x s) := by
  unfold setPort; grind [Mems, memsOk]

theorem freeRx_mems (hold : Option Nat) (p : Packet) (s : State) : Mems s (freeRx hold p s) := by
  unfold freeRx; grind [Mems, memsOk, send_mems, setPort_mems]

theorem pumpPort_mems (n : Nat) (fuel : Nat) (s : State) : Mems s (pumpPort n fuel s) := by
  induction fuel generalizing s with
  | zero => unfold pumpPort; grind [Mems]
  | succ fuel ih =>
    unfold pumpPort
    dsimp only
    split
    · exact Mems.refl s
    · exact (((setPort_mems _ _ _).trans (freeRx_mems _ _ _)).trans (send_mems _ _)).trans (ih _)

theorem pumpAll_mems (n : Nat) (s : State) : Mems s (pumpAll n s) := by
  unfold pumpAll; grind [Mems, memsOk, pumpPort_mems]

theorem countDetour_mems (port dst : Nat) (s : State) : Mems s (countDetour port dst s) := by
  unfold countDetour; grind [Mems, memsOk, bump_mems]

theorem routePacket_mems (hold : Option Nat) (p : Packet) (s : State) : Mems s (routePacket hold p s) := by
  unfold routePacket; grind [Mems, memsOk, bump_mems, freeRx_mems, setPort_mems, pumpAll_mems, countDetour_mems]

theorem refill_mems (s : State) : Mems s (refill s) := by
  unfold refill; grind [Mems, memsOk]

theorem pumpInject_mems  (fuel : Nat) (s : State) : Mems s (pumpInject  fuel s) := by
  induction fuel generalizing s with
  | zero => unfold pumpInject; grind [Mems]
  | succ n ih => unfold pumpInject; grind [Mems, memsOk, routePacket_mems]

theorem injectPacket_mems (p : Packet) (s : State) : Mems s (injectPacket p s) := by
  unfold injectPacket; grind [Mems, memsOk, routePacket_mems, refill_mems, pumpInject_mems]

theorem sendControl_mems (dst step attempt : Nat) (t : Tx) (body : Bytes) (s : State) :
    Mems s (sendControl dst step attempt t body s) := by
  unfold sendControl
  exact (send_mems _ _).trans (mems_foldl _ (fun s _ => injectPacket_mems _ s) _ _)

theorem sendWords_mems (dst code : Nat) (ws : List Nat) (s : State) : Mems s (sendWords dst code ws s) := by
  unfold sendWords; exact sendControl_mems ..

theorem announce_mems (p : Nat) (up : Bool) (s : State) : Mems s (announce p up s) := by
  unfold announce; grind [Mems, memsOk, injectPacket_mems, mems_foldl]

theorem announceAll_mems (s : State) : Mems s (announceAll s) := by
  unfold announceAll; grind [Mems, memsOk, announce_mems, mems_foldl]

theorem settleFabric_mems (s : State) : Mems s (settleFabric s) := by
  unfold settleFabric; grind [Mems, memsOk, announceAll_mems, setDev_mems]

theorem announceOne_mems (p : Nat) (up : Bool) (s : State) : Mems s (announceOne p up s) := by
  unfold announceOne; grind [Mems, memsOk, announce_mems]

theorem linkStateState_mems (dev port : Nat) (up : Bool) (s : State) : Mems s (linkStateState dev port up s) := by
  unfold linkStateState; grind [Mems, memsOk]

theorem laneFailureState_mems (p : Nat) (s : State) : Mems s (laneFailureState p s) := by
  unfold laneFailureState; grind [Mems, memsOk, send_mems, setPort_mems]

theorem resend_mems (p : Nat) (l : List LinkWord) (s : State) : Mems s (resend p l s) := by
  unfold resend; grind [Mems, memsOk, send_mems]

theorem retrainUp_mems (p lanes : Nat) (s : State) : Mems s (retrainUp p lanes s) := by
  unfold retrainUp; grind [Mems, memsOk, bump_mems, logAdd_mems, setPort_mems, pumpAll_mems, resend_mems]

theorem replayState_mems (p seqNo : Nat) (s : State) : Mems s (replayState p seqNo s) := by
  unfold replayState; grind [Mems, memsOk, bump_mems, resend_mems]

theorem linkAckState_mems (p seqNo : Nat) (s : State) : Mems s (linkAckState p seqNo s) := by
  unfold linkAckState; grind [Mems, memsOk, setPort_mems, pumpAll_mems]

theorem creditState_mems (p vl cls n : Nat) (s : State) : Mems s (creditState p vl cls n s) := by
  unfold creditState; grind [Mems, memsOk, setPort_mems, pumpAll_mems]

theorem hushState_mems (p : Nat) (s : State) : Mems s (hushState p s) := by
  unfold hushState; grind [Mems, memsOk, setPort_mems]

theorem hushLapseState_mems (p : Nat) (s : State) : Mems s (hushLapseState p s) := by
  unfold hushLapseState; grind [Mems, memsOk, setPort_mems, pumpAll_mems]

theorem overlongState_mems (p : Nat) (s : State) : Mems s (overlongState p s) := by
  unfold overlongState; grind [Mems, memsOk, bump_mems, setPort_mems, pumpAll_mems]

theorem hushAll_mems (us : Nat) (s : State) : Mems s (hushAll us s) := by
  unfold hushAll; grind [Mems, memsOk, send_mems, setPort_mems, mems_foldl]

theorem hushHoldEndState_mems (p : Nat) (s : State) : Mems s (hushHoldEndState p s) := by
  unfold hushHoldEndState; grind [Mems, memsOk, setPort_mems]

theorem hushTick_mems (s : State) : Mems s (hushTick s) := by
  unfold hushTick; grind [Mems, memsOk, send_mems, hushHoldEndState_mems, mems_foldl]

theorem fabTick_mems (s : State) : Mems s (fabTick s) := by
  unfold fabTick; grind [Mems, memsOk, hushTick_mems, refill_mems, pumpInject_mems]

theorem identityExchangeState_mems (p : Nat) (id : Identity) (s : State) : Mems s (identityExchangeState p id s) := by
  unfold identityExchangeState; grind [Mems, memsOk, setPort_mems, settleFabric_mems, announceOne_mems]

theorem applyCoords_mems (s : State) : Mems s (applyCoords s) := by
  unfold applyCoords; grind [Mems, memsOk]

theorem retrainAll_mems (s : State) : Mems s (retrainAll s) := by
  unfold retrainAll; grind [Mems, memsOk, setPort_mems, mems_foldl]

theorem reconfigureState_mems (s : State) : Mems s (reconfigureState s) := by
  unfold reconfigureState; grind [Mems, memsOk, applyCoords_mems, retrainAll_mems]

theorem trainTimeoutState_mems (p : Nat) (s : State) : Mems s (trainTimeoutState p s) := by
  unfold trainTimeoutState; grind [Mems, memsOk, setPort_mems, settleFabric_mems, announceOne_mems]

theorem downRetryState_mems (p : Nat) (ok : Bool) (s : State) : Mems s (downRetryState p ok s) := by
  unfold downRetryState; grind [Mems, memsOk, setPort_mems, announce_mems]

theorem proofFabric_mems (lanes : List Nat) (ids : List (Nat × Identity)) (s : State) : Mems s (proofFabric lanes ids s) := by
  unfold proofFabric; grind [Mems, memsOk, setPort_mems, announce_mems, identityExchangeState_mems, applyCoords_mems, retrainAll_mems, mems_foldl]

theorem fabSleep_mems (s : State) : Mems s (fabSleep s) := by
  unfold fabSleep; grind [Mems, memsOk, setPort_mems, mems_foldl]

theorem fabWake_mems (s : State) : Mems s (fabWake s) := by
  unfold fabWake; grind [Mems, memsOk, setPort_mems, settleFabric_mems, mems_foldl]

end Sys2Proof.Machine
end

