-- ==== Sys2Proof/Laws/MemsPower.lean ====
section
/-! SUPPORT. Operations of Machine/Power.lean keep memories in canonical form (Laws/Mems.lean). -/

namespace Sys2Proof.Machine

theorem refreshAlert_mems (s : State) : Mems s (refreshAlert s) := by
  unfold refreshAlert; grind [Mems, memsOk]

theorem tick_mems (s : State) : Mems s (tick s) := by
  unfold tick; grind [Mems, memsOk, bump_mems, fabTick_mems]

theorem railsDown_mems (s : State) : Mems s (railsDown s) := by
  refine ⟨fun h => ?_⟩
  unfold memsOk at h ⊢
  unfold railsDown
  simp only [Bool.and_eq_true] at h ⊢
  exact ⟨⟨by first | exact h.1.1 | rfl, h.1.2⟩, by first | exact h.2 | rfl⟩

theorem dropJob_mems (s : State) : Mems s (dropJob s) := by
  unfold dropJob
  refine (setJob_mems .idle 0 s).trans ⟨fun h => ?_⟩
  unfold memsOk at h ⊢
  simp only [Bool.and_eq_true] at h ⊢
  exact ⟨⟨h.1.1, rfl⟩, h.2⟩

theorem enterStandby_mems (s : State) : Mems s (enterStandby s) := by
  unfold enterStandby; grind [Mems, memsOk, closeAll_mems, setDev_mems, railsDown_mems, dropJob_mems]

theorem forcedRelease_mems (s : State) : Mems s (forcedRelease s) := by
  unfold forcedRelease; grind [Mems, memsOk, enterStandby_mems]

theorem bootChain_mems (s : State) : Mems s (bootChain s) := by
  unfold bootChain; grind [Mems, memsOk, logPlain_mems, refreshAlert_mems]

theorem stbyGoodState_mems (slotId : Nat) (a b : Bool) (s : State) : Mems s (stbyGoodState slotId a b s) := by
  unfold stbyGoodState; grind [Mems, memsOk, bump_mems, setDev_mems, bootChain_mems]

theorem resetAssertState_mems (s : State) : Mems s (resetAssertState s) := by
  unfold resetAssertState; grind [Mems, memsOk, enterStandby_mems]

theorem resetReleaseState_mems (s : State) : Mems s (resetReleaseState s) := by
  unfold resetReleaseState; grind [Mems, memsOk, bootChain_mems]

theorem inputLossState_mems (s : State) : Mems s (inputLossState s) := by
  unfold inputLossState; grind [Mems, memsOk, enterStandby_mems]

theorem beginProofing_mems (s : State) : Mems s (beginProofing s) := by
  unfold beginProofing; grind [Mems, memsOk, setDev_mems]

theorem pwrEnRiseState_mems (s : State) : Mems s (pwrEnRiseState s) := by
  unfold pwrEnRiseState; grind [Mems, memsOk, beginProofing_mems]

theorem pwrEnFallState_mems (s : State) : Mems s (pwrEnFallState s) := by
  unfold pwrEnFallState; grind [Mems, memsOk, refreshAlert_mems, enterStandby_mems]

theorem interlockState_mems (s : State) : Mems s (interlockState s) := by
  unfold interlockState; grind [Mems, memsOk, forcedRelease_mems]

theorem thermalTripState_mems (s : State) : Mems s (thermalTripState s) := by
  unfold thermalTripState; grind [Mems, memsOk, setVcore_mems, forcedRelease_mems]

theorem railFaultState_mems (row : Nat) (s : State) : Mems s (railFaultState row s) := by
  unfold railFaultState; grind [Mems, memsOk, logPlain_mems, forcedRelease_mems]

theorem proofFail_mems (stage hearth unit : Nat) (s : State) : Mems s (proofFail stage hearth unit s) := by
  unfold proofFail; grind [Mems, memsOk]

theorem railTimeoutState_mems (row hearth : Nat) (s : State) : Mems s (railTimeoutState row hearth s) := by
  unfold railTimeoutState; grind [Mems, memsOk, railsDown_mems, proofFail_mems]

theorem inputVoltageState_mems (mv : Nat) (s : State) : Mems s (inputVoltageState mv s) := by
  unfold inputVoltageState; grind [Mems, memsOk, refreshAlert_mems, forcedRelease_mems, inputLossState_mems]

theorem overcurrentState_mems (s : State) : Mems s (overcurrentState s) := by
  unfold overcurrentState; grind [Mems, memsOk]

theorem alertTimerState_mems (s : State) : Mems s (alertTimerState s) := by
  unfold alertTimerState; grind [Mems, memsOk]

theorem signatureLog_mems (src hearth unit word golden : Nat) (s : State) : Mems s (signatureLog src hearth unit word golden s) := by
  unfold signatureLog; grind [Mems, memsOk, takeFree_mems, logAdd_mems]

theorem bistAll_mems (p : ProofInput) (s : State) : Mems s (bistAll p s) := by
  unfold bistAll; grind [Mems, memsOk, setCounter_mems, logAdd_mems, signatureLog_mems, mems_foldl]

theorem proofFirst_mems (p : ProofInput) (s : State) : Mems s (proofFirst p s).1 := by
  unfold proofFirst
  split
  · exact (railsDown_mems s).trans (proofFail_mems _ _ _ _)
  · dsimp only
    have hb : Mems s (bistAll p (setVcore 600 { s with
        dev := { s.dev with mainUp := true, stage := 2 }, pins := { s.pins with pwrGood := true } })) :=
      Mems.trans (t := { s with
        dev := { s.dev with mainUp := true, stage := 2 }, pins := { s.pins with pwrGood := true } }) ⟨id⟩
        ((setVcore_mems _ _).trans (bistAll_mems p _))
    generalize bistAll p _ = t at hb
    split
    · dsimp only
      split
      · exact (hb.trans (signatureLog_mems _ _ _ _ _ t)).trans (proofFail_mems _ _ _ _)
      · exact hb.trans (proofFail_mems _ _ _ _)
    · split
      · exact hb.trans (proofFail_mems _ _ _ _)
      · split
        · exact hb.trans (proofFail_mems _ _ _ _)
        · refine hb.trans ⟨fun h => ?_⟩
          unfold memsOk at h ⊢
          simp only [Bool.and_eq_true] at h ⊢
          exact ⟨⟨rfl, h.1.2⟩, h.2⟩

theorem endHolds_mems (s : State) : Mems s (endHolds s) := by
  unfold endHolds; grind [Mems, memsOk]

theorem holdLog_mems (hearth : Nat) (s : State) : Mems s (holdLog hearth s) := by
  unfold holdLog; grind [Mems, memsOk, logPlain_mems]

theorem governorState_mems (m : Meas) (s : State) : Mems s (governorState m s) := by
  unfold governorState; grind [Mems, memsOk, refreshAlert_mems, endHolds_mems, mems_foldl]

theorem governorStart_mems (s : State) : Mems s (governorStart s) := by
  unfold governorStart; grind [Mems, memsOk]

theorem governorStop_mems (s : State) : Mems s (governorStop s) := by
  unfold governorStop; grind [Mems, memsOk]

theorem gatingLimitState_mems (g : Nat) (s : State) : Mems s (gatingLimitState g s) := by
  unfold gatingLimitState; grind [Mems, memsOk, setGroup_mems]

end Sys2Proof.Machine
end

