-- ==== Sys2Proof/Laws/MemsVm.lean ====
section
/-! SUPPORT. Operations of Machine/Vm.lean keep memories in canonical form (Laws/Mems.lean). -/

namespace Sys2Proof.Machine

theorem touchLines_mems (lines : List Nat) (dirty streaming : Bool) (s : State) : Mems s (touchLines lines dirty streaming s) :=
  mems_of rfl rfl rfl

theorem touchRange_mems (va n : Nat) (dirty streaming : Bool) (s : State) : Mems s (touchRange va n dirty streaming s) := by
  unfold touchRange; exact touchLines_mems _ _ _ s

theorem atcTouch_mems (hearth vpn : Nat) (s : State) : Mems s (atcTouch hearth vpn s) := by
  unfold atcTouch
  split
  · exact Mems.refl s
  · refine mems_of ?_ rfl rfl
    dsimp only
    split <;> rfl

theorem readTouch_mems (hearth va n : Nat) (s : State) : Mems s (readTouch hearth va n s) := by
  unfold readTouch
  dsimp only
  split
  · exact touchRange_mems _ _ _ _ _
  · exact (touchRange_mems _ _ _ _ _).trans (mems_foldl _ (fun s _ => atcTouch_mems _ _ s) _ _)

theorem vmStore_mems (va : Nat) (bs : Bytes) (s : State) : Mems s (vmStore va bs s) := by
  refine ⟨fun h => ?_⟩
  unfold vmStore memsOk at *
  simp only [Bool.and_eq_true] at h ⊢
  refine ⟨⟨mem_foldl_wf _ (fun m a hm => ?_) _ _ h.1.1, h.1.2⟩, h.2⟩
  split
  · split
    · exact memWrite_wf _ _ m hm
    · exact hm
  · exact hm

theorem vmStoreW_mems (va n : Nat) (s : State) : Mems s (vmStoreW va n s) := by
  unfold vmStoreW; grind [Mems, memsOk, vmStore_mems]

theorem mapPage_mems (r : Region) (vpn : Nat) (s : State) {t : State} (e : mapPage r vpn s = some t) : Mems s t := by
  unfold mapPage at e
  refine ⟨fun h => ?_⟩
  split at e
  · cases e; exact h
  · split at e
    · cases e
    · dsimp only at e
      split at e
      · cases e
        unfold memsOk at h ⊢
        simp only [Bool.and_eq_true] at h ⊢
        exact ⟨⟨memZero_wf _ _ _ h.1.1, h.1.2⟩, h.2⟩
      · cases e
        unfold memsOk at h ⊢
        simp only [Bool.and_eq_true] at h ⊢
        exact ⟨⟨mem_foldl_wf _ (fun m a hm => memWrite_wf _ _ m hm) _ _ (memZero_wf _ _ _ h.1.1), h.1.2⟩, h.2⟩

theorem mapRegion_mems (r : Region) (s : State) {t : State} (h : mapRegion r s = some t) : Mems s t := by
  unfold mapRegion at h
  exact mems_foldl_bind (fun i => mapPage r (r.base / pageSize + i)) (fun _ _ _ h => mapPage_mems _ _ _ h) _ _ h

theorem serveMiss_mems (va : Nat) (write : Bool) (s : State) {t : State} (h : serveMiss va write s = some t) : Mems s t := by
  unfold serveMiss at h; grind [Mems, memsOk, mapPage_mems]

theorem oweMisses_mems (l : List Miss) (s : State) : Mems s (oweMisses l s) := by
  unfold oweMisses; grind [Mems, memsOk]

theorem mapOwed_mems (va : Nat) (s : State) : Mems s (mapOwed va s) := by
  have h : ∀ s (x : Nat × Bool), Mems s ((serveMiss x.1 x.2 s).getD s) := fun s x =>
    mems_getD fun t e => serveMiss_mems _ _ s e
  have := mems_foldl _ h (s.mm.owed.filter fun x => x.1 / pageSize == va / pageSize) s
  unfold mapOwed; grind [Mems, memsOk]

theorem retirePages_mems (s : State) : Mems s (retirePages s) := by
  unfold retirePages; grind [Mems, memsOk]

theorem wantRetire_mems (p : Nat) (s : State) : Mems s (wantRetire p s) := by
  unfold wantRetire; grind [Mems, memsOk]

theorem storeSym_mems (va n : Nat) (m : List (List W32)) (s : State) : Mems s (storeSym va n m s) := by
  unfold storeSym; grind [Mems, memsOk, vmStore_mems, mems_foldl]

end Sys2Proof.Machine
end

