-- ==== Sys2Proof/Laws/MemsRecipe.lean ====
section
/-! SUPPORT. Operations of Machine/Recipe.lean keep memories in canonical form (Laws/Mems.lean). -/

namespace Sys2Proof.Machine

theorem writeLstat_mems (l : Nat) (s : State) : Mems s (writeLstat l s) := by
  unfold writeLstat; grind [Mems, memsOk, vmStore_mems]

end Sys2Proof.Machine
end

