-- ==== Sys2Proof/Laws/MemsLeaven.lean ====
section
/-! SUPPORT. Operations of Machine/Leaven.lean keep memories in canonical form (Laws/Mems.lean). -/

namespace Sys2Proof.Machine

theorem setRootRec_mems (p : Prob) (r : RootRec) (s : State) : Mems s (setRootRec p r s) := by
  unfold setRootRec; grind [Mems, memsOk, vmStore_mems]

theorem setRun_mems (i : Nat) (x : ProbSt) (s : State) : Mems s (setRun i x s) := by
  unfold setRun; grind [Mems, memsOk]

theorem rootMissed_mems (i : Nat) (p : Prob) (step due : Nat) (s : State) : Mems s (rootMissed i p step due s) := by
  unfold rootMissed; grind [Mems, memsOk, logAdd_mems, setRootRec_mems, setRun_mems]

theorem sendDecision_mems (p : Prob) (step slot : Nat) (o : RootOutcome) (s : State) : Mems s (sendDecision p step slot o s) := by
  unfold sendDecision; exact mems_foldl _ (fun s _ => sendWords_mems _ _ _ s) _ _

theorem nextSource_mems (i : Nat) (p : Prob) (now : Nat) (s : State) : Mems s (nextSource i p now s) := by
  unfold nextSource; grind [Mems, memsOk, setRootRec_mems, setRun_mems]

theorem abandonRoot_mems (n : Nat) (i : Nat) (p : Prob) (due : Nat) (s : State) : Mems s (abandonRoot n i p due s) := by
  unfold abandonRoot; grind [Mems, memsOk, setRun_mems, rootMissed_mems, sendDecision_mems]

theorem abandonStale_mems (n : Nat) (i : Nat) (p : Prob) (s : State) : Mems s (abandonStale n i p s) := by
  unfold abandonStale; grind [Mems, memsOk, setRootRec_mems, setRun_mems, abandonRoot_mems, nextSource_mems]

theorem readFold_mems (s : State) (p : Prob) : Mems s (readFold s p) :=
  mems_foldl _ (fun s _ => readTouch_mems _ _ _ s) _ _

theorem foldStale_mems (n : Nat) (s : State) (x : Prob × Nat) : Mems s (foldStale n s x) := by
  unfold foldStale
  split
  · exact abandonStale_mems _ _ _ _
  · exact Mems.refl s

theorem foldInto_mems (n : Nat) (s : State) (x : Prob × Nat) : Mems s (foldInto n s x) := by
  unfold foldInto
  dsimp only
  split
  · exact (storeSym_mems _ _ _ _).trans (vmStore_mems _ _ _)
  · exact Mems.refl s

theorem setFolded_mems (s : State) : Mems s (setFolded s) := mems_of rfl rfl rfl

theorem factorFoldState_mems (s : State) : Mems s (factorFoldState s) := by
  unfold factorFoldState
  dsimp only
  split
  · exact Mems.refl s
  · split
    · exact Mems.refl s
    · exact (((mems_foldl _ readFold_mems _ _).trans (mems_foldl _ (foldStale_mems _) _ _)).trans
        (mems_foldl _ (foldInto_mems _) _ _)).trans (setFolded_mems _)

theorem workCopy_mems (p : Prob) (a : LMat) (s : State) : Mems s (workCopy p a s) := by
  unfold workCopy; grind [Mems, memsOk, vmStore_mems, storeSym_mems, mems_foldl]

theorem loadProblem_mems (i : Nat) (p : Prob) (s : State) : Mems s (loadProblem i p s) := by
  unfold loadProblem; grind [Mems, memsOk, workCopy_mems, readTouch_mems, mems_foldl, logAdd_mems, setRun_mems]

theorem addElective_mems (mw : Nat) (s : State) : Mems s (addElective mw s) := by
  unfold addElective; grind [Mems, memsOk]

theorem subElective_mems (mw : Nat) (s : State) : Mems s (subElective mw s) := by
  unfold subElective; grind [Mems, memsOk]

theorem admitRoot_mems (i : Nat) (s : State) : Mems s (admitRoot i s) := by
  unfold admitRoot; grind [Mems, memsOk, setRun_mems, loadProblem_mems, addElective_mems]

theorem cutPieces_mems (hit : Nat → Bool) (s : State) : Mems s (cutPieces hit s) := by
  unfold cutPieces; grind [Mems, memsOk, setRun_mems, subElective_mems, mems_foldl]

theorem decideRoot_mems (i : Nat) (s : State) : Mems s (decideRoot i s) := by
  unfold decideRoot; grind [Mems, memsOk, logAdd_mems, setRootRec_mems, setRun_mems, subElective_mems, nextSource_mems]

theorem commitRoot_mems (i : Nat) (s : State) : Mems s (commitRoot i s) := by
  unfold commitRoot; grind [Mems, memsOk, injectPacket_mems, vmStore_mems, storeSym_mems, setRootRec_mems, setRun_mems, mems_foldl]

theorem rootAck_mems (i dev : Nat) (s : State) : Mems s (rootAck i dev s) := by
  unfold rootAck; grind [Mems, memsOk, setRun_mems]

theorem rootDelivered_mems (src weight side block slot due source kind esc : Nat) (header tiles : Bytes) (s : State) :
    Mems s (rootDelivered src weight side block slot due source kind esc header tiles s) := by
  unfold rootDelivered; grind [Mems, memsOk, sendWords_mems, vmStore_mems, setRootRec_mems, setRun_mems]

theorem latchRoot_mems (i : Nat) (p : Prob) (n slot kind : Nat) (s : State) : Mems s (latchRoot i p n slot kind s) := by
  unfold latchRoot; grind [Mems, memsOk, setRootRec_mems, setRun_mems]

theorem ownDecision_mems (n : Nat) (s : State) (pi : Prob × Nat) : Mems s (ownDecision n s pi) := by
  unfold ownDecision; grind [Mems, memsOk, rootMissed_mems, sendDecision_mems, latchRoot_mems]

theorem latchLayer_mems (layer n : Nat) (s : State) : Mems s (latchLayer layer n s) := by
  unfold latchLayer; grind [Mems, memsOk, ownDecision_mems, mems_foldl]

theorem rootDecisionState_mems (src weight side block step slot : Nat) (o : RootOutcome) (s : State) : Mems s (rootDecisionState src weight side block step slot o s) := by
  unfold rootDecisionState; grind [Mems, memsOk, latchRoot_mems, setRun_mems]

theorem setStarter_mems (p : Prob) (slot : Nat) (s : State) : Mems s (setStarter p slot s) := by
  unfold setStarter; grind [Mems, memsOk]

theorem reportEnded_mems (n i : Nat) (s : State) : Mems s (reportEnded n i s) := by
  unfold reportEnded; grind [Mems, memsOk, setRun_mems]

theorem takeNote_mems (i : Nat) (p : Prob) (s : State) : Mems s (takeNote i p s) := by
  unfold takeNote; grind [Mems, memsOk, setRun_mems, latchRoot_mems]

theorem applyDecision_mems (n i : Nat) (p : Prob) (s : State) : Mems s (applyDecision n i p s) := by
  unfold applyDecision; grind [Mems, memsOk, setRun_mems, setRootRec_mems, nextSource_mems, setStarter_mems]

theorem applyLatch_mems (n : Nat) (acc : State × Bool) (pi : Prob × Nat) : Mems acc.1 (applyLatch n acc pi).1 := by
  unfold applyLatch; grind [Mems, memsOk, setRootRec_mems, reportEnded_mems, takeNote_mems, applyDecision_mems]

theorem newSource_mems (n : Nat) (s : State) (pi : Prob × Nat) : Mems s (newSource n s pi) := by
  unfold newSource; grind [Mems, memsOk, setRootRec_mems, setRun_mems]

theorem commitRoots_mems (n : Nat) (s : State) : Mems s (commitRoots n s).1 := by
  have h := mems_foldl_fst (applyLatch n) (applyLatch_mems n) s.probIdx (s, false)
  unfold commitRoots; grind [Mems, memsOk, newSource_mems, mems_foldl]

theorem rebuildStarters_mems (s : State) : Mems s (rebuildStarters s) := by
  unfold rebuildStarters; grind [Mems, memsOk, setStarter_mems, mems_foldl]

theorem resumeRoots_mems (s : State) : Mems s (resumeRoots s) := by
  unfold resumeRoots; grind [Mems, memsOk, setRun_mems, mems_foldl]

end Sys2Proof.Machine
end

