-- ==== Sys2Proof/Laws/MemsColl.lean ====
section
/-! SUPPORT. Operations of Machine/Coll.lean keep memories in canonical form (Laws/Mems.lean). -/

namespace Sys2Proof.Machine

theorem sendBucket_mems (c : Coll) (rank bucket : Nat) (bs : Bytes) (st : List NStatus) (s : State) : Mems s (sendBucket c rank bucket bs st s) := by
  unfold sendBucket; grind [Mems, memsOk, injectPacket_mems, mems_foldl]

theorem sendCount_mems (c : Coll) (rank seg n : Nat) (s : State) : Mems s (sendCount c rank seg n s) := by
  unfold sendCount; grind [Mems, memsOk, injectPacket_mems]

theorem setCollRun_mems (id : Nat) (r : CollRun) (s : State) : Mems s (setCollRun id r s) := by
  unfold setCollRun; grind [Mems, memsOk]

theorem writeDst_mems (c : Coll) (m off : Nat) (bs : Bytes) (s : State) : Mems s (writeDst c m off bs s) := by
  unfold writeDst; grind [Mems, memsOk, vmStore_mems, setCore_ok, core_tile_wf, core_side_wf, memStore_wf]

theorem duty_mems (c : Coll) (k : Nat) (left : List Arrival → List Arrival) (s : State) : Mems s (duty c k left s) := by
  unfold duty; exact setCollRun_mems _ _ _

theorem kneaderRead_mems (c : Coll) (va n : Nat) (k : Bytes → State → State) (s : State)
    (h : ∀ bs s, Mems s (k bs s)) : Mems s (kneaderRead c va n k s) := by
  unfold kneaderRead
  split
  · exact (readTouch_mems _ _ _ s).trans (h _ _)
  · exact Mems.refl s

theorem reduceBucket_mems (c : Coll) (m b seg off len : Nat) (s : State) : Mems s (reduceBucket c m b seg off len s) := by
  unfold reduceBucket
  dsimp only
  split
  · exact Mems.refl s
  · refine kneaderRead_mems _ _ _ _ _ fun bs s => ?_
    split
    · exact ((duty_mems _ _ _ _).trans (writeDst_mems _ _ _ _ _)).trans (setCollRun_mems _ _ _)
    · exact (duty_mems _ _ _ _).trans (sendBucket_mems _ _ _ _ _ _)

theorem spreadOn_mems (c : Coll) (m b seg off len : Nat) (bs : Bytes) (s : State) :
    Mems s (spreadOn c m b seg off len bs s) := by
  unfold spreadOn
  exact ((writeDst_mems _ _ _ _ _).trans (mems_foldl _ (fun s _ => sendBucket_mems _ _ _ _ _ s) _ _)).trans
    (duty_mems _ _ _ _)

theorem spreadBucket_mems (c : Coll) (m b seg off len : Nat) (s : State) : Mems s (spreadBucket c m b seg off len s) := by
  unfold spreadBucket
  split
  · exact Mems.refl s
  · split
    · exact kneaderRead_mems _ _ _ _ _ fun bs s => spreadOn_mems _ _ _ _ _ _ _ _
    · split
      · exact Mems.refl s
      · exact spreadOn_mems _ _ _ _ _ _ _ _

theorem grantBuckets_mems (c : Coll) (n : Nat) (s : State) : Mems s (grantBuckets c n s) := by
  unfold grantBuckets; grind [Mems, memsOk, injectPacket_mems, setCollRun_mems]

theorem p2pBucket_mems (c : Coll) (m b off len : Nat) (s : State) : Mems s (p2pBucket c m b off len s) := by
  unfold p2pBucket
  dsimp only
  split
  · split
    · exact Mems.refl s
    · exact kneaderRead_mems _ _ _ _ _ fun bs s =>
        ((setCollRun_mems _ _ _).trans (sendBucket_mems _ _ _ _ _ _)).trans (duty_mems _ _ _ _)
  · split
    · exact Mems.refl s
    · split
      · exact Mems.refl s
      · split
        · exact ((writeDst_mems _ _ _ _ _).trans (duty_mems _ _ _ _)).trans (grantBuckets_mems _ _ _)
        · exact (writeDst_mems _ _ _ _ _).trans (duty_mems _ _ _ _)

theorem a2aSend_mems (c : Coll) (m j : Nat) (s : State) : Mems s (a2aSend c m j s) := by
  unfold a2aSend
  exact ((readTouch_mems _ _ _ _).trans (sendCount_mems _ _ _ _ _)).trans
    (mems_foldl _ (fun s _ => sendBucket_mems _ _ _ _ _ s) _ _)

theorem a2aWrite_mems (c : Coll) (m i : Nat) (bs : Bytes) (s : State) : Mems s (a2aWrite c m i bs s) := by
  unfold a2aWrite; exact (writeDst_mems _ _ _ _ _).trans (writeDst_mems _ _ _ _ _)

theorem a2aDuty_mems (c : Coll) (m i : Nat) (s : State) : Mems s (a2aDuty c m i s) := by
  unfold a2aDuty
  split
  · exact Mems.refl s
  · split
    · exact kneaderRead_mems _ _ _ _ _ fun bs s => (a2aWrite_mems _ _ _ _ _).trans (duty_mems _ _ _ _)
    · split
      · exact (a2aWrite_mems _ _ _ _ _).trans (duty_mems _ _ _ _)
      · exact Mems.refl s

theorem countBucket_mems (c : Coll) (m seg : Nat) (s : State) : Mems s (countBucket c m seg s) := by
  unfold countBucket
  dsimp only
  split
  · exact Mems.refl s
  · refine kneaderRead_mems _ _ _ _ _ fun bs s => ?_
    split
    · exact (duty_mems _ _ _ _).trans (writeDst_mems _ _ _ _ _)
    · exact (duty_mems _ _ _ _).trans (sendCount_mems _ _ _ _ _)

theorem pumpColl_mems (c : Coll) (s : State) : Mems s (pumpColl c s) := by
  unfold pumpColl
  split
  · exact Mems.refl s
  · dsimp only
    split
    · refine mems_foldl _ (fun s i => ?_) _ s
      split
      · exact a2aDuty_mems _ _ _ s
      · exact Mems.refl s
    · have h (m : Nat) : Mems s (((c.buckets s.cont.collSec).zipIdx).foldl (fun s (x, b) =>
          if !(!(s.collRun c.id).doneBuckets.contains b) then s else
          let (seg, off, len) := x
          match c.op with
          | 0 => reduceBucket c m b seg off len s
          | 1 | 2 => spreadBucket c m b seg off len s
          | _ => p2pBucket c m b off len s) s) := by
        refine mems_foldl _ (fun s i => ?_) _ s
        obtain ⟨⟨seg, off, len⟩, k⟩ := i
        dsimp only
        split
        · exact Mems.refl s
        · split
          · exact reduceBucket_mems _ _ _ _ _ _ s
          · exact spreadBucket_mems _ _ _ _ _ _ s
          · exact spreadBucket_mems _ _ _ _ _ _ s
          · exact p2pBucket_mems _ _ _ _ _ s
      split
      · refine (h _).trans (mems_foldl _ (fun s i => ?_) _ _)
        split
        · exact countBucket_mems _ _ _ s
        · exact Mems.refl s
      · exact h _

theorem pumpColls_mems (s : State) : Mems s (pumpColls s) := by
  unfold pumpColls; grind [Mems, memsOk, pumpColl_mems, mems_foldl]

theorem beginColl_mems (c : Coll) (m : Nat) (s : State) : Mems s (beginColl c m s) := by
  unfold beginColl; grind [Mems, memsOk, grantBuckets_mems, setCollRun_mems, a2aSend_mems, pumpColl_mems, mems_foldl]

theorem collectiveCompleteState_mems (id : Nat) (s : State) : Mems s (collectiveCompleteState id s) := by
  unfold collectiveCompleteState; grind [Mems, memsOk, setCollRun_mems]

theorem bucketCredit_mems (p : Packet) (s : State) : Mems s (bucketCredit p s) := by
  unfold bucketCredit; grind [Mems, memsOk, setCollRun_mems, pumpColl_mems]

theorem takePacket_mems (p : Packet) (s : State) : Mems s (takePacket p s) := by
  unfold takePacket; grind [Mems, memsOk, setCollRun_mems, pumpColl_mems]

end Sys2Proof.Machine
end

