-- ==== Sys2Proof/Laws/MemsCommit.lean ====
section
/-! SUPPORT. Operations of Machine/Commit.lean keep memories in canonical form (Laws/Mems.lean). -/

namespace Sys2Proof.Machine

theorem sendCommit_mems (dst kind : Nat) (m : CommitMsg) (s : State) : Mems s (sendCommit dst kind m s) := by
  unfold sendCommit; exact sendControl_mems _ _ _ _ _ _

theorem sendMembers_mems (kind : Nat) (m : CommitMsg) (s : State) : Mems s (sendMembers kind m s) := by
  unfold sendMembers; exact mems_foldl _ (fun s _ => sendCommit_mems _ _ _ s) _ _

theorem logMisses_mems (g : Nat) (outcome : Nat) (s : State) : Mems s (logMisses g outcome s) := by
  unfold logMisses; grind [Mems, memsOk, logAdd_mems, mems_foldl]

theorem clearAttempt_mems (s : State) : Mems s (clearAttempt s) := by
  refine ⟨fun h => ?_⟩
  unfold memsOk at h ⊢
  unfold clearAttempt CoreSt.idle
  simp only [Bool.and_eq_true] at h ⊢
  refine ⟨⟨h.1.1, h.1.2⟩, ?_⟩
  rw [List.all_map]
  exact h.2

theorem deliverEarly_mems (s : State) : Mems s (deliverEarly s) := by
  unfold deliverEarly; grind [Mems, memsOk, takePacket_mems, mems_foldl]

theorem startAttempt_mems (s : State) : Mems s (startAttempt s) := by
  unfold startAttempt; grind [Mems, memsOk, deliverEarly_mems, mems_foldl]

theorem endEval_mems (s : State) : Mems s (endEval s) := by
  unfold endEval; grind [Mems, memsOk]

theorem haltNow_mems (code : Nat) (s : State) : Mems s (haltNow code s) := by
  unfold haltNow; grind [Mems, memsOk, bump_mems, setJob_mems, hushAll_mems, governorStop_mems, retirePages_mems, cutPieces_mems, sendMembers_mems, clearAttempt_mems, endEval_mems]

theorem halt_mems (code : Nat) (s : State) : Mems s (halt code s) := by
  unfold halt; grind [Mems, memsOk, haltNow_mems]

theorem answerQuery_mems (dev step attempt : Nat) (commit : Bool) (s : State) : Mems s (answerQuery dev step attempt commit s) := by
  unfold answerQuery; grind [Mems, memsOk, sendCommit_mems]

theorem answerHeld_mems (commit : Bool) (s : State) : Mems s (answerHeld commit s) := by
  have h : Mems s { s with coll := { s.coll with queries := [] } } := by grind [Mems, memsOk]
  unfold answerHeld; exact h.trans (mems_foldl _ (fun s _ => answerQuery_mems _ _ _ _ s) _ _)

theorem endAttempt_mems (cause origin : Nat) (extra : List Nat) (w : Where) (s : State) : Mems s (endAttempt cause origin extra w s) := by
  unfold endAttempt; grind [Mems, memsOk, answerHeld_mems, bump_mems, logAdd_mems, hushAll_mems, cutPieces_mems, logMisses_mems, clearAttempt_mems, mems_foldl]

theorem discardAttempt_mems (cause origin : Nat) (extra : List Nat) (s : State) (w : Where := Where.plain) : Mems s (discardAttempt cause origin extra s w) := by
  unfold discardAttempt; grind [Mems, memsOk, logPlain_mems, setJob_mems, startAttempt_mems, haltNow_mems, endAttempt_mems]

theorem abortOwn_mems (cause : Nat) (extra : List Nat) (s : State) (w : Where := Where.plain) : Mems s (abortOwn cause extra s w) := by
  unfold abortOwn; grind [Mems, memsOk, logAdd_mems, sendCommit_mems, sendMembers_mems, discardAttempt_mems]

theorem abortIgnored_mems (s : State) : Mems s (abortIgnored s) := by
  unfold abortIgnored; grind [Mems, memsOk, logPlain_mems]

theorem commitStep_mems (s : State) : Mems s (commitStep s) := by
  unfold commitStep; grind [Mems, memsOk, setJob_mems, commitRoots_mems, abortIgnored_mems]

theorem takeCommit_mems (s : State) : Mems s (takeCommit s) := by
  unfold takeCommit; grind [Mems, memsOk, sendCommit_mems, commitStep_mems, mems_foldl]

theorem pumpCommit_mems (s : State) : Mems s (pumpCommit s) := by
  unfold pumpCommit; grind [Mems, memsOk, sendCommit_mems, takeCommit_mems, answerHeld_mems]

theorem phaseOneState_mems (s : State) : Mems s (phaseOneState s) := by
  unfold phaseOneState; grind [Mems, memsOk, pumpCommit_mems]

theorem catchUp_mems (attempt cause origin : Nat) (fuel : Nat) (s : State) : Mems s (catchUp attempt cause origin fuel s) := by
  induction fuel generalizing s with
  | zero => unfold catchUp; grind [Mems]
  | succ n ih => unfold catchUp; grind [Mems, memsOk, discardAttempt_mems]

theorem higherState_mems (m : CommitMsg) (isAbort : Bool) (data : Option Packet) (s : State) : Mems s (higherState m isAbort data s) := by
  unfold higherState; grind [Mems, memsOk, catchUp_mems]

theorem level_mems (m : CommitMsg) (isAbort : Bool) (s : State) : Mems s (level m isAbort s) := by
  unfold level; grind [Mems, memsOk, higherState_mems]

theorem prepareState_mems (m : CommitMsg) (s : State) : Mems s (prepareState m s) := by
  unfold prepareState; grind [Mems, memsOk, pumpCommit_mems, level_mems]

theorem commitState_mems (m : CommitMsg) (s : State) : Mems s (commitState m s) := by
  unfold commitState; grind [Mems, memsOk, takeCommit_mems, level_mems]

theorem abortState_mems (m : CommitMsg) (s : State) : Mems s (abortState m s) := by
  unfold abortState; grind [Mems, memsOk, discardAttempt_mems, level_mems]

theorem abortReqState_mems (m : CommitMsg) (s : State) : Mems s (abortReqState m s) := by
  unfold abortReqState; grind [Mems, memsOk, sendMembers_mems, discardAttempt_mems, answerQuery_mems, level_mems, mems_foldl]

theorem queryState_mems (m : CommitMsg) (s : State) : Mems s (queryState m s) := by
  unfold queryState; grind [Mems, memsOk, answerQuery_mems, level_mems]

theorem decisionState_mems (m : CommitMsg) (s : State) : Mems s (decisionState m s) := by
  unfold decisionState; grind [Mems, memsOk, level_mems, discardAttempt_mems, takeCommit_mems]

theorem haltState_mems (m : CommitMsg) (s : State) : Mems s (haltState m s) := by
  unfold haltState; grind [Mems, memsOk, halt_mems]

theorem partnerSilentState_mems (w : WaitKind) (partner item detail : Nat) (s : State) : Mems s (partnerSilentState w partner item detail s) := by
  unfold partnerSilentState; grind [Mems, memsOk, logPlain_mems, abortOwn_mems]

theorem outcomeSilenceState_mems (s : State) : Mems s (outcomeSilenceState s) := by
  unfold outcomeSilenceState; grind [Mems, memsOk, sendCommit_mems, logPlain_mems, halt_mems]

theorem keepMsg_mems (kind : Nat) (m : CommitMsg) (s : State) : Mems s (keepMsg kind m s) := by
  unfold keepMsg; grind [Mems, memsOk]

theorem takeHeld_mems (s : State) : Mems s (takeHeld s) := by
  unfold takeHeld; grind [Mems, memsOk, prepareState_mems, abortState_mems, abortReqState_mems, queryState_mems, mems_foldl]

theorem catchUpEarly_mems (s : State) : Mems s (catchUpEarly s) := by
  unfold catchUpEarly; grind [Mems, memsOk, catchUp_mems, mems_foldl]

theorem startStep_mems (s : State) : Mems s (startStep s) := by
  unfold startStep; grind [Mems, memsOk, clearAttempt_mems, startAttempt_mems, takeHeld_mems, catchUpEarly_mems]

theorem releaseAll_mems (s : State) : Mems s (releaseAll s) := by
  unfold releaseAll; grind [Mems, memsOk, sendWords_mems, mems_foldl]

theorem digestState_mems (sender : Nat) (d : W64) (s : State) : Mems s (digestState sender d s) := by
  unfold digestState; grind [Mems, memsOk, sendWords_mems, sendMembers_mems, halt_mems, releaseAll_mems]

end Sys2Proof.Machine
end

