-- ==== Sys2Proof/Laws/MemsCoreData.lean ====
section
/-! SUPPORT. Operations of Machine/CoreData.lean keep memories in canonical form (Laws/Mems.lean). -/

namespace Sys2Proof.Machine

theorem applyWrite_wf (m : Mem) (w : EWrite) (h : memWf m = true) : memWf (applyWrite m w) = true := by
  unfold applyWrite
  split
  · exact memStore_wf _ _ _ h
  · exact memWrite_wf _ _ _ h
  · exact memWrite_wf _ _ _ h

theorem refill_tile_wf (c : CoreSt) (ctx : Nat) (h : memWf c.tile = true) : memWf (c.refill ctx).tile = true := by
  unfold CoreSt.refill
  split
  · exact h
  · exact mem_foldl_wf _ (fun m x hm => mem_foldl_wf _ (fun m w hm => applyWrite_wf m w hm) _ _ hm) _ _ h

theorem refill_sideMem (c : CoreSt) (ctx : Nat) : (c.refill ctx).sideMem = c.sideMem := by
  unfold CoreSt.refill; split <;> rfl

theorem produce_mems (core ctx : Nat) (elems : List (Nat × Nat)) (s : State) : Mems s (produce core ctx elems s) := by
  unfold produce
  split
  · exact Mems.refl s
  · dsimp only
    split
    · exact setCore_mems _ _ s (fun h => mem_foldl_wf _ (fun m a hm => applyWrite_wf _ _ hm) _ _ (core_tile_wf _ h))
        (core_side_wf _)
    · exact setCore_mems _ _ s (fun h => refill_tile_wf _ _ (core_tile_wf core h))
        (fun h => by rw [refill_sideMem]; exact core_side_wf core h)

theorem writeMain_mems (s : State) (w : EWrite) : Mems s (writeMain s w) := by
  unfold writeMain
  split
  · exact vmStore_mems _ _ s
  · exact vmStore_mems _ _ s

theorem setCore_upd_mems (n id : Nat) (f : Inflight → Inflight) (s : State) :
    Mems s (setCore n ((s.core n).updInst id f) s) :=
  setCore_mems _ _ s (core_tile_wf n) (core_side_wf n)

theorem putMatrix_mems (core : Nat) (i : Inflight) (d : MatDesc) (o : MatOut) (s : State) :
    Mems s (putMatrix core i d o s) := by
  unfold putMatrix
  dsimp only
  refine Mems.trans ?_ (setCore_upd_mems _ _ _ _)
  split
  · exact produce_mems _ _ _ s
  · split
    · exact (produce_mems _ _ _ s).trans (setCore_upd_mems _ _ _ _)
    · exact (produce_mems _ _ _ s).trans (produce_mems _ _ _ _)

theorem putConv_mems (core : Nat) (i : Inflight) (ctx path role : Nat) (o : ConvOut) (s : State) :
    Mems s (putConv core i ctx path role o s) := by
  unfold putConv
  dsimp only
  split
  · exact produce_mems _ _ _ s
  · split
    · exact (produce_mems _ _ _ s).trans (setCore_upd_mems _ _ _ _)
    · exact (produce_mems _ _ _ s).trans (produce_mems _ _ _ _)

end Sys2Proof.Machine
end

