-- ==== Sys2Proof/Laws/MemsIngest.lean ====
section
/-! SUPPORT. Operations of Machine/Ingest.lean keep memories in canonical form (Laws/Mems.lean). -/

namespace Sys2Proof.Machine

theorem takePort_mems (s : State) : Mems s (takePort s).2 := by
  unfold takePort; grind [Mems, memsOk]

theorem issueRead_mems (base pos limit : Nat) (s : State) : Mems s (issueRead base pos limit s) := by
  unfold issueRead; grind [Mems, memsOk, send_mems, takePort_mems]

theorem readAhead_mems (fuel : Nat) (s : State) : Mems s (readAhead fuel s) := by
  induction fuel generalizing s with
  | zero => exact Mems.refl s
  | succ n ih =>
    unfold readAhead
    split
    · exact Mems.refl s
    · split
      · exact Mems.refl s
      · exact (issueRead_mems _ _ _ _).trans (ih _)

theorem trimBytes_mems (s : State) : Mems s (trimBytes s) := by
  unfold trimBytes; grind [Mems, memsOk]

theorem onOpen_mems (f : MbHdr → MbHdr) (s : State) : Mems s (onOpen f s) := by
  unfold onOpen; grind [Mems, memsOk]

theorem closeMb_mems (s : State) : Mems s (closeMb s) := by
  unfold closeMb; grind [Mems, memsOk, onOpen_mems]

theorem moveTo_mems (c : Cursor) (s : State) : Mems s (moveTo c s) := by
  unfold moveTo; grind [Mems, memsOk]

theorem usable_mems (s : State) : Mems s (usable s) := by
  unfold usable; grind [Mems, memsOk]

theorem packIdle_mems (s : State) : Mems s (packIdle s) := by
  unfold packIdle; grind [Mems, memsOk, logAdd_mems]

theorem appendSample_mems (l : Nat) (tokens : Bytes) (s : State) : Mems s (appendSample l tokens s) := by
  unfold appendSample; grind [Mems, memsOk, onOpen_mems]

theorem overLong_mems (c : Cursor) (l : Nat) (s : State) : Mems s (overLong c l s) := by
  unfold overLong; grind [Mems, memsOk, bump_mems, onOpen_mems, usable_mems]

theorem takeRecord_mems (l len : Nat) (s : State) {t : State} (h : takeRecord l len s = some t) : Mems s t := by
  unfold takeRecord at h; grind [Mems, memsOk, closeMb_mems, moveTo_mems, usable_mems, appendSample_mems, overLong_mems]

theorem packOne_mems (s : State) {t : State} (h : packOne s = some t) : Mems s t := by
  unfold packOne at h; grind [Mems, memsOk, bump_mems, moveTo_mems, packIdle_mems, takeRecord_mems]

theorem packAll_mems (fuel : Nat) (s : State) : Mems s (packAll fuel s) := by
  induction fuel generalizing s with
  | zero => exact Mems.refl s
  | succ n ih =>
    unfold packAll
    split
    · exact Mems.refl s
    · exact (packOne_mems s (by assumption)).trans (ih _)

theorem sendNotice_mems (s : State) : Mems s (sendNotice s) := by
  unfold sendNotice; grind [Mems, memsOk, sendControl_mems, mems_foldl]

theorem takeHead_mems (s : State) : Mems s (takeHead s) := by
  unfold takeHead; grind [Mems, memsOk, bump_mems]

theorem readPart_mems (e : SplitEntry) (p n : Nat) (s : State) : Mems s (readPart e p n s) := by
  unfold readPart; grind [Mems, memsOk, send_mems, takePort_mems]

theorem readChunk_mems (e : SplitEntry) (s : State) : Mems s (readChunk e s) := by
  unfold readChunk
  dsimp only
  split
  · exact Mems.refl s
  · exact mems_foldl _ (fun s _ => readPart_mems _ _ _ s) _ s

theorem writeHalf_mems (n : Nat) (s : State) : Mems s (writeHalf n s) := by
  unfold writeHalf
  split
  · exact Mems.refl s
  · exact mems_foldl _ (fun s _ => vmStore_mems _ _ s) _ s

theorem beginPack_mems (n : Nat) (s : State) : Mems s (beginPack n s) := by
  unfold beginPack; grind [Mems, memsOk]

theorem rereadHalf_mems (n : Nat) (s : State) : Mems s (rereadHalf n s) := by
  unfold rereadHalf; grind [Mems, memsOk, beginPack_mems]

theorem endPack_mems (extra : List MbHdr) (s : State) : Mems s (endPack extra s) := by
  unfold endPack; grind [Mems, memsOk, writeHalf_mems, beginPack_mems]

theorem ingestState_mems (s : State) : Mems s (ingestState s) := by
  unfold ingestState
  split
  · exact Mems.refl s
  · dsimp only
    generalize hu : readAhead 64 (trimBytes (packAll _ s)) = u
    have h : Mems s u := hu ▸ ((packAll_mems _ s).trans (trimBytes_mems _)).trans (readAhead_mems 64 _)
    clear hu
    grind [Mems, memsOk, sendNotice_mems, takeHead_mems, readChunk_mems, endPack_mems]

theorem splitNoticeState_mems (src step : Nat) (l : List SplitEntry) (s : State) : Mems s (splitNoticeState src step l s) := by
  unfold splitNoticeState; grind [Mems, memsOk]

theorem startIngest_mems (c : Cursor) (q : List SplitEntry) (s : State) : Mems s (startIngest c q s) := by
  unfold startIngest; grind [Mems, memsOk, beginPack_mems]

theorem logRead_mems (r : NvmeRead) (status : Nat) (s : State) : Mems s (logRead r status s) := by
  unfold logRead; grind [Mems, memsOk, logAdd_mems]

theorem retryRead_mems (cid status : Nat) (s : State) : Mems s (retryRead cid status s) := by
  unfold retryRead; grind [Mems, memsOk, send_mems, halt_mems, logRead_mems]

theorem readCompleteState_mems (cid status : Nat) (data : Bytes) (s : State) : Mems s (readCompleteState cid status data s) := by
  unfold readCompleteState; grind [Mems, memsOk, retryRead_mems]

theorem readTimeoutState_mems (cid status : Nat) (s : State) : Mems s (readTimeoutState cid status s) := by
  unfold readTimeoutState; grind [Mems, memsOk, retryRead_mems]

theorem ingestBoundState_mems (late : Nat) (s : State) : Mems s (ingestBoundState late s) := by
  unfold ingestBoundState; grind [Mems, memsOk, logAdd_mems, halt_mems, logRead_mems]

theorem keepAliveState_mems (tgt : Nat) (s : State) : Mems s (keepAliveState tgt s) := by
  unfold keepAliveState; grind [Mems, memsOk, send_mems]

theorem setHost_mems (p : Nat) (x : HostPort) (s : State) : Mems s (setHost p x s) := by
  unfold setHost; grind [Mems, memsOk]

theorem linkLossState_mems (p : Nat) (s : State) : Mems s (linkLossState p s) := by
  unfold linkLossState; grind [Mems, memsOk, send_mems, logAdd_mems, setHost_mems, mems_foldl]

theorem hostUpState_mems (p : Nat) (s : State) : Mems s (hostUpState p s) := by
  unfold hostUpState; grind [Mems, memsOk, setHost_mems]

theorem congestionState_mems (conn : Nat) (s : State) : Mems s (congestionState conn s) := by
  unfold congestionState; grind [Mems, memsOk]

theorem pfcState_mems (p prio : Nat) (quanta : Nat) (s : State) : Mems s (pfcState p prio quanta s) := by
  unfold pfcState; grind [Mems, memsOk, setHost_mems]

theorem inboxWrite_mems (conn off : Nat) (data : Bytes) (s : State) : Mems s (inboxWrite conn off data s) := by
  unfold inboxWrite; grind [Mems, memsOk, memStore_wf]

theorem frameState_mems (f : Frame) (s : State) : Mems s (frameState f s) := by
  unfold frameState; grind [Mems, memsOk, send_mems, setHost_mems, inboxWrite_mems]

theorem clientConnectState_mems (addr : Nat) (s : State) : Mems s (clientConnectState addr s) := by
  unfold clientConnectState; grind [Mems, memsOk, takePort_mems]

end Sys2Proof.Machine
end

