-- ==== Sys2Proof/Laws/MemsCores.lean ====
section
/-! SUPPORT. Operations of Machine/Cores.lean keep memories in canonical form (Laws/Mems.lean). -/

namespace Sys2Proof.Machine

theorem countCorrected_mems (c : Corrected) (scrub : Bool) (s : State) : Mems s (countCorrected c scrub s) := by
  unfold countCorrected; grind [Mems, memsOk, bump_mems]

theorem corrected_mems (c : Corrected) (scrub : Bool) (s : State) : Mems s (corrected c scrub s) := by
  have h := countCorrected_mems c scrub s
  have j (t : State) (x : Job) : Mems t { t with job := x } := mems_of rfl rfl rfl
  unfold corrected
  dsimp only
  split
  · exact Mems.refl s
  · split
    · exact h
    · exact (h.trans (j _ _)).trans (logAdd_mems _ _ _ _ _ _ _)

theorem corrected?_mems (c : Option Corrected) (s : State) : Mems s (corrected? c s) := by
  unfold corrected?; grind [Mems, memsOk, corrected_mems]

theorem takeSlot_mems (hearth : Nat) (d : StreamDesc) (s : State) : Mems s (takeSlot hearth d s).2 := by
  unfold takeSlot; grind [Mems, memsOk, bump_mems]

theorem reportCredit_mems (core ctx : Nat) (d : StreamDesc) (n : Nat) (s : State) : Mems s (reportCredit core ctx d n s) := by
  unfold reportCredit; grind [Mems, memsOk, injectPacket_mems, setCore_ok, core_tile_wf, core_side_wf, memStore_wf]

theorem ringBytes_mems (core ctx t off : Nat) (bs : Bytes) (s : State) : Mems s (ringBytes core ctx t off bs s) := by
  unfold ringBytes; grind [Mems, memsOk, setCore_ok, core_tile_wf, core_side_wf, memStore_wf]

theorem deliverTile_mems (core ctx t off : Nat) (bs : Bytes) (s : State) : Mems s (deliverTile core ctx t off bs s) := by
  unfold deliverTile; grind [Mems, memsOk, ringBytes_mems]

theorem earlyTiles_mems (core ctx : Nat) (s : State) : Mems s (earlyTiles core ctx s) := by
  have h (l : List Packet) : Mems s { s with coll := { s.coll with early := l } } := mems_of rfl rfl rfl
  unfold earlyTiles; exact (h _).trans (mems_foldl _ (fun s _ => deliverTile_mems _ _ _ _ _ s) _ _)

theorem admitStream_mems (core id : Nat) (s : State) (b : Nat × Words) : Mems s (admitStream core id s b) := by
  unfold admitStream; grind [Mems, memsOk, takeSlot_mems, reportCredit_mems, earlyTiles_mems, setCore_ok, core_tile_wf, core_side_wf, memStore_wf]

theorem admissionState_mems (core : Nat) (s : State) : Mems s (admissionState core s) := by
  unfold admissionState; grind [Mems, memsOk, level_mems, admitStream_mems, mems_foldl, setCore_ok, core_tile_wf, core_side_wf, memStore_wf]

theorem touchPages_mems (hearth : Nat) (lines : List Nat) (s : State) : Mems s (touchPages hearth lines s) := by
  unfold touchPages; exact mems_foldl _ (fun s _ => atcTouch_mems _ _ s) _ _

theorem touchTile_mems (core : Nat) (d : StreamDesc) (vas : List Nat) (s : State) : Mems s (touchTile core d vas s) := by
  unfold touchTile; exact (touchLines_mems _ _ _ s).trans (touchPages_mems _ _ _)

theorem tileImage_mems (d : StreamDesc) (t : Nat) (l : List (Nat × Nat)) (s : State) : Mems s (tileImage d t l s).2 := by
  unfold tileImage; grind [Mems, memsOk, takeFree_mems]

theorem drainOne_mems (core ctx : Nat) (s : State) : Mems s (drainOne core ctx s) := by
  unfold drainOne
  dsimp only
  split
  · exact Mems.refl s
  · exact setCore_mems _ _ s (fun h => refill_tile_wf _ _ (core_tile_wf core h))
      (fun h => by rw [refill_sideMem]; exact core_side_wf core h)

theorem drainDelivery_mems (core ctx : Nat) (x : Stream) (d : StreamDesc) (l : List (Nat × Nat)) (s : State) :
    Mems s (drainDelivery core ctx x d l s) := by
  have h (v : List (Nat × Nat)) (s : State) : Mems s (setCore core { s.core core with spent := v } s) := by
    exact setCore_mems core _ s (core_tile_wf core) (core_side_wf core)
  unfold drainDelivery
  dsimp only
  have e (v : List (Nat × Nat)) := ((tileImage_mems d x.drained l s).trans (drainOne_mems core ctx _)).trans (h v _)
  split
  · exact (e _).trans (deliverTile_mems _ _ _ _ _ _)
  · exact (e _).trans (mems_foldl _ (fun s _ => injectPacket_mems _ s) _ _)

theorem clearCovered_mems (ws : List EWrite) (s : State) : Mems s (clearCovered ws s) := by
  unfold clearCovered; exact mems_of rfl rfl rfl

theorem tileFetchState_mems (core ctx : Nat) (corr : Option Corrected) (s : State) :
    Mems s (tileFetchState core ctx corr s) := by
  unfold tileFetchState
  split
  · exact Mems.refl s
  · split
    · exact Mems.refl s
    · dsimp only
      split
      · split
        · exact ((touchTile_mems _ _ _ _).trans (ringBytes_mems _ _ _ _ _ _)).trans (corrected?_mems _ _)
        · exact Mems.refl s
      · split
        · exact Mems.refl s
        · split
          · split
            · exact ((((clearCovered_mems _ _).trans (mems_foldl _ writeMain_mems _ _)).trans (touchTile_mems _ _ _ _)).trans
                (drainOne_mems _ _ _)).trans (corrected?_mems _ _)
            · exact Mems.refl s
          · split
            · exact (drainDelivery_mems _ _ _ _ _ s).trans (corrected?_mems _ _)
            · exact Mems.refl s

theorem creditReportState_mems (core ctx tiles : Nat) (s : State) : Mems s (creditReportState core ctx tiles s) := by
  unfold creditReportState; grind [Mems, memsOk, setCore_ok, core_tile_wf, core_side_wf, memStore_wf]

theorem prefetchTile_mems (core ctx t : Nat) (x : Stream) (s : State) : Mems s (prefetchTile core ctx t x s) := by
  unfold prefetchTile
  refine Mems.trans ?_ (touchLines_mems _ _ _ _)
  exact setCore_mems core _ s (core_tile_wf core) (core_side_wf core)

theorem prefetchState_mems (core ctx : Nat) (s : State) : Mems s (prefetchState core ctx s) := by
  unfold prefetchState
  split
  · exact Mems.refl s
  · split
    · exact prefetchTile_mems _ _ _ _ s
    · exact Mems.refl s

theorem sideWrite_mems (core mem a : Nat) (bs : Bytes) (s : State) : Mems s (sideWrite core mem a bs s) := by
  unfold sideWrite; grind [Mems, memsOk, vmStore_mems, readTouch_mems, setCore_ok, core_tile_wf, core_side_wf, memStore_wf]

theorem sideTouch_mems (core mem a n : Nat) (s : State) : Mems s (sideTouch core mem a n s) := by
  unfold sideTouch; grind [Mems, memsOk, readTouch_mems]

theorem sideForInst_mems (core : Nat) (r : SideReq) (i : Inflight) (m : SideCmd) (s : State) : Mems s (sideForInst core r i m s) := by
  unfold sideForInst; grind [Mems, memsOk, sideTouch_mems, sideWrite_mems, CoreSt.updInst, CoreSt.tidy, setCore_ok, core_tile_wf, core_side_wf, memStore_wf]

theorem sidelineState_mems (core : Nat) (s : State) : Mems s (sidelineState core s) := by
  unfold sidelineState; grind [Mems, memsOk, sideTouch_mems, sideWrite_mems, sideForInst_mems, setCore_ok, core_tile_wf, core_side_wf, memStore_wf]

theorem takeTo_mems (core : Nat) (s : State) (x : Nat × Stream × Nat) : Mems s (takeTo core s x) := by
  unfold takeTo; grind [Mems, memsOk, reportCredit_mems, setCore_ok, core_tile_wf, core_side_wf, memStore_wf]

theorem takeSome_mems (core : Nat) (u : CUnit) (s : State) : Mems s (takeSome core u s) := by
  unfold takeSome
  split
  · exact Mems.refl s
  · exact mems_foldl _ (fun s _ => takeTo_mems _ s _) _ _

theorem takeAll_mems (core id : Nat) (s : State) : Mems s (takeAll core id s) := by
  unfold takeAll
  exact (mems_foldl _ (fun s _ => takeTo_mems _ s _) _ _).trans (setCore_mems core _ _ (core_tile_wf core) (core_side_wf core))

theorem matrixState_mems (core : Nat) (s : State) : Mems s (matrixState core s) := by
  unfold matrixState; grind [Mems, memsOk, takeSome_mems, putMatrix_mems, takeAll_mems, CoreSt.updInst, setCore_ok, core_tile_wf, core_side_wf, memStore_wf]

theorem vectorState_mems (core : Nat) (s : State) : Mems s (vectorState core s) := by
  unfold vectorState; grind [Mems, memsOk, takeSome_mems, putConv_mems, takeAll_mems, CoreSt.updInst, CoreSt.tidy, setCore_ok, core_tile_wf, core_side_wf, memStore_wf]

theorem rowStep_wf (s : State) (core : Nat) (i : Inflight) (d : RowDesc) (acc : List W32 × Mem) (r : Nat)
    (h : memWf acc.2 = true) : memWf (rowStep s core i d acc r).2 = true := by
  unfold rowStep
  dsimp only
  have h1 : ∀ o : Option (W32 × W32), memWf (match o with
      | some (a, b) => memStore acc.2 (8 * ((d.statBase + r) % 32768)) (leBytes 4 a.toNat ++ leBytes 4 b.toNat)
      | none => acc.2) = true := by
    intro o
    split
    · exact memStore_wf _ _ _ h
    · exact h
  split
  · refine mem_foldl_wf _ (fun m x hm => ?_) _ _ (h1 _)
    obtain ⟨⟨dy, xh⟩, c⟩ := x
    dsimp only
    split
    · exact memStore_wf _ _ _ (memStore_wf _ _ _ hm)
    · exact memStore_wf _ _ _ hm
  · exact h1 _

theorem rowSteps_wf (s : State) (core : Nat) (i : Inflight) (d : RowDesc) (l : List Nat) (acc : List W32 × Mem)
    (h : memWf acc.2 = true) : memWf (l.foldl (rowStep s core i d) acc).2 = true := by
  induction l generalizing acc with
  | nil => exact h
  | cons r l ih => exact ih _ (rowStep_wf s core i d acc r h)

theorem setCore_tidy_mems (n id : Nat) (f : Inflight → Inflight) (s : State) :
    Mems s (setCore n ((s.core n).updInst id f).tidy s) := setCore_mems n _ s (core_tile_wf n) (core_side_wf n)

theorem rowState_mems (core : Nat) (s : State) : Mems s (rowState core s) := by
  refine ⟨fun h => ?_⟩
  unfold rowState
  split
  · exact (takeSome_mems _ _ s).ok h
  · next i _ =>
    dsimp only
    have ht := (takeAll_mems core i.id s).ok h
    have hm : ∀ b : Bool, ∀ a n : Nat, memWf (if b = true then memZero (s.core core).sideMem a n else (s.core core).sideMem) = true := by
      intro b a n
      split
      · exact memZero_wf _ _ _ (core_side_wf core h)
      · exact core_side_wf core h
    have hk : memsOk (setCore core { (takeAll core i.id s).core core with
        sideMem := ((List.range (rowDesc i.desc).rows).foldl (rowStep s core i (rowDesc i.desc))
          ([], if ((rowDesc i.desc).caccEn && (rowDesc i.desc).caccInit) = true then
            memZero (s.core core).sideMem (8 * (rowDesc i.desc).caccBase) (8 * (rowDesc i.desc).rowLen)
            else (s.core core).sideMem)).2 } (takeAll core i.id s)) = true :=
      setCore_ok ht (core_tile_wf core ht) (rowSteps_wf s core i _ _ _ (hm _ _ _))
    exact (setCore_tidy_mems core _ _ _).ok
      ((putConv_mems core i _ _ _ _ _).ok hk)

theorem passedOn_mems (core id : Nat) (s : State) : Mems s (passedOn core id s) := by
  unfold passedOn; grind [Mems, memsOk, CoreSt.updInst, setCore_ok, core_tile_wf, core_side_wf, memStore_wf]

theorem combineState_mems (core level : Nat) (s : State) : Mems s (combineState core level s) := by
  have up (i : Inflight) (d : MatDesc) (f : Inflight → Inflight) (c : Bool) (o : MatOut) (s : State) :
      Mems s (if c = true then putMatrix core i d o (setCore core ((s.core core).updInst i.id f) s)
        else setCore core ((s.core core).updInst i.id f) s) := by
    split
    · exact (setCore_upd_mems _ _ _ s).trans (putMatrix_mems _ _ _ _ _)
    · exact setCore_upd_mems _ _ _ s
  unfold combineState
  split
  · exact Mems.refl s
  · dsimp only
    split
    · exact Mems.refl s
    · split
      · exact up _ _ _ _ _ s
      · split
        · exact Mems.refl s
        · split
          · exact (passedOn_mems _ _ s).trans (up _ _ _ _ _ _)
          · exact Mems.refl s

theorem retireState_mems (core ctx : Nat) (s : State) : Mems s (retireState core ctx s) := by
  have key (b d : Bool) (c : CoreSt) (m : List (Nat × Nat)) (h : c.tile = (s.core core).tile)
      (k : c.sideMem = (s.core core).sideMem) : Mems s (if b = true then s else if d = true then
        { setCore core c s with mm := { (setCore core c s).mm with slots := m } } else setCore core c s) := by
    have e := setCore_mems core c s (h ▸ core_tile_wf core) (k ▸ core_side_wf core)
    split
    · exact Mems.refl s
    · split
      · exact e.trans ⟨fun x => x⟩
      · exact e
  unfold retireState
  split
  · exact Mems.refl s
  · exact key _ _ _ _ rfl rfl

theorem logOnce_mems (code core : Nat) (d : MatDesc) (on : Bool) (s : State) : Mems s (logOnce code core d on s) := by
  unfold logOnce; grind [Mems, memsOk, logAdd_mems]

theorem foldLstat_mems (l : Nat) (i : Inflight) (s : State) : Mems s (foldLstat l i s) := by
  unfold foldLstat; grind [Mems, memsOk, setGroup_mems]

theorem putRecord_mems (core : Nat) (it : Item) (i : Inflight) (s : State) : Mems s (putRecord core it i s) := by
  unfold putRecord
  refine Mems.trans ?_ (logOnce_mems _ _ _ _ _)
  refine Mems.trans ?_ (logOnce_mems _ _ _ _ _)
  refine Mems.trans ?_ (vmStore_mems _ _ _)
  exact setCore_mems core _ s (core_tile_wf core) (core_side_wf core)

theorem matrixCompleteState_mems (core : Nat) (s : State) : Mems s (matrixCompleteState core s) := by
  unfold matrixCompleteState
  dsimp only
  split
  · exact Mems.refl s
  · next i _ =>
    have rest : Mems s (setCore core { s.core core with inflight := (s.core core).inflight.filter fun x => x.id != i.id } s) := by
      exact setCore_mems core _ s (core_tile_wf core) (core_side_wf core)
    split
    · exact Mems.refl s
    · split
      · exact rest
      · split
        · exact rest
        · split
          · exact Mems.refl s
          · next it _ _ =>
            have h := rest.trans (putRecord_mems core it i _)
            split
            case h_5 => exact h
            all_goals exact h.trans (foldLstat_mems _ _ _)

theorem barrierState_mems (core : Nat) (s : State) : Mems s (barrierState core s) := by
  unfold barrierState; grind [Mems, memsOk, mems_foldl, setCore_ok, core_tile_wf, core_side_wf, memStore_wf]

end Sys2Proof.Machine
end

