-- ==== Sys2Proof/Laws/MemsUpdate.lean ====
section
/-! SUPPORT. Operations of Machine/Update.lean keep memories in canonical form (Laws/Mems.lean). -/

namespace Sys2Proof.Machine

theorem tieSum_mems (s : State) (b : BlockRec) : Mems s (tieSum s b) := by
  unfold tieSum; grind [Mems, memsOk, vmStore_mems, mems_foldl]

theorem expand_mems (jobId prob va : Nat) (s : State) : Mems s (expand jobId prob va s) := by
  unfold expand; grind [Mems, memsOk, vmStore_mems]

theorem expandBlock_mems (s : State) (b : BlockRec) : Mems s (expandBlock s b) := by
  unfold expandBlock; grind [Mems, memsOk, expand_mems]

theorem runKernel_mems (layer : Nat) (s : State) (b : BlockRec) : Mems s (runKernel layer s b) := by
  unfold runKernel; grind [Mems, memsOk, vmStore_mems, mems_foldl]

theorem sealBlock_mems (n : Nat) (s : State) (b : BlockRec) : Mems s (sealBlock n s b) := by
  unfold sealBlock; grind [Mems, memsOk, vmStore_mems]

theorem readAll_mems (hearth : Nat) (l : List (Nat × Nat)) (s : State) : Mems s (readAll hearth l s) := by
  unfold readAll; exact mems_foldl _ (fun s _ => readTouch_mems _ _ _ s) _ _

theorem clearTags_mems (s : State) : Mems s (clearTags s) := by
  unfold clearTags; exact mems_foldl _ (fun s _ => vmStore_mems _ _ s) _ _

end Sys2Proof.Machine
end

