-- ==== Sys2Proof/Laws/MemsSched.lean ====
section
/-! SUPPORT. Operations of Machine/Sched.lean keep memories in canonical form (Laws/Mems.lean). -/

namespace Sys2Proof.Machine

theorem startCores_mems (g prog : Nat) (s : State) : Mems s (startCores g prog s) :=
  mems_foldl (fun s n => setCore n ((s.core n).start prog) s)
    (fun s n => setCore_mems n _ s (core_tile_wf n) (core_side_wf n)) _ s

theorem putItem_mems (g : Nat) (it : Item) (s : State) : Mems s (putItem g it s) := by
  unfold putItem; grind [Mems, memsOk, setGroup_mems, startCores_mems]

theorem writeCounts_mems (s : State) : Mems s (writeCounts s) := by
  unfold writeCounts; grind [Mems, memsOk, vmStore_mems, mems_foldl]

theorem genLog_mems (b : BlockRec) (s : State) : Mems s (genLog b s) := by
  unfold genLog; grind [Mems, memsOk, logAdd_mems]

theorem genFail_mems (b : BlockRec) (s : State) : Mems s (genFail b s) := by
  unfold genFail; grind [Mems, memsOk, genLog_mems, halt_mems]

theorem finishItem_mems (g : Nat) (it : Item) (s : State) : Mems s (finishItem g it s) := by
  unfold finishItem; grind [Mems, memsOk, setGroup_mems, writeLstat_mems, pumpColls_mems]

theorem startUpdate_mems (g : Nat) (x : Slot) (s : State) : Mems s (startUpdate g x s) := by
  unfold startUpdate
  dsimp only
  have h := latchLayer_mems x.layer s.job.step s
  split
  · exact h.trans (finishItem_mems _ _ _)
  · split
    · exact h.trans (genFail_mems _ _)
    · split
      · exact (((h.trans (readAll_mems _ _ _)).trans (mems_foldl _ tieSum_mems _ _)).trans (mems_foldl _ expandBlock_mems _ _)).trans
          (putItem_mems _ _ _)
      · exact h

theorem startInstall_mems (g : Nat) (s : State) : Mems s (startInstall g s) := by
  unfold startInstall; grind [Mems, memsOk, putItem_mems]

theorem slotStartState_mems (g : Nat) (s : State) : Mems s (slotStartState g s) := by
  unfold slotStartState
  dsimp only
  split
  · exact Mems.refl s
  · split
    · exact startInstall_mems _ s
    · split
      · exact Mems.refl s
      · split
        · exact Mems.refl s
        · split
          · exact Mems.refl s
          · split
            · split
              · exact Mems.refl s
              · exact (setGroup_mems _ _ s).trans (holdLog_mems _ _)
            · split
              · exact startUpdate_mems _ _ s
              · refine Mems.trans ?_ (putItem_mems _ _ _)
                split
                · exact writeCounts_mems s
                · exact Mems.refl s

theorem collStartState_mems (id m : Nat) (s : State) : Mems s (collStartState id m s) := by
  unfold collStartState; grind [Mems, memsOk, beginColl_mems, genFail_mems]

theorem putEval_mems (g : Segment) (pos : Option Nat) (layer : Nat) (s : State) : Mems s (putEval g pos layer s) := by
  unfold putEval; grind [Mems, memsOk, putItem_mems]

theorem evalStartState_mems (s : State) : Mems s (evalStartState s) := by
  unfold evalStartState; grind [Mems, memsOk, addElective_mems, putEval_mems]

theorem dropStreams_mems (n : Nat) (s : State) : Mems s (dropStreams n s) := by
  unfold dropStreams; grind [Mems, memsOk, setCore_ok, core_tile_wf, core_side_wf, memStore_wf]

theorem stopEval_mems (g : Nat) (s : State) : Mems s (stopEval g s) := by
  unfold stopEval; grind [Mems, memsOk, setGroup_mems, subElective_mems, dropStreams_mems, mems_foldl, setCore_ok, core_tile_wf, core_side_wf, memStore_wf]

theorem diagOver_mems (s : State) : Mems s (diagOver s) := by
  unfold diagOver; grind [Mems, memsOk, setJob_mems]

theorem dropEval_mems (seg : Nat) (pos : Option Nat) (s : State) : Mems s (dropEval seg pos s) := by
  unfold dropEval; grind [Mems, memsOk, diagOver_mems]

theorem respond_mems (q : InboxReq) (status : Nat) (res : Bytes) (s : State) : Mems s (respond q status res s) := by
  unfold respond; grind [Mems, memsOk, bump_mems, send_mems]

theorem publish_mems (id k : Nat) (s : State) : Mems s (publish id k s) := by
  unfold publish; grind [Mems, memsOk, raiseEvent_mems]

theorem publishEval_mems (g : Segment) (pos : Option Nat) (s : State) : Mems s (publishEval g pos s) := by
  unfold publishEval; grind [Mems, memsOk, stopEval_mems, dropEval_mems, respond_mems, publish_mems]

theorem abandonEval_mems (code : Nat) (s : State) : Mems s (abandonEval code s) := by
  unfold abandonEval
  split
  · exact Mems.refl s
  · split
    · exact Mems.refl s
    · refine Mems.trans ?_ (dropEval_mems _ _ _)
      have := stopEval_mems
      split
      · exact stopEval_mems _ s
      · split
        · exact (stopEval_mems _ s).trans (respond_mems _ _ _ _)
        · exact stopEval_mems _ s

theorem advanceEval_mems (s : State) : Mems s (advanceEval s) := by
  unfold advanceEval; grind [Mems, memsOk, putEval_mems, stopEval_mems, publishEval_mems]

theorem evalExpiryState_mems (s : State) : Mems s (evalExpiryState s) := by
  unfold evalExpiryState; grind [Mems, memsOk]

theorem responseLost_mems (slot wait : Nat) (s : State) : Mems s (responseLost slot wait s) := by
  unfold responseLost; grind [Mems, memsOk, bump_mems]

theorem takePiece_mems (point : Bool) (i : Nat) (s : State) : Mems s (takePiece point i s) := by
  unfold takePiece; grind [Mems, memsOk, holdLog_mems, setRun_mems, loadProblem_mems, addElective_mems]

theorem startPiece_mems (i : Nat) (s : State) : Mems s (startPiece i s) := by
  unfold startPiece; grind [Mems, memsOk, takePiece_mems]

theorem endPiece_mems (i : Nat) (s : State) : Mems s (endPiece i s) := by
  unfold endPiece; grind [Mems, memsOk, setRun_mems, subElective_mems, takePiece_mems]

theorem installedLayer_mems (g layer : Nat) (s : State) : Mems s (installedLayer g layer s) := by
  unfold installedLayer; grind [Mems, memsOk, setGroup_mems, clearTags_mems]


theorem advanceUpdate_mems (g : Nat) (it : Item) (s : State) : Mems s (advanceUpdate g it s) := by
  unfold advanceUpdate
  dsimp only
  split
  · exact Mems.refl s
  · split
    · split
      · exact Mems.refl s
      · exact (((readAll_mems _ _ s).trans (mems_foldl _ (runKernel_mems _) _ _)).trans (setGroup_mems _ _ _)).trans
          (startCores_mems _ _ _)
    · split
      · exact (mems_foldl _ (sealBlock_mems _) _ s).trans (finishItem_mems _ _ _)
      · exact installedLayer_mems _ _ _

theorem itemCompleteState_mems (g : Nat) (s : State) : Mems s (itemCompleteState g s) := by
  unfold itemCompleteState; grind [Mems, memsOk, finishItem_mems, advanceEval_mems, advanceUpdate_mems]

theorem admitNative_mems (h : Nat) (fuel : Nat) (s : State) : Mems s (admitNative h fuel s) := by
  induction fuel generalizing s with
  | zero => unfold admitNative; grind [Mems]
  | succ n ih => unfold admitNative; grind [Mems, memsOk, admitRoot_mems]

theorem admitBorrowed_mems (h : Nat) (s : State) : Mems s (admitBorrowed h s) := by
  unfold admitBorrowed; grind [Mems, memsOk, startPiece_mems]

theorem electiveState_mems (p : AdmitPoint) (s : State) : Mems s (electiveState p s) := by
  unfold electiveState; grind [Mems, memsOk, admitNative_mems, admitBorrowed_mems, mems_foldl]

end Sys2Proof.Machine
end

