-- ==== Sys2Proof/Laws/MemsBoundary.lean ====
section
/-! SUPPORT. Operations of Machine/Boundary.lean keep memories in canonical form (Laws/Mems.lean). -/

namespace Sys2Proof.Machine

theorem publishRecord_mems (s : State) : Mems s (publishRecord s) := by
  unfold publishRecord; grind [Mems, memsOk, raiseEvent_mems]

theorem takeCommand_mems (s : State) : Mems s (takeCommand s) := by
  unfold takeCommand; grind [Mems, memsOk]

theorem queueRequest_mems (s : State) (x : InboxReq × Nat) (pos : Nat) : Mems s (queueRequest s x pos) := by
  unfold queueRequest; grind [Mems, memsOk, vmStore_mems]

theorem dropShort_mems (s : State) (x : InboxReq × Nat) : Mems s (dropShort s x) := by
  unfold dropShort; grind [Mems, memsOk, bump_mems]

theorem scanInbox_mems (s : State) : Mems s (scanInbox s) := by
  unfold scanInbox; grind [Mems, memsOk, queueRequest_mems, dropShort_mems, mems_foldl]

theorem postRefused_mems (s : State) : Mems s (postRefused s) := by
  unfold postRefused; grind [Mems, memsOk, respond_mems, mems_foldl]

theorem dueSegments_mems (n : Nat) (s : State) : Mems s (dueSegments n s) := by
  unfold dueSegments; grind [Mems, memsOk]

theorem beginEval_mems (s : State) : Mems s (beginEval s) := by
  unfold beginEval; grind [Mems, memsOk, postRefused_mems]

theorem setHdr_mems (slot : Nat) (h : Nat × Bytes) (s : State) : Mems s (setHdr slot h s) := by
  unfold setHdr; grind [Mems, memsOk]

theorem ckptBegin_mems (s : State) : Mems s (ckptBegin s) := by
  unfold ckptBegin; grind [Mems, memsOk, send_mems, addElective_mems, setHdr_mems]

theorem ckptWriteState_mems (s : State) : Mems s (ckptWriteState s) := by
  unfold ckptWriteState; grind [Mems, memsOk, haltNow_mems, genLog_mems, ckptBegin_mems]

theorem ckptFlush_mems (s : State) : Mems s (ckptFlush s) := by
  unfold ckptFlush; grind [Mems, memsOk, send_mems]

theorem ckptData_mems (s : State) : Mems s (ckptData s) := by
  have h (n : Nat) (f : State → Nat → Tx) : Mems s ((List.range n).foldl (fun s i => send (f s i) s)
      { s with bnd := { s.bnd with ckptPhase := 2, writesLeft := n } }) := by
    grind [Mems, memsOk, mems_foldl, send_mems]
  unfold ckptData
  dsimp only
  split
  · exact Mems.refl s
  · split
    · exact (h _ _).trans (ckptFlush_mems _)
    · exact h _ _

theorem writeCompleteState_mems (s : State) : Mems s (writeCompleteState s) := by
  unfold writeCompleteState; grind [Mems, memsOk, ckptFlush_mems]

theorem ckptEnd_mems (s : State) : Mems s (ckptEnd s) := by
  unfold ckptEnd; grind [Mems, memsOk, subElective_mems]

theorem ckptSeal_mems (s : State) : Mems s (ckptSeal s) := by
  unfold ckptSeal; grind [Mems, memsOk, send_mems]

theorem ckptDone_mems (s : State) : Mems s (ckptDone s) := by
  unfold ckptDone; grind [Mems, memsOk, logPlain_mems, setHdr_mems, ckptEnd_mems]

theorem flushState_mems (s : State) : Mems s (flushState s) := by
  unfold flushState; grind [Mems, memsOk, ckptData_mems, ckptSeal_mems, ckptDone_mems]

theorem ckptAbandon_mems (s : State) : Mems s (ckptAbandon s) := by
  unfold ckptAbandon; grind [Mems, memsOk, bump_mems, logPlain_mems, ckptEnd_mems]

theorem ckptExpiryState_mems (s : State) : Mems s (ckptExpiryState s) := by
  unfold ckptExpiryState; grind [Mems, memsOk, ckptAbandon_mems]

theorem setOrder_mems (o : Nat) (s : State) : Mems s (setOrder o s) := by
  unfold setOrder; grind [Mems, memsOk]

theorem beginOrder7_mems (s : State) : Mems s (beginOrder7 s) := by
  unfold beginOrder7; grind [Mems, memsOk, retirePages_mems, setOrder_mems]

theorem stopJob_mems (s : State) : Mems s (stopJob s) := by
  unfold stopJob; grind [Mems, memsOk, setJob_mems, governorStop_mems, endEval_mems]

theorem order8_mems (s : State) : Mems s (order8 s) := by
  unfold order8; grind [Mems, memsOk, setJob_mems, stopJob_mems, haltNow_mems, startStep_mems]

theorem boundaryState_mems (s : State) : Mems s (boundaryState s) := by
  unfold boundaryState; grind [Mems, memsOk, publishRecord_mems, takeCommand_mems, scanInbox_mems, dueSegments_mems, beginEval_mems, setOrder_mems, beginOrder7_mems, order8_mems]

theorem budgetExpiryState_mems (s : State) : Mems s (budgetExpiryState s) := by
  unfold budgetExpiryState; grind [Mems, memsOk]

theorem pausedEnd_mems (s : State) : Mems s (pausedEnd s) := by
  unfold pausedEnd; grind [Mems, memsOk, setJob_mems, startStep_mems, stopJob_mems]

theorem pausedServe_mems (s : State) : Mems s (pausedServe s) := by
  unfold pausedServe; grind [Mems, memsOk, scanInbox_mems, beginEval_mems, pausedEnd_mems]

theorem pausedCommand_mems (s : State) : Mems s (pausedCommand s) := by
  unfold pausedCommand; grind [Mems, memsOk, takeCommand_mems, pausedServe_mems]

theorem pausedState_mems (s : State) : Mems s (pausedState s) := by
  unfold pausedState; grind [Mems, memsOk, pausedServe_mems, pausedEnd_mems, pausedCommand_mems]

end Sys2Proof.Machine
end

