-- ==== Sys2Proof/Laws/MemsMemFault.lean ====
section
/-! SUPPORT. Operations of Machine/MemFault.lean keep memories in canonical form (Laws/Mems.lean). -/

namespace Sys2Proof.Machine

theorem fenceMap_mems (phys : Nat) (s : State) : Mems s (fenceMap phys s).1 := by
  unfold fenceMap; grind [Mems, memsOk]

theorem fenceJob_mems (n : Nat) (spare : Bool) (s : State) : Mems s (fenceJob n spare s) := by
  unfold fenceJob; grind [Mems, memsOk, halt_mems, abortOwn_mems, abandonEval_mems]

theorem fenceCore_mems (phys slice : Nat) (s : State) : Mems s (fenceCore phys slice s) := by
  have hf := fenceMap_mems phys s
  have hc (n : Nat) (t : State) : Mems t (setCore n (t.core n).fresh t) :=
    setCore_mems n _ t (fun _ => rfl) (fun _ => rfl)
  have hb (u : State) : Mems u { u with job := { u.job with fencedInStep := u.job.fencedInStep + 1 } } := ⟨fun h => h⟩
  unfold fenceCore
  split
  · exact Mems.refl s
  · dsimp only
    split
    · exact ((hf.trans (logAdd_mems _ _ _ _ _ _ _)).trans (hb _)).trans (bump_mems _ _ _ _ _)
    · refine Mems.trans ?_ (hc _ _)
      refine Mems.trans ?_ (fenceJob_mems _ _ _)
      refine Mems.trans ?_ (cutPieces_mems _ _)
      exact ((hf.trans (logAdd_mems _ _ _ _ _ _ _)).trans (hb _)).trans (bump_mems _ _ _ _ _)

theorem coreFencedState_mems (phys : Nat) (s : State) : Mems s (coreFencedState phys s) := by
  unfold coreFencedState; grind [Mems, memsOk, fenceCore_mems]

theorem streamStallState_mems (core ctx : Nat) (s : State) : Mems s (streamStallState core ctx s) := by
  unfold streamStallState; grind [Mems, memsOk, logAdd_mems, abortOwn_mems, abandonEval_mems]

theorem endMisses_mems (g outcome : Nat) (s : State) : Mems s (endMisses g outcome s) := by
  unfold endMisses; grind [Mems, memsOk, oweMisses_mems, setGroup_mems, logMisses_mems]

theorem missAbort_mems (g outcome : Nat) (s : State) : Mems s (missAbort g outcome s) := by
  unfold missAbort; grind [Mems, memsOk, abortOwn_mems, endMisses_mems]

theorem addMiss_mems (g : Nat) (m : Miss) (s : State) : Mems s (addMiss g m s) := by
  unfold addMiss; grind [Mems, memsOk, setGroup_mems]

theorem stepMiss_mems (g : Nat) (it : Item) (m : Miss) (s : State) : Mems s (stepMiss g it m s) := by
  have h (s : State) : Mems s ((serveMiss m.va m.write s).getD s) := mems_getD (fun _ => serveMiss_mems _ _ _)
  unfold stepMiss; grind [Mems, memsOk, missAbort_mems, addMiss_mems]

theorem missState_mems (core ctx va : Nat) (write : Bool) (s : State) : Mems s (missState core ctx va write s) := by
  unfold missState; grind [Mems, memsOk, abandonEval_mems, endMisses_mems, addMiss_mems, stepMiss_mems]

theorem drainState_mems (g : Nat) (s : State) : Mems s (drainState g s) := by
  unfold drainState; grind [Mems, memsOk, setGroup_mems, dropStreams_mems, mems_foldl]

theorem mappedState_mems (g va : Nat) (s : State) : Mems s (mappedState g va s) := by
  unfold mappedState
  dsimp only
  have h := mapOwed_mems va s
  split
  · exact h
  · split
    · exact h.trans (missAbort_mems _ _ _)
    · exact (h.trans (serveMiss_mems _ _ _ (by assumption))).trans (setGroup_mems _ _ _)

theorem replayItemState_mems (g : Nat) (s : State) : Mems s (replayItemState g s) := by
  unfold replayItemState; grind [Mems, memsOk, setGroup_mems, startCores_mems, endMisses_mems]

theorem replayBoundState_mems (g : Nat) (s : State) : Mems s (replayBoundState g s) := by
  unfold replayBoundState; grind [Mems, memsOk, missAbort_mems]

theorem markPoison_mems (block : Nat) (s : State) : Mems s (markPoison block s) := by
  unfold markPoison; grind [Mems, memsOk]

theorem markBroken_mems (block : Nat) (s : State) : Mems s (markBroken block s) := by
  unfold markBroken; grind [Mems, memsOk]

theorem retireNow_mems (s : State) : Mems s (retireNow s) := by
  unfold retireNow; grind [Mems, memsOk, retirePages_mems]

theorem cellOut_mems (cell : Nat) (s : State) : Mems s (cellOut cell s) := by
  unfold cellOut; grind [Mems, memsOk, setCounter_mems, setRun_mems, subElective_mems, mems_foldl]

theorem lineLost_mems (pa : Nat) (dirty : Bool) (s : State) : Mems s (lineLost pa dirty s) := by
  have h : Mems s { s with mm := s.mm.drop [pa] } := mems_of rfl rfl rfl
  unfold lineLost
  dsimp only
  split
  · exact ((h.trans (markPoison_mems _ _)).trans (wantRetire_mems _ _)).trans (retireNow_mems _)
  · split
    · exact h
    · exact h.trans (touchLines_mems _ _ _ _)

theorem sramLost_mems (kind : SramKind) (unit word : Nat) (s : State) : Mems s (sramLost kind unit word s) := by
  unfold sramLost; grind [Mems, memsOk, bump_mems, logAdd_mems, fenceCore_mems, cellOut_mems, lineLost_mems]

theorem sramState_mems (kind : SramKind) (unit word : Nat) (err : List SymErr) (s : State) : Mems s (sramState kind unit word err s) := by
  unfold sramState; grind [Mems, memsOk, corrected_mems, sramLost_mems]

theorem logBlock_mems (channel pa va : Nat) (s : State) : Mems s (logBlock channel pa va s) := by
  unfold logBlock; grind [Mems, memsOk, bump_mems, logAdd_mems]

theorem noteBlock_mems (channel pa va : Nat) (s : State) : Mems s (noteBlock channel pa va s) := by
  unfold noteBlock; grind [Mems, memsOk, logBlock_mems, wantRetire_mems, markBroken_mems, retireNow_mems]

theorem scratchAbort_mems (va : Nat) (s : State) : Mems s (scratchAbort va s) := by
  unfold scratchAbort; grind [Mems, memsOk, abortOwn_mems, rereadHalf_mems]

theorem ckptLost_mems (s : State) : Mems s (ckptLost s) := by
  unfold ckptLost; grind [Mems, memsOk, haltNow_mems, ckptAbandon_mems]

theorem containerLost_mems (pa : Nat) (s : State) : Mems s (containerLost pa s) := by
  unfold containerLost; grind [Mems, memsOk]

theorem blockReader_mems (reader : EccReader) (va : Nat) (s : State) : Mems s (blockReader reader va s) := by
  unfold blockReader; grind [Mems, memsOk, halt_mems, abandonEval_mems, scratchAbort_mems, ckptLost_mems]

theorem blockLost_mems (channel pa va : Nat) (reader : EccReader) (s : State) : Mems s (blockLost channel pa va reader s) := by
  unfold blockLost; grind [Mems, memsOk, containerLost_mems, logBlock_mems, noteBlock_mems, blockReader_mems]

theorem gddrState_mems (channel pa va : Nat) (reader : EccReader) (err : List SymErr) (s : State) :
    Mems s (gddrState channel pa va reader err s) := by
  unfold gddrState
  split
  · exact Mems.refl s
  · split
    · exact blockLost_mems _ _ _ _ s
    · split
      · exact Mems.refl s
      · split
        · exact (touchLines_mems _ _ _ s).trans (corrected_mems _ _ _)
        · exact blockLost_mems _ _ _ _ s

theorem scrubTick_mems (s : State) : Mems s (scrubTick s) := by
  unfold scrubTick; grind [Mems, memsOk, bump_mems]

theorem scrubBlock_mems (pa : Nat) (err : List SymErr) (s : State) : Mems s (scrubBlock pa err s) := by
  unfold scrubBlock; grind [Mems, memsOk, containerLost_mems, noteBlock_mems, corrected_mems]

theorem scrubState_mems (block : Nat) (err : List SymErr) (onDie : Nat) (s : State) : Mems s (scrubState block err onDie s) := by
  unfold scrubState; grind [Mems, memsOk, bump_mems, scrubTick_mems, scrubBlock_mems]

end Sys2Proof.Machine
end

