-- ==== Sys2Proof/Laws/MemsFabEvents.lean ====
section
/-! SUPPORT. Operations of Machine/FabEvents.lean keep memories in canonical form (Laws/Mems.lean). -/

namespace Sys2Proof.Machine

theorem reroute_mems (l : List Waiting) (s : State) : Mems s (reroute l s) := by
  unfold reroute; exact mems_foldl _ (fun s _ => routePacket_mems _ _ s) _ _

theorem portDownState_mems (p : Nat) (s : State) : Mems s (portDownState p s) := by
  unfold portDownState; grind [Mems, memsOk, logAdd_mems, setPort_mems, announceOne_mems, abortOwn_mems, reroute_mems, settleFabric_mems]

theorem retrainState_mems (p lanes : Nat) (s : State) : Mems s (retrainState p lanes s) := by
  unfold retrainState; grind [Mems, memsOk, setPort_mems, retrainUp_mems, portDownState_mems]

theorem streamPacket_mems (p : Packet) (s : State) : Mems s (streamPacket p s) := by
  unfold streamPacket; grind [Mems, memsOk, deliverTile_mems, higherState_mems]

theorem creditEventState_mems (core ctx tiles step attempt : Nat) (s : State) : Mems s (creditEventState core ctx tiles step attempt s) := by
  unfold creditEventState; grind [Mems, memsOk, level_mems, creditReportState_mems]

theorem deliver_mems (p : Packet) (s : State) : Mems s (deliver p s) := by
  unfold deliver; grind [Mems, memsOk, streamPacket_mems, level_mems, bucketCredit_mems]

theorem receiveState_mems (l : LinkIn) (p : Packet) (s : State) : Mems s (receiveState l p s) := by
  unfold receiveState; grind [Mems, memsOk, bump_mems, send_mems, setPort_mems, freeRx_mems, deliver_mems, routePacket_mems]

theorem forwardState_mems (from? : Option LinkIn) (p : Packet) (s : State) : Mems s (forwardState from? p s) := by
  unfold forwardState; grind [Mems, memsOk, injectPacket_mems, receiveState_mems]

theorem collPacketState_mems (p : Packet) (s : State) : Mems s (collPacketState p s) := by
  unfold collPacketState; grind [Mems, memsOk, takePacket_mems, higherState_mems]

theorem creditPacketState_mems (core ctx tiles step attempt : Nat) (s : State) : Mems s (creditPacketState core ctx tiles step attempt s) := by
  unfold creditPacketState; grind [Mems, memsOk, creditEventState_mems]

theorem rootDeliveryState_mems (src weight side block slot due source kind esc : Nat) (header tiles : Bytes) (s : State) :
    Mems s (rootDeliveryState src weight side block slot due source kind esc header tiles s) := by
  unfold rootDeliveryState
  dsimp only
  refine Mems.trans ?_ (rootDelivered_mems _ _ _ _ _ _ _ _ _ _ _ _)
  exact mems_of rfl rfl rfl

theorem rootMessageState_mems (src weight side block step attempt slot : Nat) (o : RootOutcome) (s : State) : Mems s (rootMessageState src weight side block step attempt slot o s) := by
  unfold rootMessageState; grind [Mems, memsOk, level_mems, rootDecisionState_mems]

end Sys2Proof.Machine
end

