-- ==== Sys2Proof/Laws/MemsRecipeCheck.lean ====
section
/-! SUPPORT. Operations of Machine/RecipeCheck.lean keep memories in canonical form (Laws/Mems.lean). -/

namespace Sys2Proof.Machine

theorem mapAll_mems (s : State) {t : State} (h : mapAll s = some t) : Mems s t :=
  mems_foldl_bind mapRegion (fun _ _ _ h => mapRegion_mems _ _ h) _ _ h

end Sys2Proof.Machine
end

