-- ==== Sys2Proof/Laws/MemsSecurity.lean ====
section
/-! SUPPORT. Operations of Machine/Security.lean keep memories in canonical form (Laws/Mems.lean). -/

namespace Sys2Proof.Machine

theorem setClient_mems (k : Nat) (d : Bytes) (r : Nat) (s : State) : Mems s (setClient k d r s) := by
  unfold setClient; grind [Mems, memsOk]

theorem stmtEffect_mems (st : Statement) (s : State) : Mems s (stmtEffect st s).1 := by
  unfold stmtEffect; grind [Mems, memsOk, closeKey_mems, setClient_mems]

theorem takeStatement_mems (sub : Nat) (writer : Bytes) (st : Statement) (s : State) : Mems s (takeStatement sub writer st s).2.1 := by
  unfold takeStatement; grind [Mems, memsOk, logPlain_mems, stmtEffect_mems]

theorem answerHello_mems (tr : Transport) (peer : Nat) (hello : Hello) (s : State) : Mems s (answerHello tr peer hello s).2 := by
  unfold answerHello; grind [Mems, memsOk]

end Sys2Proof.Machine
end

