-- ==== Sys2Proof/Laws/MemsLoad.lean ====
section
/-! SUPPORT. Operations of Machine/Load.lean keep memories in canonical form (Laws/Mems.lean). -/

namespace Sys2Proof.Machine

theorem candidate_mems (c : Container) (s : State) : Mems s (candidate c s) := by
  unfold candidate; grind [Mems, memsOk]

theorem writeRoutes_mems (s : State) : Mems s (writeRoutes s) := by
  unfold writeRoutes; grind [Mems, memsOk, vmStore_mems]

theorem writeRecords_mems (s : State) : Mems s (writeRecords s) := by
  unfold writeRecords; grind [Mems, memsOk, vmStore_mems, mems_foldl]

theorem writeDescMem_mems (s : State) : Mems s (writeDescMem s) := by
  unfold writeDescMem; grind [Mems, memsOk, mems_foldl, setCore_ok, core_tile_wf, core_side_wf, memStore_wf]

theorem freshRecipe_mems (c : Container) (s : State) : Mems s (freshRecipe c s) := by
  unfold freshRecipe; grind [Mems, memsOk, candidate_mems]

theorem loadRecipe_mems (c : Container) (s : State) : Mems s (loadRecipe c s) := by
  have h (s : State) : Mems s ((mapAll s).getD s) := mems_getD (fun _ => mapAll_mems _)
  unfold loadRecipe
  grind [Mems, memsOk, setJob_mems, rebuildStarters_mems, writeRoutes_mems, writeRecords_mems, writeDescMem_mems, freshRecipe_mems]

theorem installImage_mems (c : Container) (s : State) : Mems s (installImage c s) := by
  unfold installImage; grind [Mems, memsOk]

theorem setOutcome_mems (code : Nat) (s : State) : Mems s (setOutcome code s) := by
  unfold setOutcome; grind [Mems, memsOk]

theorem runLoad_mems (c : Container) (s : State) : Mems s (runLoad c s) := by
  unfold runLoad; grind [Mems, memsOk, takeFree_mems, logPlain_mems, loadRecipe_mems, installImage_mems, setOutcome_mems]

theorem loadCommand_mems (s : State) : Mems s (loadCommand s).2 := by
  unfold loadCommand; grind [Mems, memsOk, runLoad_mems]

end Sys2Proof.Machine
end

