-- ==== Sys2Proof/Laws/MemsJobs.lean ====
section
/-! SUPPORT. Operations of Machine/Jobs.lean keep memories in canonical form (Laws/Mems.lean). -/

namespace Sys2Proof.Machine

theorem spreadBytes_mems (rs : List (Nat × Nat)) (bs : Bytes) (s : State) : Mems s (spreadBytes rs bs s) := by
  induction rs generalizing bs s with
  | nil => exact Mems.refl s
  | cons r rs ih => exact (vmStore_mems _ _ s).trans (ih _ _)

theorem placeSource_mems (src : Source) (s : State) : Mems s (placeSource src s) := by
  unfold placeSource
  split
  · exact Mems.refl s
  · exact spreadBytes_mems _ _ _

theorem queueInstall_mems (s : State) : Mems s (queueInstall s) := mems_of rfl rfl rfl

theorem installState_mems (src : Source) (s : State) : Mems s (installState src s) := by
  unfold installState
  dsimp only
  have h := ((placeSource_mems src s).trans
    (mems_foldl _ (sealBlock_mems src.step) (placeSource src s).blocks _)).trans (queueInstall_mems _)
  split
  · exact h.trans (clearTags_mems _)
  · exact h

theorem sendDigest_mems (s : State) : Mems s (sendDigest s) := by
  unfold sendDigest; grind [Mems, memsOk, sendWords_mems, haltNow_mems, releaseAll_mems]

theorem retrainDegraded_mems (s : State) : Mems s (retrainDegraded s) := by
  unfold retrainDegraded; grind [Mems, memsOk, laneFailureState_mems, mems_foldl]

theorem beginJob_mems (src : Source) (s : State) : Mems s (beginJob src s) := by
  unfold beginJob; grind [Mems, memsOk, rebuildStarters_mems, resumeRoots_mems, startStep_mems, startIngest_mems, installState_mems, sendDigest_mems]

theorem startJob_mems (i : Install) (s : State) : Mems s (startJob i s) := by
  unfold startJob; grind [Mems, memsOk, setJob_mems, governorStart_mems, haltNow_mems, retrainDegraded_mems, beginJob_mems]

theorem startDiag_mems (s : State) : Mems s (startDiag s) := by
  unfold startDiag; grind [Mems, memsOk, setJob_mems, diagOver_mems]

theorem startCommand_mems (i : Install) (s : State) : Mems s (startCommand i s).2 := by
  unfold startCommand; grind [Mems, memsOk, startJob_mems, startDiag_mems]

theorem holdCommand_mems (c : JobCmd) (s : State) : Mems s (holdCommand c s).2 := by
  unfold holdCommand; grind [Mems, memsOk]

theorem pauseCommand_mems (s : State) : Mems s (pauseCommand s).2 := by
  unfold pauseCommand; grind [Mems, memsOk, holdCommand_mems]

theorem resumeCommand_mems (s : State) : Mems s (resumeCommand s).2 := by
  unfold resumeCommand; grind [Mems, memsOk, holdCommand_mems]

theorem checkpointCommand_mems (s : State) : Mems s (checkpointCommand s).2 := by
  unfold checkpointCommand; grind [Mems, memsOk, holdCommand_mems]

theorem unload_mems (s : State) : Mems s (unload s) := by
  unfold unload; grind [Mems, memsOk]

theorem stopCommand_mems (s : State) : Mems s (stopCommand s).2 := by
  unfold stopCommand; grind [Mems, memsOk, setJob_mems, holdCommand_mems, unload_mems]

theorem abortStepCommand_mems (s : State) : Mems s (abortStepCommand s).2 := by
  unfold abortStepCommand; grind [Mems, memsOk, abortOwn_mems, abortIgnored_mems]

end Sys2Proof.Machine
end

