-- ==== Sys2Proof/Laws/MemsDict.lean ====
section
/-! SUPPORT. Operations of Machine/Dict.lean keep memories in canonical form (Laws/Mems.lean). -/

namespace Sys2Proof.Machine

theorem storeEntry_mems (idx sub : Nat) (val : Bytes) (s : State) : Mems s (storeEntry idx sub val s) := by
  unfold storeEntry; grind [Mems, memsOk]

end Sys2Proof.Machine
end

