-- ==== Sys2Proof/Laws/MemsPowerCmd.lean ====
section
/-! SUPPORT. Operations of Machine/PowerCmd.lean keep memories in canonical form (Laws/Mems.lean). -/

namespace Sys2Proof.Machine

theorem setHostUp_mems (up : List Bool) (s : State) : Mems s (setHostUp up s) := by
  unfold setHostUp; grind [Mems, memsOk]

theorem enterReady_mems (s : State) : Mems s (enterReady s) := by
  unfold enterReady; grind [Mems, memsOk, setDev_mems, setVcore_mems]

theorem proofLast_mems (p : ProofInput) (s : State) : Mems s (proofLast p s) := by
  unfold proofLast; grind [Mems, memsOk, setJob_mems, proofFabric_mems, unload_mems, setHostUp_mems, enterReady_mems]

theorem proofingState_mems (p : ProofInput) (s : State) : Mems s (proofingState p s) := by
  unfold proofingState; grind [Mems, memsOk, proofFirst_mems, proofLast_mems]

theorem emptyPantries_mems (s : State) : Mems s (emptyPantries s) := by
  unfold emptyPantries; exact mems_of rfl rfl rfl

theorem loseSram_mems (s : State) : Mems s (loseSram s) := by
  unfold loseSram; grind [Mems, memsOk]

theorem hostPortsDown_mems (s : State) : Mems s (hostPortsDown s) := by
  unfold hostPortsDown; grind [Mems, memsOk, setHostUp_mems]

theorem sleepState_mems (s : State) : Mems s (sleepState s) := by
  unfold sleepState; grind [Mems, memsOk, logPlain_mems, setDev_mems, setVcore_mems, hushAll_mems, fabSleep_mems, emptyPantries_mems, loseSram_mems, hostPortsDown_mems]

theorem sleepCommand_mems (s : State) : Mems s (sleepCommand s).2 := by
  unfold sleepCommand; grind [Mems, memsOk, sleepState_mems]

theorem restoreSram_mems (s : State) : Mems s (restoreSram s) := by
  unfold restoreSram; grind [Mems, memsOk, rebuildStarters_mems, haltNow_mems, writeDescMem_mems]

theorem wakeState_mems (s : State) : Mems s (wakeState s) := by
  unfold wakeState; grind [Mems, memsOk, setDev_mems, setVcore_mems, fabWake_mems, restoreSram_mems]

theorem wakeCommand_mems (s : State) : Mems s (wakeCommand s).2 := by
  unfold wakeCommand; grind [Mems, memsOk, wakeState_mems]

theorem standbyCommand_mems (s : State) : Mems s (standbyCommand s).2 := by
  unfold standbyCommand; grind [Mems, memsOk, refreshAlert_mems, enterStandby_mems]

theorem proofCommand_mems (s : State) : Mems s (proofCommand s).2 := by
  unfold proofCommand; grind [Mems, memsOk, railsDown_mems, dropJob_mems, beginProofing_mems]

theorem powerCommand_mems (v : Nat) (s : State) : Mems s (powerCommand v s).2 := by
  unfold powerCommand; grind [Mems, memsOk, sleepCommand_mems, wakeCommand_mems, standbyCommand_mems, proofCommand_mems]

end Sys2Proof.Machine
end

