-- ==== Sys2Proof/Laws/MemsSelfTest.lean ====
section
/-! SUPPORT. Operations of Machine/SelfTest.lean keep memories in canonical form (Laws/Mems.lean). -/

namespace Sys2Proof.Machine

theorem reserveSave_mems (hs : List Nat) (s : State) : Mems s (reserveSave hs s) := by
  unfold reserveSave; exact mems_of rfl rfl rfl

theorem selfTestCommand_mems (mode target : Nat) (s : State) : Mems s (selfTestCommand mode target s).2 := by
  unfold selfTestCommand; grind [Mems, memsOk, reserveSave_mems]

theorem endTest_mems (st : Nat) (s : State) : Mems s (endTest st s) := by
  unfold endTest; grind [Mems, memsOk]

theorem sliceDone_mems (s : State) : Mems s (sliceDone s) := by
  unfold sliceDone; grind [Mems, memsOk, bump_mems, endTest_mems]

theorem sliceFailed_mems (u k : Nat) (r : BistResult) (s : State) : Mems s (sliceFailed u k r s) := by
  unfold sliceFailed; grind [Mems, memsOk, bump_mems, logAdd_mems, fenceCore_mems, cellOut_mems, endTest_mems]

theorem saveLost_mems (u k : Nat) (s : State) : Mems s (saveLost u k s) := by
  unfold saveLost; grind [Mems, memsOk, bump_mems, takeFree_mems, logAdd_mems, abortOwn_mems, setCore_ok, core_tile_wf, core_side_wf, memStore_wf]

theorem runSlice_mems (u k : Nat) (r : BistResult) (s : State) : Mems s (runSlice u k r s) := by
  unfold runSlice; grind [Mems, memsOk, sliceDone_mems, sliceFailed_mems, saveLost_mems]

theorem bistSliceState_mems (r : BistResult) (s : State) : Mems s (bistSliceState r s) := by
  unfold bistSliceState; grind [Mems, memsOk, runSlice_mems]

end Sys2Proof.Machine
end

