-- ==== Sys2Proof/Laws/MemsEdp.lean ====
section
/-! SUPPORT. Operations of Machine/Edp.lean keep memories in canonical form (Laws/Mems.lean). -/

namespace Sys2Proof.Machine

theorem answer_mems (status idx sub ty : Nat) (s : State) : Mems s (answer status idx sub ty s).2.1 := by
  unfold answer; grind [Mems, memsOk]

theorem countBad_mems (s : State) : Mems s (countBad s) := by
  unfold countBad; grind [Mems, memsOk, bump_mems]

theorem countReplay_mems (s : State) : Mems s (countReplay s) := by
  unfold countReplay; grind [Mems, memsOk, bump_mems]

theorem relayOut_mems (h : EdpHdr) (body : EdpBody) (s : State) : Mems s (relayOut h body s) := by
  unfold relayOut; grind [Mems, memsOk, bump_mems, send_mems, injectPacket_mems]

theorem lastSeq_mems (h : EdpHdr) (s : State) : Mems s (lastSeq h s) := by
  unfold lastSeq; grind [Mems, memsOk, closeSession_mems]

theorem sendAck_mems (h : EdpHdr) (a : Ack) (s : State) : Mems s (sendAck h a s) := by
  unfold sendAck; grind [Mems, memsOk, send_mems, injectPacket_mems]

theorem cacheAck_mems (h : EdpHdr) (body : EdpBody) (a : Ack) (s : State) : Mems s (cacheAck h body a s) := by
  unfold cacheAck; grind [Mems, memsOk, setSession_mems]

theorem returnPages_mems (s : State) : Mems s (returnPages s) := by
  unfold returnPages; grind [Mems, memsOk]

theorem finishRequest_mems (h : EdpHdr) (body : EdpBody) (r : Served) : Mems r.2.1 (finishRequest h body r) := by
  unfold finishRequest
  grind [Mems, memsOk, returnPages_mems, lastSeq_mems, mems_foldl, closeSession_mems, sendAck_mems, cacheAck_mems]

/-- A message is served as its request is: what the request's effect obeys, the whole obeys. -/
theorem serveIn_looseM {Q : State → State → Prop} (hQ : LooseM Q) (h : EdpHdr) (body : EdpBody)
    (act : Option Session → State → Served) (ha : ∀ x s, Q s (act x s).2.1) (x : Session) (s : State) :
    Q s (serveIn h body act x s) := by
  unfold serveIn
  split
  · split
    · exact hQ.of (sendAck_mems _ _ s)
    · exact hQ.of (countReplay_mems s)
  · dsimp only
    split
    · exact hQ.of (countReplay_mems s)
    · exact hQ.trans (hQ.trans (hQ.of (setSession_mems _ s)) (ha _ _)) (hQ.of (finishRequest_mems _ _ _))

theorem denied_mems (body : EdpBody) (s : State) : Mems s (denied body s).2.1 := by
  unfold denied; grind [Mems, memsOk, answer_mems]

theorem bootServe_looseM {Q : State → State → Prop} (hQ : LooseM Q) (h : EdpHdr) (body : EdpBody) (size : Nat)
    (act : Option Session → State → Served) (ha : ∀ x s, Q s (act x s).2.1) (s : State) :
    Q s (bootServe h body size act s) := by
  have key (b : Bool) : Q s (if b = true then act none s else denied body s).2.1 := by
    cases b
    · exact hQ.of (denied_mems _ _)
    · exact ha _ _
  unfold bootServe
  split
  · exact hQ.trans (key _) (hQ.of (sendAck_mems _ _ _))
  · exact hQ.of (Mems.refl s)

theorem receive_over_mems {h : EdpHdr} {body : EdpBody} {size : Nat} {s t : State} (e : receive h body size s = .over t) :
    Mems s t := by
  unfold receive at e; grind [Mems, memsOk, countBad_mems, relayOut_mems, setSession_mems]

theorem receive_inSession_mems {h : EdpHdr} {body : EdpBody} {size : Nat} {s t : State} {x : Session}
    (e : receive h body size s = .inSession x t) : Mems s t := by
  unfold receive at e; grind [Mems, memsOk, setSession_mems]

theorem serveSized_looseM {Q : State → State → Prop} (hQ : LooseM Q) (h : EdpHdr) (body : EdpBody) (size : Nat)
    (act : Option Session → State → Served) (ha : ∀ x s, Q s (act x s).2.1) (s : State) :
    Q s (serveSized h body size act s) := by
  unfold serveSized
  split
  · exact bootServe_looseM hQ _ _ _ _ ha s
  · split
    · next e => exact hQ.of (receive_over_mems e)
    · next e =>
      cases receive_zero e
      have key (b : Bool) : Q s (if b = true then act none s else denied body s).2.1 := by
        cases b
        · exact hQ.of (denied_mems _ _)
        · exact ha _ _
      exact hQ.trans (key _) (hQ.of (sendAck_mems _ _ _))
    · next e => exact hQ.trans (hQ.of (receive_inSession_mems e)) (serveIn_looseM hQ h body act ha _ _)

theorem serve_looseM {Q : State → State → Prop} (hQ : LooseM Q) (h : EdpHdr) (body : EdpBody)
    (act : Option Session → State → Served) (ha : ∀ x s, Q s (act x s).2.1) (s : State) : Q s (serve h body act s) :=
  serveSized_looseM hQ h body _ act ha s

theorem readAct_mems (idx sub lim : Nat) (x : Option Session) (s : State) : Mems s (readAct idx sub lim x s).2.1 := by
  unfold readAct; grind [Mems, memsOk, answer_mems]

theorem readBlockAct_mems (idx sub off len lim : Nat) (x : Option Session) (s : State) : Mems s (readBlockAct idx sub off len lim x s).2.1 := by
  unfold readBlockAct; grind [Mems, memsOk, answer_mems]

theorem writeWith_looseM {Q : State → State → Prop} (hQ : LooseM Q) (idx sub ty : Nat) (val : Bytes)
    (eff : Session → State → Nat × State × List (BitVec 32)) (he : ∀ x s, Q s (eff x s).2.1) (x : Option Session)
    (s : State) : Q s (writeWith idx sub ty val eff x s).2.1 := by
  have hr (n a b c : Nat) : Q s (answer n a b c s).2.1 := hQ.of (answer_mems _ _ _ _ s)
  unfold writeWith
  grind

theorem consumeSlot_mems (k q : Nat) (s : State) : Mems s (consumeSlot k q s).2 := by
  unfold consumeSlot; grind [Mems, memsOk]

theorem clearLog_mems (v : Nat) (s : State) : Mems s (clearLog v s) := by
  unfold clearLog; grind [Mems, memsOk]

theorem takeNonce_mems (x : Session) (nonce : Bytes) (s : State) : Mems s (takeNonce x nonce s) := by
  unfold takeNonce; grind [Mems, memsOk, setSession_mems]

theorem reconfigureCommand_mems (s : State) : Mems s (reconfigureCommand s).2 := by
  unfold reconfigureCommand; grind [Mems, memsOk, reconfigureState_mems]

theorem laneMaskState_mems (p : Nat) (val : Bytes) (s : State) : Mems s (laneMaskState p val s) := by
  unfold laneMaskState; grind [Mems, memsOk, send_mems, setPort_mems, laneFailureState_mems, storeEntry_mems]

theorem jobCommand_mems (v : Nat) (s : State) : Mems s (jobCommand v s).2 := by
  unfold jobCommand; grind [Mems, memsOk, loadCommand_mems, pauseCommand_mems, resumeCommand_mems, checkpointCommand_mems, stopCommand_mems, abortStepCommand_mems]

theorem entryEffect_mems (idx sub : Nat) (val : Bytes) (x : Session) (s : State) : Mems s (entryEffect idx sub val x s).2.1 := by
  unfold entryEffect noClose
  grind [Mems, memsOk, powerCommand_mems, selfTestCommand_mems, consumeSlot_mems, clearLog_mems, takeNonce_mems,
    reconfigureCommand_mems, laneMaskState_mems, jobCommand_mems, storeEntry_mems]

theorem putHold_mems (d : Hold) (s : State) : Mems s (putHold d s) := by
  unfold putHold; grind [Mems, memsOk]

theorem dropHold_mems (idx sub : Nat) (s : State) : Mems s (dropHold idx sub s) := by
  unfold dropHold; grind [Mems, memsOk]

theorem addChunk_looseM {Q : State → State → Prop} (hQ : LooseM Q) (d : Hold) (off : Nat) (final : Bool) (data : Bytes)
    (fin : Bytes → State → Nat × State × List (BitVec 32)) (hf : ∀ v s, Q s (fin v s).2.1) (s : State) :
    Q s (addChunk d off final data fin s).2.1 := by
  unfold addChunk
  dsimp only
  split
  · exact hQ.trans (hQ.of (dropHold_mems _ _ s)) (hf _ _)
  · exact hQ.of ((putHold_mems _ s).trans (answer_mems _ _ _ _ _))

theorem chunkAct_looseM {Q : State → State → Prop} (hQ : LooseM Q) (idx sub ty off total : Nat) (final : Bool) (data : Bytes)
    (first : State → Nat × State) (fin : Session → Bytes → State → Nat × State × List (BitVec 32))
    (h1 : ∀ s, Mems s (first s).2) (hf : ∀ x v s, Q s (fin x v s).2.1) (x : Option Session) (s : State) :
    Q s (chunkAct idx sub ty off total final data first fin x s).2.1 := by
  have hr (n a b c : Nat) (s : State) : Mems s (answer n a b c s).2.1 := answer_mems _ _ _ _ s
  unfold chunkAct
  split
  · exact hQ.of (hr _ _ _ _ s)
  · dsimp only
    split
    · exact hQ.of (hr _ _ _ _ s)
    · split
      · exact hQ.of (hr _ _ _ _ s)
      · split
        · exact hQ.of (hr _ _ _ _ s)
        · split
          · split
            · exact hQ.of (hr _ _ _ _ s)
            · exact addChunk_looseM hQ _ _ _ _ _ (hf _) _
          · split
            · next e => exact hQ.trans (hQ.of (by simpa [e] using h1 s)) (addChunk_looseM hQ _ _ _ _ _ (hf _) _)
            · next e => exact hQ.of ((by simpa [e] using h1 s : Mems s _).trans (hr _ _ _ _ _))

theorem finishBlock_mems (idx sub ty : Nat) (x : Session) (val : Bytes) (s : State) : Mems s (finishBlock idx sub ty x val s).2.1 := by
  unfold finishBlock; grind [Mems, memsOk, entryEffect_mems]

theorem stagingPages_mems (need : Nat) (s : State) : Mems s (stagingPages need s).2 := by
  unfold stagingPages; grind [Mems, memsOk, mems_foldl]

theorem stagingFirst_mems (total : Nat) (s : State) : Mems s (stagingFirst total s).2 := by
  unfold stagingFirst
  split
  · exact stagingPages_mems _ s
  · split
    · exact Mems.refl s
    · exact Mems.refl s

theorem stagingDone_mems (content : Container) (val : Bytes) (s : State) : Mems s (stagingDone content val s).2.1 := by
  unfold stagingDone; grind [Mems, memsOk]

theorem putSub_mems (k : Nat) (y : Subscription) (s : State) : Mems s (putSub k y s) := by
  unfold putSub; grind [Mems, memsOk]

theorem subscribeAct_mems (h : EdpHdr) (kinds classes : BitVec 16) (x : Option Session) (s : State) : Mems s (subscribeAct h kinds classes x s).2.1 := by
  unfold subscribeAct; grind [Mems, memsOk, answer_mems, putSub_mems]

theorem ackEvent_mems (sid : BitVec 32) (n : Nat) (s : State) : Mems s (ackEvent sid n s) := by
  unfold ackEvent; grind [Mems, memsOk, pump_mems, putSub_mems]

theorem serveAck_mems (h : EdpHdr) (n : Nat) (s : State) : Mems s (serveAck h n s) := by
  unfold serveAck
  split
  · exact Mems.refl s
  · split
    · next e => exact receive_over_mems e
    · next e => exact receive_zero e ▸ Mems.refl _
    · next e =>
      refine (receive_inSession_mems e).trans ?_
      split
      · exact countReplay_mems _
      · exact ((setSession_mems _ _).trans (ackEvent_mems _ _ _)).trans (lastSeq_mems _ _)

theorem dropEventAt_mems (k : Nat) (y : Subscription) (e : Event) (s : State) : Mems s (dropEventAt k y e s) := by
  unfold dropEventAt; grind [Mems, memsOk, bump_mems, pump_mems, putSub_mems]

theorem resendState_mems (k n : Nat) (s : State) : Mems s (resendState k n s) := by
  unfold resendState; grind [Mems, memsOk, send_mems, putSub_mems, dropEventAt_mems]

theorem bodyAct_mems (h : EdpHdr) (body : EdpBody) (x : Option Session) (s : State) :
    Mems s (bodyAct h body x s).2.1 := by
  unfold bodyAct
  split
  · exact readAct_mems _ _ _ x s
  · exact writeWith_looseM loose_mems _ _ _ _ _ (fun x s => entryEffect_mems _ _ _ x s) x s
  · exact readBlockAct_mems _ _ _ _ _ x s
  · exact chunkAct_looseM loose_mems _ _ _ _ _ _ _ _ _ Mems.refl (fun x v s => finishBlock_mems _ _ _ x v s) x s
  · exact subscribeAct_mems _ _ _ x s
  · exact answer_mems _ _ _ _ s

theorem serveBody_mems (h : EdpHdr) (body : EdpBody) (s : State) : Mems s (serveBody h body s) := by
  unfold serveBody
  split
  · exact serveAck_mems _ _ s
  · exact serve_looseM loose_mems _ _ _ (bodyAct_mems _ _) s

theorem relayPacketState_mems (dev : Nat) (h : EdpHdr) (body : EdpBody) (s : State) : Mems s (relayPacketState dev h body s) := by
  unfold relayPacketState; grind [Mems, memsOk, send_mems, serveBody_mems]

theorem keepHello_mems (r : HelloRec) (s : State) : Mems s (keepHello r s) := by
  unfold keepHello; grind [Mems, memsOk]

theorem helloAct_mems (h : EdpHdr) (hello : Hello) (x : Option Session) (s : State) : Mems s (helloAct h hello x s).2.1 := by
  unfold helloAct; grind [Mems, memsOk, answerHello_mems, answer_mems, keepHello_mems]

theorem statementAct_mems (sub : Nat) (st : Statement) (x : Option Session) (s : State) : Mems s (statementAct sub st x s).2.1 := by
  unfold statementAct; grind [Mems, memsOk, takeStatement_mems, answer_mems]

theorem writeCommand_mems (h : EdpHdr) (idx sub ty : Nat) (val : Bytes)
    (eff : Session → State → Nat × State × List (BitVec 32)) (he : ∀ x s, Mems s (eff x s).2.1) (s : State) :
    Mems s (writeCommand h idx sub ty val eff s) :=
  serve_looseM loose_mems _ _ _ (writeWith_looseM loose_mems _ _ _ _ _ he) s

theorem codeCommand_mems (h : EdpHdr) (idx sub v : Nat) (f : State → Nat × State) (hf : ∀ s, Mems s (f s).2)
    (s : State) : Mems s (codeCommand h idx sub v f s) :=
  writeCommand_mems _ _ _ _ _ _ (fun _ s => hf s) s

theorem statementCommand_mems (h : EdpHdr) (sub : Nat) (st : Statement) (s : State) :
    Mems s (statementCommand h sub st s) :=
  serveSized_looseM loose_mems _ _ _ _ (statementAct_mems _ _) s

theorem ordinary_mems (h : EdpHdr) (body : EdpBody) (s : State) : Mems s (ordinary h body s) := by
  unfold ordinary; grind [Mems, memsOk, serveBody_mems]

theorem idleTimeoutState_mems (sid : BitVec 32) (s : State) : Mems s (idleTimeoutState sid s) := by
  unfold idleTimeoutState; grind [Mems, memsOk, closeSession_mems, returnPages_mems]

theorem tagTimeoutState_mems (sid : BitVec 32) (s : State) : Mems s (tagTimeoutState sid s) := by
  unfold tagTimeoutState; grind [Mems, memsOk, closeSession_mems, returnPages_mems]

theorem holdTimeoutState_mems (idx sub : Nat) (s : State) : Mems s (holdTimeoutState idx sub s) := by
  unfold holdTimeoutState; grind [Mems, memsOk, returnPages_mems, dropHold_mems]

theorem relayExpiryState_mems (target : Nat) (sid : BitVec 32) (n : Nat) (s : State) : Mems s (relayExpiryState target sid n s) := by
  unfold relayExpiryState; grind [Mems, memsOk]

end Sys2Proof.Machine
end

