-- ==== Sys2Proof/Laws/MemsExec.lean ====
section
/-! SUPPORT. Every command keeps the byte memories in canonical form (Laws/Mems.lean). -/

namespace Sys2Proof.Machine

theorem execCollectiveStart_mems (coll mb : Nat) (s : State) {t : State}
    (h : execCollectiveStart coll mb s = .next t) : Mems s t := by
  cases h; exact collStartState_mems _ _ _

theorem execCollectivePacket_mems (p : Packet) (s : State) {t : State}
    (h : execCollectivePacket p s = .next t) : Mems s t := by
  cases h; exact collPacketState_mems _ _

theorem execCollectiveComplete_mems (coll : Nat) (s : State) {t : State}
    (h : execCollectiveComplete coll s = .next t) : Mems s t := by
  cases h; exact collectiveCompleteState_mems _ _

theorem execStreamCreditReport_mems (core ctx : Nat) (r : CreditReport) (s : State) {t : State}
    (h : execStreamCreditReport core ctx r s = .next t) : Mems s t := by
  cases h; exact creditPacketState_mems _ _ _ _ _ _

theorem execCommitPhaseOne_mems (s : State) {t : State}
    (h : execCommitPhaseOne s = .next t) : Mems s t := by
  cases h; exact phaseOneState_mems _

theorem execPrepare_mems (m : CommitMsg) (s : State) {t : State}
    (h : execPrepare m s = .next t) : Mems s t := by
  cases h; grind [Mems, memsOk, keepMsg_mems, prepareState_mems]

theorem execCommit_mems (m : CommitMsg) (s : State) {t : State}
    (h : execCommit m s = .next t) : Mems s t := by
  cases h; exact commitState_mems _ _

theorem execAbort_mems (m : CommitMsg) (s : State) {t : State}
    (h : execAbort m s = .next t) : Mems s t := by
  cases h; grind [Mems, memsOk, keepMsg_mems, abortState_mems]

theorem execAbortReq_mems (m : CommitMsg) (s : State) {t : State}
    (h : execAbortReq m s = .next t) : Mems s t := by
  cases h; grind [Mems, memsOk, keepMsg_mems, abortReqState_mems]

theorem execQuery_mems (m : CommitMsg) (s : State) {t : State}
    (h : execQuery m s = .next t) : Mems s t := by
  cases h; grind [Mems, memsOk, keepMsg_mems, queryState_mems]

theorem execDecision_mems (m : CommitMsg) (s : State) {t : State}
    (h : execDecision m s = .next t) : Mems s t := by
  cases h; exact decisionState_mems _ _

theorem execHalt_mems (m : CommitMsg) (s : State) {t : State}
    (h : execHalt m s = .next t) : Mems s t := by
  cases h; exact haltState_mems _ _

theorem execHigherAttempt_mems (m : CommitMsg) (isAbort : Bool) (data : Option Packet) (s : State) {t : State}
    (h : execHigherAttempt m isAbort data s = .next t) : Mems s t := by
  cases h; exact higherState_mems _ _ _ _

theorem execPartnerSilent_mems (wait : WaitKind) (partner item detail : Nat) (s : State) {t : State}
    (h : execPartnerSilent wait partner item detail s = .next t) : Mems s t := by
  cases h; exact partnerSilentState_mems _ _ _ _ _

theorem execCommitOutcomeSilence_mems (s : State) {t : State}
    (h : execCommitOutcomeSilence s = .next t) : Mems s t := by
  cases h; exact outcomeSilenceState_mems _

theorem execDigestExchange_mems (sender : Nat) (digest : W64) (s : State) {t : State}
    (h : execDigestExchange sender digest s = .next t) : Mems s t := by
  cases h; exact digestState_mems _ _ _

theorem execMatrixOperation_mems (core : Nat) (s : State) {t : State}
    (h : execMatrixOperation core s = .next t) : Mems s t := by
  cases h; exact matrixState_mems _ _

theorem execMatrixOperationComplete_mems (core : Nat) (s : State) {t : State}
    (h : execMatrixOperationComplete core s = .next t) : Mems s t := by
  cases h; exact matrixCompleteState_mems _ _

theorem execSplitKCombine_mems (core level : Nat) (s : State) {t : State}
    (h : execSplitKCombine core level s = .next t) : Mems s t := by
  cases h; exact combineState_mems _ _ _

theorem execVectorInstruction_mems (core : Nat) (s : State) {t : State}
    (h : execVectorInstruction core s = .next t) : Mems s t := by
  cases h; exact vectorState_mems _ _

theorem execRowOperation_mems (core : Nat) (s : State) {t : State}
    (h : execRowOperation core s = .next t) : Mems s t := by
  cases h; exact rowState_mems _ _

theorem execGroupBarrier_mems (core : Nat) (s : State) {t : State}
    (h : execGroupBarrier core s = .next t) : Mems s t := by
  cases h; exact barrierState_mems _ _

theorem execSidelineTransfer_mems (core : Nat) (s : State) {t : State}
    (h : execSidelineTransfer core s = .next t) : Mems s t := by
  cases h; exact sidelineState_mems _ _

theorem execStreamAdmission_mems (core : Nat) (s : State) {t : State}
    (h : execStreamAdmission core s = .next t) : Mems s t := by
  cases h; exact admissionState_mems _ _

theorem execDataTileFetch_mems (core ctx : Nat) (corr : Option Corrected) (s : State) {t : State}
    (h : execDataTileFetch core ctx corr s = .next t) : Mems s t := by
  cases h; exact tileFetchState_mems _ _ _ _

theorem execStreamRetire_mems (core ctx : Nat) (s : State) {t : State}
    (h : execStreamRetire core ctx s = .next t) : Mems s t := by
  cases h; exact retireState_mems _ _ _

theorem execStreamStall_mems (core ctx : Nat) (s : State) {t : State}
    (h : execStreamStall core ctx s = .next t) : Mems s t := by
  cases h; exact streamStallState_mems _ _ _

theorem execPantryPrefetch_mems (core ctx : Nat) (s : State) {t : State}
    (h : execPantryPrefetch core ctx s = .next t) : Mems s t := by
  cases h; exact prefetchState_mems _ _ _

theorem execTranslationMiss_mems (core ctx : Nat) (va : Nat) (write : Bool) (s : State) {t : State}
    (h : execTranslationMiss core ctx va write s = .next t) : Mems s t := by
  cases h; exact missState_mems _ _ _ _ _

theorem execItemDrainComplete_mems (group : Nat) (s : State) {t : State}
    (h : execItemDrainComplete group s = .next t) : Mems s t := by
  cases h; exact drainState_mems _ _

theorem execTranslationMapped_mems (group va : Nat) (s : State) {t : State}
    (h : execTranslationMapped group va s = .next t) : Mems s t := by
  cases h; exact mappedState_mems _ _ _

theorem execWorkItemReplay_mems (group : Nat) (s : State) {t : State}
    (h : execWorkItemReplay group s = .next t) : Mems s t := by
  cases h; exact replayItemState_mems _ _

theorem execReplayBoundExpiry_mems (group : Nat) (s : State) {t : State}
    (h : execReplayBoundExpiry group s = .next t) : Mems s t := by
  cases h; exact replayBoundState_mems _ _

theorem execRecipeStaging_mems (h : EdpHdr) (off total : Nat) (final : Bool) (data : Bytes) (content : Container) (s : State) {t : State}
    (h : execRecipeStaging h off total final data content s = .next t) : Mems s t := by
  cases h; exact serve_looseM loose_mems _ _ _
    (chunkAct_looseM loose_mems _ _ _ _ _ _ _ _ _ (stagingFirst_mems _) (fun _ v s => stagingDone_mems _ v s)) s

theorem execWriteEntry_mems (h : EdpHdr) (idx sub ty : Nat) (val : Bytes) (s : State) {t : State}
    (h : execWriteEntry h idx sub ty val s = .next t) : Mems s t := by
  unfold execWriteEntry at h; grind [Mems, memsOk, ordinary_mems]

theorem execRead_mems (h : EdpHdr) (idx sub : Nat) (s : State) {t : State}
    (h : execRead h idx sub s = .next t) : Mems s t := by
  cases h; exact serve_looseM loose_mems _ _ _ (readAct_mems _ _ _) s

theorem execReadBlock_mems (h : EdpHdr) (idx sub off len : Nat) (s : State) {t : State}
    (h : execReadBlock h idx sub off len s = .next t) : Mems s t := by
  cases h; exact serve_looseM loose_mems _ _ _ (readBlockAct_mems _ _ _ _ _) s

theorem execWriteBlock_mems (h : EdpHdr) (idx sub ty off total : Nat) (final : Bool) (data : Bytes) (s : State) {t : State}
    (h : execWriteBlock h idx sub ty off total final data s = .next t) : Mems s t := by
  unfold execWriteBlock at h; grind [Mems, memsOk, ordinary_mems]

theorem execSubscribe_mems (h : EdpHdr) (kinds classes : BitVec 16) (s : State) {t : State}
    (h : execSubscribe h kinds classes s = .next t) : Mems s t := by
  cases h; exact serve_looseM loose_mems _ _ _ (subscribeAct_mems _ _ _) s

theorem execEventAck_mems (h : EdpHdr) (ackSeq : Nat) (s : State) {t : State}
    (h : execEventAck h ackSeq s = .next t) : Mems s t := by
  cases h; exact serveAck_mems _ _ _

theorem execEventResendTimer_mems (sub evSeq : Nat) (s : State) {t : State}
    (h : execEventResendTimer sub evSeq s = .next t) : Mems s t := by
  cases h; exact resendState_mems _ _ _

theorem execRelayRequest_mems (h : EdpHdr) (body : EdpBody) (s : State) {t : State}
    (h : execRelayRequest h body s = .next t) : Mems s t := by
  cases h; exact ordinary_mems _ _ _

theorem execRelayPacket_mems (dev : Nat) (h : EdpHdr) (body : EdpBody) (s : State) {t : State}
    (h : execRelayPacket dev h body s = .next t) : Mems s t := by
  cases h; exact relayPacketState_mems _ _ _ _

theorem execRelayRecordExpiry_mems (target : Nat) (session : BitVec 32) (seq : Nat) (s : State) {t : State}
    (h : execRelayRecordExpiry target session seq s = .next t) : Mems s t := by
  cases h; exact relayExpiryState_mems _ _ _ _

theorem execSessionIdleTimeout_mems (sid : BitVec 32) (s : State) {t : State}
    (h : execSessionIdleTimeout sid s = .next t) : Mems s t := by
  cases h; exact idleTimeoutState_mems _ _

theorem execHelloTagTimeout_mems (sid : BitVec 32) (s : State) {t : State}
    (h : execHelloTagTimeout sid s = .next t) : Mems s t := by
  cases h; exact tagTimeoutState_mems _ _

theorem execWriteBlockHoldTimeout_mems (idx sub : Nat) (s : State) {t : State}
    (h : execWriteBlockHoldTimeout idx sub s = .next t) : Mems s t := by
  cases h; exact holdTimeoutState_mems _ _ _

theorem execReconfigure_mems (h : EdpHdr) (s : State) {t : State}
    (h : execReconfigure h s = .next t) : Mems s t := by
  cases h; exact codeCommand_mems _ _ _ _ _ reconfigureCommand_mems s

theorem execPortTrainTimeout_mems (port : Nat) (s : State) {t : State}
    (h : execPortTrainTimeout port s = .next t) : Mems s t := by
  cases h; exact trainTimeoutState_mems _ _

theorem execLaneMaskWrite_mems (h : EdpHdr) (port mask : Nat) (s : State) {t : State}
    (h : execLaneMaskWrite h port mask s = .next t) : Mems s t := by
  cases h; exact writeCommand_mems _ _ _ _ _ _ (fun _ s => laneMaskState_mems _ _ s) s

theorem execCoordinateWrite_mems (h : EdpHdr) (sub value : Nat) (s : State) {t : State}
    (h : execCoordinateWrite h sub value s = .next t) : Mems s t := by
  cases h; exact writeCommand_mems _ _ _ _ _ _ (fun _ s => storeEntry_mems _ _ _ s) s

theorem execSpareSubstitution_mems (h : EdpHdr) (port value : Nat) (s : State) {t : State}
    (h : execSpareSubstitution h port value s = .next t) : Mems s t := by
  cases h; exact writeCommand_mems _ _ _ _ _ _ (fun _ s => storeEntry_mems _ _ _ s) s

theorem execLaneFailure_mems (port : Nat) (s : State) {t : State}
    (h : execLaneFailure port s = .next t) : Mems s t := by
  cases h; exact laneFailureState_mems _ _

theorem execRetrainComplete_mems (port lanes : Nat) (s : State) {t : State}
    (h : execRetrainComplete port lanes s = .next t) : Mems s t := by
  cases h; exact retrainState_mems _ _ _

theorem execPortDown_mems (port : Nat) (s : State) {t : State}
    (h : execPortDown port s = .next t) : Mems s t := by
  cases h; exact portDownState_mems _ _

theorem execLinkStateAnnouncement_mems (dev port : Nat) (up : Bool) (s : State) {t : State}
    (h : execLinkStateAnnouncement dev port up s = .next t) : Mems s t := by
  cases h; exact linkStateState_mems _ _ _ _

theorem execDownPortRetry_mems (port : Nat) (ok : Bool) (s : State) {t : State}
    (h : execDownPortRetry port ok s = .next t) : Mems s t := by
  cases h; exact downRetryState_mems _ _ _

theorem execPacketForward_mems (inPort : Option LinkIn) (p : Packet) (s : State) {t : State}
    (h : execPacketForward inPort p s = .next t) : Mems s t := by
  cases h; exact forwardState_mems _ _ _

theorem execLinkReplayRequest_mems (port seqNo : Nat) (s : State) {t : State}
    (h : execLinkReplayRequest port seqNo s = .next t) : Mems s t := by
  cases h; exact replayState_mems _ _ _

theorem execHush_mems (port : Nat) (s : State) {t : State}
    (h : execHush port s = .next t) : Mems s t := by
  cases h; exact hushState_mems _ _

theorem execHushLapse_mems (port : Nat) (s : State) {t : State}
    (h : execHushLapse port s = .next t) : Mems s t := by
  cases h; exact hushLapseState_mems _ _

theorem execOverlongHush_mems (port : Nat) (s : State) {t : State}
    (h : execOverlongHush port s = .next t) : Mems s t := by
  cases h; exact overlongState_mems _ _

theorem execIdentityExchange_mems (port : Nat) (id : Identity) (s : State) {t : State}
    (h : execIdentityExchange port id s = .next t) : Mems s t := by
  cases h; exact identityExchangeState_mems _ _ _

theorem execLinkAcknowledgment_mems (port seqNo : Nat) (s : State) {t : State}
    (h : execLinkAcknowledgment port seqNo s = .next t) : Mems s t := by
  cases h; exact linkAckState_mems _ _ _

theorem execLinkCreditReturn_mems (port vl cls flits : Nat) (s : State) {t : State}
    (h : execLinkCreditReturn port vl cls flits s = .next t) : Mems s t := by
  cases h; exact creditState_mems _ _ _ _ _

theorem execHushHoldEnd_mems (port : Nat) (s : State) {t : State}
    (h : execHushHoldEnd port s = .next t) : Mems s t := by
  cases h; exact hushHoldEndState_mems _ _

theorem execIngestPacking_mems (s : State) {t : State}
    (h : execIngestPacking s = .next t) : Mems s t := by
  cases h; exact ingestState_mems _

theorem execNvmeReadComplete_mems (cid status : Nat) (data : Bytes) (s : State) {t : State}
    (h : execNvmeReadComplete cid status data s = .next t) : Mems s t := by
  cases h; exact readCompleteState_mems _ _ _ _

theorem execNvmeReadTimeout_mems (cid status : Nat) (s : State) {t : State}
    (h : execNvmeReadTimeout cid status s = .next t) : Mems s t := by
  cases h; exact readTimeoutState_mems _ _ _

theorem execNvmeKeepAlive_mems (tgt : Nat) (s : State) {t : State}
    (h : execNvmeKeepAlive tgt s = .next t) : Mems s t := by
  cases h; exact keepAliveState_mems _ _

theorem execIngestBoundExpiry_mems (late : Nat) (s : State) {t : State}
    (h : execIngestBoundExpiry late s = .next t) : Mems s t := by
  cases h; exact ingestBoundState_mems _ _

theorem execSplitNotice_mems (src step : Nat) (samples : List SplitEntry) (s : State) {t : State}
    (h : execSplitNotice src step samples s = .next t) : Mems s t := by
  cases h; exact splitNoticeState_mems _ _ _ _

theorem execHostPortLinkLoss_mems (port : Nat) (s : State) {t : State}
    (h : execHostPortLinkLoss port s = .next t) : Mems s t := by
  cases h; exact linkLossState_mems _ _

theorem execHostPortLinkUp_mems (port : Nat) (s : State) {t : State}
    (h : execHostPortLinkUp port s = .next t) : Mems s t := by
  cases h; exact hostUpState_mems _ _

theorem execCongestionNotification_mems (conn : Nat) (s : State) {t : State}
    (h : execCongestionNotification conn s = .next t) : Mems s t := by
  cases h; exact congestionState_mems _ _

theorem execEthernetFrameReceived_mems (f : Frame) (s : State) {t : State}
    (h : execEthernetFrameReceived f s = .next t) : Mems s t := by
  cases h; exact frameState_mems _ _

theorem execPfcFrame_mems (port prio : Nat) (quanta : Nat) (s : State) {t : State}
    (h : execPfcFrame port prio quanta s = .next t) : Mems s t := by
  cases h; exact pfcState_mems _ _ _ _

theorem execResponseTimeout_mems (slot : Nat) (s : State) {t : State}
    (h : execResponseTimeout slot s = .next t) : Mems s t := by
  cases h; exact responseLost_mems _ _ _

theorem execResponseWriteRejected_mems (slot : Nat) (s : State) {t : State}
    (h : execResponseWriteRejected slot s = .next t) : Mems s t := by
  cases h; exact responseLost_mems _ _ _

theorem execInboxClientConnect_mems (addr : Nat) (s : State) {t : State}
    (h : execInboxClientConnect addr s = .next t) : Mems s t := by
  cases h; exact clientConnectState_mems _ _

theorem execLoad_mems (h : EdpHdr) (s : State) {t : State}
    (h : execLoad h s = .next t) : Mems s t := by
  cases h; exact codeCommand_mems _ _ _ _ _ loadCommand_mems s

theorem execStart_mems (h : EdpHdr) (inst : Install) (s : State) {t : State}
    (h : execStart h inst s = .next t) : Mems s t := by
  cases h; exact serve_looseM loose_mems _ _ _ (writeWith_looseM loose_mems _ _ _ _ _ (fun _ s => startCommand_mems _ s)) s

theorem execPause_mems (h : EdpHdr) (s : State) {t : State}
    (h : execPause h s = .next t) : Mems s t := by
  cases h; exact codeCommand_mems _ _ _ _ _ pauseCommand_mems s

theorem execResume_mems (h : EdpHdr) (s : State) {t : State}
    (h : execResume h s = .next t) : Mems s t := by
  cases h; exact codeCommand_mems _ _ _ _ _ resumeCommand_mems s

theorem execStop_mems (h : EdpHdr) (s : State) {t : State}
    (h : execStop h s = .next t) : Mems s t := by
  cases h; exact codeCommand_mems _ _ _ _ _ stopCommand_mems s

theorem execAbortStep_mems (h : EdpHdr) (s : State) {t : State}
    (h : execAbortStep h s = .next t) : Mems s t := by
  cases h; exact codeCommand_mems _ _ _ _ _ abortStepCommand_mems s

theorem execCheckpointNow_mems (h : EdpHdr) (s : State) {t : State}
    (h : execCheckpointNow h s = .next t) : Mems s t := by
  cases h; exact codeCommand_mems _ _ _ _ _ checkpointCommand_mems s

theorem execClearLogRing_mems (h : EdpHdr) (s : State) {t : State}
    (h : execClearLogRing h s = .next t) : Mems s t := by
  cases h; exact writeCommand_mems _ _ _ _ _ _ (fun _ s => clearLog_mems 1 s) s

theorem execClearFaultLog_mems (h : EdpHdr) (s : State) {t : State}
    (h : execClearFaultLog h s = .next t) : Mems s t := by
  cases h; exact writeCommand_mems _ _ _ _ _ _ (fun _ s => clearLog_mems 2 s) s

theorem execConsume_mems (h : EdpHdr) (slot seqNo : Nat) (s : State) {t : State}
    (h : execConsume h slot seqNo s = .next t) : Mems s t := by
  cases h; exact writeCommand_mems _ _ _ _ _ _ (fun _ s => consumeSlot_mems _ _ s) s

theorem execSramUncorrectable_mems (kind : SramKind) (unit : Nat) (r : WordRead) (s : State) {t : State}
    (h : execSramUncorrectable kind unit r s = .next t) : Mems s t := by
  cases h; exact sramState_mems _ _ _ _ _

theorem execGddr7Uncorrectable_mems (channel pa va : Nat) (reader : EccReader) (err : List SymErr) (s : State) {t : State}
    (h : execGddr7Uncorrectable channel pa va reader err s = .next t) : Mems s t := by
  cases h; exact gddrState_mems _ _ _ _ _ _

theorem execPatrolScrub_mems (block : Nat) (r : ScrubRead) (s : State) {t : State}
    (h : execPatrolScrub block r s = .next t) : Mems s t := by
  cases h; exact scrubState_mems _ _ _ _

theorem execCoreFenced_mems (phys : Nat) (s : State) {t : State}
    (h : execCoreFenced phys s = .next t) : Mems s t := by
  cases h; exact coreFencedState_mems _ _

theorem execPwrEnRise_mems (s : State) {t : State}
    (h : execPwrEnRise s = .next t) : Mems s t := by
  cases h; exact pwrEnRiseState_mems _

theorem execPwrEnFall_mems (s : State) {t : State}
    (h : execPwrEnFall s = .next t) : Mems s t := by
  cases h; exact pwrEnFallState_mems _

theorem execInterlockOpen_mems (s : State) {t : State}
    (h : execInterlockOpen s = .next t) : Mems s t := by
  cases h; exact interlockState_mems _

theorem execResetNAssert_mems (s : State) {t : State}
    (h : execResetNAssert s = .next t) : Mems s t := by
  cases h; exact resetAssertState_mems _

theorem execResetNRelease_mems (s : State) {t : State}
    (h : execResetNRelease s = .next t) : Mems s t := by
  cases h; exact resetReleaseState_mems _

theorem execStbyGood_mems (slotId : Nat) (bankAOk bankBOk : Bool) (s : State) {t : State}
    (h : execStbyGood slotId bankAOk bankBOk s = .next t) : Mems s t := by
  cases h; exact stbyGoodState_mems _ _ _ _

theorem execRailTimeout_mems (row hearth : Nat) (s : State) {t : State}
    (h : execRailTimeout row hearth s = .next t) : Mems s t := by
  cases h; exact railTimeoutState_mems _ _ _

theorem execRailFault_mems (row : Nat) (s : State) {t : State}
    (h : execRailFault row s = .next t) : Mems s t := by
  cases h; exact railFaultState_mems _ _

theorem execInputVoltageFault_mems (mv : Nat) (s : State) {t : State}
    (h : execInputVoltageFault mv s = .next t) : Mems s t := by
  unfold execInputVoltageFault at h; grind [Mems, memsOk, inputVoltageState_mems]

theorem execInputLoss_mems (s : State) {t : State}
    (h : execInputLoss s = .next t) : Mems s t := by
  cases h; exact inputLossState_mems _

theorem execOvercurrent_mems (s : State) {t : State}
    (h : execOvercurrent s = .next t) : Mems s t := by
  cases h; exact overcurrentState_mems _

theorem execThermalTrip_mems (s : State) {t : State}
    (h : execThermalTrip s = .next t) : Mems s t := by
  cases h; exact thermalTripState_mems _

theorem execGovernorDecision_mems (m : Meas) (s : State) {t : State}
    (h : execGovernorDecision m s = .next t) : Mems s t := by
  cases h; exact governorState_mems _ _

theorem execGatingHoldLimit_mems (group : Nat) (s : State) {t : State}
    (h : execGatingHoldLimit group s = .next t) : Mems s t := by
  cases h; exact gatingLimitState_mems _ _

theorem execAlertReleaseTimer_mems (s : State) {t : State}
    (h : execAlertReleaseTimer s = .next t) : Mems s t := by
  cases h; exact alertTimerState_mems _

theorem execPlcaBeaconLost_mems (s : State) {t : State}
    (h : execPlcaBeaconLost s = .next t) : Mems s t := by
  unfold execPlcaBeaconLost at h; grind [Mems, memsOk]

theorem execPlcaBeaconSeen_mems (s : State) {t : State}
    (h : execPlcaBeaconSeen s = .next t) : Mems s t := by
  unfold execPlcaBeaconSeen at h; grind [Mems, memsOk]

theorem execSleep_mems (h : EdpHdr) (s : State) {t : State}
    (h : execSleep h s = .next t) : Mems s t := by
  cases h; exact codeCommand_mems _ _ _ _ _ sleepCommand_mems s

theorem execWake_mems (h : EdpHdr) (s : State) {t : State}
    (h : execWake h s = .next t) : Mems s t := by
  cases h; exact codeCommand_mems _ _ _ _ _ wakeCommand_mems s

theorem execWakePacket_mems (src : Nat) (s : State) {t : State}
    (h : execWakePacket src s = .next t) : Mems s t := by
  unfold execWakePacket at h; grind [Mems, memsOk, wakeState_mems]

theorem execStandby_mems (h : EdpHdr) (s : State) {t : State}
    (h : execStandby h s = .next t) : Mems s t := by
  cases h; exact codeCommand_mems _ _ _ _ _ standbyCommand_mems s

theorem execProof_mems (h : EdpHdr) (s : State) {t : State}
    (h : execProof h s = .next t) : Mems s t := by
  cases h; exact codeCommand_mems _ _ _ _ _ proofCommand_mems s

theorem execProofing_mems (p : ProofInput) (s : State) {t : State}
    (h : execProofing p s = .next t) : Mems s t := by
  cases h; exact proofingState_mems _ _

theorem execSelfTestQueued_mems (h : EdpHdr) (target : Nat) (s : State) {t : State}
    (h : execSelfTestQueued h target s = .next t) : Mems s t := by
  cases h; exact writeCommand_mems _ _ _ _ _ _ (fun _ s => selfTestCommand_mems _ _ s) s

theorem execSelfTestImmediate_mems (h : EdpHdr) (target : Nat) (s : State) {t : State}
    (h : execSelfTestImmediate h target s = .next t) : Mems s t := by
  cases h; exact writeCommand_mems _ _ _ _ _ _ (fun _ s => selfTestCommand_mems _ _ s) s

theorem execBistSlice_mems (r : BistResult) (s : State) {t : State}
    (h : execBistSlice r s = .next t) : Mems s t := by
  cases h; exact bistSliceState_mems _ _

theorem execRootDelivery_mems (src weight side block slot due source : Nat) (head : RootHead) (tiles : Bytes) (s : State)
    {t : State}
    (h : execRootDelivery src weight side block slot due source head tiles s = .next t) : Mems s t := by
  cases h; exact rootDeliveryState_mems _ _ _ _ _ _ _ _ _ _ _ _

theorem execFactorFold_mems (s : State) {t : State}
    (h : execFactorFold s = .next t) : Mems s t := by
  cases h; exact factorFoldState_mems _

theorem execRootProblemAdmission_mems (prob : Nat) (s : State) {t : State}
    (h : execRootProblemAdmission prob s = .next t) : Mems s t := by
  cases h; exact admitRoot_mems _ _

theorem execBorrowedPiece_mems (prob : Nat) (s : State) {t : State}
    (h : execBorrowedPiece prob s = .next t) : Mems s t := by
  cases h; exact startPiece_mems _ _

theorem execBorrowedPieceComplete_mems (prob : Nat) (s : State) {t : State}
    (h : execBorrowedPieceComplete prob s = .next t) : Mems s t := by
  cases h; exact endPiece_mems _ _

theorem execRootProblemDecided_mems (prob : Nat) (s : State) {t : State}
    (h : execRootProblemDecided prob s = .next t) : Mems s t := by
  cases h; exact decideRoot_mems _ _

theorem execRootCommit_mems (prob : Nat) (s : State) {t : State}
    (h : execRootCommit prob s = .next t) : Mems s t := by
  cases h; exact commitRoot_mems _ _

theorem execRootDecisionMessage_mems (src weight side block : Nat) (att : StepAttempt) (slot : Nat) (outcome : RootOutcome) (s : State) {t : State}
    (h : execRootDecisionMessage src weight side block att slot outcome s = .next t) : Mems s t := by
  cases h; exact rootMessageState_mems _ _ _ _ _ _ _ _ _

theorem execRootDeliveryAck_mems (prob dev : Nat) (s : State) {t : State}
    (h : execRootDeliveryAck prob dev s = .next t) : Mems s t := by
  cases h; exact rootAck_mems _ _ _

theorem execCloseSession_mems (h : EdpHdr) (sid : BitVec 32) (s : State) {t : State}
    (h : execCloseSession h sid s = .next t) : Mems s t := by
  cases h; exact writeCommand_mems _ _ _ _ _ _ (fun _ s => Mems.refl s) s

theorem execClientHello_mems (h : EdpHdr) (hello : Hello) (s : State) {t : State}
    (h : execClientHello h hello s = .next t) : Mems s t := by
  cases h; exact serveSized_looseM loose_mems _ _ _ _ (helloAct_mems _ _) s

theorem execEnrolOwner_mems (h : EdpHdr) (st : Statement) (s : State) {t : State}
    (h : execEnrolOwner h st s = .next t) : Mems s t := by
  cases h; exact statementCommand_mems _ _ _ _

theorem execEnrolClient_mems (h : EdpHdr) (st : Statement) (s : State) {t : State}
    (h : execEnrolClient h st s = .next t) : Mems s t := by
  cases h; exact statementCommand_mems _ _ _ _

theorem execRelease_mems (h : EdpHdr) (st : Statement) (s : State) {t : State}
    (h : execRelease h st s = .next t) : Mems s t := by
  cases h; exact statementCommand_mems _ _ _ _

theorem execLock_mems (h : EdpHdr) (st : Statement) (s : State) {t : State}
    (h : execLock h st s = .next t) : Mems s t := by
  cases h; exact statementCommand_mems _ _ _ _

theorem execRevoke_mems (h : EdpHdr) (st : Statement) (s : State) {t : State}
    (h : execRevoke h st s = .next t) : Mems s t := by
  cases h; exact statementCommand_mems _ _ _ _

theorem execAttestationNonce_mems (h : EdpHdr) (nonce : Bytes) (s : State) {t : State}
    (h : execAttestationNonce h nonce s = .next t) : Mems s t := by
  cases h; exact writeCommand_mems _ _ _ _ _ _ (fun _ s => takeNonce_mems _ _ s) s

theorem execInterleaveSlotStart_mems (group : Nat) (s : State) {t : State}
    (h : execInterleaveSlotStart group s = .next t) : Mems s t := by
  cases h; exact slotStartState_mems _ _

theorem execWorkItemComplete_mems (group : Nat) (s : State) {t : State}
    (h : execWorkItemComplete group s = .next t) : Mems s t := by
  cases h; exact itemCompleteState_mems _ _

theorem execElectiveAdmission_mems (point : AdmitPoint) (s : State) {t : State}
    (h : execElectiveAdmission point s = .next t) : Mems s t := by
  cases h; exact electiveState_mems _ _

theorem execStepBoundary_mems (s : State) {t : State}
    (h : execStepBoundary s = .next t) : Mems s t := by
  cases h; exact boundaryState_mems _

theorem execPausedCycle_mems (s : State) {t : State}
    (h : execPausedCycle s = .next t) : Mems s t := by
  cases h; exact pausedState_mems _

theorem execEvaluationSegment_mems (s : State) {t : State}
    (h : execEvaluationSegment s = .next t) : Mems s t := by
  cases h; exact evalStartState_mems _

theorem execEvaluationBudgetExpiry_mems (s : State) {t : State}
    (h : execEvaluationBudgetExpiry s = .next t) : Mems s t := by
  cases h; exact evalExpiryState_mems _

theorem execCheckpointWrite_mems (s : State) {t : State}
    (h : execCheckpointWrite s = .next t) : Mems s t := by
  cases h; exact ckptWriteState_mems _

theorem execFlushComplete_mems (s : State) {t : State}
    (h : execFlushComplete s = .next t) : Mems s t := by
  cases h; exact flushState_mems _

theorem execNvmeWriteComplete_mems (s : State) {t : State}
    (h : execNvmeWriteComplete s = .next t) : Mems s t := by
  cases h; exact writeCompleteState_mems _

theorem execCheckpointBudgetExpiry_mems (s : State) {t : State}
    (h : execCheckpointBudgetExpiry s = .next t) : Mems s t := by
  cases h; exact ckptExpiryState_mems _

theorem execBoundaryBudgetExpiry_mems (s : State) {t : State}
    (h : execBoundaryBudgetExpiry s = .next t) : Mems s t := by
  cases h; exact budgetExpiryState_mems _

end Sys2Proof.Machine
end

