-- ==== Sys2Proof/Laws/PerInstr.lean ====
section
/-! SUPPORT. What well-formedness gives, command by command: a message to one entry has a header that fits Table 15.2, and
names an index of 16 bits and a subindex of 8. -/

namespace Sys2Proof.Laws.Wf

/-- A well-formed message to one entry has a well-formed header, index and subindex. -/
def Statement (i : Instr) : Prop :=
  wellFormed i = true → ∀ h idx sub, addressed i = some (h, idx, sub) → hdrWf h = true ∧ idx < 65536 ∧ sub < 256

theorem load (h : EdpHdr) : Statement (.load h) := by
  unfold Statement wellFormed addressed; grind [entryWf, fits, portWf]

theorem start (h : EdpHdr) (inst : Install) : Statement (.start h inst) := by
  unfold Statement wellFormed addressed; grind [entryWf, fits, portWf]

theorem pause (h : EdpHdr) : Statement (.pause h) := by
  unfold Statement wellFormed addressed; grind [entryWf, fits, portWf]

theorem resume (h : EdpHdr) : Statement (.resume h) := by
  unfold Statement wellFormed addressed; grind [entryWf, fits, portWf]

theorem stop (h : EdpHdr) : Statement (.stop h) := by
  unfold Statement wellFormed addressed; grind [entryWf, fits, portWf]

theorem abortStep (h : EdpHdr) : Statement (.abortStep h) := by
  unfold Statement wellFormed addressed; grind [entryWf, fits, portWf]

theorem checkpointNow (h : EdpHdr) : Statement (.checkpointNow h) := by
  unfold Statement wellFormed addressed; grind [entryWf, fits, portWf]

theorem sleep (h : EdpHdr) : Statement (.sleep h) := by
  unfold Statement wellFormed addressed; grind [entryWf, fits, portWf]

theorem wake (h : EdpHdr) : Statement (.wake h) := by
  unfold Statement wellFormed addressed; grind [entryWf, fits, portWf]

theorem wakePacket (src : Nat) : Statement (.wakePacket src) := by
  intro _ _ _ _ e; cases e

theorem standby (h : EdpHdr) : Statement (.standby h) := by
  unfold Statement wellFormed addressed; grind [entryWf, fits, portWf]

theorem proof (h : EdpHdr) : Statement (.proof h) := by
  unfold Statement wellFormed addressed; grind [entryWf, fits, portWf]

theorem proofing (p : ProofInput) : Statement (.proofing p) := by
  intro _ _ _ _ e; cases e

theorem selfTestQueued (h : EdpHdr) (target : Nat) : Statement (.selfTestQueued h target) := by
  unfold Statement wellFormed addressed; grind [entryWf, fits, portWf]

theorem selfTestImmediate (h : EdpHdr) (target : Nat) : Statement (.selfTestImmediate h target) := by
  unfold Statement wellFormed addressed; grind [entryWf, fits, portWf]

theorem bistSlice (r : BistResult) : Statement (.bistSlice r) := by
  intro _ _ _ _ e; cases e

theorem reconfigure (h : EdpHdr) : Statement (.reconfigure h) := by
  unfold Statement wellFormed addressed; grind [entryWf, fits, portWf]

theorem portTrainTimeout (port : Nat) : Statement (.portTrainTimeout port) := by
  intro _ _ _ _ e; cases e

theorem clearLogRing (h : EdpHdr) : Statement (.clearLogRing h) := by
  unfold Statement wellFormed addressed; grind [entryWf, fits, portWf]

theorem clearFaultLog (h : EdpHdr) : Statement (.clearFaultLog h) := by
  unfold Statement wellFormed addressed; grind [entryWf, fits, portWf]

theorem consume (h : EdpHdr) (slot seqNo : Nat) : Statement (.consume h slot seqNo) := by
  unfold Statement wellFormed addressed; grind [entryWf, fits, portWf]

theorem closeSession (h : EdpHdr) (sid : BitVec 32) : Statement (.closeSession h sid) := by
  unfold Statement wellFormed addressed; grind [entryWf, fits, portWf]

theorem clientHello (h : EdpHdr) (hello : Hello) : Statement (.clientHello h hello) := by
  unfold Statement wellFormed addressed; grind [entryWf, fits, portWf]

theorem enrolOwner (h : EdpHdr) (st : Sys2Proof.Statement) : Statement (.enrolOwner h st) := by
  unfold Statement wellFormed addressed; grind [entryWf, fits, portWf]

theorem enrolClient (h : EdpHdr) (st : Sys2Proof.Statement) : Statement (.enrolClient h st) := by
  unfold Statement wellFormed addressed; grind [entryWf, fits, portWf]

theorem release (h : EdpHdr) (st : Sys2Proof.Statement) : Statement (.release h st) := by
  unfold Statement wellFormed addressed; grind [entryWf, fits, portWf]

theorem lock (h : EdpHdr) (st : Sys2Proof.Statement) : Statement (.lock h st) := by
  unfold Statement wellFormed addressed; grind [entryWf, fits, portWf]

theorem revoke (h : EdpHdr) (st : Sys2Proof.Statement) : Statement (.revoke h st) := by
  unfold Statement wellFormed addressed; grind [entryWf, fits, portWf]

theorem attestationNonce (h : EdpHdr) (nonce : Bytes) : Statement (.attestationNonce h nonce) := by
  unfold Statement wellFormed addressed; grind [entryWf, fits, portWf]

theorem recipeStaging (h : EdpHdr) (off total : Nat) (final : Bool) (data : Bytes) (content : Container) : Statement (.recipeStaging h off total final data content) := by
  unfold Statement wellFormed addressed; grind [entryWf, fits, portWf]

theorem laneMaskWrite (h : EdpHdr) (port mask : Nat) : Statement (.laneMaskWrite h port mask) := by
  unfold Statement wellFormed addressed; grind [entryWf, fits, portWf]

theorem coordinateWrite (h : EdpHdr) (sub value : Nat) : Statement (.coordinateWrite h sub value) := by
  unfold Statement wellFormed addressed; grind [entryWf, fits, portWf]

theorem spareSubstitution (h : EdpHdr) (port value : Nat) : Statement (.spareSubstitution h port value) := by
  unfold Statement wellFormed addressed; grind [entryWf, fits, portWf]

theorem writeEntry (h : EdpHdr) (idx sub ty : Nat) (val : Bytes) : Statement (.writeEntry h idx sub ty val) := by
  unfold Statement wellFormed addressed; grind [entryWf, fits, portWf]

theorem read (h : EdpHdr) (idx sub : Nat) : Statement (.read h idx sub) := by
  unfold Statement wellFormed addressed; grind [entryWf, fits, portWf]

theorem readBlock (h : EdpHdr) (idx sub off len : Nat) : Statement (.readBlock h idx sub off len) := by
  unfold Statement wellFormed addressed; grind [entryWf, fits, portWf]

theorem writeBlock (h : EdpHdr) (idx sub ty off total : Nat) (final : Bool) (data : Bytes) : Statement (.writeBlock h idx sub ty off total final data) := by
  unfold Statement wellFormed addressed; grind [entryWf, fits, portWf]

theorem subscribe (h : EdpHdr) (kinds classes : BitVec 16) : Statement (.subscribe h kinds classes) := by
  intro _ _ _ _ e; cases e

theorem eventAck (h : EdpHdr) (ackSeq : Nat) : Statement (.eventAck h ackSeq) := by
  intro _ _ _ _ e; cases e

theorem eventResendTimer (sub evSeq : Nat) : Statement (.eventResendTimer sub evSeq) := by
  intro _ _ _ _ e; cases e

theorem relayRequest (h : EdpHdr) (body : EdpBody) : Statement (.relayRequest h body) := by
  intro _ _ _ _ e; cases e

theorem relayPacket (dev : Nat) (h : EdpHdr) (body : EdpBody) : Statement (.relayPacket dev h body) := by
  intro _ _ _ _ e; cases e

theorem relayRecordExpiry (target : Nat) (session : BitVec 32) (seq : Nat) : Statement (.relayRecordExpiry target session seq) := by
  intro _ _ _ _ e; cases e

theorem sessionIdleTimeout (sid : BitVec 32) : Statement (.sessionIdleTimeout sid) := by
  intro _ _ _ _ e; cases e

theorem helloTagTimeout (sid : BitVec 32) : Statement (.helloTagTimeout sid) := by
  intro _ _ _ _ e; cases e

theorem writeBlockHoldTimeout (idx sub : Nat) : Statement (.writeBlockHoldTimeout idx sub) := by
  intro _ _ _ _ e; cases e

theorem matrixOperation (core : Nat) : Statement (.matrixOperation core) := by
  intro _ _ _ _ e; cases e

theorem matrixOperationComplete (core : Nat) : Statement (.matrixOperationComplete core) := by
  intro _ _ _ _ e; cases e

theorem splitKCombine (core level : Nat) : Statement (.splitKCombine core level) := by
  intro _ _ _ _ e; cases e

theorem vectorInstruction (core : Nat) : Statement (.vectorInstruction core) := by
  intro _ _ _ _ e; cases e

theorem rowOperation (core : Nat) : Statement (.rowOperation core) := by
  intro _ _ _ _ e; cases e

theorem groupBarrier (core : Nat) : Statement (.groupBarrier core) := by
  intro _ _ _ _ e; cases e

theorem sidelineTransfer (core : Nat) : Statement (.sidelineTransfer core) := by
  intro _ _ _ _ e; cases e

theorem streamAdmission (core : Nat) : Statement (.streamAdmission core) := by
  intro _ _ _ _ e; cases e

theorem dataTileFetch (core ctx : Nat) (corr : Option Corrected) : Statement (.dataTileFetch core ctx corr) := by
  intro _ _ _ _ e; cases e

theorem streamCreditReport (core ctx : Nat) (r : CreditReport) : Statement (.streamCreditReport core ctx r) := by
  intro _ _ _ _ e; cases e

theorem streamRetire (core ctx : Nat) : Statement (.streamRetire core ctx) := by
  intro _ _ _ _ e; cases e

theorem streamStall (core ctx : Nat) : Statement (.streamStall core ctx) := by
  intro _ _ _ _ e; cases e

theorem pantryPrefetch (core ctx : Nat) : Statement (.pantryPrefetch core ctx) := by
  intro _ _ _ _ e; cases e

theorem translationMiss (core ctx : Nat) (va : Nat) (write : Bool) : Statement (.translationMiss core ctx va write) := by
  intro _ _ _ _ e; cases e

theorem itemDrainComplete (group : Nat) : Statement (.itemDrainComplete group) := by
  intro _ _ _ _ e; cases e

theorem translationMapped (group va : Nat) : Statement (.translationMapped group va) := by
  intro _ _ _ _ e; cases e

theorem workItemReplay (group : Nat) : Statement (.workItemReplay group) := by
  intro _ _ _ _ e; cases e

theorem replayBoundExpiry (group : Nat) : Statement (.replayBoundExpiry group) := by
  intro _ _ _ _ e; cases e

theorem sramUncorrectable (kind : SramKind) (unit : Nat) (r : WordRead) : Statement (.sramUncorrectable kind unit r) := by
  intro _ _ _ _ e; cases e

theorem gddr7Uncorrectable (channel pa va : Nat) (reader : EccReader) (err : List SymErr) :
    Statement (.gddr7Uncorrectable channel pa va reader err) := by
  intro _ _ _ _ e; cases e

theorem patrolScrub (block : Nat) (r : ScrubRead) : Statement (.patrolScrub block r) := by
  intro _ _ _ _ e; cases e

theorem coreFenced (phys : Nat) : Statement (.coreFenced phys) := by
  intro _ _ _ _ e; cases e

theorem interleaveSlotStart (group : Nat) : Statement (.interleaveSlotStart group) := by
  intro _ _ _ _ e; cases e

theorem workItemComplete (group : Nat) : Statement (.workItemComplete group) := by
  intro _ _ _ _ e; cases e

theorem electiveAdmission (point : AdmitPoint) : Statement (.electiveAdmission point) := by
  intro _ _ _ _ e; cases e

theorem ingestPacking : Statement .ingestPacking := by
  intro _ _ _ _ e; cases e

theorem nvmeReadComplete (cid status : Nat) (data : Bytes) : Statement (.nvmeReadComplete cid status data) := by
  intro _ _ _ _ e; cases e

theorem nvmeReadTimeout (cid status : Nat) : Statement (.nvmeReadTimeout cid status) := by
  intro _ _ _ _ e; cases e

theorem nvmeKeepAlive (tgt : Nat) : Statement (.nvmeKeepAlive tgt) := by
  intro _ _ _ _ e; cases e

theorem ingestBoundExpiry (late : Nat) : Statement (.ingestBoundExpiry late) := by
  intro _ _ _ _ e; cases e

theorem splitNotice (src step : Nat) (samples : List SplitEntry) : Statement (.splitNotice src step samples) := by
  intro _ _ _ _ e; cases e

theorem hostPortLinkLoss (port : Nat) : Statement (.hostPortLinkLoss port) := by
  intro _ _ _ _ e; cases e

theorem congestionNotification (conn : Nat) : Statement (.congestionNotification conn) := by
  intro _ _ _ _ e; cases e

theorem collectiveStart (coll mb : Nat) : Statement (.collectiveStart coll mb) := by
  intro _ _ _ _ e; cases e

theorem collectivePacket (p : Packet) : Statement (.collectivePacket p) := by
  intro _ _ _ _ e; cases e

theorem collectiveComplete (coll : Nat) : Statement (.collectiveComplete coll) := by
  intro _ _ _ _ e; cases e

theorem rootDelivery (src weight side block slot due source : Nat) (head : RootHead) (tiles : Bytes) :
    Statement (.rootDelivery src weight side block slot due source head tiles) := by
  intro _ _ _ _ e; cases e

theorem commitPhaseOne : Statement .commitPhaseOne := by
  intro _ _ _ _ e; cases e

theorem prepare (m : CommitMsg) : Statement (.prepare m) := by
  intro _ _ _ _ e; cases e

theorem commit (m : CommitMsg) : Statement (.commit m) := by
  intro _ _ _ _ e; cases e

theorem abort (m : CommitMsg) : Statement (.abort m) := by
  intro _ _ _ _ e; cases e

theorem abortReq (m : CommitMsg) : Statement (.abortReq m) := by
  intro _ _ _ _ e; cases e

theorem query (m : CommitMsg) : Statement (.query m) := by
  intro _ _ _ _ e; cases e

theorem decision (m : CommitMsg) : Statement (.decision m) := by
  intro _ _ _ _ e; cases e

theorem halt (m : CommitMsg) : Statement (.halt m) := by
  intro _ _ _ _ e; cases e

theorem higherAttempt (m : CommitMsg) (isAbort : Bool) (data : Option Packet) : Statement (.higherAttempt m isAbort data) := by
  intro _ _ _ _ e; cases e

theorem partnerSilent (wait : WaitKind) (partner item detail : Nat) : Statement (.partnerSilent wait partner item detail) := by
  intro _ _ _ _ e; cases e

theorem commitOutcomeSilence : Statement .commitOutcomeSilence := by
  intro _ _ _ _ e; cases e

theorem digestExchange (sender : Nat) (digest : W64) : Statement (.digestExchange sender digest) := by
  intro _ _ _ _ e; cases e

theorem stepBoundary : Statement .stepBoundary := by
  intro _ _ _ _ e; cases e

theorem pausedCycle : Statement .pausedCycle := by
  intro _ _ _ _ e; cases e

theorem evaluationSegment : Statement .evaluationSegment := by
  intro _ _ _ _ e; cases e

theorem responseTimeout (slot : Nat) : Statement (.responseTimeout slot) := by
  intro _ _ _ _ e; cases e

theorem inboxClientConnect (addr : Nat) : Statement (.inboxClientConnect addr) := by
  intro _ _ _ _ e; cases e

theorem evaluationBudgetExpiry : Statement .evaluationBudgetExpiry := by
  intro _ _ _ _ e; cases e

theorem checkpointWrite : Statement .checkpointWrite := by
  intro _ _ _ _ e; cases e

theorem flushComplete : Statement .flushComplete := by
  intro _ _ _ _ e; cases e

theorem checkpointBudgetExpiry : Statement .checkpointBudgetExpiry := by
  intro _ _ _ _ e; cases e

theorem boundaryBudgetExpiry : Statement .boundaryBudgetExpiry := by
  intro _ _ _ _ e; cases e

theorem factorFold : Statement .factorFold := by
  intro _ _ _ _ e; cases e

theorem rootProblemAdmission (prob : Nat) : Statement (.rootProblemAdmission prob) := by
  intro _ _ _ _ e; cases e

theorem borrowedPiece (prob : Nat) : Statement (.borrowedPiece prob) := by
  intro _ _ _ _ e; cases e

theorem borrowedPieceComplete (prob : Nat) : Statement (.borrowedPieceComplete prob) := by
  intro _ _ _ _ e; cases e

theorem rootProblemDecided (prob : Nat) : Statement (.rootProblemDecided prob) := by
  intro _ _ _ _ e; cases e

theorem rootCommit (prob : Nat) : Statement (.rootCommit prob) := by
  intro _ _ _ _ e; cases e

theorem rootDecisionMessage (src weight side block : Nat) (att : StepAttempt) (slot : Nat) (outcome : RootOutcome) :
    Statement (.rootDecisionMessage src weight side block att slot outcome) := by
  intro _ _ _ _ e; cases e

theorem laneFailure (port : Nat) : Statement (.laneFailure port) := by
  intro _ _ _ _ e; cases e

theorem retrainComplete (port lanes : Nat) : Statement (.retrainComplete port lanes) := by
  intro _ _ _ _ e; cases e

theorem portDown (port : Nat) : Statement (.portDown port) := by
  intro _ _ _ _ e; cases e

theorem linkStateAnnouncement (dev port : Nat) (up : Bool) : Statement (.linkStateAnnouncement dev port up) := by
  intro _ _ _ _ e; cases e

theorem downPortRetry (port : Nat) (ok : Bool) : Statement (.downPortRetry port ok) := by
  intro _ _ _ _ e; cases e

theorem packetForward (inPort : Option LinkIn) (p : Packet) : Statement (.packetForward inPort p) := by
  intro _ _ _ _ e; cases e

theorem linkReplayRequest (port seqNo : Nat) : Statement (.linkReplayRequest port seqNo) := by
  intro _ _ _ _ e; cases e

theorem hush (port : Nat) : Statement (.hush port) := by
  intro _ _ _ _ e; cases e

theorem hushLapse (port : Nat) : Statement (.hushLapse port) := by
  intro _ _ _ _ e; cases e

theorem overlongHush (port : Nat) : Statement (.overlongHush port) := by
  intro _ _ _ _ e; cases e

theorem identityExchange (port : Nat) (id : Identity) : Statement (.identityExchange port id) := by
  intro _ _ _ _ e; cases e

theorem pwrEnRise : Statement .pwrEnRise := by
  intro _ _ _ _ e; cases e

theorem pwrEnFall : Statement .pwrEnFall := by
  intro _ _ _ _ e; cases e

theorem interlockOpen : Statement .interlockOpen := by
  intro _ _ _ _ e; cases e

theorem resetNAssert : Statement .resetNAssert := by
  intro _ _ _ _ e; cases e

theorem resetNRelease : Statement .resetNRelease := by
  intro _ _ _ _ e; cases e

theorem stbyGood (slotId : Nat) (bankAOk bankBOk : Bool) : Statement (.stbyGood slotId bankAOk bankBOk) := by
  intro _ _ _ _ e; cases e

theorem railTimeout (row hearth : Nat) : Statement (.railTimeout row hearth) := by
  intro _ _ _ _ e; cases e

theorem railFault (row : Nat) : Statement (.railFault row) := by
  intro _ _ _ _ e; cases e

theorem inputVoltageFault (mv : Nat) : Statement (.inputVoltageFault mv) := by
  intro _ _ _ _ e; cases e

theorem inputLoss : Statement .inputLoss := by
  intro _ _ _ _ e; cases e

theorem overcurrent : Statement .overcurrent := by
  intro _ _ _ _ e; cases e

theorem thermalTrip : Statement .thermalTrip := by
  intro _ _ _ _ e; cases e

theorem governorDecision (m : Meas) : Statement (.governorDecision m) := by
  intro _ _ _ _ e; cases e

theorem gatingHoldLimit (group : Nat) : Statement (.gatingHoldLimit group) := by
  intro _ _ _ _ e; cases e

theorem alertReleaseTimer : Statement .alertReleaseTimer := by
  intro _ _ _ _ e; cases e

theorem ethernetFrameReceived (f : Frame) : Statement (.ethernetFrameReceived f) := by
  intro _ _ _ _ e; cases e

theorem pfcFrame (port prio : Nat) (quanta : Nat) : Statement (.pfcFrame port prio quanta) := by
  intro _ _ _ _ e; cases e

theorem hostPortLinkUp (port : Nat) : Statement (.hostPortLinkUp port) := by
  intro _ _ _ _ e; cases e

theorem plcaBeaconLost : Statement .plcaBeaconLost := by
  intro _ _ _ _ e; cases e

theorem plcaBeaconSeen : Statement .plcaBeaconSeen := by
  intro _ _ _ _ e; cases e

theorem nvmeWriteComplete : Statement .nvmeWriteComplete := by
  intro _ _ _ _ e; cases e

theorem linkAcknowledgment (port seqNo : Nat) : Statement (.linkAcknowledgment port seqNo) := by
  intro _ _ _ _ e; cases e

theorem linkCreditReturn (port vl cls flits : Nat) : Statement (.linkCreditReturn port vl cls flits) := by
  intro _ _ _ _ e; cases e

theorem rootDeliveryAck (prob dev : Nat) : Statement (.rootDeliveryAck prob dev) := by
  intro _ _ _ _ e; cases e

theorem hushHoldEnd (port : Nat) : Statement (.hushHoldEnd port) := by
  intro _ _ _ _ e; cases e

theorem responseWriteRejected (slot : Nat) : Statement (.responseWriteRejected slot) := by
  intro _ _ _ _ e; cases e

end Sys2Proof.Laws.Wf
end

