-- ==== Sys2Proof/Laws/State.lean ====
section
/-! SUPPORT. One lemma per field per update of the state, so that no later proof unfolds a record update. -/

namespace Sys2Proof.Machine

/-! ### bump -/

@[simp] theorem bump_pending (i k n b : Nat) (s : State) : (bump i k n b s).pending = s.pending := rfl
@[simp] theorem bump_localUs (i k n b : Nat) (s : State) : (bump i k n b s).localUs = s.localUs := rfl
@[simp] theorem bump_pins (i k n b : Nat) (s : State) : (bump i k n b s).pins = s.pins := rfl
@[simp] theorem bump_gov (i k n b : Nat) (s : State) : (bump i k n b s).gov = s.gov := rfl
@[simp] theorem bump_dev (i k n b : Nat) (s : State) : (bump i k n b s).dev = s.dev := rfl
@[simp] theorem bump_regs (i k n b : Nat) (s : State) : (bump i k n b s).regs = s.regs := rfl
@[simp] theorem bump_eff (i k n b : Nat) (s : State) : (bump i k n b s).eff = s.eff := rfl
@[simp] theorem bump_sec (i k n b : Nat) (s : State) : (bump i k n b s).sec = s.sec := rfl
@[simp] theorem bump_edp (i k n b : Nat) (s : State) : (bump i k n b s).edp = s.edp := rfl
@[simp] theorem bump_log (i k n b : Nat) (s : State) : (bump i k n b s).log = s.log := rfl
@[simp] theorem bump_job (i k n b : Nat) (s : State) : (bump i k n b s).job = s.job := rfl
@[simp] theorem bump_bnd (i k n b : Nat) (s : State) : (bump i k n b s).bnd = s.bnd := rfl
@[simp] theorem bump_recipe (i k n b : Nat) (s : State) : (bump i k n b s).recipe = s.recipe := rfl
@[simp] theorem bump_eval (i k n b : Nat) (s : State) : (bump i k n b s).eval = s.eval := rfl
@[simp] theorem bump_results (i k n b : Nat) (s : State) : (bump i k n b s).results = s.results := rfl
@[simp] theorem bump_history (i k n b : Nat) (s : State) : (bump i k n b s).history = s.history := rfl
@[simp] theorem bump_record (i k n b : Nat) (s : State) : (bump i k n b s).record = s.record := rfl
@[simp] theorem bump_groups (i k n b : Nat) (s : State) : (bump i k n b s).groups = s.groups := rfl
@[simp] theorem bump_cores (i k n b : Nat) (s : State) : (bump i k n b s).cores = s.cores := rfl
@[simp] theorem bump_lstat (i k n b : Nat) (s : State) : (bump i k n b s).lstat = s.lstat := rfl
@[simp] theorem bump_mm (i k n b : Nat) (s : State) : (bump i k n b s).mm = s.mm := rfl
@[simp] theorem bump_counters (i k n b : Nat) (s : State) : (bump i k n b s).counters = tset s.counters (ck i k) (satAdd b (s.counter i k) n) := rfl
@[simp] theorem bump_ports (i k n b : Nat) (s : State) : (bump i k n b s).ports = s.ports := rfl
@[simp] theorem bump_conns (i k n b : Nat) (s : State) : (bump i k n b s).conns = s.conns := rfl
@[simp] theorem bump_ingest (i k n b : Nat) (s : State) : (bump i k n b s).ingest = s.ingest := rfl
@[simp] theorem bump_coll (i k n b : Nat) (s : State) : (bump i k n b s).coll = s.coll := rfl
@[simp] theorem bump_leaven (i k n b : Nat) (s : State) : (bump i k n b s).leaven = s.leaven := rfl
@[simp] theorem bump_fab (i k n b : Nat) (s : State) : (bump i k n b s).fab = s.fab := rfl
@[simp] theorem bump_tx (i k n b : Nat) (s : State) : (bump i k n b s).tx = s.tx := rfl
@[simp] theorem bump_free (i k n b : Nat) (s : State) : (bump i k n b s).free = s.free := rfl

/-! ### setCounter -/

@[simp] theorem setCounter_pending (i k n : Nat) (s : State) : (setCounter i k n s).pending = s.pending := rfl
@[simp] theorem setCounter_localUs (i k n : Nat) (s : State) : (setCounter i k n s).localUs = s.localUs := rfl
@[simp] theorem setCounter_pins (i k n : Nat) (s : State) : (setCounter i k n s).pins = s.pins := rfl
@[simp] theorem setCounter_gov (i k n : Nat) (s : State) : (setCounter i k n s).gov = s.gov := rfl
@[simp] theorem setCounter_dev (i k n : Nat) (s : State) : (setCounter i k n s).dev = s.dev := rfl
@[simp] theorem setCounter_regs (i k n : Nat) (s : State) : (setCounter i k n s).regs = s.regs := rfl
@[simp] theorem setCounter_eff (i k n : Nat) (s : State) : (setCounter i k n s).eff = s.eff := rfl
@[simp] theorem setCounter_sec (i k n : Nat) (s : State) : (setCounter i k n s).sec = s.sec := rfl
@[simp] theorem setCounter_edp (i k n : Nat) (s : State) : (setCounter i k n s).edp = s.edp := rfl
@[simp] theorem setCounter_log (i k n : Nat) (s : State) : (setCounter i k n s).log = s.log := rfl
@[simp] theorem setCounter_job (i k n : Nat) (s : State) : (setCounter i k n s).job = s.job := rfl
@[simp] theorem setCounter_bnd (i k n : Nat) (s : State) : (setCounter i k n s).bnd = s.bnd := rfl
@[simp] theorem setCounter_recipe (i k n : Nat) (s : State) : (setCounter i k n s).recipe = s.recipe := rfl
@[simp] theorem setCounter_eval (i k n : Nat) (s : State) : (setCounter i k n s).eval = s.eval := rfl
@[simp] theorem setCounter_results (i k n : Nat) (s : State) : (setCounter i k n s).results = s.results := rfl
@[simp] theorem setCounter_history (i k n : Nat) (s : State) : (setCounter i k n s).history = s.history := rfl
@[simp] theorem setCounter_record (i k n : Nat) (s : State) : (setCounter i k n s).record = s.record := rfl
@[simp] theorem setCounter_groups (i k n : Nat) (s : State) : (setCounter i k n s).groups = s.groups := rfl
@[simp] theorem setCounter_cores (i k n : Nat) (s : State) : (setCounter i k n s).cores = s.cores := rfl
@[simp] theorem setCounter_lstat (i k n : Nat) (s : State) : (setCounter i k n s).lstat = s.lstat := rfl
@[simp] theorem setCounter_mm (i k n : Nat) (s : State) : (setCounter i k n s).mm = s.mm := rfl
@[simp] theorem setCounter_counters (i k n : Nat) (s : State) : (setCounter i k n s).counters = tset s.counters (ck i k) n := rfl
@[simp] theorem setCounter_ports (i k n : Nat) (s : State) : (setCounter i k n s).ports = s.ports := rfl
@[simp] theorem setCounter_conns (i k n : Nat) (s : State) : (setCounter i k n s).conns = s.conns := rfl
@[simp] theorem setCounter_ingest (i k n : Nat) (s : State) : (setCounter i k n s).ingest = s.ingest := rfl
@[simp] theorem setCounter_coll (i k n : Nat) (s : State) : (setCounter i k n s).coll = s.coll := rfl
@[simp] theorem setCounter_leaven (i k n : Nat) (s : State) : (setCounter i k n s).leaven = s.leaven := rfl
@[simp] theorem setCounter_fab (i k n : Nat) (s : State) : (setCounter i k n s).fab = s.fab := rfl
@[simp] theorem setCounter_tx (i k n : Nat) (s : State) : (setCounter i k n s).tx = s.tx := rfl
@[simp] theorem setCounter_free (i k n : Nat) (s : State) : (setCounter i k n s).free = s.free := rfl

/-! ### send -/

@[simp] theorem send_pending (x : Tx) (s : State) : (send x s).pending = s.pending := rfl
@[simp] theorem send_localUs (x : Tx) (s : State) : (send x s).localUs = s.localUs := rfl
@[simp] theorem send_pins (x : Tx) (s : State) : (send x s).pins = s.pins := rfl
@[simp] theorem send_gov (x : Tx) (s : State) : (send x s).gov = s.gov := rfl
@[simp] theorem send_dev (x : Tx) (s : State) : (send x s).dev = s.dev := rfl
@[simp] theorem send_regs (x : Tx) (s : State) : (send x s).regs = s.regs := rfl
@[simp] theorem send_eff (x : Tx) (s : State) : (send x s).eff = s.eff := rfl
@[simp] theorem send_sec (x : Tx) (s : State) : (send x s).sec = s.sec := rfl
@[simp] theorem send_edp (x : Tx) (s : State) : (send x s).edp = s.edp := rfl
@[simp] theorem send_log (x : Tx) (s : State) : (send x s).log = s.log := rfl
@[simp] theorem send_job (x : Tx) (s : State) : (send x s).job = s.job := rfl
@[simp] theorem send_bnd (x : Tx) (s : State) : (send x s).bnd = s.bnd := rfl
@[simp] theorem send_recipe (x : Tx) (s : State) : (send x s).recipe = s.recipe := rfl
@[simp] theorem send_eval (x : Tx) (s : State) : (send x s).eval = s.eval := rfl
@[simp] theorem send_results (x : Tx) (s : State) : (send x s).results = s.results := rfl
@[simp] theorem send_history (x : Tx) (s : State) : (send x s).history = s.history := rfl
@[simp] theorem send_record (x : Tx) (s : State) : (send x s).record = s.record := rfl
@[simp] theorem send_groups (x : Tx) (s : State) : (send x s).groups = s.groups := rfl
@[simp] theorem send_cores (x : Tx) (s : State) : (send x s).cores = s.cores := rfl
@[simp] theorem send_lstat (x : Tx) (s : State) : (send x s).lstat = s.lstat := rfl
@[simp] theorem send_mm (x : Tx) (s : State) : (send x s).mm = s.mm := rfl
@[simp] theorem send_counters (x : Tx) (s : State) : (send x s).counters = s.counters := rfl
@[simp] theorem send_ports (x : Tx) (s : State) : (send x s).ports = s.ports := rfl
@[simp] theorem send_conns (x : Tx) (s : State) : (send x s).conns = s.conns := rfl
@[simp] theorem send_ingest (x : Tx) (s : State) : (send x s).ingest = s.ingest := rfl
@[simp] theorem send_coll (x : Tx) (s : State) : (send x s).coll = s.coll := rfl
@[simp] theorem send_leaven (x : Tx) (s : State) : (send x s).leaven = s.leaven := rfl
@[simp] theorem send_fab (x : Tx) (s : State) : (send x s).fab = s.fab := rfl
@[simp] theorem send_tx (x : Tx) (s : State) : (send x s).tx = s.tx ++ [x] := rfl
@[simp] theorem send_free (x : Tx) (s : State) : (send x s).free = s.free := rfl

/-! ### takeFree -/

@[simp] theorem takeFree_pending (s : State) : (takeFree s).2.pending = s.pending := rfl
@[simp] theorem takeFree_localUs (s : State) : (takeFree s).2.localUs = s.localUs := rfl
@[simp] theorem takeFree_pins (s : State) : (takeFree s).2.pins = s.pins := rfl
@[simp] theorem takeFree_gov (s : State) : (takeFree s).2.gov = s.gov := rfl
@[simp] theorem takeFree_dev (s : State) : (takeFree s).2.dev = s.dev := rfl
@[simp] theorem takeFree_regs (s : State) : (takeFree s).2.regs = s.regs := rfl
@[simp] theorem takeFree_eff (s : State) : (takeFree s).2.eff = s.eff := rfl
@[simp] theorem takeFree_sec (s : State) : (takeFree s).2.sec = s.sec := rfl
@[simp] theorem takeFree_edp (s : State) : (takeFree s).2.edp = s.edp := rfl
@[simp] theorem takeFree_log (s : State) : (takeFree s).2.log = s.log := rfl
@[simp] theorem takeFree_job (s : State) : (takeFree s).2.job = s.job := rfl
@[simp] theorem takeFree_bnd (s : State) : (takeFree s).2.bnd = s.bnd := rfl
@[simp] theorem takeFree_recipe (s : State) : (takeFree s).2.recipe = s.recipe := rfl
@[simp] theorem takeFree_eval (s : State) : (takeFree s).2.eval = s.eval := rfl
@[simp] theorem takeFree_results (s : State) : (takeFree s).2.results = s.results := rfl
@[simp] theorem takeFree_history (s : State) : (takeFree s).2.history = s.history := rfl
@[simp] theorem takeFree_record (s : State) : (takeFree s).2.record = s.record := rfl
@[simp] theorem takeFree_groups (s : State) : (takeFree s).2.groups = s.groups := rfl
@[simp] theorem takeFree_cores (s : State) : (takeFree s).2.cores = s.cores := rfl
@[simp] theorem takeFree_lstat (s : State) : (takeFree s).2.lstat = s.lstat := rfl
@[simp] theorem takeFree_mm (s : State) : (takeFree s).2.mm = s.mm := rfl
@[simp] theorem takeFree_counters (s : State) : (takeFree s).2.counters = s.counters := rfl
@[simp] theorem takeFree_ports (s : State) : (takeFree s).2.ports = s.ports := rfl
@[simp] theorem takeFree_conns (s : State) : (takeFree s).2.conns = s.conns := rfl
@[simp] theorem takeFree_ingest (s : State) : (takeFree s).2.ingest = s.ingest := rfl
@[simp] theorem takeFree_coll (s : State) : (takeFree s).2.coll = s.coll := rfl
@[simp] theorem takeFree_leaven (s : State) : (takeFree s).2.leaven = s.leaven := rfl
@[simp] theorem takeFree_fab (s : State) : (takeFree s).2.fab = s.fab := rfl
@[simp] theorem takeFree_tx (s : State) : (takeFree s).2.tx = s.tx := rfl
@[simp] theorem takeFree_free (s : State) : (takeFree s).2.free = s.free + 1 := rfl

/-! ### setGroup -/

@[simp] theorem setGroup_pending (g : Nat) (x : GroupSt) (s : State) : (setGroup g x s).pending = s.pending := rfl
@[simp] theorem setGroup_localUs (g : Nat) (x : GroupSt) (s : State) : (setGroup g x s).localUs = s.localUs := rfl
@[simp] theorem setGroup_pins (g : Nat) (x : GroupSt) (s : State) : (setGroup g x s).pins = s.pins := rfl
@[simp] theorem setGroup_gov (g : Nat) (x : GroupSt) (s : State) : (setGroup g x s).gov = s.gov := rfl
@[simp] theorem setGroup_dev (g : Nat) (x : GroupSt) (s : State) : (setGroup g x s).dev = s.dev := rfl
@[simp] theorem setGroup_regs (g : Nat) (x : GroupSt) (s : State) : (setGroup g x s).regs = s.regs := rfl
@[simp] theorem setGroup_eff (g : Nat) (x : GroupSt) (s : State) : (setGroup g x s).eff = s.eff := rfl
@[simp] theorem setGroup_sec (g : Nat) (x : GroupSt) (s : State) : (setGroup g x s).sec = s.sec := rfl
@[simp] theorem setGroup_edp (g : Nat) (x : GroupSt) (s : State) : (setGroup g x s).edp = s.edp := rfl
@[simp] theorem setGroup_log (g : Nat) (x : GroupSt) (s : State) : (setGroup g x s).log = s.log := rfl
@[simp] theorem setGroup_job (g : Nat) (x : GroupSt) (s : State) : (setGroup g x s).job = s.job := rfl
@[simp] theorem setGroup_bnd (g : Nat) (x : GroupSt) (s : State) : (setGroup g x s).bnd = s.bnd := rfl
@[simp] theorem setGroup_recipe (g : Nat) (x : GroupSt) (s : State) : (setGroup g x s).recipe = s.recipe := rfl
@[simp] theorem setGroup_eval (g : Nat) (x : GroupSt) (s : State) : (setGroup g x s).eval = s.eval := rfl
@[simp] theorem setGroup_results (g : Nat) (x : GroupSt) (s : State) : (setGroup g x s).results = s.results := rfl
@[simp] theorem setGroup_history (g : Nat) (x : GroupSt) (s : State) : (setGroup g x s).history = s.history := rfl
@[simp] theorem setGroup_record (g : Nat) (x : GroupSt) (s : State) : (setGroup g x s).record = s.record := rfl
@[simp] theorem setGroup_groups (g : Nat) (x : GroupSt) (s : State) : (setGroup g x s).groups = tset s.groups g x := rfl
@[simp] theorem setGroup_cores (g : Nat) (x : GroupSt) (s : State) : (setGroup g x s).cores = s.cores := rfl
@[simp] theorem setGroup_lstat (g : Nat) (x : GroupSt) (s : State) : (setGroup g x s).lstat = s.lstat := rfl
@[simp] theorem setGroup_mm (g : Nat) (x : GroupSt) (s : State) : (setGroup g x s).mm = s.mm := rfl
@[simp] theorem setGroup_counters (g : Nat) (x : GroupSt) (s : State) : (setGroup g x s).counters = s.counters := rfl
@[simp] theorem setGroup_ports (g : Nat) (x : GroupSt) (s : State) : (setGroup g x s).ports = s.ports := rfl
@[simp] theorem setGroup_conns (g : Nat) (x : GroupSt) (s : State) : (setGroup g x s).conns = s.conns := rfl
@[simp] theorem setGroup_ingest (g : Nat) (x : GroupSt) (s : State) : (setGroup g x s).ingest = s.ingest := rfl
@[simp] theorem setGroup_coll (g : Nat) (x : GroupSt) (s : State) : (setGroup g x s).coll = s.coll := rfl
@[simp] theorem setGroup_leaven (g : Nat) (x : GroupSt) (s : State) : (setGroup g x s).leaven = s.leaven := rfl
@[simp] theorem setGroup_fab (g : Nat) (x : GroupSt) (s : State) : (setGroup g x s).fab = s.fab := rfl
@[simp] theorem setGroup_tx (g : Nat) (x : GroupSt) (s : State) : (setGroup g x s).tx = s.tx := rfl
@[simp] theorem setGroup_free (g : Nat) (x : GroupSt) (s : State) : (setGroup g x s).free = s.free := rfl

/-! ### setCore -/

@[simp] theorem setCore_pending (n : Nat) (x : CoreSt) (s : State) : (setCore n x s).pending = s.pending := rfl
@[simp] theorem setCore_localUs (n : Nat) (x : CoreSt) (s : State) : (setCore n x s).localUs = s.localUs := rfl
@[simp] theorem setCore_pins (n : Nat) (x : CoreSt) (s : State) : (setCore n x s).pins = s.pins := rfl
@[simp] theorem setCore_gov (n : Nat) (x : CoreSt) (s : State) : (setCore n x s).gov = s.gov := rfl
@[simp] theorem setCore_dev (n : Nat) (x : CoreSt) (s : State) : (setCore n x s).dev = s.dev := rfl
@[simp] theorem setCore_regs (n : Nat) (x : CoreSt) (s : State) : (setCore n x s).regs = s.regs := rfl
@[simp] theorem setCore_eff (n : Nat) (x : CoreSt) (s : State) : (setCore n x s).eff = s.eff := rfl
@[simp] theorem setCore_sec (n : Nat) (x : CoreSt) (s : State) : (setCore n x s).sec = s.sec := rfl
@[simp] theorem setCore_edp (n : Nat) (x : CoreSt) (s : State) : (setCore n x s).edp = s.edp := rfl
@[simp] theorem setCore_log (n : Nat) (x : CoreSt) (s : State) : (setCore n x s).log = s.log := rfl
@[simp] theorem setCore_job (n : Nat) (x : CoreSt) (s : State) : (setCore n x s).job = s.job := rfl
@[simp] theorem setCore_bnd (n : Nat) (x : CoreSt) (s : State) : (setCore n x s).bnd = s.bnd := rfl
@[simp] theorem setCore_recipe (n : Nat) (x : CoreSt) (s : State) : (setCore n x s).recipe = s.recipe := rfl
@[simp] theorem setCore_eval (n : Nat) (x : CoreSt) (s : State) : (setCore n x s).eval = s.eval := rfl
@[simp] theorem setCore_results (n : Nat) (x : CoreSt) (s : State) : (setCore n x s).results = s.results := rfl
@[simp] theorem setCore_history (n : Nat) (x : CoreSt) (s : State) : (setCore n x s).history = s.history := rfl
@[simp] theorem setCore_record (n : Nat) (x : CoreSt) (s : State) : (setCore n x s).record = s.record := rfl
@[simp] theorem setCore_groups (n : Nat) (x : CoreSt) (s : State) : (setCore n x s).groups = s.groups := rfl
@[simp] theorem setCore_cores (n : Nat) (x : CoreSt) (s : State) : (setCore n x s).cores = tset s.cores n x := rfl
@[simp] theorem setCore_lstat (n : Nat) (x : CoreSt) (s : State) : (setCore n x s).lstat = s.lstat := rfl
@[simp] theorem setCore_mm (n : Nat) (x : CoreSt) (s : State) : (setCore n x s).mm = s.mm := rfl
@[simp] theorem setCore_counters (n : Nat) (x : CoreSt) (s : State) : (setCore n x s).counters = s.counters := rfl
@[simp] theorem setCore_ports (n : Nat) (x : CoreSt) (s : State) : (setCore n x s).ports = s.ports := rfl
@[simp] theorem setCore_conns (n : Nat) (x : CoreSt) (s : State) : (setCore n x s).conns = s.conns := rfl
@[simp] theorem setCore_ingest (n : Nat) (x : CoreSt) (s : State) : (setCore n x s).ingest = s.ingest := rfl
@[simp] theorem setCore_coll (n : Nat) (x : CoreSt) (s : State) : (setCore n x s).coll = s.coll := rfl
@[simp] theorem setCore_leaven (n : Nat) (x : CoreSt) (s : State) : (setCore n x s).leaven = s.leaven := rfl
@[simp] theorem setCore_fab (n : Nat) (x : CoreSt) (s : State) : (setCore n x s).fab = s.fab := rfl
@[simp] theorem setCore_tx (n : Nat) (x : CoreSt) (s : State) : (setCore n x s).tx = s.tx := rfl
@[simp] theorem setCore_free (n : Nat) (x : CoreSt) (s : State) : (setCore n x s).free = s.free := rfl

/-! ### setPort -/

@[simp] theorem setPort_pending (p : Nat) (x : Port) (s : State) : (setPort p x s).pending = s.pending := rfl
@[simp] theorem setPort_localUs (p : Nat) (x : Port) (s : State) : (setPort p x s).localUs = s.localUs := rfl
@[simp] theorem setPort_pins (p : Nat) (x : Port) (s : State) : (setPort p x s).pins = s.pins := rfl
@[simp] theorem setPort_gov (p : Nat) (x : Port) (s : State) : (setPort p x s).gov = s.gov := rfl
@[simp] theorem setPort_dev (p : Nat) (x : Port) (s : State) : (setPort p x s).dev = s.dev := rfl
@[simp] theorem setPort_regs (p : Nat) (x : Port) (s : State) : (setPort p x s).regs = s.regs := rfl
@[simp] theorem setPort_eff (p : Nat) (x : Port) (s : State) : (setPort p x s).eff = s.eff := rfl
@[simp] theorem setPort_sec (p : Nat) (x : Port) (s : State) : (setPort p x s).sec = s.sec := rfl
@[simp] theorem setPort_edp (p : Nat) (x : Port) (s : State) : (setPort p x s).edp = s.edp := rfl
@[simp] theorem setPort_log (p : Nat) (x : Port) (s : State) : (setPort p x s).log = s.log := rfl
@[simp] theorem setPort_job (p : Nat) (x : Port) (s : State) : (setPort p x s).job = s.job := rfl
@[simp] theorem setPort_bnd (p : Nat) (x : Port) (s : State) : (setPort p x s).bnd = s.bnd := rfl
@[simp] theorem setPort_recipe (p : Nat) (x : Port) (s : State) : (setPort p x s).recipe = s.recipe := rfl
@[simp] theorem setPort_eval (p : Nat) (x : Port) (s : State) : (setPort p x s).eval = s.eval := rfl
@[simp] theorem setPort_results (p : Nat) (x : Port) (s : State) : (setPort p x s).results = s.results := rfl
@[simp] theorem setPort_history (p : Nat) (x : Port) (s : State) : (setPort p x s).history = s.history := rfl
@[simp] theorem setPort_record (p : Nat) (x : Port) (s : State) : (setPort p x s).record = s.record := rfl
@[simp] theorem setPort_groups (p : Nat) (x : Port) (s : State) : (setPort p x s).groups = s.groups := rfl
@[simp] theorem setPort_cores (p : Nat) (x : Port) (s : State) : (setPort p x s).cores = s.cores := rfl
@[simp] theorem setPort_lstat (p : Nat) (x : Port) (s : State) : (setPort p x s).lstat = s.lstat := rfl
@[simp] theorem setPort_mm (p : Nat) (x : Port) (s : State) : (setPort p x s).mm = s.mm := rfl
@[simp] theorem setPort_counters (p : Nat) (x : Port) (s : State) : (setPort p x s).counters = s.counters := rfl
@[simp] theorem setPort_ports (p : Nat) (x : Port) (s : State) : (setPort p x s).ports = s.ports := rfl
@[simp] theorem setPort_conns (p : Nat) (x : Port) (s : State) : (setPort p x s).conns = s.conns := rfl
@[simp] theorem setPort_ingest (p : Nat) (x : Port) (s : State) : (setPort p x s).ingest = s.ingest := rfl
@[simp] theorem setPort_coll (p : Nat) (x : Port) (s : State) : (setPort p x s).coll = s.coll := rfl
@[simp] theorem setPort_leaven (p : Nat) (x : Port) (s : State) : (setPort p x s).leaven = s.leaven := rfl
@[simp] theorem setPort_fab (p : Nat) (x : Port) (s : State) : (setPort p x s).fab = { s.fab with ports := tset s.fab.ports p x } := rfl
@[simp] theorem setPort_tx (p : Nat) (x : Port) (s : State) : (setPort p x s).tx = s.tx := rfl
@[simp] theorem setPort_free (p : Nat) (x : Port) (s : State) : (setPort p x s).free = s.free := rfl

/-! ### setSession -/

@[simp] theorem setSession_pending (x : Session) (s : State) : (setSession x s).pending = s.pending := rfl
@[simp] theorem setSession_localUs (x : Session) (s : State) : (setSession x s).localUs = s.localUs := rfl
@[simp] theorem setSession_pins (x : Session) (s : State) : (setSession x s).pins = s.pins := rfl
@[simp] theorem setSession_gov (x : Session) (s : State) : (setSession x s).gov = s.gov := rfl
@[simp] theorem setSession_dev (x : Session) (s : State) : (setSession x s).dev = s.dev := rfl
@[simp] theorem setSession_regs (x : Session) (s : State) : (setSession x s).regs = s.regs := rfl
@[simp] theorem setSession_eff (x : Session) (s : State) : (setSession x s).eff = s.eff := rfl
@[simp] theorem setSession_sec (x : Session) (s : State) : (setSession x s).sec = s.sec := rfl
@[simp] theorem setSession_edp (x : Session) (s : State) : (setSession x s).edp = { s.edp with sessions := s.edp.sessions.map fun y => if y.sid == x.sid then x else y } := rfl
@[simp] theorem setSession_log (x : Session) (s : State) : (setSession x s).log = s.log := rfl
@[simp] theorem setSession_job (x : Session) (s : State) : (setSession x s).job = s.job := rfl
@[simp] theorem setSession_bnd (x : Session) (s : State) : (setSession x s).bnd = s.bnd := rfl
@[simp] theorem setSession_recipe (x : Session) (s : State) : (setSession x s).recipe = s.recipe := rfl
@[simp] theorem setSession_eval (x : Session) (s : State) : (setSession x s).eval = s.eval := rfl
@[simp] theorem setSession_results (x : Session) (s : State) : (setSession x s).results = s.results := rfl
@[simp] theorem setSession_history (x : Session) (s : State) : (setSession x s).history = s.history := rfl
@[simp] theorem setSession_record (x : Session) (s : State) : (setSession x s).record = s.record := rfl
@[simp] theorem setSession_groups (x : Session) (s : State) : (setSession x s).groups = s.groups := rfl
@[simp] theorem setSession_cores (x : Session) (s : State) : (setSession x s).cores = s.cores := rfl
@[simp] theorem setSession_lstat (x : Session) (s : State) : (setSession x s).lstat = s.lstat := rfl
@[simp] theorem setSession_mm (x : Session) (s : State) : (setSession x s).mm = s.mm := rfl
@[simp] theorem setSession_counters (x : Session) (s : State) : (setSession x s).counters = s.counters := rfl
@[simp] theorem setSession_ports (x : Session) (s : State) : (setSession x s).ports = s.ports := rfl
@[simp] theorem setSession_conns (x : Session) (s : State) : (setSession x s).conns = s.conns := rfl
@[simp] theorem setSession_ingest (x : Session) (s : State) : (setSession x s).ingest = s.ingest := rfl
@[simp] theorem setSession_coll (x : Session) (s : State) : (setSession x s).coll = s.coll := rfl
@[simp] theorem setSession_leaven (x : Session) (s : State) : (setSession x s).leaven = s.leaven := rfl
@[simp] theorem setSession_fab (x : Session) (s : State) : (setSession x s).fab = s.fab := rfl
@[simp] theorem setSession_tx (x : Session) (s : State) : (setSession x s).tx = s.tx := rfl
@[simp] theorem setSession_free (x : Session) (s : State) : (setSession x s).free = s.free := rfl

/-! ### closeSession -/

@[simp] theorem closeSession_pending (i : BitVec 32) (s : State) : (closeSession i s).pending = s.pending := rfl
@[simp] theorem closeSession_localUs (i : BitVec 32) (s : State) : (closeSession i s).localUs = s.localUs := rfl
@[simp] theorem closeSession_pins (i : BitVec 32) (s : State) : (closeSession i s).pins = s.pins := rfl
@[simp] theorem closeSession_gov (i : BitVec 32) (s : State) : (closeSession i s).gov = s.gov := rfl
@[simp] theorem closeSession_dev (i : BitVec 32) (s : State) : (closeSession i s).dev = s.dev := rfl
@[simp] theorem closeSession_regs (i : BitVec 32) (s : State) : (closeSession i s).regs = s.regs := rfl
@[simp] theorem closeSession_eff (i : BitVec 32) (s : State) : (closeSession i s).eff = s.eff := rfl
@[simp] theorem closeSession_sec (i : BitVec 32) (s : State) : (closeSession i s).sec = s.sec := rfl
@[simp] theorem closeSession_log (i : BitVec 32) (s : State) : (closeSession i s).log = s.log := rfl
@[simp] theorem closeSession_job (i : BitVec 32) (s : State) : (closeSession i s).job = s.job := rfl
@[simp] theorem closeSession_bnd (i : BitVec 32) (s : State) : (closeSession i s).bnd = s.bnd := rfl
@[simp] theorem closeSession_recipe (i : BitVec 32) (s : State) : (closeSession i s).recipe = s.recipe := rfl
@[simp] theorem closeSession_eval (i : BitVec 32) (s : State) : (closeSession i s).eval = s.eval := rfl
@[simp] theorem closeSession_results (i : BitVec 32) (s : State) : (closeSession i s).results = s.results := rfl
@[simp] theorem closeSession_history (i : BitVec 32) (s : State) : (closeSession i s).history = s.history := rfl
@[simp] theorem closeSession_record (i : BitVec 32) (s : State) : (closeSession i s).record = s.record := rfl
@[simp] theorem closeSession_groups (i : BitVec 32) (s : State) : (closeSession i s).groups = s.groups := rfl
@[simp] theorem closeSession_cores (i : BitVec 32) (s : State) : (closeSession i s).cores = s.cores := rfl
@[simp] theorem closeSession_lstat (i : BitVec 32) (s : State) : (closeSession i s).lstat = s.lstat := rfl
@[simp] theorem closeSession_mm (i : BitVec 32) (s : State) : (closeSession i s).mm = s.mm := rfl
@[simp] theorem closeSession_counters (i : BitVec 32) (s : State) : (closeSession i s).counters = s.counters := rfl
@[simp] theorem closeSession_ports (i : BitVec 32) (s : State) : (closeSession i s).ports = s.ports := rfl
@[simp] theorem closeSession_conns (i : BitVec 32) (s : State) : (closeSession i s).conns = s.conns := rfl
@[simp] theorem closeSession_ingest (i : BitVec 32) (s : State) : (closeSession i s).ingest = s.ingest := rfl
@[simp] theorem closeSession_coll (i : BitVec 32) (s : State) : (closeSession i s).coll = s.coll := rfl
@[simp] theorem closeSession_leaven (i : BitVec 32) (s : State) : (closeSession i s).leaven = s.leaven := rfl
@[simp] theorem closeSession_fab (i : BitVec 32) (s : State) : (closeSession i s).fab = s.fab := rfl
@[simp] theorem closeSession_tx (i : BitVec 32) (s : State) : (closeSession i s).tx = s.tx := rfl
@[simp] theorem closeSession_free (i : BitVec 32) (s : State) : (closeSession i s).free = s.free := rfl

/-! ### closeAll -/

@[simp] theorem closeAll_pending (s : State) : (closeAll s).pending = s.pending := rfl
@[simp] theorem closeAll_localUs (s : State) : (closeAll s).localUs = s.localUs := rfl
@[simp] theorem closeAll_pins (s : State) : (closeAll s).pins = s.pins := rfl
@[simp] theorem closeAll_gov (s : State) : (closeAll s).gov = s.gov := rfl
@[simp] theorem closeAll_dev (s : State) : (closeAll s).dev = s.dev := rfl
@[simp] theorem closeAll_regs (s : State) : (closeAll s).regs = s.regs := rfl
@[simp] theorem closeAll_eff (s : State) : (closeAll s).eff = s.eff := rfl
@[simp] theorem closeAll_sec (s : State) : (closeAll s).sec = s.sec := rfl
@[simp] theorem closeAll_edp (s : State) : (closeAll s).edp = { s.edp with sessions := [], subs := [], holds := [] } := rfl
@[simp] theorem closeAll_log (s : State) : (closeAll s).log = s.log := rfl
@[simp] theorem closeAll_job (s : State) : (closeAll s).job = s.job := rfl
@[simp] theorem closeAll_bnd (s : State) : (closeAll s).bnd = s.bnd := rfl
@[simp] theorem closeAll_recipe (s : State) : (closeAll s).recipe = s.recipe := rfl
@[simp] theorem closeAll_eval (s : State) : (closeAll s).eval = s.eval := rfl
@[simp] theorem closeAll_results (s : State) : (closeAll s).results = s.results := rfl
@[simp] theorem closeAll_history (s : State) : (closeAll s).history = s.history := rfl
@[simp] theorem closeAll_record (s : State) : (closeAll s).record = s.record := rfl
@[simp] theorem closeAll_groups (s : State) : (closeAll s).groups = s.groups := rfl
@[simp] theorem closeAll_cores (s : State) : (closeAll s).cores = s.cores := rfl
@[simp] theorem closeAll_lstat (s : State) : (closeAll s).lstat = s.lstat := rfl
@[simp] theorem closeAll_mm (s : State) : (closeAll s).mm = s.mm := rfl
@[simp] theorem closeAll_counters (s : State) : (closeAll s).counters = s.counters := rfl
@[simp] theorem closeAll_ports (s : State) : (closeAll s).ports = s.ports := rfl
@[simp] theorem closeAll_conns (s : State) : (closeAll s).conns = s.conns := rfl
@[simp] theorem closeAll_ingest (s : State) : (closeAll s).ingest = s.ingest := rfl
@[simp] theorem closeAll_coll (s : State) : (closeAll s).coll = s.coll := rfl
@[simp] theorem closeAll_leaven (s : State) : (closeAll s).leaven = s.leaven := rfl
@[simp] theorem closeAll_fab (s : State) : (closeAll s).fab = s.fab := rfl
@[simp] theorem closeAll_tx (s : State) : (closeAll s).tx = s.tx := rfl
@[simp] theorem closeAll_free (s : State) : (closeAll s).free = s.free := rfl

/-! ### putSub -/

@[simp] theorem putSub_pending (k : Nat) (y : Subscription) (s : State) : (putSub k y s).pending = s.pending := rfl
@[simp] theorem putSub_localUs (k : Nat) (y : Subscription) (s : State) : (putSub k y s).localUs = s.localUs := rfl
@[simp] theorem putSub_pins (k : Nat) (y : Subscription) (s : State) : (putSub k y s).pins = s.pins := rfl
@[simp] theorem putSub_gov (k : Nat) (y : Subscription) (s : State) : (putSub k y s).gov = s.gov := rfl
@[simp] theorem putSub_dev (k : Nat) (y : Subscription) (s : State) : (putSub k y s).dev = s.dev := rfl
@[simp] theorem putSub_regs (k : Nat) (y : Subscription) (s : State) : (putSub k y s).regs = s.regs := rfl
@[simp] theorem putSub_eff (k : Nat) (y : Subscription) (s : State) : (putSub k y s).eff = s.eff := rfl
@[simp] theorem putSub_sec (k : Nat) (y : Subscription) (s : State) : (putSub k y s).sec = s.sec := rfl
@[simp] theorem putSub_edp (k : Nat) (y : Subscription) (s : State) : (putSub k y s).edp = { s.edp with subs := tset s.edp.subs k y } := rfl
@[simp] theorem putSub_log (k : Nat) (y : Subscription) (s : State) : (putSub k y s).log = s.log := rfl
@[simp] theorem putSub_job (k : Nat) (y : Subscription) (s : State) : (putSub k y s).job = s.job := rfl
@[simp] theorem putSub_bnd (k : Nat) (y : Subscription) (s : State) : (putSub k y s).bnd = s.bnd := rfl
@[simp] theorem putSub_recipe (k : Nat) (y : Subscription) (s : State) : (putSub k y s).recipe = s.recipe := rfl
@[simp] theorem putSub_eval (k : Nat) (y : Subscription) (s : State) : (putSub k y s).eval = s.eval := rfl
@[simp] theorem putSub_results (k : Nat) (y : Subscription) (s : State) : (putSub k y s).results = s.results := rfl
@[simp] theorem putSub_history (k : Nat) (y : Subscription) (s : State) : (putSub k y s).history = s.history := rfl
@[simp] theorem putSub_record (k : Nat) (y : Subscription) (s : State) : (putSub k y s).record = s.record := rfl
@[simp] theorem putSub_groups (k : Nat) (y : Subscription) (s : State) : (putSub k y s).groups = s.groups := rfl
@[simp] theorem putSub_cores (k : Nat) (y : Subscription) (s : State) : (putSub k y s).cores = s.cores := rfl
@[simp] theorem putSub_lstat (k : Nat) (y : Subscription) (s : State) : (putSub k y s).lstat = s.lstat := rfl
@[simp] theorem putSub_mm (k : Nat) (y : Subscription) (s : State) : (putSub k y s).mm = s.mm := rfl
@[simp] theorem putSub_counters (k : Nat) (y : Subscription) (s : State) : (putSub k y s).counters = s.counters := rfl
@[simp] theorem putSub_ports (k : Nat) (y : Subscription) (s : State) : (putSub k y s).ports = s.ports := rfl
@[simp] theorem putSub_conns (k : Nat) (y : Subscription) (s : State) : (putSub k y s).conns = s.conns := rfl
@[simp] theorem putSub_ingest (k : Nat) (y : Subscription) (s : State) : (putSub k y s).ingest = s.ingest := rfl
@[simp] theorem putSub_coll (k : Nat) (y : Subscription) (s : State) : (putSub k y s).coll = s.coll := rfl
@[simp] theorem putSub_leaven (k : Nat) (y : Subscription) (s : State) : (putSub k y s).leaven = s.leaven := rfl
@[simp] theorem putSub_fab (k : Nat) (y : Subscription) (s : State) : (putSub k y s).fab = s.fab := rfl
@[simp] theorem putSub_tx (k : Nat) (y : Subscription) (s : State) : (putSub k y s).tx = s.tx := rfl
@[simp] theorem putSub_free (k : Nat) (y : Subscription) (s : State) : (putSub k y s).free = s.free := rfl

/-! ### putHold -/

@[simp] theorem putHold_pending (d : Hold) (s : State) : (putHold d s).pending = s.pending := rfl
@[simp] theorem putHold_localUs (d : Hold) (s : State) : (putHold d s).localUs = s.localUs := rfl
@[simp] theorem putHold_pins (d : Hold) (s : State) : (putHold d s).pins = s.pins := rfl
@[simp] theorem putHold_gov (d : Hold) (s : State) : (putHold d s).gov = s.gov := rfl
@[simp] theorem putHold_dev (d : Hold) (s : State) : (putHold d s).dev = s.dev := rfl
@[simp] theorem putHold_regs (d : Hold) (s : State) : (putHold d s).regs = s.regs := rfl
@[simp] theorem putHold_eff (d : Hold) (s : State) : (putHold d s).eff = s.eff := rfl
@[simp] theorem putHold_sec (d : Hold) (s : State) : (putHold d s).sec = s.sec := rfl
@[simp] theorem putHold_log (d : Hold) (s : State) : (putHold d s).log = s.log := rfl
@[simp] theorem putHold_job (d : Hold) (s : State) : (putHold d s).job = s.job := rfl
@[simp] theorem putHold_bnd (d : Hold) (s : State) : (putHold d s).bnd = s.bnd := rfl
@[simp] theorem putHold_recipe (d : Hold) (s : State) : (putHold d s).recipe = s.recipe := rfl
@[simp] theorem putHold_eval (d : Hold) (s : State) : (putHold d s).eval = s.eval := rfl
@[simp] theorem putHold_results (d : Hold) (s : State) : (putHold d s).results = s.results := rfl
@[simp] theorem putHold_history (d : Hold) (s : State) : (putHold d s).history = s.history := rfl
@[simp] theorem putHold_record (d : Hold) (s : State) : (putHold d s).record = s.record := rfl
@[simp] theorem putHold_groups (d : Hold) (s : State) : (putHold d s).groups = s.groups := rfl
@[simp] theorem putHold_cores (d : Hold) (s : State) : (putHold d s).cores = s.cores := rfl
@[simp] theorem putHold_lstat (d : Hold) (s : State) : (putHold d s).lstat = s.lstat := rfl
@[simp] theorem putHold_mm (d : Hold) (s : State) : (putHold d s).mm = s.mm := rfl
@[simp] theorem putHold_counters (d : Hold) (s : State) : (putHold d s).counters = s.counters := rfl
@[simp] theorem putHold_ports (d : Hold) (s : State) : (putHold d s).ports = s.ports := rfl
@[simp] theorem putHold_conns (d : Hold) (s : State) : (putHold d s).conns = s.conns := rfl
@[simp] theorem putHold_ingest (d : Hold) (s : State) : (putHold d s).ingest = s.ingest := rfl
@[simp] theorem putHold_coll (d : Hold) (s : State) : (putHold d s).coll = s.coll := rfl
@[simp] theorem putHold_leaven (d : Hold) (s : State) : (putHold d s).leaven = s.leaven := rfl
@[simp] theorem putHold_fab (d : Hold) (s : State) : (putHold d s).fab = s.fab := rfl
@[simp] theorem putHold_tx (d : Hold) (s : State) : (putHold d s).tx = s.tx := rfl
@[simp] theorem putHold_free (d : Hold) (s : State) : (putHold d s).free = s.free := rfl

/-! ### dropHold -/

@[simp] theorem dropHold_pending (i k : Nat) (s : State) : (dropHold i k s).pending = s.pending := rfl
@[simp] theorem dropHold_localUs (i k : Nat) (s : State) : (dropHold i k s).localUs = s.localUs := rfl
@[simp] theorem dropHold_pins (i k : Nat) (s : State) : (dropHold i k s).pins = s.pins := rfl
@[simp] theorem dropHold_gov (i k : Nat) (s : State) : (dropHold i k s).gov = s.gov := rfl
@[simp] theorem dropHold_dev (i k : Nat) (s : State) : (dropHold i k s).dev = s.dev := rfl
@[simp] theorem dropHold_regs (i k : Nat) (s : State) : (dropHold i k s).regs = s.regs := rfl
@[simp] theorem dropHold_eff (i k : Nat) (s : State) : (dropHold i k s).eff = s.eff := rfl
@[simp] theorem dropHold_sec (i k : Nat) (s : State) : (dropHold i k s).sec = s.sec := rfl
@[simp] theorem dropHold_log (i k : Nat) (s : State) : (dropHold i k s).log = s.log := rfl
@[simp] theorem dropHold_job (i k : Nat) (s : State) : (dropHold i k s).job = s.job := rfl
@[simp] theorem dropHold_bnd (i k : Nat) (s : State) : (dropHold i k s).bnd = s.bnd := rfl
@[simp] theorem dropHold_recipe (i k : Nat) (s : State) : (dropHold i k s).recipe = s.recipe := rfl
@[simp] theorem dropHold_eval (i k : Nat) (s : State) : (dropHold i k s).eval = s.eval := rfl
@[simp] theorem dropHold_results (i k : Nat) (s : State) : (dropHold i k s).results = s.results := rfl
@[simp] theorem dropHold_history (i k : Nat) (s : State) : (dropHold i k s).history = s.history := rfl
@[simp] theorem dropHold_record (i k : Nat) (s : State) : (dropHold i k s).record = s.record := rfl
@[simp] theorem dropHold_groups (i k : Nat) (s : State) : (dropHold i k s).groups = s.groups := rfl
@[simp] theorem dropHold_cores (i k : Nat) (s : State) : (dropHold i k s).cores = s.cores := rfl
@[simp] theorem dropHold_lstat (i k : Nat) (s : State) : (dropHold i k s).lstat = s.lstat := rfl
@[simp] theorem dropHold_mm (i k : Nat) (s : State) : (dropHold i k s).mm = s.mm := rfl
@[simp] theorem dropHold_counters (i k : Nat) (s : State) : (dropHold i k s).counters = s.counters := rfl
@[simp] theorem dropHold_ports (i k : Nat) (s : State) : (dropHold i k s).ports = s.ports := rfl
@[simp] theorem dropHold_conns (i k : Nat) (s : State) : (dropHold i k s).conns = s.conns := rfl
@[simp] theorem dropHold_ingest (i k : Nat) (s : State) : (dropHold i k s).ingest = s.ingest := rfl
@[simp] theorem dropHold_coll (i k : Nat) (s : State) : (dropHold i k s).coll = s.coll := rfl
@[simp] theorem dropHold_leaven (i k : Nat) (s : State) : (dropHold i k s).leaven = s.leaven := rfl
@[simp] theorem dropHold_fab (i k : Nat) (s : State) : (dropHold i k s).fab = s.fab := rfl
@[simp] theorem dropHold_tx (i k : Nat) (s : State) : (dropHold i k s).tx = s.tx := rfl
@[simp] theorem dropHold_free (i k : Nat) (s : State) : (dropHold i k s).free = s.free := rfl

/-! ### setVcore -/

@[simp] theorem setVcore_pending (mv : Nat) (s : State) : (setVcore mv s).pending = s.pending := rfl
@[simp] theorem setVcore_localUs (mv : Nat) (s : State) : (setVcore mv s).localUs = s.localUs := rfl
@[simp] theorem setVcore_pins (mv : Nat) (s : State) : (setVcore mv s).pins = s.pins := rfl
@[simp] theorem setVcore_gov (mv : Nat) (s : State) : (setVcore mv s).gov = { s.gov with vcore := [mv, mv, mv, mv] } := rfl
@[simp] theorem setVcore_dev (mv : Nat) (s : State) : (setVcore mv s).dev = s.dev := rfl
@[simp] theorem setVcore_regs (mv : Nat) (s : State) : (setVcore mv s).regs = s.regs := rfl
@[simp] theorem setVcore_eff (mv : Nat) (s : State) : (setVcore mv s).eff = s.eff := rfl
@[simp] theorem setVcore_sec (mv : Nat) (s : State) : (setVcore mv s).sec = s.sec := rfl
@[simp] theorem setVcore_edp (mv : Nat) (s : State) : (setVcore mv s).edp = s.edp := rfl
@[simp] theorem setVcore_log (mv : Nat) (s : State) : (setVcore mv s).log = s.log := rfl
@[simp] theorem setVcore_job (mv : Nat) (s : State) : (setVcore mv s).job = s.job := rfl
@[simp] theorem setVcore_bnd (mv : Nat) (s : State) : (setVcore mv s).bnd = s.bnd := rfl
@[simp] theorem setVcore_recipe (mv : Nat) (s : State) : (setVcore mv s).recipe = s.recipe := rfl
@[simp] theorem setVcore_eval (mv : Nat) (s : State) : (setVcore mv s).eval = s.eval := rfl
@[simp] theorem setVcore_results (mv : Nat) (s : State) : (setVcore mv s).results = s.results := rfl
@[simp] theorem setVcore_history (mv : Nat) (s : State) : (setVcore mv s).history = s.history := rfl
@[simp] theorem setVcore_record (mv : Nat) (s : State) : (setVcore mv s).record = s.record := rfl
@[simp] theorem setVcore_groups (mv : Nat) (s : State) : (setVcore mv s).groups = s.groups := rfl
@[simp] theorem setVcore_cores (mv : Nat) (s : State) : (setVcore mv s).cores = s.cores := rfl
@[simp] theorem setVcore_lstat (mv : Nat) (s : State) : (setVcore mv s).lstat = s.lstat := rfl
@[simp] theorem setVcore_mm (mv : Nat) (s : State) : (setVcore mv s).mm = s.mm := rfl
@[simp] theorem setVcore_counters (mv : Nat) (s : State) : (setVcore mv s).counters = s.counters := rfl
@[simp] theorem setVcore_ports (mv : Nat) (s : State) : (setVcore mv s).ports = s.ports := rfl
@[simp] theorem setVcore_conns (mv : Nat) (s : State) : (setVcore mv s).conns = s.conns := rfl
@[simp] theorem setVcore_ingest (mv : Nat) (s : State) : (setVcore mv s).ingest = s.ingest := rfl
@[simp] theorem setVcore_coll (mv : Nat) (s : State) : (setVcore mv s).coll = s.coll := rfl
@[simp] theorem setVcore_leaven (mv : Nat) (s : State) : (setVcore mv s).leaven = s.leaven := rfl
@[simp] theorem setVcore_fab (mv : Nat) (s : State) : (setVcore mv s).fab = s.fab := rfl
@[simp] theorem setVcore_tx (mv : Nat) (s : State) : (setVcore mv s).tx = s.tx := rfl
@[simp] theorem setVcore_free (mv : Nat) (s : State) : (setVcore mv s).free = s.free := rfl

/-! ### setClient -/

@[simp] theorem setClient_pending (k : Nat) (d : Bytes) (r : Nat) (s : State) : (setClient k d r s).pending = s.pending := rfl
@[simp] theorem setClient_localUs (k : Nat) (d : Bytes) (r : Nat) (s : State) : (setClient k d r s).localUs = s.localUs := rfl
@[simp] theorem setClient_pins (k : Nat) (d : Bytes) (r : Nat) (s : State) : (setClient k d r s).pins = s.pins := rfl
@[simp] theorem setClient_gov (k : Nat) (d : Bytes) (r : Nat) (s : State) : (setClient k d r s).gov = s.gov := rfl
@[simp] theorem setClient_dev (k : Nat) (d : Bytes) (r : Nat) (s : State) : (setClient k d r s).dev = s.dev := rfl
@[simp] theorem setClient_regs (k : Nat) (d : Bytes) (r : Nat) (s : State) : (setClient k d r s).regs = s.regs := rfl
@[simp] theorem setClient_eff (k : Nat) (d : Bytes) (r : Nat) (s : State) : (setClient k d r s).eff = s.eff := rfl
@[simp] theorem setClient_sec (k : Nat) (d : Bytes) (r : Nat) (s : State) : (setClient k d r s).sec = { s.sec with clients := tset s.sec.clients k (d, r) } := rfl
@[simp] theorem setClient_edp (k : Nat) (d : Bytes) (r : Nat) (s : State) : (setClient k d r s).edp = s.edp := rfl
@[simp] theorem setClient_log (k : Nat) (d : Bytes) (r : Nat) (s : State) : (setClient k d r s).log = s.log := rfl
@[simp] theorem setClient_job (k : Nat) (d : Bytes) (r : Nat) (s : State) : (setClient k d r s).job = s.job := rfl
@[simp] theorem setClient_bnd (k : Nat) (d : Bytes) (r : Nat) (s : State) : (setClient k d r s).bnd = s.bnd := rfl
@[simp] theorem setClient_recipe (k : Nat) (d : Bytes) (r : Nat) (s : State) : (setClient k d r s).recipe = s.recipe := rfl
@[simp] theorem setClient_eval (k : Nat) (d : Bytes) (r : Nat) (s : State) : (setClient k d r s).eval = s.eval := rfl
@[simp] theorem setClient_results (k : Nat) (d : Bytes) (r : Nat) (s : State) : (setClient k d r s).results = s.results := rfl
@[simp] theorem setClient_history (k : Nat) (d : Bytes) (r : Nat) (s : State) : (setClient k d r s).history = s.history := rfl
@[simp] theorem setClient_record (k : Nat) (d : Bytes) (r : Nat) (s : State) : (setClient k d r s).record = s.record := rfl
@[simp] theorem setClient_groups (k : Nat) (d : Bytes) (r : Nat) (s : State) : (setClient k d r s).groups = s.groups := rfl
@[simp] theorem setClient_cores (k : Nat) (d : Bytes) (r : Nat) (s : State) : (setClient k d r s).cores = s.cores := rfl
@[simp] theorem setClient_lstat (k : Nat) (d : Bytes) (r : Nat) (s : State) : (setClient k d r s).lstat = s.lstat := rfl
@[simp] theorem setClient_mm (k : Nat) (d : Bytes) (r : Nat) (s : State) : (setClient k d r s).mm = s.mm := rfl
@[simp] theorem setClient_counters (k : Nat) (d : Bytes) (r : Nat) (s : State) : (setClient k d r s).counters = s.counters := rfl
@[simp] theorem setClient_ports (k : Nat) (d : Bytes) (r : Nat) (s : State) : (setClient k d r s).ports = s.ports := rfl
@[simp] theorem setClient_conns (k : Nat) (d : Bytes) (r : Nat) (s : State) : (setClient k d r s).conns = s.conns := rfl
@[simp] theorem setClient_ingest (k : Nat) (d : Bytes) (r : Nat) (s : State) : (setClient k d r s).ingest = s.ingest := rfl
@[simp] theorem setClient_coll (k : Nat) (d : Bytes) (r : Nat) (s : State) : (setClient k d r s).coll = s.coll := rfl
@[simp] theorem setClient_leaven (k : Nat) (d : Bytes) (r : Nat) (s : State) : (setClient k d r s).leaven = s.leaven := rfl
@[simp] theorem setClient_fab (k : Nat) (d : Bytes) (r : Nat) (s : State) : (setClient k d r s).fab = s.fab := rfl
@[simp] theorem setClient_tx (k : Nat) (d : Bytes) (r : Nat) (s : State) : (setClient k d r s).tx = s.tx := rfl
@[simp] theorem setClient_free (k : Nat) (d : Bytes) (r : Nat) (s : State) : (setClient k d r s).free = s.free := rfl

end Sys2Proof.Machine
end

