-- ==== Sys2Proof/Laws/Tables.lean ====
section
/-! SUPPORT. Reading back a table, a port, a core, a group; what the pumps of the fabric can change. -/

namespace Sys2Proof.Machine

theorem tget_tset {α : Type} (d : α) (l : List (Nat × α)) (i j : Nat) (x : α) :
    tget d (tset l i x) j = if i = j then x else tget d l j := by
  induction l with
  | nil => simp [tset, tget]
  | cons c r ih =>
    obtain ⟨k, v⟩ := c
    unfold tset
    split
    · simp [tget]
    · split
      · rename_i h; subst h; simp only [tget]; split <;> rfl
      · rename_i h1 h2
        simp only [tget, ih]
        by_cases e : k = j
        · subst e; simp [h2]
        · simp [e]

@[simp] theorem tget_tset_same {α : Type} (d : α) (l : List (Nat × α)) (i : Nat) (x : α) : tget d (tset l i x) i = x := by
  rw [tget_tset]; simp

theorem tget_tset_other {α : Type} (d : α) (l : List (Nat × α)) {i j : Nat} (x : α) (h : i ≠ j) :
    tget d (tset l i x) j = tget d l j := by rw [tget_tset]; simp [h]

theorem setPort_port (p q : Nat) (x : Port) (s : State) : (setPort p x s).port q = if p = q then x else s.port q :=
  tget_tset _ _ _ _ _

@[simp] theorem setPort_port_same (p : Nat) (x : Port) (s : State) : (setPort p x s).port p = x := tget_tset_same _ _ _ _

theorem setCore_core (n m : Nat) (x : CoreSt) (s : State) : (setCore n x s).core m = if n = m then x else s.core m :=
  tget_tset _ _ _ _ _

@[simp] theorem setCore_core_same (n : Nat) (x : CoreSt) (s : State) : (setCore n x s).core n = x := tget_tset_same _ _ _ _

theorem setGroup_group (g k : Nat) (x : GroupSt) (s : State) : (setGroup g x s).group k = if g = k then x else s.group k :=
  tget_tset _ _ _ _ _

@[simp] theorem setGroup_group_same (g : Nat) (x : GroupSt) (s : State) : (setGroup g x s).group g = x :=
  tget_tset_same _ _ _ _

theorem setRun_run (i k : Nat) (x : ProbSt) (s : State) : (setRun i x s).run k = if i = k then x else s.run k :=
  tget_tset _ _ _ _ _

theorem bump_tget (i k n b : Nat) (s : State) (j : Nat) :
    tget 0 (bump i k n b s).counters j = if ck i k = j then satAdd b (s.counter i k) n else tget 0 s.counters j :=
  tget_tset _ _ _ _ _

@[simp] theorem bump_counter_same (i k n b : Nat) (s : State) :
    (bump i k n b s).counter i k = satAdd b (s.counter i k) n := tget_tset_same _ _ _ _

/-! ## Frames of the fabric -/

theorem FabricOnly.refl (s : State) : FabricOnly s s := ⟨rfl, fun _ _ => rfl⟩

theorem FabricOnly.trans {s t u : State} (h : FabricOnly s t) (k : FabricOnly t u) : FabricOnly s u := by
  refine ⟨?_, fun n hn => (k.2 n hn).trans (h.2 n hn)⟩
  rw [k.1, h.1]

theorem fabricOnly_send (x : Tx) (s : State) : FabricOnly s (send x s) := ⟨rfl, fun _ _ => rfl⟩

theorem fabricOnly_setPort (p : Nat) (x : Port) (s : State) : FabricOnly s (setPort p x s) := ⟨rfl, fun _ _ => rfl⟩

theorem fabricOnly_bump (p k n b : Nat) (s : State) (hk : k < 256) : FabricOnly s (bump (0x3100 + p) k n b s) := by
  refine ⟨rfl, fun j hj => ?_⟩
  rw [bump_tget, if_neg]
  unfold ck; omega

theorem fabricOnly_fold {α : Type} (g : State → α → State) (h : ∀ s a, FabricOnly s (g s a)) (l : List α) (s : State) :
    FabricOnly s (l.foldl g s) := by
  induction l generalizing s with
  | nil => exact FabricOnly.refl s
  | cons a l ih => exact (h s a).trans (ih (g s a))

theorem PortOnly.refl (p : Nat) (s : State) : PortOnly p s s := ⟨fun _ _ => rfl, rfl⟩

theorem PortOnly.trans {p : Nat} {s t u : State} (h : PortOnly p s t) (k : PortOnly p t u) : PortOnly p s u := by
  refine ⟨fun q hq => ?_, ?_⟩
  · rw [k.1 q hq, h.1 q hq]
  · rw [k.2, h.2]

theorem PortOnly.fabric {p : Nat} {s t : State} (h : PortOnly p s t) : FabricOnly s t := by
  have e := h.2
  refine ⟨?_, fun _ _ => ?_⟩ <;> rw [e]

theorem portOnly_setPort (p : Nat) (x : Port) (s : State) : PortOnly p s (setPort p x s) :=
  ⟨fun q hq => by rw [setPort_port, if_neg (Ne.symm hq)], rfl⟩

theorem portOnly_send (p : Nat) (x : Tx) (s : State) : PortOnly p s (send x s) := ⟨fun _ _ => rfl, rfl⟩

/-- Emptying a receive buffer changes only how full a port's buffers are. -/
theorem freeRx_port (hold : Option Nat) (p : Packet) (s : State) (q : Nat) :
    (freeRx hold p s).port q = { s.port q with held := ((freeRx hold p s).port q).held } := by
  unfold freeRx
  split
  · rfl
  · dsimp only
    split
    · rfl
    · rename_i r _
      by_cases e : r = q
      · subst e; rw [show (send _ (setPort r _ s)).port r = _ from setPort_port_same _ _ _]
      · rw [show (send _ (setPort r _ s)).port q = s.port q from (setPort_port _ _ _ _).trans (if_neg e)]

theorem freeRx_only (n : Nat) (hold : Option Nat) (p : Packet) (s : State) : PortOnly n s (freeRx hold p s) := by
  refine ⟨fun q _ => freeRx_port hold p s q, ?_⟩
  unfold freeRx
  split
  · rfl
  · dsimp only; split <;> rfl

theorem freeRx_fabric (hold : Option Nat) (p : Packet) (s : State) : FabricOnly s (freeRx hold p s) :=
  (freeRx_only 0 hold p s).fabric

theorem pumpPort_only (n fuel : Nat) (s : State) : PortOnly n s (pumpPort n fuel s) := by
  induction fuel generalizing s with
  | zero => exact PortOnly.refl n s
  | succ fuel ih =>
    unfold pumpPort
    dsimp only
    split
    · exact PortOnly.refl n s
    · exact (((portOnly_setPort n _ s).trans (freeRx_only n _ _ _)).trans (portOnly_send n _ _)).trans (ih _)

theorem pumpAll_only (n : Nat) (s : State) : PortOnly n s (pumpAll n s) := pumpPort_only n _ s

theorem takeCredit_fields {x y : Port} {vl c n : Nat} (h : takeCredit x vl c n = some y) : ∃ u, y = { x with used := u } := by
  unfold takeCredit at h
  dsimp only at h
  split at h
  · cases h; exact ⟨_, rfl⟩
  · split at h
    · cases h; exact ⟨_, rfl⟩
    · cases h

theorem startable_fields {s : State} {x y : Port} {p : Packet} (h : startable s x p = some y) :
    ∃ u, y = { x with used := u } := by
  unfold startable at h
  dsimp only at h
  split at h
  · cases h
  · exact takeCredit_fields h

/-- What starting packets leaves of a port: everything but its queue, replay buffer, credit, receive buffers and lane order. -/
theorem pumpPort_port (n fuel : Nat) (s : State) : ∃ q m sq u hd lb,
    (pumpPort n fuel s).port n
      = { s.port n with queue := q, unacked := (s.port n).unacked ++ m, nextSeq := sq, used := u, held := hd, lastBulk := lb } := by
  induction fuel generalizing s with
  | zero => exact ⟨_, [], _, _, _, _, by simp [pumpPort]; rfl⟩
  | succ fuel ih =>
    unfold pumpPort
    dsimp only
    split
    · exact ⟨_, [], _, _, _, _, by simp; rfl⟩
    · rename_i w y h
      obtain ⟨a, _, b⟩ := List.exists_of_findSome?_eq_some h
      obtain ⟨y', hy, e⟩ := Option.map_eq_some_iff.mp b
      cases e
      obtain ⟨u, hu⟩ := startable_fields hy
      let z : Port := { y with
        queue := eraseFirst w y.queue
        unacked := y.unacked ++ [(y.nextSeq, flits w.p, { w with hold := none })]
        nextSeq := (y.nextSeq + flits w.p) % 4096
        lastBulk := if w.p.vl = 1 ∨ w.p.vl = 2 then w.p.vl else y.lastBulk }
      let s' := send (.words n (linkWords (s.port n).nextSeq w.p)) (freeRx w.hold w.orig (setPort n z s))
      obtain ⟨q, m, sq, u', hd, lb, e⟩ := ih s'
      refine ⟨q, (y.nextSeq, flits w.p, { w with hold := none }) :: m, sq, u', hd, lb, e.trans ?_⟩
      have e2 : s'.port n = { z with held := (s'.port n).held } := by
        have := freeRx_port w.hold w.orig (setPort n z s) n
        rwa [setPort_port_same] at this
      rw [e2]
      simp only [z, hu]
      simp

theorem countDetour_only (q d : Nat) (s : State) : FabricOnly s (countDetour q d s) := by
  unfold countDetour
  split
  · exact FabricOnly.refl s
  · exact FabricOnly.trans (t := { s with fab := { s.fab with counted := d :: s.fab.counted } }) ⟨rfl, fun _ _ => rfl⟩
      (fabricOnly_bump _ 0x0C _ _ _ (by decide))

theorem routePacket_only (hold : Option Nat) (p : Packet) (s : State) : FabricOnly s (routePacket hold p s) := by
  unfold routePacket
  split
  · exact freeRx_fabric hold p s
  · exact (freeRx_fabric hold p s).trans (fabricOnly_bump _ 0x0D _ _ _ (by decide))
  · extract_lets vl cls s' x p'
    split
    · exact (freeRx_fabric hold p s).trans (fabricOnly_bump _ 0x0D _ _ _ (by decide))
    · refine FabricOnly.trans (t := s') ?_ ((fabricOnly_setPort _ _ _).trans (pumpAll_only _ _).fabric)
      unfold s'
      split
      · exact countDetour_only _ _ s
      · exact FabricOnly.refl s

theorem pumpInject_only (fuel : Nat) (s : State) : FabricOnly s (pumpInject fuel s) := by
  induction fuel generalizing s with
  | zero => exact FabricOnly.refl s
  | succ fuel ih =>
    unfold pumpInject
    split
    · exact FabricOnly.refl s
    · split
      · rename_i p r _ _
        exact FabricOnly.trans (FabricOnly.trans (t := { s with fab := { s.fab with inject := r, tokens := s.fab.tokens - p.payload.length } })
          ⟨rfl, fun _ _ => rfl⟩ (routePacket_only none _ _)) (ih _)
      · exact FabricOnly.refl s

theorem injectPacket_only (p : Packet) (s : State) : FabricOnly s (injectPacket p s) := by
  unfold injectPacket
  split
  · split
    · exact FabricOnly.refl s
    · exact routePacket_only none p s
  · split
    · exact FabricOnly.refl s
    · exact FabricOnly.trans (t := { refill s with fab := { (refill s).fab with inject := (refill s).fab.inject ++ [p] } })
        ⟨rfl, fun _ _ => rfl⟩ (pumpInject_only _ _)

theorem announce_only (p : Nat) (up : Bool) (s : State) : FabricOnly s (announce p up s) := by
  unfold announce
  split
  · exact FabricOnly.refl s
  · split
    · exact FabricOnly.refl s
    · exact fabricOnly_fold _ (fun s d => injectPacket_only _ s) _ s

end Sys2Proof.Machine
end

