-- ==== Sys2Proof/Laws/Serve.lean ====
section
/-! SUPPORT. What serving a message does: one lemma for an accepted message, and what the close of a request leaves. -/

namespace Sys2Proof.Machine

@[simp] theorem returnPages_tx (s : State) : (returnPages s).tx = s.tx := by unfold returnPages; split <;> rfl

@[simp] theorem lastSeq_tx (h : EdpHdr) (s : State) : (lastSeq h s).tx = s.tx := by unfold lastSeq; split <;> rfl

@[simp] theorem cacheAck_tx (h : EdpHdr) (b : EdpBody) (a : Ack) (s : State) : (cacheAck h b a s).tx = s.tx := by
  unfold cacheAck; split <;> rfl

theorem closes_tx (l : List (BitVec 32)) (s : State) : (l.foldl (fun s i => closeSession i s) s).tx = s.tx := by
  induction l generalizing s with
  | nil => rfl
  | cons i l ih => exact ih (closeSession i s)

/-- The ACK is the last message sent. -/
theorem sendAck_acked (h : EdpHdr) (a : Ack) (s : State) : Acked h a (sendAck h a s) := by
  unfold Acked sendAck; simp

/-- Sending an ACK changes nothing but what is sent, and the fabric where it goes back over a relay. -/
theorem sendAck_only (h : EdpHdr) (a : Ack) (s : State) : FabricOnly s (sendAck h a s) := by
  unfold sendAck
  split
  · exact (injectPacket_only _ s).trans (fabricOnly_send _ _)
  · exact fabricOnly_send _ s

theorem sendAck_local {h : EdpHdr} (hr : relayed h = false) (a : Ack) (s : State) :
    sendAck h a s = send (.ack h.transport h.peer h.session h.seq a) s := by
  unfold sendAck
  cases e : h.transport with
  | relay d => simp [relayed, e] at hr
  | t1s => rfl
  | host p => rfl

/-- The last message sent is the request's ACK. -/
theorem finishRequest_acked (h : EdpHdr) (b : EdpBody) (r : Served) : Acked h r.1 (finishRequest h b r) := by
  unfold Acked finishRequest
  rw [returnPages_tx, lastSeq_tx, closes_tx]
  exact sendAck_acked _ _ _

@[simp] theorem returnPages_body (s : State) : (returnPages s).body = s.body := by unfold returnPages; split <;> rfl

@[simp] theorem lastSeq_body (h : EdpHdr) (s : State) : (lastSeq h s).body = s.body := by unfold lastSeq; split <;> rfl

@[simp] theorem cacheAck_body (h : EdpHdr) (b : EdpBody) (a : Ack) (s : State) : (cacheAck h b a s).body = s.body := by
  unfold cacheAck; split <;> rfl

theorem closes_body (l : List (BitVec 32)) (s : State) : (l.foldl (fun s i => closeSession i s) s).body = s.body := by
  induction l generalizing s with
  | nil => rfl
  | cons i l ih => exact ih (closeSession i s)

theorem FabricOnly.body {s t : State} (h : FabricOnly s t) : FabricOnly s.body t.body := by
  refine ⟨?_, h.2⟩
  rw [h.1]; rfl

theorem Leaves.of_eq {h : EdpHdr} {u t : State} (e : t.body = u.body) : Leaves h u t :=
  ⟨by rw [e]; exact FabricOnly.refl _, fun _ => e⟩

theorem Leaves.refl (h : EdpHdr) (s : State) : Leaves h s s := .of_eq rfl

theorem Leaves.trans {h : EdpHdr} {s t u : State} (a : Leaves h s t) (b : Leaves h t u) : Leaves h s u :=
  ⟨a.1.trans b.1, fun e => (b.2 e).trans (a.2 e)⟩

theorem sendAck_leaves (h : EdpHdr) (a : Ack) (s : State) : Leaves h s (sendAck h a s) :=
  ⟨(sendAck_only h a s).body, fun e => by rw [sendAck_local e]; rfl⟩

/-- Apart from sessions, messages sent and a staging's pages, a request leaves what its effect left; a relayed ACK passes
through the fabric. -/
theorem finishRequest_leaves (h : EdpHdr) (b : EdpBody) (r : Served) : Leaves h r.2.1 (finishRequest h b r) := by
  unfold finishRequest
  refine Leaves.trans (Leaves.of_eq (cacheAck_body h b r.1 r.2.1)) ((sendAck_leaves h r.1 _).trans (.of_eq ?_))
  rw [returnPages_body, lastSeq_body, closes_body]

/-- An accepted message: its request is carried out in the state that has taken its sequence number. -/
theorem serveSized_accepts {h : EdpHdr} {body : EdpBody} {size : Nat} {x : Session} {s : State}
    (w : Accepts h body size x s) (act : Option Session → State → Served) :
    serveSized h body size act s
      = finishRequest h body (act (some (acceptedSession h x (setSession { x with tagged := true } s))) (atRequest h x s)) := by
  obtain ⟨h1, h2, h3, h4, h5, h6, h7, h8, h9⟩ := w
  have h8' : (({ x with tagged := true } : Session).cache.find? fun c => c.1 == h.seq) = none := h8
  unfold serveSized receive
  simp only [h1, h2, h3, h4, h5, h6, h7, Bool.not_true, Bool.false_eq_true, if_false, if_true]
  unfold serveIn
  simp only [h8', h9, Bool.not_true, Bool.false_eq_true, if_false]
  rfl

theorem serve_accepts {h : EdpHdr} {body : EdpBody} {x : Session} {s : State} (w : Accepts h body (bodySize body) x s)
    (act : Option Session → State → Served) :
    serve h body act s
      = finishRequest h body (act (some (acceptedSession h x (setSession { x with tagged := true } s))) (atRequest h x s)) :=
  serveSized_accepts w act

@[simp] theorem atRequest_body (h : EdpHdr) (x : Session) (s : State) : (atRequest h x s).body = s.body := rfl

/-- The request of an accepted message that answers nothing but its effect. -/
theorem writeWith_ok {idx sub ty : Nat} {val : Bytes} {eff : Session → State → Nat × State × List (BitVec 32)}
    {x : Session} {s : State} (h1 : writeClass s x idx sub = OK) (h2 : valueOk idx sub ty val = true)
    (h3 : s.heldElse x idx sub = false) (h4 : ownRule s idx sub val = OK) :
    writeWith idx sub ty val eff (some x) s
      = (⟨(eff x s).1, idx, sub, ty, 0, []⟩, (eff x s).2.1, (eff x s).2.2) := by
  unfold writeWith
  simp [h1, h2, h3, h4]

/-- A controller's WRITE whose entry takes the value: the effect, then the ACK with its status. -/
theorem writeCommand_ok {h : EdpHdr} {idx sub ty : Nat} {val : Bytes} {x : Session} {s : State}
    (w : SendsWrite h idx sub ty val x s) (eff : Session → State → Nat × State × List (BitVec 32))
    (h1 : writeClass s x idx sub = OK) (h2 : valueOk idx sub ty val = true) (h4 : ownRule s idx sub val = OK) :
    writeCommand h idx sub ty val eff s
      = finishRequest h (.write idx sub ty val)
          (statusAck (eff (acceptedSession h x (setSession { x with tagged := true } s)) (atRequest h x s)).1 idx sub ty,
           (eff (acceptedSession h x (setSession { x with tagged := true } s)) (atRequest h x s)).2.1,
           (eff (acceptedSession h x (setSession { x with tagged := true } s)) (atRequest h x s)).2.2) := by
  have h1' : writeClass (atRequest h x s) (acceptedSession h x (setSession { x with tagged := true } s)) idx sub = OK := h1
  have h3' : (atRequest h x s).heldElse (acceptedSession h x (setSession { x with tagged := true } s)) idx sub = false :=
    w.free
  have h4' : ownRule (atRequest h x s) idx sub val = OK := h4
  unfold writeCommand
  rw [serve_accepts w.accepts, writeWith_ok h1' h2 h3' h4']
  rfl

/-- The WRITE of a one-byte code. -/
theorem codeCommand_ok {h : EdpHdr} {idx sub v : Nat} {x : Session} {s : State} (w : SendsCode h idx sub v x s)
    (f : State → Nat × State) (h1 : writeClass s x idx sub = OK) (h2 : valueOk idx sub tU8 (leBytes 1 v) = true)
    (h4 : ownRule s idx sub (leBytes 1 v) = OK) :
    codeCommand h idx sub v f s
      = finishRequest h (.write idx sub tU8 (leBytes 1 v))
          (statusAck (f (atRequest h x s)).1 idx sub tU8, (f (atRequest h x s)).2, []) :=
  writeCommand_ok w (fun _ s => noClose (f s)) h1 h2 h4

/-- What a WRITE answers and leaves. -/
theorem writeCommand_post {h : EdpHdr} {idx sub ty : Nat} {val : Bytes} {x : Session} {s : State}
    (w : SendsWrite h idx sub ty val x s) (eff : Session → State → Nat × State × List (BitVec 32))
    (h1 : writeClass s x idx sub = OK) (h2 : valueOk idx sub ty val = true) (h4 : ownRule s idx sub val = OK) :
    Acked h (statusAck (eff (acceptedSession h x (setSession { x with tagged := true } s)) (atRequest h x s)).1 idx sub ty)
        (writeCommand h idx sub ty val eff s)
      ∧ Leaves h (eff (acceptedSession h x (setSession { x with tagged := true } s)) (atRequest h x s)).2.1
          (writeCommand h idx sub ty val eff s) := by
  rw [writeCommand_ok w eff h1 h2 h4]
  exact ⟨finishRequest_acked _ _ _, finishRequest_leaves _ _ _⟩

theorem codeCommand_post {h : EdpHdr} {idx sub v : Nat} {x : Session} {s : State} (w : SendsCode h idx sub v x s)
    (f : State → Nat × State) (h1 : writeClass s x idx sub = OK) (h2 : valueOk idx sub tU8 (leBytes 1 v) = true)
    (h4 : ownRule s idx sub (leBytes 1 v) = OK) :
    Acked h (statusAck (f (atRequest h x s)).1 idx sub tU8) (codeCommand h idx sub v f s)
      ∧ Leaves h (f (atRequest h x s)).2 (codeCommand h idx sub v f s) := by
  rw [codeCommand_ok w f h1 h2 h4]
  exact ⟨finishRequest_acked _ _ _, finishRequest_leaves _ _ _⟩

end Sys2Proof.Machine
end

