-- ==== Sys2Proof/Laws/Steward.lean ====
section
/-! SUPPORT. What raising an event, writing a log record and changing the device or job state leave alone: one equation for
each operation, and one lemma per field. -/

namespace Sys2Proof.Machine

/-- The state up to the queues of events, the messages sent and the counters (a dropped event is counted). -/
def State.shell (s : State) : State := { s with edp := Edp.reset, tx := [], counters := [] }

theorem pump_shell (k fuel : Nat) (s : State) : (pump k fuel s).shell = s.shell := by
  induction fuel generalizing s with
  | zero => rfl
  | succ n ih =>
    have h1 (i : BitVec 32) (s : State) : (nextTx i s).2.shell = s.shell := by unfold nextTx; split <;> rfl
    have h2 (i : BitVec 32) (s : State) : (closeSession i s).shell = s.shell := rfl
    have h3 (x : Tx) (s : State) : (send x s).shell = s.shell := rfl
    unfold pump
    grind [State.shell]

theorem enqueue_shell (k : Nat) (e : Event) (s : State) : (enqueue k e s).shell = s.shell := by
  unfold enqueue
  split
  · rfl
  · dsimp only
    split
    · exact pump_shell _ _ _
    · exact pump_shell _ _ _

theorem raiseEvent_shell (e : Event) (s : State) : (raiseEvent e s).shell = s.shell := by
  unfold raiseEvent
  generalize s.edp.subs.filter _ = l
  induction l generalizing s with
  | nil => rfl
  | cons x l ih => exact (ih _).trans (enqueue_shell x.1 e s)

theorem logAdd_shell (c a h u l : Nat) (d : List Nat) (s : State) :
    { (logAdd c a h u l d s).shell with log := s.log, job := s.job } = s.shell := by
  unfold logAdd
  dsimp only
  split
  · rfl
  · split
    · have h := raiseEvent_shell
      simp only [h]; rfl
    · rfl

theorem setDev_shell (d : DevState) (s : State) : { (setDev d s).shell with dev := s.dev } = s.shell := by
  unfold setDev
  split
  · rfl
  · dsimp only
    rw [raiseEvent_shell]; rfl

theorem setDev_dev (d : DevState) (s : State) : (setDev d s).dev = { s.dev with st := d } := by
  unfold setDev
  split
  · next h => subst h; rfl
  · exact (congrArg State.dev (raiseEvent_shell _ _) :)

/-- What a change of job state leaves alone. -/
def State.jobShell (s : State) : State := { s.shell with dev := Dev.reset, job := Job.reset, eval := Eval.reset }

theorem setDev_jobShell (d : DevState) (s : State) : (setDev d s).jobShell = s.jobShell :=
  congrArg (fun u : State => { u with dev := Dev.reset, job := Job.reset, eval := Eval.reset }) (setDev_shell d s)

theorem raiseEvent_jobShell (e : Event) (s : State) : (raiseEvent e s).jobShell = s.jobShell :=
  congrArg (fun u : State => { u with dev := Dev.reset, job := Job.reset, eval := Eval.reset }) (raiseEvent_shell e s)

theorem followJob_jobShell (o j : JobState) (s : State) : (followJob o j s).jobShell = s.jobShell := by
  unfold followJob
  split
  · exact setDev_jobShell _ s
  · split
    · exact setDev_jobShell _ s
    · rfl

theorem followJob_job (o j : JobState) (s : State) : (followJob o j s).job = s.job := by
  unfold followJob
  split
  · exact (congrArg State.job (setDev_shell _ s) :)
  · split
    · exact (congrArg State.job (setDev_shell _ s) :)
    · rfl

theorem setJob_shell (j : JobState) (c : Nat) (s : State) : (setJob j c s).jobShell = s.jobShell := by
  unfold setJob
  split
  · rfl
  · exact (followJob_jobShell _ _ _).trans (raiseEvent_jobShell _ _)

@[simp] theorem raiseEvent_pending (e : Event) (s : State) : (raiseEvent e s).pending = s.pending := (congrArg State.pending (raiseEvent_shell e s) :)
@[simp] theorem raiseEvent_localUs (e : Event) (s : State) : (raiseEvent e s).localUs = s.localUs := (congrArg State.localUs (raiseEvent_shell e s) :)
@[simp] theorem raiseEvent_pins (e : Event) (s : State) : (raiseEvent e s).pins = s.pins := (congrArg State.pins (raiseEvent_shell e s) :)
@[simp] theorem raiseEvent_gov (e : Event) (s : State) : (raiseEvent e s).gov = s.gov := (congrArg State.gov (raiseEvent_shell e s) :)
@[simp] theorem raiseEvent_dev (e : Event) (s : State) : (raiseEvent e s).dev = s.dev := (congrArg State.dev (raiseEvent_shell e s) :)
@[simp] theorem raiseEvent_regs (e : Event) (s : State) : (raiseEvent e s).regs = s.regs := (congrArg State.regs (raiseEvent_shell e s) :)
@[simp] theorem raiseEvent_eff (e : Event) (s : State) : (raiseEvent e s).eff = s.eff := (congrArg State.eff (raiseEvent_shell e s) :)
@[simp] theorem raiseEvent_sec (e : Event) (s : State) : (raiseEvent e s).sec = s.sec := (congrArg State.sec (raiseEvent_shell e s) :)
@[simp] theorem raiseEvent_log (e : Event) (s : State) : (raiseEvent e s).log = s.log := (congrArg State.log (raiseEvent_shell e s) :)
@[simp] theorem raiseEvent_job (e : Event) (s : State) : (raiseEvent e s).job = s.job := (congrArg State.job (raiseEvent_shell e s) :)
@[simp] theorem raiseEvent_bnd (e : Event) (s : State) : (raiseEvent e s).bnd = s.bnd := (congrArg State.bnd (raiseEvent_shell e s) :)
@[simp] theorem raiseEvent_recipe (e : Event) (s : State) : (raiseEvent e s).recipe = s.recipe := (congrArg State.recipe (raiseEvent_shell e s) :)
@[simp] theorem raiseEvent_eval (e : Event) (s : State) : (raiseEvent e s).eval = s.eval := (congrArg State.eval (raiseEvent_shell e s) :)
@[simp] theorem raiseEvent_results (e : Event) (s : State) : (raiseEvent e s).results = s.results := (congrArg State.results (raiseEvent_shell e s) :)
@[simp] theorem raiseEvent_history (e : Event) (s : State) : (raiseEvent e s).history = s.history := (congrArg State.history (raiseEvent_shell e s) :)
@[simp] theorem raiseEvent_record (e : Event) (s : State) : (raiseEvent e s).record = s.record := (congrArg State.record (raiseEvent_shell e s) :)
@[simp] theorem raiseEvent_groups (e : Event) (s : State) : (raiseEvent e s).groups = s.groups := (congrArg State.groups (raiseEvent_shell e s) :)
@[simp] theorem raiseEvent_cores (e : Event) (s : State) : (raiseEvent e s).cores = s.cores := (congrArg State.cores (raiseEvent_shell e s) :)
@[simp] theorem raiseEvent_lstat (e : Event) (s : State) : (raiseEvent e s).lstat = s.lstat := (congrArg State.lstat (raiseEvent_shell e s) :)
@[simp] theorem raiseEvent_mm (e : Event) (s : State) : (raiseEvent e s).mm = s.mm := (congrArg State.mm (raiseEvent_shell e s) :)
@[simp] theorem raiseEvent_ports (e : Event) (s : State) : (raiseEvent e s).ports = s.ports := (congrArg State.ports (raiseEvent_shell e s) :)
@[simp] theorem raiseEvent_conns (e : Event) (s : State) : (raiseEvent e s).conns = s.conns := (congrArg State.conns (raiseEvent_shell e s) :)
@[simp] theorem raiseEvent_ingest (e : Event) (s : State) : (raiseEvent e s).ingest = s.ingest := (congrArg State.ingest (raiseEvent_shell e s) :)
@[simp] theorem raiseEvent_coll (e : Event) (s : State) : (raiseEvent e s).coll = s.coll := (congrArg State.coll (raiseEvent_shell e s) :)
@[simp] theorem raiseEvent_leaven (e : Event) (s : State) : (raiseEvent e s).leaven = s.leaven := (congrArg State.leaven (raiseEvent_shell e s) :)
@[simp] theorem raiseEvent_fab (e : Event) (s : State) : (raiseEvent e s).fab = s.fab := (congrArg State.fab (raiseEvent_shell e s) :)
@[simp] theorem raiseEvent_free (e : Event) (s : State) : (raiseEvent e s).free = s.free := (congrArg State.free (raiseEvent_shell e s) :)

@[simp] theorem logAdd_pending (c a h u l : Nat) (d : List Nat) (s : State) : (logAdd c a h u l d s).pending = s.pending := (congrArg State.pending (logAdd_shell c a h u l d s) :)
@[simp] theorem logAdd_localUs (c a h u l : Nat) (d : List Nat) (s : State) : (logAdd c a h u l d s).localUs = s.localUs := (congrArg State.localUs (logAdd_shell c a h u l d s) :)
@[simp] theorem logAdd_pins (c a h u l : Nat) (d : List Nat) (s : State) : (logAdd c a h u l d s).pins = s.pins := (congrArg State.pins (logAdd_shell c a h u l d s) :)
@[simp] theorem logAdd_gov (c a h u l : Nat) (d : List Nat) (s : State) : (logAdd c a h u l d s).gov = s.gov := (congrArg State.gov (logAdd_shell c a h u l d s) :)
@[simp] theorem logAdd_dev (c a h u l : Nat) (d : List Nat) (s : State) : (logAdd c a h u l d s).dev = s.dev := (congrArg State.dev (logAdd_shell c a h u l d s) :)
@[simp] theorem logAdd_regs (c a h u l : Nat) (d : List Nat) (s : State) : (logAdd c a h u l d s).regs = s.regs := (congrArg State.regs (logAdd_shell c a h u l d s) :)
@[simp] theorem logAdd_eff (c a h u l : Nat) (d : List Nat) (s : State) : (logAdd c a h u l d s).eff = s.eff := (congrArg State.eff (logAdd_shell c a h u l d s) :)
@[simp] theorem logAdd_sec (c a h u l : Nat) (d : List Nat) (s : State) : (logAdd c a h u l d s).sec = s.sec := (congrArg State.sec (logAdd_shell c a h u l d s) :)
@[simp] theorem logAdd_bnd (c a h u l : Nat) (d : List Nat) (s : State) : (logAdd c a h u l d s).bnd = s.bnd := (congrArg State.bnd (logAdd_shell c a h u l d s) :)
@[simp] theorem logAdd_recipe (c a h u l : Nat) (d : List Nat) (s : State) : (logAdd c a h u l d s).recipe = s.recipe := (congrArg State.recipe (logAdd_shell c a h u l d s) :)
@[simp] theorem logAdd_eval (c a h u l : Nat) (d : List Nat) (s : State) : (logAdd c a h u l d s).eval = s.eval := (congrArg State.eval (logAdd_shell c a h u l d s) :)
@[simp] theorem logAdd_results (c a h u l : Nat) (d : List Nat) (s : State) : (logAdd c a h u l d s).results = s.results := (congrArg State.results (logAdd_shell c a h u l d s) :)
@[simp] theorem logAdd_history (c a h u l : Nat) (d : List Nat) (s : State) : (logAdd c a h u l d s).history = s.history := (congrArg State.history (logAdd_shell c a h u l d s) :)
@[simp] theorem logAdd_record (c a h u l : Nat) (d : List Nat) (s : State) : (logAdd c a h u l d s).record = s.record := (congrArg State.record (logAdd_shell c a h u l d s) :)
@[simp] theorem logAdd_groups (c a h u l : Nat) (d : List Nat) (s : State) : (logAdd c a h u l d s).groups = s.groups := (congrArg State.groups (logAdd_shell c a h u l d s) :)
@[simp] theorem logAdd_cores (c a h u l : Nat) (d : List Nat) (s : State) : (logAdd c a h u l d s).cores = s.cores := (congrArg State.cores (logAdd_shell c a h u l d s) :)
@[simp] theorem logAdd_lstat (c a h u l : Nat) (d : List Nat) (s : State) : (logAdd c a h u l d s).lstat = s.lstat := (congrArg State.lstat (logAdd_shell c a h u l d s) :)
@[simp] theorem logAdd_mm (c a h u l : Nat) (d : List Nat) (s : State) : (logAdd c a h u l d s).mm = s.mm := (congrArg State.mm (logAdd_shell c a h u l d s) :)
@[simp] theorem logAdd_ports (c a h u l : Nat) (d : List Nat) (s : State) : (logAdd c a h u l d s).ports = s.ports := (congrArg State.ports (logAdd_shell c a h u l d s) :)
@[simp] theorem logAdd_conns (c a h u l : Nat) (d : List Nat) (s : State) : (logAdd c a h u l d s).conns = s.conns := (congrArg State.conns (logAdd_shell c a h u l d s) :)
@[simp] theorem logAdd_ingest (c a h u l : Nat) (d : List Nat) (s : State) : (logAdd c a h u l d s).ingest = s.ingest := (congrArg State.ingest (logAdd_shell c a h u l d s) :)
@[simp] theorem logAdd_coll (c a h u l : Nat) (d : List Nat) (s : State) : (logAdd c a h u l d s).coll = s.coll := (congrArg State.coll (logAdd_shell c a h u l d s) :)
@[simp] theorem logAdd_leaven (c a h u l : Nat) (d : List Nat) (s : State) : (logAdd c a h u l d s).leaven = s.leaven := (congrArg State.leaven (logAdd_shell c a h u l d s) :)
@[simp] theorem logAdd_fab (c a h u l : Nat) (d : List Nat) (s : State) : (logAdd c a h u l d s).fab = s.fab := (congrArg State.fab (logAdd_shell c a h u l d s) :)
@[simp] theorem logAdd_free (c a h u l : Nat) (d : List Nat) (s : State) : (logAdd c a h u l d s).free = s.free := (congrArg State.free (logAdd_shell c a h u l d s) :)

@[simp] theorem logPlain_pending (c : Nat) (d : List Nat) (s : State) : (logPlain c d s).pending = s.pending := (congrArg State.pending (logAdd_shell c 8 0xFF 0 0xFFFF d s) :)
@[simp] theorem logPlain_localUs (c : Nat) (d : List Nat) (s : State) : (logPlain c d s).localUs = s.localUs := (congrArg State.localUs (logAdd_shell c 8 0xFF 0 0xFFFF d s) :)
@[simp] theorem logPlain_pins (c : Nat) (d : List Nat) (s : State) : (logPlain c d s).pins = s.pins := (congrArg State.pins (logAdd_shell c 8 0xFF 0 0xFFFF d s) :)
@[simp] theorem logPlain_gov (c : Nat) (d : List Nat) (s : State) : (logPlain c d s).gov = s.gov := (congrArg State.gov (logAdd_shell c 8 0xFF 0 0xFFFF d s) :)
@[simp] theorem logPlain_dev (c : Nat) (d : List Nat) (s : State) : (logPlain c d s).dev = s.dev := (congrArg State.dev (logAdd_shell c 8 0xFF 0 0xFFFF d s) :)
@[simp] theorem logPlain_regs (c : Nat) (d : List Nat) (s : State) : (logPlain c d s).regs = s.regs := (congrArg State.regs (logAdd_shell c 8 0xFF 0 0xFFFF d s) :)
@[simp] theorem logPlain_eff (c : Nat) (d : List Nat) (s : State) : (logPlain c d s).eff = s.eff := (congrArg State.eff (logAdd_shell c 8 0xFF 0 0xFFFF d s) :)
@[simp] theorem logPlain_sec (c : Nat) (d : List Nat) (s : State) : (logPlain c d s).sec = s.sec := (congrArg State.sec (logAdd_shell c 8 0xFF 0 0xFFFF d s) :)
@[simp] theorem logPlain_bnd (c : Nat) (d : List Nat) (s : State) : (logPlain c d s).bnd = s.bnd := (congrArg State.bnd (logAdd_shell c 8 0xFF 0 0xFFFF d s) :)
@[simp] theorem logPlain_recipe (c : Nat) (d : List Nat) (s : State) : (logPlain c d s).recipe = s.recipe := (congrArg State.recipe (logAdd_shell c 8 0xFF 0 0xFFFF d s) :)
@[simp] theorem logPlain_eval (c : Nat) (d : List Nat) (s : State) : (logPlain c d s).eval = s.eval := (congrArg State.eval (logAdd_shell c 8 0xFF 0 0xFFFF d s) :)
@[simp] theorem logPlain_results (c : Nat) (d : List Nat) (s : State) : (logPlain c d s).results = s.results := (congrArg State.results (logAdd_shell c 8 0xFF 0 0xFFFF d s) :)
@[simp] theorem logPlain_history (c : Nat) (d : List Nat) (s : State) : (logPlain c d s).history = s.history := (congrArg State.history (logAdd_shell c 8 0xFF 0 0xFFFF d s) :)
@[simp] theorem logPlain_record (c : Nat) (d : List Nat) (s : State) : (logPlain c d s).record = s.record := (congrArg State.record (logAdd_shell c 8 0xFF 0 0xFFFF d s) :)
@[simp] theorem logPlain_groups (c : Nat) (d : List Nat) (s : State) : (logPlain c d s).groups = s.groups := (congrArg State.groups (logAdd_shell c 8 0xFF 0 0xFFFF d s) :)
@[simp] theorem logPlain_cores (c : Nat) (d : List Nat) (s : State) : (logPlain c d s).cores = s.cores := (congrArg State.cores (logAdd_shell c 8 0xFF 0 0xFFFF d s) :)
@[simp] theorem logPlain_lstat (c : Nat) (d : List Nat) (s : State) : (logPlain c d s).lstat = s.lstat := (congrArg State.lstat (logAdd_shell c 8 0xFF 0 0xFFFF d s) :)
@[simp] theorem logPlain_mm (c : Nat) (d : List Nat) (s : State) : (logPlain c d s).mm = s.mm := (congrArg State.mm (logAdd_shell c 8 0xFF 0 0xFFFF d s) :)
@[simp] theorem logPlain_ports (c : Nat) (d : List Nat) (s : State) : (logPlain c d s).ports = s.ports := (congrArg State.ports (logAdd_shell c 8 0xFF 0 0xFFFF d s) :)
@[simp] theorem logPlain_conns (c : Nat) (d : List Nat) (s : State) : (logPlain c d s).conns = s.conns := (congrArg State.conns (logAdd_shell c 8 0xFF 0 0xFFFF d s) :)
@[simp] theorem logPlain_ingest (c : Nat) (d : List Nat) (s : State) : (logPlain c d s).ingest = s.ingest := (congrArg State.ingest (logAdd_shell c 8 0xFF 0 0xFFFF d s) :)
@[simp] theorem logPlain_coll (c : Nat) (d : List Nat) (s : State) : (logPlain c d s).coll = s.coll := (congrArg State.coll (logAdd_shell c 8 0xFF 0 0xFFFF d s) :)
@[simp] theorem logPlain_leaven (c : Nat) (d : List Nat) (s : State) : (logPlain c d s).leaven = s.leaven := (congrArg State.leaven (logAdd_shell c 8 0xFF 0 0xFFFF d s) :)
@[simp] theorem logPlain_fab (c : Nat) (d : List Nat) (s : State) : (logPlain c d s).fab = s.fab := (congrArg State.fab (logAdd_shell c 8 0xFF 0 0xFFFF d s) :)
@[simp] theorem logPlain_free (c : Nat) (d : List Nat) (s : State) : (logPlain c d s).free = s.free := (congrArg State.free (logAdd_shell c 8 0xFF 0 0xFFFF d s) :)

@[simp] theorem setDev_pending (d : DevState) (s : State) : (setDev d s).pending = s.pending := (congrArg State.pending (setDev_shell d s) :)
@[simp] theorem setDev_localUs (d : DevState) (s : State) : (setDev d s).localUs = s.localUs := (congrArg State.localUs (setDev_shell d s) :)
@[simp] theorem setDev_pins (d : DevState) (s : State) : (setDev d s).pins = s.pins := (congrArg State.pins (setDev_shell d s) :)
@[simp] theorem setDev_gov (d : DevState) (s : State) : (setDev d s).gov = s.gov := (congrArg State.gov (setDev_shell d s) :)
@[simp] theorem setDev_regs (d : DevState) (s : State) : (setDev d s).regs = s.regs := (congrArg State.regs (setDev_shell d s) :)
@[simp] theorem setDev_eff (d : DevState) (s : State) : (setDev d s).eff = s.eff := (congrArg State.eff (setDev_shell d s) :)
@[simp] theorem setDev_sec (d : DevState) (s : State) : (setDev d s).sec = s.sec := (congrArg State.sec (setDev_shell d s) :)
@[simp] theorem setDev_log (d : DevState) (s : State) : (setDev d s).log = s.log := (congrArg State.log (setDev_shell d s) :)
@[simp] theorem setDev_job (d : DevState) (s : State) : (setDev d s).job = s.job := (congrArg State.job (setDev_shell d s) :)
@[simp] theorem setDev_bnd (d : DevState) (s : State) : (setDev d s).bnd = s.bnd := (congrArg State.bnd (setDev_shell d s) :)
@[simp] theorem setDev_recipe (d : DevState) (s : State) : (setDev d s).recipe = s.recipe := (congrArg State.recipe (setDev_shell d s) :)
@[simp] theorem setDev_eval (d : DevState) (s : State) : (setDev d s).eval = s.eval := (congrArg State.eval (setDev_shell d s) :)
@[simp] theorem setDev_results (d : DevState) (s : State) : (setDev d s).results = s.results := (congrArg State.results (setDev_shell d s) :)
@[simp] theorem setDev_history (d : DevState) (s : State) : (setDev d s).history = s.history := (congrArg State.history (setDev_shell d s) :)
@[simp] theorem setDev_record (d : DevState) (s : State) : (setDev d s).record = s.record := (congrArg State.record (setDev_shell d s) :)
@[simp] theorem setDev_groups (d : DevState) (s : State) : (setDev d s).groups = s.groups := (congrArg State.groups (setDev_shell d s) :)
@[simp] theorem setDev_cores (d : DevState) (s : State) : (setDev d s).cores = s.cores := (congrArg State.cores (setDev_shell d s) :)
@[simp] theorem setDev_lstat (d : DevState) (s : State) : (setDev d s).lstat = s.lstat := (congrArg State.lstat (setDev_shell d s) :)
@[simp] theorem setDev_mm (d : DevState) (s : State) : (setDev d s).mm = s.mm := (congrArg State.mm (setDev_shell d s) :)
@[simp] theorem setDev_ports (d : DevState) (s : State) : (setDev d s).ports = s.ports := (congrArg State.ports (setDev_shell d s) :)
@[simp] theorem setDev_conns (d : DevState) (s : State) : (setDev d s).conns = s.conns := (congrArg State.conns (setDev_shell d s) :)
@[simp] theorem setDev_ingest (d : DevState) (s : State) : (setDev d s).ingest = s.ingest := (congrArg State.ingest (setDev_shell d s) :)
@[simp] theorem setDev_coll (d : DevState) (s : State) : (setDev d s).coll = s.coll := (congrArg State.coll (setDev_shell d s) :)
@[simp] theorem setDev_leaven (d : DevState) (s : State) : (setDev d s).leaven = s.leaven := (congrArg State.leaven (setDev_shell d s) :)
@[simp] theorem setDev_fab (d : DevState) (s : State) : (setDev d s).fab = s.fab := (congrArg State.fab (setDev_shell d s) :)
@[simp] theorem setDev_free (d : DevState) (s : State) : (setDev d s).free = s.free := (congrArg State.free (setDev_shell d s) :)

@[simp] theorem setJob_pending (j : JobState) (c : Nat) (s : State) : (setJob j c s).pending = s.pending := (congrArg State.pending (setJob_shell j c s) :)
@[simp] theorem setJob_localUs (j : JobState) (c : Nat) (s : State) : (setJob j c s).localUs = s.localUs := (congrArg State.localUs (setJob_shell j c s) :)
@[simp] theorem setJob_pins (j : JobState) (c : Nat) (s : State) : (setJob j c s).pins = s.pins := (congrArg State.pins (setJob_shell j c s) :)
@[simp] theorem setJob_gov (j : JobState) (c : Nat) (s : State) : (setJob j c s).gov = s.gov := (congrArg State.gov (setJob_shell j c s) :)
@[simp] theorem setJob_regs (j : JobState) (c : Nat) (s : State) : (setJob j c s).regs = s.regs := (congrArg State.regs (setJob_shell j c s) :)
@[simp] theorem setJob_eff (j : JobState) (c : Nat) (s : State) : (setJob j c s).eff = s.eff := (congrArg State.eff (setJob_shell j c s) :)
@[simp] theorem setJob_sec (j : JobState) (c : Nat) (s : State) : (setJob j c s).sec = s.sec := (congrArg State.sec (setJob_shell j c s) :)
@[simp] theorem setJob_log (j : JobState) (c : Nat) (s : State) : (setJob j c s).log = s.log := (congrArg State.log (setJob_shell j c s) :)
@[simp] theorem setJob_bnd (j : JobState) (c : Nat) (s : State) : (setJob j c s).bnd = s.bnd := (congrArg State.bnd (setJob_shell j c s) :)
@[simp] theorem setJob_recipe (j : JobState) (c : Nat) (s : State) : (setJob j c s).recipe = s.recipe := (congrArg State.recipe (setJob_shell j c s) :)
@[simp] theorem setJob_results (j : JobState) (c : Nat) (s : State) : (setJob j c s).results = s.results := (congrArg State.results (setJob_shell j c s) :)
@[simp] theorem setJob_history (j : JobState) (c : Nat) (s : State) : (setJob j c s).history = s.history := (congrArg State.history (setJob_shell j c s) :)
@[simp] theorem setJob_record (j : JobState) (c : Nat) (s : State) : (setJob j c s).record = s.record := (congrArg State.record (setJob_shell j c s) :)
@[simp] theorem setJob_groups (j : JobState) (c : Nat) (s : State) : (setJob j c s).groups = s.groups := (congrArg State.groups (setJob_shell j c s) :)
@[simp] theorem setJob_cores (j : JobState) (c : Nat) (s : State) : (setJob j c s).cores = s.cores := (congrArg State.cores (setJob_shell j c s) :)
@[simp] theorem setJob_lstat (j : JobState) (c : Nat) (s : State) : (setJob j c s).lstat = s.lstat := (congrArg State.lstat (setJob_shell j c s) :)
@[simp] theorem setJob_mm (j : JobState) (c : Nat) (s : State) : (setJob j c s).mm = s.mm := (congrArg State.mm (setJob_shell j c s) :)
@[simp] theorem setJob_ports (j : JobState) (c : Nat) (s : State) : (setJob j c s).ports = s.ports := (congrArg State.ports (setJob_shell j c s) :)
@[simp] theorem setJob_conns (j : JobState) (c : Nat) (s : State) : (setJob j c s).conns = s.conns := (congrArg State.conns (setJob_shell j c s) :)
@[simp] theorem setJob_ingest (j : JobState) (c : Nat) (s : State) : (setJob j c s).ingest = s.ingest := (congrArg State.ingest (setJob_shell j c s) :)
@[simp] theorem setJob_coll (j : JobState) (c : Nat) (s : State) : (setJob j c s).coll = s.coll := (congrArg State.coll (setJob_shell j c s) :)
@[simp] theorem setJob_leaven (j : JobState) (c : Nat) (s : State) : (setJob j c s).leaven = s.leaven := (congrArg State.leaven (setJob_shell j c s) :)
@[simp] theorem setJob_fab (j : JobState) (c : Nat) (s : State) : (setJob j c s).fab = s.fab := (congrArg State.fab (setJob_shell j c s) :)
@[simp] theorem setJob_free (j : JobState) (c : Nat) (s : State) : (setJob j c s).free = s.free := (congrArg State.free (setJob_shell j c s) :)

/-- A log record changes only the count of records of the step in the job. -/
theorem logAdd_job (c a h u l : Nat) (d : List Nat) (s : State) :
    { (logAdd c a h u l d s).job with logInStep := s.job.logInStep } = s.job := by
  unfold logAdd
  dsimp only
  split
  · rfl
  · split
    · rw [raiseEvent_job]
    · rfl

@[simp] theorem logAdd_job_st (c a h u l : Nat) (d : List Nat) (s : State) :
    (logAdd c a h u l d s).job.st = s.job.st := by
  have e := logAdd_job c a h u l d s
  exact (congrArg Job.st e :)

/-- The job state after a change of it. -/
theorem setJob_job (j : JobState) (c : Nat) (s : State) (h : j ≠ s.job.st) :
    (setJob j c s).job = { s.job with st := j, haltCode := if j = .halted then c else 0 } := by
  unfold setJob
  rw [if_neg h, followJob_job, raiseEvent_job]
  rfl

@[simp] theorem setJob_job_st (j : JobState) (c : Nat) (s : State) : (setJob j c s).job.st = j := by
  by_cases h : j = s.job.st
  · unfold setJob; rw [if_pos h]; exact h.symm
  · rw [setJob_job j c s h]

end Sys2Proof.Machine
end

