-- ==== Sys2Proof/Tests/Slice0.lean ====
section
/-! SUPPORT. The model's own tests: the well-formedness checks, the manual's worked figures, and for every claim of
Certificates/Slice0/Obligations.lean concrete states that meet its premises, with what the command does there. -/

namespace Sys2Proof.Tests

open Sys2Proof.Machine

set_option Elab.async false

/-! ## Helpers -/

/-- A live session of a controller on the T1S, and a message of it whose body has `n` bytes. -/
def ses : Session :=
  { sid := 1, right := 1, key := [7], transport := .t1s, peer := 9, opened := 0, tagged := true, lastRx := 0, rxHi := 0,
    rxSeen := [], txSeq := 0, cache := [], report := none }
def hdr (n : Nat) : EdpHdr :=
  { transport := .t1s, peer := 9, magic := 0x4544, version := 1, reserved := 0, bodyLen := n, datagramLen := 72 + n,
    session := 1, seq := 1, target := 0xFFFF, tagOk := true }

/-- A module in STANDBY with that session, and one in READY. -/
def down : State :=
  { State.reset with
    pins := { Pins.reset with resetAsserted := false }
    dev := { Dev.reset with stage := 1 }
    edp := { Edp.reset with sessions := [ses] } }
def up : State :=
  { down with
    pins := { down.pins with pwrEn := true, pwrGood := true }
    dev := { Dev.reset with
      st := .ready, stage := 7, mainUp := true, map := (List.range 384).map (· % 96)
      phys := (List.range 400).map fun p => if p % 100 < 96 then 0 else 1 }
    gov := { Gov.reset with vcore := [550, 550, 550, 550] }
    mm := { MemSt.reset with up := true } }

/-- READY or ACTIVE with a job in a state. -/
def job (j : JobState) : State :=
  { up with job := { Job.reset with st := j }, dev := { up.dev with st := if j.live then .active else .ready } }

/-- The command answers a next state of which `p` holds. -/
def holds (c : Instr) (s : State) (p : State → Bool) : Bool :=
  match exec c s with
  | .next t => p t
  | _ => false

/-- The last message sent is an ACK with a status. -/
def acked (code : Nat) (t : State) : Bool :=
  match t.tx.getLast? with
  | some (.ack _ _ _ _ a) => a.status == code
  | _ => false

/-- A message of the session is accepted. -/
def may (n : Nat) (s : State) : Bool :=
  s.stewardUp && s.reaches .t1s && msgOk (hdr n) n && !s.elsewhere (hdr n) && s.session 1 == some ses

theorem accepts_of_may {b : EdpBody} {n : Nat} {s : State} (h : may n s = true) : Accepts (hdr n) b n ses s := by
  simp only [may, Bool.and_eq_true, Bool.not_eq_true', beq_iff_eq] at h
  obtain ⟨⟨⟨⟨a, c⟩, d⟩, e⟩, f⟩ := h
  exact ⟨a, c, d, e, (by decide : (1 : BitVec 32) ≠ 0), f, rfl, rfl, rfl⟩

theorem sends_of_may {idx sub ty : Nat} {val : Bytes} {s : State}
    (h : may (4 + val.length) s = true) (k : s.heldElse ses idx sub = false) :
    SendsWrite (hdr (4 + val.length)) idx sub ty val ses s := ⟨accepts_of_may h, rfl, k⟩

/-- Both at once, for the one-byte codes. -/
def code (idx sub _v : Nat) (s : State) : Bool :=
  may 5 s && !s.heldElse ses idx sub

theorem sends_of_code {idx sub v : Nat} {s : State} (h : code idx sub v s = true) : SendsCode (hdr 5) idx sub v ses s := by
  simp only [code, Bool.and_eq_true, Bool.not_eq_true'] at h
  exact ⟨accepts_of_may h.1, rfl, h.2⟩

/-- A container of empty sections of KIND 1, and storage that holds nothing. -/
def kind1 : Container :=
  { header := [0, 0x100], sects := [], signer := [], sigOk := true, tailZero := true, layerSec := [], kernelSec := [],
    collSec := [], interSec := [], rootSec := [], budgetSec := [], evalSec := [], programs := [], regions := [], stats := [] }
def noImage : CkptImage := ⟨0, [], ⟨0, 0, 0⟩, [], [], false⟩
def noInstall : Install := ⟨true, [], none, noImage, noImage⟩

/-! ## Job commands -/

theorem test_pause : code 0x5001 1 3 (job .running) = true ∧ (job .running).job.pend = none
    ∧ holds (.pause (hdr 5)) (job .running) (fun t => acked OK t && t.job.pend == some .pause) = true := by decide +kernel
theorem test_resume : code 0x5001 1 4 (job .paused) = true ∧ (job .paused).job.pend = none
    ∧ holds (.resume (hdr 5)) (job .paused) (fun t => acked OK t && t.job.pend == some .resume) = true := by decide +kernel
theorem test_stop : code 0x5001 1 5 (job .repeating) = true ∧ code 0x5001 1 5 (job .halted) = true
    ∧ holds (.stop (hdr 5)) (job .repeating) (fun t => acked OK t && t.job.pend == some .stop) = true
    ∧ holds (.stop (hdr 5)) (job .halted) (fun t => acked OK t && t.job.st == .idle) = true := by decide +kernel
theorem test_abort_step : code 0x5001 1 6 (job .running) = true ∧ CanRepeat (job .running)
    ∧ holds (.abortStep (hdr 5)) (job .running) (fun t => acked OK t && t.job.attempt == 1 && t.job.st == .repeating) = true
    ∧ (let s : State := { job .running with coll := { CollSt.reset with prepSent := true } }
       code 0x5001 1 6 s = true ∧ s.inStep = true
        ∧ holds (.abortStep (hdr 5)) s (fun t => t.job.attempt == 0 && t.job.abortAsked) = true)
    ∧ (let s : State := { job .running with bnd := { Boundary.reset with order := 3 } }
       code 0x5001 1 6 s = true ∧ s.inStep = false
        ∧ holds (.abortStep (hdr 5)) s (fun t => t.job.attempt == 0 && t.log.ring.length == 1) = true) := by
  unfold CanRepeat; decide +kernel
theorem test_checkpoint_now : code 0x5001 1 7 (job .running) = true
    ∧ holds (.checkpointNow (hdr 5)) (job .running) (fun t => acked OK t && t.job.pend == some .checkpointNow) = true := by
  decide +kernel
theorem test_job_commands_busy :
    code 0x5001 1 1 (job .running) = true ∧ holds (.load (hdr 5)) (job .running) (acked BUSY) = true
    ∧ code 0x5001 1 2 (job .idle) = true ∧ holds (.start (hdr 5) noInstall) (job .idle) (acked BUSY) = true
    ∧ code 0x5001 1 3 (job .paused) = true ∧ holds (.pause (hdr 5)) (job .paused) (acked BUSY) = true
    ∧ code 0x5001 1 4 (job .running) = true ∧ holds (.resume (hdr 5)) (job .running) (acked BUSY) = true
    ∧ code 0x5001 1 5 (job .idle) = true ∧ holds (.stop (hdr 5)) (job .idle) (acked BUSY) = true
    ∧ code 0x5001 1 6 (job .loaded) = true ∧ holds (.abortStep (hdr 5)) (job .loaded) (acked BUSY) = true
    ∧ code 0x5001 1 7 (job .loaded) = true ∧ holds (.checkpointNow (hdr 5)) (job .loaded) (acked BUSY) = true := by decide +kernel
theorem test_pending_is_busy :
    let s : State := { job .running with job := { Job.reset with st := .running, pend := some .pause } }
    code 0x5001 1 3 s = true ∧ code 0x5001 1 5 s = true ∧ holds (.pause (hdr 5)) s (acked BUSY) = true
      ∧ holds (.stop (hdr 5)) s (acked BUSY) = true ∧ holds (.checkpointNow (hdr 5)) s (acked BUSY) = true := by decide +kernel
theorem test_load :
    let s : State := { job .idle with recipe := { Recipe.reset with staged := some kind1 } }
    code 0x5001 1 1 s = true ∧ contKind kind1 = 1 ∧ s.dev.st = .ready
      ∧ holds (.load (hdr 5)) s (fun t => acked OK t && t.recipe.outcome == DESCRIPTOR_INVALID && t.job.st == .idle) = true
      ∧ code 0x5001 1 1 (job .idle) = true ∧ (job .idle).recipe.staged = none
      ∧ holds (.load (hdr 5)) (job .idle) (acked NOT_READY) = true := by decide +kernel
/-- A loaded recipe of empty sections, on the one device of its commit group, with storage that holds an empty image. -/
theorem test_start :
    let s : State := { job .loaded with
      recipe := { Recipe.reset with loaded := some kind1 }, coll := { CollSt.reset with members := [0xFFFF] } }
    let moved : State := { s with coll := CollSt.reset }
    let src : Source := ⟨0, [], false, ⟨0, 0, 0⟩, []⟩
    code 0x5001 1 2 s = true ∧ s.isDiag = false ∧ s.source { noInstall with image := some [] } = some src ∧ s.inLists = true
      ∧ holds (.start (hdr 5) { noInstall with image := some [] }) s
          (fun t => acked OK t && t.job.st == .running && t.job.step == 1 && t.dev.st == .active) = true
      ∧ code 0x5001 1 2 moved = true ∧ moved.inLists = false ∧ moved.source { noInstall with image := some [] } = some src
      ∧ holds (.start (hdr 5) { noInstall with image := some [] }) moved
          (fun t => acked OK t && t.job.st == .halted && t.job.haltCode == DESCRIPTOR_INVALID) = true
      ∧ holds (.start (hdr 5) noInstall) { s with dev := { s.dev with st := .proofing } } (acked BUSY) = true
      ∧ s.source noInstall = none
      ∧ holds (.start (hdr 5) noInstall) s (fun t => acked OK t && t.job.haltCode == NOT_READY) = true
      ∧ holds (.start (hdr 5) { noInstall with nsOk := false }) s (acked DESCRIPTOR_INVALID) = true := by decide +kernel
theorem test_start_diagnostic :
    let s : State := { job .loaded with
      dev := { up.dev with st := .proofing }
      recipe := { Recipe.reset with loaded := some { kind1 with header := [0, 0x200], evalSec := List.replicate 8 0 } } }
    code 0x5001 1 2 s = true ∧ s.isDiag = true ∧ s.segments ≠ []
      ∧ holds (.start (hdr 5) noInstall) s (fun t => acked OK t && t.job.st == .running && t.bnd.order == 5) = true := by
  decide +kernel

/-! ## Fabric -/

/-- Device (2, 5, 1) with every wired port UP on four lanes, one port changed. -/
def ports (p : Nat) (x : Port) (s : State) : State :=
  { s with fab := { FabSt.reset with
      coord := [2, 5, 1]
      ports := (List.range 48).map fun q => (q, if q = p then x else { Port.reset with
        state := if q < 45 then 3 else 8, lanes := 4, peerDev := 0x251 }) } }
def port (st : Nat) : Port := { Port.reset with state := st, lanes := 4, peerDev := 0x252, peerPort := 2 }
def bulk : Packet :=
  { dst := 0x2C1, src := 0x951, vl := 2, origVl := 2, escClass := 0, kind := 0, hops := 1, dstHearth := 0, dstCore := 3,
    flow := 0, attempt := 0, dstCtx := 0, step := 1, seq := 0, offset := 0, pcrc := crc32c [1, 2], nstatus := 0
    payload := [1, 2] }
/-- It waits, or has been sent, as it stands. -/
def waits (p : Packet) : Waiting := ⟨p, p, none⟩
/-- It comes on a port with a link sequence number. -/
def comes (n : Nat) : LinkIn := ⟨18, n, 0, false⟩

/-- CRC-32C of the nine digits, which every packet's payload is checked by (R291). -/
theorem test_crc32c : crc32c ("123456789".toList.map fun c => BitVec.ofNat 8 c.toNat) = 0xE3069283 := by decide +kernel

theorem test_port_signals :
    holds (.portTrainTimeout 47) (ports 47 (port 2) up) (fun t => (t.port 47).state == 1 && (t.port 46).state == 8) = true
    ∧ holds (.portTrainTimeout 47) { ports 47 (port 2) up with
        fab := { (ports 47 (port 2) up).fab with waking := true } } (fun t => t.dev.st == .ready && !t.fab.waking) = true
    ∧ holds (.portTrainTimeout 0) (ports 0 (port 3) up) (fun t => (t.port 0).state == 3) = true
    ∧ holds (.laneFailure 0) (ports 0 (port 4) up) (fun t => (t.port 0).state == 2 && t.tx == [.retrain 0]) = true
    ∧ holds (.hush 0) { ports 0 (port 3) up with localUs := 7 } (fun t => (t.port 0).hushLast == some 7) = true
    ∧ holds (.hush 0) (ports 0 { port 3 with disregardUntil := 9 } up) (fun t => (t.port 0).hushLast == none) = true
    ∧ holds (.hushHoldEnd 0) (ports 0 { port 3 with hushing := some (1, 9) } up) (fun t => (t.port 0).hushing == none) = true := by
  decide +kernel
theorem test_hush_ends :
    let s := ports 5 { port 3 with hushLast := some 10, hushSince := 2 } up
    (s.port 5).hushLast = some 10
    ∧ holds (.hushLapse 5) s (fun t => t.localUs == 14 && (t.port 5).hushLast == none) = true
    ∧ holds (.overlongHush 5) s (fun t => t.localUs == 2002 && (t.port 5).disregardUntil == 12002
        && t.counter 0x3105 0x0E == 1) = true
    ∧ (s.port 5).disregardUntil ≤ s.localUs ∧ bulk.vl ≠ 0 ∧ startable s (s.port 5) bulk = none := by decide +kernel
/-- Flits 4095 and 0 of one packet, 1 and 2 of the next: the number wraps. A replay starts in the middle of a packet. -/
theorem test_link_level :
    let next := { bulk with seq := 1 }
    let u := [(4095, 2, waits bulk), (1, 2, waits next)]
    let s := ports 5 { port 3 with unacked := u } up
    (linkWords 4095 bulk).map (fun w => (w.first, w.last, w.seqNo, w.flit.length)) = [(true, false, 4095, 64), (false, true, 0, 64)]
    ∧ holds (.linkReplayRequest 5 0) s (fun t => t.counter 0x3105 0x0A == 1
        && t.tx == [.words 5 ((linkWords 4095 bulk).drop 1 ++ linkWords 1 next)]) = true
    ∧ holds (.linkReplayRequest 5 1) s (fun t => t.tx == [.words 5 (linkWords 1 next)]) = true
    ∧ holds (.linkReplayRequest 5 9) s (fun t => t.tx == []) = true
    ∧ holds (.linkAcknowledgment 5 0) s (fun t => (t.port 5).unacked == [(1, 2, waits next)]) = true
    ∧ holds (.linkAcknowledgment 5 1) s (fun t => (t.port 5).unacked == [(1, 2, waits next)]) = true
    ∧ holds (.linkAcknowledgment 5 4095) s (fun t => (t.port 5).unacked == u) = true
    ∧ holds (.linkAcknowledgment 5 2) s (fun t => (t.port 5).unacked == []) = true
    ∧ holds (.linkCreditReturn 5 2 5 3) (ports 5 { port 3 with used := [(16, 5), (32, 1)] } up)
        (fun t => (t.port 5).used == [(16, 2), (32, 1)]) = true := by decide +kernel
/-- The first words of a header by Table 12.1: 0x2C1951A0, then one hop, two bytes and core 3 in 0x01001006. -/
theorem test_packet_header : (packetHeader bulk).take 8 = [0xA0, 0x51, 0x19, 0x2C, 0x06, 0x10, 0x00, 0x01]
    ∧ (packetHeader bulk).length = 64 := by decide +kernel
theorem test_spoiled_packets :
    let s := ports 18 { port 3 with nextIn := 4094 } up
    s.dev.mainUp = true ∧ (s.port 18).usable = true
    ∧ holds (.packetForward (some ⟨18, 4094, 2, true⟩) bulk) s (fun t => t.tx == [.linkReplay 18 4094]
        && t.counter 0x3112 9 == 1 && t.counter 0x3112 8 == 2) = true
    ∧ holds (.packetForward (some (comes 4094)) { bulk with pcrc := 0 }) s (fun t => t.tx == [.linkReplay 18 4094]) = true
    ∧ holds (.packetForward (some (comes 1)) bulk) s (fun t => t.tx == [.linkReplay 18 4094]) = true
    ∧ holds (.packetForward (some (comes 4092)) bulk) s (fun t => t.tx == [.linkAck 18 4093]) = true := by decide +kernel
theorem test_retrain :
    let s := ports 19 (port 2) up
    (s.port 19).state = 2 ∧ (s.port 19).peerDev ≠ 0xFFFF
    ∧ holds (.retrainComplete 19 2) s (fun t => (t.port 19).state == 4 && (t.port 19).lanes == 2
        && t.counter 0x3113 0x0B == 1 && t.log.ring.length == 1) = true
    ∧ holds (.retrainComplete 19 4) s (fun t => (t.port 19).state == 3 && t.log.ring.length == 0) = true
    ∧ holds (.retrainComplete 19 4) { s with regs := { s.regs with laneMask := List.replicate 48 7 } }
        (fun t => (t.port 19).lanes == 1 && (t.port 19).state == 4) = true
    ∧ holds (.retrainComplete 19 4) { s with regs := { s.regs with laneMask := List.replicate 48 15 } }
        (fun t => (t.port 19).state == 1) = true
    ∧ holds (.retrainComplete 19 4) (ports 19 { Port.reset with state := 2 } up)
        (fun t => (t.port 19).state == 2 && (t.port 19).lanes == 4) = true := by
  decide +kernel
theorem test_port_down :
    let s := { ports 19 { port 2 with unacked := [(0, 2, waits bulk)] } up with job := { Job.reset with st := .running } }
    s.inStep = true ∧ s.coll.prepSent = false ∧ s.job.attempt < s.eff.repeatLimit
    ∧ holds (.portDown 19) s (fun t => (t.port 19).state == 1 && t.job.attempt == 1) = true
    ∧ holds (.portDown 19) (ports 19 (port 5) up) (fun t => (t.port 19).state == 1) = true
    ∧ holds (.downPortRetry 19 true) (ports 19 (port 1) up) (fun t => (t.port 19).state == 4 && (t.port 19).lanes == 1) = true
    ∧ holds (.downPortRetry 19 false) (ports 19 (port 1) up) (fun t => (t.port 19).state == 1) = true := by decide +kernel
theorem test_announcement :
    up.dev.mainUp = true
    ∧ holds (.linkStateAnnouncement 0x251 3 false) up (fun t => t.fab.down == [(0x251, 3)]) = true
    ∧ holds (.linkStateAnnouncement 0x251 3 true) { up with fab := { up.fab with down := [(0x251, 3), (1, 1)] } }
        (fun t => t.fab.down == [(1, 1)]) = true := by decide +kernel
/-- Table 12.6: at (2, 5, 1) with port 19 down, a packet to (2, 12, 1) detours by port 1 on VL3. -/
theorem test_forward :
    let s := ports 19 (port 1) up
    let out : List Tx := [.linkAck 18 1, .linkCredit 18 2 0 2]
    s.nextHop bulk [0, 1, 2] true none = .go 1 true ∧ (s.port 18).usable = true ∧ bulk.dst ≠ s.fabId
    ∧ holds (.packetForward (some (comes 0)) bulk) s (fun t =>
        t.tx == out ++ [.words 1 (linkWords 0 { bulk with vl := 3, escClass := 0, hops := 2 })] && t.fab.counted.length == 1) = true
    ∧ holds (.packetForward (some (comes 0)) { bulk with hops := 8 }) s (fun t => t.tx == out && t.counter 0x3101 0x0D == 1) = true
    ∧ holds (.packetForward (some (comes 0)) { bulk with vl := 3, escClass := 5 }) s
        (fun t => t.tx == [.linkAck 18 1, .linkCredit 18 3 5 2] && t.counter 0x3101 0x0D == 1) = true
    ∧ holds (.packetForward (some (comes 0)) { bulk with dst := 0x251, kind := 1 }) s
        (fun t => t.fab.delivered == [{ bulk with dst := 0x251, kind := 1 }] && t.tx == out && (t.port 18).nextIn == 2) = true
    ∧ holds (.packetForward none bulk) s (fun t => (t.port 1).unacked.length == 1) = true := by decide +kernel
/-- A hushed port keeps what comes in the receive buffer it came into, and no credit goes back (R294, R296). -/
theorem test_receive_buffer :
    let s := ports 19 { port 3 with hushLast := some 0 } up
    holds (.packetForward (some (comes 0)) bulk) s (fun t => t.tx == [.linkAck 18 1] && (t.port 18).held == [(16, 2)]
      && (t.port 19).queue.length == 1) = true := by decide +kernel
/-- Table 12.6 without the detour: port 19 serves Y at offset 7. -/
theorem test_forward_minimal :
    (ports 0 (port 3) up).nextHop bulk [0, 1, 2] true none = .go 19 false := by decide +kernel
theorem test_identity :
    let s := ports 19 (port 2) up
    s.roleOf 19 = some (1, 7)
    ∧ holds (.identityExchange 19 ⟨0x2C1, 25, 0, 16, 16, true⟩) s (fun t => (t.port 19).state == 3) = true
    ∧ holds (.identityExchange 19 ⟨0x2B1, 25, 0, 16, 16, true⟩) s (fun t => (t.port 19).state == 6) = true
    ∧ holds (.identityExchange 19 ⟨0x2C1, 25, 0, 8, 16, true⟩) s (fun t => (t.port 19).state == 7) = true
    ∧ holds (.identityExchange 19 ⟨0x2C1, 25, 0, 16, 16, false⟩) s (fun t => (t.port 19).state == 7) = true
    ∧ holds (.identityExchange 19 ⟨0x2C1, 25, 0, 16, 16, true⟩) { s with fab := { s.fab with waking := true } }
        (fun t => t.dev.st == .ready && !t.fab.waking) = true
    ∧ (let u := { ports 19 { port 2 with lanes := 0 } up with regs := { up.regs with laneMask := List.replicate 48 15 } }
       u.lanesAllowed 19 = 0
        ∧ holds (.identityExchange 19 ⟨0x2C1, 25, 0, 16, 16, true⟩) u (fun t => (t.port 19).state == 1) = true) := by
  decide +kernel
theorem test_reconfigure :
    let s := { ports 0 (port 3) up with regs := { Regs.default with coord := [1, 2, 3] } }
    code 0x3000 8 1 s = true ∧ s.job.st.live = false ∧ s.dev.st = .ready
    ∧ holds (.reconfigure (hdr 5)) s (fun t => acked OK t && t.fab.coord == [1, 2, 3] && (t.port 44).state == 2
        && (t.port 45).state == 8 && t.fab.rebuilding) = true
    ∧ code 0x3000 8 1 (job .paused) = true ∧ holds (.reconfigure (hdr 5)) (job .paused) (acked BUSY) = true
    ∧ holds (.load (hdr 5)) { job .idle with fab := { FabSt.reset with rebuilding := true } } (acked BUSY) = true
    ∧ code 0x3000 8 1 down = true
    ∧ holds (.reconfigure (hdr 5)) down (fun t => acked OK t && t.fab == down.fab) = true := by decide +kernel
theorem test_fabric_registers :
    let s := ports 0 (port 3) up
    code 0x3100 7 15 s = true
    ∧ holds (.laneMaskWrite (hdr 5) 0 15) s (fun t => acked OK t && (t.port 0).state == 2 && (t.port 1).state == 3) = true
    ∧ holds (.laneMaskWrite (hdr 5) 0 15) (ports 0 (port 1) up) (fun t => acked OK t && (t.port 0).state == 2) = true
    ∧ holds (.spareSubstitution (hdr 5) 45 44) s (fun t => acked OK t && t.regs.spare.getD 45 0 == 44) = true
    ∧ holds (.spareSubstitution (hdr 5) 44 1) s (acked TYPE_MISMATCH) = true
    ∧ holds (.coordinateWrite (hdr 5) 1 15) s (fun t => acked OK t && t.regs.coord == [15, 0xFF, 0xFF]) = true
    ∧ holds (.coordinateWrite (hdr 5) 3 16) s (acked TYPE_MISMATCH) = true
    ∧ holds (.coordinateWrite (hdr 5) 2 0xFF) s (acked OK) = true
    ∧ code 0x3000 1 0 (job .paused) = true
    ∧ holds (.coordinateWrite (hdr 5) 1 0) (job .paused) (acked BUSY) = true := by decide +kernel

/-! ## Dictionary protocol -/

/-- The answer to the last request carries a value. -/
def answered (v : Bytes) (t : State) : Bool :=
  match t.tx.getLast? with
  | some (.ack _ _ _ _ a) => a.status == OK && a.data == v
  | _ => false

/-- N_Y (Table 12.9) reads as the byte 16; 0x3000:08 is write-only; 0x3000:30 does not exist. -/
theorem test_read :
    may 4 up = true ∧ (entryOf 0x3000 6).isSome = true
    ∧ holds (.read (hdr 4) 0x3000 6) up (answered [16]) = true
    ∧ may 12 up = true ∧ holds (.readBlock (hdr 12) 0x3000 6 0 1) up (answered [16]) = true
    ∧ (entryOf 0x3000 8).map (·.acc) = some .wo ∧ holds (.read (hdr 4) 0x3000 8) up (acked ACCESS_DENIED) = true
    ∧ entryOf 0x3000 30 = none ∧ holds (.read (hdr 4) 0x3000 30) up (acked ACCESS_DENIED) = true := by decide +kernel
/-- The repeat limit (Table 16.5): stored, and in force at once without a job, at the next boundary with one. -/
theorem test_write :
    (entryOf 0x5002 0).map (·.acc) = some .rw ∧ valueOk 0x5002 0 tU8 [5] = true ∧ ownRule up 0x5002 0 [5] = OK
    ∧ code 0x5002 0 5 up = true
    ∧ holds (.writeEntry (hdr 5) 0x5002 0 tU8 [5]) up (fun t => acked OK t && t.eff.repeatLimit == 5) = true
    ∧ may 13 up = true ∧ up.hold? 0x5002 0 = none
    ∧ holds (.writeBlock (hdr 13) 0x5002 0 tU8 0 1 true [5]) up (fun t => acked OK t && t.regs.repeatLimit == 5) = true := by
  decide +kernel
/-- The silence bound (Table 16.5) of a job that runs. -/
theorem test_write_deferred :
    deferred 0x5003 = true ∧ may 8 (job .running) = true
    ∧ holds (.writeEntry (hdr 8) 0x5003 0 tU32 (leBytes 4 2000)) (job .running)
        (fun t => acked OK t && t.regs != (job .running).regs && t.eff == (job .running).eff) = true := by decide +kernel
theorem test_write_checks :
    let held : State := { up with edp := { up.edp with holds := [⟨0x5002, 0, 9, tU8, 1, [], false, 0⟩] } }
    let guest : State := { up with edp := { up.edp with sessions := [{ ses with right := 0 }] } }
    ownCommand (.write 0x5002 0 tU8 [5]) = false
    ∧ holds (.writeEntry (hdr 5) 0x5002 9 tU8 [5]) up (acked ACCESS_DENIED) = true
    ∧ holds (.writeEntry (hdr 5) 0x5002 0 tU8 [5]) guest (acked ACCESS_DENIED) = true
    ∧ (entryOf 0x3000 5).map (·.acc) = some .ro
    ∧ holds (.writeEntry (hdr 5) 0x3000 5 tU8 [5]) up (acked ACCESS_DENIED) = true
    ∧ holds (.writeEntry (hdr 5) 0x5002 0 tU8 [16]) up (acked TYPE_MISMATCH) = true
    ∧ held.heldElse ses 0x5002 0 = true ∧ holds (.writeEntry (hdr 5) 0x5002 0 tU8 [5]) held (acked BUSY) = true := by
  decide +kernel
/-- The cabling mode (Table 12.9) is written in STANDBY only. -/
theorem test_write_standby :
    (entryOf 0x3010 0).map (·.acc) = some .rws ∧ ownCommand (.write 0x3010 0 tU8 [1]) = false
    ∧ holds (.writeEntry (hdr 5) 0x3010 0 tU8 [1]) up (acked BUSY) = true
    ∧ holds (.writeEntry (hdr 5) 0x3010 0 tU8 [1]) down (acked OK) = true := by decide +kernel
theorem test_chunk_is_held :
    ownCommand (.writeBlock 0x9200 0x10 tOCTETS 0 20 false [7]) = false ∧ may 13 up = true
    ∧ holds (.writeBlock (hdr 13) 0x9200 0x10 tOCTETS 0 20 false [7]) up
        (fun t => acked OK t && (t.hold? 0x9200 0x10).map (·.chunks) == some [(0, [7])]) = true := by decide +kernel
theorem test_staging :
    may 13 up = true ∧ up.mm.up = true ∧ (stagingPages 1 up).1 = OK
    ∧ holds (.recipeStaging (hdr 13) 0 1 true [0] kind1) up
        (fun t => acked OK t && t.recipe.staged == some kind1 && t.mm.stagedPages == [92159]) = true
    ∧ may 13 down = true ∧ down.mm.up = false
    ∧ holds (.recipeStaging (hdr 13) 0 1 true [0] kind1) down (fun t => acked OK t && t.recipe.stagedBytes == [0]) = true := by
  decide +kernel
theorem test_subscribe :
    let sub : Subscription := ⟨9, 1, 1, .t1s, 9, [], 0, 0⟩
    let s : State := { up with edp := { up.edp with subs := [(0, sub), (2, sub)] } }
    let full : State := { up with edp := { up.edp with subs := (List.range 32).map fun k => (k, sub) } }
    may 4 s = true ∧ holds (.subscribe (hdr 4) 1 2) s (fun t => acked OK t && t.edp.subs.length == 3
        && t.edp.subs.any fun y => y.1 == 1 && y.2.sid == 1) = true
    ∧ may 4 full = true ∧ holds (.subscribe (hdr 4) 1 2) full (acked BUSY) = true
    ∧ holds (.subscribe (hdr 4) 0 0) { up with edp := { up.edp with subs := [(0, { sub with sid := 1 }), (2, sub)] } }
        (fun t => acked OK t && t.edp.subs == [(2, sub)]) = true := by decide +kernel
theorem test_events :
    let e : Event := ⟨1, 0, 0, 0, 0, 0, [], [], some 4, 9⟩
    let s (e : Event) : State := { up with edp := { up.edp with
      sessions := [{ ses with txSeq := 9 }], subs := [(3, ⟨1, 1, 1, .t1s, 9, [e], 0, 0⟩)] } }
    (s e).edp.subs.find? (fun z => z.2.sid == ses.sid) = (s e).edp.subs.find? (fun z => z.1 == 3)
    ∧ holds (.eventAck (hdr 0) 4) (s e) (fun t => t.edp.subs.all fun z => z.2.queue == []) = true
    ∧ holds (.eventResendTimer 3 4) (s e) (fun t => t.tx.length == 1) = true
    ∧ holds (.eventResendTimer 3 4) (s { e with resends := 10 }) (fun t => t.counter 0x1100 0x0A == 1) = true
    ∧ holds (.eventResendTimer 3 5) (s e) (fun t => t.edp == (s e).edp) = true := by decide +kernel
theorem test_relay :
    let s := ports 0 (port 3) up
    let h := { hdr 4 with target := 0x2C1 }
    s.elsewhere h = true ∧ s.pathTo h.target = true ∧ msgOk h 4 = true
    ∧ holds (.relayRequest h (.read 0x3000 6)) s (fun t => t.edp.relays == [(0x2C1, 1, 1, .t1s, 9)]) = true
    ∧ up.pathTo h.target = false
    ∧ holds (.relayRequest h (.read 0x3000 6)) up (fun t => t.edp.relays == [] && t.counter 0x1100 9 == 1) = true
    ∧ holds (.relayPacket 0x2C1 h (.ack 1)) { s with edp := { s.edp with relays := [(0x2C1, 1, 1, .t1s, 9)] } }
        (fun t => t.edp.relays == [] && t.tx.length == 1) = true
    ∧ holds (.relayRecordExpiry 0x2C1 1 1) { s with edp := { s.edp with relays := [(0x2C1, 1, 1, .t1s, 9), (1, 1, 1, .t1s, 9)] } }
        (fun t => t.edp.relays == [(1, 1, 1, .t1s, 9)]) = true := by decide +kernel
/-- A relayed READ is answered on its relay. -/
theorem test_relayed_read :
    holds (.relayPacket 5 (hdr 4) (.read 0x3000 6)) up (answered [16]) = true := by decide +kernel
theorem test_sessions_close :
    let s : State := { up with edp := { up.edp with
      subs := [(0, ⟨1, 1, 1, .t1s, 9, [], 0, 0⟩)], holds := [⟨0x5002, 0, 1, tU8, 1, [], false, 0⟩] } }
    let gone (t : State) : Bool := t.edp.sessions == [] && t.edp.subs == [] && t.edp.holds == []
    s.session 1 = some ses ∧ may 8 s = true
    ∧ holds (.closeSession (hdr 8) 1) s (fun t => acked OK t && gone t) = true
    ∧ holds (.sessionIdleTimeout 1) s gone = true
    ∧ holds (.helloTagTimeout 1) { s with edp := { s.edp with sessions := [{ ses with tagged := false }] } }
        (fun t => gone t && t.localUs == 10000000) = true
    ∧ holds (.helloTagTimeout 1) s (fun t => t.edp == s.edp) = true
    ∧ holds (.writeBlockHoldTimeout 0x5002 0) s (fun t => t.edp.holds == [] && t.localUs == 10000000) = true := by decide +kernel
theorem test_hello :
    let s : State := { up with sec := { up.sec with clients := [(0, ([7], 1))] } }
    let h := { hdr 286 with session := 0, datagramLen := 310 }
    let hello : Hello := ⟨[], [], [7], 1, true⟩
    s.stewardUp = true ∧ s.reaches h.transport = true ∧ msgOk h 286 = true ∧ s.elsewhere h = false
    ∧ keyRight s hello.keyDigest = some 1 ∧ s.edp.hellos = [] ∧ s.edp.sessions.length < 16
    ∧ holds (.clientHello h { hello with keyDigest := [8] }) s (acked ACCESS_DENIED) = true
    ∧ holds (.clientHello h { hello with sigOk := false }) s (acked ACCESS_DENIED) = true
    ∧ holds (.clientHello h { hello with right := 2 }) s (acked ACCESS_DENIED) = true
    ∧ holds (.clientHello h hello) { s with edp := { s.edp with sessions := List.replicate 16 ses } } (acked BUSY) = true := by
  decide +kernel
theorem test_repeat :
    let a := statusAck OK 0x5002 0 tU8
    let s : State := { up with edp := { up.edp with sessions := [{ ses with cache := [(1, .write 0x5002 0 tU8 [5], a)] }] } }
    s.session 1 = some { ses with cache := [(1, .write 0x5002 0 tU8 [5], a)] }
    ∧ holds (.writeEntry (hdr 5) 0x5002 0 tU8 [5]) s (fun t => acked OK t && t.regs == s.regs) = true
    ∧ holds (.writeEntry (hdr 5) 0x5002 0 tU8 [6]) s (fun t => t.tx == [] && t.counter 0x1100 7 == 1) = true := by decide +kernel

/-! ## Security, log and results -/

/-- Every premise of the five statements' claims, with a statement addressed to any module. -/
def stmt (ty : Nat) : Statement := ⟨ty, 0, 0, 0, 1, List.replicate 12 0, if ty = 3 ∨ ty = 4 then [] else [9], true, true, true⟩
def owned (n : Nat) : State := { up with sec := { state := n, owner := [], clients := [], ctr := 0, floor := 0 } }
theorem test_statements (ty : Nat) (h : ty = 1 ∨ ty = 2 ∨ ty = 3 ∨ ty = 4 ∨ ty = 5) (n : Nat) (hn : n < 3) :
    stmtEncodingOk (if ty = 5 then 2 else 1) (stmt ty) = true ∧ stmtSigned (owned n) (stmt ty) = true
      ∧ stmtWriter (owned n) ses.key (stmt ty) = true ∧ may (4 + if ty = 5 then 176 else 320) (owned n) = true := by
  have k : n = 0 ∨ n = 1 ∨ n = 2 := by omega
  rcases k with rfl | rfl | rfl <;> rcases h with rfl | rfl | rfl | rfl | rfl <;>
    exact ⟨by decide, by simp [stmtSigned, stmt, owned], by simp [stmtWriter, stmt, owned, slotOf?, stmtDigest, ses], by decide +kernel⟩
theorem test_bad_statement :
    (stmt 1).ctr ≤ { owned 0 with sec := { (owned 0).sec with ctr := 1 } }.sec.ctr
    ∧ holds (.enrolOwner (hdr 324) (stmt 1)) (owned 2) (acked ACCESS_DENIED) = true := by decide +kernel
theorem test_nonce : may 36 up = true ∧ up.heldElse ses 0x8010 1 = false := by decide +kernel
theorem test_logs_and_slots :
    let r : LogRec := ⟨1, 0, 0, 0, 0, 0, 0, 0, []⟩
    let s : State := { up with log := { up.log with ring := [r], fault := [r] }, results := [(63, ⟨9, 1, [], 0, 0⟩)] }
    code 0xA000 7 1 s = true ∧ holds (.clearLogRing (hdr 5)) s (fun t => acked OK t && t.log.ring == [] && t.log.fault == [r]) = true
    ∧ holds (.clearFaultLog (hdr 5)) s (fun t => acked OK t && t.log.ring == [r] && t.log.fault == []) = true
    ∧ may 12 s = true ∧ holds (.consume (hdr 12) 63 9) s (fun t => acked OK t && (t.slot 63).state == 2) = true
    ∧ holds (.consume (hdr 12) 63 8) s (fun t => acked BUSY t && (t.slot 63).state == 1) = true
    ∧ holds (.consume (hdr 12) 0 0) s (acked NOT_READY) = true := by decide +kernel

/-! ## Power, bring-up and self-test -/

/-- In a device state, its own main power on or off. -/
def dev (d : DevState) (on : Bool) (s : State) : State := { s with dev := { s.dev with st := d, mainUp := on } }

theorem test_sleep :
    let s := ports 7 { port 4 with lanes := 3 } up
    code 0x2200 1 1 s = true ∧ s.dev.st = .ready ∧ s.dev.test.state = 0
    ∧ holds (.sleep (hdr 5)) s (fun t => acked OK t && t.dev.st == .sleep && (t.port 7).state == 5 && (t.port 7).lanes == 1) = true
    ∧ holds (.sleep (hdr 5)) (job .running) (acked BUSY) = true ∧ holds (.sleep (hdr 5)) down (acked BUSY) = true
    ∧ holds (.sleep (hdr 5)) { up with dev := { up.dev with test := ⟨1, 0, [], false⟩ } } (acked BUSY) = true := by decide +kernel
theorem test_wake :
    let s : State := { ports 7 { port 5 with lanes := 1 } (dev .sleep true up) with regs := { Regs.default with laneMask := List.replicate 48 3 } }
    code 0x2200 1 2 s = true ∧ (s.port 7).state = 5
    ∧ holds (.wake (hdr 5)) s (fun t => acked OK t && t.dev.st == .sleep && t.fab.waking && t.gov.vcore == [550, 550, 550, 550]
        && t.mm.up && (t.port 7).state == 2 && (t.port 7).lanes == 0) = true
    ∧ holds (.wakePacket 4095) s (fun t => t.fab.waking && (t.port 8).state == 2) = true
    ∧ (let dark : State := { s with fab := { s.fab with subst := List.range 48 } }
       dark.roleOf 7 = none ∧ holds (.wake (hdr 5)) dark (fun t => acked OK t && t.dev.st == .ready && !t.fab.waking) = true)
    ∧ (let ill : State := { s with job := { Job.reset with st := .loaded }
                                   recipe := { Recipe.reset with loaded := some kind1, damaged := true } }
       holds (.wake (hdr 5)) ill (fun t => t.job.st == .halted && t.job.haltCode == ECC_UNCORRECTABLE) = true)
    ∧ holds (.wake (hdr 5)) { s with fab := { s.fab with waking := true } }
        (fun t => acked OK t && t.dev.st == .sleep && (t.port 7).state == 5) = true
    ∧ holds (.wake (hdr 5)) up (acked BUSY) = true ∧ holds (.wakePacket 1) up (fun t => t.dev.st == .ready && t.tx == []) = true := by
  decide +kernel
theorem test_standby_and_proof :
    let p : State := { down with pins := { down.pins with pwrEn := true, stbyGood := true } }
    code 0x2200 1 3 up = true ∧ code 0x2200 1 4 p = true ∧ p.powerAllowed = true ∧ down.powerAllowed = false
    ∧ holds (.standby (hdr 5)) up (fun t => acked OK t && t.dev.st == .standby && !t.pins.pwrGood && t.mm.mem == []) = true
    ∧ holds (.standby (hdr 5)) (dev .sleep true up) (acked OK) = true ∧ holds (.standby (hdr 5)) (dev .proofing true up) (acked OK) = true
    ∧ holds (.standby (hdr 5)) down (acked BUSY) = true ∧ holds (.standby (hdr 5)) (job .running) (acked BUSY) = true
    ∧ holds (.proof (hdr 5)) p (fun t => acked OK t && t.dev.st == .proofing && t.dev.stage == 1) = true
    ∧ holds (.proof (hdr 5)) up (fun t => acked OK t && t.dev.st == .proofing && !t.dev.mainUp) = true
    ∧ holds (.proof (hdr 5)) down (acked BUSY) = true ∧ holds (.proof (hdr 5)) (dev .sleep true up) (acked BUSY) = true := by
  decide +kernel
/-- A device in proofing at stage 1, and what a proofing with everything good meets. -/
def proofing : State := { down with dev := { down.dev with st := .proofing, stage := 1, test := ⟨2, 0, [], false⟩ } }
def good : ProofInput := ⟨none, [], none, [], [], [], [], List.replicate 24 32, List.replicate 48 0, [], [false, false]⟩
theorem test_proofing_passes :
    (∀ h < 4, waysFail good.badWays h = false) ∧ (∀ c < 24, good.rates.getD c 0 ≠ 0)
    ∧ holds (.proofing good) proofing (fun t => t.dev.st == .ready && t.dev.stage == 7 && t.dev.map.getD 95 0 == 95
        && t.dev.map.getD 96 9 == 0) = true
    ∧ holds (.proofing { good with badCores := [(103, 2)] }) proofing (fun t => t.dev.map.getD 99 0 == 4 && t.dev.map.getD 99 0 == 4) = true := by
  decide +kernel
/-- The reason names stage, hearth and unit (Table 16.11): row 7 of hearth 2; unit 5 of hearth 3; channel 23. -/
theorem test_proofing_fails :
    holds (.proofing { good with railFail := some (7, 2) }) proofing (fun t => t.dev.reason == 0x2207 && t.dev.proofFailed) = true
    ∧ holds (.proofing { good with railFail := some (1, 2) }) proofing (fun t => t.dev.reason == 0x2F01) = true
    ∧ holds (.proofing { good with unitFail := some (3, 5) }) proofing (fun t => t.dev.reason == 0x3305) = true
    ∧ holds (.proofing { good with rates := List.replicate 23 28 }) proofing (fun t => t.dev.reason == 0x4317) = true
    ∧ holds (.railTimeout 6 0) proofing (fun t => t.dev.reason == 0x2F06 && t.dev.st == .proofing) = true := by decide +kernel
theorem test_self_test :
    may 8 up = true ∧ up.targetGone 0x17F = false ∧ up.targetGone 0x8000 = false
    ∧ holds (.selfTestQueued (hdr 8) 0x17F) up (fun t => acked OK t && t.dev.test.state == 2) = true
    ∧ holds (.selfTestImmediate (hdr 8) 0x8000) up (fun t => acked OK t && t.dev.test.target == 0x8000) = true
    ∧ holds (.selfTestQueued (hdr 8) 1) (job .running) (fun t => acked OK t && t.dev.test.state == 1) = true
    ∧ holds (.selfTestImmediate (hdr 8) 1) (job .running) (acked BUSY) = true
    ∧ holds (.selfTestQueued (hdr 8) 1) { up with dev := { up.dev with test := ⟨1, 0, [], false⟩ } } (acked BUSY) = true
    ∧ holds (.selfTestQueued (hdr 8) 1) { up with dev := { up.dev with map := [0, 0xFF] } } (acked TYPE_MISMATCH) = true := by
  decide +kernel
theorem test_slice :
    let s (l : List (Nat × Nat)) : State := { up with dev := { up.dev with test := ⟨2, 0x8003, l, true⟩ } }
    (s [(0x8003, 0)]).sliceMay 0x8003 0 = true ∧ up.slicePhys 0x8003 = some 3 ∧ up.dev.phys.length = 400
    ∧ holds (.bistSlice ⟨true, false, 0⟩) (s [(0x8003, 0)]) (fun t => t.dev.test.state == 3) = true
    ∧ holds (.bistSlice ⟨true, false, 0⟩) (s [(0x8003, 0), (0x8003, 1)]) (fun t => t.dev.test.state == 2 && t.dev.test.slices == [(0x8003, 1)]) = true
    ∧ holds (.bistSlice ⟨false, false, 0⟩) (s [(0x8003, 0), (0x8003, 1)]) (fun t => t.dev.test.state == 4
        && t.dev.phys.getD 3 0 == 2) = true := by decide +kernel
theorem test_power_enable :
    let s : State := { down with regs := { Regs.default with autoProof := true } }
    s.stewardUp = true ∧ s.pins.thermTrip = false
    ∧ holds .pwrEnRise s (fun t => t.dev.st == .proofing && t.pins.pwrEn) = true
    ∧ holds .pwrEnRise { s with regs := { s.regs with autoProof := false } } (fun t => t.dev.st == .standby && t.pins.pwrEn) = true
    ∧ holds .pwrEnRise up (fun t => t.dev.st == .ready) = true := by decide +kernel
theorem test_power_goes_down :
    let off (t : State) : Bool := t.dev.st == .standby && !t.pins.pwrGood && !t.dev.mainUp && t.edp.sessions == []
    up.dev.st.powered ∧ up.dev.mainUp = true
    ∧ holds .pwrEnFall up (fun t => off t && !t.pins.pwrEn) = true ∧ holds .interlockOpen up (fun t => off t && t.pins.latch) = true
    ∧ holds .thermalTrip up (fun t => off t && t.pins.thermTrip) = true ∧ holds (.railFault 3) up (fun t => off t && t.pins.latch) = true
    ∧ holds (.inputVoltageFault 39999) up (fun t => off t && t.pins.alert) = true
    ∧ holds (.inputVoltageFault 58001) up (fun t => off t && t.pins.alert) = true
    ∧ holds .resetNAssert up (fun t => off t && t.pins.resetAsserted) = true := by
  unfold DevState.powered; decide +kernel
theorem test_input_voltage :
    up.dev.st ≠ .off
    ∧ holds (.inputVoltageFault 40000) up (fun t => t.dev.st == .ready && t.pins.alert) = true
    ∧ holds (.inputVoltageFault 44000) up (fun t => t.dev.st == .ready && !t.pins.alert) = true
    ∧ holds (.inputVoltageFault 58000) up (fun t => t.dev.st == .ready && !t.pins.alert) = true
    ∧ holds (.inputVoltageFault 29999) up (fun t => t.dev.st == .off) = true
    ∧ holds .inputLoss up (fun t => t.dev.st == .off && t.log.ring == []) = true := by decide +kernel
theorem test_absolute_maximum : exec (.inputVoltageFault 60001) up = .fault .absoluteMaximum := by rfl
theorem test_boot :
    let s : State := dev .off false { down with dev := { down.dev with bankA := some kind1, bankB := some kind1 } }
    holds (.stbyGood 63 true false) s (fun t => t.dev.st == .standby && t.dev.stage == 1 && !t.dev.activeB && t.pins.slotId == 63) = true
    ∧ holds (.stbyGood 0 false true) s (fun t => t.dev.stage == 1 && t.dev.activeB) = true
    ∧ holds (.stbyGood 0 false false) s (fun t => t.dev.bootFailed && t.pins.alert) = true
    ∧ holds (.stbyGood 0 true true) { s with pins := { s.pins with pwrEn := true } } (fun t => t.pins.earlyPwrEn && t.pins.alert) = true
    ∧ holds (.stbyGood 9 true true) up (fun t => t.pins.slotId == 0) = true
    ∧ holds .resetNRelease { down with
        pins := { down.pins with resetAsserted := true, bankAOk := true }, dev := { down.dev with bankA := some kind1 } }
        (fun t => t.dev.stage == 1 && !t.pins.resetAsserted) = true := by decide +kernel
/-- A quiet module, one over its input limit (2,000 W, Table 16.3), and one at 98 percent of it (R394). -/
def quiet : Meas := ⟨100000, 50000, 2000, [4000, 4000, 4000, 4000], 3000, 3100, 3000, 3000, 3000⟩
def at700 : State := { job .running with gov := { up.gov with target := 700 } }
theorem test_governor :
    holds (.governorDecision quiet) up (fun t => t.gov.inputMw == 100000 && t.gov.energy == 100000 && t.gov.target == 600) = true
    ∧ at700.eff.vMin ≤ at700.eff.vMax
    ∧ holds (.governorDecision quiet) at700 (fun t => t.gov.target == 705) = true
    ∧ holds (.governorDecision { quiet with inputMw := 2000001 }) at700 (fun t => t.gov.target == 675) = true
    ∧ holds (.governorDecision { quiet with inputMw := 1960000 }) at700 (fun t => t.gov.target == 700) = true := by
  decide +kernel
theorem test_governor_timers :
    let s : State := { job .running with groups := [(63, { GroupSt.reset with held := some 7 })] }
    let a : State := { down with pins := { down.pins with alert := true }, gov := { down.gov with alertClearAt := some 5 } }
    (s.group 63).held = some 7
    ∧ holds (.gatingHoldLimit 63) s (fun t => t.localUs == 2007 && (t.group 63).held == none && (t.group 63).passed) = true
    ∧ (s.group 0).held = none ∧ s.job.st.live = true
    ∧ holds .overcurrent s (fun t => t.gov.target == s.eff.vMin && t.gov.vcore.all fun v => decide (v ≤ s.eff.vMin)) = true
    ∧ alertCause a = false ∧ holds .alertReleaseTimer a (fun t => !t.pins.alert && t.localUs == 5) = true
    ∧ holds .plcaBeaconLost { up with edp := { up.edp with t1s := 2 } } (fun t => t.edp.t1s == 1) = true
    ∧ holds .plcaBeaconSeen up (fun t => t.edp.t1s == 2) = true := by decide +kernel

/-! ## Cores, streams and translation -/

/-- A stream descriptor (Table 05.1): memory kind, direction, tile kind, format, base, and `n` elements in a row. -/
def strm (mk dir tk fmt base n : Nat) : Words :=
  [BitVec.ofNat 32 (0x02000000 + mk * 2 ^ 22 + dir * 2 ^ 21 + tk * 2 ^ 19 + fmt * 256), 0, BitVec.ofNat 32 base, 0,
   0, BitVec.ofNat 32 (n * 256), 0, 256, 0, 256, 0, 256, 0, 256, 0, 0]
/-- The product of one bf16 element of A and one of B (Table 03.2), and member 0 and 1 of a split in two on cores 0 and 1. -/
def mat : Words := [0x01000000, 0x00000101, 1, 1, 1, 0x01F2FFFF, 0, 0, 0, 0, 0, 1, 0, 0, 0, 0]
def member (k : Nat) : Words := mat.set 6 (BitVec.ofNat 32 (2 ^ 17 + k * 2 ^ 11))
/-- A group of cores 0 and 1 with one F slot of layer 1; layer 1 replays translation misses. -/
def recipe : Container :=
  { kind1 with
    interSec := [0, 0, 0, 0, 0, 0, 0, 0, 3, 0, 0, 0, 0, 0, 0, 0, 0, 0, 0, 0, 0x10000001, 0, 0, 0]
    layerSec := [0x06800000, 0x00010000, 0, 0, 0, 0, 0, 0]
    regions := [⟨.window, 0, none, none, 0, 4 * pageSize, 0, false, true, false, 0⟩] }
/-- Item F(1, 0) on the group, with page 0 mapped, core 0 as given and core 1 beside it. -/
def work (c d : CoreSt) : State :=
  { job .running with
    recipe := { Recipe.reset with loaded := some recipe }
    groups := [(0, { GroupSt.reset with item := some ⟨.fwd, 1, 0, 0⟩ })]
    cores := [(0, c), (1, d)]
    mm := { up.mm with pages := [(0, ⟨200, true⟩)] } }
/-- A stream of instruction 0, and an instruction of a unit. -/
def stream (d : Words) (n : Nat) : Stream := ⟨d, 0, n, 0, 0, [], [], false, 0, [], false, 0⟩
def inst (u : CUnit) (d : Words) : Inflight := ⟨0, u, d, [], false, [], [], [], 0, false, NStatus.zero, 0, 0, 0⟩
/-- 2.0 and 3.0 in the tile store, the product's streams, and the instruction waiting for them. -/
def product : CoreSt :=
  { CoreSt.reset with
    inflight := [inst .matrix mat], tile := [(1, 0x40), (2, 0x40), (3, 0x40)], nextId := 1
    ctx := [(0, stream (strm 0 0 0 1 0 2048) 1), (1, stream (strm 0 0 1 1 2 2048) 1), (2, stream (strm 0 1 2 0 16 1024) 1)] }

theorem test_matrix_operation :
    let s := work product CoreSt.reset
    s.ready 0 .matrix = some (inst .matrix mat) ∧ s.passThrough 0 (matDesc mat) = none ∧ (matDesc mat).ksN = 0
    ∧ holds (.matrixOperation 0) s (fun t => memBytes (t.core 0).tile 16 4 == [0x00, 0x00, 0xC0, 0x40]) = true := by decide +kernel
/-- An operand that comes from main memory is not there yet: its three tiles are taken as they stand, nothing runs. -/
theorem test_operation_waits :
    let x : Stream := { stream (strm 1 0 0 1 0 2048) 3 with fetched := 2 }
    let c (u : CUnit) (d : Words) : CoreSt := { CoreSt.reset with inflight := [inst u d], ctx := [(0, x)] }
    let s (u : CUnit) (d : Words) : State := work (c u d) CoreSt.reset
    (s .matrix mat).ready 0 .matrix = none
    ∧ holds (.matrixOperation 0) (s .matrix mat) (fun t => (t.streamAt 0 0).map (·.taken) == some 2
        && (t.core 0).inflight == [inst .matrix mat]) = true
    ∧ (s .vector []).ready 0 .vector = none ∧ holds (.vectorInstruction 0) (s .vector []) (fun t => (t.core 0).inflight.length == 1) = true
    ∧ (s .row []).ready 0 .row = none ∧ holds (.rowOperation 0) (s .row []) (fun t => (t.core 0).inflight.length == 1) = true := by
  decide +kernel
theorem test_split_member :
    let c := { product with inflight := [inst .matrix (member 0)] }
    (work c CoreSt.reset).ready 0 .matrix = some (inst .matrix (member 0)) ∧ (matDesc (member 0)).ksN ≠ 0
    ∧ holds (.matrixOperation 0) (work c CoreSt.reset)
        (fun t => (t.core 0).inflight.map (·.partials) == [[0x40C00000]]) = true := by decide +kernel
theorem test_completion :
    let i := { inst .matrix mat with executed := true, final := true, replays := 3 }
    let c := { CoreSt.reset with inflight := [i], recSlot := 65535 }
    let s := work c CoreSt.reset
    (s.core 0).complete i = true ∧ s.coreItem 0 = some ⟨.fwd, 1, 0, 0⟩ ∧ memWf s.mm.mem = true ∧ s.coreGroup 0 = some 0
    ∧ (s.phys (32 * 65535)).isSome = true ∧ s.vmGood (s.recordVa 0) 32 = true
    ∧ holds (.matrixOperationComplete 0) s (fun t => (t.core 0).recSlot == 0 && (t.core 0).inflight == []
        && (t.group 0).got.replays == 3 && (t.layerStat 1).replays == 0) = true := by decide +kernel
theorem test_split_k :
    let i (k : Nat) (v : W32) : Inflight := { inst .matrix (member k) with executed := true, partials := [v] }
    let s := work { CoreSt.reset with inflight := [i 0 0x3F800000] } { CoreSt.reset with inflight := [i 1 0x40000000] }
    (s.core 0).splitOp = some (i 0 0x3F800000) ∧ (s.core 1).splitOp = some (i 1 0x40000000)
    ∧ (matDesc (member 1)).ksBase = 0 ∧ (matDesc (member 1)).ksIdx = 0 + 2 ^ 0
    ∧ holds (.splitKCombine 0 0) s (fun t => (t.core 0).inflight.map (fun x => (x.partials, x.level, x.final))
        == [([0x40400000], 1, true)] && (t.core 1).inflight.map (·.final) == [true]) = true := by decide +kernel
/-- Member 2 of three goes up alone; member 1 of two leaves without a record. -/
theorem test_split_alone :
    let d : Words := mat.set 6 (BitVec.ofNat 32 (2 * 2 ^ 17 + 2 * 2 ^ 11))
    let i : Inflight := { inst .matrix d with executed := true, partials := [0x3F800000] }
    let s := work { CoreSt.reset with inflight := [i] } CoreSt.reset
    let j : Inflight := { inst .matrix (member 1) with executed := true, final := true }
    let r := work { CoreSt.reset with inflight := [j] } CoreSt.reset
    (s.core 0).splitOp = some i ∧ (matDesc d).ksN = 2 ∧ (matDesc d).ksIdx = 2
    ∧ holds (.splitKCombine 0 0) s (fun t => (t.core 0).inflight.map (fun x => (x.partials, x.level, x.final))
        == [([0x3F800000], 1, false)]) = true
    ∧ (r.core 0).complete j = true ∧ (matDesc (member 1)).ksIdx = 1
    ∧ holds (.matrixOperationComplete 0) r (fun t => (t.core 0).inflight == [] && (t.core 0).recSlot == 0) = true := by decide +kernel
/-- A vector ADD of X and scalar S0 (Table 06.3): 1.0 + 2.0; a soft-maximum row of one element. -/
theorem test_vector :
    let w : Words := [0x04043000, 0, 0x0F1FFFF0, 0, 0x40000000, 0, 0, 0]
    let c := { CoreSt.reset with
      inflight := [inst .vector w], tile := [(2, 0x80), (3, 0x3F)]
      ctx := [(0, stream (strm 0 0 3 0 0 1) 1), (1, stream (strm 0 1 3 0 16 1) 1)] }
    (work c CoreSt.reset).ready 0 .vector = some (inst .vector w)
    ∧ holds (.vectorInstruction 0) (work c CoreSt.reset) (fun t => memBytes (t.core 0).tile 16 4 == [0x00, 0x00, 0x40, 0x40]) = true := by
  decide +kernel
theorem test_row :
    let w : Words := [0x05300000, 0, 0x0F1FFFFF, 0, 0, 0x3F800000, 0, 0]
    let c := { CoreSt.reset with
      inflight := [inst .row w], tile := [(2, 0x80), (3, 0x3F), (6, 0x80), (7, 0x3F)]
      ctx := [(0, stream (strm 0 0 3 0 0 2) 1), (1, stream (strm 0 1 3 0 16 1) 1)] }
    (work c CoreSt.reset).ready 0 .row = some (inst .row w)
    ∧ holds (.rowOperation 0) (work c CoreSt.reset) (fun t => memBytes (t.core 0).tile 16 4 == [0x00, 0x00, 0x80, 0x3F]) = true := by
  decide +kernel
theorem test_barrier :
    let b : CoreSt := { CoreSt.reset with prog := [.barrier [0x0F000000, 7, 0, 0, 0, 0, 0, 0]] }
    (b.atBarrier = some 7) ∧ (work b b).coreGroup 0 = some 0 ∧ (work b b).issuing 0 = true ∧ ((work b b).groupOf 0).cores = [0, 1]
    ∧ holds (.groupBarrier 0) (work b b) (fun t => (t.core 0).barrier == some 7 && (t.core 0).pc == 0) = true
    ∧ holds (.groupBarrier 0) (work b { b with barrier := some 7 })
        (fun t => (t.core 0).pc == 1 && (t.core 1).pc == 1 && (t.core 1).barrier == none) = true := by decide +kernel
/-- Two bytes from the side memory to main memory, and back. -/
theorem test_sideline :
    let out : Words := [0x03680001, 4, 64, 0]
    let back : Words := [0x03600001, 4, 64, 0]
    let c (w : Words) : CoreSt := { CoreSt.reset with side := [⟨none, 0, 0, w⟩], sideMem := [(4, 9), (5, 8)] }
    let s (w : Words) : State := work (c w) CoreSt.reset
    (sideCmd out).far = 1 ∧ (sideCmd out).toFar = true ∧ (sideCmd back).toFar = false ∧ nearMem (sideCmd back).near = 2
    ∧ (s out).shift 0 true 64 = 0 ∧ (s out).rangeOk 64 2 true = true ∧ (s back).rangeOk 64 2 false = true
    ∧ holds (.sidelineTransfer 0) (s out) (fun t => t.vmRead 64 2 == [9, 8] && (t.core 0).side == []) = true
    ∧ holds (.sidelineTransfer 0) (s back) (fun t => (t.core 0).sideMem == []) = true := by decide +kernel
/-- From the side memory into the tile store; to a page that is not mapped; and nothing where no side stands. -/
theorem test_sideline_alone :
    let c (w : Words) : CoreSt := { CoreSt.reset with side := [⟨none, 0, 0, w⟩], sideMem := [(4, 9), (5, 8)] }
    let s (w : Words) : State := work (c w) CoreSt.reset
    let tile : Words := [0x03280001, 4, 64, 0]
    let far : Words := [0x03680001, 4, 0x10000000, 0]
    (sideCmd tile).far = 0 ∧ holds (.sidelineTransfer 0) (s tile) (fun t => memBytes (t.core 0).tile 64 2 == [9, 8]) = true
    ∧ (s far).rangeOk 0x10000000 2 true = false
    ∧ holds (.sidelineTransfer 0) (s far) (fun t => (t.core 0).side.length == 1) = true
    ∧ (let back : Words := [0x03A00001, 8, 4, 0]
       (sideCmd back).far = 2 ∧ holds (.sidelineTransfer 0) (s back) (fun t => memBytes (t.core 0).sideMem 8 2 == [9, 8]) = true) := by
  decide +kernel
/-- Commands that serve an instruction: an operand comes (role 0), the scales of D go out (role 3) once they stand. -/
theorem test_sideline_for_instruction :
    let w : Words := [0x03800001, 0, 4, 0]
    let i (done fin : Bool) : Inflight := { inst .matrix mat with executed := done, final := fin, outs := [(3, [5, 6])] }
    let s (role : Nat) (done fin : Bool) : State := work { CoreSt.reset with
      inflight := [i done fin], side := [⟨some 0, 0, role, w⟩], sideMem := [(4, 9), (5, 8)] } CoreSt.reset
    (sideCmd w).far = 2 ∧ roleWrites .matrix 0 = false ∧ roleWrites .matrix 3 = true
    ∧ holds (.sidelineTransfer 0) (s 0 false false) (fun t => (t.core 0).inflight.map (·.reads) == [[(0, [9, 8])]]
        && (t.core 0).side == []) = true
    ∧ holds (.sidelineTransfer 0) (s 3 true true) (fun t => memBytes (t.core 0).sideMem 4 2 == [5, 6]) = true
    ∧ holds (.sidelineTransfer 0) (s 3 false false) (fun t => (t.core 0).side.length == 1) = true
    ∧ holds (.sidelineTransfer 0) (s 3 true false) (fun t => (t.core 0).side.length == 1) = true := by decide +kernel
theorem test_admission :
    let p : ProgItem := .matrix mat [(0, strm 0 0 0 1 0 2048), (1, strm 0 0 1 1 2 2048), (2, strm 0 1 2 0 16 1024)] []
    let c := { CoreSt.reset with prog := [p] }
    holds (.streamAdmission 0) (work c CoreSt.reset)
        (fun t => (t.core 0).pc == 1 && (t.core 0).inflight.length == 1 && (t.core 0).ctx.map (·.1) == [0, 1, 2]) = true
    ∧ holds (.streamAdmission 0) (work { c with ctx := product.ctx } CoreSt.reset) (fun t => (t.core 0).pc == 0) = true
    ∧ holds (.streamAdmission 0) (work { c with inflight := [inst .vector []] } CoreSt.reset) (fun t => (t.core 0).pc == 0) = true := by
  decide +kernel
theorem test_admission_of_others :
    let w : Words := [0x03680001, 4, 64, 0]
    let c (p : ProgItem) (n : Nat) : CoreSt := { CoreSt.reset with prog := [p], side := List.replicate n ⟨none, 0, 0, w⟩ }
    holds (.streamAdmission 0) (work (c (.sideline w) 3) CoreSt.reset) (fun t => (t.core 0).pc == 1 && (t.core 0).side.length == 4) = true
    ∧ holds (.streamAdmission 0) (work (c (.sideline w) 4) CoreSt.reset) (fun t => (t.core 0).pc == 0) = true
    ∧ holds (.streamAdmission 0) (work (c (.barrier [0x0F000000, 7]) 0) CoreSt.reset) (fun t => (t.core 0).pc == 0) = true := by
  decide +kernel
theorem test_tiles :
    let x := stream (strm 1 0 3 0 0 1) 1
    let c (x : Stream) : CoreSt := { CoreSt.reset with ctx := [(7, x)] }
    let s (x : Stream) : State := work (c x) CoreSt.reset
    (s x).tileOk 0 (streamDesc x.desc) 0 = true ∧ (s x).skipped 0 7 x = false ∧ x.tiles = (streamDesc x.desc).nTiles
    ∧ (streamDesc x.desc).bits = 32 ∧ x.arrivedTiles = 0
    ∧ holds (.dataTileFetch 0 7 none) (s x) (fun t => (t.streamAt 0 7).map (·.fetched) == some 1) = true
    ∧ holds (.dataTileFetch 0 7 none) (s { x with fetched := 3, tiles := 4 }) (fun t => (t.streamAt 0 7).map (·.fetched) == some 3) = true
    ∧ (let y := { stream (strm 1 1 3 0 0 1) 1 with out := [[(0, 0x3F800000)]] }
       (streamDesc y.desc).dir = true ∧ (s y).writeOk ((s y).tileWrites 0 (streamDesc y.desc) [(0, 0x3F800000)]) = true
        ∧ holds (.dataTileFetch 0 7 none) (s y) (fun t => t.vmRead 0 4 == [0, 0, 0x80, 0x3F] && (t.streamAt 0 7).map (·.drained) == some 1) = true
        ∧ holds (.dataTileFetch 0 7 none) { s y with mm := { (s y).mm with pages := [] } } (fun t => (t.streamAt 0 7).map (·.drained) == some 0) = true
        ∧ holds (.dataTileFetch 0 7 none) (s { y with out := [] }) (fun t => (t.streamAt 0 7).map (·.drained) == some 0) = true) := by
  decide +kernel
/-- Core 0 delivers the value to context 2 of core 1 of this device, on credit; the packets of another partner go on VL2. -/
theorem test_delivery :
    let toDev (dev : Nat) : Words := strm 2 1 3 0 (dev * 2 ^ 20 + 1 * 2 ^ 11 + 2 * 2 ^ 8) 1
    let y (dev : Nat) : Stream := { stream (toDev dev) 1 with out := [[(0, 0x3F800000)]], produced := true }
    let src (n dev : Nat) : CoreSt := { CoreSt.reset with ctx := [(7, y dev)], credit := [(7, n)] }
    let dst : CoreSt := { CoreSt.reset with ctx := [(2, stream (strm 2 0 3 0 0 1) 1)] }
    let s (n dev : Nat) : State := { work (src n dev) dst with fab := (ports 0 (port 3) up).fab, coll := { CollSt.reset with members := [0x251, 0x2C1] } }
    (streamDesc (toDev 0x251)).memKind = 2 ∧ (streamDesc (toDev 0x251)).peerDev = (s 1 0x251).devId ∧ (streamDesc (toDev 0x251)).peerCore = 1
    ∧ (streamDesc (toDev 0x251)).peerCtx = 2 ∧ ((s 1 0x251).core 0).creditLeft 7 = 1
    ∧ holds (.dataTileFetch 0 7 none) (s 1 0x251) (fun t => (t.streamAt 1 2).map (fun x => (x.recv, x.fetched)) == some ([(0, [0, 0, 0x80, 0x3F])], 1)
        && (t.core 0).creditLeft 7 == 0) = true
    ∧ holds (.dataTileFetch 0 7 none) (s 0 0x251) (fun t => (t.streamAt 0 7).map (·.drained) == some 0) = true
    ∧ holds (.dataTileFetch 0 7 none) (s 1 0x2C1) (fun t => t.inTransit (streamDesc (toDev 0x2C1)) && (t.streamAt 0 7).map (·.drained) == some 1) = true
    ∧ holds (.streamRetire 0 7) { s 1 0x2C1 with cores := [(0, { src 1 0x2C1 with ctx := [(7, { y 0x2C1 with drained := 1, out := [] })] })] }
        (fun t => (t.streamAt 0 7).isNone) = true := by decide +kernel
theorem test_streams :
    let x := { stream (strm 1 0 3 0 0 1) 4 with slot := true }
    let s (x : Stream) : State := work { CoreSt.reset with ctx := [(7, x)] } CoreSt.reset
    (s x).inStep = true
    ∧ holds (.streamCreditReport 0 7 ⟨3, (s x).job.step, 0⟩) (s x) (fun t => (t.core 0).credit == [(7, 3)]) = true
    ∧ (let again : State := { s x with job := { (s x).job with attempt := 2 } }
       again.inStep = true ∧ holds (.streamCreditReport 0 7 ⟨3, again.job.step, 1⟩) again (fun t => (t.core 0).credit == []) = true)
    ∧ holds (.pantryPrefetch 0 7) (s x) (fun t => (t.streamAt 0 7).map (·.prefetched) == some 1) = true
    ∧ holds (.streamRetire 0 7) (s { x with taken := 4 }) (fun t => (t.streamAt 0 7).isNone) = true
    ∧ holds (.streamRetire 0 7) (s x) (fun t => (t.streamAt 0 7).isSome) = true := by decide +kernel
theorem test_stall :
    let c := { CoreSt.reset with ctx := [(7, stream (strm 1 0 3 0 0 1) 4)] }
    let s := work c CoreSt.reset
    let e : State := { s with groups := [(0, { GroupSt.reset with item := some ⟨.eval 0 none, 1, 0, 0⟩ })] }
    s.stallWhere 0 7 ⟨.fwd, 1, 0, 0⟩ = some (0, 0) ∧ s.issuing 0 = true ∧ s.inStep = true ∧ s.coll.prepSent = false ∧ s.job.attempt < s.eff.repeatLimit
    ∧ holds (.streamStall 0 7) s (fun t => t.job.attempt == 1 && t.job.causes == [(STREAM_STALL, 0xFFFF)]) = true
    ∧ e.coreItem 0 = some ⟨.eval 0 none, 1, 0, 0⟩
    ∧ holds (.streamStall 0 7) e (fun t => t.job.attempt == 0) = true
    ∧ (let x := stream (strm 2 0 3 0 0x2C100000 1) 4
       let p := work { CoreSt.reset with ctx := [(7, x)] } CoreSt.reset
       (streamDesc x.desc).memKind = 2 ∧ (streamDesc x.desc).peerDev ≠ p.devId
        ∧ holds (.streamStall 0 7) p (fun t => t.job.attempt == 0 && t.localUs == 0) = true) := by decide +kernel
theorem test_misses :
    let s := work CoreSt.reset CoreSt.reset
    let m : Miss := ⟨0, 7, 1, 0, pageSize, false, false⟩
    let g (x : GroupSt) : State := { s with groups := [(0, { x with item := some ⟨.fwd, 1, 0, 0⟩ })] }
    (s.xlat 5 false).isSome = true ∧ s.xlat pageSize false = none ∧ s.mayMap pageSize false = true
    ∧ holds (.translationMiss 0 7 5 false) s (fun t => (t.group 0).misses == []) = true
    ∧ holds (.translationMiss 0 7 pageSize false) s (fun t => (t.group 0).misses.map (·.va) == [pageSize]) = true
    ∧ (let n : State := { s with recipe := { Recipe.reset with loaded := some { recipe with layerSec := [] } } }
       holds (.translationMiss 0 7 pageSize false) n (fun t => t.job.attempt == 1) = true)
    ∧ holds (.itemDrainComplete 0) (g { GroupSt.reset with misses := [m] }) (fun t => (t.group 0).drained) = true
    ∧ (serveMiss pageSize false (g { GroupSt.reset with misses := [m], drained := true })).isSome = true
    ∧ holds (.translationMapped 0 pageSize) (g { GroupSt.reset with misses := [m], drained := true })
        (fun t => (t.xlat pageSize false).isSome) = true
    ∧ holds (.workItemReplay 0) (g { GroupSt.reset with misses := [{ m with mapped := true }], drained := true })
        (fun t => (t.group 0).misses == [] && (t.group 0).replays == 1) = true
    ∧ holds (.replayBoundExpiry 0) (g { GroupSt.reset with misses := [m], missTime := 3 }) (fun t => t.job.attempt == 1) = true := by
  decide +kernel

/-! ## Memory errors, the step and its boundary -/

/-- Job 1 of dimension 1 on hearth 0 in cells, or borrowed on three cores, and its one problem with roots at 0x20000. -/
def roots (borrow : Bool) : Words :=
  [if borrow then 0x09108000 else 0x09000000, 0x00010000, 0x01000000, 5, 0x3F800000, 0x3F800000, 64, 0, 0, 0, 0, 0, 0, 0, 0, 0,
   0x00020000, 0, 0x10000, 0, 0x20000, 0, 0, 0, 0, 0, 0, 0, 0, 0, 0, 0]
/-- With a bubble of 2 ms after the F slot, evaluation layer 0x8000 in segment 1, budgets of 1 s, that problem, and ingest. -/
def recipe2 : Container :=
  { recipe with
    interSec := [0, 99, 0, 1000000, 1000000, 1000000, 0, 0, 3, 0, 0, 0, 0, 0, 0, 0, 0, 0, 0, 0,
      0x10000001, 0, 0x50000000, 2000, 0, 0]
    layerSec := recipe.layerSec ++ [0x06000000, 0x80000000, 0, 0, 0, 0, 0, 0]
    evalSec := [0x08010000, 0x80008000, 0x00010000, 0x00070000, 0, 0, 0, 0]
    rootSec := roots false
    budgetSec := List.replicate 16 0 ++ [0x0E010100, 0, 0, 0x00010000, 0, 0, 0, 0, 0, 0, 0, 0, 0, 0, 0, 0] }
/-- A job with that recipe at a place of the boundary, with a measured input of 48 V. -/
def atOrder (order : Nat) : State :=
  { work CoreSt.reset CoreSt.reset with
    recipe := { Recipe.reset with loaded := some recipe2 }
    groups := []
    gov := { up.gov with inputMv := 48000 }
    coll := { CollSt.reset with released := true }
    ingest := { (job .running).ingest with hdrs := [(0, [MbHdr.empty])] }
    bnd := { Boundary.reset with order := order } }

theorem test_core_fenced :
    (job .running).dev.phys.length = 400 ∧ (job .running).logicalOf 99 = none ∧ (job .running).logicalOf 95 = some 95
    ∧ (job .running).spareOf 0 = some 96 ∧ (job .running).isDiag = false
    ∧ holds (.coreFenced 95) (job .running) (fun t => t.dev.map.getD 95 0 == 96 && t.dev.phys.getD 95 9 == 2
        && t.dev.phys.getD 96 9 == 0 && t.job.attempt == 1) = true
    ∧ (let s : State := { atOrder 0 with dev := { up.dev with phys := List.replicate 400 0, st := .active } }
       s.spareOf 0 = none ∧ 1 ∈ coresNamed s.cont ∧ s.logicalOf 1 = some 1 ∧ s.job.st.live = true ∧ s.bnd.order = 0
        ∧ holds (.coreFenced 1) s (fun t => t.dev.map.getD 1 0 == 0xFF && t.job.haltCode == CORE_FENCED) = true) := by
  decide +kernel
/-- Error patterns: three wrong symbols, which the code cannot correct; two, whole; and one outside a codeword of 36. -/
def three : List SymErr := [⟨0, 1⟩, ⟨1, 1⟩, ⟨2, 1⟩]
def two : List SymErr := [⟨0, 0xFFFF⟩, ⟨35, 0xFFFF⟩, ⟨0, 1⟩]
def outside : List SymErr := [⟨68, 1⟩, ⟨0, 0⟩]
theorem test_code : (hasError 36 three && !correctable 36 three && hasError 36 two && correctable 36 two && !hasError 36 outside
    && hasError 68 three && !correctable 68 three && correctable 68 two && !hasError 68 outside) = true := by decide +kernel
theorem test_sram :
    up.dev.mainUp = true ∧ up.dev.map[383]? = some 95
    ∧ holds (.sramUncorrectable .side 383 ⟨0, three⟩) up (fun t => t.dev.phys.getD 395 9 == 2 && t.counter 0x7200 5 == 1) = true
    ∧ holds (.sramUncorrectable .side 383 ⟨0, two⟩) up (fun t => t.dev == up.dev && t.counter 0x7200 2 == 1) = true
    ∧ holds (.sramUncorrectable .side 383 ⟨0, outside⟩) up (fun t => t.counters == up.counters) = true
    ∧ holds (.sramUncorrectable .cell 63 ⟨0, three⟩) up (fun t => t.dev.badCells == [63]) = true
    ∧ holds (.sramUncorrectable .starter 3 ⟨7, three⟩) { up with leaven := { up.leaven with starters := [(12295, ⟨1, 2, 0, 0⟩)] } }
        (fun t => t.leaven.starters == []) = true := by decide +kernel
/-- A line of hearth 0, clean and dirty in its pantry. -/
theorem test_pantry_errors :
    let pa := lineAddr 0 5 0
    let s (dirty : Bool) : State := touchLines [pa] dirty false up
    (s false).mm.line? pa = some (0, 5, false) ∧ (s true).mm.line? pa = some (0, 5, true) ∧ (s false).marked (pa / 128) = false
    ∧ holds (.sramUncorrectable .pantry 0 ⟨5, three⟩) (s false) (fun t => t.mm.poison == [] && (t.mm.line? pa).isSome) = true
    ∧ holds (.sramUncorrectable .pantry 0 ⟨5, three⟩) (s true) (fun t => t.mm.poison == [pa / 128] && (t.mm.line? pa).isNone) = true
    ∧ holds (.sramUncorrectable .pantry 0 ⟨5, two⟩) (s true) (fun t => t.counter 0x7200 4 == 1 && t.mm.poison == []) = true := by
  decide +kernel
/-- Physical page 200 of that job's memory: block 128 × 25,601 of channel 0. -/
theorem test_gddr7 :
    let s := work CoreSt.reset CoreSt.reset
    let p : State := { s with recipe := { Recipe.reset with loaded := some { recipe with
      regions := [⟨.state, 0, none, none, 0, pageSize, 0, true, true, true, 0⟩] } } }
    let pa := 200 * pageSize + 128
    let c := (place pa 0).1
    let at' (r : EccReader) (e : List SymErr) : Instr := .gddr7Uncorrectable c pa 128 r e
    s.mm.up = true ∧ s.scratchAt 128 = true ∧ p.scratchAt 128 = false ∧ p.job.st.live = true ∧ p.bnd.order = 0
    ∧ s.mm.line? pa = none ∧ s.phys 128 = some pa ∧ 128 ≤ pa / pageSize ∧ s.marked (pa / 128) = false
    ∧ holds (at' .stepWork three) s (fun t => t.job.attempt == 1) = true
    ∧ holds (at' .stepWork three) p (fun t => t.job.haltCode == ECC_UNCORRECTABLE && t.mm.broken == [pa / 128]) = true
    ∧ holds (at' .other outside) { p with mm := { p.mm with poison := [pa / 128] } } (fun t => t.job.haltCode == ECC_UNCORRECTABLE) = true
    ∧ holds (at' .evaluation three) s (fun t => t.job.attempt == 0 && t.mm.broken == [pa / 128]) = true
    ∧ holds (at' .evaluation three) p (fun t => t.job.haltCode == ECC_UNCORRECTABLE) = true
    ∧ holds (at' .checkpoint three) s (fun t => t.job.haltCode == ECC_UNCORRECTABLE) = true
    ∧ holds (.gddr7Uncorrectable 0 0 0 .steward three) { s with mm := { s.mm with loadedPages := [0] } } (fun t => t.recipe.damaged) = true
    ∧ holds (at' .prefetch three) s (fun t => t.mm.broken == []) = true
    ∧ s.reads pa 128 .stepWork = true ∧ holds (at' .stepWork two) s (fun t => t.counter 0x4100 1 == 1 && t.job.attempt == 0) = true := by
  decide +kernel
theorem test_scrub :
    up.scrubMay = true ∧ up.mm.scrubDone = 0 ∧ dataBlocks = 1509949440
    ∧ holds (.patrolScrub 0 ⟨outside, 3⟩) up (fun t => t.mm.scrubDone == 1 && t.counter 0x4100 6 == 3) = true
    ∧ holds (.patrolScrub 0 ⟨two, 0⟩) up (fun t => t.counter 0x4100 2 == 1) = true
    ∧ holds (.patrolScrub 0 ⟨three, 0⟩) up (fun t => t.mm.broken == [0] && t.counter 0x4100 3 == 1) = true
    ∧ holds (.patrolScrub 0 ⟨outside, 0⟩) { up with mm := { up.mm with poison := [0] } } (fun t => t.counter 0x4100 4 == 1) = true
    ∧ holds (.patrolScrub 1 ⟨three, 0⟩) up (fun t => t.mm.scrubDone == 0) = true
    ∧ holds (.patrolScrub 1509949439 ⟨outside, 0⟩) { up with localUs := 9, mm := { up.mm with scrubDone := 1509949439 } }
        (fun t => t.mm.scrubDone == 0 && t.mm.scrubStart == 9) = true := by decide +kernel
/-- Chapter 13: the data block at offset 2,048 of a channel is block 1 of span 1; its check symbols follow the 15 blocks. -/
theorem test_span : (rawOffset 2048, checkOffset 2048) = (2048 + 128, 2048 + 1920 + 8) ∧ paOf (place 0x345678900 0).1 (place 0x345678900 0).2.1 0 = 0x345678900 := by
  decide +kernel
theorem test_slot_start :
    let f : Slot := ⟨1, 1, 0, 0⟩
    (atOrder 0).inStep = true ∧ ((atOrder 0).groupOf 0).slots[0]? = some f ∧ (atOrder 0).inputsReady f = true ∧ (atOrder 0).pieceOn 0 = false
    ∧ holds (.interleaveSlotStart 0) (atOrder 0) (fun t => (t.group 0).item == some ⟨.fwd, 1, 0, 0⟩) = true
    ∧ (let s : State := { atOrder 0 with ingest := (job .running).ingest }
       s.inputsReady f = false ∧ holds (.interleaveSlotStart 0) s (fun t => (t.group 0).item == none) = true) := by decide +kernel
/-- A layer with one weight and its one parameter block, whose U slot stands first. -/
def recipe4 : Container :=
  { recipe2 with
    interSec := recipe2.interSec.set 20 0x40000001
    layerSec := [0x06800100, 0x00010000, 0, 0, 0, 0, 0, 0] ++ [0, 0x00000101, 0, 0, 0, 0, 0, 0]
    kernelSec := List.replicate 32 0 ++ [1] ++ [0x0A000000, 0, 0, 0xFFFF0000, 0xFFFF0000, 0x40000, 0, 0, 0, 0, 0, 0, 0, 0, 0, 0] }
def atUpdate : State :=
  { atOrder 0 with
    recipe := { Recipe.reset with loaded := some recipe4 }
    job := { (atOrder 0).job with done := [(3, 1, 0)] } }
theorem test_update_slot :
    let s := atUpdate
    let sl : Slot := ⟨4, 1, 0, 0⟩
    (s.groupOf 0).slots[0]? = some sl ∧ s.inputsReady sl = true ∧ s.coll.released = true ∧ s.job.installing = []
    ∧ ((latchLayer 1 s.job.step s).layerBlocks 1).length = 1 ∧ ((latchLayer 1 s.job.step s).layerBlocks 1).all (fun b => s.genOk b) = true
    ∧ holds (.interleaveSlotStart 0) s (fun t => (t.group 0).item == some ⟨.upd, 1, 0, 0⟩) = true
    ∧ holds (.interleaveSlotStart 0) { s with job := { s.job with done := [] } } (fun t => (t.group 0).item == none) = true
    ∧ holds (.interleaveSlotStart 0) { s with coll := { s.coll with released := false } } (fun t => (t.group 0).item == none) = true
    ∧ (let g : State := { atOrder 0 with gov := { (atOrder 0).gov with gating := true } }
       holds (.interleaveSlotStart 0) g (fun t => (t.group 0).item == none && (t.group 0).held.isSome) = true)
    ∧ (let i : State := { s with job := { s.job with installing := [1] } }
       i.toInstall = [1]
        ∧ holds (.interleaveSlotStart 0) i (fun t => (t.group 0).item == some ⟨.upd, 1, 0, 1⟩) = true
        ∧ (let u (p : Nat) : State := { i with groups := [(0, { GroupSt.reset with item := some ⟨.upd, 1, 0, p⟩ })] }
           (u 1).groupFinished 0 = true
            ∧ holds (.workItemComplete 0) (u 1) (fun t => t.job.installing == [] && (t.group 0).pos == 0 && (t.group 0).item == none) = true)) := by
  decide +kernel
theorem test_item_complete :
    let s (k : ItemKind) : State := { atOrder 0 with groups := [(0, { GroupSt.reset with item := some ⟨k, 1, 0, 0⟩ })] }
    let busy : State := { s .fwd with cores := [(0, { CoreSt.reset with prog := [.barrier []] })] }
    (s .fwd).groupFinished 0 = true ∧ busy.groupFinished 0 = false ∧ ((s .upd).layer? 1).map (·.uProg) = some 0
    ∧ holds (.workItemComplete 0) (s .fwd) (fun t => (t.group 0).pos == 1 && t.job.done == [(1, 1, 0)]) = true
    ∧ (let u : State := { atUpdate with groups := [(0, { GroupSt.reset with item := some ⟨.upd, 1, 0, 1⟩ })] }
       u.groupFinished 0 = true
        ∧ holds (.workItemComplete 0) u (fun t => (t.group 0).pos == 1 && t.job.done.length == 2) = true)
    ∧ (let n : State := { s .fwd with groups := [(0, { GroupSt.reset with
        item := some ⟨.fwd, 1, 0, 0⟩, got := { LStat.zero with replays := 4 } })] }
       holds (.workItemComplete 0) n (fun t => (t.layerStat 1).replays == 4) = true)
    ∧ holds (.workItemComplete 0) busy (fun t => (t.group 0).pos == 0 && t.job.done == []) = true
    ∧ holds (.workItemComplete 0) (s .upd) (fun t => (t.group 0).item == some ⟨.upd, 1, 0, 1⟩) = true := by decide +kernel
theorem test_elective :
    let s : State := { atOrder 0 with
      groups := [(0, { GroupSt.reset with pos := 1, item := some ⟨.bubble, 0, 0, 0xFFFF⟩ })]
      leaven := { LeavenSt.reset with probs := [(0, { ProbSt.reset with phase := .waiting })] } }
    (s.bubble 0).isSome = true ∧ s.firstRoot 0 false = some 0 ∧ s.freeCell 0 = some 0 ∧ s.admitPoint 0 = true ∧ s.eff.elective = true
    ∧ (scaleEst s 0 1500 : Int) ≤ headroom s (some 0)
    ∧ holds (.electiveAdmission (.bubble 0)) s (fun t => (t.run 0).phase == .running && (t.run 0).cell == some 0) = true := by
  decide +kernel
/-- The orders of Table 01.6 that need no storage. -/
theorem test_boundary :
    let pend (n : Nat) (c : JobCmd) : State := { atOrder n with job := { (atOrder n).job with pend := some c } }
    let taken (c : JobCmd) : State := { atOrder 8 with job := { (atOrder 8).job with taken := some c } }
    (atOrder 8).job.st.stepping = true ∧ (atOrder 8).isDiag = false ∧ (atOrder 5).evalOpen = false
    ∧ holds .stepBoundary (atOrder 0) (fun t => t.bnd.order == 0) = true
    ∧ holds .stepBoundary (pend 3 .pause) (fun t => t.bnd.order == 4 && t.job.taken == some .pause) = true
    ∧ holds .stepBoundary (pend 3 .checkpointNow) (fun t => t.bnd.order == 4 && t.job.ckptAsked) = true
    ∧ holds .stepBoundary (atOrder 4) (fun t => t.bnd.order == 5 && t.eval.dueSegs == [1] && !t.bnd.ckptDue) = true
    ∧ holds .stepBoundary (atOrder 5) (fun t => t.bnd.order == 6) = true
    ∧ holds .stepBoundary { atOrder 5 with eval := { (atOrder 5).eval with running := some (1, none, 0x8000) } } (fun t => t.bnd.order == 5) = true
    ∧ holds .stepBoundary (atOrder 6) (fun t => t.bnd.order == 7) = true
    ∧ holds .stepBoundary { atOrder 6 with bnd := { (atOrder 6).bnd with ckptDue := true } } (fun t => t.bnd.order == 6) = true
    ∧ holds .stepBoundary (atOrder 7) (fun t => t.bnd.order == 8 && t.leaven.closed) = true
    ∧ holds .stepBoundary (atOrder 8) (fun t => t.bnd.order == 0 && t.job.step == 1) = true
    ∧ holds .stepBoundary (taken .pause) (fun t => t.job.st == .paused) = true
    ∧ holds .stepBoundary (taken .stop) (fun t => t.job.st == .loaded) = true
    ∧ holds .stepBoundary { atOrder 8 with job := { (atOrder 8).job with haltPend := some 7 } } (fun t => t.job.haltCode == 7) = true := by
  decide +kernel
theorem test_paused_cycle :
    let s (c : Option JobCmd) : State := { atOrder 5 with job := { (atOrder 5).job with st := .paused, pend := c } }
    (s none).evalOpen = false ∧ (s none).ing.ckptExt ≠ 0xFFFF
    ∧ holds .pausedCycle (s (some .resume)) (fun t => t.job.st == .running && t.job.step == 1 && t.localUs == 1000) = true
    ∧ holds .pausedCycle (s (some .stop)) (fun t => t.job.st == .loaded && t.eval.queue == []) = true
    ∧ (let u (c : JobCmd) : State := { s none with job := { (s none).job with taken := some c } }
       holds .pausedCycle (u .resume) (fun t => t.job.st == .running && t.localUs == 0) = true
       ∧ holds .pausedCycle (u .stop) (fun t => t.job.st == .loaded && t.localUs == 0) = true)
    ∧ holds .pausedCycle (s none) (fun t => t.job.st == .paused && t.bnd.order == 5) = true
    ∧ holds .pausedCycle (s (some .checkpointNow)) (fun t => t.bnd.order == 3 && t.bnd.ckptDue) = true := by decide +kernel
theorem test_evaluation :
    let s : State := { atOrder 5 with eval := { (atOrder 5).eval with dueSegs := [1] } }
    s.eval.running = none ∧ (s.nextEval.map fun x => (x.1.id, x.1.group, x.2)) = some (1, 0, none)
    ∧ ((s.segment? 1).map fun x => (s.evalFits x, s.evalFed x, s.segLayers x)) = some (true, true, [0x8000])
    ∧ s.pieceOn 0 = false ∧ (atOrder 5).nextEval = none
    ∧ holds .evaluationSegment s (fun t => t.eval.running == some (1, none, 0x8000)) = true
    ∧ holds .evaluationSegment (atOrder 5) (fun t => t.eval.running == none) = true
    ∧ holds .evaluationBudgetExpiry s (fun t => t.eval.spent == 1 && t.localUs == 1000000) = true := by decide +kernel
theorem test_budgets :
    let s : State := { atOrder 7 with eval := { (atOrder 7).eval with posted := [(1023, 5)] } }
    holds .boundaryBudgetExpiry s (fun t => t.leaven.closed && t.localUs == 1000000) = true
    ∧ holds (.responseTimeout 1023) s (fun t => t.eval.posted == [] && t.localUs == 1000005 && t.counter 0x9200 3 == 1) = true
    ∧ holds (.responseWriteRejected 1023) s (fun t => t.eval.posted == [] && t.localUs == 0) = true
    ∧ holds (.responseTimeout 0) s (fun t => t.eval.posted == [(1023, 5)]) = true := by decide +kernel
theorem test_checkpoint :
    let s (n k : Nat) : State := { atOrder 6 with
      job := { (atOrder 6).job with ckptHdrs := [(0, []), (0, [])] }
      bnd := { (atOrder 6).bnd with ckptDue := true, ckptPhase := n, writesLeft := k } }
    (s 0 0).ckptMay = true ∧ (s 0 0).blocks = [] ∧ (s 0 0).ckptChoice = 0
    ∧ holds .checkpointWrite (s 0 0) (fun t => t.bnd.ckptPhase == 1 && t.tx.length == 2) = true
    ∧ holds .nvmeWriteComplete (s 2 1) (fun t => t.bnd.ckptPhase == 3 && t.tx.length == 1) = true
    ∧ holds .nvmeWriteComplete (s 2 2) (fun t => t.bnd.ckptPhase == 2 && t.tx.length == 0) = true
    ∧ holds .flushComplete (s 3 0) (fun t => t.bnd.ckptPhase == 4 && t.tx.length == 2) = true
    ∧ holds .flushComplete (s 4 0) (fun t => t.bnd.ckptPhase == 0 && !t.bnd.ckptDue) = true
    ∧ holds .checkpointBudgetExpiry (s 0 0) (fun t => t.job.ckptAsked && t.localUs == 1000000) = true
    ∧ holds .checkpointBudgetExpiry (s 4 0) (fun t => t.bnd.ckptPhase == 4 && t.bnd.ckptDue) = true
    ∧ holds .checkpointBudgetExpiry (s 2 1) (fun t => t.bnd.ckptPhase == 0 && t.counter 0x9100 7 == 1) = true := by decide +kernel
/-- Of two valid slots the older one is chosen. -/
theorem test_checkpoint_choice (s : State) (h : s.job.ckptHdrs = [(5, s.recipeDigest), (7, s.recipeDigest)]) :
    s.ckptHdrOk s.ckptChoice = true ∧ s.ckptChoice = 0 := by simp [State.ckptHdrOk, State.ckptChoice, h]
/-- A block whose generation byte is not the committed step's. -/
theorem test_checkpoint_lost_block :
    let b : Words := [0x0A000000, 0, 0, 0, 0, 0x40000, 0, 0, 0, 0, 0, 0, 0, 0, 0, 0]
    let k : Words := List.replicate 32 0 ++ [1] ++ b
    let s : State := { atOrder 6 with
      recipe := { Recipe.reset with loaded := some { recipe2 with kernelSec := k } }
      job := { (atOrder 6).job with committed := 3 }
      bnd := { (atOrder 6).bnd with ckptDue := true } }
    s.ckptMay = true ∧ s.blocks.map s.genOk = [false]
    ∧ holds .checkpointWrite s (fun t => t.job.haltCode == ECC_UNCORRECTABLE) = true := by decide +kernel

/-! ## Storage and host ports -/

/-- The step of `atOrder 0`, packing atOrder 1 with one closed micro-batch of a budget of 99 tokens. -/
def packing : State :=
  { atOrder 0 with ingest := { (atOrder 0).ingest with packStep := 1, mbs := [{ MbHdr.empty with valid := 90 }], open_ := 1 } }
theorem test_packing :
    let o : State := { packing with ingest := { packing.ingest with open_ := 0 } }
    packing.packCount = 1 ∧ packing.split = false ∧ packing.params.tokenBudget = 99
    ∧ holds .ingestPacking packing (fun t => t.ingest.packStep == 2 && (klook t.ingest.hdrs 1).isSome) = true
    ∧ holds .ingestPacking { packing with job := { packing.job with st := .loaded } } (fun t => t.ingest.packStep == 1) = true
    ∧ holds .ingestPacking { packing with ingest := { packing.ingest with packStep := 3 } } (fun t => t.ingest.packStep == 3) = true
    ∧ (takeRecord 0 24 o).map (fun t => t.ingest.cursor.off - o.ingest.cursor.off) = some 24
    ∧ (takeRecord 100 24 o).map (fun t => t.counter 0x9100 2) = some 1
    ∧ (takeRecord 10 24 o).map (fun t => t.ingest.open_) = some 1 := by decide +kernel
theorem test_nvme :
    let r : NvmeRead := ⟨9, 0, 0, 0, 2, 512, 1, 2, 100⟩
    let s (k : Nat) : State := { atOrder 0 with ingest := { (atOrder 0).ingest with reads := [{ r with tries := k }], nextCid := 11 } }
    holds (.nvmeReadComplete 9 0 [1, 2, 3]) (s 0) (fun t => t.ingest.reads == [] && t.ingest.bytes == [(512, [1, 2])]) = true
    ∧ holds (.nvmeReadComplete 9 1 []) (s 2) (fun t => t.ingest.reads == [{ r with cid := 11, port := 0, tries := 3, sent := 0 }]) = true
    ∧ holds (.nvmeReadTimeout 9 0) (s 2) (fun t => t.localUs == 5000100 && t.ingest.nextCid == 12) = true
    ∧ holds (.nvmeReadComplete 9 1 []) (s 3) (fun t => t.job.haltCode == PARTNER_SILENT) = true
    ∧ holds (.nvmeKeepAlive 0) (s 0) (fun t => t.tx.length == 1) = true ∧ (s 0).ing.targets = 1 := by decide +kernel
/-- A second member of the sequence axis, and a step that is late for the fourth time. -/
theorem test_split_and_bounds :
    let c : Container := { recipe2 with
      budgetSec := [0x0D000000, 0x00000040, 0, 0, 0, 0, 4, 0, 0, 0, 0, 0, 0, 0, 0, 0], collSec := [2, 0x02C10251] }
    let s : State := { packing with recipe := { Recipe.reset with loaded := some c } }
    let late (n : Nat) : State := { atOrder 0 with ingest := { (atOrder 0).ingest with lateBounds := n } }
    s.split = true ∧ s.sMembers = [0x251, 0x2C1]
    ∧ holds (.splitNotice 0x2C1 1 [⟨0, 1, 2, 3⟩]) s (fun t => klook t.ingest.notices 65 == some [⟨0, 1, 2, 3⟩]) = true
    ∧ holds (.splitNotice 5 1 []) s (fun t => t.ingest.notices == s.ingest.notices) = true
    ∧ klook (late 0).ingest.hdrs 1 = none
    ∧ holds (.ingestBoundExpiry 0) (late 2) (fun t => t.ingest.lateBounds == 3 && t.job.st == .running) = true
    ∧ holds (.ingestBoundExpiry 0) (late 3) (fun t => t.job.haltCode == PARTNER_SILENT) = true
    ∧ holds (.ingestBoundExpiry 0) { late 3 with ingest := { (late 3).ingest with hdrs := [(1, [])] } }
        (fun t => t.job.st == .running) = true := by decide +kernel
/-- READY with both host ports up; port 1 serves target 3 and client 2, whose window is the second 4 KiB of the inbox. -/
def host : State :=
  { up with
    ports := [{ HostPort.reset with up := true }, { HostPort.reset with up := true }]
    conns := [⟨3, 1, fullRate, 0⟩, ⟨0x102, 1, fullRate, 0⟩]
    regs := { Regs.default with clients := [(2, [5] ++ List.replicate 15 0 ++ [1, 0, 1, 0])] } }
theorem test_connections :
    let d : State := { host with ports := [{ HostPort.reset with up := true }, HostPort.reset] }
    host.ports.length = 2 ∧ (host.host 1).up = true ∧ (d.host 1).up = false ∧ d.dev.st ≠ .sleep
    ∧ holds (.hostPortLinkLoss 1) host (fun t => !(t.host 1).up && t.conns.map (·.port) == [0, 0] && (t.host 1).losses == 1) = true
    ∧ holds (.hostPortLinkLoss 1) d (fun t => (t.host 1).losses == 0) = true
    ∧ holds (.hostPortLinkUp 1) d (fun t => (t.host 1).up) = true
    ∧ (host.regs.clients.find? (fun c => ofLe (c.2.take 16) = 5)).isSome = true ∧ (host.host host.ingest.nextPort).up = true
    ∧ holds (.inboxClientConnect 5) { host with conns := [] } (fun t => t.conns.map (·.id) == [0x102]) = true
    ∧ holds (.inboxClientConnect 6) host (fun t => t.conns.length == 2) = true := by decide +kernel
theorem test_frames :
    let f (b : FrameBody) : Frame := ⟨1, 64, none, true, false, b⟩
    host.frameOk (f .tcp) = false ∧ host.frameOk (f .icmpEcho) = true ∧ host.window 0x102 = some (4096, 4096) ∧ memWf host.eval.inbox = true
    ∧ holds (.ethernetFrameReceived (f .tcp)) host (fun t => (t.host 1).discarded == 1 && (t.host 1).received == 1) = true
    ∧ holds (.ethernetFrameReceived (f .icmpEcho)) host (fun t => t.tx.length == 1 && (t.host 1).discarded == 0) = true
    ∧ holds (.ethernetFrameReceived (f (.inboxWrite 0x102 8191 [7]))) host (fun t => memRead t.eval.inbox 8191 == 7) = true
    ∧ holds (.ethernetFrameReceived (f (.inboxWrite 0x102 8191 [7, 7]))) host (fun t => t.eval.inbox == []) = true
    ∧ holds (.ethernetFrameReceived (f (.inboxWrite 0x102 4095 [7]))) host (fun t => t.eval.inbox == []) = true
    ∧ holds (.pfcFrame 1 3 65535) host (fun t => tget 0 (t.host 1).pausedUntil 3 == 84) = true
    ∧ holds (.pfcFrame 1 0 65535) host (fun t => (t.host 1).pausedUntil == [] && (t.host 1).pfc == 1) = true
    ∧ holds (.congestionNotification 3) host (fun t => t.conns.map (·.rate) == [fullRate / 2, fullRate]) = true := by decide +kernel

/-! ## Collectives and commit -/

/-- Collective 1 after F of layer 1: a reduce-scatter over 0x251 and 0x2C1, one binary32 element each. -/
def recipe3 : Container :=
  { recipe2 with
    collSec := [2, 0x02C10251, 0, 0, 0, 0, 0, 0, 0, 0, 0, 0, 0, 0, 0, 0, 1, 0x0C040001, 0x00011000, 0x00100000, 0, 132, 0xFFFFFFFF, 1,
      0x100, 0, 0x200, 0, 0, 0, 0, 0, 0, 0x02C10251] }
/-- Device 0x251 in a step of that recipe as the first of some members, F of layer 1 done. -/
def member3 (ms : List Nat) : State :=
  { atOrder 0 with
    recipe := { Recipe.reset with loaded := some recipe3 }
    fab := { FabSt.reset with coord := [2, 5, 1] }
    job := { (atOrder 0).job with done := [(1, 1, 0)] }
    coll := { (atOrder 0).coll with members := ms } }
def c1 : Coll := coll ((recipe3.collSec.drop 17).take 16)
theorem test_collectives :
    let s := member3 [0x251, 0x2C1]
    let on : State := { s with coll := { s.coll with runs := [(1, { CollRun.empty with cur := some 0, doneBuckets := [0, 1] })] } }
    let off : State := { on with coll := { s.coll with runs := [(1, { CollRun.empty with cur := some 0, doneBuckets := [0] })] } }
    let p : Packet := { bulk with kind := 1, flow := 1, src := 0x2C1, dst := 0x251, step := 0, seq := 0, payload := [1, 2, 3, 4] }
    s.coll? 1 = some c1 ∧ s.triggered c1 0 = true ∧ 0 < s.collRuns c1 ∧ s.blockAt c1.srcVa = none
    ∧ c1.rankOf s.cont.collSec 0x2C1 = some 1 ∧ s.devId = 0x251 ∧ c1.duties s.cont.collSec = [0, 1] ∧ on.unsent c1 = false
    ∧ holds (.collectiveStart 1 0) s (fun t => (t.collRun 1).cur == some 0) = true
    ∧ holds (.collectiveStart 1 0) (atOrder 0) (fun t => (t.collRun 1).cur == none) = true
    ∧ holds (.collectivePacket p) s (fun t => (t.collRun 1).got.map (·.rank) == [1]) = true
    ∧ holds (.collectivePacket { p with step := 1 }) s (fun t => t.coll.early.length == 1 && (t.collRun 1).got == []) = true
    ∧ holds (.collectivePacket p) { s with job := { s.job with attempt := 1 } } (fun t => (t.collRun 1).got == []) = true
    ∧ holds (.collectiveComplete 1) on (fun t => (t.collRun 1).cur == none && (t.collRun 1).finished == [0]) = true
    ∧ holds (.collectiveComplete 1) off (fun t => (t.collRun 1).cur == some 0) = true := by decide +kernel
/-- The end of a step: every slot done and the collective run, in the place of the commit root, a leaf and a middle device. -/
def ending (ms : List Nat) (k : CollSt → CollSt) : State :=
  { member3 ms with
    groups := [(0, { GroupSt.reset with pos := 2 })]
    coll := k { (member3 ms).coll with runs := [(1, { CollRun.empty with finished := [0] })] } }
def msg (n : Nat) : CommitMsg := ⟨0, 0, n, 0x2C1, STEP_REPEAT_FAULT, 0x951, true⟩
theorem test_commit :
    let rt := ending [0x251, 0x2C1]
    let leaf := ending [0x2C1, 0x251]
    (rt id).inStep = true ∧ (rt id).phaseOneMet = true ∧ (rt id).rank = 0 ∧ (leaf id).rank = 1 ∧ (rt id).kids = [0x2C1] ∧ (leaf id).kids = []
    ∧ (rt id).forStep (msg 0) = true ∧ (member3 [0x251]).phaseOneMet = false
    ∧ holds .commitPhaseOne (rt id) (fun t => t.coll.phaseOne && !t.coll.prepSent) = true
    ∧ holds .commitPhaseOne (leaf id) (fun t => t.coll.prepSent && t.tx.length == 1) = true
    ∧ holds .commitPhaseOne (rt fun c => { c with prepGot := [0x2C1] }) (fun t => t.bnd.order == 2 && t.coll.decided == some true) = true
    ∧ holds .commitPhaseOne (member3 [0x251]) (fun t => !t.coll.phaseOne) = true
    ∧ holds (.prepare (msg 0)) (rt id) (fun t => t.coll.prepGot == [0x2C1]) = true
    ∧ holds (.prepare (msg 0)) (rt fun c => { c with phaseOne := true }) (fun t => t.bnd.order == 2) = true
    ∧ holds (.commit (msg 0)) (leaf fun c => { c with prepSent := true }) (fun t => t.bnd.order == 2) = true
    ∧ holds (.commit (msg 0)) (leaf id) (fun t => t.bnd.order == 0) = true
    ∧ holds (.decision (msg 0)) (leaf fun c => { c with prepSent := true }) (fun t => t.bnd.order == 2) = true
    ∧ holds (.decision { msg 0 with commit := false }) (leaf fun c => { c with prepSent := true })
        (fun t => t.job.attempt == 1 && t.job.causes == [(STEP_REPEAT_FAULT, 0x2C1)]) = true := by decide +kernel
theorem test_aborts :
    let rt := ending [0x251, 0x2C1] id
    let leaf := ending [0x2C1, 0x251] id
    let last : State := { leaf with job := { leaf.job with attempt := 3 } }
    last.eff.repeatLimit = 3 ∧ last.forStep (msg 3) = true ∧ rt.others = [0x2C1] ∧ leaf.mine (msg 2) = true
    ∧ holds (.abort (msg 0)) leaf (fun t => t.job.attempt == 1 && t.job.causes == [(STEP_REPEAT_FAULT, 0x951)]) = true
    ∧ holds (.abort (msg 3)) last (fun t => t.job.haltCode == REPEAT_LIMIT) = true
    ∧ holds (.abortReq (msg 0)) rt (fun t => t.job.attempt == 1 && t.job.causes == [(STEP_REPEAT_FAULT, 0x2C1)]) = true
    ∧ holds (.abortReq (msg 0)) leaf (fun t => t.job.attempt == 0) = true
    ∧ holds (.higherAttempt (msg 2) true none) leaf (fun t => t.job.attempt == 2 && t.job.causes.length == 2) = true
    ∧ holds (.higherAttempt { msg 2 with step := 9 } true none) leaf (fun t => t.job.attempt == 0) = true
    ∧ leaf.mine { msg 0 with step := 9 } = true ∧ leaf.inStep = true
    ∧ holds (.abort { msg 0 with step := 9 }) leaf (fun t => t.coll.held.length == 1 && t.job.attempt == 0) = true := by
  decide +kernel
theorem test_queries :
    let rt := ending [0x251, 0x2C1] id
    let leaf := ending [0x2C1, 0x251] id
    let next : State := { rt with job := { rt.job with step := 1, attempt := 1 } }
    holds (.query (msg 0)) rt (fun t => t.tx.length == 1 && t.coll.answered == [(0, 0, 0x2C1)]) = true
    ∧ holds (.query { msg 0 with step := 1 }) next (fun t => t.tx.length == 1) = true
    ∧ (let asked (l : List (Nat × Nat × Nat)) (s : State) : State := { s with coll := { s.coll with answered := l } }
       holds (.query (msg 0)) (asked [(0, 0, 0x2C1)] rt) (fun t => t.tx == []) = true
        ∧ holds (.query { msg 0 with step := 1 }) (asked [(1, 0, 0x2C1)] next) (fun t => t.tx == []) = true)
    ∧ holds (.query { msg 1 with step := 1 }) { next with coll := { next.coll with queries := [0x2C1] } }
        (fun t => t.coll.queries == [0x2C1]) = true
    ∧ holds (.query { msg 1 with step := 1 }) next (fun t => t.coll.queries == [0x2C1]) = true
    ∧ holds (.query (msg 0)) leaf (fun t => t.tx == []) = true
    ∧ holds (.halt (msg 0)) rt (fun t => t.job.haltCode == STEP_REPEAT_FAULT) = true
    ∧ holds (.halt (msg 0)) { rt with bnd := { rt.bnd with order := 5 } }
        (fun t => t.job.haltPend == some STEP_REPEAT_FAULT && t.job.st == .running) = true := by decide +kernel
theorem test_silence :
    let rt := ending [0x251, 0x2C1]
    let leaf := ending [0x2C1, 0x251]
    let w := rt fun c => { c with phaseOne := true }
    let q (n : Nat) := leaf fun c => { c with prepSent := true, silences := n }
    w.waitsFor .prepare 0x2C1 0 0 = true ∧ (rt id).waitsFor .prepare 0x2C1 0 0 = false
    ∧ holds (.partnerSilent .prepare 0x2C1 0 0) w (fun t => t.job.attempt == 1 && t.job.causes == [(STEP_REPEAT_LATE, 0x251)]) = true
    ∧ holds (.partnerSilent .prepare 0x2C1 0 0) (rt id) (fun t => t.job.attempt == 0) = true
    ∧ (let o : State := { member3 [0x251, 0x2C1] with
         bnd := { Boundary.reset with order := 5, orderStart := 3 }
         coll := { (member3 [0x251, 0x2C1]).coll with runs := [(1, { CollRun.empty with cur := some 0 })] } }
       o.waitsFor .bucket 0x2C1 1 0 = true
        ∧ holds (.partnerSilent .bucket 0x2C1 1 0) o (fun t => t.job.attempt == 0 && t.localUs == 500003 && t.log.ring.length == 1) = true)
    ∧ holds .commitOutcomeSilence (q 2) (fun t => t.coll.silences == 3 && t.job.st == .running) = true
    ∧ holds .commitOutcomeSilence (q 3) (fun t => t.job.haltCode == PARTNER_SILENT) = true
    ∧ holds (.digestExchange 0x2C1 1) (rt id) (fun t => t.job.haltCode == DESCRIPTOR_INVALID) = true
    ∧ holds (.digestExchange 0x2C1 0) (rt fun c => { c with digestSent := true, released := false }) (fun t => t.coll.released) = true
    ∧ holds (.digestExchange 0x2C1 0) (leaf fun c => { c with digestSent := true, released := false }) (fun t => t.coll.released) = true
    ∧ holds (.digestExchange 0x951 0) (leaf id) (fun t => t.tx.length == 1) = true := by decide +kernel

/-! ## Roots -/

/-- That problem in a phase, at the bubble of its group. -/
def root (borrow : Bool) (x : ProbSt) : State :=
  { atOrder 0 with
    recipe := { Recipe.reset with loaded := some { recipe2 with rootSec := roots borrow } }
    groups := [(0, { GroupSt.reset with pos := 1, item := some ⟨.bubble, 0, 0, 0xFFFF⟩ })]
    leaven := { LeavenSt.reset with probs := [(0, x)] } }
theorem test_root_admission :
    let s := root false { ProbSt.reset with phase := .waiting, due := 1 }
    let b := root true { ProbSt.reset with phase := .waiting, due := 1 }
    (s.prob? 0).map (·.job.hearth) = some 0 ∧ s.firstRoot 0 false = some 0 ∧ s.freeCell 0 = some 0 ∧ s.mandatory (s.run 0) = true
    ∧ holds (.rootProblemAdmission 0) s (fun t => (t.run 0).phase == .running && (t.run 0).cell == some 0) = true
    ∧ b.firstRoot 0 false = none ∧ holds (.rootProblemAdmission 0) b (fun t => (t.run 0).phase == .waiting) = true
    ∧ (b.prob? 0).map (fun p => (p.job.borrow, p.role, p.job.borrowN)) = some (true, 0, 2) ∧ b.firstRoot 0 true = some 0
    ∧ b.borrowedOn 0 = none ∧ ((b.pieceCores 0).take 3).length = 3 ∧ b.mandatory (b.run 0) = true ∧ b.gov.gating = false
    ∧ (b.prob? 0).map (b.loadReads 0) = some [(0x10000, 8192)]
    ∧ (let p : State := root true { ProbSt.reset with phase := .running, mat := [[0x3F800000]], starter := some [[0x3F000000]] }
       (p.prob? 0).map (fun x => (p.solution 0 x).1.products) = some 1 ∧ p.borrowedOn 0 = some 0
        ∧ holds (.borrowedPiece 0) p (fun t => (t.run 0).phase == .running && (t.run 0).cores == (p.pieceCores 0).take 3) = true)
    ∧ (let on : State := root true { ProbSt.reset with phase := .running, cores := [7] }
       holds (.borrowedPieceComplete 0) { on with bnd := { on.bnd with order := 7 }, leaven := { on.leaven with closed := true } }
            (fun t => (t.run 0).cores == [] && (t.run 0).pieces == 1) = true) := by decide +kernel
theorem test_root_commit :
    let s := root false { ProbSt.reset with phase := .decided, sol := [[0x3F800000]], mat := [[0x3F800000]] }
    (root false { ProbSt.reset with phase := .running }).prob? 0 = s.prob? 0 ∧ (s.prob? 0).isSome = true
    ∧ holds (.rootCommit 0) s (fun t => (t.run 0).written && (t.run 0).phase == .ready) = true
    ∧ holds (.rootCommit 0) (root false ProbSt.reset) (fun t => (t.run 0).phase == .none) = true
    ∧ holds (.rootDeliveryAck 0 5) (root false { ProbSt.reset with acks := [5, 6] }) (fun t => (t.run 0).acks == [6]) = true := by
  decide +kernel
theorem test_root_decided :
    let s (a : W32) := root false { ProbSt.reset with
      phase := .running, mat := [[a]], starter := some [[0x3F800000]], cell := some 0, due := 4 }
    ((s 0x3F800000).prob? 0).map (fun p => ((s 0x3F800000).solution 0 p).1.code) = some 0
    ∧ holds (.rootProblemDecided 0) (s 0x3F800000) (fun t => (t.run 0).phase == .decided && (t.run 0).cell == none) = true
    ∧ ((s 0x7FC00000).prob? 0).map (fun p => ((s 0x7FC00000).solution 0 p).1.code) = some 0x302
    ∧ holds (.rootProblemDecided 0) (s 0x7FC00000)
        (fun t => (t.run 0).phase == .none && (t.run 0).ended == [(4, 0x302)]) = true := by decide +kernel
/-- The same problem as a destination of 0x2C1, and a curvature-update step. -/
theorem test_root_delivery :
    let d : Container := { recipe2 with rootSec := (roots false).take 16 ++ [0x00024000, 0, 0, 0, 0x20000, 0, 0, 0x2C100000, 0, 0, 0, 0, 0, 0, 0, 0] }
    let s : State := { root false ProbSt.reset with recipe := { Recipe.reset with loaded := some d } }
    let f : State := { root false ProbSt.reset with
      recipe := { Recipe.reset with loaded := some { recipe2 with interSec := recipe2.interSec.set 2 0x00010000 } } }
    (s.destProb 2 0 0 0x2C1).map (·.2) = some 0 ∧ s.destProb 2 1 0 0x2C1 = none
    ∧ holds (.rootDelivery 0x2C1 2 0 0 1 9 8 ⟨1, 0, []⟩ []) s (fun t => (t.run 0).phase == .ready && (t.run 0).due == 9
        && t.tx == [.vl0 0x2C1 7 [2, 0, 0, 8]]) = true
    ∧ holds (.rootDecisionMessage 0x2C1 2 0 0 ⟨4, 0⟩ 1 .missed) s (fun t => (t.run 0).latch == 2 && (t.run 0).latchStep == 4) = true
    ∧ holds (.rootDecisionMessage 0x2C1 2 0 0 ⟨0, 0⟩ 1 .missed) s (fun t => (t.run 0).latch == 0) = true
    ∧ holds (.rootDecisionMessage 0x2C1 2 1 0 ⟨4, 0⟩ 1 .missed) s (fun t => (t.run 0).latch == 0) = true
    ∧ (let l (n k : Nat) : State := setRun 0 { ProbSt.reset with latch := k, latchStep := n } s
       holds (.rootDecisionMessage 0x2C1 2 0 0 ⟨5, 0⟩ 1 .missed) (l 4 1) (fun t => (t.run 0).latch == 1 && (t.run 0).notes.length == 1) = true
        ∧ holds (.rootDecisionMessage 0x2C1 2 0 0 ⟨5, 0⟩ 1 .abandoned) (l 5 2) (fun t => (t.run 0).latch == 3) = true
        ∧ holds (.rootDecisionMessage 0x2C1 2 0 0 ⟨5, 0⟩ 1 .abandoned) (l 5 1) (fun t => (t.run 0).latch == 1) = true)
    ∧ (let again : State := { s with job := { s.job with step := 4, attempt := 2 } }
       again.inStep = true ∧ holds (.rootDecisionMessage 0x2C1 2 0 0 ⟨4, 1⟩ 1 .missed) again (fun t => (t.run 0).latch == 0) = true)
    ∧ f.curv f.job.step = true ∧ f.leaven.folded = false ∧ (atOrder 0).curv 0 = false
    ∧ f.probs.map (fun p => (p.role, f.factorsHere p, p.factorSlot 1 % 8, f.phys (p.factorSlot 1))) = [(0, true, 0, some (200 * pageSize + 73728))]
    ∧ holds .factorFold f (fun t => t.leaven.folded && f.probs.all fun p => t.factorSrc p 1 == f.job.step) = true
    ∧ holds .factorFold (atOrder 0) (fun t => !t.leaven.folded) = true := by
  decide +kernel
/-- A factor block whose reduce-scatter, collective 1, has not finished is not folded (R188). -/
theorem test_factor_not_here :
    let c : Container := { recipe3 with
      interSec := recipe3.interSec.set 2 0x00010000, rootSec := roots false, collSec := recipe3.collSec.set 18 0x00011800
      layerSec := [0x06800100, 0x00010000, 0, 0, 0, 0, 0, 0] ++ [0x00020000, 0x00000101, 0, 0, 0, 0, 0, 0]
      regions := [⟨.factor, 2, none, none, 0, 4 * pageSize, 0, false, true, false, 0⟩] }
    let s : State := { member3 [0x251, 0x2C1] with recipe := { Recipe.reset with loaded := some c } }
    let done : State := { s with coll := { s.coll with runs := [(1, { CollRun.empty with finished := [0] })] } }
    s.inStep = true ∧ s.curv s.job.step = true ∧ s.probs.map (fun p => (p.role, s.factorsHere p, done.factorsHere p)) = [(0, false, true)]
    ∧ holds .factorFold s (fun t => !t.leaven.folded) = true := by decide +kernel

/-! ## Ill-formed commands -/

/-- One ill-formed command for each check of WellFormed.lean, and a well-formed one beside it. -/
theorem test_ill_formed :
    ([.load { hdr 5 with bodyLen := 65536 }, .load { hdr 5 with seq := 2 ^ 32 }, .load { hdr 5 with target := 65536 },
      .load { hdr 5 with transport := .host 2 }, .load { hdr 5 with transport := .relay 4096 },
      .start (hdr 5) { noInstall with blk4k := [(256, 0)] }, .start (hdr 5) { noInstall with blk4k := [(0, 2 ^ 32)] },
      .wakePacket 4096, .selfTestQueued (hdr 8) 65536, .laneFailure 48, .hushHoldEnd 48, .consume (hdr 12) 64 0,
      .consume (hdr 12) 0 (2 ^ 64), .attestationNonce (hdr 5) (List.replicate 65536 0),
      .recipeStaging (hdr 13) (2 ^ 32) 1 true [] kind1, .recipeStaging (hdr 13) 0 1 true [] kind1,
      .laneMaskWrite (hdr 5) 48 0, .laneMaskWrite (hdr 5) 0 256, .coordinateWrite (hdr 5) 4 0, .coordinateWrite (hdr 5) 1 256,
      .spareSubstitution (hdr 5) 48 0, .writeEntry (hdr 5) 65536 0 5 [], .writeEntry (hdr 5) 0 256 5 [],
      .writeEntry (hdr 5) 0 0 256 [], .writeEntry (hdr 5) 0x5001 1 5 [2], .writeEntry (hdr 5) 0x8001 1 tOCTETS ([0, 0, 0, 1] ++ List.replicate 316 0),
      .read (hdr 4) 65536 0, .readBlock (hdr 12) 0 0 (2 ^ 32) 0, .writeBlock (hdr 13) 0x5010 1 5 0 1 true [],
      .eventAck (hdr 0) (2 ^ 32), .eventResendTimer 32 0, .relayRequest (hdr 4) (.read 65536 0), .relayPacket 4096 (hdr 4) (.read 0 0),
      .relayPacket 0 (hdr 4) (.write 0x8001 1 tOCTETS ([0, 0, 0, 1] ++ List.replicate 316 0)), .relayRecordExpiry 4096 1 0, .writeBlockHoldTimeout 0 256]
      : List Instr).all (fun i => !wellFormed i) = true
    ∧ ([.matrixOperation 384, .splitKCombine 0 16, .dataTileFetch 0 8 none, .streamCreditReport 0 0 ⟨1, 0, 16⟩, .translationMiss 0 0 (2 ^ 48) true, .itemDrainComplete 384,
      .translationMapped 0 (2 ^ 48), .sramUncorrectable .tile 384 ⟨0, []⟩, .sramUncorrectable .tile 0 ⟨0, [⟨36, 1⟩]⟩,
      .gddr7Uncorrectable 24 0 0 .stepWork [], .gddr7Uncorrectable 0 0 0 .stepWork [⟨0, 0⟩], .gddr7Uncorrectable 0 0 0 .stepWork [⟨3, 1⟩, ⟨3, 2⟩],
      .patrolScrub 1509949440 ⟨[], 0⟩, .coreFenced 400, .electiveAdmission (.bubble 384), .nvmeReadComplete 65536 0 [], .nvmeReadTimeout 0 65536,
      .nvmeKeepAlive 32, .splitNotice 4096 0 [], .splitNotice 0 0 [⟨256, 0, 0, 0⟩], .hostPortLinkLoss 2, .collectiveStart 65536 0,
      .collectivePacket { bulk with payload := List.replicate 4097 0 }, .collectivePacket { bulk with hops := 16 }, .collectivePacket { bulk with payload := [] },
      .prepare ⟨0, 0, 16, 0, 0, 0, true⟩, .partnerSilent .bucket 4096 0 0, .digestExchange 4096 0, .responseTimeout 1024, .inboxClientConnect (2 ^ 128),
      .rootProblemAdmission 65536, .retrainComplete 0 5, .linkStateAnnouncement 0 48 true, .packetForward (some ⟨48, 0, 0, false⟩) bulk, .packetForward (some (comes 4096)) bulk,
      .rootDelivery 0 0 0 0 0 0 0 ⟨4, 0, []⟩ [], .rootDecisionMessage 0 0 0 0 ⟨0, 16⟩ 0 .new,
      .linkReplayRequest 0 4096, .identityExchange 0 ⟨65536, 0, 0, 0, 0, true⟩, .stbyGood 64 true true, .railTimeout 8 0, .railFault 9,
      .governorDecision ⟨0, 0, 0, [], 0, 0, 0, 0, 0⟩, .ethernetFrameReceived ⟨2, 64, none, true, false, .tcp⟩, .pfcFrame 0 8 0, .linkCreditReturn 0 4 0 0, .rootDeliveryAck 0 4096]
      : List Instr).all (fun i => !wellFormed i) = true
    ∧ wellFormed (.load (hdr 5)) = true := by decide +kernel
/-- The lists and names of a proofing outcome, a statement and a hello. -/
theorem test_ill_formed_operands :
    proofWf good = true ∧ ([{ good with railFail := some (8, 0) }, { good with badCores := [(400, 0)] }, { good with unitFail := some (0, 6) },
      { good with badWays := [(4, 0, 0)] }, { good with badCells := [64] }, { good with sigCells := [64] }, { good with rates := [] },
      { good with rates := List.replicate 24 30 }, { good with lanes := [] }, { good with ids := [(48, ⟨0, 0, 0, 0, 0, true⟩)] },
      { good with hostUp := [] }] : List ProofInput).all (fun p => !wellFormed (.proofing p)) = true
    ∧ wellFormed (.enrolOwner (hdr 324) (stmt 1)) = false ∧ wellFormed (.revoke (hdr 180) (stmt 5)) = false
    ∧ wellFormed (.clientHello (hdr 286) ⟨[], [], [], 0, true⟩) = false
    ∧ containerWf kind1 = false := by decide +kernel

/-! ## The manual's worked figures -/

/-- Table 02.8: one block in E4M3. -/
theorem test_table_02_8 :
    writeBlock 3 ([0x3F400000, 0xC0400000, 0x42E00000, 0x3A83126F, 0, 0xBD800000, 0x3951B717, 0x41A00000].map ofB32)
      = ⟨0x7D, [0x44, 0xD4, 0x7E, 0x02, 0x00, 0xA8, 0x00, 0x6A], 1⟩ := by decide +kernel
/-- Table 02.12, row by row: crumb19 T and N, bf16, FP16, E4M3, E5M2, E2M1, INT8. -/
def row212 (w : W32) : List Nat :=
  let v := ofB32 w
  [(crumbBits (crumbTrunc v)).toNat, (crumbBits (crumbRound v)).toNat] ++ [1, 2, 3, 4, 5, 6].map fun f => (convElem f v).1
theorem test_table_02_12 :
    row212 0x3FC01800 = [0x1FE00, 0x1FE01, 0x3FC0, 0x3E01, 0x3C, 0x3E, 0x3, 0x02]
    ∧ row212 0x3FC01000 = [0x1FE00, 0x1FE00, 0x3FC0, 0x3E00, 0x3C, 0x3E, 0x3, 0x02]
    ∧ row212 0x43FA0000 = [0x21FD0, 0x21FD0, 0x43FA, 0x5FD0, 0x7E, 0x60, 0x7, 0x7F]
    ∧ row212 0x476A6000 = [0x23B53, 0x23B53, 0x476A, 0x7B53, 0x7E, 0x7B, 0x7, 0x7F]
    ∧ row212 0x4788B800 = [0x23C45, 0x23C46, 0x4789, 0x7C00, 0x7E, 0x7C, 0x7, 0x7F]
    ∧ row212 0x80000000 = [0x40000, 0x40000, 0x8000, 0x8000, 0x80, 0x80, 0x8, 0x00]
    ∧ row212 0x7FC00000 = [0x3FE00, 0x3FE00, 0x7FC0, 0x7E00, 0x7F, 0x7E, 0x0, 0x00] := by decide +kernel
/-- Chapter 2: the split of 0x3FC01800. -/
theorem test_split_crumb :
    ((splitCrumb (ofB32 0x3FC01800)).map crumbBits crumbBits) = (0x1FE00#19, 0x1D200#19) := by decide +kernel
/-- R73, its listing carried out by hand; the example after it, at u13 and one below the threshold. -/
theorem test_stochastic_rounding :
    mix64 1 = 0x99E97F01A5697D93 ∧ roundBits 0x123456789ABCDEF0 40117 12 3 5 7 4098 = 7841 ∧ roundBits 1 1 1 1 1 1 0 = 7608
    ∧ toB32 (srAdd (.fin false 1 0) (.fin false 3 (-25)) 0x0A3C) = 0x3F800001
    ∧ toB32 (srAdd (.fin false 1 0) (.fin false 3 (-25)) 2048) = 0x3F800001
    ∧ toB32 (srAdd (.fin false 1 0) (.fin false 3 (-25)) 2047) = 0x3F800000 := by decide +kernel
/-- Table 03.7: blocks after an overflow replay. -/
theorem test_table_03_7 :
    writeBlockOff 3 true [.fin false 1 98] = (⟨0xF9, [0x78], 0⟩, false)
    ∧ writeBlockOff 3 true [.fin false 1 108] = (⟨0xFF, [0x00], 0⟩, true)
    ∧ writeBlockOff 3 true [.inf false] = (⟨0xFF, [0x00], 0⟩, false) := by decide +kernel
/-- Chapter 6: bias and E4M3 output, a row whose largest sum is 200. -/
theorem test_bias_block : writeBlock 3 [.fin false 200 0, ofB32 0x39D1B717] = ⟨0x7E, [0x7C, 0x00], 1⟩ := by decide +kernel
/-- Tables 09.10 to 09.12: the kernel on one element. -/
theorem test_kernel :
    kRun ⟨[5, 4, 3, 1], [5, 4, 3], [0x04000000, 0x04420000, 0x04840000, 0x04C60000, 0x1CE03000, 0x19393000, 0x2509F000,
        0x19091000, 0x1D641180, 0x194A4000, 0x2D4A0000, 0x48422280, 0x08020000, 0x08440000, 0x08860000]⟩
      ⟨[0x3F666666, 0x3B000000, 0x3C23D70A, 0x3A03126F, 0, 0, 0, 0, 0, 0, 0, 0], 40117, 0⟩ [0, 0x3F000000, 0, 0]
      = [(0, 0x3EFFFEB8), (1, 0x46A3D800), (2, 0)] ∧ kernelOut 4 [0x46A3D800] = leBytes 2 0x51EC := by decide +kernel
/-- Table 10.4: six devices, segment of rank 2, bf16 wire. -/
theorem test_reduction :
    let z (w : W32) : W32 × NStatus := (w, NStatus.zero)
    let wire (x : W32 × NStatus) : W32 × NStatus := z ((wireVals 0 1 (toWire 0 x).1).headD 0)
    let r4 := reduceAdd (z 0x3E800000) (wire (z 0x3B000000))
    let r0 := reduceAdd (z 0x3F800000) (wire (z 0x3B800000))
    (reduceAdd (reduceAdd (reduceAdd (z 0x3F000000) (wire (z 0x3B400000))) (wire r4)) (wire r0)).1 = 0x3FE0A000 := by decide +kernel
/-- Chapter 13: a line of the window region, its channel, home line index and pantry set. -/
theorem test_place : (place 0x345678900 0).1 = 0 ∧ (place 0x345678900 0).2.2 = 27440082 ∧ 27440082 % 49152 = 13266 := by decide +kernel
/-- Chapter 1: physical cores 7 and 41 of hearth 2 failed; and logical core (2, 40). -/
theorem test_core_map :
    holds (.proofing { good with badCores := [(207, 0), (241, 5)] }) proofing (fun t =>
      t.dev.map.getD 198 0 == 6 && t.dev.map.getD 199 0 == 8 && t.dev.map.getD 232 0 == 42 && t.dev.map.getD 287 0 == 97
        && t.dev.phys.getD 298 9 == 1 && t.dev.phys.getD 299 9 == 1) = true := by decide +kernel
/-- Chapter 18: slices of a core at 0.75 V and 2.00 G beats/s. -/
theorem test_slice_times :
    let s : State := { up with gov := { up.gov with vcore := [750, 750, 750, 750], tj := [8500, 8500, 8500, 8500] } }
    s.sliceUs 113 0 = 263 ∧ s.sliceUs 113 1 = 47 ∧ s.sliceUs 113 13 = 46 ∧ s.sliceUs 113 14 = 23 := by decide +kernel
/-- R45: a NaN read with its sign and payload. -/
theorem test_nan : (ofB32 0xFF800001).isNan = true ∧ toB32 (ofB32 0xFF800001) = 0x7FC00000 ∧ fneg 0x7FA00000 = 0x7FC00000
    ∧ (ofB32 0x7F800000).isNan = false ∧ toB32 (ofB32 0xFF800000) = 0xFF800000 := by decide +kernel
theorem test_step :
    (match step { up with pending := [.patrolScrub 0 ⟨two, 0⟩, .coreFenced 0] } with
      | .next t => decide (t.pending = [.coreFenced 0]) && t.counter 0x4100 2 == 1
      | _ => false) = true
    ∧ (match step up with
      | .next t => t.localUs == 1 && t.fab == up.fab && t.tx == []
      | _ => false) = true ∧ up.stewardUp = true ∧ up.pending = [] := by decide +kernel
/-- A hush is repeated until its end; a packet leaves once the bucket has refilled (R296, R297). -/
theorem test_idle_fabric :
    let h : State := ports 0 { port 3 with hushing := some (0, 2) } up
    let w : State := { ports 0 (port 3) up with fab := { (ports 0 (port 3) up).fab with inject := [bulk], tokens := 1 } }
    let after (s : State) (p : State → Bool) : Bool := match step s with | .next t => p t | _ => false
    after h (fun t => t.tx == [.hush 0 1] && (t.port 0).hushing == some (0, 2)) = true
    ∧ after { h with localUs := 1 } (fun t => t.tx == [] && (t.port 0).hushing == none) = true
    ∧ after w (fun t => t.fab.inject == [] && t.tx.length == 1) = true := by decide +kernel
theorem test_sizes :
    let s : State := { up with regs := { Regs.default with coord := [0, 4, 0xFF] } }
    code 0x3000 6 8 s = true
    ∧ holds (.coordinateWrite (hdr 5) 6 8) s (fun t => acked OK t && t.regs.nY == 8) = true
    ∧ holds (.coordinateWrite (hdr 5) 6 4) s (acked TYPE_MISMATCH) = true
    ∧ holds (.coordinateWrite (hdr 5) 7 1) s (fun t => acked OK t && t.regs.nZ == 1) = true
    ∧ holds (.coordinateWrite (hdr 5) 7 3) s (acked TYPE_MISMATCH) = true
    ∧ code 0x3000 6 8 (job .running) = true ∧ holds (.coordinateWrite (hdr 5) 6 8) (job .running) (acked BUSY) = true := by decide +kernel
theorem test_decode : decodeTableWord 8 1 = none := by rfl
/-- A value that is held goes on, and what completes it stores it (a client's 20 bytes, Table 14.6). -/
theorem test_chunks_go_on :
    let s (l : List (Nat × Bytes)) : State := { up with edp := { up.edp with
      holds := [⟨0x9200, 0x10, 1, tOCTETS, 20, l, false, 0⟩] } }
    may 13 (s []) = true ∧ (s []).heldElse ses 0x9200 0x10 = false
    ∧ holds (.writeBlock (hdr 13) 0x9200 0x10 tOCTETS 5 20 false [7]) (s [(0, [1, 1, 1, 1, 1])])
        (fun t => acked OK t && (t.hold? 0x9200 0x10).map (·.chunks.length) == some 2) = true
    ∧ holds (.writeBlock (hdr 32) 0x9200 0x10 tOCTETS 0 20 true (List.replicate 20 0)) (s [])
        (fun t => acked OK t && t.hold? 0x9200 0x10 == none && (klook t.regs.clients 0).isSome) = true := by decide +kernel
/-- A container's first chunk takes its pages; where every page is retired there are none. -/
theorem test_staging_pages :
    holds (.recipeStaging (hdr 13) 0 2 false [0] kind1) up
        (fun t => acked OK t && t.mm.holdPages == [92159] && (t.hold? 0x5010 1).map (·.total) == some 2) = true
    ∧ (let s : State := { up with mm := { up.mm with retired := List.range 92160 } }
       s.mm.up = true ∧ s.pagesFor 1 = []) := by
  refine ⟨by decide +kernel, rfl, ?_⟩
  simp only [State.pagesFor, List.take_eq_nil_iff, List.filter_eq_nil_iff]
  right
  intro p hp
  simp only [List.mem_map, List.mem_range] at hp
  obtain ⟨a, -, rfl⟩ := hp
  simp
  omega
theorem test_self_test_refused :
    may 8 down = true ∧ holds (.selfTestQueued (hdr 8) 1) down (acked NOT_READY) = true
    ∧ holds (.selfTestImmediate (hdr 8) 1) down (acked NOT_READY) = true
    ∧ holds (.selfTestImmediate (hdr 8) 1) { up with dev := { up.dev with test := ⟨2, 0, [], false⟩ } } (acked BUSY) = true
    ∧ holds (.selfTestImmediate (hdr 8) 1) { up with dev := { up.dev with map := [0, 0xFF] } } (acked TYPE_MISMATCH) = true
    ∧ holds (.selfTestQueued (hdr 8) 0x17F) up (fun t => t.mm.saving == [3]) = true := by decide +kernel
/-- The way of a set that its hearth's save area holds, and a save line that cannot be read back (R413). -/
theorem test_save_area :
    let x (ws : List (Nat × Nat × Bool)) : State := { up with mm := { up.mm with pantry := [(49152 * 3, ⟨ws, 0, []⟩)] } }
    let s (j : JobState) (l : List (Nat × Nat)) : State := { job j with
      mm := { up.mm with saving := [0] }, dev := { (job j).dev with test := ⟨2, 0x8003, l, true⟩ } }
    holds (.selfTestQueued (hdr 8) 0x17F) (x [(15, 0, true), (3, 49152, false)])
        (fun t => (t.mm.set (49152 * 3)).ways == [(3, 49152, false)]) = true
    ∧ (s .idle [(0x8003, 1)]).sliceMay 0x8003 1 = true ∧ sliceKib 0x8003 1 ≠ 0
    ∧ holds (.bistSlice ⟨true, true, 0⟩) (s .idle [(0x8003, 1)])
        (fun t => t.counter 0x7200 5 == 1 && t.mm.saving == [] && t.job.st == .idle) = true := by decide +kernel
theorem test_order_six :
    let s : State := { atOrder 6 with bnd := { (atOrder 6).bnd with ckptDue := true }, eff := { (atOrder 6).eff with elective := false } }
    holds .stepBoundary s (fun t => t.bnd.order == 7 && !t.bnd.ckptDue && t.job.ckptAsked && t.leaven.closed) = true
    ∧ holds .stepBoundary (atOrder 2) (fun t => t.bnd.order == 3 && t.job == (atOrder 2).job) = true
    ∧ holds .stepBoundary (atOrder 3) (fun t => t.bnd.order == 4 && t.job == (atOrder 3).job) = true := by decide +kernel

end Sys2Proof.Tests
end

section
/-! NaN in the number formats. A binary32 pattern that is no NaN reads as a datum already in the form that rounding keeps,
so writing it back gives the same fields; the binary32 operations answer NaN on a NaN, and NaN has one encoding (R45). -/

namespace Sys2Proof.Machine

/-! ## NaN in the exact operations -/

theorem FVal.isNan_iff_eq_nan (v : FVal) : v.isNan = true ↔ v = .nan := by
  cases v <;> simp [FVal.isNan]

@[simp] theorem FVal.nan_add (v : FVal) : FVal.add .nan v = .nan := rfl
@[simp] theorem FVal.add_nan (v : FVal) : v.add .nan = .nan := by cases v <;> rfl
@[simp] theorem FVal.nan_mul (v : FVal) : FVal.mul .nan v = .nan := rfl
@[simp] theorem FVal.mul_nan (v : FVal) : v.mul .nan = .nan := by cases v <;> rfl
@[simp] theorem FVal.nan_div (v : FVal) : FVal.div .nan v = .nan := rfl
@[simp] theorem FVal.div_nan (v : FVal) : v.div .nan = .nan := by cases v <;> rfl
@[simp] theorem FVal.neg_nan : FVal.neg .nan = .nan := rfl
@[simp] theorem FVal.sqrt_nan : FVal.sqrt .nan = .nan := rfl
@[simp] theorem FVal.rsqrt_nan : FVal.rsqrt .nan = .nan := rfl

@[simp] theorem toB32_nan : toB32 .nan = 0x7FC00000 := rfl

/-- NaN is written as the canonical NaN of each unscaled stored format that has one (R45, Table 02.11). -/
theorem convElem_nan :
    (convElem 1 .nan).1 = 0x7FC0 ∧ (convElem 2 .nan).1 = 0x7E00 ∧ (convElem 4 .nan).1 = 0x7E ∧ (convElem 3 .nan).1 = 0x7F :=
  ⟨rfl, rfl, rfl, rfl⟩

/-! ## Data that a rounding keeps -/

/-- The unit in the last place of a significand that is full, or that stands at the least subnormal's exponent, is its
own. -/
theorem lsbExp_eq_self {f : FFmt} {m : Nat} {e : Int} (hm0 : m ≠ 0) (hm : m < 2 ^ f.prec) (he : f.qmin ≤ e)
    (hn : e = f.qmin ∨ 2 ^ (f.prec - 1) ≤ m) : lsbExp f m e = e := by
  have hlt : Nat.log2 m < f.prec := (Nat.log2_lt hm0).2 hm
  unfold lsbExp
  rcases hn with hsub | hfull
  · omega
  · have hle : f.prec - 1 ≤ Nat.log2 m := (Nat.le_log2 hm0).2 hfull
    omega

theorem roundRne_eq_self {f : FFmt} {m : Nat} {e : Int} (hm : m < 2 ^ f.prec) (he : f.qmin ≤ e)
    (hn : e = f.qmin ∨ 2 ^ (f.prec - 1) ≤ m) : roundRne f m e = (m, e) := by
  by_cases hm0 : m = 0
  · have hpos := Nat.two_pow_pos (f.prec - 1)
    have heq : e = f.qmin := hn.resolve_right (by omega)
    simp [roundRne, hm0, heq]
  · simp [roundRne, hm0, lsbExp_eq_self hm0 hm he hn, scaleUp]

theorem magLe_of_le {m n : Nat} {e g : Int} (hm : m ≤ n) (he : e ≤ g) : magLe m e n g = true := by
  simp only [magLe, scaleUp, min_eq_left he, sub_self, Int.toNat_zero, pow_zero, mul_one, decide_eq_true_eq]
  exact hm.trans (Nat.le_mul_of_pos_right n (Nat.two_pow_pos _))

/-- A binary32 datum in normal form is written without rounding. -/
theorem toB32_fin {s : Bool} {m : Nat} {e : Int} (hm : m < 2 ^ 24) (he : -149 ≤ e) (hE : e ≤ 104)
    (hn : e = -149 ∨ 2 ^ 23 ≤ m) : toB32 (.fin s m e) = BitVec.ofNat 32 (encodeFin fmtB32 8 s m e) := by
  have hround : roundRne fmtB32 m e = (m, e) := roundRne_eq_self hm he hn
  have hfits : magLe m e fmtB32.maxM fmtB32.maxE = true := magLe_of_le (Nat.le_pred_of_lt hm) hE
  simp [toB32, FVal.round, hround, hfits, encodeIeee]

/-! ## The fields of a binary32 pattern -/

/-- Sign, exponent field and fraction put together. -/
def b32Fields (s : Bool) (e fr : Nat) : Nat := (if s then 2 ^ 31 else 0) + e * 2 ^ 23 + fr

theorem b32Fields_of_toNat (w : W32) :
    b32Fields (w.toNat.testBit 31) (w.toNat / 2 ^ 23 % 2 ^ 8) (w.toNat % 2 ^ 23) = w.toNat := by
  have hw := w.isLt
  simp only [b32Fields, Nat.testBit_eq_decide_div_mod_eq, decide_eq_true_eq]
  split <;> omega

theorem encodeFin_of_lt {f : FFmt} {ebits m : Nat} {s : Bool} {q : Int} (h : m < 2 ^ (f.prec - 1)) :
    encodeFin f ebits s m q = (if s then 2 ^ (ebits + (f.prec - 1)) else 0) + m := by
  have hcarry : ¬ m ≥ 2 ^ f.prec := by
    have hle : 2 ^ (f.prec - 1) ≤ 2 ^ f.prec := Nat.pow_le_pow_right (by decide) (Nat.sub_le _ _)
    omega
  simp only [encodeFin, if_neg hcarry, if_pos h]

theorem encodeFin_of_full {f : FFmt} {ebits m : Nat} {s : Bool} {q : Int} (hm : m < 2 ^ f.prec)
    (hfull : 2 ^ (f.prec - 1) ≤ m) :
    encodeFin f ebits s m q = (if s then 2 ^ (ebits + (f.prec - 1)) else 0) + (q - f.qmin + 1).toNat * 2 ^ (f.prec - 1)
      + (m - 2 ^ (f.prec - 1)) := by
  simp only [encodeFin, if_neg hm.not_ge, if_neg hfull.not_gt]

theorem encodeFin_subnormal {s : Bool} {fr : Nat} (h : fr < 2 ^ 23) :
    encodeFin fmtB32 8 s fr (-149) = b32Fields s 0 fr := by
  rw [encodeFin_of_lt (show fr < 2 ^ (fmtB32.prec - 1) from h)]
  simp [fmtB32, b32Fields]

theorem encodeFin_normal {s : Bool} {e fr : Nat} (h : fr < 2 ^ 23) (he : e ≠ 0) :
    encodeFin fmtB32 8 s (fr + 2 ^ 23) (-149 + (e - 1 : Nat)) = b32Fields s e fr := by
  have hexp : (-149 + ((e - 1 : Nat) : Int) - -149 + 1).toNat = e := by omega
  have hm : fr + 2 ^ 23 < 2 ^ fmtB32.prec := by simp only [fmtB32]; omega
  have hfull : 2 ^ (fmtB32.prec - 1) ≤ fr + 2 ^ 23 := Nat.le_add_left _ fr
  rw [encodeFin_of_full hm hfull]
  simp only [fmtB32, b32Fields, Nat.reduceSub, Nat.reduceAdd, hexp, Nat.add_sub_cancel]

theorem toB32_inf (s : Bool) : toB32 (.inf s) = BitVec.ofNat 32 (b32Fields s 255 0) := by
  cases s <;> rfl

/-- R43 on binary32, by its fields. -/
theorem ofB32_eq (w : W32) :
    ofB32 w =
      if w.toNat / 2 ^ 23 % 2 ^ 8 = 255 then
        (if w.toNat % 2 ^ 23 = 0 then .inf (w.toNat.testBit 31) else .nan)
      else if w.toNat / 2 ^ 23 % 2 ^ 8 = 0 then .fin (w.toNat.testBit 31) (w.toNat % 2 ^ 23) (-149)
      else .fin (w.toNat.testBit 31) (w.toNat % 2 ^ 23 + 2 ^ 23)
        (-149 + (w.toNat / 2 ^ 23 % 2 ^ 8 - 1 : Nat)) := rfl

theorem ofB32_isNan_iff (w : W32) :
    (ofB32 w).isNan = true ↔ w.toNat / 2 ^ 23 % 2 ^ 8 = 255 ∧ w.toNat % 2 ^ 23 ≠ 0 := by
  rw [ofB32_eq]
  split_ifs <;> simp_all [FVal.isNan]

/-- The NaNs are the patterns above infinity's once the sign is dropped. -/
theorem ofB32_isNan_iff_lt (w : W32) : 0x7F800000 < (w &&& 0x7FFFFFFF).toNat ↔ (ofB32 w).isNan = true := by
  have hmask : (w &&& 0x7FFFFFFF).toNat = w.toNat % 2 ^ 31 := by
    rw [BitVec.toNat_and]
    exact Nat.and_two_pow_sub_one_eq_mod w.toNat 31
  rw [ofB32_isNan_iff, hmask]
  omega

/-- Writing back what was read changes no pattern but a NaN's. -/
theorem toB32_ofB32_of_not_nan {w : W32} (h : ¬ (ofB32 w).isNan = true) : toB32 (ofB32 w) = w := by
  have hfr : w.toNat % 2 ^ 23 < 2 ^ 23 := Nat.mod_lt _ (by decide)
  have hfields := b32Fields_of_toNat w
  apply BitVec.eq_of_toNat_eq
  rw [ofB32_isNan_iff] at h
  rw [ofB32_eq]
  generalize w.toNat.testBit 31 = s at *
  split_ifs with hmax hfrac hzero
  · rw [toB32_inf, BitVec.toNat_ofNat, ← hmax, ← hfrac, hfields, Nat.mod_eq_of_lt w.isLt]
  · exact absurd ⟨hmax, hfrac⟩ h
  · rw [toB32_fin (by omega) (by omega) (by omega) (.inl rfl), encodeFin_subnormal hfr, BitVec.toNat_ofNat, ← hzero,
      hfields, Nat.mod_eq_of_lt w.isLt]
  · rw [toB32_fin (by omega) (by omega) (by omega) (.inr (by omega)), encodeFin_normal hfr hzero, BitVec.toNat_ofNat,
      hfields, Nat.mod_eq_of_lt w.isLt]

theorem toB32_ofB32 (w : W32) : toB32 (ofB32 w) = if (ofB32 w).isNan = true then 0x7FC00000 else w := by
  split_ifs with h
  · rw [(FVal.isNan_iff_eq_nan _).1 h, toB32_nan]
  · exact toB32_ofB32_of_not_nan h

/-! ## The binary32 operations on a NaN -/

section
variable {a : W32} (h : ofB32 a = .nan) (b c : W32)
include h

theorem fadd_nan : fadd a b = 0x7FC00000 ∧ fadd b a = 0x7FC00000 := by simp [fadd, h]
theorem fsub_nan : fsub a b = 0x7FC00000 ∧ fsub b a = 0x7FC00000 := by simp [fsub, h]
theorem fmul_nan : fmul a b = 0x7FC00000 ∧ fmul b a = 0x7FC00000 := by simp [fmul, h]
theorem fdiv_nan : fdiv a b = 0x7FC00000 ∧ fdiv b a = 0x7FC00000 := by simp [fdiv, h]
theorem ffma_nan : ffma a b c = 0x7FC00000 ∧ ffma b a c = 0x7FC00000 ∧ ffma b c a = 0x7FC00000 := by simp [ffma, h]
theorem fsqrt_nan : fsqrt a = 0x7FC00000 := by simp [fsqrt, h]
theorem frsqrt_nan : frsqrt a = 0x7FC00000 := by simp [frsqrt, h]
theorem frecip_nan : frecip a = 0x7FC00000 := by simp [frecip, h]
theorem fneg_nan : fneg a = 0x7FC00000 := by simp [fneg, h]
end

/-- Settles O9: each format's NaN is evaluated, reading and writing a pattern is the identity off the NaNs by its
fields, and each operation keeps NaN. -/
theorem naNsAreCanonical : Obligations.NaNsAreCanonical := by
  refine ⟨⟨toB32_nan, convElem_nan⟩, toB32_ofB32, ofB32_isNan_iff_lt, fun a b c ha => ?_⟩
  have h : ofB32 a = .nan := (FVal.isNan_iff_eq_nan _).1 ha
  obtain ⟨hadd, hadd'⟩ := fadd_nan h b
  obtain ⟨hsub, hsub'⟩ := fsub_nan h b
  obtain ⟨hmul, hmul'⟩ := fmul_nan h b
  obtain ⟨hdiv, hdiv'⟩ := fdiv_nan h b
  obtain ⟨hfma, hfma', hfma''⟩ := ffma_nan h b c
  exact ⟨hadd, hadd', hsub, hsub', hmul, hmul', hdiv, hdiv', hfma, hfma', hfma'', fsqrt_nan h, frsqrt_nan h, frecip_nan h,
    fneg_nan h⟩

end Sys2Proof.Machine
end

section
/-! Packets of the optical fabric. What accepting a packet writes, what routing one does with the next hop, and that a
packet queued at a port is still there or has been sent once the port is pumped (R290 to R295, R299, R302). -/

namespace Sys2Proof.Machine

/-! ## What has been sent stays sent -/

theorem freeRx_tx_subset (hold : Option Nat) (p : Packet) (s : State) : s.tx ⊆ (freeRx hold p s).tx := by
  unfold freeRx
  split
  · exact List.Subset.refl _
  · dsimp only
    split
    · exact List.Subset.refl _
    · exact List.subset_append_left _ _

theorem countDetour_tx (q d : Nat) (s : State) : (countDetour q d s).tx = s.tx := by
  unfold countDetour; split <;> rfl

theorem countDetour_port (q d : Nat) (s : State) (r : Nat) : (countDetour q d s).port r = s.port r := by
  unfold countDetour; split <;> rfl

/-! ## Starting the packets of a port -/

theorem eraseFirst_eq_erase {α : Type} [DecidableEq α] (a : α) (l : List α) : eraseFirst a l = l.erase a := by
  induction l with
  | nil => rfl
  | cons b r ih =>
    by_cases hab : a = b
    · simp [eraseFirst, hab]
    · simp [eraseFirst, hab, Ne.symm hab, ih]

/-- One turn of a port's pump: no packet may start, or one leaves the queue and its words are sent. -/
theorem pumpPort_succ (n fuel : Nat) (s : State) :
    pumpPort n (fuel + 1) s = s ∨ ∃ w k t, pumpPort n (fuel + 1) s = pumpPort n fuel t
      ∧ (t.port n).queue = (s.port n).queue.erase w ∧ s.tx ⊆ t.tx ∧ .words n (linkWords k w.p) ∈ t.tx := by
  rw [pumpPort]
  dsimp only
  split
  · exact .inl rfl
  · rename_i w y hfound
    obtain ⟨v, _, hv⟩ := List.exists_of_findSome?_eq_some hfound
    obtain ⟨y', hstart, hpair⟩ := Option.map_eq_some_iff.mp hv
    cases hpair
    obtain ⟨u, rfl⟩ := startable_fields hstart
    refine .inr ⟨w, _, _, rfl, ?_, ?_, List.mem_append_right _ (List.mem_singleton_self _)⟩
    · refine (congrArg Port.queue (freeRx_port w.hold w.orig _ n)).trans ?_
      rw [setPort_port_same]
      exact eraseFirst_eq_erase w _
    · apply List.subset_append_of_subset_left
      exact freeRx_tx_subset w.hold w.orig (setPort n _ s)

theorem pumpPort_tx_subset (n fuel : Nat) (s : State) : s.tx ⊆ (pumpPort n fuel s).tx := by
  induction fuel generalizing s with
  | zero => exact List.Subset.refl _
  | succ fuel ih =>
    obtain hstop | ⟨w, k, t, hturn, _, hsent, _⟩ := pumpPort_succ n fuel s
    · rw [hstop]
      exact List.Subset.refl _
    · rw [hturn]
      exact List.Subset.trans hsent (ih t)

/-- A packet that waits at a port still waits there, or its words have been sent. -/
theorem pumpPort_queued (n fuel : Nat) {s : State} {w : Waiting} (hw : w ∈ (s.port n).queue) :
    w ∈ ((pumpPort n fuel s).port n).queue ∨ ∃ k, .words n (linkWords k w.p) ∈ (pumpPort n fuel s).tx := by
  induction fuel generalizing s with
  | zero => exact .inl hw
  | succ fuel ih =>
    obtain hstop | ⟨v, k, t, hturn, hqueue, _, hwords⟩ := pumpPort_succ n fuel s
    · rw [hstop]
      exact .inl hw
    · rw [hturn]
      by_cases hv : w = v
      · exact .inr ⟨k, pumpPort_tx_subset n fuel t (hv ▸ hwords)⟩
      · exact ih (hqueue ▸ (List.mem_erase_of_ne hv).2 hw)

/-! ## The next hop -/

/-- The next hop depends on the fabric but for its ports, and of those on which are usable. -/
theorem nextHop_congr {s t : State} (hfab : t.fab = { s.fab with ports := t.fab.ports })
    (husable : ∀ q, (t.port q).usable = (s.port q).usable) (p : Packet) (dims : List Nat) (first : Bool)
    (fail : Option Nat) : t.nextHop p dims first fail = s.nextHop p dims first fail := by
  have hid : t.fabId = s.fabId := by unfold State.fabId; rw [hfab]
  have hsize : t.dimSize = s.dimSize := by funext d; unfold State.dimSize; rw [hfab]
  have hplace : t.placeOf = s.placeOf := by funext q; unfold State.placeOf; rw [hfab]
  have hport : t.portAt = s.portAt := by funext d e; unfold State.portAt; rw [hplace]
  have htrunk : t.trunkPort = s.trunkPort := by
    funext d n k h
    have hdelta : t.deltaUp d = s.deltaUp d := by funext e; simp only [State.deltaUp, hport, husable]
    rw [State.trunkPort, State.trunkPort, hdelta]
  have hlink : t.linkUp = s.linkUp := by funext dev d n k; unfold State.linkUp; rw [hfab]
  induction dims generalizing first fail with
  | nil => rfl
  | cons d rest ih => simp only [State.nextHop, hid, hsize, hport, htrunk, hlink, ih]

/-! ## Routing -/

/-- The lane a packet leaves on: VL0 stays, what detours or has detoured goes on VL3 (R295, R299). -/
def laneOut (p : Packet) (detour : Bool) : Nat := if p.vl = 0 then 0 else if detour || p.vl = 3 then 3 else p.vl

/-- The hop class a packet leaves with (Table 12.4). -/
def classOut (p : Packet) (detour : Bool) : Nat :=
  if laneOut p detour = 0 then p.hops else if laneOut p detour = 3 then (if p.vl = 3 then p.escClass + 1 else 0) else 0

/-- A packet as it leaves for its next hop. -/
def packetOut (p : Packet) (detour : Bool) : Packet :=
  { p with vl := laneOut p detour, escClass := classOut p detour, hops := p.hops + 1 }

/-- A packet put last in the queue of its next hop's port, its detour counted. -/
def queueOut (q : Nat) (detour : Bool) (hold : Option Nat) (p : Packet) (s : State) : State :=
  let s := if detour then countDetour q p.dst s else s
  setPort q { s.port q with queue := (s.port q).queue ++ [⟨p, packetOut p detour, hold⟩] } s

theorem routePacket_of_drop {s : State} {p : Packet} {q : Nat} (hold : Option Nat)
    (h : s.nextHop p [0, 1, 2] true none = .drop q) :
    routePacket hold p s = bump (0x3100 + q) 0x0D 1 32 (freeRx hold p s) := by
  rw [routePacket, h]

theorem routePacket_of_go {s : State} {p : Packet} {q : Nat} {detour : Bool} (hold : Option Nat)
    (h : s.nextHop p [0, 1, 2] true none = .go q detour) :
    routePacket hold p s
      = if 5 < classOut p detour || 8 ≤ p.hops then bump (0x3100 + q) 0x0D 1 32 (freeRx hold p s)
        else pumpAll q (queueOut q detour hold p s) := by
  rw [routePacket, h]; rfl

theorem packetOut_vl (p : Packet) (detour : Bool) :
    (packetOut p detour).vl = if p.vl = 0 then 0 else if detour = true ∨ p.vl = 3 then 3 else p.vl := by
  simp [packetOut, laneOut]

theorem classOut_of_vl3 {p : Packet} (h : p.vl = 3) (detour : Bool) : classOut p detour = p.escClass + 1 := by
  simp [classOut, laneOut, h]

theorem classOut_of_vl0 {p : Packet} (h : p.vl = 0) (detour : Bool) : classOut p detour = p.hops := by
  simp [classOut, laneOut, h]

theorem classOut_of_other {p : Packet} (h0 : p.vl ≠ 0) (h3 : p.vl ≠ 3) (detour : Bool) : classOut p detour = 0 := by
  cases detour <;> simp [classOut, laneOut, h0, h3]

theorem classOut_le_five {p : Packet} (detour : Bool) (h0 : p.vl = 0 → p.hops ≤ 5) (h3 : p.vl = 3 → p.escClass < 5) :
    classOut p detour ≤ 5 := by
  by_cases hv0 : p.vl = 0
  · rw [classOut_of_vl0 hv0]; exact h0 hv0
  by_cases hv3 : p.vl = 3
  · rw [classOut_of_vl3 hv3]; exact h3 hv3
  · rw [classOut_of_other hv0 hv3]; exact Nat.zero_le 5

theorem packetOut_vl_eq_zero {p : Packet} {detour : Bool} (h : (packetOut p detour).vl = 0) : p.vl = 0 := by
  rw [packetOut_vl] at h
  split_ifs at h <;> assumption

theorem queueOut_only (q : Nat) (detour : Bool) (hold : Option Nat) (p : Packet) (s : State) :
    FabricOnly s (queueOut q detour hold p s) := by
  cases detour
  · exact fabricOnly_setPort q _ s
  · exact (countDetour_only q p.dst s).trans (fabricOnly_setPort q _ _)

theorem queueOut_tx (q : Nat) (detour : Bool) (hold : Option Nat) (p : Packet) (s : State) :
    (queueOut q detour hold p s).tx = s.tx := by
  cases detour
  · rfl
  · exact countDetour_tx q p.dst s

theorem queueOut_port_other {q r : Nat} (hr : r ≠ q) (detour : Bool) (hold : Option Nat) (p : Packet) (s : State) :
    (queueOut q detour hold p s).port r = s.port r := by
  cases detour
  · exact (setPort_port ..).trans (if_neg hr.symm)
  · exact ((setPort_port ..).trans (if_neg hr.symm)).trans (countDetour_port q p.dst s r)

theorem queueOut_queued (q : Nat) (detour : Bool) (hold : Option Nat) (p : Packet) (s : State) :
    ⟨p, packetOut p detour, hold⟩ ∈ ((queueOut q detour hold p s).port q).queue := by
  simp [queueOut]

/-! ## Accepting a packet of a link -/

/-- An accepted packet stands in the receive buffer of its port and is acknowledged (R290, R294). -/
def takeIn (l : LinkIn) (k : Packet) (s : State) : State :=
  let x := s.port l.port
  let c := creditClass s k
  send (.linkAck l.port ((l.seqNo + flits k + 4095) % 4096))
    (setPort l.port { x with
      nextIn := (l.seqNo + flits k) % 4096, held := tset x.held c (tget 0 x.held c + flits k) }
      (bump (0x3100 + l.port) 8 l.fixed 64 s))

theorem takeIn_only (l : LinkIn) (k : Packet) (s : State) : FabricOnly s (takeIn l k s) :=
  ((fabricOnly_bump _ 8 _ _ s (by decide)).trans (fabricOnly_setPort _ _ _)).trans (fabricOnly_send _ _)

@[simp] theorem takeIn_tx (l : LinkIn) (k : Packet) (s : State) :
    (takeIn l k s).tx = s.tx ++ [.linkAck l.port ((l.seqNo + flits k + 4095) % 4096)] := rfl

theorem takeIn_fab (l : LinkIn) (k : Packet) (s : State) :
    (takeIn l k s).fab = { s.fab with ports := (takeIn l k s).fab.ports } := rfl

theorem takeIn_port_same (l : LinkIn) (k : Packet) (s : State) :
    (takeIn l k s).port l.port = { s.port l.port with
      nextIn := (l.seqNo + flits k) % 4096
      held := tset (s.port l.port).held (creditClass s k) (tget 0 (s.port l.port).held (creditClass s k) + flits k) } :=
  setPort_port_same l.port _ _

theorem takeIn_port_other {l : LinkIn} {r : Nat} (hr : r ≠ l.port) (k : Packet) (s : State) :
    (takeIn l k s).port r = s.port r :=
  (setPort_port l.port r _ _).trans (if_neg hr.symm)

/-- Accepting a packet leaves of every port all but the number expected next and its receive buffers. -/
theorem takeIn_port (l : LinkIn) (k : Packet) (s : State) (r : Nat) :
    ∃ n hd, (takeIn l k s).port r = { s.port r with nextIn := n, held := hd } := by
  by_cases hr : r = l.port
  · subst hr; exact ⟨_, _, takeIn_port_same l k s⟩
  · exact ⟨_, _, takeIn_port_other hr k s⟩

theorem nextHop_takeIn (l : LinkIn) (k : Packet) (s : State) :
    (takeIn l k s).nextHop k [0, 1, 2] true none = s.nextHop k [0, 1, 2] true none := by
  refine nextHop_congr (takeIn_fab l k s) (fun q => ?_) k [0, 1, 2] true none
  obtain ⟨n, hd, hport⟩ := takeIn_port l k s q
  rw [hport]; rfl

/-- An accepted packet has left its receive buffer again, and its credit has gone back (R294). -/
def takeOut (l : LinkIn) (k : Packet) (s : State) : State := freeRx (some l.port) k (takeIn l k s)

/-- The buffer an accepted packet came into is not empty, so leaving it sends credit back. -/
theorem takeOut_tx (l : LinkIn) (k : Packet) (s : State) :
    (takeOut l k s).tx = s.tx ++
      [.linkAck l.port ((l.seqNo + flits k + 4095) % 4096), .linkCredit l.port k.vl (classTag s k) (flits k)] := by
  have hheld : tget 0 ((takeIn l k s).port l.port).held (creditClass (takeIn l k s) k) ≠ 0 := by
    rw [takeIn_port_same, show creditClass (takeIn l k s) k = creditClass s k from rfl, tget_tset_same]
    unfold flits; omega
  simp only [takeOut, freeRx, if_neg hheld, send_tx, setPort_tx, takeIn_tx, List.append_assoc]
  rfl

theorem takeOut_counters (l : LinkIn) (k : Packet) (s : State) (j : Nat) :
    tget 0 (takeOut l k s).counters j
      = if ck (0x3100 + l.port) 8 = j then satAdd 64 (s.counter (0x3100 + l.port) 8) l.fixed else tget 0 s.counters j := by
  rw [takeOut, (freeRx_only l.port (some l.port) k (takeIn l k s)).2]
  exact bump_tget ..

theorem takeOut_fab (l : LinkIn) (k : Packet) (s : State) :
    (takeOut l k s).fab = { s.fab with ports := (takeOut l k s).fab.ports } := by
  rw [takeOut, (freeRx_only l.port (some l.port) k (takeIn l k s)).2]
  rfl

theorem takeOut_only (l : LinkIn) (k : Packet) (s : State) : FabricOnly s (takeOut l k s) :=
  (takeIn_only l k s).trans (freeRx_fabric ..)

theorem takeOut_port (l : LinkIn) (k : Packet) (s : State) (r : Nat) :
    (takeOut l k s).port r = { (takeIn l k s).port r with held := ((takeOut l k s).port r).held } :=
  freeRx_port (some l.port) k (takeIn l k s) r

theorem takeOut_queue (l : LinkIn) (k : Packet) (s : State) (r : Nat) :
    ((takeOut l k s).port r).queue = (s.port r).queue := by
  obtain ⟨n, hd, hport⟩ := takeIn_port l k s r
  rw [takeOut_port, hport]

theorem takeOut_unacked (l : LinkIn) (k : Packet) (s : State) (r : Nat) :
    ((takeOut l k s).port r).unacked = (s.port r).unacked := by
  obtain ⟨n, hd, hport⟩ := takeIn_port l k s r
  rw [takeOut_port, hport]

theorem takeOut_nextIn (l : LinkIn) (k : Packet) (s : State) :
    ((takeOut l k s).port l.port).nextIn = (l.seqNo + flits k) % 4096 := by
  rw [takeOut_port, takeIn_port_same]

/-! ## What an accepted packet comes to -/

theorem exec_packetForward (l : Option LinkIn) (k : Packet) (s : State) :
    exec (.packetForward l k) s = .next (forwardState l k s) := rfl

/-- An accepted packet is handed to its unit, let go by a device without coordinates, or routed on. -/
theorem exec_packetForward_of_accepted {l : LinkIn} {k : Packet} {s : State} (h : Claims.Accepted l k s) :
    exec (.packetForward (some l) k) s = .next
      (if k.dst = s.fabId then deliver k (takeOut l k s)
        else if s.fabId = 0xFFFF then takeOut l k s
        else routePacket (some l.port) k (takeIn l k s)) := by
  obtain ⟨hup, hawake, husable, hgood, hgap, hcrc⟩ := h
  have hcarries : ((s.port l.port).usable || (s.port l.port).state == 5 && k.vl == 0) = true := by simp [husable]
  have hwhole : ((l.seqNo + 4096 - (s.port l.port).nextIn) % 4096 != 0 || k.pcrc != crc32c k.payload) = false := by
    simp [hgap, hcrc]
  rw [exec_packetForward]
  congr 1
  calc forwardState (some l) k s
      _ = receiveState l k s := by rw [forwardState, hup]; exact if_pos hcarries
      _ = if k.dst = s.fabId then deliver k (takeOut l k s)
          else if s.fabId = 0xFFFF || s.dev.st = .sleep then takeOut l k s
          else routePacket (some l.port) k (takeIn l k s) :=
        (if_neg (by simp [hgood])).trans ((if_neg (by omega)).trans (if_neg (ne_true_of_eq_false hwhole)))
      _ = _ := by simp [hawake]

section
variable {l : LinkIn} {p : Nat} {detour : Bool} {k : Packet} {s : State}
  (hacc : Claims.Accepted l k s) (hid : s.fabId ≠ 0xFFFF) (hdst : k.dst ≠ s.fabId)
include hacc hid hdst

theorem exec_packetForward_of_foreign :
    exec (.packetForward (some l) k) s = .next (routePacket (some l.port) k (takeIn l k s)) := by
  rw [exec_packetForward_of_accepted hacc, if_neg hdst, if_neg hid]

theorem exec_packetForward_of_go (hhop : s.nextHop k [0, 1, 2] true none = .go p detour) (hhops : k.hops < 8)
    (hclass : classOut k detour ≤ 5) :
    exec (.packetForward (some l) k) s
      = .next (pumpAll p (queueOut p detour (some l.port) k (takeIn l k s))) := by
  have hfits : ¬ (5 < classOut k detour || 8 ≤ k.hops) = true := by simp; omega
  rw [exec_packetForward_of_foreign hacc hid hdst, routePacket_of_go _ ((nextHop_takeIn l k s).trans hhop), if_neg hfits]

theorem exec_packetForward_of_drop
    (hdrop : s.nextHop k [0, 1, 2] true none = .drop p ∨ ((∃ d, s.nextHop k [0, 1, 2] true none = .go p d)
      ∧ (8 ≤ k.hops ∨ (k.vl = 3 ∧ 5 ≤ k.escClass)))) :
    exec (.packetForward (some l) k) s = .next (bump (0x3100 + p) 0x0D 1 32 (takeOut l k s)) := by
  rw [exec_packetForward_of_foreign hacc hid hdst, takeOut]
  obtain hnone | ⟨⟨d, hgo⟩, hlimit⟩ := hdrop
  · rw [routePacket_of_drop _ ((nextHop_takeIn l k s).trans hnone)]
  · have hover : (5 < classOut k d || 8 ≤ k.hops) = true := by
      obtain hhops | ⟨hvl, hesc⟩ := hlimit
      · simp [hhops]
      · simp [classOut_of_vl3 hvl]; omega
    rw [routePacket_of_go _ ((nextHop_takeIn l k s).trans hgo), if_pos hover]
end

/-! ## The claims about packets and the link-state map -/

/-- An announcement replaces one link of the link-state map (R301). -/
theorem announcementSetsLink : Claims.AnnouncementSetsLink := by
  intro dev port up s hup
  have hexec : exec (.linkStateAnnouncement dev port up) s = .next { s with fab := { s.fab with
      down := if up then s.fab.down.filter (· != (dev, port)) else (dev, port) :: s.fab.down.filter (· != (dev, port)) } } :=
    congrArg Host.Outcome.next (if_pos hup)
  refine ⟨_, hexec, ?_, fun x hx => ?_, rfl⟩
  · cases up <;> simp
  · cases up <;> simp [hx]

theorem forwardingTakesNextHop : Claims.ForwardingTakesNextHop := by
  intro l p detour k s hacc hid hdst hhop hhops h0 h3
  have hclass := classOut_le_five detour h0 h3
  have hframe : FabricOnly s (queueOut p detour (some l.port) k (takeIn l k s)) :=
    (takeIn_only l k s).trans (queueOut_only ..)
  have hack : .linkAck l.port ((l.seqNo + flits k + 4095) % 4096)
      ∈ (queueOut p detour (some l.port) k (takeIn l k s)).tx := by simp [queueOut_tx]
  have hother : ∀ r, r ≠ p → r ≠ l.port →
      (queueOut p detour (some l.port) k (takeIn l k s)).port r = s.port r :=
    fun r hp hl => (queueOut_port_other hp ..).trans (takeIn_port_other hl k s)
  refine ⟨_, packetOut k detour, exec_packetForward_of_go hacc hid hdst hhop hhops hclass,
    hframe.trans (pumpAll_only p _).fabric, ?_, pumpPort_tx_subset p _ _ hack, rfl, rfl, rfl, rfl, rfl, rfl,
    packetOut_vl k detour, fun hvl => classOut_of_vl0 (packetOut_vl_eq_zero hvl) detour,
    fun hvl => classOut_of_vl3 hvl detour, fun r hp hl => ?_⟩
  · exact (pumpPort_queued p _ (queueOut_queued ..)).imp_left fun hw => ⟨_, hw, rfl⟩
  · rw [(pumpAll_only p _).1 r hp, hother r hp hl]

theorem unroutablePacketsAreDropped : Claims.UnroutablePacketsAreDropped := by
  intro l p k s hacc hid hdst hdrop
  have hkey : ck (0x3100 + l.port) 8 ≠ ck (0x3100 + p) 0x0D := by unfold ck; omega
  refine ⟨_, exec_packetForward_of_drop hacc hid hdst hdrop, takeOut_tx l k s,
    (takeOut_only l k s).trans (fabricOnly_bump p 0x0D _ _ _ (by decide)), ?_, ?_,
    fun r => ⟨takeOut_queue l k s r, takeOut_unacked l k s r⟩, ?_, fun j hdropped hfixed => ?_⟩
  · rw [bump_fab, takeOut_fab]
  · rw [bump_fab, takeOut_fab]
  · rw [bump_counter_same, State.counter, takeOut_counters, if_neg hkey, State.counter]
  · rw [bump_tget, if_neg hdropped.symm, takeOut_counters, if_neg hfixed.symm]

theorem ownPacketsAreDelivered : Claims.OwnPacketsAreDelivered := by
  intro l k s hacc hdst hkind
  have hexec : exec (.packetForward (some l) k) s = .next { takeOut l k s with
      fab := { (takeOut l k s).fab with delivered := (takeOut l k s).fab.delivered ++ [k] } } := by
    rw [exec_packetForward_of_accepted hacc, if_pos hdst]
    simp [deliver, hkind]
  refine ⟨_, hexec, ?_, (takeOut_only l k s).trans ⟨rfl, fun _ _ => rfl⟩, takeOut_tx l k s, takeOut_nextIn l k s⟩
  rw [takeOut_fab]

/-- Settles O18: a packet accepted from a link is taken in, and then handed to its unit, queued at the port of its next hop
and pumped, or let go and counted. -/
theorem packetsAreForwardedOrDropped : Obligations.PacketsAreForwardedOrDropped :=
  ⟨announcementSetsLink, forwardingTakesNextHop, unroutablePacketsAreDropped, ownPacketsAreDelivered⟩

end Sys2Proof.Machine
end

section
/-! Logs and result slots. What the entries of the log and of a result slot take, and what CLEAR_LOG_RING,
CLEAR_FAULT_LOG and CONSUME answer and leave (R354, R358, R382). -/

namespace Sys2Proof.Machine

/-! ## The checks of a write-only entry -/

/-- A controller may write a write-only entry in every state (R354). -/
theorem writeClass_of_wo {s : State} {x : Session} {idx sub : Nat} {e : Entry} (he : entryOf idx sub = some e)
    (hacc : e.acc = .wo) (hx : x.right = 1) (hidx : idx ≠ 0x1100) : writeClass s x idx sub = OK := by
  simp [writeClass, he, hacc, hx, hidx]

@[simp] theorem length_leBytes (k n : Nat) : (leBytes k n).length = k := by
  induction k generalizing n with
  | zero => rfl
  | succ k ih => simp [leBytes, ih]

theorem entryOf_logClear : entryOf 0xA000 7 = some (woE tU8) := rfl

theorem entryOf_slotConsume {k : Nat} (hk : k < 64) : entryOf (0x5400 + k) 4 = some (woE tU64) := by
  have hslot : 0x5400 ≤ 0x5400 + k ∧ 0x5400 + k < 0x5440 := by omega
  unfold entryOf
  rw [if_neg (by omega), if_neg (by omega), if_pos hslot]
  rfl

theorem valueOk_slotConsume {k : Nat} (hk : k < 64) (q : Nat) : valueOk (0x5400 + k) 4 tU64 (leBytes 8 q) = true := by
  have hty : entryTy (0x5400 + k) 4 = tU64 := by simp [entryTy, entryOf_slotConsume hk, woE]
  have hform : formOk tU64 (leBytes 8 q) = true := by simp [formOk, tySize, tU64]
  have hrange : rangeOk (0x5400 + k) 4 (leBytes 8 q) = true := by
    unfold rangeOk
    repeat rw [if_neg (by omega)]
  simp [valueOk, hty, hform, hrange]

theorem ownRule_slotConsume {k : Nat} (hk : k < 64) (s : State) (val : Bytes) : ownRule s (0x5400 + k) 4 val = OK := by
  unfold ownRule
  repeat rw [if_neg (by omega)]

/-! ## The effect on a slot -/

section
variable {k q : Nat} {s : State}

theorem consumeSlot_of_empty (h : (s.slot k).state = 0) : consumeSlot k q s = (NOT_READY, s) := by
  simp [consumeSlot, h]

theorem consumeSlot_of_other (h : (s.slot k).state ≠ 0) (hq : (s.slot k).seq ≠ q) : consumeSlot k q s = (BUSY, s) := by
  simp [consumeSlot, h, hq.symm]

theorem consumeSlot_of_same (h : (s.slot k).state ≠ 0) (hq : (s.slot k).seq = q) :
    consumeSlot k q s = (OK, { s with results := tset s.results k { s.slot k with state := 2 } }) := by
  simp [consumeSlot, h, hq]

end

/-! ## What the commands answer and leave -/

/-- A request's bookkeeping leaves the result slots. -/
theorem Leaves.results {h : EdpHdr} {u t : State} (hl : Leaves h u t) : t.results = u.results := by
  obtain ⟨⟨hbody, _⟩, _⟩ := hl
  have hres := congrArg State.results hbody
  exact hres

/-- A write of the clearing entry passes its checks: it empties the log its value names. -/
theorem writeCommand_clearLog {h : EdpHdr} {x : Session} {s : State} {val : Bytes} (v : Nat)
    (w : SendsWrite h 0xA000 7 tU8 val x s) (hval : valueOk 0xA000 7 tU8 val = true) :
    Acked h (statusAck OK 0xA000 7 tU8) (writeCommand h 0xA000 7 tU8 val (fun _ s => (OK, clearLog v s, [])) s)
      ∧ Leaves h (clearLog v s) (writeCommand h 0xA000 7 tU8 val (fun _ s => (OK, clearLog v s, [])) s) := by
  obtain ⟨hack, hleaves⟩ := writeCommand_post w (fun _ s => (OK, clearLog v s, []))
    (writeClass_of_wo entryOf_logClear rfl w.right (by decide)) hval rfl
  have hbody : (clearLog v (atRequest h x s)).body = (clearLog v s).body := by
    unfold clearLog
    split <;> rfl
  exact ⟨hack, (Leaves.of_eq hbody).trans hleaves⟩

section
variable {h : EdpHdr} {x : Session} {s : State} {k q : Nat} (hk : k < 64)
  (w : SendsWrite h (0x5400 + k) 4 tU64 (leBytes 8 q) x s)
include hk w

/-- A CONSUME passes the checks of its entry: it answers and leaves what `consumeSlot` gives. -/
theorem exec_consume {code : Nat} {u : State} (he : consumeSlot k q (atRequest h x s) = (code, u)) :
    ∃ t, exec (.consume h k q) s = .next t ∧ Acked h (statusAck code (0x5400 + k) 4 tU64) t ∧ Leaves h u t := by
  have hpost := writeCommand_post w (fun _ s => noClose (consumeSlot k q s))
    (writeClass_of_wo (entryOf_slotConsume hk) rfl w.right (by omega)) (valueOk_slotConsume hk q)
    (ownRule_slotConsume hk s _)
  simp only [noClose, he] at hpost
  exact ⟨_, rfl, hpost⟩

theorem exec_consume_of_same (hst : (s.slot k).state ≠ 0) (hq : (s.slot k).seq = q) :
    ∃ t, exec (.consume h k q) s = .next t ∧ Acked h (statusAck OK (0x5400 + k) 4 tU64) t
      ∧ t.slot k = { s.slot k with state := 2 } ∧ (∀ j, j ≠ k → t.slot j = s.slot j)
      ∧ Leaves h { s with results := t.results } t := by
  obtain ⟨t, hexec, hack, hleaves⟩ := exec_consume hk w (consumeSlot_of_same (s := atRequest h x s) hst hq)
  have hres : t.results = tset s.results k { s.slot k with state := 2 } := hleaves.results
  refine ⟨t, hexec, hack, ?_, fun j hj => ?_, ?_⟩
  · rw [State.slot, hres, tget_tset_same]
  · rw [State.slot, hres, tget_tset_other _ _ _ hj.symm]; rfl
  · rw [hres]; exact (Leaves.of_eq rfl).trans hleaves

theorem exec_consume_of_other (hst : (s.slot k).state ≠ 0) (hq : (s.slot k).seq ≠ q) :
    ∃ t, exec (.consume h k q) s = .next t ∧ Acked h (statusAck BUSY (0x5400 + k) 4 tU64) t ∧ Leaves h s t := by
  obtain ⟨t, hexec, hack, hleaves⟩ := exec_consume hk w (consumeSlot_of_other (s := atRequest h x s) hst hq)
  exact ⟨t, hexec, hack, (Leaves.of_eq (atRequest_body h x s)).trans hleaves⟩

theorem exec_consume_of_empty (hst : (s.slot k).state = 0) :
    ∃ t, exec (.consume h k q) s = .next t ∧ Acked h (statusAck NOT_READY (0x5400 + k) 4 tU64) t ∧ Leaves h s t := by
  obtain ⟨t, hexec, hack, hleaves⟩ := exec_consume hk w (consumeSlot_of_empty (s := atRequest h x s) hst)
  exact ⟨t, hexec, hack, (Leaves.of_eq (atRequest_body h x s)).trans hleaves⟩

end

/-- Settles O31: each command passes the checks of its entry and leaves its effect; CONSUME's cases are those of
`consumeSlot`. -/
theorem resultsAreConsumedByNumber : Obligations.ResultsAreConsumedByNumber := by
  intro h x s
  exact ⟨fun w => ⟨_, rfl, writeCommand_clearLog 1 w rfl⟩, fun w => ⟨_, rfl, writeCommand_clearLog 2 w rfl⟩,
    fun k q hk _ w => ⟨exec_consume_of_same hk w, exec_consume_of_other hk w, exec_consume_of_empty hk w⟩⟩

end Sys2Proof.Machine
end

section
/-! The machine as a whole. What every command keeps: the queue, the rules of ownership, the local count and the canonical form of
the byte memories; and what a microsecond without a command does (R8, R296, R297, R419, R424, R426). -/

namespace Sys2Proof.Machine

/-! ## What every command keeps -/

/-- What a command may do to the queue, to the security state and to the local count: statements and proofing obey the ownership
rules, the two events that start the boot chain start the local count again, every other command keeps all of it. -/
def CommandLaw (c : Instr) (s t : State) : Prop :=
  match c with
  | .enrolOwner _ _ | .enrolClient _ _ | .release _ _ | .lock _ _ | .revoke _ _ | .proofing _ => Grows s t
  | .resetNRelease | .stbyGood _ _ _ => t.pending = s.pending ∧ t.sec = s.sec ∧ s.log.seq ≤ t.log.seq
  | _ => Keeps s t

theorem exec_commandLaw (c : Instr) {s t : State} (he : exec c s = .next t) : CommandLaw c s t := by
  cases c with
  | load h => exact execLoad_keeps _ s he
  | start h inst => exact execStart_keeps _ _ s he
  | pause h => exact execPause_keeps _ s he
  | resume h => exact execResume_keeps _ s he
  | stop h => exact execStop_keeps _ s he
  | abortStep h => exact execAbortStep_keeps _ s he
  | checkpointNow h => exact execCheckpointNow_keeps _ s he
  | sleep h => exact execSleep_keeps _ s he
  | wake h => exact execWake_keeps _ s he
  | wakePacket src => exact execWakePacket_keeps _ s he
  | standby h => exact execStandby_keeps _ s he
  | proof h => exact execProof_keeps _ s he
  | proofing p => exact execProofing_grows _ s he
  | selfTestQueued h target => exact execSelfTestQueued_keeps _ _ s he
  | selfTestImmediate h target => exact execSelfTestImmediate_keeps _ _ s he
  | bistSlice r => exact execBistSlice_keeps _ s he
  | reconfigure h => exact execReconfigure_keeps _ s he
  | portTrainTimeout port => exact execPortTrainTimeout_keeps _ s he
  | clearLogRing h => exact execClearLogRing_keeps _ s he
  | clearFaultLog h => exact execClearFaultLog_keeps _ s he
  | consume h slot seqNo => exact execConsume_keeps _ _ _ s he
  | closeSession h sid => exact execCloseSession_keeps _ _ s he
  | clientHello h hello => exact execClientHello_keeps _ _ s he
  | enrolOwner h st => exact execEnrolOwner_grows _ _ s he
  | enrolClient h st => exact execEnrolClient_grows _ _ s he
  | release h st => exact execRelease_grows _ _ s he
  | lock h st => exact execLock_grows _ _ s he
  | revoke h st => exact execRevoke_grows _ _ s he
  | attestationNonce h nonce => exact execAttestationNonce_keeps _ _ s he
  | recipeStaging h off total final data content => exact execRecipeStaging_keeps _ _ _ _ _ _ s he
  | laneMaskWrite h port mask => exact execLaneMaskWrite_keeps _ _ _ s he
  | coordinateWrite h sub value => exact execCoordinateWrite_keeps _ _ _ s he
  | spareSubstitution h port value => exact execSpareSubstitution_keeps _ _ _ s he
  | writeEntry h idx sub ty val => exact execWriteEntry_keeps _ _ _ _ _ s he
  | read h idx sub => exact execRead_keeps _ _ _ s he
  | readBlock h idx sub off len => exact execReadBlock_keeps _ _ _ _ _ s he
  | writeBlock h idx sub ty off total final data => exact execWriteBlock_keeps _ _ _ _ _ _ _ _ s he
  | subscribe h kinds classes => exact execSubscribe_keeps _ _ _ s he
  | eventAck h ackSeq => exact execEventAck_keeps _ _ s he
  | eventResendTimer sub evSeq => exact execEventResendTimer_keeps _ _ s he
  | relayRequest h body => exact execRelayRequest_keeps _ _ s he
  | relayPacket dev h body => exact execRelayPacket_keeps _ _ _ s he
  | relayRecordExpiry target session seq => exact execRelayRecordExpiry_keeps _ _ _ s he
  | sessionIdleTimeout sid => exact execSessionIdleTimeout_keeps _ s he
  | helloTagTimeout sid => exact execHelloTagTimeout_keeps _ s he
  | writeBlockHoldTimeout idx sub => exact execWriteBlockHoldTimeout_keeps _ _ s he
  | matrixOperation core => exact execMatrixOperation_keeps _ s he
  | matrixOperationComplete core => exact execMatrixOperationComplete_keeps _ s he
  | splitKCombine core level => exact execSplitKCombine_keeps _ _ s he
  | vectorInstruction core => exact execVectorInstruction_keeps _ s he
  | rowOperation core => exact execRowOperation_keeps _ s he
  | groupBarrier core => exact execGroupBarrier_keeps _ s he
  | sidelineTransfer core => exact execSidelineTransfer_keeps _ s he
  | streamAdmission core => exact execStreamAdmission_keeps _ s he
  | dataTileFetch core ctx corr => exact execDataTileFetch_keeps _ _ _ s he
  | streamCreditReport core ctx r => exact execStreamCreditReport_keeps _ _ _ s he
  | streamRetire core ctx => exact execStreamRetire_keeps _ _ s he
  | streamStall core ctx => exact execStreamStall_keeps _ _ s he
  | pantryPrefetch core ctx => exact execPantryPrefetch_keeps _ _ s he
  | translationMiss core ctx va write => exact execTranslationMiss_keeps _ _ _ _ s he
  | itemDrainComplete group => exact execItemDrainComplete_keeps _ s he
  | translationMapped group va => exact execTranslationMapped_keeps _ _ s he
  | workItemReplay group => exact execWorkItemReplay_keeps _ s he
  | replayBoundExpiry group => exact execReplayBoundExpiry_keeps _ s he
  | sramUncorrectable kind unit r => exact execSramUncorrectable_keeps _ _ _ s he
  | gddr7Uncorrectable channel pa va reader err => exact execGddr7Uncorrectable_keeps _ _ _ _ _ s he
  | patrolScrub block r => exact execPatrolScrub_keeps _ _ s he
  | coreFenced phys => exact execCoreFenced_keeps _ s he
  | interleaveSlotStart group => exact execInterleaveSlotStart_keeps _ s he
  | workItemComplete group => exact execWorkItemComplete_keeps _ s he
  | electiveAdmission point => exact execElectiveAdmission_keeps _ s he
  | ingestPacking => exact execIngestPacking_keeps s he
  | nvmeReadComplete cid status data => exact execNvmeReadComplete_keeps _ _ _ s he
  | nvmeReadTimeout cid status => exact execNvmeReadTimeout_keeps _ _ s he
  | nvmeKeepAlive tgt => exact execNvmeKeepAlive_keeps _ s he
  | ingestBoundExpiry late => exact execIngestBoundExpiry_keeps _ s he
  | splitNotice src step samples => exact execSplitNotice_keeps _ _ _ s he
  | hostPortLinkLoss port => exact execHostPortLinkLoss_keeps _ s he
  | congestionNotification conn => exact execCongestionNotification_keeps _ s he
  | collectiveStart coll mb => exact execCollectiveStart_keeps _ _ s he
  | collectivePacket p => exact execCollectivePacket_keeps _ s he
  | collectiveComplete coll => exact execCollectiveComplete_keeps _ s he
  | rootDelivery src weight side block slot due source head tiles => exact execRootDelivery_keeps _ _ _ _ _ _ _ _ _ s he
  | commitPhaseOne => exact execCommitPhaseOne_keeps s he
  | prepare m => exact execPrepare_keeps _ s he
  | commit m => exact execCommit_keeps _ s he
  | abort m => exact execAbort_keeps _ s he
  | abortReq m => exact execAbortReq_keeps _ s he
  | query m => exact execQuery_keeps _ s he
  | decision m => exact execDecision_keeps _ s he
  | halt m => exact execHalt_keeps _ s he
  | higherAttempt m isAbort data => exact execHigherAttempt_keeps _ _ _ s he
  | partnerSilent wait partner item detail => exact execPartnerSilent_keeps _ _ _ _ s he
  | commitOutcomeSilence => exact execCommitOutcomeSilence_keeps s he
  | digestExchange sender digest => exact execDigestExchange_keeps _ _ s he
  | stepBoundary => exact execStepBoundary_keeps s he
  | pausedCycle => exact execPausedCycle_keeps s he
  | evaluationSegment => exact execEvaluationSegment_keeps s he
  | responseTimeout slot => exact execResponseTimeout_keeps _ s he
  | inboxClientConnect addr => exact execInboxClientConnect_keeps _ s he
  | evaluationBudgetExpiry => exact execEvaluationBudgetExpiry_keeps s he
  | checkpointWrite => exact execCheckpointWrite_keeps s he
  | flushComplete => exact execFlushComplete_keeps s he
  | checkpointBudgetExpiry => exact execCheckpointBudgetExpiry_keeps s he
  | boundaryBudgetExpiry => exact execBoundaryBudgetExpiry_keeps s he
  | factorFold => exact execFactorFold_keeps s he
  | rootProblemAdmission prob => exact execRootProblemAdmission_keeps _ s he
  | borrowedPiece prob => exact execBorrowedPiece_keeps _ s he
  | borrowedPieceComplete prob => exact execBorrowedPieceComplete_keeps _ s he
  | rootProblemDecided prob => exact execRootProblemDecided_keeps _ s he
  | rootCommit prob => exact execRootCommit_keeps _ s he
  | rootDecisionMessage src weight side block att slot outcome => exact execRootDecisionMessage_keeps _ _ _ _ _ _ _ s he
  | laneFailure port => exact execLaneFailure_keeps _ s he
  | retrainComplete port lanes => exact execRetrainComplete_keeps _ _ s he
  | portDown port => exact execPortDown_keeps _ s he
  | linkStateAnnouncement dev port up => exact execLinkStateAnnouncement_keeps _ _ _ s he
  | downPortRetry port ok => exact execDownPortRetry_keeps _ _ s he
  | packetForward inPort p => exact execPacketForward_keeps _ _ s he
  | linkReplayRequest port seqNo => exact execLinkReplayRequest_keeps _ _ s he
  | hush port => exact execHush_keeps _ s he
  | hushLapse port => exact execHushLapse_keeps _ s he
  | overlongHush port => exact execOverlongHush_keeps _ s he
  | identityExchange port id => exact execIdentityExchange_keeps _ _ s he
  | pwrEnRise => exact execPwrEnRise_keeps s he
  | pwrEnFall => exact execPwrEnFall_keeps s he
  | interlockOpen => exact execInterlockOpen_keeps s he
  | resetNAssert => exact execResetNAssert_keeps s he
  | resetNRelease => exact execResetNRelease_boots s he
  | stbyGood slotId bankAOk bankBOk => exact execStbyGood_boots _ _ _ s he
  | railTimeout row hearth => exact execRailTimeout_keeps _ _ s he
  | railFault row => exact execRailFault_keeps _ s he
  | inputVoltageFault mv => exact execInputVoltageFault_keeps _ s he
  | inputLoss => exact execInputLoss_keeps s he
  | overcurrent => exact execOvercurrent_keeps s he
  | thermalTrip => exact execThermalTrip_keeps s he
  | governorDecision m => exact execGovernorDecision_keeps _ s he
  | gatingHoldLimit group => exact execGatingHoldLimit_keeps _ s he
  | alertReleaseTimer => exact execAlertReleaseTimer_keeps s he
  | ethernetFrameReceived f => exact execEthernetFrameReceived_keeps _ s he
  | pfcFrame port prio quanta => exact execPfcFrame_keeps _ _ _ s he
  | hostPortLinkUp port => exact execHostPortLinkUp_keeps _ s he
  | plcaBeaconLost => exact execPlcaBeaconLost_keeps s he
  | plcaBeaconSeen => exact execPlcaBeaconSeen_keeps s he
  | nvmeWriteComplete => exact execNvmeWriteComplete_keeps s he
  | linkAcknowledgment port seqNo => exact execLinkAcknowledgment_keeps _ _ s he
  | linkCreditReturn port vl cls flits => exact execLinkCreditReturn_keeps _ _ _ _ s he
  | rootDeliveryAck prob dev => exact execRootDeliveryAck_keeps _ _ s he
  | hushHoldEnd port => exact execHushHoldEnd_keeps _ s he
  | responseWriteRejected slot => exact execResponseWriteRejected_keeps _ s he

theorem exec_mems (c : Instr) {s t : State} (he : exec c s = .next t) : Mems s t := by
  cases c with
  | load h => exact execLoad_mems _ s he
  | start h inst => exact execStart_mems _ _ s he
  | pause h => exact execPause_mems _ s he
  | resume h => exact execResume_mems _ s he
  | stop h => exact execStop_mems _ s he
  | abortStep h => exact execAbortStep_mems _ s he
  | checkpointNow h => exact execCheckpointNow_mems _ s he
  | sleep h => exact execSleep_mems _ s he
  | wake h => exact execWake_mems _ s he
  | wakePacket src => exact execWakePacket_mems _ s he
  | standby h => exact execStandby_mems _ s he
  | proof h => exact execProof_mems _ s he
  | proofing p => exact execProofing_mems _ s he
  | selfTestQueued h target => exact execSelfTestQueued_mems _ _ s he
  | selfTestImmediate h target => exact execSelfTestImmediate_mems _ _ s he
  | bistSlice r => exact execBistSlice_mems _ s he
  | reconfigure h => exact execReconfigure_mems _ s he
  | portTrainTimeout port => exact execPortTrainTimeout_mems _ s he
  | clearLogRing h => exact execClearLogRing_mems _ s he
  | clearFaultLog h => exact execClearFaultLog_mems _ s he
  | consume h slot seqNo => exact execConsume_mems _ _ _ s he
  | closeSession h sid => exact execCloseSession_mems _ _ s he
  | clientHello h hello => exact execClientHello_mems _ _ s he
  | enrolOwner h st => exact execEnrolOwner_mems _ _ s he
  | enrolClient h st => exact execEnrolClient_mems _ _ s he
  | release h st => exact execRelease_mems _ _ s he
  | lock h st => exact execLock_mems _ _ s he
  | revoke h st => exact execRevoke_mems _ _ s he
  | attestationNonce h nonce => exact execAttestationNonce_mems _ _ s he
  | recipeStaging h off total final data content => exact execRecipeStaging_mems _ _ _ _ _ _ s he
  | laneMaskWrite h port mask => exact execLaneMaskWrite_mems _ _ _ s he
  | coordinateWrite h sub value => exact execCoordinateWrite_mems _ _ _ s he
  | spareSubstitution h port value => exact execSpareSubstitution_mems _ _ _ s he
  | writeEntry h idx sub ty val => exact execWriteEntry_mems _ _ _ _ _ s he
  | read h idx sub => exact execRead_mems _ _ _ s he
  | readBlock h idx sub off len => exact execReadBlock_mems _ _ _ _ _ s he
  | writeBlock h idx sub ty off total final data => exact execWriteBlock_mems _ _ _ _ _ _ _ _ s he
  | subscribe h kinds classes => exact execSubscribe_mems _ _ _ s he
  | eventAck h ackSeq => exact execEventAck_mems _ _ s he
  | eventResendTimer sub evSeq => exact execEventResendTimer_mems _ _ s he
  | relayRequest h body => exact execRelayRequest_mems _ _ s he
  | relayPacket dev h body => exact execRelayPacket_mems _ _ _ s he
  | relayRecordExpiry target session seq => exact execRelayRecordExpiry_mems _ _ _ s he
  | sessionIdleTimeout sid => exact execSessionIdleTimeout_mems _ s he
  | helloTagTimeout sid => exact execHelloTagTimeout_mems _ s he
  | writeBlockHoldTimeout idx sub => exact execWriteBlockHoldTimeout_mems _ _ s he
  | matrixOperation core => exact execMatrixOperation_mems _ s he
  | matrixOperationComplete core => exact execMatrixOperationComplete_mems _ s he
  | splitKCombine core level => exact execSplitKCombine_mems _ _ s he
  | vectorInstruction core => exact execVectorInstruction_mems _ s he
  | rowOperation core => exact execRowOperation_mems _ s he
  | groupBarrier core => exact execGroupBarrier_mems _ s he
  | sidelineTransfer core => exact execSidelineTransfer_mems _ s he
  | streamAdmission core => exact execStreamAdmission_mems _ s he
  | dataTileFetch core ctx corr => exact execDataTileFetch_mems _ _ _ s he
  | streamCreditReport core ctx r => exact execStreamCreditReport_mems _ _ _ s he
  | streamRetire core ctx => exact execStreamRetire_mems _ _ s he
  | streamStall core ctx => exact execStreamStall_mems _ _ s he
  | pantryPrefetch core ctx => exact execPantryPrefetch_mems _ _ s he
  | translationMiss core ctx va write => exact execTranslationMiss_mems _ _ _ _ s he
  | itemDrainComplete group => exact execItemDrainComplete_mems _ s he
  | translationMapped group va => exact execTranslationMapped_mems _ _ s he
  | workItemReplay group => exact execWorkItemReplay_mems _ s he
  | replayBoundExpiry group => exact execReplayBoundExpiry_mems _ s he
  | sramUncorrectable kind unit r => exact execSramUncorrectable_mems _ _ _ s he
  | gddr7Uncorrectable channel pa va reader err => exact execGddr7Uncorrectable_mems _ _ _ _ _ s he
  | patrolScrub block r => exact execPatrolScrub_mems _ _ s he
  | coreFenced phys => exact execCoreFenced_mems _ s he
  | interleaveSlotStart group => exact execInterleaveSlotStart_mems _ s he
  | workItemComplete group => exact execWorkItemComplete_mems _ s he
  | electiveAdmission point => exact execElectiveAdmission_mems _ s he
  | ingestPacking => exact execIngestPacking_mems s he
  | nvmeReadComplete cid status data => exact execNvmeReadComplete_mems _ _ _ s he
  | nvmeReadTimeout cid status => exact execNvmeReadTimeout_mems _ _ s he
  | nvmeKeepAlive tgt => exact execNvmeKeepAlive_mems _ s he
  | ingestBoundExpiry late => exact execIngestBoundExpiry_mems _ s he
  | splitNotice src step samples => exact execSplitNotice_mems _ _ _ s he
  | hostPortLinkLoss port => exact execHostPortLinkLoss_mems _ s he
  | congestionNotification conn => exact execCongestionNotification_mems _ s he
  | collectiveStart coll mb => exact execCollectiveStart_mems _ _ s he
  | collectivePacket p => exact execCollectivePacket_mems _ s he
  | collectiveComplete coll => exact execCollectiveComplete_mems _ s he
  | rootDelivery src weight side block slot due source head tiles => exact execRootDelivery_mems _ _ _ _ _ _ _ _ _ s he
  | commitPhaseOne => exact execCommitPhaseOne_mems s he
  | prepare m => exact execPrepare_mems _ s he
  | commit m => exact execCommit_mems _ s he
  | abort m => exact execAbort_mems _ s he
  | abortReq m => exact execAbortReq_mems _ s he
  | query m => exact execQuery_mems _ s he
  | decision m => exact execDecision_mems _ s he
  | halt m => exact execHalt_mems _ s he
  | higherAttempt m isAbort data => exact execHigherAttempt_mems _ _ _ s he
  | partnerSilent wait partner item detail => exact execPartnerSilent_mems _ _ _ _ s he
  | commitOutcomeSilence => exact execCommitOutcomeSilence_mems s he
  | digestExchange sender digest => exact execDigestExchange_mems _ _ s he
  | stepBoundary => exact execStepBoundary_mems s he
  | pausedCycle => exact execPausedCycle_mems s he
  | evaluationSegment => exact execEvaluationSegment_mems s he
  | responseTimeout slot => exact execResponseTimeout_mems _ s he
  | inboxClientConnect addr => exact execInboxClientConnect_mems _ s he
  | evaluationBudgetExpiry => exact execEvaluationBudgetExpiry_mems s he
  | checkpointWrite => exact execCheckpointWrite_mems s he
  | flushComplete => exact execFlushComplete_mems s he
  | checkpointBudgetExpiry => exact execCheckpointBudgetExpiry_mems s he
  | boundaryBudgetExpiry => exact execBoundaryBudgetExpiry_mems s he
  | factorFold => exact execFactorFold_mems s he
  | rootProblemAdmission prob => exact execRootProblemAdmission_mems _ s he
  | borrowedPiece prob => exact execBorrowedPiece_mems _ s he
  | borrowedPieceComplete prob => exact execBorrowedPieceComplete_mems _ s he
  | rootProblemDecided prob => exact execRootProblemDecided_mems _ s he
  | rootCommit prob => exact execRootCommit_mems _ s he
  | rootDecisionMessage src weight side block att slot outcome => exact execRootDecisionMessage_mems _ _ _ _ _ _ _ s he
  | laneFailure port => exact execLaneFailure_mems _ s he
  | retrainComplete port lanes => exact execRetrainComplete_mems _ _ s he
  | portDown port => exact execPortDown_mems _ s he
  | linkStateAnnouncement dev port up => exact execLinkStateAnnouncement_mems _ _ _ s he
  | downPortRetry port ok => exact execDownPortRetry_mems _ _ s he
  | packetForward inPort p => exact execPacketForward_mems _ _ s he
  | linkReplayRequest port seqNo => exact execLinkReplayRequest_mems _ _ s he
  | hush port => exact execHush_mems _ s he
  | hushLapse port => exact execHushLapse_mems _ s he
  | overlongHush port => exact execOverlongHush_mems _ s he
  | identityExchange port id => exact execIdentityExchange_mems _ _ s he
  | pwrEnRise => exact execPwrEnRise_mems s he
  | pwrEnFall => exact execPwrEnFall_mems s he
  | interlockOpen => exact execInterlockOpen_mems s he
  | resetNAssert => exact execResetNAssert_mems s he
  | resetNRelease => exact execResetNRelease_mems s he
  | stbyGood slotId bankAOk bankBOk => exact execStbyGood_mems _ _ _ s he
  | railTimeout row hearth => exact execRailTimeout_mems _ _ s he
  | railFault row => exact execRailFault_mems _ s he
  | inputVoltageFault mv => exact execInputVoltageFault_mems _ s he
  | inputLoss => exact execInputLoss_mems s he
  | overcurrent => exact execOvercurrent_mems s he
  | thermalTrip => exact execThermalTrip_mems s he
  | governorDecision m => exact execGovernorDecision_mems _ s he
  | gatingHoldLimit group => exact execGatingHoldLimit_mems _ s he
  | alertReleaseTimer => exact execAlertReleaseTimer_mems s he
  | ethernetFrameReceived f => exact execEthernetFrameReceived_mems _ s he
  | pfcFrame port prio quanta => exact execPfcFrame_mems _ _ _ s he
  | hostPortLinkUp port => exact execHostPortLinkUp_mems _ s he
  | plcaBeaconLost => exact execPlcaBeaconLost_mems s he
  | plcaBeaconSeen => exact execPlcaBeaconSeen_mems s he
  | nvmeWriteComplete => exact execNvmeWriteComplete_mems s he
  | linkAcknowledgment port seqNo => exact execLinkAcknowledgment_mems _ _ s he
  | linkCreditReturn port vl cls flits => exact execLinkCreditReturn_mems _ _ _ _ s he
  | rootDeliveryAck prob dev => exact execRootDeliveryAck_mems _ _ s he
  | hushHoldEnd port => exact execHushHoldEnd_mems _ s he
  | responseWriteRejected slot => exact execResponseWriteRejected_mems _ s he

theorem secKept_of_eq {s t : State} (h : t.sec = s.sec) : secKept s t :=
  ⟨fun hlocked => h ▸ hlocked, h ▸ Nat.le_refl _, h ▸ Nat.le_refl _⟩

theorem exec_pending (c : Instr) {s t : State} (he : exec c s = .next t) : t.pending = s.pending := by
  have hlaw := exec_commandLaw c he
  cases c with
  | resetNRelease | stbyGood => exact hlaw.1
  | _ => exact hlaw.queue

theorem exec_secKept (c : Instr) {s t : State} (he : exec c s = .next t) : secKept s t := by
  have hlaw := exec_commandLaw c he
  cases c with
  | resetNRelease | stbyGood => exact secKept_of_eq hlaw.2.1
  | enrolOwner | enrolClient | release | lock | revoke | proofing => exact hlaw.own
  | _ => exact secKept_of_eq hlaw.sec

/-- A step is a command carried out with the queue's rest, or a microsecond. -/
theorem step_of_pending {c : Instr} {r : List Instr} {s : State} (h : s.pending = c :: r) :
    step s = exec c { s with pending := r } := by rw [step, h]

theorem step_of_empty {s : State} (h : s.pending = []) : step s = .next (tick s) := by rw [step, h]

theorem step_cases {s t : State} (h : step s = .next t) :
    t = tick s ∨ ∃ c r, exec c { s with pending := r } = .next t := by
  cases hq : s.pending with
  | nil =>
    rw [step_of_empty hq] at h
    cases h
    exact .inl rfl
  | cons c r => exact .inr ⟨c, r, step_of_pending hq ▸ h⟩


/-! ## What sending packets changes -/

/-- What sending may change: counters of port records, messages sent after those that stand, the queues and credit of the ports with
packets held for replay after those that stand, the token bucket and what waits for it, the destinations counted. -/
structure Sends (s t : State) : Prop where
  only : FabricOnly s t
  tx : s.tx <+: t.tx
  fab : t.fab = { s.fab with
    ports := t.fab.ports, tokens := t.fab.tokens, tokenUs := t.fab.tokenUs, inject := t.fab.inject, counted := t.fab.counted }
  port : ∀ p, t.port p = { s.port p with
    queue := (t.port p).queue, unacked := (t.port p).unacked, nextSeq := (t.port p).nextSeq, used := (t.port p).used
    held := (t.port p).held, lastBulk := (t.port p).lastBulk }
  unacked : ∀ p, (s.port p).unacked <+: (t.port p).unacked
  counter : ∀ j, ck 0x3130 0 ≤ j → tget 0 t.counters j = tget 0 s.counters j

theorem Sends.refl (s : State) : Sends s s :=
  ⟨FabricOnly.refl s, List.prefix_refl _, rfl, fun _ => rfl, fun _ => List.prefix_refl _, fun _ _ => rfl⟩

theorem Sends.trans {s t u : State} (h : Sends s t) (k : Sends t u) : Sends s u where
  only := h.only.trans k.only
  tx := h.tx.trans k.tx
  fab := by rw [k.fab, h.fab]
  port p := by rw [k.port p, h.port p]
  unacked p := (h.unacked p).trans (k.unacked p)
  counter j hj := (k.counter j hj).trans (h.counter j hj)

theorem Sends.hushing {s t : State} (h : Sends s t) (p : Nat) : (t.port p).hushing = (s.port p).hushing := by rw [h.port p]
theorem Sends.state {s t : State} (h : Sends s t) (p : Nat) : (t.port p).state = (s.port p).state := by rw [h.port p]

/-- A state with the same port table that sends nothing less. -/
theorem sends_of_ports {s t : State} (only : FabricOnly s t) (tx : s.tx <+: t.tx)
    (fab : t.fab = { s.fab with tokens := t.fab.tokens, tokenUs := t.fab.tokenUs, inject := t.fab.inject, counted := t.fab.counted })
    (counter : ∀ j, ck 0x3130 0 ≤ j → tget 0 t.counters j = tget 0 s.counters j) : Sends s t := by
  have hports : t.fab.ports = s.fab.ports := by rw [fab]
  have hport (p : Nat) : t.port p = s.port p := by rw [State.port, State.port, hports]
  exact ⟨only, tx, by rw [hports]; exact fab, fun p => by rw [hport], fun p => by rw [hport], counter⟩

theorem sends_send (x : Tx) (s : State) : Sends s (send x s) :=
  sends_of_ports (fabricOnly_send x s) (List.prefix_append _ _) rfl fun _ _ => rfl

theorem sends_bump {p k : Nat} (n b : Nat) (s : State) (hp : p < 48) (hk : k < 256) : Sends s (bump (0x3100 + p) k n b s) := by
  refine sends_of_ports (fabricOnly_bump p k n b s hk) (List.prefix_refl _) rfl fun j hj => ?_
  rw [bump_tget, if_neg]
  unfold ck at hj ⊢
  omega

/-- One port is set, and of it only what sending may change. -/
theorem sends_setPort (p : Nat) (x : Port) (s : State)
    (hx : x = { s.port p with
      queue := x.queue, unacked := x.unacked, nextSeq := x.nextSeq, used := x.used, held := x.held, lastBulk := x.lastBulk })
    (hu : (s.port p).unacked <+: x.unacked) : Sends s (setPort p x s) := by
  refine ⟨fabricOnly_setPort p x s, List.prefix_refl _, rfl, fun q => ?_, fun q => ?_, fun _ _ => rfl⟩ <;>
    rw [setPort_port] <;> split
  · next h => subst h; exact hx
  · rfl
  · next h => subst h; exact hu
  · exact List.prefix_refl _

theorem sends_freeRx (hold : Option Nat) (p : Packet) (s : State) : Sends s (freeRx hold p s) := by
  unfold freeRx
  split
  · exact Sends.refl s
  · dsimp only
    split
    · exact Sends.refl s
    · refine Sends.trans ?_ (sends_send _ _)
      exact sends_setPort _ _ s rfl (List.prefix_refl _)

theorem sends_countDetour {q : Nat} (d : Nat) (s : State) (hq : q < 48) : Sends s (countDetour q d s) := by
  refine sends_of_ports (countDetour_only q d s) (by rw [countDetour_tx]) ?_ fun j hj => ?_ <;> unfold countDetour
  · split <;> rfl
  · split
    · rfl
    · exact (sends_bump 1 32 _ hq (by decide)).counter j hj

theorem sends_pumpPort (n fuel : Nat) (s : State) : Sends s (pumpPort n fuel s) := by
  induction fuel generalizing s with
  | zero => exact Sends.refl s
  | succ fuel ih =>
    unfold pumpPort
    dsimp only
    split
    · exact Sends.refl s
    · rename_i w y hfound
      obtain ⟨v, _, hv⟩ := List.exists_of_findSome?_eq_some hfound
      obtain ⟨y', hstart, hpair⟩ := Option.map_eq_some_iff.mp hv
      cases hpair
      obtain ⟨u, rfl⟩ := startable_fields hstart
      refine (Sends.trans ?_ (sends_freeRx _ _ _)).trans ((sends_send _ _).trans (ih _))
      exact sends_setPort n _ s rfl (List.prefix_append _ _)

theorem sends_pumpAll (n : Nat) (s : State) : Sends s (pumpAll n s) := sends_pumpPort n _ s

theorem sends_queueOut {q : Nat} (detour : Bool) (hold : Option Nat) (p : Packet) (s : State) (hq : q < 48) :
    Sends s (queueOut q detour hold p s) := by
  cases detour
  · exact sends_setPort q _ s rfl (List.prefix_refl _)
  · exact (sends_countDetour p.dst s hq).trans (sends_setPort q _ _ rfl (List.prefix_refl _))

theorem State.portAt_lt {s : State} {dim delta p : Nat} (h : s.portAt dim delta = some p) : p < 48 :=
  List.mem_range.mp (List.mem_of_find?_eq_some h)

theorem State.trunkPort_lt {s : State} {dim n k h q : Nat} (hq : s.trunkPort dim n k h = some q) : q < 48 := by
  obtain ⟨d, _, hd⟩ := List.exists_of_findSome?_eq_some hq
  unfold State.deltaUp at hd
  split at hd
  · next p hp =>
    split at hd
    · cases hd; exact State.portAt_lt hp
    · cases hd
  · cases hd

/-- A hop leaves, or a drop is counted, at one of the 48 ports. -/
def Hop.atPort : Hop → Prop
  | .deliver => True
  | .go q _ => q < 48
  | .drop q => q < 48

theorem State.nextHop_atPort (s : State) (p : Packet) (dims : List Nat) (first : Bool) {fail : Option Nat}
    (hfail : ∀ q, fail = some q → q < 48) : (s.nextHop p dims first fail).atPort := by
  have hgetD {o : Option Nat} (ho : ∀ q, o = some q → q < 48) : o.getD 0 < 48 := by
    cases o with
    | none => decide
    | some q => exact ho q rfl
  induction dims generalizing first fail with
  | nil =>
    unfold State.nextHop
    cases fail with
    | none => trivial
    | some q => exact hfail q rfl
  | cons dim rest ih =>
    unfold State.nextHop
    extract_lets n v k h want inter
    split
    · exact ih first hfail
    · split
      · next q hq => exact State.trunkPort_lt hq
      · have hwant : want < 48 := hgetD fun q hq => State.portAt_lt hq
        clear_value inter want
        cases inter with
        | some c => exact hgetD fun q hq => State.trunkPort_lt hq
        | none =>
          refine ih false fun q hq => ?_
          cases fail with
          | none => cases hq; exact hwant
          | some q' => cases hq; exact hfail _ rfl

theorem sends_routePacket (hold : Option Nat) (p : Packet) (s : State) : Sends s (routePacket hold p s) := by
  have hdrop {q : Nat} (hq : q < 48) : Sends s (bump (0x3100 + q) 0x0D 1 32 (freeRx hold p s)) :=
    (sends_freeRx hold p s).trans (sends_bump 1 32 _ hq (by decide))
  have hport := s.nextHop_atPort p [0, 1, 2] true (fail := none) (fun _ h => nomatch h)
  cases hhop : s.nextHop p [0, 1, 2] true none with
  | deliver => rw [routePacket, hhop]; exact sends_freeRx hold p s
  | drop q =>
    rw [hhop] at hport
    rw [routePacket_of_drop hold hhop]; exact hdrop hport
  | go q detour =>
    rw [hhop] at hport
    rw [routePacket_of_go hold hhop]
    split
    · exact hdrop hport
    · exact (sends_queueOut detour hold p s hport).trans (sends_pumpAll q _)

theorem sends_pumpInject (fuel : Nat) (s : State) : Sends s (pumpInject fuel s) := by
  induction fuel generalizing s with
  | zero => exact Sends.refl s
  | succ fuel ih =>
    unfold pumpInject
    split
    · exact Sends.refl s
    · split
      · refine (Sends.trans ?_ (sends_routePacket none _ _)).trans (ih _)
        exact sends_of_ports ⟨rfl, fun _ _ => rfl⟩ (List.prefix_refl _) rfl fun _ _ => rfl
      · exact Sends.refl s

theorem sends_refill (s : State) : Sends s (refill s) :=
  sends_of_ports ⟨rfl, fun _ _ => rfl⟩ (List.prefix_refl _) rfl fun _ _ => rfl

theorem sends_injectPacket (p : Packet) (s : State) : Sends s (injectPacket p s) := by
  unfold injectPacket
  split
  · split
    · exact Sends.refl s
    · exact sends_routePacket none p s
  · split
    · exact Sends.refl s
    · refine ((sends_refill s).trans ?_).trans (sends_pumpInject _ _)
      exact sends_of_ports ⟨rfl, fun _ _ => rfl⟩ (List.prefix_refl _) rfl fun _ _ => rfl

theorem sends_fold {α : Type} (g : State → α → State) (h : ∀ s a, Sends s (g s a)) (l : List α) (s : State) :
    Sends s (l.foldl g s) := by
  induction l generalizing s with
  | nil => exact Sends.refl s
  | cons a l ih => exact (h s a).trans (ih (g s a))

theorem sends_sendControl (dst step attempt : Nat) (x : Tx) (body : Bytes) (s : State) :
    Sends s (sendControl dst step attempt x body s) :=
  (sends_send x s).trans (sends_fold _ (fun s _ => sends_injectPacket _ s) _ _)

theorem sends_sendWords (dst code : Nat) (ws : List Nat) (s : State) : Sends s (sendWords dst code ws s) :=
  sends_sendControl _ _ _ _ _ s

theorem sends_announce (p : Nat) (up : Bool) (s : State) : Sends s (announce p up s) := by
  unfold announce
  split
  · exact Sends.refl s
  · split
    · exact Sends.refl s
    · exact sends_fold _ (fun s _ => sends_injectPacket _ s) _ s

theorem sends_announceAll (s : State) : Sends s (announceAll s) := by
  refine sends_fold _ (fun s p => ?_) _ s
  split
  · exact Sends.refl s
  · exact sends_announce _ _ s

theorem sends_announceOne (p : Nat) (up : Bool) (s : State) : Sends s (announceOne p up s) := by
  unfold announceOne
  split
  · exact Sends.refl s
  · exact sends_announce p up s

/-! ## The microsecond without a command -/

/-- One port's part of `hushTick`. -/
def hushStep (s : State) (x : Nat × Port) : State :=
  match x.2.hushing with
  | none => s
  | some (_, b) => if b ≤ s.localUs then hushHoldEndState x.1 s else send (.hush x.1 s.localUs) s

theorem hushTick_eq (s : State) : hushTick s = s.fab.ports.foldl hushStep s := rfl

theorem hushStep_of_none {s : State} {x : Nat × Port} (h : x.2.hushing = none) : hushStep s x = s := by
  rw [hushStep, h]

theorem hushStep_of_some {s : State} {x : Nat × Port} {a b : Nat} (h : x.2.hushing = some (a, b)) :
    hushStep s x = if b ≤ s.localUs then hushHoldEndState x.1 s else send (.hush x.1 s.localUs) s := by
  rw [hushStep, h]

/-- What the hush symbols of a microsecond change: hushes end, and symbols are sent. -/
structure HushOnly (s t : State) : Prop where
  only : FabricOnly s t
  inject : t.fab.inject = s.fab.inject
  tx : s.tx <+: t.tx
  ended : ∀ p, (s.port p).hushing = none → (t.port p).hushing = none

theorem hushStep_only (s : State) (x : Nat × Port) : HushOnly s (hushStep s x) := by
  cases hx : x.2.hushing with
  | none =>
    rw [hushStep_of_none hx]
    exact ⟨FabricOnly.refl s, rfl, List.prefix_refl _, fun _ h => h⟩
  | some ab =>
    rw [hushStep_of_some (a := ab.1) (b := ab.2) hx]
    split
    · refine ⟨fabricOnly_setPort _ _ s, rfl, List.prefix_refl _, fun p hp => ?_⟩
      rw [hushHoldEndState, setPort_port]
      split
      · rfl
      · exact hp
    · exact ⟨fabricOnly_send _ s, rfl, List.prefix_append _ _, fun _ h => h⟩

theorem hushFold_only (l : List (Nat × Port)) (s : State) : HushOnly s (l.foldl hushStep s) := by
  induction l generalizing s with
  | nil => exact ⟨FabricOnly.refl s, rfl, List.prefix_refl _, fun _ h => h⟩
  | cons x l ih =>
    have hx := hushStep_only s x
    have hl := ih (hushStep s x)
    exact ⟨hx.only.trans hl.only, hl.inject.trans hx.inject, hx.tx.trans hl.tx, fun p hp => hl.ended p (hx.ended p hp)⟩

theorem hushFold_of_none (l : List (Nat × Port)) (s : State) (h : ∀ x ∈ l, x.2.hushing = none) :
    l.foldl hushStep s = s := by
  induction l with
  | nil => rfl
  | cons x l ih =>
    rw [List.foldl_cons, hushStep_of_none (h x (List.mem_cons_self ..))]
    exact ih fun y hy => h y (List.mem_cons_of_mem _ hy)

theorem FabricOnly.localUs {s t : State} (h : FabricOnly s t) : t.localUs = s.localUs := by rw [h.1]

/-- A hushed port is sent the symbol again, or its hush ends (R296). -/
theorem hushFold_hushed {l : List (Nat × Port)} {p : Nat} {x : Port} {a b : Nat} (s : State) (hmem : (p, x) ∈ l)
    (hx : x.hushing = some (a, b)) :
    (s.localUs < b → .hush p s.localUs ∈ (l.foldl hushStep s).tx)
      ∧ (b ≤ s.localUs → ((l.foldl hushStep s).port p).hushing = none) := by
  induction l generalizing s with
  | nil => cases hmem
  | cons y l ih =>
    rw [List.foldl_cons]
    obtain rfl | hmem := List.mem_cons.mp hmem
    · have hrest := hushFold_only l (hushStep s (p, x))
      have hstep := hushStep_of_some (s := s) (x := (p, x)) hx
      constructor <;> intro hb
      · rw [if_neg (by omega)] at hstep
        exact hrest.tx.subset (hstep ▸ List.mem_append_right _ (List.mem_singleton_self _))
      · rw [if_pos hb] at hstep
        refine hrest.ended p (hstep ▸ ?_)
        rw [hushHoldEndState, setPort_port_same]
    · have hus := (hushStep_only s y).only.localUs
      have hlater := ih (hushStep s y) hmem
      rwa [hus] at hlater

theorem fabTick_eq (s : State) :
    fabTick s = if (hushTick s).fab.inject = [] then hushTick s
      else pumpInject (refill (hushTick s)).fab.inject.length (refill (hushTick s)) := by
  unfold fabTick
  simp only [List.isEmpty_iff]

theorem fabTick_only (s : State) : FabricOnly s (fabTick s) := by
  rw [fabTick_eq]
  split
  · exact (hushFold_only _ s).only
  · exact (hushFold_only _ s).only.trans ((sends_refill _).trans (sends_pumpInject _ _)).only

theorem fabTick_quiet {s : State} (hinject : s.fab.inject = []) (hquiet : ∀ x ∈ s.fab.ports, x.2.hushing = none) :
    fabTick s = s := by
  have hhush : hushTick s = s := hushFold_of_none _ s hquiet
  rw [fabTick_eq, hhush, if_pos hinject]

/-- What follows the hush symbols of a microsecond only sends. -/
theorem fabTick_sends (s : State) : Sends (hushTick s) (fabTick s) := by
  rw [fabTick_eq]
  split
  · exact Sends.refl _
  · exact (sends_refill _).trans (sends_pumpInject _ _)

/-- The state a microsecond's fabric work starts from: the count is one higher, and each full second is counted (R8, R367). -/
def countUs (s : State) : State :=
  let s := { s with localUs := s.localUs + 1 }
  if s.localUs % 1000000 == 0 then bump 0x1000 0x0C 1 64 s else s

theorem countUs_eq (s : State) :
    countUs s = { s with localUs := s.localUs + 1, counters := (countUs s).counters } := by
  unfold countUs
  dsimp only
  split <;> rfl

theorem countUs_localUs (s : State) : (countUs s).localUs = s.localUs + 1 := by rw [countUs_eq]
theorem countUs_fab (s : State) : (countUs s).fab = s.fab := by rw [countUs_eq]
theorem countUs_tx (s : State) : (countUs s).tx = s.tx := by rw [countUs_eq]

theorem tick_of_down {s : State} (hup : s.stewardUp = true) (hmain : s.dev.mainUp = false) :
    tick s = { s with localUs := s.localUs + 1 } := by
  have hcounts : s.counting = true := by simp_all [State.stewardUp, State.counting]
  simp [tick, hcounts, hmain]

theorem tick_of_up {s : State} (hup : s.stewardUp = true) (hmain : s.dev.mainUp = true) :
    tick s = fabTick (countUs s) := by
  have hcounts : s.counting = true := by simp_all [State.stewardUp, State.counting]
  simp [tick, hcounts, hmain, countUs]

/-! ## The obligations about the machine as a whole -/

/-- Settles O1: the front command is carried out by definition. -/
theorem stepRunsFront : Obligations.StepRunsFront := fun _ _ _ h => step_of_pending h

/-- Settles O2: without main power only the count moves; with it the hush symbols and what sends after them work on the fabric. -/
theorem idleStepCountsTime : Obligations.IdleStepCountsTime := by
  intro s hempty hup
  rw [step_of_empty hempty]
  cases hmain : s.dev.mainUp with
  | false =>
    rw [tick_of_down hup hmain]
    exact ⟨_, rfl, rfl, fun _ => ⟨rfl, rfl⟩, fun h => nomatch h⟩
  | true =>
    rw [tick_of_up hup hmain]
    refine ⟨_, rfl, ?_, fun hquiet => ?_, fun _ p x a b hmem hx => ?_⟩
    · rw [(fabTick_only (countUs s)).1, countUs_eq]
    · obtain ⟨hinject, hports⟩ := hquiet.resolve_left (by simp)
      rw [fabTick_quiet (by rwa [countUs_fab]) (by rwa [countUs_fab]), countUs_fab, countUs_tx]
      exact ⟨rfl, rfl⟩
    · have hhush := hushFold_hushed (countUs s) ((countUs_fab s).symm ▸ hmem) hx
      rw [← hushTick_eq, countUs_localUs] at hhush
      have hsends := fabTick_sends (countUs s)
      exact ⟨fun hb => hsends.tx.subset (hhush.1 hb), fun hb => (hsends.hushing p).trans (hhush.2 hb)⟩

/-- Settles O3: each field of the state after reset is read off. -/
theorem resetState : Obligations.ResetState :=
  ⟨rfl, rfl, rfl, rfl, rfl, rfl, rfl, rfl, rfl, rfl, rfl, rfl, rfl, rfl, rfl, rfl, rfl⟩

theorem everyCommandAnswers : Claims.EveryCommandAnswers := by
  intro c s hmax
  cases c with
  | inputVoltageFault mv => exact ⟨_, if_neg (Nat.not_lt.mpr (hmax mv rfl))⟩
  | _ => exact ⟨_, rfl⟩

/-- Settles O4: every command but the input voltage is `.next` by definition, and every command keeps the queue. -/
theorem commandsAnswerAndLeaveTheQueue : Obligations.CommandsAnswerAndLeaveTheQueue :=
  ⟨everyCommandAnswers, fun c _ _ he => exec_pending c he⟩

/-- Settles O5: a microsecond keeps the security state, a command obeys the ownership rules. -/
theorem ownershipKept : Obligations.OwnershipKept := by
  intro s t hstep
  obtain rfl | ⟨c, r, he⟩ := step_cases hstep
  · exact secKept_of_eq (tick_keeps s).sec
  · have hkept := exec_secKept c he
    exact hkept

/-- Settles O6: a microsecond and every command keep the canonical form. -/
theorem memoriesStayCanonical : Obligations.MemoriesStayCanonical := by
  intro s t hok hstep
  obtain rfl | ⟨c, r, he⟩ := step_cases hstep
  · exact (tick_mems s).ok hok
  · exact (exec_mems c he).ok hok

/-- Settles O7: only the excepted commands are not bound to keep the security state. -/
theorem onlyStatementsChangeOwnership : Obligations.OnlyStatementsChangeOwnership := by
  intro c s t hc he
  have hlaw := exec_commandLaw c he
  cases c with
  | enrolOwner | enrolClient | release | lock | revoke | proofing => exact hc.elim
  | resetNRelease | stbyGood => exact hlaw.2.1
  | _ => exact hlaw.sec

/-- Settles O8: only the excepted commands are not bound to keep the count. -/
theorem localCountNeverFalls : Obligations.LocalCountNeverFalls := by
  intro c s t hc he
  have hlaw := exec_commandLaw c he
  cases c with
  | resetNRelease | stbyGood => exact hc.elim
  | _ => exact hlaw.us

end Sys2Proof.Machine
end

section
/-! Events, the log and the end of training. What raising an event adds, what a log record leaves to be read, and what settles
when the last port has trained (R306, R359 to R361, R382, R383). -/

namespace Sys2Proof.Machine

/-! ## Events add to what is sent, and count only what is dropped -/

theorem nextTx_counters (i : BitVec 32) (s : State) : (nextTx i s).2.counters = s.counters := by
  unfold nextTx; split <;> rfl

theorem nextTx_tx (i : BitVec 32) (s : State) : (nextTx i s).2.tx = s.tx := by
  unfold nextTx; split <;> rfl

/-- One turn of an event queue's pump: nothing may be sent, or one event is and the pump goes on. -/
theorem pump_succ (k fuel : Nat) (s : State) :
    (pump k (fuel + 1) s).counters = s.counters ∧ (pump k (fuel + 1) s).tx = s.tx
      ∨ ∃ t, pump k (fuel + 1) s = pump k fuel t ∧ t.counters = s.counters ∧ ∃ x, t.tx = s.tx ++ [x] := by
  generalize hu : pump k (fuel + 1) s = u
  rw [pump] at hu
  split at hu
  · exact .inl (hu ▸ ⟨rfl, rfl⟩)
  · extract_lets sub s' at hu
    split at hu
    · exact .inl (hu ▸ ⟨rfl, rfl⟩)
    · split at hu
      · exact .inl (hu ▸ ⟨rfl, rfl⟩)
      · next e _ =>
        have hclose (c : Prop) [Decidable c] (v : State) :
            (if c then closeSession sub.sid v else v).counters = v.counters
              ∧ (if c then closeSession sub.sid v else v).tx = v.tx := by split <;> exact ⟨rfl, rfl⟩
        refine .inr ⟨_, hu.symm, (hclose _ _).1.trans (nextTx_counters sub.sid _), ?_⟩
        exact ⟨_, (hclose _ _).2.trans (congrArg (· ++ [_]) (nextTx_tx sub.sid _))⟩

theorem pump_counters (k fuel : Nat) (s : State) : (pump k fuel s).counters = s.counters := by
  induction fuel generalizing s with
  | zero => rfl
  | succ fuel ih =>
    obtain ⟨hstop, _⟩ | ⟨t, hturn, hcounters, _⟩ := pump_succ k fuel s
    · exact hstop
    · rw [hturn, ih, hcounters]

theorem pump_tx (k fuel : Nat) (s : State) : s.tx <+: (pump k fuel s).tx := by
  induction fuel generalizing s with
  | zero => exact List.prefix_refl _
  | succ fuel ih =>
    obtain ⟨_, hstop⟩ | ⟨t, hturn, _, x, htx⟩ := pump_succ k fuel s
    · rw [hstop]
    · rw [hturn]
      exact List.IsPrefix.trans (htx ▸ List.prefix_append _ _) (ih t)

/-- What telling the subscribers may change, beside their queues: messages are sent after those that stand, and events dropped
are counted at 0x1100:0A (R361). -/
structure Tells (s t : State) : Prop where
  tx : s.tx <+: t.tx
  counter : ∀ j, j ≠ ck 0x1100 0x0A → tget 0 t.counters j = tget 0 s.counters j

theorem Tells.of_eq {s t : State} (htx : t.tx = s.tx) (hcounters : t.counters = s.counters) : Tells s t :=
  ⟨htx ▸ List.prefix_refl _, fun _ _ => by rw [hcounters]⟩

theorem Tells.refl (s : State) : Tells s s := .of_eq rfl rfl

theorem Tells.trans {s t u : State} (h : Tells s t) (k : Tells t u) : Tells s u :=
  ⟨h.tx.trans k.tx, fun j hj => (k.counter j hj).trans (h.counter j hj)⟩

/-- What is told from a state with the same messages and counters. -/
theorem Tells.after {s u t : State} (h : Tells u t) (htx : u.tx = s.tx) (hcounters : u.counters = s.counters) : Tells s t :=
  (Tells.of_eq htx hcounters).trans h

theorem pump_tells (k fuel : Nat) (s : State) : Tells s (pump k fuel s) :=
  ⟨pump_tx k fuel s, fun _ _ => by rw [pump_counters]⟩

theorem enqueue_tells (k : Nat) (e : Event) (s : State) : Tells s (enqueue k e s) := by
  unfold enqueue
  split
  · exact Tells.refl s
  · dsimp only
    split
    · refine Tells.trans ?_ (pump_tells _ _ _)
      exact ⟨List.prefix_refl _, fun j hj => (bump_tget ..).trans (if_neg hj.symm)⟩
    · exact (pump_tells _ _ _).after rfl rfl

theorem raiseEvent_tells (e : Event) (s : State) : Tells s (raiseEvent e s) := by
  unfold raiseEvent
  generalize s.edp.subs.filter _ = l
  induction l generalizing s with
  | nil => exact Tells.refl s
  | cons x l ih => exact (enqueue_tells x.1 e s).trans (ih _)

theorem logAdd_tells (c a h u l : Nat) (d : List Nat) (s : State) : Tells s (logAdd c a h u l d s) := by
  unfold logAdd
  dsimp only
  split
  · exact Tells.refl s
  · split
    · exact (raiseEvent_tells _ _).after rfl rfl
    · exact Tells.of_eq rfl rfl

theorem setDev_tells (d : DevState) (s : State) : Tells s (setDev d s) := by
  unfold setDev
  split
  · exact Tells.refl s
  · exact (raiseEvent_tells _ _).after rfl rfl

theorem followJob_tells (o j : JobState) (s : State) : Tells s (followJob o j s) := by
  unfold followJob
  split
  · exact setDev_tells _ s
  · split
    · exact setDev_tells _ s
    · exact Tells.refl s

theorem setJob_tells (j : JobState) (c : Nat) (s : State) : Tells s (setJob j c s) := by
  unfold setJob
  split
  · exact Tells.refl s
  · refine Tells.trans ?_ (followJob_tells _ _ _)
    exact (raiseEvent_tells _ _).after rfl rfl

/-! ## The newest log record -/

theorem ringPush_getLast? {α : Type} (cap : Nat) (r : List α) (x : α) (hcap : 0 < cap) :
    (ringPush cap r x).getLast? = some x := by
  unfold ringPush
  split
  · rw [List.getLast?_drop, if_neg (by simp; omega), List.getLast?_concat]
  · exact List.getLast?_concat

/-- A record of an enabled class is the newest one (R382). -/
theorem logAdd_logged (c a h u l : Nat) (d : List Nat) (s : State) : Logged c d s (logAdd c a h u l d s) := by
  intro hon
  unfold logAdd
  simp only [hon, Bool.not_true, Bool.false_and, Bool.false_eq_true, if_false, if_true, raiseEvent_log]
  exact ⟨_, ringPush_getLast? 65536 _ _ (by decide), rfl, rfl⟩

theorem logPlain_logged (c : Nat) (d : List Nat) (s : State) : Logged c d s (logPlain c d s) :=
  logAdd_logged c 8 0xFF 0 0xFFFF d s

theorem Logged.congr {c : Nat} {d : List Nat} {s s' t t' : State} (h : Logged c d s t) (hregs : s'.regs = s.regs)
    (hlog : t'.log = t.log) : Logged c d s' t' := by
  intro hon
  rw [hregs] at hon
  rw [hlog]
  exact h hon

end Sys2Proof.Machine
end

section
/-! Ports of the optical fabric. What training, identities, acknowledgments, credit and replay requests leave of a port, and what
a link's spoiled packet is answered (R290, R294, R298, R301, R303). -/

namespace Sys2Proof.Machine

/-! ## A training port frees the buffers of packets that leave elsewhere -/

/-- Port 1 trains and has brought a packet for the other device of its dimension that waits at port 7, of the same trunk. -/
def carriedPacket : Packet := { vl0Packet State.reset 16 1 [0] with vl := 1, src := 0 }

def trainingState : State :=
  { State.reset with
    fab := { FabSt.reset with
      coord := [0, 0, 0], nY := 2, nZ := 1
      ports := [(1, { Port.reset with state := 2, held := [(8, 2)] }),
        (7, { Port.reset with state := 3, lanes := 4, queue := [⟨carriedPacket, carriedPacket, some 1⟩] })] } }

/-- The announcement of the port's loss goes out by port 7, whose queue is pumped: the packet that waits there leaves the receive
buffer of port 1. -/
theorem trainTimeout_frees_buffer : ((trainTimeoutState 1 trainingState).port 1).held = [(8, 0)] := by decide

/-- Refutes O14: a port that has not trained in time keeps its receive buffers only while the announcement of its loss starts no packet
that waits at another port; a packet it brought, waiting at the port that carries the announcement, leaves its buffer. -/
theorem not_portSignalsAndHush : ¬ Obligations.PortSignalsAndHush := by
  rintro ⟨hsignals, -, -⟩
  obtain ⟨htimeout, -⟩ := hsignals 1 trainingState
  obtain ⟨t, hexec, hport, -⟩ := htimeout rfl
  cases hexec
  have hheld := congrArg Port.held hport
  rw [trainTimeout_frees_buffer] at hheld
  exact absurd hheld (by decide)

/-! ## Replay, acknowledgment and credit -/

theorem resend_of_ne_nil (p : Nat) {l : List LinkWord} (h : l ≠ []) (s : State) : resend p l s = send (.words p l) s := by
  rw [resend, if_neg (by simpa using h)]

theorem dropWhile_seqNo {pre post : List LinkWord} {w : LinkWord} {n : Nat} (hw : w.seqNo = n)
    (hpre : ∀ v ∈ pre, v.seqNo ≠ n) : (pre ++ w :: post).dropWhile (fun v => v.seqNo != n) = w :: post := by
  rw [List.dropWhile_append_of_pos (by simpa using hpre), List.dropWhile_cons_of_neg (by simp [hw])]

/-- The replay buffer is searched for the flit asked for; it and all after it go out again. -/
theorem replayState_of_found {p n : Nat} {s : State} {pre post : List LinkWord} {w : LinkWord}
    (h : (s.port p).replay = pre ++ w :: post) (hw : w.seqNo = n) (hpre : ∀ v ∈ pre, v.seqNo ≠ n) :
    replayState p n s = bump (0x3100 + p) 0x0A 1 64 (send (.words p (w :: post)) s) := by
  simp [replayState, h, dropWhile_seqNo hw hpre, resend]

theorem replayState_of_absent {p n : Nat} {s : State} (h : ∀ v ∈ (s.port p).replay, v.seqNo ≠ n) :
    replayState p n s = s := by
  have hnone : (s.port p).replay.dropWhile (fun v => v.seqNo != n) = [] := by
    rw [List.dropWhile_eq_nil_iff]; simpa using h
  simp [replayState, hnone]

/-- Releasing flits takes the packets from the front that lie within them, and no other (R290). -/
theorem ackFlits_eq_drop (l : List (Nat × Nat × Waiting)) (n : Nat) : ∃ k, k ≤ l.length ∧ ackFlits n l = l.drop k
    ∧ ((l.take k).map (·.2.1)).sum ≤ n ∧ (k < l.length → n < ((l.take (k + 1)).map (·.2.1)).sum) := by
  induction l generalizing n with
  | nil => exact ⟨0, Nat.le_refl _, rfl, Nat.zero_le n, fun h => absurd h (Nat.lt_irrefl 0)⟩
  | cons u r ih =>
    by_cases hu : u.2.1 ≤ n
    · obtain ⟨k, hk, hdrop, hle, hlt⟩ := ih (n - u.2.1)
      refine ⟨k + 1, Nat.succ_le_succ hk, by simp [ackFlits, hu, hdrop], ?_, fun h => ?_⟩
      · simp only [List.take_succ_cons, List.map_cons, List.sum_cons]; omega
      · have hmore := hlt (Nat.lt_of_succ_lt_succ h)
        simp only [List.take_succ_cons, List.map_cons, List.sum_cons] at hmore ⊢
        omega
    · refine ⟨0, Nat.zero_le _, by simp [ackFlits, hu], by simp, fun _ => ?_⟩
      simp only [List.take_succ_cons, List.map_cons, List.sum_cons]
      omega

theorem linkAckState_of_cons {p n : Nat} {s : State} {u : Nat × Nat × Waiting} {r : List (Nat × Nat × Waiting)}
    (h : (s.port p).unacked = u :: r) : linkAckState p n s
      = pumpAll p (setPort p { s.port p with unacked := ackFlits ((n + 1 + 4096 - u.1) % 4096) (u :: r) } s) := by
  simp only [linkAckState, h]

theorem linkAckState_of_nil {p n : Nat} {s : State} (h : (s.port p).unacked = []) : linkAckState p n s = s := by
  simp only [linkAckState, h]

theorem linkAck_releases {p n : Nat} {s : State} {u : Nat × Nat × Waiting} {r : List (Nat × Nat × Waiting)}
    (h : (s.port p).unacked = u :: r) : ∃ t k more, exec (.linkAcknowledgment p n) s = .next t ∧ PortOnly p s t
        ∧ k ≤ (u :: r).length ∧ (t.port p).unacked = (u :: r).drop k ++ more
        ∧ (((u :: r).take k).map (·.2.1)).sum ≤ (n + 1 + 4096 - u.1) % 4096
        ∧ (k < (u :: r).length → (n + 1 + 4096 - u.1) % 4096 < (((u :: r).take (k + 1)).map (·.2.1)).sum) := by
  obtain ⟨k, hk, hdrop, hle, hlt⟩ := ackFlits_eq_drop (u :: r) ((n + 1 + 4096 - u.1) % 4096)
  have hexec : exec (.linkAcknowledgment p n) s = .next (linkAckState p n s) := rfl
  rw [hexec, linkAckState_of_cons h, hdrop]
  obtain ⟨more, hmore⟩ := (sends_pumpAll p (setPort p { s.port p with unacked := (u :: r).drop k } s)).unacked p
  rw [setPort_port_same] at hmore
  exact ⟨_, k, more, rfl, (portOnly_setPort p _ s).trans (pumpAll_only p _), hk, hmore.symm, hle, hlt⟩

theorem pumpAll_of_empty {p : Nat} {s : State} (h : (s.port p).queue = []) : pumpAll p s = s := by
  rw [pumpAll, h]; rfl

/-- The credit class a credit message names (Table 12.4). -/
def returnClass (vl cls : Nat) : Nat :=
  if vl = 0 then cls else if vl = 3 then 24 + cls else if vl = 2 then 16 else if cls = 1 then 9 else 8

theorem returnClass_ne_shared {vl cls : Nat} (h : cls < 6) : returnClass vl cls ≠ 32 := by
  unfold returnClass
  split_ifs <;> omega

theorem creditState_eq (p vl cls n : Nat) (s : State) : creditState p vl cls n s = pumpAll p (setPort p { s.port p with
    used := tset (tset (s.port p).used (returnClass vl cls) (tget 0 (s.port p).used (returnClass vl cls) - n)) 32
      (tget 0 (s.port p).used 32 - if vl = 0 then 0 else n - tget 0 (s.port p).used (returnClass vl cls)) } s) := rfl

theorem creditReturn_gives {p vl cls fl : Nat} {s : State} (hcls : cls < 6) :
    ∃ t, exec (.linkCreditReturn p vl cls fl) s = .next t ∧ PortOnly p s t
      ∧ ((s.port p).queue = [] →
          tget 0 (t.port p).used (returnClass vl cls) = tget 0 (s.port p).used (returnClass vl cls) - fl
          ∧ tget 0 (t.port p).used 32
              = tget 0 (s.port p).used 32 - (if vl = 0 then 0 else fl - tget 0 (s.port p).used (returnClass vl cls))) := by
  have hexec : exec (.linkCreditReturn p vl cls fl) s = .next (creditState p vl cls fl s) := rfl
  rw [hexec, creditState_eq]
  refine ⟨_, rfl, (portOnly_setPort p _ s).trans (pumpAll_only p _), fun hempty => ?_⟩
  rw [pumpAll_of_empty (by rw [setPort_port_same]; exact hempty), setPort_port_same]
  exact ⟨(tget_tset_other _ _ _ (returnClass_ne_shared hcls).symm).trans (tget_tset_same ..), tget_tset_same ..⟩

/-! ## What a link brings spoiled -/

/-- A spoiled packet is answered by a replay request from the first flit not accepted (R290). -/
theorem receiveState_of_spoiled {l : LinkIn} {k : Packet} {s : State}
    (h : let gap := (l.seqNo + 4096 - (s.port l.port).nextIn) % 4096
      l.bad = true ∨ (gap = 0 ∧ k.pcrc ≠ crc32c k.payload) ∨ (0 < gap ∧ gap < 2048)) :
    receiveState l k s = send (.linkReplay l.port (s.port l.port).nextIn)
      (if l.bad then bump (0x3100 + l.port) 9 1 64 (bump (0x3100 + l.port) 8 l.fixed 64 s)
        else bump (0x3100 + l.port) 8 l.fixed 64 s) := by
  cases hbad : l.bad with
  | true => simp [receiveState, hbad]
  | false =>
    obtain hspoiled | hspoiled := h.resolve_left (by simp [hbad])
    · simp [receiveState, hbad, hspoiled]
    · have hgap : ((l.seqNo + 4096 - (s.port l.port).nextIn) % 4096 != 0) = true := by simp; omega
      simp [receiveState, hbad, hspoiled.2.not_ge, hgap]

theorem forwardState_of_carries {l : LinkIn} {k : Packet} {s : State} (hup : s.dev.mainUp = true)
    (husable : (s.port l.port).usable = true) : forwardState (some l) k s = receiveState l k s := by
  simp [forwardState, hup, husable]

theorem spoiledPacketsAreAskedAgain : Claims.SpoiledPacketsAreAskedAgain := by
  intro l k s hup husable gap hspoiled
  have hkey : ck (0x3100 + l.port) 8 ≠ ck (0x3100 + l.port) 9 := by unfold ck; omega
  have hfixed : (bump (0x3100 + l.port) 8 l.fixed 64 s).counter (0x3100 + l.port) 9 = s.counter (0x3100 + l.port) 9 :=
    (bump_tget ..).trans (if_neg hkey)
  rw [exec_packetForward, forwardState_of_carries hup husable, receiveState_of_spoiled hspoiled]
  cases hbad : l.bad with
  | true =>
    refine ⟨_, rfl, rfl, rfl, ?_⟩
    have hcount := bump_counter_same (0x3100 + l.port) 9 1 64 (bump (0x3100 + l.port) 8 l.fixed 64 s)
    rw [hfixed] at hcount
    exact hcount
  | false => exact ⟨_, rfl, rfl, rfl, hfixed⟩

/-- Settles O15: the replay buffer is searched, released and refilled from its front, and a spoiled packet is asked for again. -/
theorem linkLevel : Obligations.LinkLevel := by
  refine ⟨fun p n s => ⟨fun pre w post hsplit hw hpre => ?_, fun habsent => ?_, fun u r => linkAck_releases, fun hnil => ?_,
    fun vl cls fl => creditReturn_gives⟩, spoiledPacketsAreAskedAgain⟩
  · have hexec : exec (.linkReplayRequest p n) s = .next (replayState p n s) := rfl
    rw [hexec, replayState_of_found hsplit hw hpre]
    exact ⟨_, rfl, rfl, bump_counter_same .., rfl⟩
  · exact congrArg Host.Outcome.next (replayState_of_absent habsent)
  · exact congrArg Host.Outcome.next (linkAckState_of_nil hnil)

/-! ## Training -/

theorem sends_resend (p : Nat) (l : List LinkWord) (s : State) : Sends s (resend p l s) := by
  cases l with
  | nil => exact Sends.refl s
  | cons w l => exact sends_send _ s

theorem portOnly_resend (p q : Nat) (l : List LinkWord) (s : State) : PortOnly q s (resend p l s) := by
  cases l with
  | nil => exact PortOnly.refl q s
  | cons w l => exact portOnly_send q _ s

/-- Lanes that come back: what trained, as far as the mask leaves it. -/
def goodLanes (p lanes : Nat) (s : State) : Nat := min (min lanes 4) (s.lanesAllowed p)

/-- A port that has trained, before its replay: UP with four lanes, DEGRADED, counted and logged with fewer (R298). -/
def trainedPort (p lanes : Nat) (s : State) : State :=
  let n := goodLanes p lanes s
  let s' := setPort p { s.port p with lanes := n, state := if n = 4 then 3 else 4 } s
  if n < 4 then bump (0x3100 + p) 0x0B 1 32 (logAdd 0x0501 5 (p / 12) p 0xFFFF [p, n, (s.port p).peerDev] s') else s'

theorem retrainUp_eq (p lanes : Nat) (s : State) :
    retrainUp p lanes s = pumpAll p (resend p (s.port p).replay (trainedPort p lanes s)) := rfl

theorem trainedPort_fab (p lanes : Nat) (s : State) : (trainedPort p lanes s).fab = (setPort p { s.port p with
    lanes := goodLanes p lanes s, state := if goodLanes p lanes s = 4 then 3 else 4 } s).fab := by
  unfold trainedPort
  dsimp only
  split
  · rw [bump_fab, logAdd_fab]
  · rfl

theorem trainedPort_port (p lanes : Nat) (s : State) (q : Nat) : (trainedPort p lanes s).port q =
    if p = q then { s.port p with lanes := goodLanes p lanes s, state := if goodLanes p lanes s = 4 then 3 else 4 }
    else s.port q := by
  rw [State.port, trainedPort_fab]
  exact setPort_port ..

theorem trainedPort_of_full {p lanes : Nat} {s : State} (h : goodLanes p lanes s = 4) :
    PortOnly p s (trainedPort p lanes s) := by
  rw [trainedPort, if_neg (by omega)]
  exact portOnly_setPort p _ s

theorem trainedPort_frame (p lanes : Nat) (s : State) :
    let t := trainedPort p lanes s
    t.regs = s.regs ∧ t.dev = s.dev ∧ t.mm = s.mm ∧ t.cores = s.cores ∧ t.sec = s.sec ∧ t.job.st = s.job.st := by
  unfold trainedPort
  dsimp only
  split <;> simp

theorem trainedPort_of_fewer {p lanes : Nat} {s : State} (h : goodLanes p lanes s < 4) :
    (trainedPort p lanes s).counter (0x3100 + p) 0x0B = satAdd 32 (s.counter (0x3100 + p) 0x0B) 1
      ∧ Logged 0x0501 [p, goodLanes p lanes s, (s.port p).peerDev] s (trainedPort p lanes s) := by
  rw [trainedPort, if_pos h]
  refine ⟨?_, Logged.congr (s := setPort p _ s) (logAdd_logged _ _ _ _ _ _ _) rfl rfl⟩
  have hkey : ck (0x3100 + p) 0x0B ≠ ck 0x1100 0x0A := by unfold ck; omega
  rw [bump_counter_same, State.counter, (logAdd_tells ..).counter _ hkey]
  rfl

/-- The facts that sending after training does not touch. -/
theorem FabricOnly.trained {s t : State} (h : FabricOnly s t) : t.regs = s.regs ∧ t.dev = s.dev ∧ t.mm = s.mm
    ∧ t.cores = s.cores ∧ t.sec = s.sec ∧ t.job.st = s.job.st ∧ t.log = s.log := by
  rw [h.1]
  exact ⟨rfl, rfl, rfl, rfl, rfl, rfl, rfl⟩

theorem PortOnly.counters {p : Nat} {s t : State} (h : PortOnly p s t) : t.counters = s.counters := by rw [h.2]

section
variable {p lanes : Nat} {s : State} (htrains : (s.port p).state = 2)
include htrains

theorem retrainState_of_known (hlanes : 0 < goodLanes p lanes s) (hpeer : (s.port p).peerDev ≠ 0xFFFF) :
    retrainState p lanes s = retrainUp p lanes s := by
  have hsome : min lanes (s.lanesAllowed p) ≠ 0 := by unfold goodLanes at hlanes; omega
  simp [retrainState, htrains, hsome, hpeer]

theorem retrainState_of_unknown (hlanes : 0 < goodLanes p lanes s) (hpeer : (s.port p).peerDev = 0xFFFF) :
    retrainState p lanes s = setPort p { s.port p with lanes := goodLanes p lanes s } s := by
  have hsome : min lanes (s.lanesAllowed p) ≠ 0 := by unfold goodLanes at hlanes; omega
  simp [retrainState, htrains, hsome, hpeer, goodLanes]

theorem retrainState_of_none (hlanes : goodLanes p lanes s = 0) : retrainState p lanes s = portDownState p s := by
  have hnone : min lanes (s.lanesAllowed p) = 0 := by unfold goodLanes at hlanes; omega
  simp [retrainState, htrains, hnone]

end

/-- Settles O16: what the training leaves is `trainedPort`; the replay and the packets that wait only send after it. -/
theorem retrainBringsPortUp : Obligations.RetrainBringsPortUp := by
  intro p lanes s htrains n
  refine ⟨fun hlanes hpeer => ?_, fun hlanes hpeer => ?_, fun hnone => ?_⟩
  · have hexec : exec (.retrainComplete p lanes) s = .next (retrainUp p lanes s) :=
      congrArg Host.Outcome.next (retrainState_of_known htrains hlanes hpeer)
    rw [hexec, retrainUp_eq]
    have hport := trainedPort_port p lanes s p
    rw [if_pos rfl] at hport
    have honly : PortOnly p (trainedPort p lanes s) (pumpAll p (resend p (s.port p).replay (trainedPort p lanes s))) :=
      (portOnly_resend p p _ _).trans (pumpAll_only p _)
    have hsends : Sends (trainedPort p lanes s) (pumpAll p (resend p (s.port p).replay (trainedPort p lanes s))) :=
      (sends_resend p _ _).trans (sends_pumpAll p _)
    obtain ⟨hregs, hdev, hmm, hcores, hsec, hjob⟩ := trainedPort_frame p lanes s
    obtain ⟨hregs', hdev', hmm', hcores', hsec', hjob', hlog'⟩ := hsends.only.trained
    refine ⟨_, rfl, ?_, ?_, ?_, fun hreplay => ?_, fun hfew => ?_, fun hfull => (trainedPort_of_full hfull).trans honly,
      hregs'.trans hregs, hdev'.trans hdev, hmm'.trans hmm, hcores'.trans hcores, hsec'.trans hsec, hjob'.trans hjob, ?_,
      fun q hq => ?_⟩
    · rw [hsends.port p, hport]; rfl
    · rw [hsends.state p, hport]; rfl
    · have hunacked := hsends.unacked p
      rw [hport] at hunacked
      exact (List.prefix_iff_eq_take.mp hunacked).symm
    · rw [resend_of_ne_nil p hreplay]
      exact (sends_pumpAll p _).tx.subset (List.mem_append_right _ (List.mem_singleton_self _))
    · obtain ⟨hcount, hlogged⟩ := trainedPort_of_fewer hfew
      exact ⟨by rw [State.counter, honly.counters]; exact hcount, hlogged.congr rfl hlog'⟩
    · rw [hsends.fab, trainedPort_fab]; rfl
    · rw [honly.1 q hq, trainedPort_port, if_neg hq.symm]
  · have hexec : exec (.retrainComplete p lanes) s = .next (setPort p { s.port p with lanes := goodLanes p lanes s } s) :=
      congrArg Host.Outcome.next (retrainState_of_unknown htrains hlanes hpeer)
    exact ⟨_, hexec, portOnly_setPort p _ s, setPort_port_same ..⟩
  · exact congrArg Host.Outcome.next (retrainState_of_none htrains hnone)

/-! ## The end of training -/

/-- The fabric once a rebuilding has ended. -/
def rebuilt (s : State) : State :=
  if s.fab.rebuilding then announceAll { s with fab := { s.fab with rebuilding := false } } else s

theorem settleFabric_eq (s : State) : settleFabric s = if s.portsTrain then s
    else if (rebuilt s).fab.waking then setDev .ready { rebuilt s with fab := { (rebuilt s).fab with waking := false } }
    else rebuilt s := rfl

/-- What the end of a rebuilding may change: the fabric's, and of the ports what sending may. -/
theorem rebuilt_sends (s : State) :
    Sends { s with fab := { s.fab with rebuilding := (rebuilt s).fab.rebuilding } } (rebuilt s) := by
  unfold rebuilt
  split
  · have hsends := sends_announceAll { s with fab := { s.fab with rebuilding := false } }
    have hflag : (announceAll { s with fab := { s.fab with rebuilding := false } }).fab.rebuilding = false := by
      rw [hsends.fab]
    rw [hflag]
    exact hsends
  · exact Sends.refl s

theorem rebuilt_only (s : State) : FabricOnly s (rebuilt s) :=
  FabricOnly.trans (t := { s with fab := { s.fab with rebuilding := (rebuilt s).fab.rebuilding } }) ⟨rfl, fun _ _ => rfl⟩
    (rebuilt_sends s).only

theorem rebuilt_waking (s : State) : (rebuilt s).fab.waking = s.fab.waking := by rw [(rebuilt_sends s).fab]

theorem rebuilt_port (s : State) (p : Nat) : (rebuilt s).port p = { s.port p with
    queue := ((rebuilt s).port p).queue, unacked := ((rebuilt s).port p).unacked, nextSeq := ((rebuilt s).port p).nextSeq
    used := ((rebuilt s).port p).used, held := ((rebuilt s).port p).held, lastBulk := ((rebuilt s).port p).lastBulk } :=
  (rebuilt_sends s).port p

theorem settleFabric_port (s : State) (p : Nat) : (settleFabric s).port p = { s.port p with
    queue := ((settleFabric s).port p).queue, unacked := ((settleFabric s).port p).unacked
    nextSeq := ((settleFabric s).port p).nextSeq, used := ((settleFabric s).port p).used
    held := ((settleFabric s).port p).held, lastBulk := ((settleFabric s).port p).lastBulk } := by
  rw [settleFabric_eq]
  split
  · rfl
  · split
    · rw [State.port, setDev_fab]
      exact rebuilt_port s p
    · exact rebuilt_port s p

theorem settleFabric_only {s : State} (h : s.fab.waking = false) : FabricOnly s (settleFabric s) := by
  rw [settleFabric_eq, rebuilt_waking, h]
  split
  · exact FabricOnly.refl s
  · exact rebuilt_only s

/-- The last port of a wake that has trained ends it in READY (Table 12.8, order 5). -/
theorem settleFabric_of_woken {s : State} (h : s.fab.waking = true) (htrain : s.portsTrain = false) :
    (settleFabric s).dev.st = .ready := by
  rw [settleFabric_eq, rebuilt_waking, htrain, h]
  exact congrArg Dev.st (setDev_dev ..)

theorem portsTrain_eq_false {s : State} (h : ∀ p < 48, (s.port p).state ≠ 2) : s.portsTrain = false := by
  simpa [State.portsTrain] using h

/-! ## Identities -/

/-- The lanes of a port that meets its peer, and the state its identity gives it (R303). -/
def metLanes (s : State) (p : Nat) : Nat := if (s.port p).lanes = 0 then s.lanesAllowed p else (s.port p).lanes
def metState (s : State) (p : Nat) (id : Identity) : Nat := if metLanes s p = 0 then 1 else identityState s p id

/-- A port that has met its peer. -/
def metPort (s : State) (p : Nat) (id : Identity) : Port := { s.port p with
  peerDev := id.dev, peerPort := id.port, lanes := metLanes s p
  state := if metState s p id = 3 && metLanes s p < 4 then 4 else metState s p id }

theorem identityExchangeState_of_met {s : State} {p : Nat} (id : Identity) (h : (s.port p).state = 2 ∨ (s.port p).state = 3
    ∨ (s.port p).state = 4 ∨ (s.port p).state = 6 ∨ (s.port p).state = 7) : identityExchangeState p id s
      = settleFabric (announceOne p (metState s p id == 3) (setPort p (metPort s p id) s)) := by
  have hmet : (s.port p).state = 2 ∨ (s.port p).usable ∨ (s.port p).state = 6 ∨ (s.port p).state = 7 := by
    simp only [Port.usable, Bool.or_eq_true, beq_iff_eq]
    tauto
  exact if_pos hmet

theorem identityState_ne_two (s : State) (p : Nat) (id : Identity) : identityState s p id ≠ 2 := by
  unfold identityState
  split
  · decide
  · dsimp only; split_ifs <;> decide

theorem metState_ne_two (s : State) (p : Nat) (id : Identity) : metState s p id ≠ 2 := by
  unfold metState
  split
  · decide
  · exact identityState_ne_two s p id

theorem metPort_state_ne_two (s : State) (p : Nat) (id : Identity) : (metPort s p id).state ≠ 2 := by
  unfold metPort
  dsimp only
  split
  · decide
  · exact metState_ne_two s p id

section
variable {s : State} {p dim d : Nat} {id : Identity} (hrole : s.roleOf p = some (dim, d))
include hrole

theorem identityState_of_mismatch
    (h : id.nq7 = false ∨ id.mode ≠ s.fab.cabling ∨ id.ny ≠ s.fab.nY ∨ id.nz ≠ s.fab.nZ) : identityState s p id = 7 := by
  have hbad : (!id.nq7 || id.mode != s.fab.cabling || id.ny != s.fab.nY || id.nz != s.fab.nZ) = true := by
    simp only [Bool.or_eq_true, Bool.not_eq_true', bne_iff_ne]
    tauto
  simp [identityState, hrole, hbad]

theorem identityState_of_misplaced (hid : s.fabId ≠ 0xFFFF)
    (hnq : id.nq7 = true) (hmode : id.mode = s.fab.cabling) (hny : id.ny = s.fab.nY) (hnz : id.nz = s.fab.nZ)
    (h : id.dev ≠ withCoord s.fabId dim ((coordOf s.fabId dim + d) % s.dimSize dim)
      ∨ (id.port < 45 ∧ id.port ≠ 3 * (15 - d) + dim)) : identityState s p id = 6 := by
  have hsub : 16 - d - 1 = 15 - d := by omega
  simp [identityState, hrole, hnq, hmode, hny, hnz, hid, hsub, h]

theorem identityState_of_placed
    (hnq : id.nq7 = true) (hmode : id.mode = s.fab.cabling) (hny : id.ny = s.fab.nY) (hnz : id.nz = s.fab.nZ)
    (hdev : id.dev = withCoord s.fabId dim ((coordOf s.fabId dim + d) % s.dimSize dim))
    (hport : id.port = 3 * (15 - d) + dim) : identityState s p id = 3 := by
  have hsub : 16 - d - 1 = 15 - d := by omega
  simp [identityState, hrole, hnq, hmode, hny, hnz, hsub, hdev, hport]

end

/-- Settles O19: a port that meets its peer is `metPort`; announcing it and what settles after it leave its peer, its lanes and its
state. -/
theorem identityDecidesPort : Obligations.IdentityDecidesPort := by
  intro p dim d id s hrole hstate
  have hexec : exec (.identityExchange p id) s = .next (identityExchangeState p id s) := rfl
  rw [hexec, identityExchangeState_of_met id hstate]
  generalize hm : setPort p (metPort s p id) s = m
  have hmport : m.port p = metPort s p id := by rw [← hm, setPort_port_same]
  have hmfab : m.fab.waking = s.fab.waking := by rw [← hm]; rfl
  generalize ha : announceOne p (metState s p id == 3) m = a
  have hsends : Sends m a := ha ▸ sends_announceOne p _ m
  have hwaking : a.fab.waking = s.fab.waking := by rw [hsends.fab, ← hmfab]
  have hport (q : Nat) := settleFabric_port a q
  have hstate : ((settleFabric a).port p).state = (metPort s p id).state := by rw [hport, hsends.port, hmport]
  have hlanes : ((settleFabric a).port p).lanes = metLanes s p := by rw [hport, hsends.port, hmport]; rfl
  have hstate' (h : metLanes s p ≠ 0) : ((settleFabric a).port p).state
      = if identityState s p id = 3 ∧ metLanes s p < 4 then 4 else identityState s p id := by
    rw [hstate]
    simp [metPort, metState, h]
  refine ⟨_, rfl, fun hidle => ?_, fun hwake hothers => ?_, ?_, ?_, fun hzero hmask => ?_, fun hsome => ?_⟩
  · refine FabricOnly.trans ?_ (settleFabric_only (hwaking.trans hidle))
    exact (hm ▸ fabricOnly_setPort p _ s).trans hsends.only
  · refine settleFabric_of_woken (hwaking.trans hwake) (portsTrain_eq_false fun q _ => ?_)
    rw [hsends.state q, ← hm, setPort_port]
    split
    · exact metPort_state_ne_two s p id
    · next hq => exact hothers q (Ne.symm hq)
  · rw [hport, hsends.port, hmport]; rfl
  · rw [hport, hsends.port, hmport]; rfl
  · rw [hstate]
    simp [metPort, metState, metLanes, hzero, hmask]
  · have hmet : metLanes s p ≠ 0 := by unfold metLanes; split <;> omega
    refine ⟨fun hbad => ?_, fun hnq hmode hny hnz hid => ⟨fun hdev => ?_, fun _ hlow hplace => ?_, fun hdev hplace => ?_⟩⟩ <;>
      rw [hstate' hmet]
    · rw [identityState_of_mismatch hrole hbad]; rfl
    · rw [identityState_of_misplaced hrole hid hnq hmode hny hnz (.inl hdev)]; rfl
    · rw [identityState_of_misplaced hrole hid hnq hmode hny hnz (.inr ⟨hlow, hplace⟩)]; rfl
    · rw [identityState_of_placed hrole hnq hmode hny hnz hdev hplace, hlanes]
      simp

end Sys2Proof.Machine
end
section
/-! Requests of the dictionary. What an accepted request is carried out in, what its close leaves of sessions,
subscriptions and holds, and what READ, READ_BLOCK, WRITE and WRITE_BLOCK answer (R346 to R354, R357). -/

namespace Sys2Proof.Machine

/-! ## The state of an accepted request -/

/-- The session an accepted request is carried out for: it has taken the sequence number. -/
def reqSession (h : EdpHdr) (x : Session) (s : State) : Session :=
  acceptedSession h x (setSession { x with tagged := true } s)

theorem length_sessions_atRequest (h : EdpHdr) (x : Session) (s : State) :
    (atRequest h x s).edp.sessions.length = s.edp.sessions.length := by
  simp [atRequest]

theorem valProtocol_atRequest (h : EdpHdr) (x : Session) (s : State) (sub : Nat) :
    valProtocol (atRequest h x s) sub = valProtocol s sub := by
  unfold valProtocol
  rw [length_sessions_atRequest]
  rfl

theorem valFabric_atRequest (h : EdpHdr) (x : Session) (s : State) (idx sub : Nat) :
    valFabric (atRequest h x s) idx sub = valFabric s idx sub := by
  have hid : (atRequest h x s).devId = s.devId := rfl
  have hport (p k : Nat) : portValue (atRequest h x s) p k = portValue s p k := rfl
  have hcounter : (atRequest h x s).counter = s.counter := rfl
  unfold valFabric
  rw [hid, hport, hcounter]
  rfl

/-- Taking a request changes no value of the dictionary. -/
theorem entryValue_atRequest (h : EdpHdr) (x : Session) (s : State) (idx sub : Nat) :
    entryValue (atRequest h x s) (some (reqSession h x s)) idx sub = entryValue s (some x) idx sub := by
  have hsubscription (k : Nat) : valSubscription (atRequest h x s) k sub = valSubscription s k sub := rfl
  have hidentity : valIdentity (atRequest h x s) idx sub = valIdentity s idx sub := rfl
  unfold entryValue
  split
  next => rw [valProtocol_atRequest, hsubscription, hidentity]
  next => rfl
  next => exact valFabric_atRequest h x s idx sub
  all_goals rfl

theorem readRule_atRequest (h : EdpHdr) (x : Session) (s : State) (idx sub : Nat) (e : Entry) :
    readRule (atRequest h x s) (some (reqSession h x s)) idx sub e = readRule s (some x) idx sub e := rfl

theorem session_sid {s : State} {i : BitVec 32} {x : Session} (h : s.session i = some x) : x.sid = i := by
  have := List.find?_some h
  simpa using this

theorem Accepts.sid {h : EdpHdr} {b : EdpBody} {n : Nat} {x : Session} {s : State} (w : Accepts h b n x s) :
    x.sid = h.session := session_sid w.found

/-- An accepted message: what it answers and leaves, by what its request gives. -/
theorem serve_post {h : EdpHdr} {body : EdpBody} {x : Session} {s : State} (w : Accepts h body (bodySize body) x s)
    (act : Option Session → State → Served) {a : Ack} {u : State} {cl : List (BitVec 32)}
    (hact : act (some (reqSession h x s)) (atRequest h x s) = (a, u, cl)) :
    Acked h a (serve h body act s) ∧ Leaves h u (serve h body act s) := by
  rw [serve_accepts w, show acceptedSession h x _ = reqSession h x s from rfl, hact]
  exact ⟨finishRequest_acked h body (a, u, cl), finishRequest_leaves h body (a, u, cl)⟩

/-! ## Reading -/

section
variable {h : EdpHdr} {x : Session} {s : State} {idx sub off len : Nat} {e : Entry}

theorem readAct_of_none {lim : Nat} {y : Option Session} {t : State} (he : entryOf idx sub = none) :
    readAct idx sub lim y t = answer ACCESS_DENIED idx sub 0 t := by
  simp [readAct, he]

theorem readAct_of_wo {lim : Nat} {y : Option Session} {t : State} (he : entryOf idx sub = some e) (hacc : e.acc = .wo) :
    readAct idx sub lim y t = answer ACCESS_DENIED idx sub 0 t := by
  simp [readAct, he, hacc]

theorem readAct_of_ok {lim : Nat} {y : Option Session} {t : State} (he : entryOf idx sub = some e) (hacc : e.acc ≠ .wo)
    (hfits : tooLong lim e (entryValue t y idx sub) = false) (hrule : readRule t y idx sub e = OK) :
    readAct idx sub lim y t = (⟨OK, idx, sub, e.ty, readAux t idx sub, entryValue t y idx sub⟩, t, []) := by
  simp [readAct, he, hacc, hfits, hrule]

theorem readBlockAct_of_ok {lim : Nat} {y : Option Session} {t : State} (he : entryOf idx sub = some e)
    (hacc : e.acc ≠ .wo) (hpos : 0 < len) (hfits : len + 16 ≤ lim) (hrule : readRule t y idx sub e = OK) :
    readBlockAct idx sub off len lim y t
      = (⟨OK, idx, sub, e.ty, (entryValue t y idx sub).length * 2 ^ 32 + entryVersion t y idx sub,
          ((entryValue t y idx sub).drop off).take len⟩, t, []) := by
  have hlen : ¬ (len = 0 || decide (lim - 16 < len)) = true := by simp; omega
  simp only [readBlockAct, he, if_neg hacc, if_neg hlen, if_pos hrule]

end

/-- Settles O22: READ and READ_BLOCK answer what `readAct` and `readBlockAct` give in the state that has taken the request,
which shows the values of the state before. -/
theorem readsAnswerTheValue : Obligations.ReadsAnswerTheValue := by
  intro h x s idx sub off len
  have leaves {t : State} (hl : Leaves h (atRequest h x s) t) : Leaves h s t := (Leaves.of_eq rfl).trans hl
  refine ⟨fun w e he hacc hrule hfits => ?_, fun w e he hacc hrule hpos hlen => ?_, fun w hwo => ?_⟩
  · obtain ⟨hack, hleaves⟩ := serve_post w (readAct idx sub (bodyLimit h.transport)) (readAct_of_ok he hacc
      (by rw [entryValue_atRequest]; exact hfits) (by rw [readRule_atRequest]; exact hrule))
    rw [entryValue_atRequest] at hack
    exact ⟨_, rfl, leaves hleaves, hack⟩
  · obtain ⟨hack, hleaves⟩ := serve_post w (readBlockAct idx sub off len (bodyLimit h.transport))
      (readBlockAct_of_ok he hacc hpos hlen (by rw [readRule_atRequest]; exact hrule))
    rw [entryValue_atRequest] at hack
    exact ⟨_, _, rfl, leaves hleaves, hack⟩
  · have hact : readAct idx sub (bodyLimit h.transport) (some (reqSession h x s)) (atRequest h x s)
        = answer ACCESS_DENIED idx sub 0 (atRequest h x s) := by
      cases he : entryOf idx sub with
      | none => exact readAct_of_none he
      | some e => exact readAct_of_wo he (hwo e he)
    obtain ⟨hack, hleaves⟩ := serve_post w (readAct idx sub (bodyLimit h.transport)) hact
    exact ⟨_, rfl, leaves hleaves, hack⟩

/-! ## The entries of the dictionary -/

/-- The rows of the entries that come one at a time. -/
def plainRows : List (Nat × Nat × Entry) := rows1 ++ rows2 ++ rows3 ++ rows4 ++ rows5 ++ rows6

/-- An entry stands in the tables, or in one of the objects that come in numbers. -/
theorem entryOf_cases {idx sub : Nat} {e : Entry} (he : entryOf idx sub = some e) :
    (idx, sub, e) ∈ plainRows
      ∨ (0x1800 ≤ idx ∧ idx < 0x1820) ∨ (0x3100 ≤ idx ∧ idx < 0x3130) ∨ (0x5400 ≤ idx ∧ idx < 0x5440)
      ∨ (0x8020 ≤ idx ∧ idx < 0x8040) ∨ (idx = 0x9000 ∧ 0x10 ≤ sub) ∨ (idx = 0x9200 ∧ 0x10 ≤ sub) := by
  by_cases hs : 0x1800 ≤ idx ∧ idx < 0x1820
  · exact .inr (.inl hs)
  by_cases hp : 0x3100 ≤ idx ∧ idx < 0x3130
  · exact .inr (.inr (.inl hp))
  by_cases hr : 0x5400 ≤ idx ∧ idx < 0x5440
  · exact .inr (.inr (.inr (.inl hr)))
  by_cases hk : 0x8020 ≤ idx ∧ idx < 0x8040
  · exact .inr (.inr (.inr (.inr (.inl hk))))
  by_cases hh : idx = 0x9000 ∧ 0x10 ≤ sub
  · exact .inr (.inr (.inr (.inr (.inr (.inl hh)))))
  by_cases hc : idx = 0x9200 ∧ 0x10 ≤ sub
  · exact .inr (.inr (.inr (.inr (.inr (.inr hc)))))
  left
  unfold entryOf at he
  rw [if_neg hs, if_neg hp, if_neg hr, if_neg hk, if_neg hh, if_neg hc] at he
  obtain ⟨⟨i, k, e'⟩, hfound, rfl⟩ := Option.map_eq_some_iff.1 he
  have hkey := List.find?_some hfound
  simp only [Bool.and_eq_true, beq_iff_eq] at hkey
  obtain ⟨rfl, rfl⟩ := hkey
  exact List.mem_of_find?_eq_some hfound

set_option maxRecDepth 4000 in
/-- The write-only rows of the tables: the entries that are commands. -/
theorem plainRows_wo : ∀ r ∈ plainRows, (r.1 = 0x1100 ∧ r.2.1 = 0x12) ∨ (r.1 = 0x2200 ∧ r.2.1 = 1)
    ∨ (r.1 = 0x3000 ∧ r.2.1 = 8) ∨ (r.1 = 0x5001 ∧ r.2.1 = 1) ∨ r.1 = 0x7000 ∨ (r.1 = 0x8010 ∧ r.2.1 = 1)
    ∨ (r.1 = 0xA000 ∧ r.2.1 = 7) ∨ r.1 = 0x8001 ∨ (r.1 = 0x5010 ∧ r.2.1 = 1) → r.2.2.acc = .wo := by decide

theorem slotE_four {idx : Nat} {e : Entry} (hidx : 0x5400 ≤ idx ∧ idx < 0x5440) (he : entryOf idx 4 = some e) : e.acc = .wo := by
  obtain ⟨k, rfl⟩ := Nat.exists_eq_add_of_le hidx.1
  rw [entryOf_slotConsume (by omega)] at he
  cases he
  rfl

/-- An entry with a value of its own is none of the entries that are commands. -/
theorem entryEffect_of_stored {idx sub : Nat} {e : Entry} (he : entryOf idx sub = some e) (hacc : e.acc ≠ .wo)
    (val : Bytes) (x : Session) (s : State) :
    entryEffect idx sub val x s = (OK, if 0x3100 ≤ idx ∧ idx < 0x3130 ∧ sub = 7 then laneMaskState (idx - 0x3100) val s
      else storeEntry idx sub val s, []) := by
  have hslot : ¬ (0x5400 ≤ idx ∧ idx < 0x5440 ∧ sub = 4) := by
    rintro ⟨h1, h2, rfl⟩
    exact hacc (slotE_four ⟨h1, h2⟩ he)
  have hrow := entryOf_cases he
  have hplain : (idx, sub, e) ∈ plainRows → _ := fun hmem => mt (plainRows_wo _ hmem) hacc
  unfold entryEffect
  split_ifs <;> grind

/-- No entry with a value of its own is written by a command of its own. -/
theorem ownCommand_of_stored {idx sub ty : Nat} {val : Bytes} {e : Entry} (he : entryOf idx sub = some e)
    (hacc : e.acc ≠ .wo) : ownCommand (.write idx sub ty val) = false := by
  have hrow := entryOf_cases he
  have hplain : (idx, sub, e) ∈ plainRows → _ := fun hmem => mt (plainRows_wo _ hmem) hacc
  simp only [ownCommand, Bool.or_eq_false_iff, Bool.and_eq_false_iff, beq_eq_false_iff_ne]
  grind

theorem ownCommand_block_of_stored {idx sub ty off total : Nat} {final : Bool} {data : Bytes} {e : Entry}
    (he : entryOf idx sub = some e) (hacc : e.acc ≠ .wo) :
    ownCommand (.writeBlock idx sub ty off total final data) = false := by
  have hrow := entryOf_cases he
  have hplain : (idx, sub, e) ∈ plainRows → _ := fun hmem => mt (plainRows_wo _ hmem) hacc
  have hhello : ¬ (idx = 0x1100 ∧ sub = 0x10) := by
    rintro ⟨rfl, rfl⟩
    rw [show entryOf 0x1100 0x10 = some (woE tOCTETS) from rfl] at he
    cases he
    exact hacc rfl
  simp only [ownCommand, Bool.or_eq_false_iff, Bool.and_eq_false_iff, beq_eq_false_iff_ne]
  grind

/-! ## Storing a value -/

/-- What a write of a stored entry leaves. -/
def storedState (idx sub : Nat) (val : Bytes) (s : State) : State :=
  if 0x3100 ≤ idx ∧ idx < 0x3130 ∧ sub = 7 then laneMaskState (idx - 0x3100) val s else storeEntry idx sub val s

theorem storeEntry_body (idx sub : Nat) (val : Bytes) (s : State) :
    (storeEntry idx sub val s).body = { s with
      regs := putReg idx sub val s.regs
      eff := if deferred idx = true ∧ s.job.st.live = true then s.eff else putReg idx sub val s.eff }.body := by
  simp only [storeEntry, State.body, Bool.and_eq_true]

/-- A port that retrains under a new mask: one that carries traffic, or one that is down while the fabric has power. -/
def State.maskRetrains (s : State) (p : Nat) : Prop :=
  (s.port p).usable = true ∨ ((s.port p).state = 1 ∧ s.dev.mainUp = true ∧ s.dev.st ≠ .sleep)

section
variable {p : Nat} {val : Bytes} {s : State}

theorem laneMaskState_of_retrains (h : s.maskRetrains p) : laneMaskState p val s
    = send (.retrain p) (setPort p { s.port p with state := 2 } (storeEntry (0x3100 + p) 7 val s)) := by
  have hport : (storeEntry (0x3100 + p) 7 val s).port p = s.port p := rfl
  have hdev : (storeEntry (0x3100 + p) 7 val s).dev = s.dev := rfl
  unfold laneMaskState laneFailureState
  simp only [hport, hdev]
  rcases h with husable | ⟨hstate, hup, hawake⟩
  · rw [if_pos husable, ite_self]
  · rw [if_pos (by simp [hstate, hup, hawake])]

theorem laneMaskState_of_not (h : ¬ s.maskRetrains p) : laneMaskState p val s = storeEntry (0x3100 + p) 7 val s := by
  have hport : (storeEntry (0x3100 + p) 7 val s).port p = s.port p := rfl
  have hdev : (storeEntry (0x3100 + p) 7 val s).dev = s.dev := rfl
  rw [State.maskRetrains, not_or] at h
  unfold laneMaskState laneFailureState
  simp only [hport, hdev]
  rw [if_neg (by simpa using h.2), if_neg h.1]

end

/-- Storing a lane mask changes the register, and the port it is for. -/
theorem laneMaskState_body (p : Nat) (val : Bytes) (s : State) :
    (laneMaskState p val s).body
      = { storeEntry (0x3100 + p) 7 val s with fab := (laneMaskState p val s).fab }.body := by
  by_cases h : s.maskRetrains p
  · rw [laneMaskState_of_retrains h]; rfl
  · rw [laneMaskState_of_not h]

theorem laneMaskState_edp (p : Nat) (val : Bytes) (s : State) : (laneMaskState p val s).edp = s.edp := by
  by_cases h : s.maskRetrains p
  · rw [laneMaskState_of_retrains h]; rfl
  · rw [laneMaskState_of_not h]; rfl

theorem laneMaskState_port_other {p q : Nat} (hq : q ≠ p) (val : Bytes) (s : State) :
    (laneMaskState p val s).port q = s.port q := by
  by_cases h : s.maskRetrains p
  · rw [laneMaskState_of_retrains h]
    exact (setPort_port p q _ _).trans (if_neg hq.symm)
  · rw [laneMaskState_of_not h]; rfl

theorem laneMaskState_port_same {p : Nat} {s : State} (h : s.maskRetrains p) (val : Bytes) :
    (laneMaskState p val s).port p = { s.port p with state := 2 } := by
  rw [laneMaskState_of_retrains h]
  exact setPort_port_same p _ _

theorem storedState_of_mask {p : Nat} (hp : p < 48) (val : Bytes) (s : State) :
    storedState (0x3100 + p) 7 val s = laneMaskState p val s := by
  rw [storedState, if_pos (by omega), Nat.add_sub_cancel_left]

theorem storedState_of_plain {idx sub : Nat} (h : ¬ (0x3100 ≤ idx ∧ idx < 0x3130 ∧ sub = 7)) (val : Bytes) (s : State) :
    storedState idx sub val s = storeEntry idx sub val s := by
  rw [storedState, if_neg h]

/-- Storing a value beside any bookkeeping of the protocol. -/
theorem storedState_stored (idx sub : Nat) (val : Bytes) (s : State) (b : Edp) :
    Claims.Stored idx sub val s (storedState idx sub val { s with edp := b }) := by
  by_cases hmask : 0x3100 ≤ idx ∧ idx < 0x3130 ∧ sub = 7
  · obtain ⟨h1, h2, rfl⟩ := hmask
    obtain ⟨p, rfl⟩ := Nat.exists_eq_add_of_le h1
    rw [storedState_of_mask (by omega)]
    refine ⟨?_, fun h => absurd ⟨h1, h2, rfl⟩ h, fun q hq hqp _ => ?_⟩
    · rw [laneMaskState_body]
      have hbody := storeEntry_body (0x3100 + p) 7 val s
      exact congrArg (fun t : State => { t with fab := (laneMaskState p val { s with edp := b }).fab }) hbody
    · obtain rfl : p = q := by omega
      exact ⟨fun r hr => laneMaskState_port_other hr val _, fun h => laneMaskState_port_same (s := { s with edp := b }) h val⟩
  · rw [storedState_of_plain hmask]
    refine ⟨storeEntry_body idx sub val s, fun _ => rfl, fun p hp hidx hsub => ?_⟩
    exact absurd ⟨by omega, by omega, hsub⟩ hmask

theorem storedState_edp (idx sub : Nat) (val : Bytes) (s : State) : (storedState idx sub val s).edp = s.edp := by
  unfold storedState
  split_ifs
  · exact laneMaskState_edp _ val s
  · rfl

/-! ## The checks of a write -/

section
variable {idx sub ty : Nat} {val : Bytes} {eff : Session → State → Nat × State × List (BitVec 32)} {x : Session} {s : State}

theorem writeWith_of_class (h : writeClass s x idx sub ≠ OK) :
    writeWith idx sub ty val eff (some x) s = answer (writeClass s x idx sub) idx sub ty s := by
  simp [writeWith, h]

theorem writeWith_of_value (h : writeClass s x idx sub = OK) (hval : valueOk idx sub ty val = false) :
    writeWith idx sub ty val eff (some x) s = answer TYPE_MISMATCH idx sub ty s := by
  simp [writeWith, h, hval]

theorem writeWith_of_held (h : writeClass s x idx sub = OK) (hval : valueOk idx sub ty val = true)
    (hheld : s.heldElse x idx sub = true) : writeWith idx sub ty val eff (some x) s = answer BUSY idx sub ty s := by
  simp [writeWith, h, hval, hheld]

theorem writeWith_of_rule (h : writeClass s x idx sub = OK) (hval : valueOk idx sub ty val = true)
    (hheld : s.heldElse x idx sub = false) (hrule : ownRule s idx sub val ≠ OK) :
    writeWith idx sub ty val eff (some x) s = answer (ownRule s idx sub val) idx sub ty s := by
  simp [writeWith, h, hval, hheld, hrule]

end

section
variable {idx sub : Nat} {x : Session} {s : State} {e : Entry} (he : entryOf idx sub = some e)
include he

/-- A controller may write an entry whose class lets it be written in the present state. -/
theorem writeClass_of_written (hright : x.right = 1)
    (hacc : e.acc = .rw ∨ (e.acc = .rws ∧ s.dev.st = .standby) ∨ (e.acc = .wo ∧ ¬ (idx = 0x1100 ∧ sub = 0x10))) :
    writeClass s x idx sub = OK := by
  rcases hacc with hacc | ⟨hacc, hst⟩ | ⟨hacc, hne⟩
  · simp [writeClass, he, hright, hacc]
  · simp [writeClass, he, hright, hacc, hst]
  · simp [writeClass, he, hright, hacc, hne]

theorem writeClass_of_readOnly (hacc : e.acc = .ro ∨ e.acc = .const_) : writeClass s x idx sub = ACCESS_DENIED := by
  rcases hacc with hacc | hacc <;> simp [writeClass, he, hacc]

theorem writeClass_of_running (hright : x.right = 1) (hacc : e.acc = .rws) (hst : s.dev.st ≠ .standby) :
    writeClass s x idx sub = BUSY := by
  simp [writeClass, he, hright, hacc, hst]

end

theorem writeClass_of_none {idx sub : Nat} {x : Session} {s : State} (he : entryOf idx sub = none) :
    writeClass s x idx sub = ACCESS_DENIED := by
  simp [writeClass, he]

theorem writeClass_of_observer {idx sub : Nat} {x : Session} {s : State} (hright : x.right = 0) :
    writeClass s x idx sub = ACCESS_DENIED := by
  cases he : entryOf idx sub with
  | none => exact writeClass_of_none he
  | some e => simp [writeClass, he, hright]

/-- A WRITE that has no command of its own is carried out by its entry's effect. -/
theorem exec_writeEntry {h : EdpHdr} {idx sub ty : Nat} {val : Bytes} {s : State}
    (hown : ownCommand (.write idx sub ty val) = false) : exec (.writeEntry h idx sub ty val) s
      = .next (serve h (.write idx sub ty val) (writeWith idx sub ty val (entryEffect idx sub val)) s) := by
  have hord : ordinary h (.write idx sub ty val) s
      = serve h (.write idx sub ty val) (writeWith idx sub ty val (entryEffect idx sub val)) s := by
    simp only [ordinary, hown, Bool.false_and, Bool.false_eq_true, if_false]
    rfl
  rw [← hord]
  rfl

/-- An accepted WRITE that is refused answers its code and changes nothing. -/
theorem exec_writeEntry_of_refused {h : EdpHdr} {idx sub ty code : Nat} {val : Bytes} {x : Session} {s : State}
    (w : Accepts h (.write idx sub ty val) (4 + val.length) x s) (hown : ownCommand (.write idx sub ty val) = false)
    (hact : writeWith idx sub ty val (entryEffect idx sub val) (some (reqSession h x s)) (atRequest h x s)
      = answer code idx sub ty (atRequest h x s)) :
    ∃ t, exec (.writeEntry h idx sub ty val) s = .next t ∧ Acked h (statusAck code idx sub ty) t ∧ Leaves h s t := by
  obtain ⟨hack, hleaves⟩ := serve_post w _ hact
  exact ⟨_, exec_writeEntry hown, hack, (Leaves.of_eq rfl).trans hleaves⟩

theorem writesCheckInOrder : Claims.WritesCheckInOrder := by
  intro h x s idx sub ty val w hown
  refine ⟨fun he => ?_, fun hr => ?_, fun e he hacc => ?_, fun e he hr hacc hst => ?_, fun e he hr hacc hval => ?_,
    fun e he hr hacc hval hheld => ?_, fun e he hr hacc hval hheld hrule => ?_⟩
  all_goals apply exec_writeEntry_of_refused w hown
  case refine_1 => rw [writeWith_of_class, writeClass_of_none he]; rw [writeClass_of_none he]; decide
  case refine_2 =>
    have hclass := writeClass_of_observer (idx := idx) (sub := sub) (s := atRequest h x s)
      (show (reqSession h x s).right = 0 from hr)
    rw [writeWith_of_class, hclass]; rw [hclass]; decide
  case refine_3 => rw [writeWith_of_class, writeClass_of_readOnly he hacc]; rw [writeClass_of_readOnly he hacc]; decide
  case refine_4 =>
    have hclass := writeClass_of_running (x := reqSession h x s) (s := atRequest h x s) he hr hacc hst
    rw [writeWith_of_class, hclass]; rw [hclass]; decide
  all_goals
    have hclass : writeClass (atRequest h x s) (reqSession h x s) idx sub = OK :=
      writeClass_of_written he hr (hacc.imp_right .inr)
  case refine_5 => exact writeWith_of_value hclass hval
  case refine_6 => exact writeWith_of_held hclass hval hheld
  case refine_7 => exact writeWith_of_rule hclass hval hheld hrule

/-! ## What the close of a request leaves of the protocol's own records -/

theorem sendAck_edp (h : EdpHdr) (a : Ack) (s : State) : (sendAck h a s).edp = s.edp := by
  rw [(sendAck_only h a s).1]

theorem sendAck_mm (h : EdpHdr) (a : Ack) (s : State) : (sendAck h a s).mm = s.mm := by
  rw [(sendAck_only h a s).1]

@[simp] theorem returnPages_edp (s : State) : (returnPages s).edp = s.edp := by unfold returnPages; split <;> rfl

theorem returnPages_of_held {s : State} {d : Hold} (h : s.hold? 0x5010 1 = some d) : returnPages s = s := by
  simp [returnPages, h]

@[simp] theorem cacheAck_subs (h : EdpHdr) (b : EdpBody) (a : Ack) (s : State) : (cacheAck h b a s).edp.subs = s.edp.subs := by
  unfold cacheAck; split <;> rfl

@[simp] theorem cacheAck_holds (h : EdpHdr) (b : EdpBody) (a : Ack) (s : State) :
    (cacheAck h b a s).edp.holds = s.edp.holds := by
  unfold cacheAck; split <;> rfl

@[simp] theorem cacheAck_mm (h : EdpHdr) (b : EdpBody) (a : Ack) (s : State) : (cacheAck h b a s).mm = s.mm := by
  unfold cacheAck; split <;> rfl

theorem lastSeq_of_more {h : EdpHdr} (hs : h.seq ≠ 0xFFFFFFFF) (s : State) : lastSeq h s = s := if_neg hs

section
variable {h : EdpHdr} (hs : h.seq ≠ 0xFFFFFFFF) (b : EdpBody) (a : Ack) (u : State)
include hs

/-- A request that closes no session, and is not its session's last. -/
theorem finishRequest_of_open : finishRequest h b (a, u, []) = returnPages (sendAck h a (cacheAck h b a u)) :=
  congrArg returnPages (lastSeq_of_more hs _)

theorem finishRequest_subs : (finishRequest h b (a, u, [])).edp.subs = u.edp.subs := by
  rw [finishRequest_of_open hs, returnPages_edp, sendAck_edp, cacheAck_subs]

theorem finishRequest_holds : (finishRequest h b (a, u, [])).edp.holds = u.edp.holds := by
  rw [finishRequest_of_open hs, returnPages_edp, sendAck_edp, cacheAck_holds]

theorem finishRequest_hold? (idx sub : Nat) : (finishRequest h b (a, u, [])).hold? idx sub = u.hold? idx sub := by
  rw [State.hold?, finishRequest_holds hs]; rfl

/-- The pages of a staging stay with its hold. -/
theorem finishRequest_mm {d : Hold} (hd : u.hold? 0x5010 1 = some d) : (finishRequest h b (a, u, [])).mm = u.mm := by
  have hheld : (sendAck h a (cacheAck h b a u)).hold? 0x5010 1 = some d := by
    rw [State.hold?, sendAck_edp, cacheAck_holds]
    exact hd
  rw [finishRequest_of_open hs, returnPages_of_held hheld, sendAck_mm, cacheAck_mm]

end

/-! ## Blocks -/

theorem hold?_key {s : State} {idx sub : Nat} {d : Hold} (h : s.hold? idx sub = some d) : d.idx = idx ∧ d.sub = sub := by
  have hkey := List.find?_some h
  simpa using hkey

theorem hold?_putHold (d : Hold) (s : State) : (putHold d s).hold? d.idx d.sub = some d := by
  simp [State.hold?, putHold]

theorem hold?_dropHold (idx sub : Nat) (s : State) : (dropHold idx sub s).hold? idx sub = none := by
  simp only [State.hold?, dropHold, List.find?_eq_none, List.mem_filter]
  intro d hd
  simpa [imp_iff_not_or] using hd.2

theorem hold?_dropHold_other {idx sub i k : Nat} (hne : (i, k) ≠ (idx, sub)) (s : State) :
    (dropHold idx sub s).hold? i k = s.hold? i k := by
  simp only [State.hold?, dropHold]
  rw [List.find?_filter]
  congr 1
  funext d
  grind

section
variable {idx sub ty off total : Nat} {final : Bool} {data : Bytes} {first : State → Nat × State}
  {finish : Session → Bytes → State → Nat × State × List (BitVec 32)} {x : Session} {s : State}

/-- The hold of a value whose first chunk has come. -/
def firstHold (idx sub ty total : Nat) (x : Session) (s : State) : Hold := ⟨idx, sub, x.sid, ty, total, [], false, s.localUs⟩

/-- A hold with one more chunk. -/
def Hold.add (d : Hold) (off : Nat) (final : Bool) (data : Bytes) (now : Nat) : Hold :=
  { d with chunks := d.chunks ++ [(off, data)], final := d.final || final, last := now }

theorem chunkAct_of_new (hclass : writeClass s x idx sub = OK) (hty : ty = entryTy idx sub) (hfits : off + data.length ≤ total)
    (hfree : s.heldElse x idx sub = false) (hnone : s.hold? idx sub = none) {t : State} (hfirst : first s = (OK, t)) :
    chunkAct idx sub ty off total final data first finish (some x) s
      = addChunk (firstHold idx sub ty total x t) off final data (finish x) t := by
  have hform : ¬ (ty ≠ entryTy idx sub || decide (total < off + data.length)) = true := by simp [hty]; omega
  unfold chunkAct
  simp only [hclass, ne_eq, not_true_eq_false, if_false, if_neg hform, hfree, Bool.false_eq_true, hnone, hfirst]
  rfl

theorem chunkAct_of_refused (hclass : writeClass s x idx sub = OK) (hty : ty = entryTy idx sub)
    (hfits : off + data.length ≤ total) (hfree : s.heldElse x idx sub = false) (hnone : s.hold? idx sub = none)
    {code : Nat} {t : State} (hcode : code ≠ OK) (hfirst : first s = (code, t)) :
    chunkAct idx sub ty off total final data first finish (some x) s = answer code idx sub ty t := by
  have hform : ¬ (ty ≠ entryTy idx sub || decide (total < off + data.length)) = true := by simp [hty]; omega
  unfold chunkAct
  simp only [hclass, ne_eq, not_true_eq_false, if_false, if_neg hform, hfree, Bool.false_eq_true, hnone, hfirst]
  cases code with
  | zero => exact absurd rfl hcode
  | succ n => rfl

theorem chunkAct_of_held (hclass : writeClass s x idx sub = OK) (hty : ty = entryTy idx sub) (hfits : off + data.length ≤ total)
    (hfree : s.heldElse x idx sub = false) {d : Hold} (hd : s.hold? idx sub = some d) (hdty : d.ty = ty)
    (htotal : d.total = total) (hover : d.overlaps off data.length = false) :
    chunkAct idx sub ty off total final data first finish (some x) s = addChunk d off final data (finish x) s := by
  have hform : ¬ (ty ≠ entryTy idx sub || decide (total < off + data.length)) = true := by simp [hty]; omega
  have hsame : ¬ (ty ≠ d.ty || total ≠ d.total || d.overlaps off data.length) = true := by simp [hdty, htotal, hover]
  unfold chunkAct
  simp only [hclass, ne_eq, not_true_eq_false, if_false, if_neg hform, hfree, Bool.false_eq_true, hd]
  exact if_neg hsame

theorem addChunk_of_partial {d : Hold} {fin : Bytes → State → Nat × State × List (BitVec 32)}
    (h : ((d.add off final data s.localUs).final && (d.add off final data s.localUs).got == d.total) = false) :
    addChunk d off final data fin s = answer OK d.idx d.sub d.ty (putHold (d.add off final data s.localUs) s) :=
  if_neg (by rw [Bool.not_eq_true]; exact h)

theorem addChunk_of_whole {d : Hold} {fin : Bytes → State → Nat × State × List (BitVec 32)} {code : Nat} {t : State}
    {cl : List (BitVec 32)}
    (h : ((d.add off final data s.localUs).final && (d.add off final data s.localUs).got == d.total) = true)
    (hfin : fin (d.add off final data s.localUs).value (dropHold d.idx d.sub s) = (code, t, cl)) :
    addChunk d off final data fin s = (statusAck code d.idx d.sub d.ty, t, cl) := by
  exact (if_pos h).trans
    (congrArg (fun r : Nat × State × List (BitVec 32) => (statusAck r.1 d.idx d.sub d.ty, r.2.1, r.2.2)) hfin)

end

/-- A value that came in one final chunk. -/
theorem firstHold_whole (idx sub ty : Nat) (data : Bytes) (x : Session) (s t : State) :
    let d := (firstHold idx sub ty data.length x s).add 0 true data t.localUs
    (d.final && d.got == data.length) = true ∧ d.value = data := by
  constructor
  · simp [firstHold, Hold.add, Hold.got]
  · cases data with
    | nil => simp [firstHold, Hold.add, Hold.value]
    | cons b r => simp [firstHold, Hold.add, Hold.value]

theorem finishBlock_of_ok {idx sub ty : Nat} {val : Bytes} {x : Session} {s : State} (hval : valueOk idx sub ty val = true)
    (hrule : ownRule s idx sub val = OK) : finishBlock idx sub ty x val s = entryEffect idx sub val x s := by
  simp [finishBlock, hval, hrule]

theorem exec_writeBlock {h : EdpHdr} {idx sub ty off total : Nat} {final : Bool} {data : Bytes} {s : State}
    (hown : ownCommand (.writeBlock idx sub ty off total final data) = false) :
    exec (.writeBlock h idx sub ty off total final data) s
      = .next (serve h (.writeBlock idx sub ty off total final data) (writeBlockAct idx sub ty off total final data) s) := by
  have hord : ordinary h (.writeBlock idx sub ty off total final data) s
      = serve h (.writeBlock idx sub ty off total final data) (writeBlockAct idx sub ty off total final data) s := by
    simp only [ordinary, hown, Bool.false_and, Bool.false_eq_true, if_false]
    rfl
  rw [← hord]
  rfl

/-! ## The claims about WRITE and WRITE_BLOCK -/

/-- A WRITE of a stored entry, and one complete chunk of it, store the value. -/
theorem writes_store {h : EdpHdr} {x : Session} {s : State} {idx sub ty : Nat} {val : Bytes} {e : Entry}
    (he : entryOf idx sub = some e) (hacc : e.acc = .rw ∨ (e.acc = .rws ∧ s.dev.st = .standby))
    (hval : valueOk idx sub ty val = true) (hrule : ownRule s idx sub val = OK) :
    (SendsWrite h idx sub ty val x s → ∃ t u, exec (.writeEntry h idx sub ty val) s = .next t
      ∧ Acked h (statusAck OK idx sub ty) t ∧ Leaves h u t ∧ Claims.Stored idx sub val s u)
    ∧ (Accepts h (.writeBlock idx sub ty 0 val.length true val) (12 + val.length) x s → x.right = 1 →
      s.heldElse x idx sub = false → s.hold? idx sub = none →
      ∃ t u, exec (.writeBlock h idx sub ty 0 val.length true val) s = .next t
        ∧ Acked h (statusAck OK idx sub ty) t ∧ Leaves h u t ∧ Claims.Stored idx sub val s u) := by
  have hwo : e.acc ≠ .wo := by rcases hacc with hacc | ⟨hacc, _⟩ <;> simp [hacc]
  have hclass (hright : x.right = 1) : writeClass (atRequest h x s) (reqSession h x s) idx sub = OK :=
    writeClass_of_written he hright (hacc.imp_right .inl)
  have hstored (b : Edp) := storedState_stored idx sub val s b
  refine ⟨fun w => ?_, fun w hright hfree hnone => ?_⟩
  · have hact := writeWith_ok (eff := entryEffect idx sub val) (hclass w.right) hval w.free hrule
    rw [entryEffect_of_stored he hwo] at hact
    obtain ⟨hack, hleaves⟩ := serve_post w.accepts _ hact
    exact ⟨_, _, exec_writeEntry (ownCommand_of_stored he hwo), hack, hleaves, hstored _⟩
  · have hty : ty = entryTy idx sub := by
      simp only [valueOk, Bool.and_eq_true, beq_iff_eq] at hval
      exact hval.1.1
    obtain ⟨hwhole, hvalue⟩ := firstHold_whole idx sub ty val (reqSession h x s) (atRequest h x s) (atRequest h x s)
    have hfin : finishBlock idx sub ty (reqSession h x s)
        ((firstHold idx sub ty val.length (reqSession h x s) (atRequest h x s)).add 0 true val (atRequest h x s).localUs).value
        (dropHold idx sub (atRequest h x s)) = (OK, storedState idx sub val (dropHold idx sub (atRequest h x s)), []) := by
      rw [hvalue, finishBlock_of_ok hval (s := dropHold idx sub (atRequest h x s)) hrule, entryEffect_of_stored he hwo]
      rfl
    have hact : writeBlockAct idx sub ty 0 val.length true val (some (reqSession h x s)) (atRequest h x s)
        = (statusAck OK idx sub ty, storedState idx sub val (dropHold idx sub (atRequest h x s)), []) :=
      (chunkAct_of_new (hclass hright) hty (by omega) hfree hnone rfl).trans (addChunk_of_whole hwhole hfin)
    obtain ⟨hack, hleaves⟩ := serve_post w _ hact
    exact ⟨_, _, exec_writeBlock (ownCommand_block_of_stored he hwo), hack, hleaves, hstored _⟩

/-- A WRITE of an entry that is a command has that command's effect. -/
theorem exec_writeEntry_eq {h : EdpHdr} {idx sub ty : Nat} {val : Bytes} {s : State}
    {eff : Session → State → Nat × State × List (BitVec 32)} (hown : ownCommand (.write idx sub ty val) = false)
    (heff : ∀ y t, entryEffect idx sub val y t = eff y t) :
    exec (.writeEntry h idx sub ty val) s = .next (writeCommand h idx sub ty val eff s) := by
  rw [exec_writeEntry hown, show entryEffect idx sub val = eff from funext fun y => funext fun t => heff y t]
  rfl

theorem ofLe_leBytes {n v : Nat} (hv : v < 256 ^ n) : ofLe (leBytes n v) = v := by
  induction n generalizing v with
  | zero => simp only [leBytes, ofLe]; omega
  | succ n ih =>
    have hhigh : v / 256 < 256 ^ n := by rw [Nat.div_lt_iff_lt_mul (by decide)]; rwa [pow_succ] at hv
    simp only [leBytes, ofLe, ih hhigh, BitVec.toNat_ofNat]
    omega

theorem exec_writeEntry_slot {h : EdpHdr} {s : State} {k q : Nat} (hk : k < 64) (hq : q < 2 ^ 64) :
    exec (.writeEntry h (0x5400 + k) 4 tU64 (leBytes 8 q)) s = exec (.consume h k q) s := by
  have hown : ownCommand (.write (0x5400 + k) 4 tU64 (leBytes 8 q)) = false := by
    simp only [ownCommand, Bool.or_eq_false_iff, Bool.and_eq_false_iff, beq_eq_false_iff_ne]
    omega
  refine exec_writeEntry_eq hown fun y t => ?_
  have hvalue : ofLe (leBytes 8 q) = q := ofLe_leBytes hq
  have hslot : 0x5400 ≤ 0x5400 + k ∧ 0x5400 + k < 0x5440 ∧ 4 = 4 := by omega
  unfold entryEffect
  repeat rw [if_neg (by omega)]
  rw [if_pos hslot, hvalue, Nat.add_sub_cancel_left]

theorem writesStoreTheValue : Claims.WritesStoreTheValue := by
  intro h x s
  refine ⟨fun idx sub ty val e he hacc hval hrule => writes_store he hacc hval hrule, fun c v i hci hv => ?_,
    fun c v i hci hv => ?_, ?_, ?_, ?_, fun sid => ?_, fun k q hk hq => exec_writeEntry_slot hk hq, fun nonce => ?_⟩
  · subst hv
    simp only [List.mem_cons, Prod.mk.injEq, List.not_mem_nil, or_false] at hci
    rcases hci with ⟨rfl, rfl⟩ | ⟨rfl, rfl⟩ | ⟨rfl, rfl⟩ | ⟨rfl, rfl⟩ | ⟨rfl, rfl⟩ | ⟨rfl, rfl⟩
    all_goals exact exec_writeEntry_eq rfl fun _ _ => rfl
  · subst hv
    simp only [List.mem_cons, Prod.mk.injEq, List.not_mem_nil, or_false] at hci
    rcases hci with ⟨rfl, rfl⟩ | ⟨rfl, rfl⟩ | ⟨rfl, rfl⟩ | ⟨rfl, rfl⟩
    all_goals exact exec_writeEntry_eq rfl fun _ _ => rfl
  · exact exec_writeEntry_eq rfl fun _ _ => rfl
  · exact exec_writeEntry_eq rfl fun _ _ => rfl
  · exact exec_writeEntry_eq rfl fun _ _ => rfl
  · refine exec_writeEntry_eq rfl fun _ t => ?_
    have hsid : ofLe (leBytes 4 sid.toNat) = sid.toNat := ofLe_leBytes (by have := sid.isLt; omega)
    rw [entryEffect, if_pos ⟨rfl, rfl⟩, hsid, BitVec.ofNat_toNat, BitVec.setWidth_eq]
  · exact exec_writeEntry_eq rfl fun _ _ => rfl

theorem chunksAreHeld : Claims.ChunksAreHeld := by
  intro h x s idx sub ty off total final data e w he hacc hright hty hfits hseq hfree
  have hwo : e.acc ≠ .wo := by simp [hacc]
  have hclass : writeClass (atRequest h x s) (reqSession h x s) idx sub = OK :=
    writeClass_of_written he hright (.inl hacc)
  have hty' : ty = entryTy idx sub := by simp [entryTy, he, hty]
  have hexec := exec_writeBlock (h := h) (ty := ty) (off := off) (total := total) (final := final) (data := data) (s := s)
    (ownCommand_block_of_stored he hwo)
  have leaves {t : State} (b : Edp) (hl : Leaves h { s with edp := b } t) : Leaves h s t := (Leaves.of_eq rfl).trans hl
  refine ⟨fun hnone hfinal => ?_, fun d hd hdty htotal hover => ⟨fun hpart => ?_, fun hwhole hval hrule => ?_⟩⟩
  · have hact : writeBlockAct idx sub ty off total final data (some (reqSession h x s)) (atRequest h x s) = _ :=
      (chunkAct_of_new hclass hty' hfits hfree hnone rfl).trans
        (addChunk_of_partial (by simp [firstHold, Hold.add, hfinal]))
    obtain ⟨hack, hleaves⟩ := serve_post w _ hact
    refine ⟨_, (firstHold idx sub ty total (reqSession h x s) (atRequest h x s)).add off final data s.localUs, hexec, hack,
      leaves _ hleaves, ?_, rfl, rfl, rfl, hfinal⟩
    rw [serve_accepts w, show acceptedSession h x _ = reqSession h x s from rfl, hact]
    exact (finishRequest_hold? hseq _ _ _ _ _).trans (hold?_putHold _ _)
  · obtain ⟨rfl, rfl⟩ := hold?_key hd
    have hact : writeBlockAct d.idx d.sub ty off total final data (some (reqSession h x s)) (atRequest h x s) = _ :=
      (chunkAct_of_held hclass hty' hfits hfree hd hdty htotal hover).trans
        (addChunk_of_partial (by rw [htotal]; exact hpart))
    obtain ⟨hack, hleaves⟩ := serve_post w _ hact
    rw [hdty] at hack
    refine ⟨_, d.add off final data s.localUs, hexec, hack, leaves _ hleaves, ?_, rfl⟩
    rw [serve_accepts w, show acceptedSession h x _ = reqSession h x s from rfl, hact]
    exact (finishRequest_hold? hseq _ _ _ _ _).trans (hold?_putHold _ _)
  · obtain ⟨rfl, rfl⟩ := hold?_key hd
    have hfin : finishBlock d.idx d.sub ty (reqSession h x s) (d.add off final data (atRequest h x s).localUs).value
        (dropHold d.idx d.sub (atRequest h x s)) = (OK, storedState d.idx d.sub (d.add off final data s.localUs).value
          (dropHold d.idx d.sub (atRequest h x s)), []) := by
      have hblock := finishBlock_of_ok (x := reqSession h x s) (s := dropHold d.idx d.sub (atRequest h x s))
        (val := (d.add off final data s.localUs).value) hval hrule
      exact hblock.trans (entryEffect_of_stored he hwo _ _ _)
    have hact : writeBlockAct d.idx d.sub ty off total final data (some (reqSession h x s)) (atRequest h x s) = _ :=
      (chunkAct_of_held hclass hty' hfits hfree hd hdty htotal hover).trans
        (addChunk_of_whole (by rw [htotal]; exact hwhole) hfin)
    obtain ⟨hack, hleaves⟩ := serve_post w _ hact
    rw [hdty] at hack
    refine ⟨_, _, hexec, hack, hleaves, storedState_stored _ _ _ s _, ?_⟩
    rw [serve_accepts w, show acceptedSession h x _ = reqSession h x s from rfl, hact]
    refine (finishRequest_hold? hseq _ _ _ _ _).trans ?_
    rw [State.hold?, storedState_edp]
    exact hold?_dropHold _ _ _

/-- Settles O23: a stored entry's effect is `storedState`, each check is one branch of `writeWith`, and a block is held by
`addChunk` until it is whole. -/
theorem writesAreCheckedAndStored : Obligations.WritesAreCheckedAndStored :=
  ⟨writesStoreTheValue, writesCheckInOrder, chunksAreHeld⟩

end Sys2Proof.Machine
end

section
/-! The registers of the fabric. What a written lane mask, substitution, coordinate or size passes, and where it goes
(R286, R305, R308). -/

namespace Sys2Proof.Machine

/-! ## The entries of the fabric and their ranges -/

theorem entryOf_port {p : Nat} (hp : p < 48) (k : Nat) : entryOf (0x3100 + p) k = nthE portE k := by
  rw [entryOf, if_neg (by omega), if_pos (by omega)]

theorem ofLe_byte {v : Nat} (hv : v < 256) : ofLe (leBytes 1 v) = v := ofLe_leBytes (n := 1) (by omega)

theorem rangeOk_laneMask {p : Nat} (hp : p < 48) (val : Bytes) :
    rangeOk (0x3100 + p) 7 val = (decide (0 ≤ ofLe val) && decide (ofLe val ≤ 15)) := by
  unfold rangeOk
  repeat rw [if_neg (by omega)]
  exact if_pos (by omega)

theorem rangeOk_spare {p : Nat} (hp : p < 48) (val : Bytes) : rangeOk (0x3100 + p) 6 val
    = (ofLe val == 0xFF || (decide (0x312D ≤ 0x3100 + p) && (decide (0 ≤ ofLe val) && decide (ofLe val ≤ 44)))) := by
  unfold rangeOk
  repeat rw [if_neg (by omega)]
  exact if_pos (by omega)

theorem valueOk_port {p k v : Nat} (hp : p < 48) (he : nthE portE k = some (rwP tU8)) :
    valueOk (0x3100 + p) k tU8 (leBytes 1 v) = rangeOk (0x3100 + p) k (leBytes 1 v) := by
  have hty : entryTy (0x3100 + p) k = tU8 := by simp [entryTy, entryOf_port hp, he, rwP]
  have hform : formOk tU8 (leBytes 1 v) = true := by simp [formOk, tySize, tU8]
  simp [valueOk, hty, hform]

theorem valueOk_laneMask {p v : Nat} (hp : p < 48) (hv : v < 256) :
    valueOk (0x3100 + p) 7 tU8 (leBytes 1 v) = decide (v < 16) := by
  rw [valueOk_port hp rfl, rangeOk_laneMask hp, ofLe_byte hv]
  simp only [Nat.zero_le, decide_true, Bool.true_and, decide_eq_decide]
  omega

theorem valueOk_spare {p v : Nat} (hp : p < 48) (hv : v < 256) :
    valueOk (0x3100 + p) 6 tU8 (leBytes 1 v) = decide (v = 0xFF ∨ (45 ≤ p ∧ v < 45)) := by
  rw [valueOk_port hp rfl, rangeOk_spare hp, ofLe_byte hv, Bool.eq_iff_iff]
  simp only [Nat.zero_le, decide_true, Bool.true_and, Bool.or_eq_true, Bool.and_eq_true, beq_iff_eq, decide_eq_true_eq]
  omega

theorem ownRule_port {p : Nat} (hp : p < 48) (k : Nat) (val : Bytes) (s : State) :
    ownRule s (0x3100 + p) k val = if k = 6 ∧ s.job.st.live then BUSY else OK := by
  unfold ownRule
  rw [if_neg (by omega), if_neg (by omega), if_pos (by omega)]

theorem deferred_fabric {idx : Nat} (h1 : 0x3000 ≤ idx) (h2 : idx < 0x4000) : deferred idx = false := by
  simp only [deferred, List.contains_eq_mem, List.mem_cons, List.not_mem_nil, or_false, decide_eq_false_iff_not]
  omega

/-- A value of the fabric is in force at once. -/
theorem storeEntry_fabric {idx : Nat} (h1 : 0x3000 ≤ idx) (h2 : idx < 0x4000) (sub : Nat) (val : Bytes) (s : State) :
    storeEntry idx sub val s = { s with
      regs := putFabric idx sub (ofLe val) s.regs, eff := putFabric idx sub (ofLe val) s.eff } := by
  have hgroup : idx / 0x1000 = 3 := by omega
  have hput (r : Regs) : putReg idx sub val r = putFabric idx sub (ofLe val) r := by simp only [putReg, hgroup]
  simp only [storeEntry, deferred_fabric h1 h2, Bool.false_and, Bool.false_eq_true, if_false, hput]

theorem putFabric_laneMask (p v : Nat) (r : Regs) :
    putFabric (0x3100 + p) 7 v r = { r with laneMask := r.laneMask.set p v } := by
  rw [putFabric, if_neg (by omega), if_neg (by omega), if_neg (by decide), Nat.add_sub_cancel_left]

theorem putFabric_spare (p v : Nat) (r : Regs) : putFabric (0x3100 + p) 6 v r = { r with spare := r.spare.set p v } := by
  rw [putFabric, if_neg (by omega), if_neg (by omega), if_pos rfl, Nat.add_sub_cancel_left]

/-! ## What the writes answer and leave -/

section
variable {h : EdpHdr} {idx sub ty : Nat} {val : Bytes} {x : Session} {s : State}
  {eff : Session → State → Nat × State × List (BitVec 32)}

/-- A controller's WRITE that is refused answers its code and changes nothing. -/
theorem writeCommand_refused {code : Nat} (w : SendsWrite h idx sub ty val x s)
    (hact : writeWith idx sub ty val eff (some (reqSession h x s)) (atRequest h x s)
      = answer code idx sub ty (atRequest h x s)) :
    Acked h (statusAck code idx sub ty) (writeCommand h idx sub ty val eff s)
      ∧ Leaves h s (writeCommand h idx sub ty val eff s) := by
  obtain ⟨hack, hleaves⟩ := serve_post w.accepts _ hact
  exact ⟨hack, (Leaves.of_eq rfl).trans hleaves⟩

variable {e : Entry} (he : entryOf idx sub = some e) (hacc : e.acc = .rw) (w : SendsWrite h idx sub ty val x s)
include he hacc w

theorem writeCommand_badValue (hval : valueOk idx sub ty val = false) :
    Acked h (statusAck TYPE_MISMATCH idx sub ty) (writeCommand h idx sub ty val eff s)
      ∧ Leaves h s (writeCommand h idx sub ty val eff s) :=
  writeCommand_refused w (writeWith_of_value (writeClass_of_written he w.right (.inl hacc)) hval)

theorem writeCommand_badRule {code : Nat} (hval : valueOk idx sub ty val = true) (hrule : ownRule s idx sub val = code)
    (hcode : code ≠ OK) :
    Acked h (statusAck code idx sub ty) (writeCommand h idx sub ty val eff s)
      ∧ Leaves h s (writeCommand h idx sub ty val eff s) := by
  subst hrule
  exact writeCommand_refused w
    (writeWith_of_rule (writeClass_of_written he w.right (.inl hacc)) hval w.free hcode)

/-- A controller's WRITE that is stored. -/
theorem writeCommand_stored (hval : valueOk idx sub ty val = true) (hrule : ownRule s idx sub val = OK) :
    Acked h (statusAck OK idx sub ty) (writeCommand h idx sub ty val (fun _ s => (OK, storeEntry idx sub val s, [])) s)
      ∧ Leaves h (storeEntry idx sub val s)
          (writeCommand h idx sub ty val (fun _ s => (OK, storeEntry idx sub val s, [])) s) := by
  obtain ⟨hack, hleaves⟩ := writeCommand_post w (fun _ s => (OK, storeEntry idx sub val s, []))
    (writeClass_of_written he w.right (.inl hacc)) hval hrule
  exact ⟨hack, (Leaves.of_eq rfl).trans hleaves⟩

end

theorem fabricRegisters : Claims.FabricRegisters := by
  intro h x s p v hp hv
  have hmask : entryOf (0x3100 + p) 7 = some (rwP tU8) := entryOf_port hp 7
  have hspare : entryOf (0x3100 + p) 6 = some (rwP tU8) := entryOf_port hp 6
  refine ⟨fun w hlt => ?_, fun w hlive hrange => ?_, fun w hlive hrange => ?_, fun w hwired hne => ?_, fun w hge => ?_⟩
  · obtain ⟨hack, hleaves⟩ := writeCommand_post w (fun _ s => (OK, laneMaskState p (leBytes 1 v) s, []))
      (writeClass_of_written hmask w.right (.inl rfl)) (by rw [valueOk_laneMask hp hv]; simpa using hlt) (ownRule_port hp 7 _ s)
    refine ⟨_, _, rfl, hack, hleaves, ?_, fun q hq => laneMaskState_port_other hq _ _, fun hst => ?_, fun hst hup hawake => ?_⟩
    · rw [laneMaskState_body, storeEntry_fabric (by omega) (by omega), ofLe_byte hv, putFabric_laneMask, putFabric_laneMask]
      rfl
    · exact laneMaskState_port_same (s := atRequest h x s)
        (.inl (show (s.port p).usable = true by simpa [Port.usable] using hst)) _
    · exact laneMaskState_port_same (s := atRequest h x s) (.inr ⟨hst, hup, hawake⟩) _
  · have hpost := writeCommand_stored hspare rfl w (by rw [valueOk_spare hp hv]; simpa using hrange)
      (by rw [ownRule_port hp]; simp [hlive])
    rw [storeEntry_fabric (by omega) (by omega), ofLe_byte hv, putFabric_spare, putFabric_spare] at hpost
    exact ⟨_, rfl, hpost⟩
  · exact ⟨_, rfl, writeCommand_badRule hspare rfl w (by rw [valueOk_spare hp hv]; simpa using hrange)
      (by rw [ownRule_port hp]; simp [hlive]) (by decide)⟩
  · exact ⟨_, rfl, writeCommand_badValue hspare rfl w (by rw [valueOk_spare hp hv]; simp; omega)⟩
  · exact ⟨_, rfl, writeCommand_badValue hmask rfl w (by rw [valueOk_laneMask hp hv]; simp; omega)⟩

theorem entryOf_coord {d : Nat} (hd : d < 3) : entryOf 0x3000 (d + 1) = some (rwP tU8) := by
  interval_cases d <;> rfl

theorem valueOk_coord {d : Nat} (hd : d < 3) (v : Nat) : valueOk 0x3000 (d + 1) tU8 (leBytes 1 v) = true := by
  interval_cases d <;> rfl

theorem putFabric_coord {d : Nat} (hd : d < 3) (v : Nat) (r : Regs) :
    putFabric 0x3000 (d + 1) v r = { r with coord := r.coord.set d v } := by
  interval_cases d <;> rfl

theorem ownRule_fabric (k : Nat) (val : Bytes) (s : State) : ownRule s 0x3000 k val = coordRule s k (ofLe val) := rfl

theorem coordRule_coord {d : Nat} (hd : d < 3) (v : Nat) (s : State) : coordRule s (d + 1) v =
    if s.job.st.live then BUSY else if v ≠ 0xFF ∧ s.sizeOf d ≤ v then TYPE_MISMATCH else OK := by
  unfold coordRule
  rw [if_pos (show d + 1 ≤ 3 by omega), Nat.add_sub_cancel]
  simp

theorem coordinateRules : Claims.CoordinateRules := by
  intro h x s d v hd hv w
  have hrule := coordRule_coord hd v s
  refine ⟨fun hlive hrange => ?_, fun hlive hne hle => ?_, fun hlive => ?_⟩
  · have hpost := writeCommand_stored (entryOf_coord hd) rfl w (valueOk_coord hd v) (by
      rw [ownRule_fabric, ofLe_byte hv, hrule, if_neg (by simp [hlive]), if_neg (by omega)])
    rw [storeEntry_fabric (by decide) (by decide), ofLe_byte hv, putFabric_coord hd, putFabric_coord hd] at hpost
    exact ⟨_, rfl, hpost⟩
  · exact ⟨_, rfl, writeCommand_badRule (entryOf_coord hd) rfl w (valueOk_coord hd v) (by
      rw [ownRule_fabric, ofLe_byte hv, hrule, if_neg (by simp [hlive]), if_pos ⟨hne, hle⟩]) (by decide)⟩
  · exact ⟨_, rfl, writeCommand_badRule (entryOf_coord hd) rfl w (valueOk_coord hd v) (by
      rw [ownRule_fabric, ofLe_byte hv, hrule, if_pos hlive]) (by decide)⟩

section
variable {d : Nat} (hd : d = 1 ∨ d = 2)
include hd

theorem entryOf_size : entryOf 0x3000 (d + 5) = some (rwP tU8) := by
  rcases hd with rfl | rfl <;> rfl

theorem valueOk_size {v : Nat} (hv : v < 256) : valueOk 0x3000 (d + 5) tU8 (leBytes 1 v)
    = (v == 1 || v == 2 || v == 4 || v == 8 || v == 16) := by
  have hty : entryTy 0x3000 (d + 5) = tU8 := by simp [entryTy, entryOf_size hd, rwP]
  have hform : formOk tU8 (leBytes 1 v) = true := by simp [formOk, tySize, tU8]
  have hrange : rangeOk 0x3000 (d + 5) (leBytes 1 v) = [1, 2, 4, 8, 16].contains (ofLe (leBytes 1 v)) := by
    rcases hd with rfl | rfl <;> rfl
  simp [valueOk, hty, hform, hrange, ofLe_byte hv, Bool.or_assoc, Bool.beq_eq_decide_eq]

theorem putFabric_size (v : Nat) (r : Regs) :
    putFabric 0x3000 (d + 5) v r = if d = 1 then { r with nY := v } else { r with nZ := v } := by
  rcases hd with rfl | rfl <;> rfl

end

theorem coordRule_size {d : Nat} (v : Nat) (s : State) : coordRule s (d + 5) v = if s.job.st.live then BUSY
    else if s.regs.coord.getD d 0xFF ≠ 0xFF ∧ v ≤ s.regs.coord.getD d 0xFF then TYPE_MISMATCH else OK := by
  unfold coordRule
  rw [if_neg (show ¬ d + 5 ≤ 3 by omega), Nat.add_sub_cancel]
  simp

theorem sizeRules : Claims.SizeRules := by
  intro h x s d v hd hv w
  have hrule := coordRule_size (d := d) v s
  have hvalue := valueOk_size hd hv
  refine ⟨fun hsize hlive habove => ?_, fun hsize hlive hbelow => ?_, fun hsize => ?_, fun hsize hlive => ?_⟩
  · have hpost := writeCommand_stored (entryOf_size hd) rfl w (hvalue.trans hsize) (by
      rw [ownRule_fabric, ofLe_byte hv, hrule, if_neg (by simp [hlive]), if_neg]
      simp only [Bool.or_eq_true, beq_iff_eq, decide_eq_true_eq] at habove
      omega)
    rw [storeEntry_fabric (by decide) (by decide), ofLe_byte hv, putFabric_size hd, putFabric_size hd] at hpost
    exact ⟨_, rfl, hpost⟩
  · exact ⟨_, rfl, writeCommand_badRule (entryOf_size hd) rfl w (hvalue.trans hsize) (by
      rw [ownRule_fabric, ofLe_byte hv, hrule, if_neg (by simp [hlive]), if_pos]
      simp only [Bool.or_eq_false_iff, beq_eq_false_iff_ne, decide_eq_false_iff_not] at hbelow
      exact ⟨hbelow.1, by omega⟩) (by decide)⟩
  · exact ⟨_, rfl, writeCommand_badValue (entryOf_size hd) rfl w (hvalue.trans hsize)⟩
  · exact ⟨_, rfl, writeCommand_badRule (entryOf_size hd) rfl w (hvalue.trans hsize) (by
      rw [ownRule_fabric, ofLe_byte hv, hrule, if_pos hlive]) (by decide)⟩

/-- Settles O21: each register's range and rule are computed once, and a WRITE that passes them is stored where
`putFabric` says. -/
theorem fabricRegistersAreChecked : Obligations.FabricRegistersAreChecked :=
  ⟨fabricRegisters, coordinateRules, sizeRules⟩

end Sys2Proof.Machine
end

section
/-! Staging of recipe containers: what the first chunk takes, and what the chunk that completes a container leaves
(R310, R353, R372). -/

namespace Sys2Proof.Machine

section
variable {h : EdpHdr} {x : Session} {s : State} (data : Bytes) (c : Container)

theorem writeClass_staging (hright : x.right = 1) : writeClass s x 0x5010 1 = OK :=
  writeClass_of_wo (e := woE tOCTETS) rfl rfl hright (by decide)

/-- A container that has come in one message and whose pages the state `u` holds. -/
theorem stagingAct_of_whole {u : State} (hright : x.right = 1) (hfree : s.heldElse x 0x5010 1 = false)
    (hnone : s.hold? 0x5010 1 = none) (hfirst : stagingFirst data.length s = (OK, u)) :
    stagingAct 0 data.length true data c (some x) s = (statusAck OK 0x5010 1 tOCTETS, (stagingDone c data
      (dropHold 0x5010 1 u)).2.1, []) := by
  obtain ⟨hwhole, hvalue⟩ := firstHold_whole 0x5010 1 tOCTETS data x u u
  refine (chunkAct_of_new (ty := tOCTETS) (writeClass_staging hright) rfl (by omega) hfree hnone hfirst).trans
    (addChunk_of_whole hwhole ?_)
  rw [hvalue]
  rfl

theorem stagingAct_of_refused {off total code : Nat} {final : Bool} (hright : x.right = 1)
    (hfree : s.heldElse x 0x5010 1 = false) (hnone : s.hold? 0x5010 1 = none) (hfits : off + data.length ≤ total)
    (hcode : code ≠ OK) (hfirst : stagingFirst total s = (code, s)) :
    stagingAct off total final data c (some x) s = answer code 0x5010 1 tOCTETS s :=
  chunkAct_of_refused (writeClass_staging hright) rfl hfits hfree hnone hcode hfirst

theorem stagingAct_of_part {off total : Nat} {u : State} (hright : x.right = 1)
    (hfree : s.heldElse x 0x5010 1 = false) (hnone : s.hold? 0x5010 1 = none) (hfits : off + data.length ≤ total)
    (hfirst : stagingFirst total s = (OK, u)) : stagingAct off total false data c (some x) s
      = answer OK 0x5010 1 tOCTETS (putHold ((firstHold 0x5010 1 tOCTETS total x u).add off false data u.localUs) u) :=
  (chunkAct_of_new (writeClass_staging hright) rfl hfits hfree hnone hfirst).trans (addChunk_of_partial rfl)

end

/-! ## The pages of a staging -/

theorem stagingPages_of_ok {need : Nat} {s : State} (h : (stagingPages need s).1 = OK) :
    stagingPages need s = (OK, { s with mm := { s.mm with holdPages := s.pagesFor need } }) := by
  unfold stagingPages at h ⊢
  dsimp only at h ⊢
  split at h
  · exact absurd h (show BUDGET_EXCEEDED ≠ OK by decide)
  · rename_i hfits
    rw [if_neg hfits]

theorem stagingPages_of_short {need : Nat} {s : State} (h : (s.pagesFor need).length < need) :
    stagingPages need s = (BUDGET_EXCEEDED, s) := by
  unfold stagingPages
  dsimp only
  rw [if_pos (by simp [h])]

/-- The sessions have no part in which pages a staging takes. -/
theorem stagingPages_edp (need : Nat) (s : State) (b : Edp) :
    stagingPages need { s with edp := b }
      = ((stagingPages need s).1, { (stagingPages need s).2 with edp := b }) := by
  have hpages : ({ s with edp := b } : State).pagesFor need = s.pagesFor need := by unfold State.pagesFor; rfl
  have htop : ({ s with edp := b } : State).topPage = s.topPage := by unfold State.topPage; rfl
  unfold stagingPages
  rw [hpages, htop]
  dsimp only
  split <;> rfl

section
variable {total : Nat} {s : State}

theorem stagingFirst_of_up (hup : s.mm.up = true) : stagingFirst total s = stagingPages (cdiv total pageSize) s := by
  rw [stagingFirst, if_pos hup]

theorem stagingFirst_of_down (hdown : s.mm.up = false) :
    stagingFirst total s = if 64 * 2 ^ 20 < total then (NOT_READY, s) else (OK, s) := by
  rw [stagingFirst, hdown]
  rfl

theorem stagingFirst_of_pages (hup : s.mm.up = true) (hok : (stagingPages (cdiv total pageSize) s).1 = OK) (b : Edp) :
    stagingFirst total { s with edp := b }
      = (OK, { s with edp := b, mm := { s.mm with holdPages := s.pagesFor (cdiv total pageSize) } }) := by
  refine (stagingFirst_of_up (s := { s with edp := b }) hup).trans ((stagingPages_edp _ s b).trans ?_)
  simp only [stagingPages_of_ok hok]

theorem stagingFirst_of_short (hup : s.mm.up = true)
    (hshort : (s.pagesFor (cdiv total pageSize)).length < cdiv total pageSize) (b : Edp) :
    stagingFirst total { s with edp := b } = (BUDGET_EXCEEDED, { s with edp := b }) := by
  refine (stagingFirst_of_up (s := { s with edp := b }) hup).trans ((stagingPages_edp _ s b).trans ?_)
  simp only [stagingPages_of_short hshort]

end

/-- A request with the pages its staging holds. -/
def stagingAt (h : EdpHdr) (x : Session) (s : State) (pages : List Nat) : State :=
  { s with edp := (atRequest h x s).edp, mm := { s.mm with holdPages := pages } }

/-- A staged container and the pages it stands on. -/
def staged (c : Container) (data : Bytes) (pages : List Nat) (s : State) : State :=
  { s with
    recipe := { s.recipe with staged := some c, stagedBytes := data, stagedBad := false, same := false }
    mm := { s.mm with stagedPages := pages } }

theorem stagingDone_body (c : Container) (data : Bytes) (h : EdpHdr) (x : Session) (s : State) (pages : List Nat) :
    (stagingDone c data (dropHold 0x5010 1 (stagingAt h x s pages))).2.1.body = (staged c data pages s).body := rfl

section
variable {h : EdpHdr} {x : Session} {s : State} {total : Nat}

theorem stagingFirst_atRequest (hup : s.mm.up = true) (hok : (stagingPages (cdiv total pageSize) s).1 = OK) :
    stagingFirst total (atRequest h x s) = (OK, stagingAt h x s (s.pagesFor (cdiv total pageSize))) :=
  stagingFirst_of_pages hup hok (atRequest h x s).edp

theorem stagingFirst_atRequest_of_down (hdown : s.mm.up = false) (hheld : s.mm.holdPages = [])
    (hlen : ¬ 64 * 2 ^ 20 < total) : stagingFirst total (atRequest h x s) = (OK, stagingAt h x s []) := by
  have hat : atRequest h x s = stagingAt h x s [] := by rw [stagingAt, ← hheld]; rfl
  rw [stagingFirst_of_down (s := atRequest h x s) hdown, if_neg hlen, ← hat]

theorem stagingFirst_atRequest_of_long (hdown : s.mm.up = false) (hlen : 64 * 2 ^ 20 < total) :
    stagingFirst total (atRequest h x s) = (NOT_READY, atRequest h x s) := by
  rw [stagingFirst_of_down (s := atRequest h x s) hdown, if_pos hlen]

variable {data : Bytes} {c : Container} (hright : x.right = 1) (hfree : s.heldElse x 0x5010 1 = false)
  (hnone : s.hold? 0x5010 1 = none)
include hright hfree hnone

/-- A container that came whole, by the pages it took. -/
theorem recipeStaging_whole {pages : List Nat}
    (w : Accepts h (.writeBlock 0x5010 1 tOCTETS 0 data.length true data) (12 + data.length) x s)
    (hfirst : stagingFirst data.length (atRequest h x s) = (OK, stagingAt h x s pages)) :
    ∃ t, exec (.recipeStaging h 0 data.length true data c) s = .next t ∧ Acked h (statusAck OK 0x5010 1 tOCTETS) t
      ∧ Leaves h (staged c data pages s) t := by
  obtain ⟨hack, hleaves⟩ := serve_post w (stagingAct 0 data.length true data c)
    (stagingAct_of_whole (x := reqSession h x s) (s := atRequest h x s) data c hright hfree hnone hfirst)
  exact ⟨_, rfl, hack, (Leaves.of_eq (stagingDone_body c data h x s pages)).trans hleaves⟩

theorem recipeStaging_refused {code : Nat}
    (w : Accepts h (.writeBlock 0x5010 1 tOCTETS 0 data.length true data) (12 + data.length) x s)
    (hcode : code ≠ OK) (hfirst : stagingFirst data.length (atRequest h x s) = (code, atRequest h x s)) :
    ∃ t, exec (.recipeStaging h 0 data.length true data c) s = .next t ∧ Acked h (statusAck code 0x5010 1 tOCTETS) t
      ∧ Leaves h s t := by
  obtain ⟨hack, hleaves⟩ := serve_post w (stagingAct 0 data.length true data c)
    (stagingAct_of_refused (x := reqSession h x s) (s := atRequest h x s) data c hright hfree hnone (by omega) hcode hfirst)
  exact ⟨_, rfl, hack, (Leaves.of_eq rfl).trans hleaves⟩

/-- The first chunk of a container is held, with its pages. -/
theorem recipeStaging_part {off : Nat} {pages : List Nat}
    (w : Accepts h (.writeBlock 0x5010 1 tOCTETS off total false data) (12 + data.length) x s)
    (hfits : off + data.length ≤ total) (hseq : h.seq ≠ 0xFFFFFFFF)
    (hfirst : stagingFirst total (atRequest h x s) = (OK, stagingAt h x s pages)) :
    ∃ t d, exec (.recipeStaging h off total false data c) s = .next t ∧ Acked h (statusAck OK 0x5010 1 tOCTETS) t
      ∧ Leaves h s t ∧ t.mm.holdPages = pages ∧ t.hold? 0x5010 1 = some d ∧ d.total = total
      ∧ d.chunks = [(off, data)] ∧ d.sid = x.sid := by
  have hact := stagingAct_of_part (x := reqSession h x s) (s := atRequest h x s) data c hright hfree hnone hfits hfirst
  obtain ⟨hack, hleaves⟩ := serve_post w (stagingAct off total false data c) hact
  let d := (firstHold 0x5010 1 tOCTETS total (reqSession h x s) (stagingAt h x s pages)).add off false data s.localUs
  have hheld : (putHold d (stagingAt h x s pages)).hold? 0x5010 1 = some d := hold?_putHold d _
  have hserve : serve h (.writeBlock 0x5010 1 tOCTETS off total false data) (stagingAct off total false data c) s
      = finishRequest h (.writeBlock 0x5010 1 tOCTETS off total false data)
          (answer OK 0x5010 1 tOCTETS (putHold d (stagingAt h x s pages))) := by
    rw [serve_accepts w]
    exact congrArg _ hact
  refine ⟨_, d, rfl, hack, (Leaves.of_eq rfl).trans hleaves, ?_, ?_, rfl, rfl, rfl⟩
  · rw [hserve]
    exact congrArg MemSt.holdPages (finishRequest_mm hseq _ _ _ hheld)
  · rw [hserve]
    exact (finishRequest_hold? hseq _ _ _ _ _).trans hheld

end

/-- Settles O24: what the first chunk may take decides; a whole container is staged, a part of one is held. -/
theorem stagingReplacesContainer : Obligations.StagingReplacesContainer := by
  intro h x s data c hfree hright hnone
  refine ⟨fun w => ⟨fun hup hok => ?_, fun hup hshort => ?_, fun hdown hheld hlen => ?_, fun hdown hlen => ?_⟩,
    fun off total w hfits hseq hup hok => ?_⟩
  · exact recipeStaging_whole hright hfree hnone w (stagingFirst_atRequest hup hok)
  · exact recipeStaging_refused hright hfree hnone w (by decide) (stagingFirst_of_short hup hshort (atRequest h x s).edp)
  · exact recipeStaging_whole hright hfree hnone w (stagingFirst_atRequest_of_down hdown hheld (Nat.not_lt.2 hlen))
  · exact recipeStaging_refused hright hfree hnone w (by decide) (stagingFirst_atRequest_of_long hdown hlen)
  · exact recipeStaging_part hright hfree hnone w hfits hseq (stagingFirst_atRequest hup hok)

end Sys2Proof.Machine
end
section
/-! Sessions of the dictionary protocol: subscriptions and events, relayed requests, the end of a session, hellos and
repeated requests (R343, R346, R347, R350, R351, R353, R359, R361). -/

namespace Sys2Proof.Machine

/-! ## Subscriptions -/

theorem mem_tset_self {α : Type} (l : List (Nat × α)) (k : Nat) (v : α) : (k, v) ∈ tset l k v := by
  induction l with
  | nil => simp [tset]
  | cons a r ih =>
    obtain ⟨i, w⟩ := a
    unfold tset
    split_ifs with hlt heq
    · simp
    · simp [heq]
    · simp [ih]

theorem mem_tset_of_mem {α : Type} {l : List (Nat × α)} {k : Nat} (v : α) {a : Nat × α} (ha : a ∈ l) (hk : a.1 ≠ k) :
    a ∈ tset l k v := by
  induction l with
  | nil => simp at ha
  | cons b r ih =>
    obtain ⟨i, w⟩ := b
    unfold tset
    rcases List.mem_cons.1 ha with rfl | hr
    · split_ifs with hlt heq
      · simp
      · exact absurd heq.symm hk
      · simp
    · split_ifs
      · simp [hr]
      · simp [hr]
      · simp [ih hr]

section
variable {h : EdpHdr} {kinds classes : BitVec 16} {x : Session} {s : State}

theorem subscribeAct_of_new {k : Nat} (hmask : ¬ (kinds = 0 ∧ classes = 0)) (hnew : ∀ y ∈ s.edp.subs, y.2.sid ≠ x.sid)
    (hk : k < 32) (hfree : ∀ y ∈ s.edp.subs, y.1 ≠ k) (hlow : ∀ j < k, ∃ y ∈ s.edp.subs, y.1 = j) :
    subscribeAct h kinds classes (some x) s
      = answer OK 0 0 0 (putSub k ⟨x.sid, kinds, classes, h.transport, h.peer, [], 0, 0⟩ s) := by
  have hold : (s.edp.subs.find? fun y => y.2.sid == x.sid) = none := by simpa using hnew
  have hfind : ((List.range 32).find? fun k => !s.edp.subs.any fun y => y.1 == k) = some k := by
    rw [List.find?_range_eq_some]
    refine ⟨by simpa using hfree, by simpa using hk, fun j hj => ?_⟩
    obtain ⟨y, hy, rfl⟩ := hlow j hj
    simpa using ⟨_, hy⟩
  simp only [subscribeAct, hold, if_neg hmask, hfind]

theorem subscribeAct_of_full (hmask : ¬ (kinds = 0 ∧ classes = 0)) (hnew : ∀ y ∈ s.edp.subs, y.2.sid ≠ x.sid)
    (hfull : ∀ j < 32, ∃ y ∈ s.edp.subs, y.1 = j) :
    subscribeAct h kinds classes (some x) s = answer BUSY 0 0 0 s := by
  have hold : (s.edp.subs.find? fun y => y.2.sid == x.sid) = none := by simpa using hnew
  have hfind : ((List.range 32).find? fun k => !s.edp.subs.any fun y => y.1 == k) = none := by
    rw [List.find?_eq_none]
    intro j hj
    obtain ⟨y, hy, rfl⟩ := hfull j (List.mem_range.1 hj)
    simpa using ⟨_, hy⟩
  simp only [subscribeAct, hold, if_neg hmask, hfind]

theorem subscribeAct_of_none (hk : kinds = 0) (hc : classes = 0) : subscribeAct h kinds classes (some x) s
    = answer OK 0 0 0 { s with edp := { s.edp with subs := s.edp.subs.filter fun y => y.2.sid != x.sid } } := by
  simp only [subscribeAct, if_pos (show kinds = 0 ∧ classes = 0 from ⟨hk, hc⟩)]

end

/-- An accepted request that is not its session's last, and closes none. -/
theorem serve_of_open {h : EdpHdr} {body : EdpBody} {x : Session} {s : State} (w : Accepts h body (bodySize body) x s)
    (act : Option Session → State → Served) {a : Ack} {u : State}
    (hact : act (some (reqSession h x s)) (atRequest h x s) = (a, u, [])) :
    serve h body act s = finishRequest h body (a, u, []) := by
  rw [serve_accepts w]
  exact congrArg _ hact

theorem subscribeTakesLowestNumber : Claims.SubscribeTakesLowestNumber := by
  intro h x s kinds classes w hseq
  refine ⟨fun hmask hnew k hk hfree hlow => ?_, fun hmask hnew hfull => ?_, fun hk hc => ?_⟩
  · have hact := subscribeAct_of_new (h := h) (x := reqSession h x s) (s := atRequest h x s) hmask hnew hk hfree hlow
    obtain ⟨hack, hleaves⟩ := serve_post w (subscribeAct h kinds classes) hact
    have hsubs := (congrArg (fun t => t.edp.subs) (serve_of_open w (subscribeAct h kinds classes) hact)).trans
      (finishRequest_subs hseq _ _ _)
    refine ⟨_, rfl, (Leaves.of_eq rfl).trans hleaves, hack, ?_, fun y hy => ?_⟩
    · exact hsubs.symm ▸ mem_tset_self _ _ _
    · exact hsubs.symm ▸ mem_tset_of_mem _ hy (hfree y hy)
  · have hact := subscribeAct_of_full (h := h) (x := reqSession h x s) (s := atRequest h x s) hmask hnew hfull
    obtain ⟨hack, hleaves⟩ := serve_post w (subscribeAct h kinds classes) hact
    have hsubs := (congrArg (fun t => t.edp.subs) (serve_of_open w (subscribeAct h kinds classes) hact)).trans
      (finishRequest_subs hseq _ _ _)
    exact ⟨_, rfl, (Leaves.of_eq rfl).trans hleaves, hack, hsubs⟩
  · have hact := subscribeAct_of_none (h := h) (x := reqSession h x s) (s := atRequest h x s) hk hc
    obtain ⟨hack, hleaves⟩ := serve_post w (subscribeAct h kinds classes) hact
    have hsubs := (congrArg (fun t => t.edp.subs) (serve_of_open w (subscribeAct h kinds classes) hact)).trans
      (finishRequest_subs hseq _ _ _)
    exact ⟨_, rfl, (Leaves.of_eq rfl).trans hleaves, hack, hsubs⟩

/-! ## Events -/

/-- Sending the events that wait changes the queues and what is sent. -/
theorem pump_frame (k fuel : Nat) (s : State) :
    pump k fuel s = { s with edp := (pump k fuel s).edp, tx := (pump k fuel s).tx } := by
  have hshell := congrArg (fun u : State => { u with
    edp := (pump k fuel s).edp, tx := (pump k fuel s).tx, counters := (pump k fuel s).counters }) (pump_shell k fuel s)
  have hcounters := pump_counters k fuel s
  rw [hcounters] at hshell
  refine Eq.trans ?_ hshell
  conv_rhs => rw [← hcounters]
  rfl

theorem find?_tset_self {α : Type} (l : List (Nat × α)) (k : Nat) (v : α) :
    (tset l k v).find? (fun z => z.1 == k) = some (k, v) := by
  induction l with
  | nil => simp [tset]
  | cons a r ih =>
    obtain ⟨i, w⟩ := a
    unfold tset
    split_ifs with hlt heq
    · simp
    · simp [heq]
    · rw [List.find?_cons_of_neg (by simpa using Ne.symm heq), ih]

theorem mem_tset {α : Type} {l : List (Nat × α)} {k : Nat} {v : α} {a : Nat × α} (h : a ∈ tset l k v) :
    a = (k, v) ∨ a ∈ l := by
  induction l with
  | nil => simpa [tset] using h
  | cons b r ih =>
    obtain ⟨i, w⟩ := b
    unfold tset at h
    split_ifs at h with hlt heq
    · simpa using h
    · subst heq
      rcases List.mem_cons.1 h with rfl | hr
      · exact .inl rfl
      · exact .inr (List.mem_cons_of_mem _ hr)
    · rcases List.mem_cons.1 h with rfl | hr
      · exact .inr (List.mem_cons_self ..)
      · exact (ih hr).imp_right (List.mem_cons_of_mem _)

/-- A live session that has been changed is found changed. -/
theorem session_setSession {s : State} {x y : Session} (h : s.session x.sid = some y) :
    (setSession x s).session x.sid = some x := by
  have hmap : ∀ l : List Session, (l.find? fun z => z.sid == x.sid) = some y →
      ((l.map fun z => if z.sid == x.sid then x else z).find? fun z => z.sid == x.sid) = some x := by
    intro l hl
    induction l with
    | nil => simp at hl
    | cons a r ih =>
      by_cases ha : a.sid = x.sid
      · simp [ha]
      · rw [List.find?_cons_of_neg (by simpa using ha)] at hl
        rw [List.map_cons, if_neg (by simpa using ha), List.find?_cons_of_neg (by simpa using ha), ih hl]
  exact hmap _ h

theorem mem_insertUnsent {e x : Event} {q : List Event} (h : e ∈ insertUnsent x q) : e = x ∨ e ∈ q := by
  induction q with
  | nil => simpa [insertUnsent] using h
  | cons a r ih =>
    unfold insertUnsent at h
    split_ifs at h
    · simpa using h
    · rcases List.mem_cons.1 h with rfl | hr
      · exact .inr (List.mem_cons_self ..)
      · exact (ih hr).imp_right (List.mem_cons_of_mem _)

theorem mem_markSent {e : Event} {m : Nat} {q : List Event} (h : e ∈ markSent m q) : e.seq = some m ∨ e ∈ q := by
  induction q with
  | nil => simp [markSent] at h
  | cons a r ih =>
    unfold markSent at h
    split_ifs at h
    · rcases List.mem_cons.1 h with rfl | hr
      · exact .inl rfl
      · exact .inr (List.mem_cons_of_mem _ hr)
    · rcases List.mem_cons.1 h with rfl | hr
      · exact .inr (List.mem_cons_self ..)
      · exact (ih hr).imp_right (List.mem_cons_of_mem _)

theorem nextTx_of_session {i : BitVec 32} {x : Session} {s : State} (h : s.session i = some x) :
    nextTx i s = (x.txSeq + 1, setSession { x with txSeq := x.txSeq + 1 } s) := by
  simp [nextTx, h]

/-- Event `n` of a session's subscription `k` is acknowledged: it stands in no queue of number `k`, and the session's next
numbers are higher. -/
structure EventGone (k n : Nat) (sid : BitVec 32) (s : State) : Prop where
  owner : ∀ z, (k, z) ∈ s.edp.subs → z.sid = sid
  gone : ∀ z, s.edp.subs.find? (fun z => z.1 == k) = some (k, z) → ∀ e ∈ z.queue, e.seq ≠ some n
  next : ∀ z, (k, z) ∈ s.edp.subs → ∃ x, s.session sid = some x ∧ n ≤ x.txSeq

section
variable {k n : Nat} {sid : BitVec 32} {s : State}

/-- Once the session is closed no subscription of the number is left. -/
theorem EventGone.closed (h : EventGone k n sid s) : EventGone k n sid (closeSession sid s) := by
  have hnone : ∀ z, (k, z) ∉ (closeSession sid s).edp.subs := by
    intro z hz
    obtain ⟨hmem, hsid⟩ := List.mem_filter.1 hz
    exact absurd (h.owner z hmem) (by simpa using hsid)
  exact ⟨fun z hz => absurd hz (hnone z), fun z hz => absurd (List.mem_of_find?_eq_some hz) (hnone z),
    fun z hz => absurd hz (hnone z)⟩

/-- The queue of the number is replaced by one without the event. -/
theorem EventGone.replaced {u : State} {sub : Subscription} (h : EventGone k n sid s) (hsubs : u.edp.subs = tset s.edp.subs k sub)
    (hsub : sub.sid = sid) (hqueue : ∀ e ∈ sub.queue, e.seq ≠ some n) (hnext : ∃ x, u.session sid = some x ∧ n ≤ x.txSeq) :
    EventGone k n sid u := by
  refine ⟨fun z hz => ?_, fun z hz => ?_, fun _ _ => hnext⟩
  · rw [hsubs] at hz
    rcases mem_tset hz with heq | hold
    · cases heq; exact hsub
    · exact h.owner z hold
  · rw [hsubs, find?_tset_self] at hz
    cases hz
    exact hqueue

end

/-- Sending what waits keeps an acknowledged event away. -/
theorem EventGone.pump {k n : Nat} {sid : BitVec 32} {s : State} (h : EventGone k n sid s) (fuel : Nat) :
    EventGone k n sid (pump k fuel s) := by
  induction fuel generalizing s with
  | zero => exact h
  | succ fuel ih =>
    rw [Machine.pump]
    split
    · exact h
    · next k' sub hfound =>
      obtain rfl : k' = k := by simpa using List.find?_some hfound
      have hmem := List.mem_of_find?_eq_some hfound
      have hsid := h.owner sub hmem
      obtain ⟨x, hx, hn⟩ := h.next sub hmem
      extract_lets sub' b s'
      have hsid' : sub'.sid = sid := by
        simp only [sub']; split
        · exact hsid
        · exact hsid
      have hqueue : ∀ e ∈ sub'.queue, e.seq ≠ some n := by
        simp only [sub']; split
        · exact h.gone sub hfound
        · intro e he
          rcases mem_insertUnsent he with rfl | hold
          · simp [dropEvent]
          · exact h.gone sub hfound e hold
      have hs' : EventGone k' n sid s' := h.replaced rfl hsid' hqueue ⟨x, hx, hn⟩
      split
      · exact hs'
      · split
        · exact hs'
        · next e _ =>
          have hx' : s'.session sub'.sid = some x := hsid'.symm ▸ hx
          rw [nextTx_of_session hx']
          have hsent := hs'.replaced (u := send (.event sub'.transport sub'.peer sub'.sid (x.txSeq + 1)
              { e with seq := some (x.txSeq + 1) })
            (putSub k' { sub' with queue := markSent (x.txSeq + 1) sub'.queue }
              (setSession { x with txSeq := x.txSeq + 1 } s'))) rfl hsid' (fun e he => ?_) ⟨{ x with txSeq := x.txSeq + 1 }, ?_, Nat.le_succ_of_le hn⟩
          · refine ih ?_
            split
            · exact hsid'.symm ▸ hsent.closed
            · exact hsent
          · rcases mem_markSent he with hnew | hold
            · rw [hnew]; simp; omega
            · exact hqueue e hold
          · have hxsid : x.sid = sid := session_sid hx
            subst hxsid
            exact session_setSession (x := { x with txSeq := x.txSeq + 1 }) (s := s') hx

/-- A driver's ACK of an event, accepted. -/
theorem serveAck_of_accepted {h : EdpHdr} {n : Nat} {x : Session} {s : State} (w : Accepts h (.ack n) 0 x s) :
    serveAck h n s = lastSeq h (ackEvent x.sid n (atRequest h x s)) := by
  obtain ⟨h1, h2, h3, h4, h5, h6, h7, h8, h9⟩ := w
  have hcache : (x.cache.any fun c => c.1 == h.seq) = false := by
    rw [List.any_eq_false]
    exact fun c hc => List.find?_eq_none.1 h8 c hc
  unfold serveAck receive
  simp only [h1, h2, h3, h4, h5, h6, h7, Bool.not_true, Bool.false_eq_true, if_false, if_true, hcache, h9, Bool.or_self]
  rfl

/-- The session of an accepted request, as it stands when the request is carried out. -/
theorem session_atRequest {h : EdpHdr} {b : EdpBody} {m : Nat} {x : Session} {s : State} (w : Accepts h b m x s) :
    (atRequest h x s).session x.sid = some (acceptedSession h x s) := by
  rw [w.sid]
  have htagged := session_setSession (x := { x with tagged := true }) (s := s) (by simpa [w.sid] using w.found)
  exact w.sid ▸ session_setSession (x := acceptedSession h x s) htagged

theorem lastSeq_frame (h : EdpHdr) (s : State) : lastSeq h s = { s with edp := (lastSeq h s).edp } := by
  unfold lastSeq; split <;> rfl

section
variable {s : State} {k n : Nat} {y : Subscription} (hsub : s.edp.subs.find? (fun z => z.1 == k) = some (k, y))
include hsub

theorem eventAck_gone {h : EdpHdr} {x : Session} (hkeys : (s.edp.subs.map (·.1)).Nodup)
    (w : Accepts h (.ack n) 0 x s) (hown : s.edp.subs.find? (fun z => z.2.sid == x.sid) = some (k, y)) (hn : n ≤ x.txSeq) :
    ∃ t, exec (.eventAck h n) s = .next t ∧ t = { s with edp := t.edp, tx := t.tx }
      ∧ ∀ z, t.edp.subs.find? (fun z => z.1 == k) = some (k, z) → ∀ e ∈ z.queue, e.seq ≠ some n := by
  have hysid : y.sid = x.sid := by simpa using List.find?_some hown
  have hack : ackEvent x.sid n (atRequest h x s)
      = pump k 17 (putSub k { y with queue := y.queue.filter fun e => e.seq != some n } (atRequest h x s)) := by
    unfold ackEvent
    rw [show (atRequest h x s).edp.subs.find? (fun z => z.2.sid == x.sid) = some (k, y) from hown]
  have honly : ∀ z, (k, z) ∈ s.edp.subs → z = y := by
    intro z hz
    have heq := List.inj_on_of_nodup_map hkeys hz (List.mem_of_find?_eq_some hsub) rfl
    exact (Prod.mk.inj heq).2
  have hgone : EventGone k n x.sid
      (putSub k { y with queue := y.queue.filter fun e => e.seq != some n } (atRequest h x s)) := by
    refine ⟨fun z hz => ?_, fun z hz e he => ?_, fun _ _ => ⟨_, session_atRequest w, hn⟩⟩
    · rcases mem_tset hz with heq | hold
      · cases heq; exact hysid
      · rw [honly z hold]; exact hysid
    · have hz' := (find?_tset_self s.edp.subs k { y with queue := y.queue.filter fun e => e.seq != some n }).symm.trans hz
      cases hz'
      simpa using (List.mem_filter.1 he).2
  refine ⟨_, rfl, ?_, fun z hz => ?_⟩
  · rw [serveAck_of_accepted w, lastSeq_frame, hack, pump_frame]
    rfl
  · rw [serveAck_of_accepted w, hack] at hz
    have hend : EventGone k n x.sid (lastSeq h (pump k 17
        (putSub k { y with queue := y.queue.filter fun e => e.seq != some n } (atRequest h x s)))) := by
      unfold lastSeq
      split
      · exact w.sid ▸ (hgone.pump 17).closed
      · exact hgone.pump 17
    exact hend.gone z hz

theorem resendState_of_found {e : Event} (he : y.queue.find? (fun e => e.seq == some n) = some e) : resendState k n s
    = if 10 ≤ e.resends then dropEventAt k y e s
      else send (.event y.transport y.peer y.sid n { e with resends := e.resends + 1 })
        (putSub k { y with queue := y.queue.map fun f => if f.seq == some n then { e with resends := e.resends + 1 } else f } s) := by
  simp only [resendState, hsub, he]

theorem resendState_of_absent (he : y.queue.find? (fun e => e.seq == some n) = none) : resendState k n s = s := by
  simp only [resendState, hsub, he]

end

/-- An event given up after its last resend is counted (R361). -/
theorem dropEventAt_counted {k : Nat} {y : Subscription} {e : Event} {s : State} (h : e.kind ≠ 6) :
    ∃ q, dropEventAt k y e s = pump k 17 (bump 0x1100 0x0A 1 64 (putSub k q s)) := by
  refine ⟨{ y with
    queue := y.queue.filter fun f => f.seq != e.seq, tally := y.tally + 1, dropped := y.dropped + 1 }, ?_⟩
  unfold dropEventAt
  simp only [if_neg h]

theorem eventsAreAckedOrResent : Claims.EventsAreAckedOrResent := by
  intro s k n y hsub hkeys
  refine ⟨fun h x w hown hn => eventAck_gone hsub hkeys w hown hn, fun e he hlt => ?_, fun e he hge hkind => ?_,
    fun he => congrArg Host.Outcome.next (resendState_of_absent hsub he)⟩
  · have hstate := (resendState_of_found hsub he).trans (if_neg (Nat.not_le.2 hlt))
    exact ⟨_, congrArg Host.Outcome.next hstate, rfl, rfl⟩
  · obtain ⟨q, hq⟩ := dropEventAt_counted (k := k) (y := y) (s := s) hkind
    have hstate := ((resendState_of_found hsub he).trans (if_pos hge)).trans hq
    refine ⟨_, congrArg Host.Outcome.next hstate, ?_, ?_⟩
    · rw [pump_frame]; rfl
    · rw [State.counter, pump_counters]
      exact bump_counter_same ..

/-- Settles O25: the lowest free number is found in the range of 32, and an acknowledged event never comes back because the
session's later numbers are higher. -/
theorem subscriptionsAndEvents : Obligations.SubscriptionsAndEvents :=
  ⟨subscribeTakesLowestNumber, eventsAreAckedOrResent⟩

end Sys2Proof.Machine
end

section
/-! Relay (R343): what a request for another device leaves, and what comes back. -/

namespace Sys2Proof.Machine

section
variable {h : EdpHdr} {body : EdpBody} {s : State} (hup : s.stewardUp = true) (hreach : s.reaches h.transport = true)
  (hok : msgOk h (bodySize body) = true) (helse : s.elsewhere h = true) (hack : ∀ n, body ≠ .ack n)
include hup hreach hok helse hack

/-- A request for another device goes to the relay. -/
theorem exec_relayRequest : exec (.relayRequest h body) s = .next (relayOut h body s) := by
  have hreceive (act : Option Session → State → Served) : serve h body act s = relayOut h body s := by
    unfold serve serveSized receive
    simp only [hup, hreach, hok, helse, Bool.not_true, Bool.false_eq_true, if_false, if_true]
  have hord : ordinary h body s = serveBody h body s := by simp [ordinary, helse]
  have hserve : serveBody h body s = relayOut h body s := by
    cases body with
    | ack n => exact absurd rfl (hack n)
    | _ => exact hreceive _
  rw [← hserve, ← hord]
  rfl

end

/-- The records of relayed requests, with the one for this request last. -/
def relaysWith (h : EdpHdr) (s : State) : List (Nat × BitVec 32 × Nat × Transport × Nat) :=
  s.edp.relays.filter (fun r => !(r.1 == h.target && r.2.1 == h.session && r.2.2.1 == h.seq))
    ++ [(h.target, h.session, h.seq, h.transport, h.peer)]

theorem relayOut_of_path {h : EdpHdr} {body : EdpBody} {s : State} (hpath : s.pathTo h.target = true) :
    ∃ p, relayOut h body s = send (.relay h.target h body)
      (injectPacket p { bump 0x1100 8 1 64 s with edp := { s.edp with relays := relaysWith h s } }) :=
  ⟨_, if_pos hpath⟩

theorem relayOut_of_none {h : EdpHdr} {body : EdpBody} {s : State} (hpath : s.pathTo h.target = false) :
    relayOut h body s = bump 0x1100 9 1 64 s := if_neg (by simp [hpath])

theorem relayed_out {h : EdpHdr} {body : EdpBody} {s : State} (hpath : s.pathTo h.target = true) :
    let t := relayOut h body s
    .relay h.target h body ∈ t.tx ∧ t.edp = { s.edp with relays := relaysWith h s }
      ∧ t.counter 0x1100 8 = satAdd 64 (s.counter 0x1100 8) 1
      ∧ t = { s with edp := t.edp, tx := t.tx, counters := t.counters, fab := t.fab } := by
  obtain ⟨p, hout⟩ := relayOut_of_path (body := body) hpath
  have honly := (injectPacket_only p { bump 0x1100 8 1 64 s with edp := { s.edp with relays := relaysWith h s } }).trans
    (fabricOnly_send (.relay h.target h body) _)
  rw [← hout] at honly
  obtain ⟨hframe, hcount⟩ := honly
  refine ⟨?_, ?_, ?_, ?_⟩
  · rw [hout]; simp
  · rw [hframe]
  · rw [State.counter, hcount _ (by decide)]
    exact bump_counter_same ..
  · conv_lhs => rw [hframe]
    rw [show (relayOut h body s).edp = { s.edp with relays := relaysWith h s } by rw [hframe]]
    rfl

/-- A message that is no acknowledgment is served at its target. -/
theorem relayPacketState_of_request {dev : Nat} {h : EdpHdr} {body : EdpBody} {s : State} (hack : ∀ n, body ≠ .ack n)
    (hown : ownCommand body = false) :
    relayPacketState dev h body s = serveBody { h with transport := .relay dev } body s := by
  unfold relayPacketState
  split
  · next n _ _ _ _ _ _ => exact absurd rfl (hack _)
  · rw [hown]; rfl

/-- Settles O26: a request for another device is `relayOut`, an acknowledgment is matched with its record, and any other
relayed message is served as if it had come here. -/
theorem relayRemembersRequests : Obligations.RelayRemembersRequests := by
  intro h body s
  refine ⟨fun hup hreach hok helse hack => ⟨fun hpath => ?_, fun hpath => ?_⟩, fun dev n tr peer hbody hfound => ?_,
    fun dev idx sub hbody => ?_, fun dev idx sub ty val hbody hown => ?_, fun target sid n => ?_⟩
  · obtain ⟨htx, hedp, hcount, hframe⟩ := relayed_out (body := body) hpath
    refine ⟨_, exec_relayRequest hup hreach hok helse hack, htx, ?_, ?_, hcount, hframe⟩
    · rw [hedp]; rfl
    · rw [hedp]
  · refine ⟨_, exec_relayRequest hup hreach hok helse hack, ?_, ?_⟩
    · rw [relayOut_of_none hpath]; rfl
    · rw [relayOut_of_none hpath]; exact bump_counter_same ..
  · subst hbody
    have hfound' : s.edp.relays.find? (fun r => r.1 == dev && r.2.1 == h.session && decide (EdpBody.ack n = .ack r.2.2.1))
        = some (dev, h.session, n, tr, peer) := by simpa using hfound
    have hstate : relayPacketState dev h (.ack n) s = send (.relayBack tr peer h (.ack n)) { s with edp := { s.edp with
        relays := s.edp.relays.filter fun r => r != (dev, h.session, n, tr, peer) } } := by
      simp only [relayPacketState, hfound']
    exact ⟨_, congrArg Host.Outcome.next hstate, rfl, rfl, rfl⟩
  · subst hbody
    exact congrArg Host.Outcome.next (relayPacketState_of_request (fun n => by simp) rfl)
  · subst hbody
    rw [exec_writeEntry hown]
    exact congrArg Host.Outcome.next (relayPacketState_of_request (fun n => by simp) hown)
  · refine ⟨_, rfl, rfl, fun r => ?_⟩
    simp only [relayExpiryState, List.mem_filter, Bool.not_eq_true', Bool.and_eq_false_iff, beq_eq_false_iff_ne]
    tauto

end Sys2Proof.Machine
end

section
/-! The end of sessions and holds, hellos and repeated requests (R346, R347, R350, R351, R353). -/

namespace Sys2Proof.Machine

/-! ## A session that ends -/

/-- Nothing of a session is left: neither itself, nor a subscription, nor a hold. -/
structure SessionGone (sid : BitVec 32) (s : State) : Prop where
  session : ∀ x ∈ s.edp.sessions, x.sid ≠ sid
  subs : ∀ y ∈ s.edp.subs, y.2.sid ≠ sid
  holds : ∀ d ∈ s.edp.holds, d.sid ≠ sid

theorem sessionGone_closeSession (sid : BitVec 32) (s : State) : SessionGone sid (closeSession sid s) := by
  constructor
  all_goals
    intro x hx
    simpa using (List.mem_filter.1 hx).2

theorem SessionGone.closed {sid : BitVec 32} {s : State} (h : SessionGone sid s) (i : BitVec 32) :
    SessionGone sid (closeSession i s) :=
  ⟨fun x hx => h.session x (List.mem_filter.1 hx).1, fun y hy => h.subs y (List.mem_filter.1 hy).1,
    fun d hd => h.holds d (List.mem_filter.1 hd).1⟩

theorem SessionGone.congr {sid : BitVec 32} {s t : State} (h : SessionGone sid s) (hedp : t.edp = s.edp) :
    SessionGone sid t := ⟨hedp ▸ h.session, hedp ▸ h.subs, hedp ▸ h.holds⟩

theorem SessionGone.all {sid : BitVec 32} {s : State} (h : SessionGone sid s) :
    s.session sid = none ∧ (∀ y ∈ s.edp.subs, y.2.sid ≠ sid) ∧ ∀ d ∈ s.edp.holds, d.sid ≠ sid :=
  ⟨List.find?_eq_none.2 fun x hx => by simpa using h.session x hx, h.subs, h.holds⟩

/-- A request that closes a session closes it after its ACK. -/
theorem finishRequest_gone (h : EdpHdr) (b : EdpBody) (a : Ack) (u : State) (sid : BitVec 32) :
    SessionGone sid (finishRequest h b (a, u, [sid])) := by
  have hclosed := sessionGone_closeSession sid (sendAck h a (cacheAck h b a u))
  have hlast : SessionGone sid (lastSeq h (closeSession sid (sendAck h a (cacheAck h b a u)))) := by
    unfold lastSeq
    split
    · exact hclosed.closed _
    · exact hclosed
  exact hlast.congr (returnPages_edp _)

theorem returnPages_closed_gone (sid : BitVec 32) (s : State) : SessionGone sid (returnPages (closeSession sid s)) :=
  (sessionGone_closeSession sid s).congr (returnPages_edp _)

theorem returnPages_closed_body (sid : BitVec 32) (s : State) : (returnPages (closeSession sid s)).body = s.body :=
  returnPages_body _

theorem returnPages_closed_localUs (s : State) : (returnPages s).localUs = s.localUs := by
  unfold returnPages; split <;> rfl

theorem closedSessionsLeaveNothing_claim : Claims.ClosedSessionsLeaveNothing := by
  intro s sid
  refine ⟨fun h x w => ?_, fun x hx => ?_, fun x hx htag => ?_, fun x hx htag => ?_⟩
  · have hclass : writeClass s x 0x1100 0x12 = OK := by simp [writeClass, show entryOf 0x1100 0x12 = some (woE tU32) from rfl,
      w.right, woE]
    have hserve := writeCommand_ok w (fun _ s => (OK, s, [sid])) hclass rfl rfl
    obtain ⟨hack, hleaves⟩ := writeCommand_post w (fun _ s => (OK, s, [sid])) hclass rfl rfl
    refine ⟨_, rfl, hack, (Leaves.of_eq rfl).trans hleaves, ?_⟩
    rw [hserve]
    exact (finishRequest_gone _ _ _ _ _).all
  · have hstate : idleTimeoutState sid s
        = returnPages (closeSession sid { s with localUs := max s.localUs (x.lastRx + 1000000 * s.regs.idleTime) }) := by
      simp only [idleTimeoutState, hx]
    refine ⟨_, congrArg Host.Outcome.next hstate, (returnPages_closed_gone sid _).all, ?_, ?_⟩
    · exact returnPages_closed_localUs _
    · rw [returnPages_closed_localUs]; exact returnPages_closed_body sid _
  · have hstate : tagTimeoutState sid s
        = returnPages (closeSession sid { s with localUs := max s.localUs (x.opened + 10000000) }) := by
      simp [tagTimeoutState, hx, htag]
    refine ⟨_, congrArg Host.Outcome.next hstate, (returnPages_closed_gone sid _).all, ?_, ?_⟩
    · exact returnPages_closed_localUs _
    · rw [returnPages_closed_localUs]; exact returnPages_closed_body sid _
  · exact congrArg Host.Outcome.next (by simp [tagTimeoutState, hx, htag])

theorem holdsTimeOut : Claims.HoldsTimeOut := by
  intro s idx sub d hd
  have hstate : holdTimeoutState idx sub s
      = returnPages (dropHold idx sub { s with localUs := max s.localUs (d.last + 10000000) }) := by
    simp only [holdTimeoutState, hd]
  refine ⟨_, congrArg Host.Outcome.next hstate, ?_, returnPages_closed_localUs _, ?_, fun i k hne => ?_, ?_⟩
  · rw [State.hold?, returnPages_edp]; exact hold?_dropHold idx sub _
  · rw [returnPages_edp]; rfl
  · rw [State.hold?, returnPages_edp]; exact hold?_dropHold_other hne _
  · rw [returnPages_closed_localUs]; exact returnPages_body _

/-- Settles O27: closing filters the sessions, subscriptions and holds by their session, and nothing brings one back. -/
theorem closedSessionsLeaveNothing : Obligations.ClosedSessionsLeaveNothing :=
  ⟨closedSessionsLeaveNothing_claim, holdsTimeOut⟩

/-! ## Hellos -/

/-- Of seventeen candidates one is used by none of fewer than seventeen sessions. -/
theorem freshSid_fresh {s : State} (hfew : s.edp.sessions.length < 16) :
    freshSid s ≠ 0 ∧ ∀ y ∈ s.edp.sessions, y.sid ≠ freshSid s := by
  have hunused {x : BitVec 32} (h : (x == 0 || s.edp.sessions.any fun y => y.sid == x) = false) :
      x ≠ 0 ∧ ∀ y ∈ s.edp.sessions, y.sid ≠ x := by
    simpa [Bool.or_eq_false_iff] using h
  unfold freshSid
  dsimp only
  split_ifs with hc
  · exact hunused (by simpa using hc)
  · split
    · next i hi => exact hunused (by simpa using List.find?_some hi)
    · next hnone =>
      exfalso
      rw [List.find?_eq_none] at hnone
      have hall : ∀ i ∈ List.range 17, BitVec.ofNat 32 (i + 1) ∈ s.edp.sessions.map (·.sid) := by
        intro i hi
        have hlt := List.mem_range.1 hi
        have hne : BitVec.ofNat 32 (i + 1) ≠ 0 := by
          intro h0
          have := congrArg BitVec.toNat h0
          simp only [BitVec.toNat_ofNat, show (0 : BitVec 32).toNat = 0 from rfl] at this
          omega
        have hused := hnone i hi
        simp only [Bool.not_eq_true', Bool.not_eq_false, Bool.or_eq_true, beq_iff_eq] at hused
        rcases hused with h0 | hany
        · exact absurd h0 hne
        · obtain ⟨y, hy, hsid⟩ := List.any_eq_true.1 hany
          exact List.mem_map.2 ⟨y, hy, by simpa using hsid⟩
      have hnodup : ((List.range 17).map fun i => BitVec.ofNat 32 (i + 1)).Nodup := by decide
      have hsub : ((List.range 17).map fun i => BitVec.ofNat 32 (i + 1)) ⊆ s.edp.sessions.map (·.sid) := by
        intro b hb
        obtain ⟨i, hi, rfl⟩ := List.mem_map.1 hb
        exact hall i hi
      have hlen := (List.subperm_of_subset hnodup hsub).length_le
      simp at hlen
      omega

section
variable {h : EdpHdr} {hello : Hello} {s : State}

/-- The message that carries a hello. -/
def helloBody (hello : Hello) : EdpBody := .writeBlock 0x1100 0x10 tOCTETS 0 (helloBytes hello).length true (helloBytes hello)

theorem zeroOk_hello : zeroOk (helloBody hello) = true := by simp [zeroOk, helloBody]

/-- A hello in session 0 answers what `helloAct` gives. -/
theorem exec_clientHello (hup : s.stewardUp = true) (hreach : s.reaches h.transport = true) (hok : msgOk h 286 = true)
    (hhere : s.elsewhere h = false) (hzero : h.session = 0) {a : Ack} {u : State} {cl : List (BitVec 32)}
    (hact : helloAct h hello none s = (a, u, cl)) : exec (.clientHello h hello) s = .next (sendAck h a u) := by
  have hserve : serveSized h (helloBody hello) 286 (helloAct h hello) s = sendAck h a u := by
    unfold serveSized receive
    simp only [hup, hreach, hok, hhere, hzero, Bool.not_true, Bool.false_eq_true, if_false, if_true, zeroOk_hello, hact]
  rw [← hserve]
  rfl

theorem helloAct_of_new (hnew : ∀ r ∈ s.edp.hellos, ¬ (r.transport = h.transport ∧ r.peer = h.peer ∧ r.seq = h.seq
    ∧ r.hello = hello)) : helloAct h hello none s
      = ((answerHello h.transport h.peer hello s).1, if (answerHello h.transport h.peer hello s).1.status = OK then
          keepHello ⟨h.transport, h.peer, h.seq, hello, (answerHello h.transport h.peer hello s).1,
            (answerHello h.transport h.peer hello s).2.localUs⟩ (answerHello h.transport h.peer hello s).2
        else (answerHello h.transport h.peer hello s).2, []) := by
  have hnone : s.edp.hellos.find? (fun r => r.transport == h.transport && r.peer == h.peer && r.seq == h.seq
      && r.hello == hello && decide (s.localUs ≤ r.at_ + 10000000)) = none := by
    rw [List.find?_eq_none]
    intro r hr hfit
    simp only [Bool.and_eq_true, beq_iff_eq] at hfit
    exact hnew r hr ⟨hfit.1.1.1.1, hfit.1.1.1.2, hfit.1.1.2, hfit.1.2⟩
  simp only [helloAct, hnone]

theorem answerHello_of_denied (hdeny : (∀ r, keyRight s hello.keyDigest = some r → r < hello.right) ∨ hello.sigOk = false) :
    answerHello h.transport h.peer hello s = (ackStatus ACCESS_DENIED 0x1100 0x10, s) := by
  unfold answerHello
  dsimp only
  split
  · rfl
  · next r hr =>
    rw [if_pos]
    simp only [Bool.or_eq_true, decide_eq_true_eq, Bool.not_eq_true']
    exact hdeny.imp_left fun hlow => hlow r hr

theorem answerHello_of_full (hkey : ∃ r, keyRight s hello.keyDigest = some r ∧ hello.right ≤ r) (hsig : hello.sigOk = true)
    (hfull : 16 ≤ s.edp.sessions.length) :
    answerHello h.transport h.peer hello s = (ackStatus BUSY 0x1100 0x10, s) := by
  obtain ⟨r, hr, hle⟩ := hkey
  simp [answerHello, hr, hsig, hfull, Nat.not_lt.2 hle]

/-- The session a hello opens. -/
def helloSession (h : EdpHdr) (hello : Hello) (s : State) : Session :=
  { sid := freshSid s, right := hello.right, key := hello.keyDigest, transport := h.transport, peer := h.peer
    opened := s.localUs, tagged := false, lastRx := s.localUs, rxHi := 0, rxSeen := [], txSeq := 0, cache := []
    report := none }

theorem answerHello_of_open (hkey : ∃ r, keyRight s hello.keyDigest = some r ∧ hello.right ≤ r) (hsig : hello.sigOk = true)
    (hroom : s.edp.sessions.length < 16) :
    (answerHello h.transport h.peer hello s).1.status = OK
      ∧ (answerHello h.transport h.peer hello s).2 = { s with edp := { s.edp with
          sessions := s.edp.sessions ++ [helloSession h hello s], sessionNo := s.edp.sessionNo + 1 } } := by
  obtain ⟨r, hr, hle⟩ := hkey
  have hfits : ¬ (decide (r < hello.right) || !hello.sigOk) = true := by simp [hsig, hle]
  unfold answerHello
  simp only [hr, if_neg hfits, if_neg (Nat.not_le.2 hroom)]
  exact ⟨trivial, rfl⟩

end

theorem keepHello_body (r : HelloRec) (b : Edp) (s : State) : (keepHello r { s with edp := b }).body = s.body := rfl

theorem setSession_body (x : Session) (s : State) : (setSession x s).body = s.body := rfl

/-- Settles O28: `answerHello` in the three cases of the key's right, the signature and the number of sessions. -/
theorem helloOpensSession : Obligations.HelloOpensSession := by
  intro h hello s hup hreach hok hhere hzero hnew
  have hact := helloAct_of_new (h := h) hnew
  refine ⟨fun hkey hsig hroom => ?_, fun hdeny => ?_, fun hkey hsig hfull => ?_⟩
  · obtain ⟨hstatus, hstate⟩ := answerHello_of_open (h := h) hkey hsig hroom
    obtain ⟨hne, hfresh⟩ := freshSid_fresh hroom
    rw [hstate, if_pos hstatus] at hact
    refine ⟨_, helloSession h hello s, _, exec_clientHello hup hreach hok hhere hzero hact, ?_, hne, hfresh, rfl, rfl, rfl,
      sendAck_acked _ _ _, hstatus, (Leaves.of_eq (keepHello_body _ _ s)).trans (sendAck_leaves _ _ _)⟩
    rw [sendAck_edp]; rfl
  · rw [answerHello_of_denied hdeny] at hact
    have hdenied : helloAct h hello none s = (ackStatus ACCESS_DENIED 0x1100 0x10, s, []) := hact
    exact ⟨_, exec_clientHello hup hreach hok hhere hzero hdenied, sendAck_edp _ _ _, sendAck_leaves _ _ _,
      sendAck_acked _ _ _⟩
  · rw [answerHello_of_full hkey hsig hfull] at hact
    have hbusy : helloAct h hello none s = (ackStatus BUSY 0x1100 0x10, s, []) := hact
    exact ⟨_, exec_clientHello hup hreach hok hhere hzero hbusy, sendAck_edp _ _ _, sendAck_leaves _ _ _,
      sendAck_acked _ _ _⟩

/-! ## Repeated requests -/

/-- Settles O29: the recorded ACK of the session's cache is found before the request is looked at. -/
theorem repeatsAreNotCarriedOut : Obligations.RepeatsAreNotCarriedOut := by
  intro h s x idx sub ty val b a hup hreach hok hhere hses hfound htag hown hcache
  have hserve (act : Option Session → State → Served) : serve h (.write idx sub ty val) act s
      = if b = .write idx sub ty val then sendAck h a (setSession { x with tagged := true } s)
        else countReplay (setSession { x with tagged := true } s) := by
    have hok' : msgOk h (bodySize (.write idx sub ty val)) = true := hok
    unfold serve serveSized receive
    simp only [hup, hreach, hok', hhere, hses, hfound, htag, Bool.not_true, Bool.false_eq_true, if_false, if_true, serveIn,
      hcache]
  refine ⟨fun hsame => ⟨_, exec_writeEntry hown, ?_⟩, fun hother => ⟨_, exec_writeEntry hown, ?_⟩⟩
  · rw [hserve, if_pos hsame]
    refine ⟨sendAck_acked _ _ _, (Leaves.of_eq (setSession_body _ s)).trans (sendAck_leaves _ _ _), ?_, ?_⟩
    · rw [sendAck_edp]; rfl
    · rw [sendAck_edp]; rfl
  · rw [hserve, if_neg hother]
    exact ⟨rfl, bump_counter_same .., rfl⟩

end Sys2Proof.Machine
end

section
/-! Ownership statements and attestation (R380, R424 to R426, R430). -/

namespace Sys2Proof.Machine

theorem closeKey_frame (key : Bytes) (s : State) : closeKey key s = { s with edp := (closeKey key s).edp } := by
  unfold closeKey
  generalize s.edp.sessions.filter _ = l
  induction l generalizing s with
  | nil => rfl
  | cons x l ih => exact (ih (closeSession x.sid s)).trans rfl

section
variable {h : EdpHdr} {x : Session} {s : State} {st : Statement} {sub : Nat}

theorem takeStatement_of_good {writer : Bytes} (henc : stmtEncodingOk sub st = true) (hlegal : stmtLegal s st = true)
    (hsigned : stmtSigned s st = true) (hwriter : stmtWriter s writer st = true) :
    takeStatement sub writer st s = (OK, (stmtEffect st s).1, (stmtEffect st s).2) := by
  simp [takeStatement, henc, hlegal, hsigned, hwriter]

theorem takeStatement_of_unsigned {writer : Bytes} (henc : stmtEncodingOk sub st = true) (hlegal : stmtLegal s st = true)
    (hsigned : stmtSigned s st = false) : takeStatement sub writer st s
      = (SIGNATURE_BAD, logPlain SIGNATURE_BAD ([2, st.stype] ++ w64 st.ctr) s, []) := by
  simp [takeStatement, henc, hlegal, hsigned]

theorem takeStatement_of_illegal {writer : Bytes} (henc : stmtEncodingOk sub st = true) (hlegal : stmtLegal s st = false) :
    takeStatement sub writer st s = (ACCESS_DENIED, s, []) := by
  simp [takeStatement, henc, hlegal]

/-- A controller's statement, accepted, answers and leaves what `takeStatement` gives. -/
theorem statementCommand_post {code : Nat} {u : State} {cl : List (BitVec 32)} (hsub : sub = 1 ∨ sub = 2)
    (w : Accepts h (.write 0x8001 sub tOCTETS (stmtBytes st)) (4 + if sub = 1 then 320 else 176) x s) (hright : x.right = 1)
    (hfree : s.heldElse x 0x8001 sub = false)
    (hact : takeStatement sub x.key st (atRequest h x s) = (code, u, cl)) :
    Acked h (statusAck code 0x8001 sub tOCTETS) (statementCommand h sub st s)
      ∧ Leaves h u (statementCommand h sub st s) := by
  have hclass : writeClass (atRequest h x s) (reqSession h x s) 0x8001 sub = OK := by
    rcases hsub with rfl | rfl
    · exact writeClass_of_wo (e := woE tOCTETS) rfl rfl hright (by decide)
    · exact writeClass_of_wo (e := woE tOCTETS) rfl rfl hright (by decide)
  have hfree' : (atRequest h x s).heldElse (reqSession h x s) 0x8001 sub = false := hfree
  have hact' : takeStatement sub (reqSession h x s).key st (atRequest h x s) = (code, u, cl) := hact
  have hserved : statementAct sub st (some (reqSession h x s)) (atRequest h x s)
      = (statusAck code 0x8001 sub tOCTETS, u, cl) := by
    simp only [statementAct, hclass, ne_eq, not_true_eq_false, if_false, hfree', Bool.false_eq_true, hact']
    rfl
  have hserve : statementCommand h sub st s
      = finishRequest h (.write 0x8001 sub tOCTETS (stmtBytes st)) (statusAck code 0x8001 sub tOCTETS, u, cl) := by
    unfold statementCommand
    rw [serveSized_accepts w]
    exact congrArg _ hserved
  rw [hserve]
  exact ⟨finishRequest_acked _ _ _, finishRequest_leaves _ _ _⟩

end

/-- What the bookkeeping of a request leaves. -/
theorem Leaves.fields {h : EdpHdr} {u t : State} (hl : Leaves h u t) : t.sec = u.sec ∧ t.job = u.job ∧ t.dev = u.dev
    ∧ t.mm.mem = u.mm.mem ∧ t.log = u.log ∧ t.recipe = u.recipe ∧ t.regs = u.regs := by
  obtain ⟨⟨hbody, _⟩, _⟩ := hl
  have hsec := congrArg State.sec hbody
  have hjob := congrArg State.job hbody
  have hdev := congrArg State.dev hbody
  have hmm := congrArg (fun v => v.mm.mem) hbody
  have hlog := congrArg State.log hbody
  have hrecipe := congrArg State.recipe hbody
  have hregs := congrArg State.regs hbody
  exact ⟨hsec, hjob, hdev, hmm, hlog, hrecipe, hregs⟩

/-- A statement's effect touches nothing but the security state, the sessions and the required version. -/
theorem stmtEffect_frame (st : Statement) (s : State) : (stmtEffect st s).1 = { s with
    sec := (stmtEffect st s).1.sec, edp := (stmtEffect st s).1.edp, regs := (stmtEffect st s).1.regs
    eff := (stmtEffect st s).1.eff } := by
  unfold stmtEffect
  dsimp only
  split
  · split <;> rfl
  · split
    · split
      · rfl
      · conv_lhs => rw [closeKey_frame]
        rw [closeKey_frame]
        rfl
    · rfl
  · rfl
  · rfl
  · conv_lhs => rw [closeKey_frame]
    rw [closeKey_frame]

section
variable {st : Statement} {s : State}

theorem stmtEffect_first (hty : st.stype = 1) (hsec : s.sec.state = 0) : (stmtEffect st s).1.sec = { s.sec with
    state := 1, owner := stmtDigest st, ctr := st.ctr, clients := tset s.sec.clients 0 (stmtDigest st, 1) } := by
  simp only [stmtEffect, hty, hsec]
  rfl

theorem stmtEffect_owner (hty : st.stype = 1) (hsec : s.sec.state = 1) :
    (stmtEffect st s).1.sec = { s.sec with owner := stmtDigest st, ctr := st.ctr } := by
  simp only [stmtEffect, hty, hsec]
  rfl

theorem stmtEffect_client (hty : st.stype = 2) : (stmtEffect st s).1.sec = { s.sec with
    ctr := st.ctr, clients := tset s.sec.clients st.slot (stmtDigest st, st.right) } := by
  have hclose (key : Bytes) (t : State) : (closeKey key t).sec = t.sec := by rw [closeKey_frame]
  simp only [stmtEffect, hty]
  split
  · split
    · rfl
    · simp only [setClient, hclose]
  · rfl

theorem stmtEffect_release (hty : st.stype = 3) : (stmtEffect st s).1.sec = { s.sec with
    state := 0, owner := [], ctr := st.ctr, clients := [(0, (Config.factoryKeyDigest, 1))] } := by
  simp only [stmtEffect, hty]

theorem stmtEffect_lock (hty : st.stype = 4) : (stmtEffect st s).1.sec = { s.sec with state := 2, ctr := st.ctr } := by
  simp only [stmtEffect, hty]

theorem stmtEffect_revoke (hty : st.stype = 5) : (stmtEffect st s).1.sec = { s.sec with
    ctr := st.ctr, clients := s.sec.clients.filter fun c => c.2.1 != stmtDigest st } := by
  have hclose (key : Bytes) (t : State) : (closeKey key t).sec = t.sec := by rw [closeKey_frame]
  simp only [stmtEffect, hty, hclose]

end

section
variable {h : EdpHdr} {x : Session} {s : State} {st : Statement} {sub : Nat}

/-- A controller's statement that passes its checks. -/
theorem statementCommand_taken (hsub : sub = 1 ∨ sub = 2)
    (w : Accepts h (.write 0x8001 sub tOCTETS (stmtBytes st)) (4 + if sub = 1 then 320 else 176) x s) (hright : x.right = 1)
    (hfree : s.heldElse x 0x8001 sub = false) (henc : stmtEncodingOk sub st = true) (hsigned : stmtSigned s st = true)
    (hwriter : stmtWriter s x.key st = true) (hlegal : stmtLegal s st = true) {sec : Sec}
    (hsec : (stmtEffect st (atRequest h x s)).1.sec = sec) :
    let t := statementCommand h sub st s
    Acked h (statusAck OK 0x8001 sub tOCTETS) t ∧ t.sec = sec ∧ t.job = s.job ∧ t.dev = s.dev ∧ t.mm.mem = s.mm.mem
      ∧ t.log = s.log ∧ t.recipe = s.recipe := by
  obtain ⟨hack, hleaves⟩ := statementCommand_post hsub w hright hfree
    (takeStatement_of_good (s := atRequest h x s) henc hlegal hsigned hwriter)
  obtain ⟨hsec', hjob, hdev, hmem, hlog, hrecipe, -⟩ := hleaves.fields
  have hframe := stmtEffect_frame st (atRequest h x s)
  refine ⟨hack, hsec'.trans hsec, ?_, ?_, ?_, ?_, ?_⟩
  · exact hjob.trans (congrArg State.job hframe :)
  · exact hdev.trans (congrArg State.dev hframe :)
  · exact hmem.trans (congrArg (fun v : State => v.mm.mem) hframe :)
  · exact hlog.trans (congrArg State.log hframe :)
  · exact hrecipe.trans (congrArg State.recipe hframe :)

end

theorem statementsChangeOwnership_claim : Claims.StatementsChangeOwnership := by
  intro h x s st
  refine ⟨?_, ?_, ?_, ?_, ?_, ?_⟩
  · rintro ⟨w, hright, hfree, henc, hsigned, hwriter⟩ hstate
    exact ⟨_, rfl, statementCommand_taken (.inl rfl) w hright hfree henc hsigned hwriter (by simp [stmtLegal, hstate])
      (stmtEffect_first rfl hstate)⟩
  · rintro ⟨w, hright, hfree, henc, hsigned, hwriter⟩ hstate
    exact ⟨_, rfl, statementCommand_taken (.inl rfl) w hright hfree henc hsigned hwriter (by simp [stmtLegal, hstate])
      (stmtEffect_owner rfl hstate)⟩
  · rintro ⟨w, hright, hfree, henc, hsigned, hwriter⟩ hstate
    exact ⟨_, rfl, statementCommand_taken (.inl rfl) w hright hfree henc hsigned hwriter (by simpa [stmtLegal] using hstate)
      (stmtEffect_client rfl)⟩
  · rintro ⟨w, hright, hfree, henc, hsigned, hwriter⟩ hstate hidle
    exact ⟨_, rfl, statementCommand_taken (.inl rfl) w hright hfree henc hsigned hwriter
      (by simp [stmtLegal, hstate, hidle]) (stmtEffect_release rfl)⟩
  · rintro ⟨w, hright, hfree, henc, hsigned, hwriter⟩ hstate
    exact ⟨_, rfl, statementCommand_taken (.inl rfl) w hright hfree henc hsigned hwriter (by simp [stmtLegal, hstate])
      (stmtEffect_lock rfl)⟩
  · rintro ⟨w, hright, hfree, henc, hsigned, hwriter⟩ hstate
    exact ⟨_, rfl, statementCommand_taken (.inr rfl) w hright hfree henc hsigned hwriter (by simpa [stmtLegal] using hstate)
      (stmtEffect_revoke rfl)⟩

theorem badStatementsAreRefused : Claims.BadStatementsAreRefused := by
  intro h x s st st1 w hright hfree henc
  refine ⟨fun hstate hbad => ?_, fun hlocked => ?_⟩
  · have hlegal : stmtLegal (atRequest h x s) st1 = true := by
      have hsec : (atRequest h x s).sec = s.sec := rfl
      simpa [stmtLegal, st1, hsec] using hstate
    have hunsigned : stmtSigned (atRequest h x s) st1 = false := by
      have hctr : (atRequest h x s).sec = s.sec := rfl
      simp only [stmtSigned, st1, hctr, Bool.and_eq_false_iff, Bool.or_eq_false_iff, decide_eq_false_iff_not]
      rcases hbad with hctr | hsig | hsig
      · exact .inl (.inl (.inr (Nat.not_lt.2 hctr)))
      · exact .inl (.inr hsig)
      · exact .inr ⟨rfl, hsig⟩
    obtain ⟨hack, hleaves⟩ := statementCommand_post (.inl rfl) w hright hfree
      (takeStatement_of_unsigned (writer := x.key) henc hlegal hunsigned)
    obtain ⟨hsec, -, -, -, hlog, -, hregs⟩ := hleaves.fields
    refine ⟨_, rfl, hack, hsec.trans (logPlain_sec _ _ _), ?_⟩
    exact (logPlain_logged SIGNATURE_BAD ([2, st1.stype] ++ w64 st1.ctr) (atRequest h x s)).congr rfl hlog
  · have hillegal : stmtLegal (atRequest h x s) st1 = false := by
      have hsec : (atRequest h x s).sec = s.sec := rfl
      simp [stmtLegal, st1, hsec, hlocked]
    obtain ⟨hack, hleaves⟩ := statementCommand_post (.inl rfl) w hright hfree
      (takeStatement_of_illegal (writer := x.key) henc hillegal)
    exact ⟨_, rfl, hack, hleaves.fields.1, (Leaves.of_eq rfl).trans hleaves⟩

/-! ## Attestation -/

theorem report_atRequest (h : EdpHdr) (x : Session) (s : State) (nonce : Bytes) :
    report (atRequest h x s) nonce = report s nonce := by
  have hid : (atRequest h x s).devId = s.devId := rfl
  unfold report reportBody
  rw [hid]
  rfl

theorem takeNonce_of_session {x y : Session} {nonce : Bytes} {s : State} (hy : s.session x.sid = some y) :
    takeNonce x nonce s = setSession { y with report := some (report s nonce) } s := by
  simp [takeNonce, hy]

/-- The session of a request keeps its report when the ACK is recorded. -/
theorem finishRequest_report {h : EdpHdr} {b : EdpBody} {a : Ack} {u : State} {y : Session} (hseq : h.seq ≠ 0xFFFFFFFF)
    (hy : u.session h.session = some y) :
    ∃ z, (finishRequest h b (a, u, [])).session h.session = some z ∧ z.report = y.report := by
  have hcache : cacheAck h b a u = setSession { y with cache := ringPush 64 y.cache (h.seq, b, a) } u := by
    simp [cacheAck, hy]
  have hsid : y.sid = h.session := session_sid hy
  refine ⟨{ y with cache := ringPush 64 y.cache (h.seq, b, a) }, ?_, rfl⟩
  rw [finishRequest_of_open hseq, State.session, returnPages_edp, sendAck_edp, hcache, ← hsid]
  exact session_setSession (x := { y with cache := ringPush 64 y.cache (h.seq, b, a) }) (hsid ▸ hy)

theorem nonceGivesReport : Claims.NonceGivesReport := by
  intro h x s nonce w hlen hseq
  have hclass : writeClass s x 0x8010 1 = OK := writeClass_of_wo (e := woE tOCTETS) rfl rfl w.right (by decide)
  have hvalue : valueOk 0x8010 1 tOCTETS nonce = true := by
    have hrange : rangeOk 0x8010 1 nonce = (nonce.length == 32) := rfl
    have hform : formOk tOCTETS nonce = true := rfl
    have hty : entryTy 0x8010 1 = tOCTETS := rfl
    simp [valueOk, hrange, hform, hty, hlen]
  have hserve := writeCommand_ok w (fun x s => (OK, takeNonce x nonce s, [])) hclass hvalue rfl
  obtain ⟨hack, hleaves⟩ := writeCommand_post w (fun x s => (OK, takeNonce x nonce s, [])) hclass hvalue rfl
  have htaken : takeNonce (reqSession h x s) nonce (atRequest h x s)
      = setSession { acceptedSession h x s with report := some (report s nonce) } (atRequest h x s) := by
    have hses : (atRequest h x s).session (reqSession h x s).sid = some (acceptedSession h x s) := session_atRequest w.accepts
    rw [takeNonce_of_session hses, report_atRequest]
  have hsid : x.sid = h.session := w.accepts.sid
  have hfound : (takeNonce (reqSession h x s) nonce (atRequest h x s)).session h.session
      = some { acceptedSession h x s with report := some (report s nonce) } := by
    rw [htaken, ← hsid]
    exact session_setSession (x := { acceptedSession h x s with report := some (report s nonce) })
      (session_atRequest w.accepts)
  obtain ⟨z, hz, hreport⟩ := finishRequest_report (b := .write 0x8010 1 tOCTETS nonce) (a := statusAck OK 0x8010 1 tOCTETS)
    hseq hfound
  refine ⟨_, z, rfl, hack, (Leaves.of_eq ?_).trans hleaves, ?_, hreport⟩
  · exact (congrArg State.body htaken).trans rfl
  · rw [hserve, hsid]; exact hz

/-- Settles O30: a statement that passes its checks has the effect of its type, one that does not is refused before it. -/
theorem statementsChangeOwnership : Obligations.StatementsChangeOwnership :=
  ⟨statementsChangeOwnership_claim, badStatementsAreRefused, nonceGivesReport⟩

end Sys2Proof.Machine
end
section
/-! Job commands. The WRITE of 0x5001:01 passes the checks of its entry; what each job command answers and leaves (R33, R372
to R374). -/

namespace Sys2Proof.Machine

section
variable {h : EdpHdr} {x : Session} {s u : State} {code : Nat}

/-- A code of 0x5001:01 is a value of the entry's type, and no rule of its own refuses it. -/
theorem jobCode_ok {v : Nat} (hv : 1 ≤ v ∧ v ≤ 7) (s : State) :
    valueOk 0x5001 1 tU8 (leBytes 1 v) = true ∧ ownRule s 0x5001 1 (leBytes 1 v) = OK := by
  obtain ⟨hlo, hhi⟩ := hv
  interval_cases v <;> exact ⟨rfl, rfl⟩

/-- A job command answers what its effect gives on the state that has taken the request, and leaves it. -/
theorem jobCommand_post {v : Nat} (hv : 1 ≤ v ∧ v ≤ 7) (f : State → Nat × State) (w : SendsCode h 0x5001 1 v x s)
    (he : f (atRequest h x s) = (code, u)) :
    Acked h (statusAck code 0x5001 1 tU8) (codeCommand h 0x5001 1 v f s)
      ∧ Leaves h u (codeCommand h 0x5001 1 v f s) := by
  obtain ⟨hvalue, hrule⟩ := jobCode_ok hv s
  have hpost := codeCommand_post w f (writeClass_of_wo (e := woE tU8) rfl rfl w.right (by decide)) hvalue hrule
  rwa [he] at hpost

/-- A job command that is refused answers its code and leaves nothing. -/
theorem jobCommand_refused {v : Nat} (hv : 1 ≤ v ∧ v ≤ 7) (f : State → Nat × State) (w : SendsCode h 0x5001 1 v x s)
    (he : f (atRequest h x s) = (code, atRequest h x s)) :
    Acked h (statusAck code 0x5001 1 tU8) (codeCommand h 0x5001 1 v f s)
      ∧ Leaves h s (codeCommand h 0x5001 1 v f s) := by
  obtain ⟨hack, hleaves⟩ := jobCommand_post hv f w he
  exact ⟨hack, (Leaves.of_eq (atRequest_body h x s)).trans hleaves⟩

/-- START is the message with the code 2. -/
theorem exec_start (i : Install) (w : SendsCode h 0x5001 1 2 x s) (he : startCommand i (atRequest h x s) = (code, u)) :
    ∃ t, exec (.start h i) s = .next t ∧ Acked h (statusAck code 0x5001 1 tU8) t ∧ Leaves h u t :=
  ⟨_, rfl, jobCommand_post (v := 2) (by omega) (startCommand i) w he⟩

end

/-! ## Commands that wait -/

theorem holdCommand_of_none {c : JobCmd} {s : State} (hp : s.job.pend = none) :
    holdCommand c s = (OK, { s with job := { s.job with pend := some c } }) := by
  simp [holdCommand, hp]

theorem holdCommand_of_pending {c : JobCmd} {s : State} (hp : s.job.pend ≠ none) : holdCommand c s = (BUSY, s) := by
  simp [holdCommand, Option.isSome_iff_ne_none, hp]

/-- A held command is the one pending. -/
theorem jobCommand_held {h : EdpHdr} {x : Session} {s : State} {v : Nat} {c : JobCmd} (hv : 1 ≤ v ∧ v ≤ 7)
    (f : State → Nat × State) (w : SendsCode h 0x5001 1 v x s) (hp : s.job.pend = none)
    (he : f (atRequest h x s) = holdCommand c (atRequest h x s)) :
    Acked h (statusAck OK 0x5001 1 tU8) (codeCommand h 0x5001 1 v f s)
      ∧ Leaves h { s with job := { s.job with pend := some c } } (codeCommand h 0x5001 1 v f s) := by
  have hheld := holdCommand_of_none (c := c) (s := atRequest h x s) hp
  obtain ⟨hack, hleaves⟩ := jobCommand_post hv f w (he.trans hheld)
  exact ⟨hack, (Leaves.of_eq rfl).trans hleaves⟩

theorem jobCommandsAreHeld : Claims.JobCommandsAreHeld := by
  intro h x s hp
  exact ⟨fun w hst => ⟨_, rfl, jobCommand_held (v := 3) (by omega) pauseCommand w hp (if_pos hst)⟩,
    fun w hst => ⟨_, rfl, jobCommand_held (v := 4) (by omega) resumeCommand w hp (if_pos hst)⟩,
    fun w hst => ⟨_, rfl, jobCommand_held (v := 5) (by omega) stopCommand w hp (if_pos hst)⟩,
    fun w hst => ⟨_, rfl, jobCommand_held (v := 7) (by omega) checkpointCommand w hp (if_pos hst)⟩⟩

/-! ## Commands the state refuses -/

theorem loadCommand_of_live {s : State} (hl : s.job.st.live = true) : loadCommand s = (BUSY, s) := by
  simp [loadCommand, hl]

theorem startCommand_of_unloaded {i : Install} {s : State} (hst : s.job.st ≠ .loaded) : startCommand i s = (BUSY, s) := by
  simp [startCommand, hst]

theorem pauseCommand_busy {s : State} (hst : s.job.st.stepping = false ∨ s.job.pend ≠ none) :
    pauseCommand s = (BUSY, s) := by
  unfold pauseCommand
  split_ifs with hs
  · exact holdCommand_of_pending (hst.resolve_left (by simp [hs]))
  · rfl

theorem resumeCommand_busy {s : State} (hst : s.job.st ≠ .paused ∨ s.job.pend ≠ none) :
    resumeCommand s = (BUSY, s) := by
  unfold resumeCommand
  split_ifs with hs
  · exact holdCommand_of_pending (hst.resolve_left (by simp [hs]))
  · rfl

theorem checkpointCommand_busy {s : State} (hst : s.job.st.live = false ∨ s.job.pend ≠ none) :
    checkpointCommand s = (BUSY, s) := by
  unfold checkpointCommand
  split_ifs with hs
  · exact holdCommand_of_pending (hst.resolve_left (by simp [hs]))
  · rfl

theorem stopCommand_busy {s : State} (hst : s.job.st = .idle ∨ (s.job.st.live = true ∧ s.job.pend ≠ none)) :
    stopCommand s = (BUSY, s) := by
  unfold stopCommand
  rcases hst with hidle | ⟨hlive, hp⟩
  · simp [hidle, JobState.live]
  · rw [if_pos hlive]; exact holdCommand_of_pending hp

theorem abortStepCommand_busy {s : State} (hst : s.job.st.stepping = false) : abortStepCommand s = (BUSY, s) := by
  simp [abortStepCommand, hst]

theorem illegalJobCommandsAreBusy : Claims.IllegalJobCommandsAreBusy := by
  intro h x s inst
  exact ⟨fun w hst => ⟨_, rfl, jobCommand_refused (v := 1) (by omega) loadCommand w (loadCommand_of_live hst)⟩,
    fun w hst => ⟨_, rfl, jobCommand_refused (v := 2) (by omega) (startCommand inst) w (startCommand_of_unloaded hst)⟩,
    fun w hst => ⟨_, rfl, jobCommand_refused (v := 3) (by omega) pauseCommand w (pauseCommand_busy hst)⟩,
    fun w hst => ⟨_, rfl, jobCommand_refused (v := 4) (by omega) resumeCommand w (resumeCommand_busy hst)⟩,
    fun w hst => ⟨_, rfl, jobCommand_refused (v := 5) (by omega) stopCommand w (stopCommand_busy hst)⟩,
    fun w hst => ⟨_, rfl, jobCommand_refused (v := 6) (by omega) abortStepCommand w (abortStepCommand_busy hst)⟩,
    fun w hst => ⟨_, rfl, jobCommand_refused (v := 7) (by omega) checkpointCommand w (checkpointCommand_busy hst)⟩⟩

/-! ## STOP in LOADED and HALTED -/

theorem stopCommand_of_standing {s : State} (hst : s.job.st = .loaded ∨ s.job.st = .halted) :
    stopCommand s = (OK, unload (setJob .idle 0 s)) := by
  unfold stopCommand
  rw [if_neg (by rcases hst with e | e <;> simp [e, JobState.live]), if_pos hst]

/-- A job that is not live and becomes IDLE leaves the device state. -/
theorem setJob_idle_dev {c : Nat} {s : State} (hst : s.job.st.live = false) : (setJob .idle c s).dev = s.dev := by
  unfold setJob
  split
  · rfl
  · unfold followJob
    have hidle : JobState.idle.live = false := rfl
    simp [hst, hidle, jobRecord]

theorem setJob_idle_haltCode {c : Nat} {s : State} (hst : s.job.st ≠ .idle) : (setJob .idle c s).job.haltCode = 0 := by
  rw [setJob_job _ _ _ hst.symm]; rfl

theorem stopUnloads : Claims.StopUnloads := by
  intro h x s w hst
  have hlive : s.job.st.live = false := by rcases hst with e | e <;> simp [e, JobState.live]
  have hidle : s.job.st ≠ .idle := by rcases hst with e | e <;> simp [e]
  obtain ⟨hack, hleaves⟩ := jobCommand_post (v := 5) (by omega) stopCommand w
    (stopCommand_of_standing (s := atRequest h x s) hst)
  have hdev : (setJob .idle 0 (atRequest h x s)).dev = s.dev := setJob_idle_dev (s := atRequest h x s) hlive
  have hhalt : (setJob .idle 0 (atRequest h x s)).job.haltCode = 0 := setJob_idle_haltCode (s := atRequest h x s) hidle
  obtain ⟨⟨hbody, _⟩, hlocal⟩ := hleaves
  have field {α : Type} (g : State → α) := congrArg g hbody
  refine ⟨_, rfl, hack, ?_⟩
  refine ⟨(field (·.job.st)).trans (setJob_job_st _ _ _), (field (·.job.haltCode)).trans hhalt,
    field (·.recipe.loaded), field (·.mm.pages), (field (·.recipe.staged)).trans ?_, (field (·.mm.mem)).trans ?_,
    (field (·.mm.retired)).trans ?_, (field (·.dev.st)).trans (congrArg Dev.st hdev), (field (·.regs)).trans ?_,
    (field (·.sec)).trans ?_, (field (·.results)).trans ?_, (field (·.log)).trans ?_, (field (·.pins)).trans ?_,
    fun hr => (congrArg State.fab (hlocal hr)).trans ?_⟩ <;>
  simp [State.body, unload] <;> rfl

/-- Settles O10: a command that waits is held as the pending one; one that the job's state or a pending command refuses is
BUSY; STOP in LOADED and HALTED unloads. -/
theorem jobCommandsWaitOrAreBusy : Obligations.JobCommandsWaitOrAreBusy :=
  ⟨jobCommandsAreHeld, illegalJobCommandsAreBusy, stopUnloads⟩

end Sys2Proof.Machine
end
section
/-! What the work of an attempt leaves alone. Collectives, packets and reads move main memory, tile stores, the runs of the
collectives, the fabric, the counters and what is sent; the rest of the state stands (chapter 10). -/

namespace Sys2Proof.Machine

/-- The state up to what collectives move. -/
def State.besideWork (s : State) : State :=
  { s with mm := MemSt.reset, cores := [], coll := { s.coll with runs := [] }, fab := FabSt.reset, tx := [], counters := [] }

/-- A counter that neither the fabric nor the end of an attempt counts in: beyond the port records, and neither the attempts
given up nor the halts. -/
def keptCounter (j : Nat) : Prop := ck 0x3130 0 ≤ j ∧ j ≠ ck 0x7200 0x0C ∧ j ≠ ck 0x7200 0x0D

/-- No message sent is taken back, each port keeps its state and lanes, and the counters above stand. -/
structure Onward (s t : State) : Prop where
  tx : s.tx <+: t.tx
  lanes : ∀ p, (t.port p).state = (s.port p).state ∧ (t.port p).lanes = (s.port p).lanes
  counter : ∀ j, keptCounter j → tget 0 t.counters j = tget 0 s.counters j

theorem Onward.refl (s : State) : Onward s s := ⟨List.prefix_refl _, fun _ => ⟨rfl, rfl⟩, fun _ _ => rfl⟩

theorem Onward.trans {s t u : State} (h : Onward s t) (k : Onward t u) : Onward s u :=
  ⟨h.tx.trans k.tx, fun p => ⟨(k.lanes p).1.trans (h.lanes p).1, (k.lanes p).2.trans (h.lanes p).2⟩,
    fun j hj => (k.counter j hj).trans (h.counter j hj)⟩

theorem Sends.onward {s t : State} (h : Sends s t) : Onward s t :=
  ⟨h.tx, fun p => by rw [h.port p]; exact ⟨rfl, rfl⟩, fun j hj => h.counter j hj.1⟩

/-- A state with the same messages, fabric and counters. -/
theorem onward_of_eq {s t : State} (tx : t.tx = s.tx) (fab : t.fab = s.fab) (counters : t.counters = s.counters) : Onward s t :=
  ⟨tx ▸ List.prefix_refl _, fun p => by rw [State.port, State.port, fab]; exact ⟨rfl, rfl⟩, fun _ _ => by rw [counters]⟩

/-- Telling the subscribers counts at 0x1100:0A alone. -/
theorem Tells.onward {s t : State} (h : Tells s t) (fab : t.fab = s.fab) : Onward s t := by
  refine ⟨h.tx, fun p => by rw [State.port, State.port, fab]; exact ⟨rfl, rfl⟩, fun j hj => h.counter j ?_⟩
  have hlow : ck 0x1100 0x0A < ck 0x3130 0 := by decide
  exact Nat.ne_of_gt (Nat.lt_of_lt_of_le hlow hj.1)

/-- Only what collectives move may differ. -/
structure Works (s t : State) : Prop where
  same : t.besideWork = s.besideWork
  onward : Onward s t

theorem Works.refl (s : State) : Works s s := ⟨rfl, Onward.refl s⟩

theorem Works.trans {s t u : State} (h : Works s t) (k : Works t u) : Works s u :=
  ⟨k.same.trans h.same, h.onward.trans k.onward⟩

theorem works_foldl {α : Type} (g : State → α → State) (h : ∀ s a, Works s (g s a)) (l : List α) (s : State) :
    Works s (l.foldl g s) := by
  induction l generalizing s with
  | nil => exact Works.refl s
  | cons a l ih => exact (h s a).trans (ih (g s a))

theorem Sends.works {s t : State} (h : Sends s t) : Works s t := by
  refine ⟨?_, h.onward⟩
  rw [h.only.1]
  rfl

theorem injectPacket_works (p : Packet) (s : State) : Works s (injectPacket p s) := (sends_injectPacket p s).works

theorem vmStore_works (va : Nat) (bs : Bytes) (s : State) : Works s (vmStore va bs s) := ⟨rfl, onward_of_eq rfl rfl rfl⟩

theorem setCore_works (n : Nat) (x : CoreSt) (s : State) : Works s (setCore n x s) := ⟨rfl, onward_of_eq rfl rfl rfl⟩

theorem atcTouch_works (hearth vpn : Nat) (s : State) : Works s (atcTouch hearth vpn s) := by
  unfold atcTouch
  split
  · exact Works.refl s
  · exact ⟨rfl, onward_of_eq rfl rfl rfl⟩

theorem readTouch_works (hearth va n : Nat) (s : State) : Works s (readTouch hearth va n s) := by
  have htouch : Works s (touchRange va n false false s) := ⟨rfl, onward_of_eq rfl rfl rfl⟩
  unfold readTouch
  dsimp only
  split
  · exact htouch
  · exact htouch.trans (works_foldl _ (fun s _ => atcTouch_works _ _ s) _ _)

/-! ## Collectives -/

theorem setCollRun_works (id : Nat) (r : CollRun) (s : State) : Works s (setCollRun id r s) := ⟨rfl, onward_of_eq rfl rfl rfl⟩

theorem sendBucket_works (c : Coll) (rank bucket : Nat) (bs : Bytes) (st : List NStatus) (s : State) :
    Works s (sendBucket c rank bucket bs st s) :=
  works_foldl _ (fun s _ => injectPacket_works _ s) _ s

theorem sendCount_works (c : Coll) (rank seg n : Nat) (s : State) : Works s (sendCount c rank seg n s) :=
  injectPacket_works _ s

theorem writeDst_works (c : Coll) (m off : Nat) (bs : Bytes) (s : State) : Works s (writeDst c m off bs s) := by
  unfold writeDst
  split
  · exact setCore_works _ _ s
  · exact vmStore_works _ _ s

theorem duty_works (c : Coll) (k : Nat) (left : List Arrival → List Arrival) (s : State) : Works s (duty c k left s) :=
  setCollRun_works _ _ s

theorem kneaderRead_works (c : Coll) (va n : Nat) (k : Bytes → State → State) (s : State)
    (h : ∀ bs s, Works s (k bs s)) : Works s (kneaderRead c va n k s) := by
  unfold kneaderRead
  split
  · exact (readTouch_works _ _ _ s).trans (h _ _)
  · exact Works.refl s

theorem reduceBucket_works (c : Coll) (m b seg off len : Nat) (s : State) : Works s (reduceBucket c m b seg off len s) := by
  unfold reduceBucket
  dsimp only
  split
  · exact Works.refl s
  · refine kneaderRead_works _ _ _ _ _ fun bs s => ?_
    split
    · exact ((duty_works _ _ _ _).trans (writeDst_works _ _ _ _ _)).trans (setCollRun_works _ _ _)
    · exact (duty_works _ _ _ _).trans (sendBucket_works _ _ _ _ _ _)

theorem spreadOn_works (c : Coll) (m b seg off len : Nat) (bs : Bytes) (s : State) :
    Works s (spreadOn c m b seg off len bs s) := by
  unfold spreadOn
  exact ((writeDst_works _ _ _ _ _).trans (works_foldl _ (fun s _ => sendBucket_works _ _ _ _ _ s) _ _)).trans
    (duty_works _ _ _ _)

theorem spreadBucket_works (c : Coll) (m b seg off len : Nat) (s : State) : Works s (spreadBucket c m b seg off len s) := by
  unfold spreadBucket
  split
  · exact Works.refl s
  · split
    · exact kneaderRead_works _ _ _ _ _ fun bs s => spreadOn_works _ _ _ _ _ _ _ _
    · split
      · exact Works.refl s
      · exact spreadOn_works _ _ _ _ _ _ _ _

theorem grantBuckets_works (c : Coll) (n : Nat) (s : State) : Works s (grantBuckets c n s) := by
  unfold grantBuckets
  dsimp only
  split
  · exact Works.refl s
  · exact (setCollRun_works _ _ s).trans (injectPacket_works _ _)

theorem p2pBucket_works (c : Coll) (m b off len : Nat) (s : State) : Works s (p2pBucket c m b off len s) := by
  unfold p2pBucket
  dsimp only
  split
  · split
    · exact Works.refl s
    · exact kneaderRead_works _ _ _ _ _ fun bs s =>
        ((setCollRun_works _ _ _).trans (sendBucket_works _ _ _ _ _ _)).trans (duty_works _ _ _ _)
  · split
    · exact Works.refl s
    · split
      · exact Works.refl s
      · split
        · exact ((writeDst_works _ _ _ _ _).trans (duty_works _ _ _ _)).trans (grantBuckets_works _ _ _)
        · exact (writeDst_works _ _ _ _ _).trans (duty_works _ _ _ _)

theorem a2aSend_works (c : Coll) (m j : Nat) (s : State) : Works s (a2aSend c m j s) :=
  ((readTouch_works _ _ _ _).trans (sendCount_works _ _ _ _ _)).trans
    (works_foldl _ (fun s _ => sendBucket_works _ _ _ _ _ s) _ _)

theorem a2aWrite_works (c : Coll) (m i : Nat) (bs : Bytes) (s : State) : Works s (a2aWrite c m i bs s) :=
  (writeDst_works _ _ _ _ _).trans (writeDst_works _ _ _ _ _)

theorem a2aDuty_works (c : Coll) (m i : Nat) (s : State) : Works s (a2aDuty c m i s) := by
  unfold a2aDuty
  split
  · exact Works.refl s
  · split
    · exact kneaderRead_works _ _ _ _ _ fun bs s => (a2aWrite_works _ _ _ _ _).trans (duty_works _ _ _ _)
    · split
      · exact (a2aWrite_works _ _ _ _ _).trans (duty_works _ _ _ _)
      · exact Works.refl s

theorem countBucket_works (c : Coll) (m seg : Nat) (s : State) : Works s (countBucket c m seg s) := by
  unfold countBucket
  dsimp only
  split
  · exact Works.refl s
  · refine kneaderRead_works _ _ _ _ _ fun bs s => ?_
    split
    · exact (duty_works _ _ _ _).trans (writeDst_works _ _ _ _ _)
    · exact (duty_works _ _ _ _).trans (sendCount_works _ _ _ _ _)

theorem pumpColl_works (c : Coll) (s : State) : Works s (pumpColl c s) := by
  have hbucket (m : Nat) (s : State) (x : (Nat × Nat × Nat) × Nat) : Works s
      (match c.op with
        | 0 => reduceBucket c m x.2 x.1.1 x.1.2.1 x.1.2.2 s
        | 1 | 2 => spreadBucket c m x.2 x.1.1 x.1.2.1 x.1.2.2 s
        | _ => p2pBucket c m x.2 x.1.2.1 x.1.2.2 s) := by
    split
    · exact reduceBucket_works _ _ _ _ _ _ s
    · exact spreadBucket_works _ _ _ _ _ _ s
    · exact spreadBucket_works _ _ _ _ _ _ s
    · exact p2pBucket_works _ _ _ _ _ s
  have hstep (m : Nat) (s : State) (x : (Nat × Nat × Nat) × Nat) : Works s
      (if !(!(s.collRun c.id).doneBuckets.contains x.2) then s else
        match c.op with
        | 0 => reduceBucket c m x.2 x.1.1 x.1.2.1 x.1.2.2 s
        | 1 | 2 => spreadBucket c m x.2 x.1.1 x.1.2.1 x.1.2.2 s
        | _ => p2pBucket c m x.2 x.1.2.1 x.1.2.2 s) := by
    split
    · exact Works.refl s
    · exact hbucket m s x
  unfold pumpColl
  split
  · exact Works.refl s
  · dsimp only
    split
    · refine works_foldl _ (fun s i => ?_) _ s
      split
      · exact a2aDuty_works _ _ _ s
      · exact Works.refl s
    · split
      · refine (works_foldl _ (hstep _) _ s).trans (works_foldl _ (fun s seg => ?_) _ _)
        split
        · exact countBucket_works _ _ _ s
        · exact Works.refl s
      · exact works_foldl _ (hstep _) _ s

theorem pumpColls_works (s : State) : Works s (pumpColls s) := works_foldl _ (fun s c => pumpColl_works c s) _ s

theorem takePacket_works (p : Packet) (s : State) : Works s (takePacket p s) := by
  unfold takePacket
  split
  · exact Works.refl s
  · split
    · exact Works.refl s
    · exact (setCollRun_works _ _ s).trans (pumpColl_works _ _)

/-! ## The fields that stand -/

section
variable {s t : State} (h : Works s t)
include h

theorem Works.job : t.job = s.job := (congrArg State.job h.same :)
theorem Works.groups : t.groups = s.groups := (congrArg State.groups h.same :)
theorem Works.dev : t.dev = s.dev := (congrArg State.dev h.same :)
theorem Works.gov : t.gov = s.gov := (congrArg State.gov h.same :)
theorem Works.bnd : t.bnd = s.bnd := (congrArg State.bnd h.same :)
theorem Works.regs : t.regs = s.regs := (congrArg State.regs h.same :)
theorem Works.recipe : t.recipe = s.recipe := (congrArg State.recipe h.same :)
theorem Works.leaven : t.leaven = s.leaven := (congrArg State.leaven h.same :)
theorem Works.coll : t.coll = { s.coll with runs := t.coll.runs } := by
  have hcoll : ({ t.coll with runs := [] } : CollSt) = { s.coll with runs := [] } := ((congrArg State.coll h.same :) :)
  have hruns := congrArg (fun x : CollSt => { x with runs := t.coll.runs }) hcoll
  exact hruns

end

end Sys2Proof.Machine
end
section
/-! The end of an attempt and the start of the next: what discarding an attempt, halting and committing leave (R263 to R270). -/

namespace Sys2Proof.Machine

/-! ## What ending an attempt leaves alone -/

/-- A job up to the records counted and the items done in the step. -/
def Job.bare (j : Job) : Job := { j with logInStep := 0, done := [] }

/-- The state up to what the end of an attempt clears, logs and tells. -/
def State.besideAttempt (s : State) : State :=
  { s with
    edp := Edp.reset, tx := [], counters := [], log := ⟨[], [], 0⟩, job := s.job.bare, groups := [], cores := [], lstat := []
    mm := MemSt.reset, leaven := LeavenSt.reset, coll := CollSt.reset, fab := FabSt.reset, gov := Gov.reset }

/-- Only what the end of an attempt clears, logs and tells may differ. -/
structure Clears (s t : State) : Prop where
  same : t.besideAttempt = s.besideAttempt
  onward : Onward s t

theorem Clears.refl (s : State) : Clears s s := ⟨rfl, Onward.refl s⟩

theorem Clears.trans {s t u : State} (h : Clears s t) (k : Clears t u) : Clears s u :=
  ⟨k.same.trans h.same, h.onward.trans k.onward⟩

theorem clears_foldl {α : Type} (g : State → α → State) (h : ∀ s a, Clears s (g s a)) (l : List α) (s : State) :
    Clears s (l.foldl g s) := by
  induction l generalizing s with
  | nil => exact Clears.refl s
  | cons a l ih => exact (h s a).trans (ih (g s a))

theorem Works.clears {s t : State} (h : Works s t) : Clears s t := by
  have hsame := congrArg State.besideAttempt h.same
  exact ⟨hsame, h.onward⟩

theorem logAdd_clears (c a h u l : Nat) (d : List Nat) (s : State) : Clears s (logAdd c a h u l d s) := by
  refine ⟨?_, (logAdd_tells c a h u l d s).onward (logAdd_fab ..)⟩
  have hshell := congrArg State.besideAttempt (logAdd_shell c a h u l d s)
  have hjob : (logAdd c a h u l d s).job.bare = s.job.bare := (congrArg Job.bare (logAdd_job c a h u l d s) :)
  calc (logAdd c a h u l d s).besideAttempt
      = { State.besideAttempt { (logAdd c a h u l d s).shell with log := s.log, job := s.job } with
          job := (logAdd c a h u l d s).job.bare } := rfl
    _ = s.besideAttempt := by rw [hshell, hjob]; rfl

theorem logPlain_clears (c : Nat) (d : List Nat) (s : State) : Clears s (logPlain c d s) := logAdd_clears c 8 0xFF 0 0xFFFF d s

/-- The attempts given up and the halts are counted. -/
theorem bump_clears {k : Nat} (n b : Nat) (s : State) (hk : k = 0x0C ∨ k = 0x0D) : Clears s (bump 0x7200 k n b s) := by
  refine ⟨rfl, List.prefix_refl _, fun _ => ⟨rfl, rfl⟩, fun j ⟨_, hgiven, hhalts⟩ => (bump_tget ..).trans (if_neg ?_)⟩
  rcases hk with rfl | rfl
  · exact Ne.symm hgiven
  · exact Ne.symm hhalts

theorem sendCommit_sends (dst kind : Nat) (m : CommitMsg) (s : State) : Sends s (sendCommit dst kind m s) :=
  sends_sendControl _ _ _ _ _ s

theorem sendMembers_sends (kind : Nat) (m : CommitMsg) (s : State) : Sends s (sendMembers kind m s) :=
  sends_fold _ (fun s d => sendCommit_sends d kind m s) _ s

/-- A message on VL0 is among those sent. -/
theorem sendControl_mem (dst step attempt : Nat) (x : Tx) (body : Bytes) (s : State) :
    x ∈ (sendControl dst step attempt x body s).tx := by
  have hsends : Sends (send x s) (sendControl dst step attempt x body s) :=
    sends_fold _ (fun s _ => sends_injectPacket _ s) _ _
  exact hsends.tx.subset (List.mem_append_right _ (List.mem_singleton_self _))

theorem sendCommit_mem (dst kind : Nat) (m : CommitMsg) (s : State) : Tx.commit dst kind m ∈ (sendCommit dst kind m s).tx :=
  sendControl_mem _ _ _ _ _ s

theorem sendWords_mem (dst code : Nat) (ws : List Nat) (s : State) : Tx.vl0 dst code ws ∈ (sendWords dst code ws s).tx :=
  sendControl_mem _ _ _ _ _ s

/-- A message sent to each of some devices is among those sent. -/
theorem sendEach_mem (kind : Nat) (m : CommitMsg) (l : List Nat) (s : State) {d : Nat} (hd : d ∈ l) :
    Tx.commit d kind m ∈ (l.foldl (fun s d => sendCommit d kind m s) s).tx := by
  induction l generalizing s with
  | nil => cases hd
  | cons a l ih =>
    rcases List.mem_cons.mp hd with rfl | hl
    · exact (sends_fold _ (fun s d => sendCommit_sends d kind m s) l _).tx.subset (sendCommit_mem d kind m s)
    · exact ih _ hl

theorem sendMembers_mem (kind : Nat) (m : CommitMsg) (s : State) {d : Nat} (hd : d ∈ s.others) :
    Tx.commit d kind m ∈ (sendMembers kind m s).tx := sendEach_mem kind m s.others s hd

theorem logMisses_clears (g outcome : Nat) (s : State) : Clears s (logMisses g outcome s) :=
  clears_foldl _ (fun s _ => logAdd_clears _ _ _ _ _ _ s) _ s

theorem answerQuery_clears (dev step attempt : Nat) (commit : Bool) (s : State) :
    Clears s (answerQuery dev step attempt commit s) := by
  unfold answerQuery
  split
  · exact Clears.refl s
  · have hcoll : Clears s { s with coll := { s.coll with answered := (step, attempt, dev) :: s.coll.answered } } :=
      ⟨rfl, onward_of_eq rfl rfl rfl⟩
    exact hcoll.trans (sendCommit_sends _ _ _ _).works.clears

theorem answerHeld_clears (commit : Bool) (s : State) : Clears s (answerHeld commit s) := by
  have hcoll : Clears s { s with coll := { s.coll with queries := [] } } := ⟨rfl, onward_of_eq rfl rfl rfl⟩
  exact hcoll.trans (clears_foldl _ (fun s d => answerQuery_clears d _ _ commit s) _ _)

theorem tget_map {α : Type} (d : α) (f : α → α) (hd : f d = d) (l : List (Nat × α)) (i : Nat) :
    tget d (l.map fun x => (x.1, f x.2)) i = f (tget d l i) := by
  induction l with
  | nil => exact hd.symm
  | cons x l ih =>
    obtain ⟨k, v⟩ := x
    simp only [List.map_cons, tget]
    split
    · rfl
    · exact ih

/-- Clearing an attempt drops packets that wait at a port and leaves the rest of it. -/
theorem clearAttempt_port (s : State) (p : Nat) :
    (clearAttempt s).port p = { s.port p with queue := ((clearAttempt s).port p).queue } := by
  have hport : (clearAttempt s).port p
      = { s.port p with queue := (s.port p).queue.filter fun w => !(oweMisses (s.groups.flatMap fun x => x.2.misses) s).ofAttempt w.p } :=
    tget_map Port.reset (fun x => { x with
      queue := x.queue.filter fun w => !(oweMisses (s.groups.flatMap fun x => x.2.misses) s).ofAttempt w.p }) rfl s.fab.ports p
  rw [hport]

theorem clearAttempt_clears (s : State) : Clears s (clearAttempt s) :=
  ⟨rfl, List.prefix_refl _, fun p => by rw [clearAttempt_port]; exact ⟨rfl, rfl⟩, fun _ _ => rfl⟩

theorem cutPieces_clears (hit : Nat → Bool) (s : State) : Clears s (cutPieces hit s) := by
  refine clears_foldl _ (fun s x => ?_) _ s
  dsimp only
  split
  · exact ⟨rfl, onward_of_eq rfl rfl rfl⟩
  · exact Clears.refl s

/-- A port under this device's hush. -/
def hushedPort (us : Nat) (s : State) (p : Nat) : Port :=
  { s.port p with hushing := some (s.localUs, s.localUs + min us 2000) }

theorem hushAll_works (us : Nat) (s : State) : Works s (hushAll us s) := by
  refine works_foldl _ (fun s p => ?_) _ s
  dsimp only
  split
  · exact Works.refl s
  · refine ⟨rfl, List.prefix_append _ _, fun q => ?_, fun _ _ => rfl⟩
    have hport := setPort_port p q (hushedPort us s p) s
    split at hport
    · next h => subst h; exact ⟨(congrArg Port.state hport :), (congrArg Port.lanes hport :)⟩
    · exact ⟨(congrArg Port.state hport :), (congrArg Port.lanes hport :)⟩

/-- The attempt's end, before its cause is kept and its number passed. -/
def clearedAttempt (cause origin : Nat) (extra : List Nat) (w : Where) (s : State) : State :=
  let s := (List.range s.groupList.length).foldl (fun s g => logMisses g 5 s) s
  let s := if cause = 0 || (s.coll.prepSent && origin == s.devId) then s
    else logAdd cause w.src w.hearth w.unit w.layer ([s.job.attempt, origin] ++ extra) s
  hushAll 200 (cutPieces (fun _ => true) (clearAttempt (answerHeld false (bump 0x7200 0x0C 1 64 s))))

theorem endAttempt_eq (cause origin : Nat) (extra : List Nat) (w : Where) (s : State) :
    endAttempt cause origin extra w s = { clearedAttempt cause origin extra w s with
      job := { (clearedAttempt cause origin extra w s).job with
        causes := (clearedAttempt cause origin extra w s).job.causes ++ [(cause, origin)]
        attempt := (clearedAttempt cause origin extra w s).job.attempt + 1 } } := by
  simp only [endAttempt, clearedAttempt]

theorem clearedAttempt_clears (cause origin : Nat) (extra : List Nat) (w : Where) (s : State) :
    Clears s (clearedAttempt cause origin extra w s) := by
  have htail (s : State) : Clears s
      (hushAll 200 (cutPieces (fun _ => true) (clearAttempt (answerHeld false (bump 0x7200 0x0C 1 64 s))))) :=
    (bump_clears _ _ s (.inl rfl)).trans <| (answerHeld_clears _ _).trans <| (clearAttempt_clears _).trans <|
      (cutPieces_clears _ _).trans (hushAll_works _ _).clears
  unfold clearedAttempt
  dsimp only
  have hmisses := clears_foldl (fun s g => logMisses g 5 s) (fun s g => logMisses_clears g 5 s)
    (List.range s.groupList.length) s
  refine hmisses.trans (Clears.trans ?_ (htail _))
  split
  · exact Clears.refl _
  · exact logAdd_clears _ _ _ _ _ _ _

theorem cutPieces_groups (hit : Nat → Bool) (s : State) : (cutPieces hit s).groups = s.groups := by
  unfold cutPieces
  generalize s.probIdx = l
  induction l generalizing s with
  | nil => rfl
  | cons a l ih =>
    refine (ih _).trans ?_
    dsimp only
    split <;> rfl

theorem clearedAttempt_groups (cause origin : Nat) (extra : List Nat) (w : Where) (s : State) :
    (clearedAttempt cause origin extra w s).groups = [] := by
  unfold clearedAttempt
  dsimp only
  rw [(hushAll_works _ _).groups, cutPieces_groups]
  rfl

end Sys2Proof.Machine
end
section
/-! Discarding an attempt and starting the next; halting; committing (R263 to R270, R374). -/

namespace Sys2Proof.Machine

/-! ## The next attempt -/

theorem deliverEarly_works (s : State) :
    ∃ u : State, u = { s with coll := { s.coll with early := u.coll.early } } ∧ Works u (deliverEarly s) :=
  ⟨_, rfl, works_foldl _ (fun s p => takePacket_works p s) _ _⟩

theorem deliverEarly_clears (s : State) : Clears s (deliverEarly s) := by
  obtain ⟨u, hu, hworks⟩ := deliverEarly_works s
  have hcoll : Clears s u := by rw [hu]; exact ⟨rfl, onward_of_eq rfl rfl rfl⟩
  exact hcoll.trans hworks.clears

theorem deliverEarly_job (s : State) : (deliverEarly s).job = s.job := by
  obtain ⟨u, hu, hworks⟩ := deliverEarly_works s
  rw [hworks.job, hu]

theorem deliverEarly_groups (s : State) : (deliverEarly s).groups = s.groups := by
  obtain ⟨u, hu, hworks⟩ := deliverEarly_works s
  rw [hworks.groups, hu]

theorem startAttempt_job (s : State) :
    (startAttempt s).job = { s.job with stepStart := s.localUs, abortAsked := false } := deliverEarly_job _

theorem startAttempt_groups (s : State) : (startAttempt s).groups = s.groups := deliverEarly_groups _

/-- Jobs that agree but for the records counted and the items done. -/
theorem Job.eq_of_bare {j k : Job} (h : j.bare = k.bare) : j = { k with logInStep := j.logInStep, done := j.done } := by
  have hfull := congrArg (fun x : Job => { x with logInStep := j.logInStep, done := j.done }) h
  exact hfull

/-! ## What an attempt given up leaves alone -/

/-- The state up to what the end of an attempt and a change of job state leave. -/
def State.besideRestart (s : State) : State :=
  { s.besideAttempt with job := Job.reset, eval := Eval.reset, dev := { s.dev with st := .off } }

/-- The attempt or the job has ended: only work, logs, events and the job, with the device state that follows it, may
differ. -/
structure Stops (s t : State) : Prop where
  same : t.besideRestart = s.besideRestart
  onward : Onward s t

theorem Stops.refl (s : State) : Stops s s := ⟨rfl, Onward.refl s⟩

theorem Stops.trans {s t u : State} (h : Stops s t) (k : Stops t u) : Stops s u :=
  ⟨k.same.trans h.same, h.onward.trans k.onward⟩

theorem Clears.stops {s t : State} (h : Clears s t) : Stops s t := by
  have hsame := congrArg (fun u : State => { u with job := Job.reset, eval := Eval.reset, dev := { u.dev with st := .off } }) h.same
  exact ⟨hsame, h.onward⟩

theorem Works.stops {s t : State} (h : Works s t) : Stops s t := h.clears.stops

/-- A change of the job alone. -/
theorem stops_job (j : Job) (s : State) : Stops s { s with job := j } := ⟨rfl, onward_of_eq rfl rfl rfl⟩

theorem startAttempt_stops (s : State) : Stops s (startAttempt s) := by
  have hstart : Stops s { s with
      job := { s.job with stepStart := s.localUs, abortAsked := false }
      gov := { s.gov with minMv := s.gov.vcore.foldl min 0xFFFF, powerSum := 0, powerN := 0 } } := ⟨rfl, onward_of_eq rfl rfl rfl⟩
  exact hstart.trans (deliverEarly_clears _).stops

theorem setDev_stops (d : DevState) (s : State) : Stops s (setDev d s) := by
  refine ⟨?_, (setDev_tells d s).onward (setDev_fab ..)⟩
  have hshell := congrArg State.besideRestart (setDev_shell d s)
  have hdev : ({ (setDev d s).dev with st := .off } : Dev) = { s.dev with st := .off } := by rw [setDev_dev]
  calc (setDev d s).besideRestart
      = { State.besideRestart { (setDev d s).shell with dev := s.dev } with dev := { (setDev d s).dev with st := .off } } := rfl
    _ = s.besideRestart := by rw [hshell, hdev]; rfl

theorem setJob_stops (j : JobState) (c : Nat) (s : State) : Stops s (setJob j c s) := by
  have hraise (e : Event) (s : State) : Stops s (raiseEvent e s) := by
    have hshell := congrArg State.besideRestart (raiseEvent_shell e s)
    exact ⟨hshell, (raiseEvent_tells e s).onward (raiseEvent_fab ..)⟩
  have hfollow (o j : JobState) (s : State) : Stops s (followJob o j s) := by
    unfold followJob
    split
    · exact setDev_stops _ s
    · split
      · exact setDev_stops _ s
      · exact Stops.refl s
  have hrecord : Stops s (jobRecord j c s) := ⟨rfl, onward_of_eq rfl rfl rfl⟩
  unfold setJob
  split
  · exact Stops.refl s
  · exact hrecord.trans ((hraise _ _).trans (hfollow _ _ _))

/-- A change of job state changes of the job its state and halt code. -/
theorem setJob_job_eq (j : JobState) (c : Nat) (s : State) :
    (setJob j c s).job = { s.job with st := j, haltCode := (setJob j c s).job.haltCode } := by
  by_cases h : j = s.job.st
  · subst h
    unfold setJob
    rw [if_pos rfl]
  · rw [setJob_job j c s h]

section
variable {s t : State} (h : Stops s t)
include h

theorem Stops.regs : t.regs = s.regs := (congrArg State.regs h.same :)
theorem Stops.eff : t.eff = s.eff := (congrArg State.eff h.same :)
theorem Stops.sec : t.sec = s.sec := (congrArg State.sec h.same :)
theorem Stops.recipe : t.recipe = s.recipe := (congrArg State.recipe h.same :)
theorem Stops.bnd : t.bnd = s.bnd := (congrArg State.bnd h.same :)
theorem Stops.localUs : t.localUs = s.localUs := (congrArg State.localUs h.same :)

end

/-! ## Discarding -/

/-- The attempt has been given up and the next one runs; nothing but work, logs, events and the job differs. -/
structure Restarts (cause origin : Nat) (s t : State) : Prop where
  repeats : RepeatsFrom cause origin s t
  stops : Stops s t

theorem endAttempt_stops (cause origin : Nat) (extra : List Nat) (w : Where) (s : State) :
    Stops s (endAttempt cause origin extra w s) := by
  rw [endAttempt_eq]
  exact (clearedAttempt_clears cause origin extra w s).stops.trans (stops_job _ _)

/-- The end of an attempt adds its cause and passes its number. -/
theorem endAttempt_job (cause origin : Nat) (extra : List Nat) (w : Where) (s : State) :
    (endAttempt cause origin extra w s).job.bare
      = { s.job.bare with causes := s.job.causes ++ [(cause, origin)], attempt := s.job.attempt + 1 } := by
  have hjob : (clearedAttempt cause origin extra w s).job.bare = s.job.bare :=
    (congrArg State.job (clearedAttempt_clears cause origin extra w s).same :)
  rw [endAttempt_eq]
  generalize clearedAttempt cause origin extra w s = u at hjob
  rw [Job.eq_of_bare hjob]
  rfl

theorem endAttempt_groups (cause origin : Nat) (extra : List Nat) (w : Where) (s : State) :
    (endAttempt cause origin extra w s).groups = [] := by
  have hgroups := clearedAttempt_groups cause origin extra w s
  rw [endAttempt_eq]
  generalize clearedAttempt cause origin extra w s = u at hgroups ⊢
  exact hgroups

/-- An attempt that is not the last is discarded, and the next one runs (R264, R265, R269). -/
theorem discardAttempt_restarts {cause origin : Nat} {extra : List Nat} {s : State} {w : Where} (hin : s.inStep = true)
    (hlim : s.job.attempt < s.eff.repeatLimit) : Restarts cause origin s (discardAttempt cause origin extra s w) := by
  have hend := endAttempt_job cause origin extra w s
  have hstops := endAttempt_stops cause origin extra w s
  have hgroups := endAttempt_groups cause origin extra w s
  have hattempt : (endAttempt cause origin extra w s).job.attempt = s.job.attempt + 1 := (congrArg Job.attempt hend :)
  have hmore : ¬ (endAttempt cause origin extra w s).eff.repeatLimit < (endAttempt cause origin extra w s).job.attempt := by
    rw [hstops.eff, hattempt]; omega
  unfold discardAttempt
  rw [if_pos hin, if_neg hmore]
  generalize endAttempt cause origin extra w s = u at *
  have hjob : (startAttempt (setJob .repeating 0 u)).job = { u.job with
      st := .repeating, haltCode := (setJob .repeating 0 u).job.haltCode
      stepStart := (setJob .repeating 0 u).localUs, abortAsked := false } := by
    rw [startAttempt_job, setJob_job_eq]
  refine ⟨⟨?_, ?_, ?_, ?_, ?_, ?_⟩, hstops.trans ((setJob_stops _ _ _).trans (startAttempt_stops _))⟩
  · rw [hjob]; exact hattempt
  · rw [hjob]
  · rw [hjob]; exact (congrArg Job.causes hend :)
  · rw [hjob]; exact (congrArg Job.step hend :)
  · rw [hjob]; exact (congrArg Job.committed hend :)
  · rw [startAttempt_groups, setJob_groups, hgroups]

end Sys2Proof.Machine
end
section
/-! Causes of a repeat on this device, halts, and commits (R263 to R270, R374). -/

namespace Sys2Proof.Machine

/-! ## A cause of this device -/

theorem RepeatsFrom.congr {cause origin : Nat} {s u t : State} (h : RepeatsFrom cause origin u t)
    (hjob : u.job.bare = s.job.bare) : RepeatsFrom cause origin s t := by
  have hfull := Job.eq_of_bare hjob
  obtain ⟨hattempt, hst, hcauses, hstep, hcommitted, hgroups⟩ := h
  rw [hfull] at hattempt hcauses hstep hcommitted
  exact ⟨hattempt, hst, hcauses, hstep, hcommitted, hgroups⟩

/-- A cause that arises after logs and messages. -/
theorem Restarts.after {cause origin : Nat} {s u t : State} (h : Restarts cause origin u t) (hu : Clears s u) :
    Restarts cause origin s t :=
  ⟨h.repeats.congr (congrArg State.job hu.same :), hu.stops.trans h.stops⟩

/-- What an operation of the attempt's end leaves of the step in progress. -/
theorem Clears.step {s t : State} (h : Clears s t) : t.inStep = s.inStep ∧ t.job.attempt = s.job.attempt ∧ t.eff = s.eff := by
  have hjob : t.job.bare = s.job.bare := (congrArg State.job h.same :)
  have hbnd : t.bnd = s.bnd := (congrArg State.bnd h.same :)
  have hst : t.job.st = s.job.st := (congrArg Job.st hjob :)
  exact ⟨by rw [State.inStep, State.inStep, hst, hbnd], (congrArg Job.attempt hjob :), (congrArg State.eff h.same :)⟩

/-- An attempt discarded after logs and messages. -/
theorem discardAttempt_restarts_after {cause origin : Nat} {extra : List Nat} {s u : State} {w : Where} (hu : Clears s u)
    (hin : s.inStep = true) (hlim : s.job.attempt < s.eff.repeatLimit) :
    Restarts cause origin s (discardAttempt cause origin extra u w) := by
  obtain ⟨hstep, hattempt, heff⟩ := hu.step
  exact (discardAttempt_restarts (hstep.trans hin) (by rw [hattempt, heff]; exact hlim)).after hu

/-- A device that can give its attempt up does so on a cause of its own (R265). -/
theorem abortOwn_restarts {cause : Nat} {extra : List Nat} {s : State} {w : Where} (h : CanRepeat s) :
    Restarts cause s.devId s (abortOwn cause extra s w) := by
  obtain ⟨hin, hprep, hlim⟩ := h
  unfold abortOwn
  rw [if_neg (by simp [hin]), if_neg (by simp [hprep])]
  exact discardAttempt_restarts_after (sendMembers_sends _ _ s).works.clears hin hlim

/-- With PREPARE sent a cause goes to the commit root (R266). -/
theorem abortOwn_of_prepared {extra : List Nat} {s : State} {w : Where} (hin : s.inStep = true) (hprep : s.coll.prepSent = true) :
    abortOwn 0 extra s w = sendCommit s.commitRoot kABORT_REQ (s.msg 0 s.devId false) s := by
  unfold abortOwn
  rw [if_neg (by simp [hin]), if_pos hprep]
  simp

/-! ## Halting -/

theorem hushAll_only (us : Nat) (s : State) : FabricOnly s (hushAll us s) := by
  refine fabricOnly_fold _ (fun s p => ?_) _ s
  dsimp only
  split
  · exact FabricOnly.refl s
  · exact (fabricOnly_setPort _ _ s).trans (fabricOnly_send _ _)

theorem FabricOnly.mm {s t : State} (h : FabricOnly s t) : t.mm = s.mm := by rw [h.1]
theorem FabricOnly.job {s t : State} (h : FabricOnly s t) : t.job = s.job := by rw [h.1]
theorem FabricOnly.coll {s t : State} (h : FabricOnly s t) : t.coll = s.coll := by rw [h.1]

theorem cutPieces_mm (hit : Nat → Bool) (s : State) : (cutPieces hit s).mm = s.mm := by
  unfold cutPieces
  generalize s.probIdx = l
  induction l generalizing s with
  | nil => rfl
  | cons a l ih =>
    refine (ih _).trans ?_
    dsimp only
    split <;> rfl

/-- The attempt cleared for a halt. -/
def clearedForHalt (code : Nat) (s : State) : State :=
  hushAll 1000 (cutPieces (fun _ => true) (clearAttempt (bump 0x7200 0x0D 1 32 (sendMembers kHALT (s.msg code s.devId false) s))))

theorem clearedForHalt_clears (code : Nat) (s : State) : Clears s (clearedForHalt code s) := by
  unfold clearedForHalt
  exact (sendMembers_sends _ _ s).works.clears.trans <| (bump_clears _ _ _ (.inr rfl)).trans <| (clearAttempt_clears _).trans <|
    (cutPieces_clears _ _).trans (hushAll_works _ _).clears

theorem clearedForHalt_groups (code : Nat) (s : State) : (clearedForHalt code s).groups = [] := by
  unfold clearedForHalt
  rw [(hushAll_works _ _).groups, cutPieces_groups]
  rfl

theorem clearAttempt_mem (s : State) : (clearAttempt s).mm.mem = s.mm.mem := rfl

theorem clearedForHalt_mem (code : Nat) (s : State) : (clearedForHalt code s).mm.mem = s.mm.mem := by
  have hsend : (bump 0x7200 0x0D 1 32 (sendMembers kHALT (s.msg code s.devId false) s)).mm = s.mm :=
    (sendMembers_sends _ _ s).only.mm
  unfold clearedForHalt
  rw [(hushAll_only _ _).mm, cutPieces_mm, clearAttempt_mem, hsend]

/-- The cleared state with no boundary under way and no command or halt waiting. -/
def haltReady (u : State) : State :=
  { u with job := { u.job with pend := none, taken := none, haltPend := none, installing := [] }, bnd := Boundary.reset }

/-- The job of a cleared state stands HALTED. -/
def haltCleared (code : Nat) (u : State) : State :=
  endEval (governorStop (retirePages (setJob .halted code (haltReady u))))

theorem haltNow_eq {code : Nat} {s : State} (h : s.job.st.live = true ∨ s.job.st = .loaded) :
    haltNow code s = haltCleared code (clearedForHalt code s) := by
  have hstands : ¬ ((!s.job.st.live && s.job.st != .loaded) = true) := by
    rcases h with e | e <;> simp [e]
  unfold haltNow
  rw [if_neg hstands]
  simp only [clearedForHalt, haltReady, haltCleared]

theorem retirePages_groups (s : State) : (retirePages s).groups = s.groups := by unfold retirePages; split <;> rfl
theorem retirePages_job (s : State) : (retirePages s).job = s.job := by unfold retirePages; split <;> rfl
theorem retirePages_mem (s : State) : (retirePages s).mm.mem = s.mm.mem := by unfold retirePages; split <;> rfl
theorem retirePages_stops (s : State) : Stops s (retirePages s) := by
  unfold retirePages
  split
  · exact Stops.refl s
  · exact ⟨rfl, onward_of_eq rfl rfl rfl⟩

section
variable (code : Nat) (u : State)

theorem haltCleared_stops : Stops { u with bnd := Boundary.reset } (haltCleared code u) := by
  have hready : Stops { u with bnd := Boundary.reset } (haltReady u) := ⟨rfl, onward_of_eq rfl rfl rfl⟩
  refine hready.trans ((setJob_stops .halted code _).trans ((retirePages_stops _).trans ?_))
  exact ⟨rfl, onward_of_eq rfl rfl rfl⟩

theorem haltCleared_job (h : u.job.st ≠ .halted) : (haltCleared code u).job = { u.job with
    pend := none, taken := none, haltPend := none, installing := [], st := .halted, haltCode := code } := by
  refine (retirePages_job _).trans ?_
  have hne : JobState.halted ≠ (haltReady u).job.st := Ne.symm h
  rw [setJob_job _ _ _ hne]
  rfl

theorem haltCleared_groups : (haltCleared code u).groups = u.groups := by
  refine (retirePages_groups _).trans ?_
  rw [setJob_groups]
  rfl

theorem haltCleared_mem : (haltCleared code u).mm.mem = u.mm.mem := by
  refine (retirePages_mem _).trans ?_
  rw [setJob_mm]
  rfl

end

section
variable {code : Nat} {s : State} (h : s.job.st.live = true ∨ s.job.st = .loaded)
include h

/-- A halt ends the boundary; beside it nothing but work, logs, events and the job differs. -/
theorem haltNow_stops : Stops { s with bnd := Boundary.reset } (haltNow code s) := by
  have hclear := (clearedForHalt_clears code s).stops
  rw [haltNow_eq h]
  generalize clearedForHalt code s = u at hclear
  have hend : Stops { s with bnd := Boundary.reset } { u with bnd := Boundary.reset } := by
    have hsame := congrArg (fun u : State => { u with bnd := Boundary.reset }) hclear.same
    exact ⟨hsame, hclear.onward.tx, hclear.onward.lanes, hclear.onward.counter⟩
  exact hend.trans (haltCleared_stops code u)

theorem haltNow_halted : Halted code s (haltNow code s) := by
  have hstops := haltNow_stops (code := code) h
  have hjob : (clearedForHalt code s).job.bare = s.job.bare := (congrArg State.job (clearedForHalt_clears code s).same :)
  have hgroups := clearedForHalt_groups code s
  rw [haltNow_eq h] at hstops ⊢
  generalize clearedForHalt code s = u at *
  have hst : u.job.st = s.job.st := (congrArg Job.st hjob :)
  have hne : u.job.st ≠ .halted := by
    intro hc
    rw [hst] at hc
    rcases h with e | e <;> simp [hc, JobState.live] at e
  have hfinal := haltCleared_job code u hne
  refine ⟨by rw [hfinal], by rw [hfinal], by rw [hfinal], hstops.bnd, (haltCleared_groups code u).trans hgroups, ?_, ?_,
    hstops.regs, hstops.sec⟩
  · rw [hfinal]; exact (congrArg Job.committed hjob :)
  · exact congrArg Recipe.loaded hstops.recipe

theorem haltNow_mem : (haltNow code s).mm.mem = s.mm.mem := by
  rw [haltNow_eq h, haltCleared_mem, clearedForHalt_mem]

end

/-- A halt that does not wait for order 8. -/
theorem halt_eq {code : Nat} {s : State} (h : HaltsNow s) : halt code s = haltNow code s := by
  obtain ⟨_, hnow⟩ := h
  unfold halt
  rw [if_pos (by rcases hnow with e | e <;> simp [e])]

theorem halt_halted {code : Nat} {s : State} (h : HaltsNow s) : Halted code s (halt code s) := by
  rw [halt_eq h]; exact haltNow_halted h.1

theorem Halted.congr {code : Nat} {s u t : State} (h : Halted code u t) (hcommitted : u.job.committed = s.job.committed)
    (hrecipe : u.recipe.loaded = s.recipe.loaded) (hregs : u.regs = s.regs) (hsec : u.sec = s.sec) : Halted code s t := by
  obtain ⟨h1, h2, h3, h4, h5, h6, h7, h8, h9⟩ := h
  exact ⟨h1, h2, h3, h4, h5, h6.trans hcommitted, h7.trans hrecipe, h8.trans hregs, h9.trans hsec⟩

/-- A halt after logs and messages. -/
theorem Halted.after {code : Nat} {s u t : State} (h : Halted code u t) (hu : Clears s u) : Halted code s t := by
  have hjob : u.job.bare = s.job.bare := (congrArg State.job hu.same :)
  exact h.congr (congrArg Job.committed hjob :) (congrArg Recipe.loaded hu.stops.recipe) hu.stops.regs hu.stops.sec

/-- The last attempt of the limit halts the job (R266). -/
theorem discardAttempt_halts {cause origin : Nat} {extra : List Nat} {s : State} {w : Where} (hin : s.inStep = true)
    (hlim : s.eff.repeatLimit ≤ s.job.attempt) : Halted REPEAT_LIMIT s (discardAttempt cause origin extra s w) := by
  have hend := endAttempt_job cause origin extra w s
  have hstops := endAttempt_stops cause origin extra w s
  have hattempt : (endAttempt cause origin extra w s).job.attempt = s.job.attempt + 1 := (congrArg Job.attempt hend :)
  have hmore : (endAttempt cause origin extra w s).eff.repeatLimit < (endAttempt cause origin extra w s).job.attempt := by
    rw [hstops.eff, hattempt]; omega
  unfold discardAttempt
  rw [if_pos hin, if_pos hmore]
  generalize endAttempt cause origin extra w s = u at *
  have hst : u.job.st = s.job.st := (congrArg Job.st hend :)
  have hlive : s.job.st.live = true := by
    unfold State.inStep at hin
    cases e : s.job.st <;> simp [e, JobState.stepping, JobState.live] at hin ⊢
  have hlog := logPlain_clears REPEAT_LIMIT [u.job.attempt, cause] u
  have hhalt := haltNow_halted (code := REPEAT_LIMIT) (s := logPlain REPEAT_LIMIT [u.job.attempt, cause] u) (.inl (by
    have hstlog : (logPlain REPEAT_LIMIT [u.job.attempt, cause] u).job.st = u.job.st := logAdd_job_st _ _ _ _ _ _ _
    rw [hstlog, hst]; exact hlive))
  exact (hhalt.after hlog).congr (congrArg Job.committed hend :) (congrArg Recipe.loaded hstops.recipe) hstops.regs hstops.sec

end Sys2Proof.Machine
end
section
/-! Commits (R263, R268): what the commit of a step does to the roots and to the state. -/

namespace Sys2Proof.Machine

/-! ## The roots -/

/-- The state up to main memory and the leaven engines. -/
def State.besideRoots (s : State) : State := { s with mm := MemSt.reset, leaven := LeavenSt.reset }

theorem besideRoots_foldl {α : Type} (g : State → α → State) (h : ∀ s a, (g s a).besideRoots = s.besideRoots) (l : List α)
    (s : State) : (l.foldl g s).besideRoots = s.besideRoots := by
  induction l generalizing s with
  | nil => rfl
  | cons a l ih => exact (ih _).trans (h s a)

@[simp] theorem setRun_besideRoots (i : Nat) (x : ProbSt) (s : State) : (setRun i x s).besideRoots = s.besideRoots := rfl
@[simp] theorem vmStore_besideRoots (va : Nat) (bs : Bytes) (s : State) : (vmStore va bs s).besideRoots = s.besideRoots := rfl
@[simp] theorem setRootRec_besideRoots (p : Prob) (r : RootRec) (s : State) :
    (setRootRec p r s).besideRoots = s.besideRoots := rfl

@[simp] theorem setStarter_besideRoots (p : Prob) (slot : Nat) (s : State) :
    (setStarter p slot s).besideRoots = s.besideRoots := by
  unfold setStarter
  split <;> rfl

@[simp] theorem latchRoot_besideRoots (i : Nat) (p : Prob) (n slot kind : Nat) (s : State) :
    (latchRoot i p n slot kind s).besideRoots = s.besideRoots := by
  unfold latchRoot
  rw [setRun_besideRoots, setRootRec_besideRoots]

@[simp] theorem reportEnded_besideRoots (n i : Nat) (s : State) : (reportEnded n i s).besideRoots = s.besideRoots := rfl

@[simp] theorem takeNote_besideRoots (i : Nat) (p : Prob) (s : State) : (takeNote i p s).besideRoots = s.besideRoots := by
  unfold takeNote
  split
  · rfl
  · rw [latchRoot_besideRoots, setRun_besideRoots]

@[simp] theorem nextSource_besideRoots (i : Nat) (p : Prob) (now : Nat) (s : State) :
    (nextSource i p now s).besideRoots = s.besideRoots := by
  unfold nextSource
  dsimp only
  split
  · rfl
  · rw [setRootRec_besideRoots, setRun_besideRoots]

@[simp] theorem applyDecision_besideRoots (n i : Nat) (p : Prob) (s : State) :
    (applyDecision n i p s).besideRoots = s.besideRoots := by
  have hfresh (s : State) : (if p.role = 0 then { s with leaven := { s.leaven with fresh := s.leaven.fresh + 1 } } else s).besideRoots
      = s.besideRoots := by split <;> rfl
  unfold applyDecision
  dsimp only
  split
  · rw [nextSource_besideRoots, hfresh, setStarter_besideRoots, setRootRec_besideRoots, setRun_besideRoots]
  · split
    · rw [setRun_besideRoots, setRootRec_besideRoots, setRun_besideRoots]
    · rw [setRun_besideRoots]
  · split
    · rw [setRun_besideRoots]
    · split
      · rw [nextSource_besideRoots, setRun_besideRoots]
      · rw [setRun_besideRoots, setRun_besideRoots]

theorem applyLatch_besideRoots (n : Nat) (acc : State × Bool) (pi : Prob × Nat) :
    (applyLatch n acc pi).1.besideRoots = acc.1.besideRoots := by
  obtain ⟨s, lim⟩ := acc
  obtain ⟨p, i⟩ := pi
  have hlatched (b : Bool) : (if b then takeNote i p (applyDecision n i p (reportEnded n i s)) else reportEnded n i s).besideRoots
      = s.besideRoots := by
    split
    · rw [takeNote_besideRoots, applyDecision_besideRoots, reportEnded_besideRoots]
    · rw [reportEnded_besideRoots]
  unfold applyLatch
  dsimp only
  split
  · rw [setRootRec_besideRoots]; exact hlatched _
  · exact hlatched _

theorem newSource_besideRoots (n : Nat) (s : State) (pi : Prob × Nat) : (newSource n s pi).besideRoots = s.besideRoots := by
  obtain ⟨p, i⟩ := pi
  unfold newSource
  dsimp only
  split
  · rfl
  · split
    · rw [setRootRec_besideRoots, setRun_besideRoots]
    · rw [setRun_besideRoots]

/-- The commit of a step touches, of the roots, main memory and the leaven engines alone. -/
theorem commitRoots_besideRoots (n : Nat) (s : State) : (commitRoots n s).1.besideRoots = s.besideRoots := by
  have hlatches (l : List (Prob × Nat)) (acc : State × Bool) :
      (l.foldl (applyLatch n) acc).1.besideRoots = acc.1.besideRoots := by
    induction l generalizing acc with
    | nil => rfl
    | cons a l ih => exact (ih _).trans (applyLatch_besideRoots n acc a)
  have hlatch := hlatches s.probIdx (s, false)
  unfold commitRoots
  generalize s.probIdx.foldl (applyLatch n) (s, false) = r at hlatch ⊢
  obtain ⟨u, lim⟩ := r
  exact (besideRoots_foldl _ (newSource_besideRoots n) u.probIdx u).trans hlatch

/-! ## The step -/

/-- An ABORT_STEP that lost the race has been logged (R266). -/
def abortNoted (s : State) : State :=
  if s.job.abortAsked then abortIgnored { s with job := { s.job with abortAsked := false } } else s

theorem abortNoted_stops (s : State) : Stops s (abortNoted s) := by
  unfold abortNoted
  split
  · exact (stops_job _ s).trans (logPlain_clears _ _ _).stops
  · exact Stops.refl s

theorem abortNoted_job (s : State) : (abortNoted s).job = { s.job with
    abortAsked := (abortNoted s).job.abortAsked, logInStep := (abortNoted s).job.logInStep } := by
  unfold abortNoted
  split
  · have hlog (d : List Nat) (u : State) : (logPlain 0 d u).job = { u.job with logInStep := (logPlain 0 d u).job.logInStep } := by
      have hjob := congrArg (fun j : Job => { j with logInStep := (logPlain 0 d u).job.logInStep }) (logAdd_job 0 8 0xFF 0 0xFFFF d u)
      exact hjob
    unfold abortIgnored
    rw [hlog]
  · rfl

theorem abortNoted_coll (s : State) : (abortNoted s).coll = s.coll := by
  unfold abortNoted
  split
  · exact logPlain_coll _ _ _
  · rfl

/-- Step `n` is the last committed, and the boundary begins. `r`: what the commit leaves of the roots, and whether the miss
limit is reached. -/
def stepCommitted (n : Nat) (r : State × Bool) : State :=
  { r.1 with
    job := { r.1.job with
      committed := n, commitUs := r.1.localUs
      haltPend := if r.2 then some ROOT_MISSED else r.1.job.haltPend }
    bnd := { Boundary.reset with order := 2, started := r.1.localUs, orderStart := r.1.localUs }
    eff := r.1.regs
    ingest := { r.1.ingest with lateBounds := 0 }
    eval := { r.1.eval with spent := 0 } }

theorem commitStep_eq {s : State} {r : State × Bool} (hr : commitRoots s.job.step (abortNoted s) = r) : commitStep s =
    if (stepCommitted s.job.step r).job.st = .repeating then setJob .running 0 (stepCommitted s.job.step r)
    else stepCommitted s.job.step r := by
  unfold abortNoted at hr
  unfold commitStep
  simp only [hr]
  rfl

/-- What the commit of a step leaves of everything but the roots. -/
structure RootsCommitted (s : State) (r : State × Bool) : Prop where
  same : r.1.besideRoots = (abortNoted s).besideRoots

section
variable {s : State} {r : State × Bool} (h : RootsCommitted s r)
include h

theorem RootsCommitted.job : r.1.job = { s.job with
    abortAsked := (abortNoted s).job.abortAsked, logInStep := (abortNoted s).job.logInStep } :=
  (congrArg State.job h.same :).trans (abortNoted_job s)

theorem RootsCommitted.localUs : r.1.localUs = s.localUs :=
  (congrArg State.localUs h.same :).trans (abortNoted_stops s).localUs

theorem RootsCommitted.regs : r.1.regs = s.regs := (congrArg State.regs h.same :).trans (abortNoted_stops s).regs
theorem RootsCommitted.coll : r.1.coll = s.coll := (congrArg State.coll h.same :).trans (abortNoted_coll s)
theorem RootsCommitted.tx : s.tx <+: r.1.tx := by
  have htx : r.1.tx = (abortNoted s).tx := (congrArg State.tx h.same :)
  rw [htx]
  exact (abortNoted_stops s).onward.tx

/-- What stands once step n is the last committed. -/
theorem RootsCommitted.frame (n : Nat) : (stepCommitted n r).job.step = s.job.step
    ∧ (stepCommitted n r).job.attempt = s.job.attempt ∧ (stepCommitted n r).job.commitUs = s.localUs
    ∧ (stepCommitted n r).job.st = s.job.st ∧ (stepCommitted n r).eff = s.regs ∧ (stepCommitted n r).regs = s.regs := by
  have hjob := h.job
  refine ⟨?_, ?_, h.localUs, ?_, h.regs, h.regs⟩ <;> unfold stepCommitted <;> simp only [hjob]

end

/-- The commit of the step in progress: the roots, then the boundary. -/
theorem commitStep_cases (s : State) : ∃ r, RootsCommitted s r ∧ Stops (stepCommitted s.job.step r) (commitStep s)
    ∧ (commitStep s).coll = r.1.coll
    ∧ (commitStep s).job = { (stepCommitted s.job.step r).job with
        st := (commitStep s).job.st, haltCode := (commitStep s).job.haltCode }
    ∧ (s.job.st.stepping = true → (commitStep s).job.st = .running) := by
  obtain ⟨r, hr⟩ : ∃ r, commitRoots s.job.step (abortNoted s) = r := ⟨_, rfl⟩
  have hroots : RootsCommitted s r := ⟨by rw [← hr]; exact commitRoots_besideRoots _ _⟩
  obtain ⟨_, _, _, hst, _, _⟩ := hroots.frame s.job.step
  refine ⟨r, hroots, ?_⟩
  rw [commitStep_eq hr]
  split
  · exact ⟨setJob_stops _ _ _, setJob_coll _ _ _, by rw [setJob_job_eq], fun _ => setJob_job_st _ _ _⟩
  · next hrun =>
    refine ⟨Stops.refl _, rfl, rfl, fun hstep => ?_⟩
    rw [hst] at hrun ⊢
    cases e : s.job.st <;> simp [e, JobState.stepping] at hstep hrun ⊢

theorem commitStep_tx (s : State) : s.tx <+: (commitStep s).tx := by
  obtain ⟨r, hroots, hstops, _, _, _⟩ := commitStep_cases s
  exact hroots.tx.trans hstops.onward.tx

theorem commitStep_coll (s : State) : (commitStep s).coll = s.coll := by
  obtain ⟨r, hroots, _, hcoll, _, _⟩ := commitStep_cases s
  exact hcoll.trans hroots.coll

/-- Step n commits here, whatever has been sent before (R263, R366). -/
theorem commitStep_committed {s : State} (hin : s.inStep = true)
    (hkids : ∀ d ∈ s.kids, Tx.commit d kCOMMIT (s.msg 0 s.devId true) ∈ s.tx) : Committed s (commitStep s) := by
  have hstep : s.job.st.stepping = true := by
    unfold State.inStep at hin
    exact (Bool.and_eq_true_iff.mp hin).1
  obtain ⟨r, hroots, hstops, _, hjob, hst⟩ := commitStep_cases s
  obtain ⟨hno, hattempt, hus, _, heff, hregs⟩ := hroots.frame s.job.step
  refine ⟨by rw [hjob]; rfl, hst hstep, by rw [hjob]; exact hno, by rw [hjob]; exact hattempt, by rw [hjob]; exact hus,
    ?_, ?_, ?_, ?_⟩
  · rw [hstops.bnd]; rfl
  · rw [hstops.eff, heff]
  · rw [hstops.regs, hregs]
  · exact fun d hd => (commitStep_tx s).subset (hkids d hd)

/-- The job, the boundary, the limits and this device's place among the members stand. -/
structure SameStep (s t : State) : Prop where
  job : t.job = s.job
  bnd : t.bnd = s.bnd
  regs : t.regs = s.regs
  eff : t.eff = s.eff
  localUs : t.localUs = s.localUs
  devId : t.devId = s.devId
  members : t.coll.members = s.coll.members
  digest : t.coll.digest = s.coll.digest

theorem SameStep.refl (s : State) : SameStep s s := ⟨rfl, rfl, rfl, rfl, rfl, rfl, rfl, rfl⟩

theorem SameStep.trans {s t u : State} (h : SameStep s t) (k : SameStep t u) : SameStep s u :=
  ⟨k.job.trans h.job, k.bnd.trans h.bnd, k.regs.trans h.regs, k.eff.trans h.eff, k.localUs.trans h.localUs,
    k.devId.trans h.devId, k.members.trans h.members, k.digest.trans h.digest⟩

theorem sameStep_foldl {α : Type} (g : State → α → State) (h : ∀ s a, SameStep s (g s a)) (l : List α) (s : State) :
    SameStep s (l.foldl g s) := by
  induction l generalizing s with
  | nil => exact SameStep.refl s
  | cons a l ih => exact (h s a).trans (ih (g s a))

theorem Sends.sameStep {s t : State} (h : Sends s t) : SameStep s t := by
  have hdev : t.dev = s.dev := h.works.dev
  have hregs : t.regs = s.regs := h.works.regs
  have hcoord : t.fab.coord = s.fab.coord := by rw [h.fab]
  have hcoll := h.only.coll
  exact ⟨h.only.job, h.works.bnd, hregs, h.works.stops.eff, h.works.stops.localUs,
    by simp only [State.devId, hdev, hregs, hcoord], by rw [hcoll], by rw [hcoll]⟩

section
variable {s t : State} (h : SameStep s t)
include h

theorem SameStep.msg (code origin : Nat) (c : Bool) : t.msg code origin c = s.msg code origin c := by
  simp only [State.msg, h.job, h.digest, h.devId]
theorem SameStep.rank : t.rank = s.rank := by simp only [State.rank, h.members, h.devId]
theorem SameStep.kids : t.kids = s.kids := by
  unfold State.kids State.member
  rw [h.rank, h.members]
theorem SameStep.others : t.others = s.others := by simp only [State.others, h.members, h.devId]
theorem SameStep.inStep : t.inStep = s.inStep := by simp only [State.inStep, h.job, h.bnd]

end

/-- The message of a state is the same while it is being sent. -/
theorem sendEach_msg (kind code : Nat) (b : Bool) (l : List Nat) {s u : State} (h : SameStep s u) :
    l.foldl (fun s d => sendCommit d kind (s.msg code s.devId b) s) u
      = l.foldl (fun v d => sendCommit d kind (s.msg code s.devId b) v) u := by
  induction l generalizing u with
  | nil => simp only [List.foldl_nil]
  | cons a l ih =>
    have hmsg : u.msg code u.devId b = s.msg code s.devId b := by rw [h.msg, h.devId]
    have hsend : SameStep s (sendCommit a kind (s.msg code s.devId b) u) :=
      h.trans (sendCommit_sends a kind (s.msg code s.devId b) u).sameStep
    rw [List.foldl_cons, List.foldl_cons, hmsg]
    exact ih hsend

/-- What a commit leaves, seen from before messages were sent. -/
theorem Committed.after {s u t : State} (h : Committed u t) (hu : SameStep s u) : Committed s t := by
  obtain ⟨h1, h2, h3, h4, h5, h6, h7, h8, h9⟩ := h
  rw [hu.job] at h1 h3 h4
  rw [hu.localUs] at h5
  rw [hu.regs] at h7 h8
  refine ⟨h1, h2, h3, h4, h5, h6, h7, h8, fun d hd => ?_⟩
  have hmem := h9 d (by rw [hu.kids]; exact hd)
  rwa [hu.msg, hu.devId] at hmem

/-- COMMIT goes to the children, then the step commits. -/
theorem takeCommit_committed {s : State} (hin : s.inStep = true) : Committed s (takeCommit s) := by
  have hmsg := sendEach_msg kCOMMIT 0 true s.kids (SameStep.refl s)
  have hsends : SameStep s (s.kids.foldl (fun v d => sendCommit d kCOMMIT (s.msg 0 s.devId true) v) s) :=
    (sends_fold _ (fun s d => sendCommit_sends d _ _ s) _ s).sameStep
  have hmem (d : Nat) (hd : d ∈ s.kids) := sendEach_mem kCOMMIT (s.msg 0 s.devId true) s.kids s hd
  unfold takeCommit
  dsimp only
  rw [hmsg]
  generalize s.kids.foldl (fun v d => sendCommit d kCOMMIT (s.msg 0 s.devId true) v) s = u at *
  refine (commitStep_committed (hsends.inStep.trans hin) fun d hd => ?_).after hsends
  rw [hsends.msg, hsends.devId]
  exact hmem d (by rw [← hsends.kids]; exact hd)

theorem takeCommit_coll (s : State) : (takeCommit s).coll = s.coll := by
  have hsends := sends_fold (fun s d => sendCommit d kCOMMIT (s.msg 0 s.devId true) s) (fun s d => sendCommit_sends d _ _ s)
    s.kids s
  unfold takeCommit
  rw [commitStep_coll]
  exact hsends.only.coll

/-! ## Queries -/

/-- A query has been answered (R268). -/
def markAnswered (dev step attempt : Nat) (s : State) : State :=
  { s with coll := { s.coll with answered := (step, attempt, dev) :: s.coll.answered } }

/-- No query is held. -/
def dropQueries (s : State) : State := { s with coll := { s.coll with queries := [] } }

/-- The answer to a query. -/
def decisionMsg (s : State) (step attempt : Nat) (commit : Bool) : CommitMsg :=
  { s.msg 0 s.devId commit with step := step, attempt := attempt }

theorem sameStep_markAnswered (dev step attempt : Nat) (s : State) : SameStep s (markAnswered dev step attempt s) :=
  ⟨rfl, rfl, rfl, rfl, rfl, rfl, rfl, rfl⟩

theorem answerQuery_of_asked {dev step attempt : Nat} {commit : Bool} {s : State}
    (h : (step, attempt, dev) ∈ s.coll.answered) : answerQuery dev step attempt commit s = s := by
  unfold answerQuery
  rw [if_pos (List.contains_iff_mem.mpr h)]

theorem answerQuery_of_new {dev step attempt : Nat} {commit : Bool} {s : State}
    (h : (step, attempt, dev) ∉ s.coll.answered) : answerQuery dev step attempt commit s
      = sendCommit dev kDECISION (decisionMsg s step attempt commit) (markAnswered dev step attempt s) := by
  unfold answerQuery
  rw [if_neg (fun e => h (List.contains_iff_mem.mp e))]
  rfl

section
variable (dev step attempt : Nat) (commit : Bool) (s : State)

theorem answerQuery_sameStep : SameStep s (answerQuery dev step attempt commit s) := by
  by_cases h : (step, attempt, dev) ∈ s.coll.answered
  · rw [answerQuery_of_asked h]; exact SameStep.refl s
  · rw [answerQuery_of_new h]
    exact (sameStep_markAnswered dev step attempt s).trans (sendCommit_sends _ _ _ _).sameStep

theorem answerQuery_decided : (answerQuery dev step attempt commit s).coll.decided = s.coll.decided := by
  by_cases h : (step, attempt, dev) ∈ s.coll.answered
  · rw [answerQuery_of_asked h]
  · rw [answerQuery_of_new h, (sendCommit_sends _ _ _ _).only.coll]
    rfl

end

theorem answerHeld_eq (commit : Bool) (s : State) : answerHeld commit s
    = s.coll.queries.foldl (fun s d => answerQuery d s.job.step s.job.attempt commit s) (dropQueries s) := rfl

theorem answerHeld_sameStep (commit : Bool) (s : State) : SameStep s (answerHeld commit s) := by
  have hdrop : SameStep s (dropQueries s) := ⟨rfl, rfl, rfl, rfl, rfl, rfl, rfl, rfl⟩
  rw [answerHeld_eq]
  exact hdrop.trans (sameStep_foldl _ (fun s d => answerQuery_sameStep d _ _ commit s) _ _)

theorem answerHeld_decided (commit : Bool) (s : State) : (answerHeld commit s).coll.decided = s.coll.decided := by
  have hfold (l : List Nat) (s : State) :
      (l.foldl (fun s d => answerQuery d s.job.step s.job.attempt commit s) s).coll.decided = s.coll.decided := by
    induction l generalizing s with
    | nil => rfl
    | cons a l ih => exact (ih _).trans (answerQuery_decided _ _ _ _ _)
  rw [answerHeld_eq]
  exact hfold _ (dropQueries s)

/-! ## PREPARE and COMMIT -/

section
variable {s : State}

theorem pumpCommit_of_waiting {d : Nat} (hd : d ∈ s.kids) (hgot : d ∉ s.coll.prepGot) : pumpCommit s = s := by
  have hall : (s.kids.all fun d => s.coll.prepGot.contains d) = false :=
    List.all_eq_false.mpr ⟨d, hd, fun e => hgot (List.contains_iff_mem.mp e)⟩
  unfold pumpCommit
  rw [hall, Bool.not_false, Bool.or_true, if_pos rfl]

theorem pumpCommit_of_closed (h : s.coll.phaseOne = false) : pumpCommit s = s := by
  unfold pumpCommit
  rw [if_pos (by simp [h])]

section
variable (hin : s.inStep = true) (hone : s.coll.phaseOne = true) (hprep : s.coll.prepSent = false)
  (hall : ∀ d ∈ s.kids, d ∈ s.coll.prepGot)
include hin hone hprep hall

theorem pumpCommit_passes : (!s.inStep || !s.coll.phaseOne || s.coll.prepSent
    || !(s.kids.all fun d => s.coll.prepGot.contains d)) = false := by
  have h : (s.kids.all fun d => s.coll.prepGot.contains d) = true :=
    List.all_eq_true.mpr fun d hd => List.contains_iff_mem.mpr (hall d hd)
  rw [hin, hone, hprep, h]
  rfl

/-- The commit root decides (R263). -/
theorem pumpCommit_root (hr : s.rank = 0) : Committed s (pumpCommit s) ∧ (pumpCommit s).coll.decided = some true := by
  have hpass := pumpCommit_passes hin hone hprep hall
  have hmark : SameStep s { s with coll := { s.coll with decided := some true, prepSent := true } } :=
    ⟨rfl, rfl, rfl, rfl, rfl, rfl, rfl, rfl⟩
  have hsame := hmark.trans (answerHeld_sameStep true _)
  unfold pumpCommit
  rw [hpass, if_neg Bool.false_ne_true, if_pos hr, takeCommit_coll, answerHeld_decided]
  exact ⟨(takeCommit_committed (hsame.inStep.trans hin)).after hsame, rfl⟩

/-- Another device sends PREPARE to its parent (R263). -/
theorem pumpCommit_member (hr : s.rank ≠ 0) :
    FabricOnly { s with coll := { s.coll with prepSent := true } } (pumpCommit s)
      ∧ Tx.commit s.parentDev kPREPARE (s.msg 0 s.devId false) ∈ (pumpCommit s).tx := by
  have hpass := pumpCommit_passes hin hone hprep hall
  unfold pumpCommit
  rw [hpass, if_neg Bool.false_ne_true, if_neg hr]
  exact ⟨(sendCommit_sends _ _ _ _).only, sendCommit_mem _ _ _ _⟩

end

end

/-! ## Messages of the step in progress -/

section
variable {m : CommitMsg} {s : State}

theorem level_of_same {b : Bool} (h : m.attempt = s.job.attempt) : level m b s = s := by
  unfold level higherState
  split
  · rw [if_pos (by simp [h])]
  · rfl

/-- A message of the step in progress is not kept for later. -/
theorem keepMsg_of_forStep {kind : Nat} (h : s.forStep m = true) : keepMsg kind m s = s := by
  unfold State.forStep at h
  simp only [Bool.and_eq_true, beq_iff_eq] at h
  obtain ⟨⟨_, hin⟩, hstep⟩ := h
  unfold keepMsg State.ahead
  rw [if_neg (by simp [hin, hstep])]

section
variable (hfor : s.forStep m = true) (hattempt : m.attempt = s.job.attempt)
include hfor hattempt

/-- A PREPARE that is not yet in is counted. -/
theorem prepareState_of_new (hkid : m.sender ∈ s.kids) (hnew : m.sender ∉ s.coll.prepGot) :
    prepareState m (keepMsg kPREPARE m s)
      = pumpCommit { s with coll := { s.coll with prepGot := m.sender :: s.coll.prepGot } } := by
  have hk : s.kids.contains m.sender = true := List.contains_iff_mem.mpr hkid
  have hg : s.coll.prepGot.contains m.sender = false := by
    rw [Bool.eq_false_iff]; exact fun e => hnew (List.contains_iff_mem.mp e)
  rw [keepMsg_of_forStep hfor]
  unfold prepareState
  rw [level_of_same hattempt]
  dsimp only
  rw [hfor, hk, hg, if_pos (by simp [hattempt])]

theorem commitState_of_prepared (hprep : s.coll.prepSent = true) : commitState m s = takeCommit s := by
  unfold commitState
  rw [level_of_same hattempt]
  dsimp only
  rw [if_pos (by simp [hfor, hattempt, hprep])]

theorem decisionState_of_prepared (hprep : s.coll.prepSent = true) : decisionState m s =
    if m.commit then takeCommit s else discardAttempt STEP_REPEAT_FAULT m.sender [] s := by
  unfold decisionState
  rw [level_of_same hattempt]
  dsimp only
  rw [if_pos (by simp [hfor, hattempt, hprep])]

end

theorem commitState_of_unprepared (hattempt : m.attempt = s.job.attempt)
    (hprep : s.coll.prepSent = false) : commitState m s = s := by
  unfold commitState
  rw [level_of_same hattempt]
  dsimp only
  rw [if_neg (by simp [hprep])]

theorem forStep_inStep (hfor : s.forStep m = true) : s.inStep = true := by
  unfold State.forStep at hfor
  simp only [Bool.and_eq_true, beq_iff_eq] at hfor
  exact hfor.1.2

end

/-- Settles O57: phase one and each PREPARE lead to `pumpCommit`, which waits, passes PREPARE on or commits; COMMIT and a
decision reach a device that has sent PREPARE. -/
theorem stepsCommitThroughTheTree : Obligations.StepsCommitThroughTheTree := by
  intro s hin
  have hphase (hmet : s.phaseOneMet = true) (hone : s.coll.phaseOne = false) :
      phaseOneState s = pumpCommit { s with coll := { s.coll with phaseOne := true } } := by
    unfold phaseOneState
    rw [if_pos (by simp [hin, hmet, hone])]
  refine ⟨fun hmet hone hprep => ⟨fun ⟨d, hd, hgot⟩ => ?_, fun hall hr => ?_, fun hall hr => ?_⟩, fun hmet => ?_,
    fun m hfor hattempt => ⟨fun hkid hnew hone => ?_, fun hkid hnew hone hprep hall hr => ?_,
      fun hkid hnew hone hprep hall hr => ?_, fun hprep => ?_, fun hprep => ?_, fun hprep hcommit => ?_,
      fun hprep hcommit hlim => ?_⟩⟩
  · exact ⟨_, congrArg Host.Outcome.next (hphase hmet hone), pumpCommit_of_waiting (d := d) hd hgot⟩
  · obtain ⟨honly, hmem⟩ := pumpCommit_member (s := { s with coll := { s.coll with phaseOne := true } }) hin rfl hprep hall hr
    exact ⟨_, congrArg Host.Outcome.next (hphase hmet hone), honly, hmem⟩
  · obtain ⟨hcommit, hdecided⟩ :=
      pumpCommit_root (s := { s with coll := { s.coll with phaseOne := true } }) hin rfl hprep hall hr
    exact ⟨_, congrArg Host.Outcome.next (hphase hmet hone), hcommit.after ⟨rfl, rfl, rfl, rfl, rfl, rfl, rfl, rfl⟩, hdecided⟩
  · have hstate : phaseOneState s = s := by
      unfold phaseOneState
      rw [if_neg (by simp [hmet])]
    exact congrArg Host.Outcome.next hstate
  · exact ⟨_, congrArg Host.Outcome.next (prepareState_of_new hfor hattempt hkid hnew), pumpCommit_of_closed hone⟩
  · have hgot (d : Nat) (hd : d ∈ s.kids) : d ∈ m.sender :: s.coll.prepGot := List.mem_cons.mpr (hall d hd)
    obtain ⟨hcommit, _⟩ := pumpCommit_root (s := { s with coll := { s.coll with prepGot := m.sender :: s.coll.prepGot } })
      hin hone hprep hgot hr
    exact ⟨_, congrArg Host.Outcome.next (prepareState_of_new hfor hattempt hkid hnew),
      hcommit.after ⟨rfl, rfl, rfl, rfl, rfl, rfl, rfl, rfl⟩⟩
  · have hgot (d : Nat) (hd : d ∈ s.kids) : d ∈ m.sender :: s.coll.prepGot := List.mem_cons.mpr (hall d hd)
    obtain ⟨honly, hmem⟩ := pumpCommit_member (s := { s with coll := { s.coll with prepGot := m.sender :: s.coll.prepGot } })
      hin hone hprep hgot hr
    exact ⟨_, congrArg Host.Outcome.next (prepareState_of_new hfor hattempt hkid hnew), honly, hmem⟩
  · exact ⟨_, congrArg Host.Outcome.next (commitState_of_prepared hfor hattempt hprep), takeCommit_committed hin⟩
  · exact congrArg Host.Outcome.next (commitState_of_unprepared hattempt hprep)
  · have hstate := decisionState_of_prepared hfor hattempt hprep
    rw [if_pos hcommit] at hstate
    exact ⟨_, congrArg Host.Outcome.next hstate, takeCommit_committed hin⟩
  · have hstate := decisionState_of_prepared hfor hattempt hprep
    rw [if_neg (by simp [hcommit])] at hstate
    exact ⟨_, congrArg Host.Outcome.next hstate, (discardAttempt_restarts hin hlim).repeats⟩

end Sys2Proof.Machine
end
section
/-! Aborts, queries, halts, silence and digests (R264 to R271). -/

namespace Sys2Proof.Machine

/-! ## Aborts -/

section
variable {m : CommitMsg} {s : State}

theorem forStep_of_other (h : m.step ≠ s.job.step) : s.forStep m = false := by
  unfold State.forStep
  simp [h]

theorem level_of_other {b : Bool} (h : m.step ≠ s.job.step) : level m b s = s := by
  unfold level
  rw [forStep_of_other h, if_neg Bool.false_ne_true]

theorem keepMsg_of_past {kind : Nat} (h : m.step ≤ s.job.committed) : keepMsg kind m s = s := by
  unfold keepMsg State.ahead
  rw [if_neg (by simp; omega)]

theorem inStep_live (h : s.inStep = true) : s.job.st.live = true := by
  unfold State.inStep at h
  cases e : s.job.st <;> simp [e, JobState.stepping, JobState.live] at h ⊢

theorem inStep_order (h : s.inStep = true) : s.bnd.order = 0 := by
  unfold State.inStep at h
  simp only [Bool.and_eq_true, beq_iff_eq] at h
  exact h.2

section
variable (hfor : s.forStep m = true) (hattempt : m.attempt = s.job.attempt)
include hfor hattempt

theorem abortState_of_same : abortState m (keepMsg kABORT m s) = discardAttempt m.code m.origin [] s := by
  rw [keepMsg_of_forStep hfor]
  unfold abortState
  rw [level_of_same hattempt]
  dsimp only
  rw [if_pos (by simp [hfor, hattempt])]

theorem abortReqState_of_root (hr : s.rank = 0) : abortReqState m (keepMsg kABORT_REQ m s)
    = discardAttempt m.code m.sender [] (sendMembers kABORT (s.msg m.code m.sender false) s) := by
  rw [keepMsg_of_forStep hfor]
  unfold abortReqState
  rw [level_of_same hattempt]
  dsimp only
  rw [if_pos (by simp [hfor, hattempt, hr])]

theorem abortReqState_of_member (hr : s.rank ≠ 0) : abortReqState m (keepMsg kABORT_REQ m s) = s := by
  rw [keepMsg_of_forStep hfor]
  unfold abortReqState
  rw [level_of_same hattempt]
  dsimp only
  rw [if_neg (by simp [hr])]

/-- The commit root has every member abort the attempt, and gives it up (R266). -/
theorem abortReqState_restarts (hr : s.rank = 0) (hlim : s.job.attempt < s.eff.repeatLimit) :
    RepeatsFrom m.code m.sender s (abortReqState m (keepMsg kABORT_REQ m s))
      ∧ ∀ d ∈ s.others, Tx.commit d kABORT (s.msg m.code m.sender false)
          ∈ (abortReqState m (keepMsg kABORT_REQ m s)).tx := by
  have hsend := sendMembers_sends kABORT (s.msg m.code m.sender false) s
  have hin := forStep_inStep hfor
  have hrestart : Restarts m.code m.sender (sendMembers kABORT (s.msg m.code m.sender false) s)
      (discardAttempt m.code m.sender [] (sendMembers kABORT (s.msg m.code m.sender false) s)) :=
    discardAttempt_restarts (hsend.sameStep.inStep.trans hin) (by rw [hsend.sameStep.job, hsend.sameStep.eff]; exact hlim)
  rw [abortReqState_of_root hfor hattempt hr]
  exact ⟨(hrestart.after hsend.works.clears).repeats, fun d hd => hrestart.stops.onward.tx.subset (sendMembers_mem _ _ _ hd)⟩

end

/-- After discarding, the step is still in progress. -/
theorem Restarts.inStep {cause origin : Nat} {s t : State} (h : Restarts cause origin s t) (hin : s.inStep = true) :
    t.inStep = true := by
  obtain ⟨_, hst, _⟩ := h.repeats
  unfold State.inStep
  rw [hst, h.stops.bnd, inStep_order hin]
  rfl

/-- Attempt `a` runs: each one below it has been given up for the same cause (R264). -/
structure CaughtUp (a cause origin : Nat) (s t : State) : Prop where
  attempt : t.job.attempt = a
  causes : t.job.causes = s.job.causes ++ List.replicate (a - s.job.attempt) (cause, origin)
  committed : t.job.committed = s.job.committed
  step : t.job.step = s.job.step
  began : s.job.attempt < a → t.job.st = .repeating ∧ t.groups = []

theorem catchUp_caughtUp {a cause origin fuel : Nat} {s : State} (hin : s.inStep = true) (hle : s.job.attempt ≤ a)
    (hlim : a ≤ s.eff.repeatLimit) (hfuel : a ≤ s.job.attempt + fuel) :
    CaughtUp a cause origin s (catchUp a cause origin fuel s) := by
  induction fuel generalizing s with
  | zero =>
    have heq : s.job.attempt = a := by omega
    exact ⟨heq, by simp [catchUp, heq], rfl, rfl, fun h => absurd h (by omega)⟩
  | succ fuel ih =>
    unfold catchUp
    by_cases hlt : s.job.attempt < a
    · rw [if_pos (by simp [hin, hlt])]
      have hrestart : Restarts cause origin s (discardAttempt cause origin [] s) := discardAttempt_restarts hin (by omega)
      generalize discardAttempt cause origin [] s = u at hrestart ⊢
      obtain ⟨hattempt, hst, hcauses, hstep, hcommitted, hgroups⟩ := hrestart.repeats
      have hnext := ih (s := u) (hrestart.inStep hin) (by omega) (by rw [hrestart.stops.eff]; exact hlim) (by omega)
      have hcount : a - s.job.attempt = (a - u.job.attempt) + 1 := by omega
      refine ⟨hnext.attempt, ?_, hnext.committed.trans hcommitted, hnext.step.trans hstep, fun _ => ?_⟩
      · rw [hnext.causes, hcauses, hcount, List.replicate_succ, List.append_assoc]
        rfl
      · by_cases hmore : u.job.attempt < a
        · exact hnext.began hmore
        · have hstay : catchUp a cause origin fuel u = u := by
            cases fuel with
            | zero => rfl
            | succ _ => unfold catchUp; rw [if_neg (by simp [hmore])]
          rw [hstay]
          exact ⟨hst, hgroups⟩
    · have heq : s.job.attempt = a := by omega
      rw [if_neg (by simp [hlt])]
      exact ⟨heq, by simp [heq], rfl, rfl, fun h => absurd h hlt⟩

theorem higherState_of_mine (hin : s.inStep = true) (hstep : m.step = s.job.step) (hmine : s.mine m = true)
    (hlt : s.job.attempt < m.attempt) : higherState m true none s = catchUp m.attempt m.code m.origin 16 s := by
  unfold higherState
  rw [if_neg (by simp [hin, hstep, hmine]; omega)]
  rfl

theorem higherState_of_other (hstep : m.step ≠ s.job.step) : higherState m true none s = s := by
  unfold higherState
  rw [if_pos (by simp [hstep])]

end

theorem attemptsAreAborted : Claims.AttemptsAreAborted := by
  intro m s
  refine ⟨fun hfor hattempt => ⟨fun hlim => ?_, fun hlim => ?_, fun hr hlim => ?_, fun hr => ?_⟩,
    fun hin hstep hmine hlt hlim hfuel => ?_, fun hstep hpast => ?_, fun hstep => ?_, fun hmine hin hcommitted hstep => ?_⟩
  · exact ⟨_, congrArg Host.Outcome.next (abortState_of_same hfor hattempt),
      (discardAttempt_restarts (forStep_inStep hfor) hlim).repeats⟩
  · exact ⟨_, congrArg Host.Outcome.next (abortState_of_same hfor hattempt),
      discardAttempt_halts (forStep_inStep hfor) hlim⟩
  · exact ⟨_, rfl, abortReqState_restarts hfor hattempt hr hlim⟩
  · exact congrArg Host.Outcome.next (abortReqState_of_member hfor hattempt hr)
  · obtain ⟨hattempt, hcauses, hcommitted, hst, hbegan⟩ := catchUp_caughtUp (cause := m.code) (origin := m.origin) (fuel := 16)
      hin (Nat.le_of_lt hlt) hlim hfuel
    exact ⟨_, congrArg Host.Outcome.next (higherState_of_mine hin hstep hmine hlt), hattempt, (hbegan hlt).1, hcauses,
      hcommitted, hst, (hbegan hlt).2⟩
  · have hne : m.step ≠ s.job.step := by omega
    have hstate : abortState m (keepMsg kABORT m s) = s := by
      rw [keepMsg_of_past hpast]
      unfold abortState
      rw [level_of_other hne]
      dsimp only
      rw [forStep_of_other hne]
      rfl
    exact congrArg Host.Outcome.next hstate
  · exact congrArg Host.Outcome.next (higherState_of_other hstep)
  · have hkept : keepMsg kABORT m s = { s with coll := { s.coll with held := s.coll.held ++ [(kABORT, m)] } } := by
      unfold keepMsg State.ahead
      rw [if_pos (by simp [hmine, inStep_live hin, hcommitted, hstep])]
    have hne : m.step ≠ s.job.step := by omega
    refine ⟨_, rfl, ?_⟩
    rw [hkept]
    unfold abortState
    rw [level_of_other (s := { s with coll := { s.coll with held := s.coll.held ++ [(kABORT, m)] } }) hne]
    dsimp only
    rw [forStep_of_other (s := { s with coll := { s.coll with held := s.coll.held ++ [(kABORT, m)] } }) hne]
    rfl

/-! ## Queries and halts -/

theorem queryState_of_member {m : CommitMsg} {s : State} (hr : s.rank ≠ 0) :
    queryState m (if s.rank = 0 then keepMsg kQUERY m s else s) = s := by
  rw [if_neg hr]
  unfold queryState
  rw [if_pos (by simp [hr])]

section
variable {m : CommitMsg} {s : State} (hmine : s.mine m = true)
include hmine

theorem queryState_of_past (hr : s.rank = 0) (hpast : m.step ≤ s.job.committed) :
    queryState m (if s.rank = 0 then keepMsg kQUERY m s else s)
      = answerQuery m.sender m.step m.attempt (s.committedAs m.step m.attempt) s := by
  rw [if_pos hr, keepMsg_of_past hpast]
  unfold queryState
  rw [if_neg (by simp [hmine, hr]), if_pos hpast]

theorem forStep_of_now (hin : s.inStep = true) (hstep : m.step = s.job.step) : s.forStep m = true := by
  unfold State.forStep
  simp [hmine, hin, hstep]

section
variable (hr : s.rank = 0) (hin : s.inStep = true) (hcommitted : s.job.committed < m.step) (hstep : m.step = s.job.step)
include hr hin hcommitted hstep

/-- A query of the step in progress and of this attempt or an earlier one. -/
theorem queryState_of_now (hle : m.attempt ≤ s.job.attempt) : queryState m (if s.rank = 0 then keepMsg kQUERY m s else s)
    = if m.attempt < s.job.attempt then answerQuery m.sender m.step m.attempt false s
      else if s.coll.queries.contains m.sender then s
      else { s with coll := { s.coll with queries := s.coll.queries ++ [m.sender] } } := by
  have hfor := forStep_of_now hmine hin hstep
  have hlevel : level m false s = s := by
    unfold level higherState
    rw [if_pos hfor, if_pos (by simp [hle])]
  rw [if_pos hr, keepMsg_of_forStep hfor]
  unfold queryState
  rw [if_neg (by simp [hmine, hr]), if_neg (by omega), hlevel]
  dsimp only
  rw [if_pos hfor]

end

theorem haltState_of_mine (h : s.job.st.live = true ∨ s.job.st = .loaded) : haltState m s = halt m.code s := by
  unfold haltState
  rw [if_pos (by rcases h with e | e <;> simp [hmine, e])]

end

/-- An answer goes out once. -/
theorem answerQuery_post {dev step attempt : Nat} {commit : Bool} {s : State} (h : (step, attempt, dev) ∉ s.coll.answered) :
    FabricOnly (markAnswered dev step attempt s) (answerQuery dev step attempt commit s)
      ∧ Tx.commit dev kDECISION (decisionMsg s step attempt commit) ∈ (answerQuery dev step attempt commit s).tx := by
  rw [answerQuery_of_new h]
  exact ⟨(sendCommit_sends _ _ _ _).only, sendCommit_mem _ _ _ _⟩

theorem queriesAndHalts : Claims.QueriesAndHalts := by
  intro m s hmine
  refine ⟨fun hr hpast hnew => ?_, fun hr ⟨hin, hcommitted, hstep⟩ hlt hnew => ?_, fun hr hcase hasked => ?_,
    fun hr ⟨hin, hcommitted, hstep⟩ heq hnew => ?_, fun hr ⟨hin, hcommitted, hstep⟩ heq hheld => ?_, fun hr => ?_,
    fun hnow => ?_, fun hst horder hpend => ?_⟩
  · exact ⟨_, congrArg Host.Outcome.next (queryState_of_past hmine hr hpast), answerQuery_post hnew⟩
  · have hstate := queryState_of_now hmine hr hin hcommitted hstep (Nat.le_of_lt hlt)
    rw [if_pos hlt] at hstate
    exact ⟨_, congrArg Host.Outcome.next hstate, answerQuery_post hnew⟩
  · rcases hcase with hpast | ⟨⟨hin, hcommitted, hstep⟩, hlt⟩
    · exact congrArg Host.Outcome.next ((queryState_of_past hmine hr hpast).trans (answerQuery_of_asked hasked))
    · have hstate := queryState_of_now hmine hr hin hcommitted hstep (Nat.le_of_lt hlt)
      rw [if_pos hlt] at hstate
      exact congrArg Host.Outcome.next (hstate.trans (answerQuery_of_asked hasked))
  · have hstate := queryState_of_now hmine hr hin hcommitted hstep (Nat.le_of_eq heq)
    rw [if_neg (show ¬ m.attempt < s.job.attempt by omega), if_neg (fun e => hnew (List.contains_iff_mem.mp e))] at hstate
    exact ⟨_, congrArg Host.Outcome.next hstate, rfl⟩
  · have hstate := queryState_of_now hmine hr hin hcommitted hstep (Nat.le_of_eq heq)
    rw [if_neg (show ¬ m.attempt < s.job.attempt by omega), if_pos (List.contains_iff_mem.mpr hheld)] at hstate
    exact congrArg Host.Outcome.next hstate
  · exact congrArg Host.Outcome.next (queryState_of_member hr)
  · have hstate := (haltState_of_mine hmine hnow.1).trans (halt_eq hnow)
    exact ⟨_, congrArg Host.Outcome.next hstate, haltNow_halted hnow.1, haltNow_mem hnow.1⟩
  · have hlive : s.job.st.live = true := by cases e : s.job.st <;> simp [e, JobState.stepping, JobState.live] at hst ⊢
    have hhalt : halt m.code s = { s with job := { s.job with haltPend := some m.code } } := by
      unfold halt
      rw [if_neg (by simp [horder, hst]), hpend]
      rfl
    exact ⟨_, congrArg Host.Outcome.next ((haltState_of_mine hmine (.inl hlive)).trans hhalt), rfl⟩

/-! ## Silence -/

theorem logAdd_devId (c a h u l : Nat) (d : List Nat) (s : State) : (logAdd c a h u l d s).devId = s.devId := by
  simp only [State.devId, logAdd_dev, logAdd_fab, logAdd_regs]

theorem logPlain_devId (c : Nat) (d : List Nat) (s : State) : (logPlain c d s).devId = s.devId :=
  logAdd_devId c 8 0xFF 0 0xFFFF d s

/-- A device that can give its attempt up still can after a record of its log. -/
theorem CanRepeat.logged {s : State} (h : CanRepeat s) (c a g u l : Nat) (d : List Nat) : CanRepeat (logAdd c a g u l d s) := by
  obtain ⟨hin, hprep, hlim⟩ := h
  obtain ⟨hstep, hattempt, heff⟩ := (logAdd_clears c a g u l d s).step
  exact ⟨hstep.trans hin, by rw [logAdd_coll]; exact hprep, by rw [hattempt, heff]; exact hlim⟩

/-- A cause of this device that follows a record of its log. -/
theorem abortOwn_restarts_logged {cause : Nat} {extra : List Nat} {s : State} {w : Where} (h : CanRepeat s)
    (c a g u l : Nat) (d : List Nat) : Restarts cause s.devId s (abortOwn cause extra (logAdd c a g u l d s) w) := by
  have hrestart := abortOwn_restarts (cause := cause) (extra := extra) (w := w) (h.logged c a g u l d)
  rw [logAdd_devId] at hrestart
  exact hrestart.after (logAdd_clears c a g u l d s)

/-- The state in which the silence of a partner is noticed. -/
def silent (us : Nat) (s : State) : State := { s with localUs := max s.localUs (us + s.eff.silence) }

section
variable {w : WaitKind} {partner item detail : Nat} {s : State}

theorem partnerSilent_of_none (h : s.waitsFor w partner item detail = false) : partnerSilentState w partner item detail s = s := by
  unfold partnerSilentState
  rw [if_neg (by simp [h]), if_neg (by simp [h])]

theorem partnerSilent_of_step (hin : s.inStep = true) (h : s.waitsFor w partner item detail = true) :
    partnerSilentState w partner item detail s = abortOwn STEP_REPEAT_LATE [PARTNER_SILENT]
      (logPlain PARTNER_SILENT [partner, waitCode w, item, detail, s.job.attempt] (silent s.job.stepStart s)) := by
  unfold partnerSilentState
  rw [if_neg (by simp [inStep_order hin]), if_pos (by simp [hin, h])]
  rfl

theorem partnerSilent_of_gather (horder : s.bnd.order = 5) (h : s.waitsFor .bucket partner item detail = true) :
    partnerSilentState .bucket partner item detail s
      = logPlain PARTNER_SILENT [partner, 1, item, detail, s.job.attempt] (silent s.bnd.orderStart s) := by
  unfold partnerSilentState
  rw [if_pos (by simp [horder, h])]
  rfl

end

/-- The commit root's silence, counted and logged (R268). -/
def outcomeMissed (s : State) : State :=
  let u := logPlain PARTNER_SILENT [s.commitRoot, 5, 0, 0, s.job.attempt] { s with localUs := s.localUs + s.eff.silence }
  { u with coll := { u.coll with silences := u.coll.silences + 1 } }

theorem outcomeMissed_clears (s : State) : Clears { s with localUs := s.localUs + s.eff.silence } (outcomeMissed s) := by
  have hlog := logPlain_clears PARTNER_SILENT [s.commitRoot, 5, 0, 0, s.job.attempt] { s with localUs := s.localUs + s.eff.silence }
  exact hlog.trans ⟨rfl, onward_of_eq rfl rfl rfl⟩

theorem outcomeMissed_coll (s : State) : (outcomeMissed s).coll = { s.coll with silences := s.coll.silences + 1 } := by
  unfold outcomeMissed
  simp only [logPlain_coll]

theorem outcomeMissed_mm (s : State) : (outcomeMissed s).mm = s.mm :=
  logPlain_mm _ _ { s with localUs := s.localUs + s.eff.silence }

theorem outcomeMissed_devId (s : State) : (outcomeMissed s).devId = s.devId :=
  logPlain_devId _ _ { s with localUs := s.localUs + s.eff.silence }

theorem outcomeMissed_msg (s : State) : (outcomeMissed s).msg 0 (outcomeMissed s).devId false = s.msg 0 s.devId false := by
  have hjob : (outcomeMissed s).job.bare = s.job.bare := (congrArg State.job (outcomeMissed_clears s).same :)
  have hstep : (outcomeMissed s).job.step = s.job.step := (congrArg Job.step hjob :)
  have hattempt : (outcomeMissed s).job.attempt = s.job.attempt := (congrArg Job.attempt hjob :)
  simp only [State.msg, outcomeMissed_devId, outcomeMissed_coll, hstep, hattempt]

theorem outcomeSilence_of_prepared {s : State} (hin : s.inStep = true) (hprep : s.coll.prepSent = true) :
    outcomeSilenceState s = if 4 ≤ (outcomeMissed s).coll.silences then halt PARTNER_SILENT (outcomeMissed s)
      else sendCommit (outcomeMissed s).commitRoot kQUERY ((outcomeMissed s).msg 0 (outcomeMissed s).devId false)
        (outcomeMissed s) := by
  unfold outcomeSilenceState
  rw [if_pos (by simp [hin, hprep])]
  rfl

/-! ## Digests -/

/-- The digests received once this one has come. -/
def digestIn (sender : Nat) (d : W64) (s : State) : State :=
  { s with coll := { s.coll with digests := (sender, d) :: s.coll.digests.filter fun x => x.1 != sender } }

/-- Every other member is told that step work is released. -/
def tellReleased (s : State) : State := s.others.foldl (fun s d => sendWords d 9 [s.coll.digest.toNat] s) s

theorem tellReleased_sends (s : State) : Sends s (tellReleased s) := sends_fold _ (fun s d => sends_sendWords d _ _ s) _ s

theorem tellReleased_mem {s : State} {k : Nat} (hk : k ∈ s.others) :
    Tx.vl0 k 9 [s.coll.digest.toNat] ∈ (tellReleased s).tx := by
  have hfold (l : List Nat) (u : State) (hu : SameStep s u) (hl : k ∈ l) :
      Tx.vl0 k 9 [s.coll.digest.toNat] ∈ (l.foldl (fun s d => sendWords d 9 [s.coll.digest.toNat] s) u).tx := by
    induction l generalizing u with
    | nil => cases hl
    | cons a l ih =>
      have hsend := sends_sendWords a 9 [u.coll.digest.toNat] u
      rcases List.mem_cons.mp hl with rfl | hmore
      · have hmem := sendWords_mem k 9 [u.coll.digest.toNat] u
        rw [← hu.digest]
        exact (sends_fold _ (fun s d => sends_sendWords d _ _ s) l _).tx.subset hmem
      · exact ih _ (hu.trans hsend.sameStep) hmore
  exact hfold s.others s (SameStep.refl s) hk

/-- Every digest is in at the commit root (R271). -/
def State.digestsIn (s : State) : Bool :=
  s.rank = 0 && s.coll.digestSent && decide (s.coll.members.length ≤ s.coll.digests.length + 1)

theorem releaseAll_eq (s : State) : releaseAll s =
    if s.digestsIn then { tellReleased s with coll := { (tellReleased s).coll with released := true } } else s := rfl

/-- Of the collectives' state, a release marks that step work is allowed. -/
theorem releaseAll_coll (s : State) : (releaseAll s).coll = { s.coll with released := (releaseAll s).coll.released } := by
  rw [releaseAll_eq]
  split
  · dsimp only
    rw [(tellReleased_sends s).only.coll]
  · rfl

theorem releaseAll_only (s : State) : FabricOnly { s with coll := (releaseAll s).coll } (releaseAll s) := by
  rw [releaseAll_eq]
  split
  · obtain ⟨hsame, hcounters⟩ := (tellReleased_sends s).only
    have hcoll := congrArg (fun u : State => { u with coll := { (tellReleased s).coll with released := true } }) hsame
    exact ⟨hcoll, hcounters⟩
  · exact FabricOnly.refl s

theorem releaseAll_released {s : State} (h : s.digestsIn = true) : (releaseAll s).coll.released = true
    ∧ ∀ k ∈ s.others, Tx.vl0 k 9 [s.coll.digest.toNat] ∈ (releaseAll s).tx := by
  rw [releaseAll_eq, if_pos h]
  exact ⟨rfl, fun k hk => tellReleased_mem hk⟩

section
variable {sender : Nat} {d : W64} {s : State} (hlive : s.job.st.live = true)
include hlive

theorem digestState_of_other (hr : s.rank = 0) (hd : d ≠ s.coll.digest) : digestState sender d s
    = halt DESCRIPTOR_INVALID (sendMembers kHALT (s.msg DESCRIPTOR_INVALID s.devId false) s) := by
  unfold digestState
  rw [if_neg (by simp [hlive]), if_pos hr, if_pos (by simp [hd])]

theorem digestState_of_same (hr : s.rank = 0) (hd : d = s.coll.digest) :
    digestState sender d s = releaseAll (digestIn sender d s) := by
  unfold digestState
  rw [if_neg (by simp [hlive]), if_pos hr, if_neg (by simp [hd])]
  rfl

theorem digestState_of_reply (hr : s.rank ≠ 0) (hs : sender = s.commitRoot) (hsent : s.coll.digestSent = true) :
    digestState sender d s = { s with coll := { s.coll with released := true } } := by
  unfold digestState
  rw [if_neg (by simp [hlive]), if_neg hr, if_pos hs, if_pos hsent]

theorem digestState_of_passing (hr : s.rank ≠ 0) (hs : sender ≠ s.commitRoot) :
    digestState sender d s = sendWords s.parentDev 8 [sender, d.toNat] s := by
  unfold digestState
  rw [if_neg (by simp [hlive]), if_neg hr, if_neg hs]

/-- A digest that differs halts the job. -/
theorem digestState_halts (hr : s.rank = 0) (hd : d ≠ s.coll.digest) (hnow : HaltsNow s) :
    Halted DESCRIPTOR_INVALID s (digestState sender d s) := by
  have hsend := sendMembers_sends kHALT (s.msg DESCRIPTOR_INVALID s.devId false) s
  rw [digestState_of_other hlive hr hd]
  have hstill : HaltsNow (sendMembers kHALT (s.msg DESCRIPTOR_INVALID s.devId false) s) := by
    unfold HaltsNow
    rw [hsend.sameStep.job, hsend.sameStep.bnd]
    exact hnow
  exact (halt_halted hstill).after hsend.works.clears

/-- A digest that agrees is noted, and the last one releases the step work. -/
theorem digestState_notes (hr : s.rank = 0) (hd : d = s.coll.digest) :
    (digestState sender d s).coll.digests = (sender, d) :: s.coll.digests.filter (fun x => x.1 != sender)
    ∧ (s.coll.digestSent = true → s.coll.members.length ≤ (digestState sender d s).coll.digests.length + 1 →
        (digestState sender d s).coll.released = true
          ∧ ∀ k ∈ s.others, Tx.vl0 k 9 [s.coll.digest.toNat] ∈ (digestState sender d s).tx)
    ∧ FabricOnly { s with coll := (digestState sender d s).coll } (digestState sender d s) := by
  have hdigests : (releaseAll (digestIn sender d s)).coll.digests
      = (sender, d) :: s.coll.digests.filter (fun x => x.1 != sender) := by
    rw [releaseAll_coll]; rfl
  rw [digestState_of_same hlive hr hd, hdigests]
  refine ⟨rfl, fun hsent hcount => ?_, releaseAll_only (digestIn sender d s)⟩
  have hrank : (digestIn sender d s).rank = 0 := hr
  have hin : (digestIn sender d s).digestsIn = true := by
    unfold State.digestsIn
    rw [hrank]
    simp only [decide_true, Bool.true_and, Bool.and_eq_true, decide_eq_true_eq]
    exact ⟨hsent, hcount⟩
  exact releaseAll_released hin

end

theorem silenceAndDigests : Claims.SilenceAndDigests := by
  intro s
  refine ⟨fun w partner item detail hcan hwait => ?_, fun w partner item detail hwait => ?_,
    fun partner item detail horder hwait => ?_, fun hin hprep hfew => ?_, fun hin hprep hmany => ?_, fun sender d hlive => ?_⟩
  · have hrestart := abortOwn_restarts_logged (cause := STEP_REPEAT_LATE) (extra := [PARTNER_SILENT]) (w := Where.plain)
      (s := silent s.job.stepStart s) hcan PARTNER_SILENT 8 0xFF 0 0xFFFF [partner, waitCode w, item, detail, s.job.attempt]
    exact ⟨_, congrArg Host.Outcome.next (partnerSilent_of_step hcan.1 hwait), hrestart.repeats, hrestart.stops.localUs⟩
  · exact congrArg Host.Outcome.next (partnerSilent_of_none hwait)
  · have hlog := logPlain_clears PARTNER_SILENT [partner, 1, item, detail, s.job.attempt] (silent s.bnd.orderStart s)
    have hjob : (logPlain PARTNER_SILENT [partner, 1, item, detail, s.job.attempt] (silent s.bnd.orderStart s)).job.bare
        = s.job.bare := (congrArg State.job hlog.same :)
    exact ⟨_, congrArg Host.Outcome.next (partnerSilent_of_gather horder hwait), (congrArg Job.st hjob :),
      (congrArg Job.attempt hjob :), hlog.stops.localUs, logPlain_coll _ _ (silent s.bnd.orderStart s)⟩
  · have hstate := outcomeSilence_of_prepared hin hprep
    have hclears := outcomeMissed_clears s
    have hjob : (outcomeMissed s).job.bare = s.job.bare := (congrArg State.job hclears.same :)
    have hroot : (outcomeMissed s).commitRoot = s.commitRoot := by
      simp only [State.commitRoot, State.member, outcomeMissed_coll]
    have hcount : ¬ 4 ≤ (outcomeMissed s).coll.silences := by
      rw [outcomeMissed_coll]
      exact fun e => absurd (Nat.le_of_succ_le_succ e) (by omega)
    rw [if_neg hcount, outcomeMissed_msg, hroot] at hstate
    have hsend := sendCommit_sends s.commitRoot kQUERY (s.msg 0 s.devId false) (outcomeMissed s)
    refine ⟨_, congrArg Host.Outcome.next hstate, ?_, ?_, sendCommit_mem _ _ _ _, ?_, ?_, ?_⟩
    · rw [hsend.only.coll, outcomeMissed_coll]
    · rw [hsend.sameStep.localUs]; exact hclears.stops.localUs
    · rw [hsend.sameStep.job]; exact (congrArg Job.st hjob :)
    · rw [hsend.sameStep.job]; exact (congrArg Job.attempt hjob :)
    · rw [hsend.only.mm, outcomeMissed_mm]
  · have hstate := outcomeSilence_of_prepared hin hprep
    have hclears := outcomeMissed_clears s
    have hjob : (outcomeMissed s).job.bare = s.job.bare := (congrArg State.job hclears.same :)
    have hst : (outcomeMissed s).job.st = s.job.st := (congrArg Job.st hjob :)
    have hcount : 4 ≤ (outcomeMissed s).coll.silences := by
      rw [outcomeMissed_coll]
      exact Nat.succ_le_succ hmany
    have hnow : HaltsNow (outcomeMissed s) :=
      ⟨.inl (by rw [hst]; exact inStep_live hin), .inl (hclears.stops.bnd ▸ inStep_order hin)⟩
    rw [if_pos hcount] at hstate
    exact ⟨_, congrArg Host.Outcome.next hstate, (halt_halted hnow).congr (congrArg Job.committed hjob :)
      (congrArg Recipe.loaded hclears.stops.recipe :) hclears.stops.regs hclears.stops.sec⟩
  · exact ⟨fun hr hd hnow => ⟨_, rfl, digestState_halts hlive hr hd hnow⟩,
      fun hr hd => ⟨_, rfl, digestState_notes hlive hr hd⟩,
      fun hr hs hsent => ⟨_, congrArg Host.Outcome.next (digestState_of_reply hlive hr hs hsent), rfl⟩,
      fun hr hs => ⟨_, congrArg Host.Outcome.next (digestState_of_passing hlive hr hs), (sends_sendWords _ _ _ s).only,
        sendWords_mem _ _ _ s⟩⟩

/-- Settles O58: an abort discards the attempt or halts the job, the commit root answers and aborts for all, silence ends the
attempt or the job, and digests halt or release it. -/
theorem abortsQueriesAndSilence : Obligations.AbortsQueriesAndSilence :=
  ⟨attemptsAreAborted, queriesAndHalts, silenceAndDigests⟩

end Sys2Proof.Machine
end
section
/-! ABORT_STEP (R30, R266, R436): the attempt is given up, the commit root is asked, or the command is ignored. -/

namespace Sys2Proof.Machine

/-- The messages an effect has sent stand when its request has been answered. -/
theorem finishRequest_tx (h : EdpHdr) (b : EdpBody) (r : Served) : r.2.1.tx <+: (finishRequest h b r).tx := by
  have hack (s : State) : s.tx <+: (sendAck h r.1 s).tx := by
    unfold sendAck
    split
    · exact (sends_injectPacket _ s).tx.trans (List.prefix_append _ _)
    · exact List.prefix_append _ _
  have hcache := hack (cacheAck h b r.1 r.2.1)
  rw [cacheAck_tx] at hcache
  unfold finishRequest
  rw [returnPages_tx, lastSeq_tx, closes_tx]
  exact hcache

/-- The messages a job command has sent stand when it has been acknowledged. -/
theorem jobCommand_tx {h : EdpHdr} {x : Session} {s : State} {v : Nat} (hv : 1 ≤ v ∧ v ≤ 7) (f : State → Nat × State)
    (w : SendsCode h 0x5001 1 v x s) : (f (atRequest h x s)).2.tx <+: (codeCommand h 0x5001 1 v f s).tx := by
  obtain ⟨hvalue, hrule⟩ := jobCode_ok hv s
  rw [codeCommand_ok w f (writeClass_of_wo (e := woE tU8) rfl rfl w.right (by decide)) hvalue hrule]
  exact finishRequest_tx h (.write 0x5001 1 tU8 (leBytes 1 v)) (_, (f (atRequest h x s)).2, [])

theorem Leaves.groups {h : EdpHdr} {u t : State} (hl : Leaves h u t) : t.groups = u.groups := by
  obtain ⟨⟨hbody, _⟩, _⟩ := hl
  have hgroups := congrArg State.groups hbody
  exact hgroups

section
variable {s : State} (hstep : s.job.st.stepping = true)
include hstep

theorem abortStepCommand_of_open (hin : s.inStep = true) (hprep : s.coll.prepSent = false) :
    abortStepCommand s = (OK, abortOwn OK [] s) := by
  unfold abortStepCommand
  rw [if_neg (by simp [hstep]), if_neg (by simp [hin]), if_neg (by simp [hprep])]

theorem abortStepCommand_of_prepared (hin : s.inStep = true) (hprep : s.coll.prepSent = true) :
    abortStepCommand s = (OK, { sendCommit s.commitRoot kABORT_REQ (s.msg OK s.devId false) s with
      job := { s.job with abortAsked := true } }) := by
  have habort : abortOwn OK [] s = sendCommit s.commitRoot kABORT_REQ (s.msg OK s.devId false) s :=
    abortOwn_of_prepared hin hprep
  have hjob := (sendCommit_sends s.commitRoot kABORT_REQ (s.msg OK s.devId false) s).only.job
  unfold abortStepCommand
  rw [if_neg (by simp [hstep]), if_neg (by simp [hin]), if_pos hprep, habort, hjob]

theorem abortStepCommand_of_committed (hin : s.inStep = false) :
    abortStepCommand s = (OK, logPlain 0 ([8, s.job.attempt] ++ w64 s.job.committed) s) := by
  have horder : s.bnd.order ≠ 0 := fun e => by simp [State.inStep, hstep, e] at hin
  unfold abortStepCommand abortIgnored
  rw [if_neg (by simp [hstep]), if_pos (by simp [hin]), if_neg horder]

end

/-- A request sent with the ABORT_STEP changes the job and the fabric alone. -/
theorem abortRequest_only (s : State) : FabricOnly { s with job := { s.job with abortAsked := true } }
    { sendCommit s.commitRoot kABORT_REQ (s.msg OK s.devId false) s with job := { s.job with abortAsked := true } } := by
  obtain ⟨hsame, hcounters⟩ := (sendCommit_sends s.commitRoot kABORT_REQ (s.msg OK s.devId false) s).only
  have hjob := congrArg (fun u : State => { u with job := { s.job with abortAsked := true } }) hsame
  exact ⟨hjob, hcounters⟩

/-- Settles O13: before PREPARE the attempt is given up, with PREPARE sent ABORT_REQ goes to the commit root, and after the
commit a record says that the command is ignored. -/
theorem abortStepRepeats : Obligations.AbortStepRepeats := by
  intro h x s w hstep
  refine ⟨fun hcan => ?_, fun hin hprep => ?_, fun hin => ?_⟩
  · have hrestart := abortOwn_restarts (cause := OK) (extra := []) (w := Where.plain) (s := atRequest h x s) hcan
    obtain ⟨hack, hleaves⟩ := jobCommand_post (v := 6) (by omega) abortStepCommand w
      (abortStepCommand_of_open (s := atRequest h x s) hstep hcan.1 hcan.2.1)
    obtain ⟨_, hjob, _, _, _, hrecipe, hregs⟩ := hleaves.fields
    obtain ⟨h1, h2, h3, h4, h5, h6⟩ := hrestart.repeats
    refine ⟨_, rfl, hack, ⟨?_, ?_, ?_, ?_, ?_, hleaves.groups.trans h6⟩, hregs.trans hrestart.stops.regs,
      hrecipe.trans hrestart.stops.recipe⟩ <;> rw [hjob]
    · exact h1
    · exact h2
    · exact h3
    · exact h4
    · exact h5
  · have hcommand := abortStepCommand_of_prepared (s := atRequest h x s) hstep hin hprep
    obtain ⟨hack, hleaves⟩ := jobCommand_post (v := 6) (by omega) abortStepCommand w hcommand
    have htx := jobCommand_tx (v := 6) (by omega) abortStepCommand w
    rw [hcommand] at htx
    exact ⟨_, rfl, hack, htx.subset (sendCommit_mem s.commitRoot kABORT_REQ (s.msg OK s.devId false) (atRequest h x s)),
      (abortRequest_only (atRequest h x s)).body.trans hleaves.1⟩
  · obtain ⟨hack, hleaves⟩ := jobCommand_post (v := 6) (by omega) abortStepCommand w
      (abortStepCommand_of_committed (s := atRequest h x s) hstep hin)
    obtain ⟨_, hjob, _, _, hlog, _, _⟩ := hleaves.fields
    have hclears := logPlain_clears 0 ([8, s.job.attempt] ++ w64 s.job.committed) (atRequest h x s)
    have hst := logAdd_job_st 0 8 0xFF 0 0xFFFF ([8, s.job.attempt] ++ w64 s.job.committed) (atRequest h x s)
    have hlogged := logPlain_logged 0 ([8, s.job.attempt] ++ w64 s.job.committed) (atRequest h x s)
    refine ⟨_, rfl, hack, ?_, ?_, hlogged.congr rfl hlog⟩ <;> rw [hjob]
    · exact hst
    · exact hclears.step.2.1

end Sys2Proof.Machine
end
section
/-! What any cause of this device leaves alone, whether it ends the attempt, halts the job, asks the commit root or comes too
late. -/

namespace Sys2Proof.Machine

/-- Of the attempt, the boundary and the job only the last committed step is looked at; nothing but work, logs, events, the
boundary and the job, with the device state that follows it, may differ. -/
structure Ended (s t : State) : Prop where
  same : { t.besideRestart with bnd := Boundary.reset } = { s.besideRestart with bnd := Boundary.reset }
  committed : t.job.committed = s.job.committed
  onward : Onward s t

theorem Ended.refl (s : State) : Ended s s := ⟨rfl, rfl, Onward.refl s⟩

theorem Ended.trans {s t u : State} (h : Ended s t) (k : Ended t u) : Ended s u :=
  ⟨k.same.trans h.same, k.committed.trans h.committed, h.onward.trans k.onward⟩

theorem Stops.ended {s t : State} (h : Stops s t) (hc : t.job.committed = s.job.committed) : Ended s t :=
  ⟨congrArg (fun u : State => { u with bnd := Boundary.reset }) h.same, hc, h.onward⟩

theorem Clears.ended {s t : State} (h : Clears s t) : Ended s t := by
  have hjob : t.job.bare = s.job.bare := (congrArg State.job h.same :)
  exact h.stops.ended (congrArg Job.committed hjob :)

section
variable {s t : State} (h : Ended s t)
include h

theorem Ended.regs : t.regs = s.regs := (congrArg State.regs h.same :)
theorem Ended.sec : t.sec = s.sec := (congrArg State.sec h.same :)
theorem Ended.recipe : t.recipe = s.recipe := (congrArg State.recipe h.same :)
theorem Ended.eff : t.eff = s.eff := (congrArg State.eff h.same :)
theorem Ended.localUs : t.localUs = s.localUs := (congrArg State.localUs h.same :)
theorem Ended.results : t.results = s.results := (congrArg State.results h.same :)
theorem Ended.dev : t.dev = { s.dev with st := t.dev.st } := by
  have hdev : ({ t.dev with st := .off } : Dev) = { s.dev with st := .off } := (congrArg State.dev h.same :)
  have hst := congrArg (fun d : Dev => { d with st := t.dev.st }) hdev
  exact hst

end

theorem haltNow_ended (code : Nat) (s : State) : Ended s (haltNow code s) := by
  by_cases h : s.job.st.live = true ∨ s.job.st = .loaded
  · have hstops := haltNow_stops (code := code) h
    have hsame := congrArg (fun u : State => { u with bnd := Boundary.reset }) hstops.same
    obtain ⟨_, _, _, _, _, hcommitted, _⟩ := haltNow_halted (code := code) h
    exact ⟨hsame, hcommitted, hstops.onward.tx, hstops.onward.lanes, hstops.onward.counter⟩
  · obtain ⟨hlive, hloaded⟩ := not_or.mp h
    have hstay : haltNow code s = s := by
      unfold haltNow
      rw [if_pos (by simp [hlive, hloaded])]
    rw [hstay]
    exact Ended.refl s

theorem halt_ended (code : Nat) (s : State) : Ended s (halt code s) := by
  unfold halt
  split
  · exact haltNow_ended code s
  · split
    · exact Ended.refl s
    · exact (stops_job { s.job with haltPend := some code } s).ended rfl

theorem endAttempt_ended (cause origin : Nat) (extra : List Nat) (w : Where) (s : State) :
    Ended s (endAttempt cause origin extra w s) := by
  have hjob := endAttempt_job cause origin extra w s
  have hstops := endAttempt_stops cause origin extra w s
  generalize endAttempt cause origin extra w s = u at hjob hstops ⊢
  have hcommitted := congrArg Job.committed hjob
  exact hstops.ended hcommitted

theorem discardAttempt_ended (cause origin : Nat) (extra : List Nat) (s : State) (w : Where) :
    Ended s (discardAttempt cause origin extra s w) := by
  unfold discardAttempt
  split
  · have hend := endAttempt_ended cause origin extra w s
    generalize endAttempt cause origin extra w s = u at hend ⊢
    dsimp only
    split
    · exact hend.trans ((logPlain_clears _ _ u).ended.trans (haltNow_ended _ _))
    · have hcommitted : (startAttempt (setJob .repeating 0 u)).job.committed = u.job.committed := by
        rw [startAttempt_job, setJob_job_eq]
      exact hend.trans (((setJob_stops _ _ u).trans (startAttempt_stops _)).ended hcommitted)
  · exact Ended.refl s

theorem abortOwn_ended (cause : Nat) (extra : List Nat) (s : State) (w : Where) : Ended s (abortOwn cause extra s w) := by
  unfold abortOwn
  split
  · exact Ended.refl s
  · split
    · dsimp only
      split
      · exact (sendCommit_sends _ _ _ s).works.clears.ended
      · exact (logAdd_clears _ _ _ _ _ _ s).ended.trans (sendCommit_sends _ _ _ _).works.clears.ended
    · exact (sendMembers_sends _ _ s).works.clears.ended.trans (discardAttempt_ended _ _ _ _ _)

end Sys2Proof.Machine
end
section
/-! A port that goes down, and its retries (R299 to R301). -/

namespace Sys2Proof.Machine

/-! ## Going down -/

/-- A port without its lanes: what its neighbour is stands, and a hush this device sends goes on. -/
def downPort (x : Port) : Port :=
  { Port.reset with state := 1, peerDev := x.peerDev, peerPort := x.peerPort, hushing := x.hushing }

/-- The port is down, and logged while a job is live. -/
def portLogged (p : Nat) (s : State) : State :=
  if s.job.st.live then logAdd 0x0502 5 (p / 12) p 0xFFFF [p, 0, (s.port p).peerDev] (setPort p (downPort (s.port p)) s)
  else setPort p (downPort (s.port p)) s

/-- What is lost with a port: announced, and what it held goes another way. -/
def portLost (p : Nat) (s : State) : State :=
  reroute ((((s.port p).unacked.filter fun u => u.2.2.p.vl = 0).map (·.2.2)) ++ (s.port p).queue)
    (announceOne p false (portLogged p s))

/-- The port held bulk flits its peer had not acknowledged. -/
def Port.losesBulk (x : Port) : Bool := x.unacked.any fun u => u.2.2.p.vl != 0

theorem portDownState_eq {p : Nat} {s : State}
    (h : (s.port p).state = 2 ∨ (s.port p).state = 3 ∨ (s.port p).state = 4 ∨ (s.port p).state = 5) :
    portDownState p s = settleFabric (if (s.port p).losesBulk then abortOwn STEP_REPEAT_FAULT [0x0502] (portLost p s)
      else portLost p s) := by
  have hopen : ¬ ((!((s.port p).usable || (s.port p).state = 2 || (s.port p).state = 5)) = true) := by
    rcases h with e | e | e | e <;> simp [Port.usable, e]
  unfold portDownState
  rw [if_neg hopen]
  rfl

theorem reroute_sends (l : List Waiting) (s : State) : Sends s (reroute l s) := by
  unfold reroute
  exact sends_fold _ (fun s w => sends_routePacket w.hold w.orig s) l s

section
variable (p : Nat) (s : State)

theorem portLogged_clears : Clears (setPort p (downPort (s.port p)) s) (portLogged p s) := by
  unfold portLogged
  split
  · exact logAdd_clears _ _ _ _ _ _ _
  · exact Clears.refl _

theorem portLost_sends : Sends (portLogged p s) (portLost p s) :=
  (sends_announceOne p false _).trans (reroute_sends _ _)

theorem portLost_clears : Clears (setPort p (downPort (s.port p)) s) (portLost p s) :=
  (portLogged_clears p s).trans (portLost_sends p s).works.clears

theorem portLogged_same : (portLogged p s).coll = s.coll ∧ (portLogged p s).devId = s.devId := by
  unfold portLogged
  split
  · rw [logAdd_coll, logAdd_devId]; exact ⟨rfl, rfl⟩
  · exact ⟨rfl, rfl⟩

/-- A device that can give its attempt up still can when a port is lost. -/
theorem portLost_canRepeat {p : Nat} {s : State} (h : CanRepeat s) : CanRepeat (portLost p s) ∧ (portLost p s).devId = s.devId := by
  obtain ⟨hin, hprep, hlim⟩ := h
  obtain ⟨hstep, hattempt, heff⟩ := (portLost_clears p s).step
  obtain ⟨hcoll, hdev⟩ := portLogged_same p s
  have hsends := portLost_sends p s
  refine ⟨⟨hstep.trans hin, ?_, by rw [hattempt, heff]; exact hlim⟩, hsends.sameStep.devId.trans hdev⟩
  rw [hsends.only.coll, hcoll]; exact hprep

end

/-- The end of a rebuilding or of a wake leaves the job, the registers and the recipe. -/
theorem settleFabric_frame (s : State) : (settleFabric s).job = s.job ∧ (settleFabric s).regs = s.regs
    ∧ (settleFabric s).sec = s.sec ∧ (settleFabric s).recipe = s.recipe ∧ (settleFabric s).groups = s.groups := by
  have hfab : (rebuilt s).job = s.job ∧ (rebuilt s).regs = s.regs ∧ (rebuilt s).sec = s.sec
      ∧ (rebuilt s).recipe = s.recipe ∧ (rebuilt s).groups = s.groups := by
    rw [(rebuilt_only s).1]
    exact ⟨rfl, rfl, rfl, rfl, rfl⟩
  rw [settleFabric_eq]
  split
  · exact ⟨rfl, rfl, rfl, rfl, rfl⟩
  · split
    · rw [setDev_job, setDev_regs, setDev_sec, setDev_recipe, setDev_groups]; exact hfab
    · exact hfab

theorem settleFabric_lanes (s : State) (p : Nat) :
    ((settleFabric s).port p).state = (s.port p).state ∧ ((settleFabric s).port p).lanes = (s.port p).lanes := by
  rw [settleFabric_port]
  exact ⟨rfl, rfl⟩

theorem Port.losesBulk_iff (x : Port) : x.losesBulk = true ↔ ∃ u ∈ x.unacked, u.2.2.p.vl ≠ 0 := by
  simp [Port.losesBulk]

/-- What the loss of a port does before the fabric is settled. -/
def lostThenAborted (p : Nat) (s : State) : State :=
  if (s.port p).losesBulk then abortOwn STEP_REPEAT_FAULT [0x0502] (portLost p s) else portLost p s

theorem lostThenAborted_ended (p : Nat) (s : State) :
    Ended (setPort p (downPort (s.port p)) s) (lostThenAborted p s) := by
  have hlost := (portLost_clears p s).ended
  unfold lostThenAborted
  split
  · exact hlost.trans (abortOwn_ended _ _ _ _)
  · exact hlost

/-- Bulk that is lost gives the attempt up (R300). -/
theorem lostThenAborted_repeats {p : Nat} {s : State} (hbulk : (s.port p).losesBulk = true) (h : CanRepeat s) :
    RepeatsFrom STEP_REPEAT_FAULT s.devId s (lostThenAborted p s) := by
  obtain ⟨hcan, hdev⟩ := portLost_canRepeat (p := p) h
  have hrestart := abortOwn_restarts (cause := STEP_REPEAT_FAULT) (extra := [0x0502]) (w := Where.plain) hcan
  have hjob : (portLost p s).job.bare = s.job.bare := (congrArg State.job (portLost_clears p s).same :)
  rw [hdev] at hrestart
  unfold lostThenAborted
  rw [if_pos hbulk]
  exact hrestart.repeats.congr hjob

/-- Without bulk the attempt goes on. -/
theorem lostThenAborted_goesOn {p : Nat} {s : State} (hbulk : (s.port p).losesBulk = false) :
    (lostThenAborted p s).job.attempt = s.job.attempt ∧ (lostThenAborted p s).job.st = s.job.st := by
  have hjob : (portLost p s).job.bare = s.job.bare := (congrArg State.job (portLost_clears p s).same :)
  have hfull := Job.eq_of_bare hjob
  unfold lostThenAborted
  rw [if_neg (by simp [hbulk]), hfull]
  exact ⟨rfl, rfl⟩

theorem portDownLosesBulk : Claims.PortDownLosesBulk := by
  intro p s h
  have hstate : portDownState p s = settleFabric (lostThenAborted p s) := portDownState_eq h
  have hended := lostThenAborted_ended p s
  obtain ⟨hst, hlanes⟩ := hended.onward.lanes p
  obtain ⟨hst', hlanes'⟩ := settleFabric_lanes (lostThenAborted p s) p
  obtain ⟨hjob, hregs, hsec, hrecipe, _⟩ := settleFabric_frame (lostThenAborted p s)
  rw [setPort_port_same] at hst hlanes
  refine ⟨_, congrArg Host.Outcome.next hstate, hst'.trans hst, hlanes'.trans hlanes, fun hvl => ?_, fun hvl hin hprep hlim => ?_,
    hregs.trans hended.regs, hsec.trans hended.sec, ?_, hrecipe.trans hended.recipe⟩
  · have hbulk : (s.port p).losesBulk = false := by
      rw [Bool.eq_false_iff, Ne, Port.losesBulk_iff]
      rintro ⟨u, hu, hne⟩
      exact hne (hvl u hu)
    rw [hjob]
    exact lostThenAborted_goesOn hbulk
  · obtain ⟨hattempt, hrep, hcauses, _⟩ := lostThenAborted_repeats ((Port.losesBulk_iff _).mpr hvl) ⟨hin, hprep, hlim⟩
    rw [hjob]
    exact ⟨hattempt, hrep, hcauses⟩
  · rw [hjob]
    exact hended.committed

theorem downRetryState_of_down {p : Nat} {s : State} (h : (s.port p).state = 1) :
    downRetryState p true s = announce p true (setPort p { s.port p with state := 4, lanes := 1 } s) := by
  unfold downRetryState
  rw [if_pos (by simp [h])]

theorem downPortRetries : Claims.DownPortRetries := by
  intro p ok s
  refine ⟨fun h hok => ?_, fun h => ?_⟩
  · subst hok
    have hsends := sends_announce p true (setPort p { s.port p with state := 4, lanes := 1 } s)
    refine ⟨_, congrArg Host.Outcome.next (downRetryState_of_down h), (fabricOnly_setPort _ _ _).trans hsends.only, ?_, ?_⟩ <;>
      rw [hsends.port p, setPort_port_same]
  · have hstay : downRetryState p ok s = s := by
      unfold downRetryState
      rw [if_neg (by rcases h with e | e <;> simp [e])]
    exact congrArg Host.Outcome.next hstay

/-- Settles O17: a port whose retrain fails is down and only lost bulk costs the attempt; a retry brings it back degraded. -/
theorem portDownAndRetry : Obligations.PortDownAndRetry := ⟨portDownLosesBulk, downPortRetries⟩

end Sys2Proof.Machine
end
section
/-! What main power going down leaves (R351, R365, R370, R388), and the alert (R400). -/

namespace Sys2Proof.Machine

/-! ## Entry to STANDBY -/

theorem tget_filter {α : Type} (d : α) (f : Nat → Bool) (l : List (Nat × α)) (k : Nat) :
    tget d (l.filter fun c => f c.1) k = if f k then tget d l k else d := by
  induction l with
  | nil => simp [tget]
  | cons x l ih =>
    obtain ⟨i, v⟩ := x
    by_cases hi : f i = true
    · rw [List.filter_cons_of_pos (by simpa using hi), tget, tget, ih]
      by_cases hik : i = k
      · subst hik; simp [hi]
      · simp [hik]
    · rw [List.filter_cons_of_neg (by simpa using hi), ih, tget]
      by_cases hik : i = k
      · subst hik; simp [hi]
      · simp [hik]

section
variable (s : State)

/-- STANDBY with the rails down and the job idle, before its values go back to their start. -/
def downAndIdle : State := setJob .idle 0 (setDev .standby (railsDown s))

/-- Everything that goes back to its start when the device goes down (R351, R365, R370). -/
def atStart (u : State) : State :=
  { u with
    job := Job.reset, recipe := Recipe.reset, bnd := Boundary.reset, eval := Eval.reset, ingest := Ingest.reset
    results := [], history := [], record := List.replicate 256 0
    edp := { u.edp with sessions := [], subs := [], holds := [] }
    regs := { u.regs with resumeStep := 0 }
    eff := { u.regs with resumeStep := 0 }
    counters := u.counters.filter fun c => persistentCounter c.1
    dev := { u.dev with test := SelfTest.idle, stage := min u.dev.stage 1 } }

theorem enterStandby_eq : enterStandby s = atStart (downAndIdle s) := by
  unfold enterStandby dropJob downAndIdle
  generalize setJob .idle 0 (setDev .standby (railsDown s)) = u
  rfl

/-- An idle job leaves the state of a device that is not ACTIVE. -/
theorem followJob_idle {s : State} (o : JobState) (h : s.dev.st ≠ .active) : followJob o .idle s = s := by
  have hidle : JobState.idle.live = false := rfl
  unfold followJob
  simp [hidle, h]

theorem setJob_idle_dev_of_rest {s : State} (c : Nat) (h : s.dev.st ≠ .active) : (setJob .idle c s).dev = s.dev := by
  unfold setJob
  split
  · rfl
  · dsimp only
    rw [followJob_idle _ (by rw [raiseEvent_dev]; exact h), raiseEvent_dev]
    rfl

theorem downAndIdle_dev : (downAndIdle s).dev = { (railsDown s).dev with st := .standby } := by
  have hdev := setDev_dev .standby (railsDown s)
  have hrest : (setDev .standby (railsDown s)).dev.st ≠ .active := by rw [hdev]; exact DevState.noConfusion
  exact (setJob_idle_dev_of_rest 0 hrest).trans hdev

theorem enterStandby_dev : (enterStandby s).dev
    = { (railsDown s).dev with st := .standby, test := SelfTest.idle, stage := min s.dev.stage 1 } := by
  have hdev := downAndIdle_dev s
  have hstandby : (enterStandby s).dev
      = { (downAndIdle s).dev with test := SelfTest.idle, stage := min (downAndIdle s).dev.stage 1 } := by
    rw [enterStandby_eq]; rfl
  rw [hstandby, hdev]
  rfl

theorem enterStandby_pins : (enterStandby s).pins = { s.pins with pwrGood := false } := by
  have h : (downAndIdle s).pins = (railsDown s).pins := by rw [downAndIdle, setJob_pins, setDev_pins]
  rw [enterStandby_eq]
  exact h

theorem enterStandby_gov : (enterStandby s).gov = { s.gov with vcore := [0, 0, 0, 0], gating := false, electiveMw := 0 } := by
  have h : (downAndIdle s).gov = (railsDown s).gov := by rw [downAndIdle, setJob_gov, setDev_gov]
  rw [enterStandby_eq]
  exact h

theorem enterStandby_log : (enterStandby s).log = s.log := by
  have h : (downAndIdle s).log = (railsDown s).log := by rw [downAndIdle, setJob_log, setDev_log]
  rw [enterStandby_eq]
  exact h

theorem enterStandby_regs : (enterStandby s).regs = { s.regs with resumeStep := 0 } := by
  have hregs : (downAndIdle s).regs = s.regs := by
    rw [downAndIdle, setJob_regs, setDev_regs]
    rfl
  rw [enterStandby_eq]
  exact congrArg (fun r : Regs => { r with resumeStep := 0 }) hregs

theorem enterStandby_sec : (enterStandby s).sec = s.sec := by
  have h : (downAndIdle s).sec = (railsDown s).sec := by rw [downAndIdle, setJob_sec, setDev_sec]
  rw [enterStandby_eq]
  exact h

theorem enterStandby_cores : (enterStandby s).cores = [] := by
  have h : (downAndIdle s).cores = (railsDown s).cores := by rw [downAndIdle, setJob_cores, setDev_cores]
  rw [enterStandby_eq]
  exact h

theorem enterStandby_mm : (enterStandby s).mm = { MemSt.reset with retired := s.mm.retired, interleave := s.mm.interleave } := by
  have h : (downAndIdle s).mm = (railsDown s).mm := by rw [downAndIdle, setJob_mm, setDev_mm]
  rw [enterStandby_eq]
  exact h

theorem enterStandby_edp : (enterStandby s).edp.sessions = [] ∧ (enterStandby s).edp.subs = []
    ∧ (enterStandby s).edp.holds = [] := by
  rw [enterStandby_eq]
  exact ⟨rfl, rfl, rfl⟩

/-- Only counters that persist keep their value (R365). -/
theorem enterStandby_counter (k : Nat) :
    tget 0 (enterStandby s).counters k = if persistentCounter k then tget 0 s.counters k else 0 := by
  have hdev : Tells s (setDev .standby (railsDown s)) := (setDev_tells .standby (railsDown s)).after rfl rfl
  have htells : Tells s (downAndIdle s) := by
    rw [downAndIdle]
    exact hdev.trans (setJob_tells _ _ _)
  have hfilter : (enterStandby s).counters
      = (downAndIdle s).counters.filter fun c => persistentCounter c.1 := by
    rw [enterStandby_eq]; rfl
  rw [hfilter, tget_filter]
  split
  · next hk =>
    exact htells.counter k fun e => by subst e; revert hk; decide
  · rfl

theorem enterStandby_down : PoweredDown s (enterStandby s) where
  device := by rw [enterStandby_dev]
  power := by rw [enterStandby_dev, enterStandby_pins, enterStandby_gov]; exact ⟨rfl, rfl, rfl⟩
  job := by rw [enterStandby_eq]; exact ⟨rfl, rfl, rfl⟩
  recipe := by rw [enterStandby_eq]; exact ⟨rfl, rfl, rfl⟩
  memory := by
    rw [enterStandby_mm, enterStandby_cores]
    exact ⟨rfl, rfl, rfl, rfl⟩
  sessions := enterStandby_edp s
  values := ⟨enterStandby_regs s, enterStandby_sec s⟩
  counters := enterStandby_counter s

/-! ## ALERT_N -/

/-- The alert changes its pin and its timer alone. -/
theorem refreshAlert_only : refreshAlert s = { s with
    pins := { s.pins with alert := (refreshAlert s).pins.alert }
    gov := { s.gov with alertClearAt := (refreshAlert s).gov.alertClearAt } } := by
  unfold refreshAlert
  split
  · rfl
  · split
    · rfl
    · rfl

variable {s}

/-- A cause asserts the alert and stops its release. -/
theorem refreshAlert_of_cause (h : alertCause s = true) : refreshAlert s
    = { s with pins := { s.pins with alert := true }, gov := { s.gov with alertClearAt := none } } := by
  unfold refreshAlert
  rw [if_pos h]

theorem refreshAlert_alert (h : alertCause s = true) : (refreshAlert s).pins.alert = true := by
  rw [refreshAlert_of_cause h]

end

end Sys2Proof.Machine
end
section
/-! The 50 V input (R384, Table 16.4, Table 17.1). -/

namespace Sys2Proof.Machine

section
variable {s : State} {mv : Nat}

/-- The input as measured. -/
def measured (mv : Nat) (bad : Bool) (s : State) : State := { s with gov := { s.gov with inputMv := mv, inputFault := bad } }

theorem inputVoltage_eq (hoff : s.dev.st ≠ .off) (hlow : 30000 ≤ mv) (hmax : mv ≤ 60000) :
    exec (.inputVoltageFault mv) s = .next (refreshAlert
      (if mv < 40000 ∨ 58000 < mv then forcedRelease (measured mv (decide (mv < 44000) || decide (58000 < mv)) s)
      else measured mv (decide (mv < 44000) || decide (58000 < mv)) s)) := by
  show execInputVoltageFault mv s = _
  unfold execInputVoltageFault inputVoltageState
  rw [if_neg (by omega), if_neg hoff, if_neg (by omega)]
  simp only [Bool.or_eq_true, decide_eq_true_eq]
  rfl

theorem inputLoss_below (hoff : s.dev.st ≠ .off) (hlow : mv < 30000) :
    exec (.inputVoltageFault mv) s = exec .inputLoss s := by
  show execInputVoltageFault mv s = execInputLoss s
  unfold execInputVoltageFault inputVoltageState execInputLoss
  rw [if_neg (by omega), if_neg hoff, if_pos hlow]

/-- Settles O38: the input's bounds, its loss and its absolute maximum, by the branches of the input's rule. -/
theorem inputVoltage : Obligations.InputVoltage := by
  intro s mv
  refine ⟨fun hoff hlo hhi => ?_, fun hoff hlo hhi => ?_, fun hoff => ?_, inputLoss_below, fun hmax => ?_⟩
  · have hstate := inputVoltage_eq hoff (by omega : 30000 ≤ mv) (by omega)
    rw [if_neg (by omega), refreshAlert_of_cause (by simp [alertCause, measured, hhi])] at hstate
    have hfault : (decide (mv < 44000) || decide (58000 < mv)) = true := by simp [hhi]
    rw [hfault] at hstate
    exact ⟨_, hstate, rfl, rfl⟩
  · have hstate := inputVoltage_eq hoff (by omega : 30000 ≤ mv) (by omega)
    have hgood : (decide (mv < 44000) || decide (58000 < mv)) = false := by simp; omega
    rw [if_neg (by omega), hgood, refreshAlert_only] at hstate
    exact ⟨_, hstate, rfl, rfl, rfl, rfl, rfl⟩
  · have hstate : exec .inputLoss s = .next (inputLossState s) := rfl
    have hpwr : (enterStandby s).pins.pwrEn = s.pins.pwrEn := by rw [enterStandby_pins]
    have hlog : (enterStandby s).log.fault = s.log.fault := by rw [enterStandby_log]
    have hregs := enterStandby_regs s
    have hsec := enterStandby_sec s
    have hmem : (enterStandby s).mm.mem = [] := by rw [enterStandby_mm]; rfl
    unfold inputLossState at hstate
    rw [if_neg hoff] at hstate
    generalize enterStandby s = u at hstate hlog hregs hsec hmem hpwr
    exact ⟨_, hstate, rfl, rfl, hpwr, rfl, rfl, hlog, hregs, hsec, hmem⟩
  · show execInputVoltageFault mv s = _
    unfold execInputVoltageFault
    rw [if_pos hmax]

end

end Sys2Proof.Machine
end
section
/-! The boot chain (R8, R387, R418 to R420, R450, R451). -/

namespace Sys2Proof.Machine

/-- The active bank verifies. -/
def State.activeVerifies (s : State) : Bool :=
  if s.dev.activeB then bankVerifies s s.dev.bankB s.pins.bankBOk else bankVerifies s s.dev.bankA s.pins.bankAOk

/-- The other bank verifies. -/
def State.otherVerifies (s : State) : Bool :=
  if s.dev.activeB then bankVerifies s s.dev.bankA s.pins.bankAOk else bankVerifies s s.dev.bankB s.pins.bankBOk

/-- The local count starts and RESET_N no longer acts. -/
def bootStarts (s : State) : State :=
  { s with localUs := 0, pins := { s.pins with resetAsserted := false }, edp := { s.edp with t1s := 1 } }

/-- No bank runs. -/
def bootFails (s : State) : State :=
  { s with dev := { s.dev with bootFailed := true, stage := 0, runningDigest := none, runningSvn := 0 } }

/-- A bank runs. -/
def bankRuns (b : Bool) (s : State) : State :=
  { s with dev := { s.dev with
      bootFailed := false, stage := 1, activeB := b
      runningSvn := bankSvn (if b then s.dev.bankB else s.dev.bankA)
      runningDigest := some (match if b then s.dev.bankB else s.dev.bankA with
        | some c => Config.sha384 (bytesOfWords c.header ++ c.signer)
        | none => Config.factoryImageDigest b) } }

/-- A PWR_EN that is high already is marked; the alert follows its causes. -/
def bootEnds (s : State) : State :=
  refreshAlert (if s.pins.pwrEn then { s with pins := { s.pins with earlyPwrEn := true } } else s)

section
variable {s : State}

theorem bootChain_of_active (h : s.activeVerifies = true) :
    bootChain s = bootEnds (bankRuns s.dev.activeB (bootStarts s)) := by
  unfold State.activeVerifies at h
  unfold bootChain
  simp only [h, Bool.not_true, Bool.false_and, Bool.false_eq_true, if_false, if_true]
  rfl

theorem bootChain_of_other (h : s.activeVerifies = false) (ho : s.otherVerifies = true) :
    bootChain s = bootEnds (logPlain SIGNATURE_BAD ([3, 3] ++ w64 (bankSvn (if !s.dev.activeB then s.dev.bankA else s.dev.bankB)))
      (bankRuns (!s.dev.activeB) (bootStarts s))) := by
  unfold State.activeVerifies at h
  unfold State.otherVerifies at ho
  unfold bootChain
  simp only [h, ho, Bool.not_true, Bool.not_false, Bool.and_false, Bool.false_eq_true, if_false]
  rfl

theorem bootChain_of_neither (h : s.activeVerifies = false) (ho : s.otherVerifies = false) :
    bootChain s = bootEnds (bootFails (bootStarts s)) := by
  unfold State.activeVerifies at h
  unfold State.otherVerifies at ho
  unfold bootChain
  simp only [h, ho, Bool.not_false, Bool.and_self, if_true]
  rfl

end

/-- What starting leaves, whichever bank runs. -/
structure Boots (s t : State) : Prop where
  st : t.dev.st = s.dev.st
  localUs : t.localUs = 0
  pins : t.pins = { s.pins with resetAsserted := false }
  values : t.regs = s.regs ∧ t.sec = s.sec ∧ t.mm = s.mm
  counter : ∀ j, j ≠ ck 0x1100 0x0A → tget 0 t.counters j = tget 0 s.counters j

/-- What the chain leaves, whichever bank runs. -/
structure Booted (s t : State) : Prop where
  st : t.dev.st = s.dev.st
  localUs : t.localUs = 0
  pins : t.pins.resetAsserted = false ∧ t.pins.stbyGood = s.pins.stbyGood ∧ t.pins.slotId = s.pins.slotId
  early : s.pins.pwrEn = true → t.pins.earlyPwrEn = true ∧ t.pins.alert = true
  failed : t.dev.bootFailed = true → t.pins.alert = true
  values : t.regs = s.regs ∧ t.sec = s.sec ∧ t.mm = s.mm
  counter : ∀ j, j ≠ ck 0x1100 0x0A → tget 0 t.counters j = tget 0 s.counters j

/-- The early PWR_EN as the chain finds it. -/
def markEarly (s : State) : State := if s.pins.pwrEn then { s with pins := { s.pins with earlyPwrEn := true } } else s

theorem markEarly_eq (s : State) :
    markEarly s = { s with pins := { s.pins with earlyPwrEn := s.pins.pwrEn || s.pins.earlyPwrEn } } := by
  unfold markEarly
  split
  · next h => rw [h]; rfl
  · next h => rw [Bool.not_eq_true] at h; rw [h]; rfl

section
variable {s t : State} (h : Boots s t)
include h

theorem Boots.ends : Booted s (bootEnds t) := by
  have hends : bootEnds t = refreshAlert (markEarly t) := rfl
  have honly := refreshAlert_only (markEarly t)
  have halert : alertCause (markEarly t) = true → (refreshAlert (markEarly t)).pins.alert = true := refreshAlert_alert
  rw [hends]
  rw [markEarly_eq] at honly halert ⊢
  obtain ⟨hst, hlocal, hpins, ⟨hregs, hsec, hmm⟩, hcounter⟩ := h
  generalize halertVal : refreshAlert { t with pins := { t.pins with earlyPwrEn := t.pins.pwrEn || t.pins.earlyPwrEn } } = u
    at honly halert ⊢
  constructor
  case st => rw [honly]; exact hst
  case localUs => rw [honly]; exact hlocal
  case pins => rw [honly]; simp [hpins]
  case early =>
    intro hp
    have hpt : t.pins.pwrEn = true := by rw [hpins]; exact hp
    refine ⟨by rw [honly]; simp [hpt], halert (by simp [alertCause, hpt])⟩
  case failed =>
    intro hf
    have hft : t.dev.bootFailed = true := by rw [honly] at hf; exact hf
    exact halert (by simp [alertCause, hft])
  case values => rw [honly]; exact ⟨hregs, hsec, hmm⟩
  case counter => rw [honly]; exact hcounter

end

theorem bootEnds_dev (s : State) : (bootEnds s).dev = s.dev := by
  have hends : bootEnds s = refreshAlert (markEarly s) := rfl
  rw [hends, refreshAlert_only, markEarly_eq]

theorem bankRuns_boots (b : Bool) (s : State) : Boots s (bankRuns b (bootStarts s)) :=
  ⟨rfl, rfl, rfl, ⟨rfl, rfl, rfl⟩, fun _ _ => rfl⟩

theorem bootFails_boots (s : State) : Boots s (bootFails (bootStarts s)) :=
  ⟨rfl, rfl, rfl, ⟨rfl, rfl, rfl⟩, fun _ _ => rfl⟩

theorem Boots.logged {s t : State} (h : Boots s t) (c : Nat) (d : List Nat) : Boots s (logPlain c d t) := by
  obtain ⟨hst, hlocal, hpins, ⟨hregs, hsec, hmm⟩, hcounter⟩ := h
  refine ⟨?_, ?_, ?_, ⟨?_, ?_, ?_⟩, fun j hj => ((logAdd_tells ..).counter j hj).trans (hcounter j hj)⟩
  · rw [logPlain_dev]; exact hst
  · rw [logPlain_localUs]; exact hlocal
  · rw [logPlain_pins]; exact hpins
  · rw [logPlain_regs]; exact hregs
  · rw [logPlain_sec]; exact hsec
  · rw [logPlain_mm]; exact hmm

theorem bootChain_booted (s : State) : Booted s (bootChain s) := by
  cases hact : s.activeVerifies
  · cases hoth : s.otherVerifies
    · rw [bootChain_of_neither hact hoth]; exact (bootFails_boots s).ends
    · rw [bootChain_of_other hact hoth]; exact ((bankRuns_boots _ s).logged _ _).ends
  · rw [bootChain_of_active hact]; exact (bankRuns_boots _ s).ends

/-- The bank that runs (R418 to R420). -/
theorem bootChain_bank (s : State) :
    (s.activeVerifies = true → (bootChain s).dev.stage = 1 ∧ (bootChain s).dev.bootFailed = false
      ∧ (bootChain s).dev.activeB = s.dev.activeB)
    ∧ (s.activeVerifies = false → s.otherVerifies = true → (bootChain s).dev.stage = 1
      ∧ (bootChain s).dev.bootFailed = false ∧ (bootChain s).dev.activeB = !s.dev.activeB)
    ∧ (s.activeVerifies = false → s.otherVerifies = false → (bootChain s).dev.stage = 0
      ∧ (bootChain s).dev.bootFailed = true) := by
  refine ⟨fun hact => ?_, fun hact hoth => ?_, fun hact hoth => ?_⟩
  · rw [bootChain_of_active hact, bootEnds_dev]; exact ⟨rfl, rfl, rfl⟩
  · rw [bootChain_of_other hact hoth, bootEnds_dev, logPlain_dev]; exact ⟨rfl, rfl, rfl⟩
  · rw [bootChain_of_neither hact hoth, bootEnds_dev]; exact ⟨rfl, rfl⟩

/-- The module as STBY_GOOD finds it. -/
def powerGood (slot : Nat) (a b : Bool) (s : State) : State :=
  setDev .standby { bump 0x1000 0x0B 1 32 s with
    pins := { s.pins with stbyGood := true, slotId := slot % 64, bankAOk := a, bankBOk := b } }

section
variable (slot : Nat) (a b : Bool) (s : State)

theorem powerGood_dev : (powerGood slot a b s).dev = { s.dev with st := .standby } := setDev_dev _ _

theorem powerGood_pins :
    (powerGood slot a b s).pins = { s.pins with stbyGood := true, slotId := slot % 64, bankAOk := a, bankBOk := b } :=
  setDev_pins ..

theorem powerGood_sec : (powerGood slot a b s).sec = s.sec := setDev_sec ..

theorem powerGood_regs : (powerGood slot a b s).regs = s.regs := setDev_regs ..

theorem powerGood_mm : (powerGood slot a b s).mm = s.mm := setDev_mm ..

theorem powerGood_boots : (powerGood slot a b s).counter 0x1000 0x0B = satAdd 32 (s.counter 0x1000 0x0B) 1 := by
  unfold powerGood
  rw [State.counter, (setDev_tells _ _).counter _ (by decide)]
  exact (bump_tget ..).trans (if_pos rfl)

theorem powerGood_verifies : (powerGood slot a b s).activeVerifies
      = bankVerifies s (if s.dev.activeB then s.dev.bankB else s.dev.bankA) (if s.dev.activeB then b else a)
    ∧ (powerGood slot a b s).otherVerifies
      = bankVerifies s (if s.dev.activeB then s.dev.bankA else s.dev.bankB) (if s.dev.activeB then a else b) := by
  unfold State.activeVerifies State.otherVerifies bankVerifies
  rw [powerGood_dev, powerGood_pins, powerGood_sec]
  cases s.dev.activeB <;> exact ⟨rfl, rfl⟩

/-- The active bank as RESET_N's release finds it. -/
theorem activeVerifies_eq : s.activeVerifies = bankVerifies s (if s.dev.activeB then s.dev.bankB else s.dev.bankA)
    (if s.dev.activeB then s.pins.bankBOk else s.pins.bankAOk) := by
  unfold State.activeVerifies
  cases s.dev.activeB <;> rfl

end

theorem stbyGood_eq {s : State} (slot : Nat) (a b : Bool) (h : s.dev.st = .off) :
    exec (.stbyGood slot a b) s = .next (bootChain (powerGood slot a b s)) := by
  have hstate : stbyGoodState slot a b s = bootChain (powerGood slot a b s) := by
    unfold stbyGoodState
    rw [if_pos h]
    rfl
  exact congrArg Host.Outcome.next hstate

theorem resetRelease_eq {s : State} (hon : s.dev.st ≠ .off) (h : s.pins.resetAsserted = true) :
    exec .resetNRelease s = .next (bootChain s) := by
  have hstate : resetReleaseState s = bootChain s := by
    unfold resetReleaseState
    rw [if_pos (by simp [hon, h])]
  exact congrArg Host.Outcome.next hstate

end Sys2Proof.Machine

namespace Sys2Proof

open Machine

/-- Settles O39: the chain by the bank that runs, after STBY_GOOD and after RESET_N. -/
theorem bootChain : Obligations.BootChain := by
  intro s slot a b act oth
  refine ⟨fun hoff => ?_, fun hon => ?_, fun hon hreset => ?_⟩
  · obtain ⟨hst, hlocal, ⟨hreset, hgood, hslot⟩, hearly, hfailed, ⟨hregs, hsec, hmm⟩, hcounter⟩ :=
      bootChain_booted (powerGood slot a b s)
    obtain ⟨hruns, hother, hneither⟩ := bootChain_bank (powerGood slot a b s)
    obtain ⟨hact, hoth⟩ := powerGood_verifies slot a b s
    rw [hact] at hruns hother hneither
    rw [hoth] at hother hneither
    rw [powerGood_dev] at hst hruns hother
    rw [powerGood_pins] at hgood hslot hearly
    rw [powerGood_regs] at hregs
    rw [powerGood_mm] at hmm
    refine ⟨_, stbyGood_eq slot a b hoff, hst, hlocal, hgood, hslot, hreset,
      (hcounter _ (by decide)).trans (powerGood_boots slot a b s), hruns, hother, fun ha ho => ?_, hearly,
      hregs, hsec.trans (powerGood_sec slot a b s), hmm⟩
    obtain ⟨hstage, hfail⟩ := hneither ha ho
    exact ⟨hstage, hfail, hfailed hfail⟩
  · have hstay : stbyGoodState slot a b s = s := if_neg hon
    exact congrArg Host.Outcome.next hstay
  · obtain ⟨hst, hlocal, ⟨hreleased, _, _⟩, _, _, ⟨hregs, _, _⟩, _⟩ := bootChain_booted s
    refine ⟨_, resetRelease_eq hon hreset, hst, hlocal, hreleased, fun ha => ?_, hregs⟩
    obtain ⟨hruns, _, _⟩ := bootChain_bank s
    rw [activeVerifies_eq] at hruns
    obtain ⟨hstage, hfail, _⟩ := hruns ha
    exact ⟨hstage, hfail⟩

end Sys2Proof
end
section
/-! The oven governor's decision and the timers (R342, R385, R392 to R396, R400). -/

namespace Sys2Proof.Machine

/-! ## A decision -/

/-- What was measured, before the energy and the input's state are renewed. -/
def taken (m : Meas) (s : State) : State :=
  { s with gov := { s.gov with
      inputMw := m.inputMw, inputMv := m.inputMv, inputMa := m.inputMa, tj := m.tj, inlet := m.inlet, outlet := m.outlet
      crust := m.crust, gddr := m.gddr, regulator := m.regulator } }

/-- What was measured, with the energy and the input's state. -/
def takenIn (m : Meas) (s : State) : State :=
  { taken m s with gov := { (taken m s).gov with
      energy := s.gov.energy + m.inputMw, inputFault := decide (m.inputMv < 44000) || decide (58000 < m.inputMv) } }

/-- The hearths' next junction ceilings. -/
def nextCeilings (s : State) : List Nat := (s.gov.ceiling.zip s.gov.tj).map fun c => nextCeiling s c.1 c.2

/-- The holds end, or go on. -/
def holdsEnd (done : Bool) (s : State) : State := if done then endHolds s else s

theorem holdsEnd_only (done : Bool) (s : State) :
    holdsEnd done s = { s with groups := (holdsEnd done s).groups, leaven := (holdsEnd done s).leaven } := by
  cases done <;> rfl

/-- How long the limits have bound at the floor, and how long none has. -/
def boundFor (s : State) : Nat := if decide (s.gov.target ≤ s.eff.vMin) && inBinds s then s.gov.boundUs + 100 else 0
def freeFor (s : State) : Nat := if inBinds s then 0 else s.gov.freeUs + 100

/-- Gating after a decision (R396). -/
def gates (s : State) : Bool := (s.gov.gating || decide (2000 ≤ boundFor s)) && decide (freeFor s < 10000)

/-- The margins that end the holds. -/
def releases (s : State) : Bool :=
  decide (s.gov.inputMw * 100 < inputLimit s * 98) && decide (s.gov.outlet < (s.eff.outLimit : Int) * 100 - 50)

/-- The hearths' next VCORE. -/
def nextVcore (s : State) : List Nat := (nextCeilings s).map fun c => min (nextTarget s) c

/-- A decision of an active device moves the target and the hearths (R394). -/
def aimed (m : Meas) (s : State) : State :=
  { s with gov := { s.gov with
      target := nextTarget s, ceiling := nextCeilings s, vcore := nextVcore s, boundUs := boundFor s, freeUs := freeFor s
      gating := gates s, minMv := (nextVcore s).foldl min s.gov.minMv, powerSum := s.gov.powerSum + m.inputMw
      powerN := s.gov.powerN + 1 } }

/-- A decision of an active device, with the holds it ends (R394, R396). -/
def steered (m : Meas) (s : State) : State := holdsEnd (releases s || !gates s) (aimed m s)

section
variable (m : Meas) (s : State)

theorem governorState_eq {m : Meas} {s : State} (hon : s.dev.st ≠ .off) (hreset : s.pins.resetAsserted = false) :
    governorState m s = refreshAlert
      (if s.job.st.live && s.dev.st = .active && s.dev.mainUp then steered m (takenIn m s) else takenIn m s) := by
  unfold governorState
  rw [if_neg (by simp [hon, hreset])]
  rfl

end

section
variable {s : State} (hrange : s.eff.vMin ≤ s.eff.vMax)
include hrange

/-- The target stays in the set range and rises at most 5 mV (R394). -/
theorem nextTarget_bounds : s.eff.vMin ≤ nextTarget s ∧ nextTarget s ≤ s.eff.vMax
    ∧ (nextTarget s = max s.eff.vMin (min s.eff.vMax (s.gov.target + 5)) ∨ nextTarget s ≤ max s.eff.vMin s.gov.target) := by
  unfold nextTarget
  dsimp only
  split
  · omega
  · split
    · omega
    · omega

end

theorem nextTarget_of_binds {s : State} (h : inBinds s = true) :
    nextTarget s = max s.eff.vMin (min s.eff.vMax (s.gov.target - 25)) := by
  unfold nextTarget
  rw [if_pos h]

theorem nextTarget_of_near {s : State} (h : inBinds s = false) (hnear : anyNear s = true) :
    nextTarget s = max s.eff.vMin (min s.eff.vMax s.gov.target) := by
  unfold nextTarget
  rw [if_neg (by simp [h]), if_neg (by simp [hnear])]

theorem governorDecides_claim : Claims.GovernorDecides := by
  intro m s hon hreset u
  have hstate := governorState_eq (m := m) hon hreset
  rw [refreshAlert_only] at hstate
  by_cases hactive : (s.job.st.live && s.dev.st = .active && s.dev.mainUp) = true
  · rw [if_pos hactive] at hstate
    have honly : steered m (takenIn m s) = { aimed m (takenIn m s) with
        groups := (steered m (takenIn m s)).groups, leaven := (steered m (takenIn m s)).leaven } := holdsEnd_only _ _
    generalize steered m (takenIn m s) = w at hstate honly
    refine ⟨_, congrArg Host.Outcome.next hstate, ?_⟩
    generalize (refreshAlert w).pins.alert = a
    generalize (refreshAlert w).gov.alertClearAt = c
    rw [honly]
    refine ⟨rfl, rfl, rfl, rfl, rfl, rfl, rfl, fun hlive => ?_, fun hlive hst hup hrange => ?_, rfl, rfl, rfl, rfl, rfl, rfl⟩
    · simp [hlive] at hactive
    · obtain ⟨hlo, hhi, hrise⟩ := nextTarget_bounds (s := takenIn m s) hrange
      refine ⟨fun hb => nextTarget_of_binds (s := takenIn m s) hb, fun hb hn => nextTarget_of_near (s := takenIn m s) hb hn,
        hrise, hlo, hhi, fun v hv => ?_⟩
      obtain ⟨c, _, rfl⟩ := List.mem_map.mp hv
      exact Nat.min_le_left _ _
  · rw [if_neg hactive] at hstate
    refine ⟨_, congrArg Host.Outcome.next hstate, rfl, rfl, rfl, rfl, rfl, rfl, rfl, fun _ => ⟨rfl, rfl, rfl⟩,
      fun hlive hst hup => ?_, rfl, rfl, rfl, rfl, rfl, rfl⟩
    simp [hlive, hst, hup] at hactive

/-! ## Timers -/

theorem timersOfTheGovernor : Claims.TimersOfTheGovernor := by
  intro s
  refine ⟨fun g u hg hu => ?_, fun g hg hnone => ?_, fun hup hlive => ?_, fun u hu hcause => ?_, fun hup ht => ?_, fun hup => ?_⟩
  · have hstate : gatingLimitState g s = setGroup g { s.group g with held := none, passed := true }
        { s with localUs := max s.localUs (u + 2000) } := by
      unfold gatingLimitState
      rw [if_pos hg]
      simp only [hu]
    refine ⟨_, congrArg Host.Outcome.next hstate, rfl, ?_, ?_, fun k hk => ?_, rfl⟩
    · rw [setGroup_group_same]
    · rw [setGroup_group_same]
    · exact (setGroup_group ..).trans (if_neg (Ne.symm hk))
  · have hstay : gatingLimitState g s = s := by
      unfold gatingLimitState
      rw [if_pos hg]
      simp only [hnone]
    exact congrArg Host.Outcome.next hstay
  · have hstate : overcurrentState s = { s with gov := { s.gov with
        target := s.eff.vMin, vcore := s.gov.vcore.map fun v => min v s.eff.vMin } } := if_pos (by simp [hup, hlive])
    refine ⟨_, congrArg Host.Outcome.next hstate, rfl, List.length_map _, fun v hv => ?_, rfl⟩
    obtain ⟨c, _, rfl⟩ := List.mem_map.mp hv
    exact Nat.min_le_right _ _
  · have hstate : alertTimerState s = { s with localUs := max s.localUs u, pins := { s.pins with alert := false }
                                               gov := { s.gov with alertClearAt := none } } := by
      unfold alertTimerState
      simp only [hu]
      rw [if_neg (by simp [hcause])]
    exact ⟨_, congrArg Host.Outcome.next hstate, rfl, rfl, rfl⟩
  · exact congrArg Host.Outcome.next (if_pos (by simp [hup, ht]))
  · exact congrArg Host.Outcome.next (if_pos hup)

/-- Settles O40: what a decision moves and what the governor's timers end. -/
theorem governorDecides : Obligations.GovernorDecides := ⟨governorDecides_claim, timersOfTheGovernor⟩

end Sys2Proof.Machine
end
section
/-! What raises main power and what takes it down (R384, R387 to R389, R401, R446, R449, R450). -/

namespace Sys2Proof.Machine

/-! ## Going down -/

/-- What `PoweredDown` says of a state, counters apart. -/
def downFields (s : State) := (s.dev.st, s.dev.mainUp, s.pins.pwrGood, s.gov.vcore, s.job, s.recipe, s.results, s.history,
  s.mm.mem, s.mm.pages, s.mm.retired, s.cores, s.edp.sessions, s.edp.subs, s.edp.holds, s.regs, s.sec)

section
variable {s u t : State} (h : PoweredDown u t)
include h

/-- Values and counters of before may be those of an earlier state. -/
theorem PoweredDown.before (hregs : u.regs = s.regs) (hsec : u.sec = s.sec) (hmm : u.mm.retired = s.mm.retired)
    (hcounters : ∀ k, persistentCounter k = true → tget 0 u.counters k = tget 0 s.counters k) : PoweredDown s t := by
  obtain ⟨hdevice, hpower, hjob, hrecipe, ⟨hmem, hpages, hretired, hcores⟩, hsessions, ⟨hr, hs⟩, hc⟩ := h
  refine ⟨hdevice, hpower, hjob, hrecipe, ⟨hmem, hpages, hretired.trans hmm, hcores⟩, hsessions,
    ⟨hregs ▸ hr, hs.trans hsec⟩, fun k => ?_⟩
  rw [hc k]
  split
  · next hk => exact hcounters k hk
  · rfl

/-- What comes after may change pins, logs and the like. -/
theorem PoweredDown.after {w : State} (hfields : downFields w = downFields t) (hcounters : w.counters = t.counters) :
    PoweredDown u w := by
  simp only [downFields, Prod.mk.injEq] at hfields
  obtain ⟨hst, hup, hgood, hv, hj, hr, hres, hhist, hmem, hpages, hret, hcores, hses, hsubs, hholds, hregs, hsec⟩ := hfields
  obtain ⟨hdevice, hpower, hjob, hrecipe, hmemory, hsessions, hvalues, hc⟩ := h
  constructor
  case device => rw [hst]; exact hdevice
  case power => rw [hgood, hup, hv]; exact hpower
  case job => rw [hj]; exact hjob
  case recipe => rw [hr, hres, hhist]; exact hrecipe
  case memory => rw [hmem, hpages, hret, hcores]; exact hmemory
  case sessions => rw [hses, hsubs, hholds]; exact hsessions
  case values => rw [hregs, hsec]; exact hvalues
  case counters => rw [hcounters]; exact hc

theorem PoweredDown.alert : PoweredDown u (refreshAlert t) :=
  h.after (by rw [refreshAlert_only]; rfl) (by rw [refreshAlert_only])

end

section
variable {s : State}

theorem forcedRelease_eq (h : s.dev.st.powered) :
    forcedRelease s = enterStandby { s with pins := { s.pins with latch := true } } := by
  unfold forcedRelease
  rcases h with e | e | e | e <;> simp only [e]

/-- A cause with the effect of a release of PWR_EN, after logs and measurements. -/
theorem forcedRelease_down {u : State} (h : s.dev.st.powered) (hregs : s.regs = u.regs)
    (hsec : s.sec = u.sec) (hmm : s.mm = u.mm) (hcounters : ∀ k, k ≠ ck 0x1100 0x0A → tget 0 s.counters k = tget 0 u.counters k) :
    PoweredDown u (forcedRelease s) := by
  rw [forcedRelease_eq h]
  refine (enterStandby_down { s with pins := { s.pins with latch := true } }).before hregs hsec (congrArg MemSt.retired hmm)
    fun k hk => hcounters k ?_
  intro e
  subst e
  revert hk
  decide

theorem forcedRelease_pins (h : s.dev.st.powered) :
    (forcedRelease s).pins = { s.pins with latch := true, pwrGood := false } := by
  rw [forcedRelease_eq h, enterStandby_pins]

theorem forcedRelease_gov (h : s.dev.st.powered) :
    (forcedRelease s).gov = { s.gov with vcore := [0, 0, 0, 0], gating := false, electiveMw := 0 } := by
  rw [forcedRelease_eq h, enterStandby_gov]

theorem forcedRelease_log (h : s.dev.st.powered) : (forcedRelease s).log = s.log := by
  rw [forcedRelease_eq h, enterStandby_log]

theorem DevState.powered_ne {d : DevState} (h : d.powered) : d ≠ .off ∧ d ≠ .standby := by
  rcases h with rfl | rfl | rfl | rfl <;> exact ⟨DevState.noConfusion, DevState.noConfusion⟩

end

/-! ## Causes -/

section
variable (s : State) (h : s.dev.st.powered)
include h

theorem pwrEnFall_down : ∃ t, exec .pwrEnFall s = .next t ∧ PoweredDown s t ∧ t.pins.pwrEn = false
    ∧ t.pins.thermTrip = false ∧ t.pins.latch = false := by
  have hstate : pwrEnFallState s = refreshAlert (enterStandby { s with
      pins := { s.pins with pwrEn := false, thermTrip := false, latch := false, earlyPwrEn := false } }) := by
    unfold pwrEnFallState
    rcases h with e | e | e | e <;> simp only [e]
  have hdown := enterStandby_down { s with
    pins := { s.pins with pwrEn := false, thermTrip := false, latch := false, earlyPwrEn := false } }
  refine ⟨_, congrArg Host.Outcome.next hstate, (hdown.before (s := s) rfl rfl rfl fun _ _ => rfl).alert, ?_⟩
  rw [refreshAlert_only, enterStandby_pins]
  exact ⟨rfl, rfl, rfl⟩

theorem interlockOpen_down : ∃ t, exec .interlockOpen s = .next t ∧ PoweredDown s t ∧ t.pins.interlockOpen = true
    ∧ t.pins.latch = true ∧ (s.dev.st = .proofing → t.dev.test.state = s.dev.test.state) := by
  have hdown := forcedRelease_down (s := { s with pins := { s.pins with interlockOpen := true } }) (u := s) h rfl rfl rfl
    fun _ _ => rfl
  have hpins := forcedRelease_pins (s := { s with pins := { s.pins with interlockOpen := true } }) h
  have hstate : interlockState s = (if s.dev.st = .proofing then
      { forcedRelease { s with pins := { s.pins with interlockOpen := true } } with
        dev := { (forcedRelease { s with pins := { s.pins with interlockOpen := true } }).dev with
          test := { (forcedRelease { s with pins := { s.pins with interlockOpen := true } }).dev.test with
            state := s.dev.test.state } } }
      else forcedRelease { s with pins := { s.pins with interlockOpen := true } }) := rfl
  generalize forcedRelease { s with pins := { s.pins with interlockOpen := true } } = u at hdown hpins hstate
  refine ⟨_, congrArg Host.Outcome.next hstate, ?_⟩
  have hopen : u.pins.interlockOpen = true ∧ u.pins.latch = true := by rw [hpins]; exact ⟨rfl, rfl⟩
  obtain ⟨hopen, hlatch⟩ := hopen
  by_cases hp : s.dev.st = .proofing
  · rw [if_pos hp]
    exact ⟨hdown.after rfl rfl, hopen, hlatch, fun _ => rfl⟩
  · rw [if_neg hp]
    exact ⟨hdown, hopen, hlatch, fun e => absurd e hp⟩

theorem thermalTrip_down (hup : s.dev.mainUp = true) :
    ∃ t, exec .thermalTrip s = .next t ∧ PoweredDown s t ∧ t.pins.thermTrip = true := by
  have hdown := forcedRelease_down (s := setVcore 0 s) (u := s) h rfl rfl rfl fun _ _ => rfl
  have hstate : thermalTripState s = { forcedRelease (setVcore 0 s) with
      pins := { (forcedRelease (setVcore 0 s)).pins with thermTrip := true } } := if_pos hup
  generalize forcedRelease (setVcore 0 s) = u at hdown hstate
  exact ⟨_, congrArg Host.Outcome.next hstate, hdown.after rfl rfl, rfl⟩

theorem railFault_down (row : Nat) (hup : s.dev.mainUp = true) :
    ∃ t, exec (.railFault row) s = .next t ∧ PoweredDown s t ∧ t.pins.latch = true ∧ Logged 0 [2, row] s t := by
  have hdev := logPlain_dev 0 [2, row] s
  have hpow : (logPlain 0 [2, row] s).dev.st.powered := by rw [hdev]; exact h
  have hlogged := logPlain_logged 0 [2, row] s
  have hlog := forcedRelease_log hpow
  have hpins := forcedRelease_pins hpow
  have hdown := forcedRelease_down (u := s) hpow (logPlain_regs ..) (logPlain_sec ..) (logPlain_mm ..)
    (logAdd_tells ..).counter
  have hstate : railFaultState row s = forcedRelease (logPlain 0 [2, row] s) := if_pos hup
  refine ⟨_, congrArg Host.Outcome.next hstate, hdown, ?_, hlogged.congr rfl hlog⟩
  rw [hpins]

theorem inputVoltageFault_down {mv : Nat} (hmv : (30000 ≤ mv ∧ mv < 40000) ∨ (58000 < mv ∧ mv ≤ 60000)) :
    ∃ t, exec (.inputVoltageFault mv) s = .next t ∧ PoweredDown s t ∧ t.pins.alert = true ∧ t.gov.inputFault = true := by
  have hstate := inputVoltage_eq (mv := mv) (DevState.powered_ne h).1 (by omega) (by omega)
  have hbad : (decide (mv < 44000) || decide (58000 < mv)) = true := by
    rcases hmv with ⟨_, hlt⟩ | ⟨hgt, _⟩
    · simp; omega
    · simp; omega
  rw [if_pos (by omega), hbad] at hstate
  have hdown := forcedRelease_down (s := measured mv true s) (u := s) h rfl rfl rfl fun _ _ => rfl
  have hgov := forcedRelease_gov (s := measured mv true s) h
  generalize forcedRelease (measured mv true s) = u at hstate hdown hgov
  have hfault : u.gov.inputFault = true := by rw [hgov]; rfl
  refine ⟨_, hstate, hdown.alert, refreshAlert_alert (by simp [alertCause, hfault]), ?_⟩
  rw [refreshAlert_only]
  exact hfault

theorem resetNAssert_down : ∃ t, exec .resetNAssert s = .next t ∧ PoweredDown s t ∧ t.pins.resetAsserted = true
    ∧ t.log.ring = [] := by
  have hdown := enterStandby_down s
  have hstate : exec .resetNAssert s = .next (resetAssertState s) := rfl
  unfold resetAssertState at hstate
  rw [if_neg (DevState.powered_ne h).1] at hstate
  generalize enterStandby s = u at hdown hstate
  obtain ⟨hgood, hup, hv⟩ := hdown.power
  exact ⟨_, hstate, hdown.after (by simp [downFields, hgood]) rfl, rfl, rfl⟩

end

theorem powerGoesDown : Claims.PowerGoesDown := fun s h =>
  ⟨pwrEnFall_down s h, interlockOpen_down s h, thermalTrip_down s h, railFault_down s h,
    fun _ hmv => inputVoltageFault_down s h hmv, resetNAssert_down s h⟩

/-! ## PWR_EN rises -/

section
variable (s : State)

/-- Proofing begins: the device, its events and nothing else. -/
theorem beginProofing_dev : (beginProofing s).dev = { s.dev with
    st := .proofing, proofFailed := false, stage := 1, reason := 0, test := { SelfTest.idle with state := 2 } } := by
  have hdev := setDev_dev .proofing s
  unfold beginProofing
  generalize setDev .proofing s = u at hdev
  dsimp only
  rw [hdev]

theorem beginProofing_pins : (beginProofing s).pins = s.pins := setDev_pins .proofing s
theorem beginProofing_regs : (beginProofing s).regs = s.regs := setDev_regs .proofing s
theorem beginProofing_sec : (beginProofing s).sec = s.sec := setDev_sec .proofing s
theorem beginProofing_job : (beginProofing s).job = s.job := setDev_job .proofing s
theorem beginProofing_mm : (beginProofing s).mm = s.mm := setDev_mm .proofing s
theorem beginProofing_recipe : (beginProofing s).recipe = s.recipe := setDev_recipe .proofing s

end

theorem powerEnableStartsProofing : Claims.PowerEnableStartsProofing := by
  intro s
  refine ⟨fun hlow hst hsteward htrip hauto => ?_, fun hlow hno => ?_, fun hhigh => ?_⟩
  · have hstate : pwrEnRiseState s
        = beginProofing { s with pins := { s.pins with pwrEn := true, interlockOpen := false, latch := false } } := by
      have hmay : (decide (s.dev.st = .standby) && s.stewardUp && !s.pins.thermTrip) = true := by
        simp [hst, hsteward, htrip]
      unfold pwrEnRiseState
      rw [if_neg (by simp [hlow])]
      exact (if_pos hmay).trans (if_pos hauto)
    refine ⟨_, congrArg Host.Outcome.next hstate, beginProofing_pins _, ?_, ?_, ?_, beginProofing_regs _, beginProofing_sec _,
      beginProofing_job _, beginProofing_mm _⟩ <;> rw [beginProofing_dev]
  · have hstate : ∃ b, pwrEnRiseState s = { s with pins := { s.pins with pwrEn := true, interlockOpen := false, latch := b } } := by
      unfold pwrEnRiseState
      rw [if_neg (by simp [hlow])]
      rcases hno with hst | hauto
      · exact ⟨s.pins.latch, by simp [hst]⟩
      · dsimp only
        split
        · exact ⟨false, by simp [hauto]⟩
        · exact ⟨s.pins.latch, rfl⟩
    obtain ⟨b, hstate⟩ := hstate
    exact ⟨_, congrArg Host.Outcome.next hstate, rfl, rfl⟩
  · have hstay : pwrEnRiseState s = s := if_pos hhigh
    exact congrArg Host.Outcome.next hstay

/-- Settles O37: a rising PWR_EN begins proofing where it may, and each cause of a loss ends in the state of Table 17.4. -/
theorem mainPowerGoesUpAndDown : Obligations.MainPowerGoesUpAndDown := ⟨powerEnableStartsProofing, powerGoesDown⟩

end Sys2Proof.Machine
end
section
/-! STANDBY and PROOF (R369, R370, R387, R404). -/

namespace Sys2Proof.Machine

section
variable {h : EdpHdr} {x : Session} {s u : State} {code : Nat}

theorem powerCode_ok {v : Nat} (hv : 1 ≤ v ∧ v ≤ 4) (s : State) :
    valueOk 0x2200 1 tU8 (leBytes 1 v) = true ∧ ownRule s 0x2200 1 (leBytes 1 v) = OK := by
  obtain ⟨hlo, hhi⟩ := hv
  interval_cases v <;> exact ⟨rfl, rfl⟩

/-- A power-state command is carried out on the state that has taken the request. -/
theorem powerCommand_eq {v : Nat} (hv : 1 ≤ v ∧ v ≤ 4) (f : State → Nat × State) (w : SendsCode h 0x2200 1 v x s)
    (he : f (atRequest h x s) = (code, u)) :
    codeCommand h 0x2200 1 v f s
      = finishRequest h (.write 0x2200 1 tU8 (leBytes 1 v)) (statusAck code 0x2200 1 tU8, u, []) := by
  obtain ⟨hvalue, hrule⟩ := powerCode_ok hv s
  rw [codeCommand_ok w f (writeClass_of_wo (e := woE tU8) rfl rfl w.right (by decide)) hvalue hrule, he]

/-- A power-state command answers what its effect gives, and leaves it. -/
theorem powerCommand_post {v : Nat} (hv : 1 ≤ v ∧ v ≤ 4) (f : State → Nat × State) (w : SendsCode h 0x2200 1 v x s)
    (he : f (atRequest h x s) = (code, u)) :
    Acked h (statusAck code 0x2200 1 tU8) (codeCommand h 0x2200 1 v f s)
      ∧ Leaves h u (codeCommand h 0x2200 1 v f s) := by
  rw [powerCommand_eq hv f w he]
  exact ⟨finishRequest_acked _ _ _, finishRequest_leaves _ _ _⟩

/-- A power-state command that is refused leaves nothing. -/
theorem powerCommand_refused {v : Nat} (hv : 1 ≤ v ∧ v ≤ 4) (f : State → Nat × State) (w : SendsCode h 0x2200 1 v x s)
    (he : f (atRequest h x s) = (code, atRequest h x s)) :
    Acked h (statusAck code 0x2200 1 tU8) (codeCommand h 0x2200 1 v f s)
      ∧ Leaves h s (codeCommand h 0x2200 1 v f s) := by
  obtain ⟨hack, hleaves⟩ := powerCommand_post hv f w he
  exact ⟨hack, (Leaves.of_eq (atRequest_body h x s)).trans hleaves⟩

end

/-! ## An answer from a device that has gone down -/

theorem enterStandby_fab (s : State) : (enterStandby s).fab = FabSt.reset := by
  have h : (downAndIdle s).fab = (railsDown s).fab := by rw [downAndIdle, setJob_fab, setDev_fab]
  rw [enterStandby_eq]
  exact h

/-- A device without coordinates and sessions. -/
structure Alone (s : State) : Prop where
  fabId : s.fabId = 0xFFFF
  sessions : s.edp.sessions = []
  subs : s.edp.subs = []
  holds : s.edp.holds = []

section
variable {s : State} (hs : Alone s) (h : EdpHdr)
include hs

theorem Alone.closeSession (sid : BitVec 32) : closeSession sid s = s := by
  obtain ⟨_, hsessions, hsubs, hholds⟩ := hs
  have hedp : ({ s.edp with sessions := [], subs := [], holds := [] } : Edp) = s.edp := by
    rw [← hsessions, ← hsubs, ← hholds]
  unfold Machine.closeSession
  rw [hsessions, hsubs, hholds]
  exact congrArg (fun e : Edp => { s with edp := e }) hedp

theorem Alone.lastSeq : lastSeq h s = s := by
  unfold Machine.lastSeq
  split
  · exact hs.closeSession _
  · rfl

theorem Alone.cacheAck (b : EdpBody) (a : Ack) : cacheAck h b a s = s := by
  have hnone : s.session h.session = none := by rw [State.session, hs.sessions]; rfl
  unfold Machine.cacheAck
  rw [hnone]

theorem Alone.injectPacket {p : Packet} (hp : p.vl = 0) : injectPacket p s = s := by
  unfold Machine.injectPacket
  rw [if_pos hp, if_pos hs.fabId]

theorem Alone.sendAck (a : Ack) : sendAck h a s = send (.ack h.transport h.peer h.session h.seq a) s := by
  unfold Machine.sendAck
  split
  · rw [hs.injectPacket rfl]
  · rfl

/-- An acknowledgment from a device that has gone down changes nothing but what is sent and the pages of no hold. -/
theorem Alone.finishRequest (b : EdpBody) (a : Ack) : finishRequest h b (a, s, [])
    = { send (.ack h.transport h.peer h.session h.seq a) s with mm := { s.mm with holdPages := [] } } := by
  have hsent : Alone (send (.ack h.transport h.peer h.session h.seq a) s) := ⟨hs.fabId, hs.sessions, hs.subs, hs.holds⟩
  have hhold : ((send (.ack h.transport h.peer h.session h.seq a) s).hold? 0x5010 1) = none := by
    rw [State.hold?, hsent.holds]; rfl
  unfold Machine.finishRequest
  simp only [List.foldl_nil]
  rw [hs.cacheAck, hs.sendAck, hsent.lastSeq]
  exact if_neg (by rw [hhold]; exact Bool.false_ne_true)

end

/-- STANDBY leaves the device alone. -/
theorem alone_standby (s : State) : Alone (refreshAlert (enterStandby s)) := by
  have hfab := enterStandby_fab s
  obtain ⟨hsessions, hsubs, hholds⟩ := enterStandby_edp s
  have honly := refreshAlert_only (enterStandby s)
  generalize hu : refreshAlert (enterStandby s) = u at honly ⊢
  generalize enterStandby s = w at hfab hsessions hsubs hholds honly
  rw [honly]
  refine ⟨?_, hsessions, hsubs, hholds⟩
  unfold State.fabId
  simp only [hfab]
  rfl

/-! ## The commands -/

theorem Leaves.pins {h : EdpHdr} {u t : State} (hl : Leaves h u t) : t.pins = u.pins := by
  obtain ⟨⟨hbody, _⟩, _⟩ := hl
  have hpins := congrArg State.pins hbody
  exact hpins

theorem followJob_dev (o j : JobState) (s : State) : (followJob o j s).dev = { s.dev with st := (followJob o j s).dev.st } := by
  unfold followJob
  split
  · rw [setDev_dev]
  · split
    · rw [setDev_dev]
    · rfl

/-- A change of the job state changes of the device its state alone. -/
theorem setJob_dev (j : JobState) (c : Nat) (s : State) : (setJob j c s).dev = { s.dev with st := (setJob j c s).dev.st } := by
  unfold setJob
  split
  · rfl
  · have hdev := followJob_dev s.job.st j (raiseEvent (mkEvent (jobRecord j c s) 2 (if j = .halted then c else 0) 0x5000 1
      (leBytes 1 s.job.st.code ++ leBytes 1 j.code) []) (jobRecord j c s))
    rw [raiseEvent_dev] at hdev
    exact hdev

theorem standbyCommand_down {s : State} (hst : s.dev.st = .ready ∨ s.dev.st = .sleep ∨ s.dev.st = .proofing) :
    standbyCommand s = (OK, refreshAlert (enterStandby s)) := by
  unfold standbyCommand
  rcases hst with e | e | e <;> simp only [e]

theorem standbyCommand_busy {s : State} (hst : s.dev.st = .standby ∨ s.dev.st = .active) : standbyCommand s = (BUSY, s) := by
  unfold standbyCommand
  rcases hst with e | e <;> simp only [e]

theorem standby_down {h : EdpHdr} {x : Session} {s : State} (w : SendsCode h 0x2200 1 3 x s)
    (hst : s.dev.st = .ready ∨ s.dev.st = .sleep ∨ s.dev.st = .proofing) :
    ∃ t, exec (.standby h) s = .next t ∧ Acked h (statusAck OK 0x2200 1 tU8) t ∧ PoweredDown s t := by
  have hcommand := standbyCommand_down (s := atRequest h x s) hst
  obtain ⟨hack, _⟩ := powerCommand_post (v := 3) (by omega) standbyCommand w hcommand
  have hdown : PoweredDown s (refreshAlert (enterStandby (atRequest h x s))) :=
    ((enterStandby_down (atRequest h x s)).before (s := s) rfl rfl rfl fun _ _ => rfl).alert
  have halone := alone_standby (atRequest h x s)
  have heq := powerCommand_eq (v := 3) (by omega) standbyCommand w hcommand
  generalize refreshAlert (enterStandby (atRequest h x s)) = u at hdown halone heq
  rw [halone.finishRequest] at heq
  refine ⟨_, rfl, hack, ?_⟩
  rw [heq]
  exact hdown.after rfl rfl

theorem proofCommand_standby {s : State} (hst : s.dev.st = .standby) (hmay : s.powerAllowed = true) :
    proofCommand s = (OK, beginProofing s) := by
  unfold proofCommand
  simp only [hst, hmay, if_true]

theorem proofCommand_again {s : State} (hst : (s.dev.st = .ready ∧ s.job.st.live = false)
    ∨ (s.dev.st = .proofing ∧ s.dev.proofFailed = true)) :
    proofCommand s = (OK, beginProofing (dropJob (railsDown s))) := by
  unfold proofCommand
  rcases hst with ⟨e, hl⟩ | ⟨e, hf⟩
  · simp [e, hl]
  · simp [e, hf]

theorem proofCommand_busy {s : State} (hst : (s.dev.st = .standby ∧ s.powerAllowed = false) ∨ s.dev.st = .active
    ∨ s.dev.st = .sleep ∨ (s.dev.st = .ready ∧ s.job.st.live = true) ∨ (s.dev.st = .proofing ∧ s.dev.proofFailed = false)) :
    proofCommand s = (BUSY, s) := by
  unfold proofCommand
  rcases hst with ⟨e, hp⟩ | e | e | ⟨e, hl⟩ | ⟨e, hf⟩
  · simp [e, hp]
  · simp [e]
  · simp [e]
  · simp [e, hl]
  · simp [e, hf]

/-- The state in which a device that goes down is proved again. -/
theorem dropJob_eq (s : State) : dropJob s = { setJob .idle 0 s with
    job := Job.reset, recipe := Recipe.reset, bnd := Boundary.reset, eval := Eval.reset, ingest := Ingest.reset
    results := [], history := [], record := List.replicate 256 0 } := rfl

theorem dropped_proofing (s : State) : (beginProofing (dropJob (railsDown s))).dev.mainUp = false
    ∧ (beginProofing (dropJob (railsDown s))).mm.mem = [] ∧ (beginProofing (dropJob (railsDown s))).recipe = Recipe.reset
    ∧ (beginProofing (dropJob (railsDown s))).job.st = .idle ∧ (beginProofing (dropJob (railsDown s))).regs = s.regs
    ∧ (beginProofing (dropJob (railsDown s))).sec = s.sec := by
  rw [beginProofing_dev, beginProofing_mm, beginProofing_recipe, beginProofing_job, beginProofing_regs, beginProofing_sec]
  have hdev := setJob_dev .idle 0 (railsDown s)
  have hmm := setJob_mm .idle 0 (railsDown s)
  have hregs := setJob_regs .idle 0 (railsDown s)
  have hsec := setJob_sec .idle 0 (railsDown s)
  rw [dropJob_eq]
  generalize setJob .idle 0 (railsDown s) = u at hdev hmm hregs hsec
  exact ⟨congrArg Dev.mainUp hdev, congrArg MemSt.mem hmm, rfl, rfl, hregs, hsec⟩

/-- Settles O33: STANDBY and PROOF by the device state they are given in. -/
theorem standbyAndProof : Obligations.StandbyAndProof := by
  intro h x s
  refine ⟨standby_down, fun w hst => ?_, fun w hst hmay => ?_, fun w hst => ?_, fun w hst => ?_⟩
  · obtain ⟨hack, hleaves⟩ := powerCommand_refused (v := 3) (by omega) standbyCommand w
      (standbyCommand_busy (s := atRequest h x s) hst)
    exact ⟨_, rfl, hack, hleaves⟩
  · obtain ⟨hack, hleaves⟩ := powerCommand_post (v := 4) (by omega) proofCommand w
      (proofCommand_standby (s := atRequest h x s) hst hmay)
    have hpins : (codeCommand h 0x2200 1 4 proofCommand s).pins = s.pins := by
      rw [Leaves.pins hleaves, beginProofing_pins]; rfl
    obtain ⟨hsec, hjob, hdev, _, _, _, hregs⟩ := hleaves.fields
    rw [beginProofing_dev] at hdev
    rw [beginProofing_regs] at hregs
    rw [beginProofing_sec] at hsec
    rw [beginProofing_job] at hjob
    refine ⟨_, rfl, hack, ?_, ?_, ?_, ?_, hregs, hsec, hjob, hpins⟩ <;> rw [hdev]
  · obtain ⟨hack, hleaves⟩ := powerCommand_post (v := 4) (by omega) proofCommand w
      (proofCommand_again (s := atRequest h x s) hst)
    obtain ⟨hsec, hjob, hdev, hmem, _, hrecipe, hregs⟩ := hleaves.fields
    obtain ⟨hup, hmem', hrecipe', hjob', hregs', hsec'⟩ := dropped_proofing (atRequest h x s)
    have hbegun := beginProofing_dev (dropJob (railsDown (atRequest h x s)))
    generalize beginProofing (dropJob (railsDown (atRequest h x s))) = u at *
    refine ⟨_, rfl, hack, ?_, ?_, ?_, ?_, hmem.trans hmem', hrecipe.trans hrecipe', ?_, hregs.trans hregs', hsec.trans hsec'⟩
    · rw [hdev, hbegun]
    · rw [hdev, hbegun]
    · rw [hdev, hbegun]
    · rw [hdev]; exact hup
    · rw [hjob]; exact hjob'
  · obtain ⟨hack, hleaves⟩ := powerCommand_refused (v := 4) (by omega) proofCommand w
      (proofCommand_busy (s := atRequest h x s) hst)
    exact ⟨_, rfl, hack, hleaves⟩

end Sys2Proof.Machine
end
section
/-! A proofing that fails (R387, R404, Tables 18.1 and 18.3). -/

namespace Sys2Proof.Machine

/-! ## What the tests of the units leave -/

/-- Log records of cores and leaven cells that fail (R407, R411). -/
def bistLogs (p : ProofInput) (s : State) : State :=
  p.sigCells.foldl (fun s c => signatureLog 2 (c / 16) c (0x10 + c) c s)
    (p.badCores.foldl (fun s c => logAdd CORE_FENCED 1 (c.1 / 100) c.1 0xFFFF [c.1, 0xFFFF, c.2, 0, 0xFF] s) s)

theorem foldl_field {α β : Type} (g : State → β) {f : State → α → State} (hf : ∀ s x, g (f s x) = g s) (l : List α)
    (s : State) : g (l.foldl f s) = g s := by
  induction l generalizing s with
  | nil => rfl
  | cons x l ih => exact (ih _).trans (hf s x)

section
variable {β : Type} (g : State → β) (hlog : ∀ c a h u l d s, g (logAdd c a h u l d s) = g s)
  (hfree : ∀ s, g (takeFree s).2 = g s)
include hlog hfree

theorem signatureLog_field (src hearth unit word golden : Nat) (s : State) :
    g (signatureLog src hearth unit word golden s) = g s :=
  (hlog ..).trans ((hfree _).trans (hfree s))

theorem bistLogs_field (p : ProofInput) (s : State) : g (bistLogs p s) = g s :=
  (foldl_field g (fun s _ => signatureLog_field g hlog hfree _ _ _ _ _ s) _ _).trans
    (foldl_field g (fun s _ => hlog _ _ _ _ _ _ s) _ s)

end

/-- What the tests of order 5 find. -/
def bistFinds (p : ProofInput) (s : State) : State :=
  { s with
    dev := { s.dev with
      map := (List.range 4).flatMap (hearthMap (p.badCores.map (·.1))), phys := physMap (p.badCores.map (·.1))
      badCells := (p.badCells ++ p.sigCells).eraseDups
      badStarters := p.badStarters, badWays := p.badWays, stage := 3 }
    mm := { s.mm with pantry := p.badWays.foldl (fun m w =>
      let k := 49152 * w.1 + w.2.1
      let x := tget PSet.empty m k
      tset m k { x with disabled := w.2.2 :: x.disabled }) [] } }

theorem bistAll_eq (p : ProofInput) (s : State) : ∃ c, bistAll p s = { bistFinds p (bistLogs p s) with counters := c } := ⟨_, rfl⟩

/-- The registers, the ownership and the device state stand; the device takes what the tests find. -/
structure Bist (p : ProofInput) (s t : State) : Prop where
  dev : t.dev = (bistFinds p s).dev
  mm : t.mm = (bistFinds p s).mm
  regs : t.regs = s.regs
  sec : t.sec = s.sec
  gov : t.gov = s.gov
  fab : t.fab = s.fab

theorem bistAll_bist (p : ProofInput) (s : State) : Bist p s (bistAll p s) := by
  have hdev := bistLogs_field State.dev logAdd_dev (fun _ => rfl) p s
  have hmm := bistLogs_field State.mm logAdd_mm (fun _ => rfl) p s
  have hregs := bistLogs_field State.regs logAdd_regs (fun _ => rfl) p s
  have hsec := bistLogs_field State.sec logAdd_sec (fun _ => rfl) p s
  have hgov := bistLogs_field State.gov logAdd_gov (fun _ => rfl) p s
  have hfab := bistLogs_field State.fab logAdd_fab (fun _ => rfl) p s
  obtain ⟨c, heq⟩ := bistAll_eq p s
  rw [heq]
  generalize bistLogs p s = u at *
  constructor
  case dev => simp only [bistFinds, hdev]
  case mm => simp only [bistFinds, hmm]
  case regs => exact hregs
  case sec => exact hsec
  case gov => exact hgov
  case fab => exact hfab

/-! ## Failures -/

/-- Main power rises for the tests (Table 18.1, orders 4 and 5). -/
def risen (s : State) : State :=
  setVcore 600 { s with dev := { s.dev with mainUp := true, stage := 2 }, pins := { s.pins with pwrGood := true } }

/-- A failed proofing shows its stage, hearth and unit; what persists stands. -/
structure ProofFailed (order hearth unit : Nat) (s t : State) : Prop where
  st : t.dev.st = .proofing
  failed : t.dev.proofFailed = true
  stage : t.dev.stage = order
  reason : t.dev.reason = order * 4096 + hearth * 256 + unit
  test : t.dev.test.state = 4
  sec : t.sec = s.sec
  regs : t.regs = s.regs

theorem proofFail_failed {stage hearth unit : Nat} {s u : State} (hst : u.dev.st = .proofing) (hsec : u.sec = s.sec)
    (hregs : u.regs = s.regs) : ProofFailed stage hearth unit s (proofFail stage hearth unit u) :=
  ⟨hst, rfl, rfl, rfl, rfl, hsec, hregs⟩

section
variable {p : ProofInput} {s : State} (hst : s.dev.st = .proofing) (hgoes : s.dev.proofFailed = false)
include hst hgoes

theorem railTimeout_failed (row hearth : Nat) (hup : s.dev.mainUp = false) :
    railTimeoutState row hearth s = proofFail 2 (if row = 7 then hearth else 15) row (railsDown s) := by
  unfold railTimeoutState
  rw [if_pos (by simp [hst, hgoes, hup])]

variable (hstage : s.dev.stage = 1)
include hstage

/-- A proofing that stops in its first part. -/
theorem proofingState_stops {t : State} (h : proofFirst p s = (t, false)) : proofingState p s = t := by
  unfold proofingState
  rw [if_pos (by simp [hst, hgoes, hstage]), h]

theorem proofingState_goesOn {t : State} (h : proofFirst p s = (t, true)) : proofingState p s = proofLast p t := by
  unfold proofingState
  rw [if_pos (by simp [hst, hgoes, hstage]), h]

end

section
variable {p : ProofInput} {s : State}

theorem ways_none (hways : ∀ h < 4, waysFail p.badWays h = false) :
    (List.range 4).find? (fun h => waysFail p.badWays h) = none := by
  rw [List.find?_eq_none]
  intro h hh
  rw [hways h (List.mem_range.mp hh)]
  exact Bool.false_ne_true

theorem proofFirst_of_rail {row h : Nat} (hrail : p.railFail = some (row, h)) :
    proofFirst p s = (proofFail 2 (if row = 7 then h else 0xF) row (railsDown s), false) := by
  unfold proofFirst
  simp only [hrail]

variable (hrail : p.railFail = none)
include hrail

theorem proofFirst_of_unit {h u : Nat} (hunit : p.unitFail = some (h, u)) :
    proofFirst p s = (proofFail 3 h u (if u ≤ 4 then signatureLog 8 h 0 u (64 + 8 * h + u) (bistAll p (risen s))
      else bistAll p (risen s)), false) := by
  unfold proofFirst
  simp only [hrail, hunit]
  rfl

variable (hunit : p.unitFail = none) (hways : ∀ h < 4, waysFail p.badWays h = false)
include hunit hways

theorem proofFirst_of_channel {c : Nat} (hc : (List.range 24).find? (fun c => p.rates.getD c 0 = 0) = some c) :
    proofFirst p s = (proofFail 4 (c / 6) c (bistAll p (risen s)), false) := by
  have hnone := ways_none hways
  unfold proofFirst
  simp only [hrail, hunit, hnone, hc]
  rfl

theorem proofFirst_of_good (hc : (List.range 24).find? (fun c => p.rates.getD c 0 = 0) = none) :
    proofFirst p s = ({ bistAll p (risen s) with
      dev := { (bistAll p (risen s)).dev with stage := 4 }
      mm := { (bistAll p (risen s)).mm with mem := [], poison := [], up := true, rates := p.rates
                                            interleave := (bistAll p (risen s)).regs.interleave } }, true) := by
  have hnone := ways_none hways
  unfold proofFirst
  simp only [hrail, hunit, hnone, hc]
  rfl

end

/-- The first channel that fails. -/
theorem find_channel {rates : List Nat} {c : Nat} (hc : c < 24) (hbad : rates.getD c 0 = 0)
    (hfirst : ∀ d < c, rates.getD d 0 ≠ 0) : (List.range 24).find? (fun c => rates.getD c 0 = 0) = some c := by
  rw [List.find?_range_eq_some]
  refine ⟨by simpa using hbad, List.mem_range.mpr hc, fun d hd => ?_⟩
  simpa using hfirst d hd

/-- Settles O35: each failure by the order of the bring-up at which it is met. -/
theorem proofingFails : Obligations.ProofingFails := by
  intro p s hst hgoes hstage failed
  have hbist := bistAll_bist p (risen s)
  have hbst : (bistAll p (risen s)).dev.st = .proofing := by rw [hbist.dev]; exact hst
  have close {stage hearth unit : Nat} {t : State} (h : ProofFailed stage hearth unit s t) : failed t stage hearth unit :=
    ⟨h.st, h.failed, h.stage, h.reason, h.test, h.sec, h.regs⟩
  refine ⟨fun row h hrail => ?_, fun h u hrail hunit => ?_, fun c hrail hunit hways hc hbad hfirst => ?_, fun row h hup => ?_⟩
  · have hstate := proofingState_stops hst hgoes hstage (proofFirst_of_rail hrail)
    exact ⟨_, congrArg Host.Outcome.next hstate, close (proofFail_failed hst rfl rfl), rfl⟩
  · have hstate := proofingState_stops hst hgoes hstage (proofFirst_of_unit hrail hunit)
    refine ⟨_, congrArg Host.Outcome.next hstate, close (proofFail_failed ?_ ?_ ?_)⟩
    · split
      · rw [signatureLog_field State.dev logAdd_dev (fun _ => rfl)]; exact hbst
      · exact hbst
    · split
      · rw [signatureLog_field State.sec logAdd_sec (fun _ => rfl)]; exact hbist.sec
      · exact hbist.sec
    · split
      · rw [signatureLog_field State.regs logAdd_regs (fun _ => rfl)]; exact hbist.regs
      · exact hbist.regs
  · have hstate := proofingState_stops hst hgoes hstage
      (proofFirst_of_channel hrail hunit hways (find_channel hc hbad hfirst))
    exact ⟨_, congrArg Host.Outcome.next hstate, close (proofFail_failed hbst hbist.sec hbist.regs)⟩
  · have hstate := railTimeout_failed hst hgoes row h hup
    exact ⟨_, congrArg Host.Outcome.next hstate, close (proofFail_failed hst rfl rfl), rfl⟩

end Sys2Proof.Machine
end
section
/-! What the end of a rebuilding or of a training leaves: the fabric, the device's state and events (R299, R303, R306). -/

namespace Sys2Proof.Machine

/-! ## Runs over the ports -/

/-- A run over ports, each of which only its own step changes: the step at a port finds it as it was. -/
theorem foldl_visits {f : State → Nat → State} {R : State → State → Prop} (hrefl : ∀ s, R s s)
    (htrans : ∀ {s t u}, R s t → R t u → R s u) (hstep : ∀ s p, R s (f s p))
    (hother : ∀ s p q, q ≠ p → (f s p).port q = s.port q) {l : List Nat} (hnd : l.Nodup) {q : Nat} (hq : q ∈ l) (s : State) :
    ∃ u, R s u ∧ u.port q = s.port q ∧ (l.foldl f s).port q = (f u q).port q := by
  have hrest {r : List Nat} (hr : q ∉ r) (t : State) : (r.foldl f t).port q = t.port q := by
    induction r generalizing t with
    | nil => rfl
    | cons p r ih =>
      rw [List.mem_cons, not_or] at hr
      exact (ih hr.2 _).trans (hother t p q hr.1)
  induction l generalizing s with
  | nil => exact absurd hq List.not_mem_nil
  | cons p l ih =>
    obtain ⟨hp, hnd⟩ := List.nodup_cons.mp hnd
    by_cases hpq : q = p
    · subst hpq
      exact ⟨s, hrefl s, rfl, hrest hp _⟩
    · obtain ⟨u, hr, hport, hfold⟩ := ih hnd ((List.mem_cons.mp hq).resolve_left hpq) (f s p)
      exact ⟨u, htrans (hstep s p) hr, hport.trans (hother s p q hpq), hfold⟩

/-- Only ports may differ. -/
structure PortsOnly (s t : State) : Prop where
  same : t = { s with fab := { s.fab with ports := t.fab.ports } }

theorem PortsOnly.refl (s : State) : PortsOnly s s := ⟨rfl⟩

theorem PortsOnly.trans {s t u : State} (h : PortsOnly s t) (k : PortsOnly t u) : PortsOnly s u := by
  obtain ⟨hs⟩ := h
  obtain ⟨ks⟩ := k
  constructor
  rw [ks, hs]

theorem portsOnly_setPort (p : Nat) (x : Port) (s : State) : PortsOnly s (setPort p x s) := ⟨rfl⟩

theorem PortsOnly.fold {α : Type} {f : State → α → State} (hf : ∀ s x, PortsOnly s (f s x)) (l : List α) (s : State) :
    PortsOnly s (l.foldl f s) := by
  induction l generalizing s with
  | nil => exact PortsOnly.refl s
  | cons x l ih => exact (hf s x).trans (ih _)

theorem PortsOnly.roleOf {s t : State} (h : PortsOnly s t) (p : Nat) : t.roleOf p = s.roleOf p := by
  rw [h.same]; rfl

/-! ## Beside the fabric -/

/-- The state up to the fabric, the device's state and what is sent and counted. -/
def State.besideFabric (s : State) : State :=
  { s with fab := FabSt.reset, counters := [], tx := [], edp := Edp.reset, dev := { s.dev with st := .off } }

/-- Only the fabric, the device's state, events, messages and counters may differ. -/
structure Rewires (s t : State) : Prop where
  same : t.besideFabric = s.besideFabric

theorem Rewires.refl (s : State) : Rewires s s := ⟨rfl⟩

theorem Rewires.trans {s t u : State} (h : Rewires s t) (k : Rewires t u) : Rewires s u := ⟨k.same.trans h.same⟩

theorem FabricOnly.rewires {s t : State} (h : FabricOnly s t) : Rewires s t := by
  constructor
  rw [h.1]
  rfl

theorem PortsOnly.rewires {s t : State} (h : PortsOnly s t) : Rewires s t := by
  constructor
  rw [h.same]
  rfl

theorem setDev_rewires (d : DevState) (s : State) : Rewires s (setDev d s) := by
  have hshell := congrArg (fun u : State => { u with fab := FabSt.reset, dev := { s.dev with st := .off } }) (setDev_shell d s)
  constructor
  unfold State.besideFabric
  rw [setDev_dev]
  exact hshell

theorem Rewires.fold {α : Type} {f : State → α → State} (hf : ∀ s x, Rewires s (f s x)) (l : List α) (s : State) :
    Rewires s (l.foldl f s) := by
  induction l generalizing s with
  | nil => exact Rewires.refl s
  | cons x l ih => exact (hf s x).trans (ih _)

section
variable {s t : State} (h : Rewires s t)
include h

theorem Rewires.regs : t.regs = s.regs := (congrArg State.regs h.same :)
theorem Rewires.sec : t.sec = s.sec := (congrArg State.sec h.same :)
theorem Rewires.mm : t.mm = s.mm := (congrArg State.mm h.same :)
theorem Rewires.job : t.job = s.job := (congrArg State.job h.same :)
theorem Rewires.recipe : t.recipe = s.recipe := (congrArg State.recipe h.same :)
theorem Rewires.results : t.results = s.results := (congrArg State.results h.same :)
theorem Rewires.pins : t.pins = s.pins := (congrArg State.pins h.same :)
theorem Rewires.gov : t.gov = s.gov := (congrArg State.gov h.same :)
theorem Rewires.cores : t.cores = s.cores := (congrArg State.cores h.same :)
theorem Rewires.leaven : t.leaven = s.leaven := (congrArg State.leaven h.same :)
theorem Rewires.conns : t.conns = s.conns := (congrArg State.conns h.same :)
theorem Rewires.dev : t.dev = { s.dev with st := t.dev.st } := by
  have hdev : ({ t.dev with st := .off } : Dev) = { s.dev with st := .off } := (congrArg State.dev h.same :)
  exact (congrArg (fun d : Dev => { d with st := t.dev.st }) hdev :)

end

theorem rebuilt_rewires (s : State) : Rewires s (rebuilt s) := (rebuilt_only s).rewires

theorem settleFabric_rewires (s : State) : Rewires s (settleFabric s) := by
  rw [settleFabric_eq]
  split
  · exact Rewires.refl s
  · have h := rebuilt_rewires s
    generalize rebuilt s = u at h ⊢
    have hawake : Rewires u { u with fab := { u.fab with waking := false } } := ⟨rfl⟩
    split
    · exact h.trans (hawake.trans (setDev_rewires .ready _))
    · exact h

theorem identityExchangeState_rewires (p : Nat) (id : Identity) (s : State) : Rewires s (identityExchangeState p id s) := by
  unfold identityExchangeState
  dsimp only
  split
  · exact ((fabricOnly_setPort _ _ _).trans (sends_announceOne ..).only).rewires.trans (settleFabric_rewires _)
  · exact Rewires.refl s

theorem retrainAll_rewires (s : State) : Rewires s (retrainAll s) := by
  unfold retrainAll
  exact (PortsOnly.fold (fun _ _ => portsOnly_setPort _ _ _) _ s).rewires

/-! ## Proofing's ports (Table 18.1, orders 7 to 9) -/

/-- A port that trained. -/
def proofTrained (lanes : List Nat) (s : State) (p : Nat) : State :=
  if (s.port p).state = 2 then
    setPort p (if min (lanes.getD p 0) (s.lanesAllowed p) = 0 then { s.port p with state := 1 }
      else { s.port p with lanes := min (lanes.getD p 0) (s.lanesAllowed p), state := 2 }) s
  else s

/-- A port that trained and met no peer is down. -/
def unmetDown (s : State) (p : Nat) : State :=
  if (s.port p).state = 2 then setPort p { s.port p with state := 1 } s else s

/-- The ports found down are announced. -/
def announceDown (s : State) (p : Nat) : State := if (s.port p).state = 1 then announce p false s else s

/-- A peer met. -/
def peerMet (s : State) (x : Nat × Identity) : State :=
  if (s.port x.1).state = 2 then identityExchangeState x.1 x.2 s else s

/-- The fabric as proofing trains it. -/
def proofStart (s : State) : State :=
  retrainAll { applyCoords s with fab := { (applyCoords s).fab with cabling := s.regs.cabling } }

theorem proofFabric_eq (lanes : List Nat) (ids : List (Nat × Identity)) (s : State) :
    proofFabric lanes ids s = (List.range 48).foldl announceDown ((List.range 48).foldl unmetDown
      (ids.foldl peerMet ((List.range 48).foldl (proofTrained lanes) (proofStart s)))) := by
  unfold proofFabric proofStart
  generalize List.range 48 = r
  rfl

theorem proofStart_rewires (s : State) : Rewires s (proofStart s) := by
  have h : Rewires s { applyCoords s with fab := { (applyCoords s).fab with cabling := s.regs.cabling } } := ⟨rfl⟩
  unfold proofStart
  generalize ({ applyCoords s with fab := { (applyCoords s).fab with cabling := s.regs.cabling } } : State) = u at h ⊢
  exact h.trans (retrainAll_rewires u)

theorem unmetDown_ports (s : State) (p : Nat) : PortsOnly s (unmetDown s p) := by
  unfold unmetDown
  split
  · exact portsOnly_setPort _ _ _
  · exact PortsOnly.refl s

theorem proofTrained_ports (lanes : List Nat) (s : State) (p : Nat) : PortsOnly s (proofTrained lanes s p) := by
  unfold proofTrained
  split
  · exact portsOnly_setPort _ _ _
  · exact PortsOnly.refl s

theorem announceDown_sends (s : State) (p : Nat) : Sends s (announceDown s p) := by
  unfold announceDown
  split
  · exact sends_announce _ _ _
  · exact Sends.refl s

theorem peerMet_rewires (s : State) (x : Nat × Identity) : Rewires s (peerMet s x) := by
  unfold peerMet
  split
  · exact identityExchangeState_rewires _ _ _
  · exact Rewires.refl s

theorem proofFabric_rewires (lanes : List Nat) (ids : List (Nat × Identity)) (s : State) :
    Rewires s (proofFabric lanes ids s) := by
  rw [proofFabric_eq]
  generalize List.range 48 = r
  have htrained := (PortsOnly.fold (proofTrained_ports lanes) r (proofStart s)).rewires
  have hmet := Rewires.fold peerMet_rewires ids (r.foldl (proofTrained lanes) (proofStart s))
  have hunmet := (PortsOnly.fold unmetDown_ports r (ids.foldl peerMet (r.foldl (proofTrained lanes) (proofStart s)))).rewires
  have hann := (sends_fold _ announceDown_sends r
    (r.foldl unmetDown (ids.foldl peerMet (r.foldl (proofTrained lanes) (proofStart s))))).only.rewires
  exact (proofStart_rewires s).trans (htrained.trans (hmet.trans (hunmet.trans hann)))

/-- No port is still training when the fabric has been proved. -/
theorem proofFabric_settled (lanes : List Nat) (ids : List (Nat × Identity)) (s : State) {q : Nat} (hq : q < 48) :
    ((proofFabric lanes ids s).port q).state ≠ 2 := by
  rw [proofFabric_eq]
  generalize ids.foldl peerMet _ = u
  have hother (s : State) (p r : Nat) (hr : r ≠ p) : (unmetDown s p).port r = s.port r := by
    unfold unmetDown
    split
    · exact (setPort_port ..).trans (if_neg (Ne.symm hr))
    · rfl
  obtain ⟨w, _, _, hvisit⟩ := foldl_visits PortsOnly.refl PortsOnly.trans unmetDown_ports hother List.nodup_range
    (List.mem_range.mpr hq) u
  have hdown := congrArg Port.state hvisit
  generalize (List.range 48).foldl unmetDown u = v at hdown ⊢
  obtain ⟨hstate, _⟩ := (sends_fold _ announceDown_sends (List.range 48) v).onward.lanes q
  refine ne_of_eq_of_ne (hstate.trans hdown) ?_
  unfold unmetDown
  split
  · rw [setPort_port_same]; simp
  · assumption

end Sys2Proof.Machine
end
section
/-! A proofing that passes (R16, R395, R403, R419). -/

namespace Sys2Proof.Machine

/-- The fabric, once the host ports stand; a diagnostic recipe is unloaded (R406). -/
def proofEnd (p : ProofInput) (s : State) : State :=
  let u := proofFabric p.lanes p.ids (setHostUp p.hostUp s)
  if u.isDiag then unload (setJob .idle 0 u) else u

theorem proofLast_eq (p : ProofInput) (s : State) : proofLast p s = enterReady (proofEnd p s) := rfl

/-- Blocks of one length, one after another. -/
theorem flatMap_range_getD {α : Type} (f : Nat → List α) (d : α) {n : Nat} (hlen : ∀ k, (f k).length = n) {m h c : Nat}
    (hh : h < m) (hc : c < n) : ((List.range m).flatMap f).getD (n * h + c) d = (f h).getD c d := by
  have hall (m : Nat) : ((List.range m).flatMap f).length = n * m := by
    rw [List.length_flatMap, List.map_congr_left (fun k _ => hlen k)]
    simp [Nat.mul_comm]
  induction m with
  | zero => omega
  | succ m ih =>
    rw [List.range_succ, List.flatMap_append, List.flatMap_singleton]
    by_cases hm : h = m
    · subst hm
      rw [List.getD_append_right _ _ _ _ (by rw [hall]; omega), hall, Nat.add_sub_cancel_left]
    · have hlt : h < m := by omega
      have hmul : n * (h + 1) ≤ n * m := Nat.mul_le_mul_left n hlt
      rw [List.getD_append _ _ _ _ (by rw [hall]; rw [Nat.mul_add] at hmul; omega)]
      exact ih hlt

/-- The map of a logical core: the lowest healthy physical cores of its hearth, in order (R16). -/
theorem bistMap_getD (bad : List Nat) {h c : Nat} (hh : h < 4) (hc : c < 96) :
    ((List.range 4).flatMap (hearthMap bad)).getD (96 * h + c) 0 = (healthy bad h).getD c 0xFF := by
  have hlen (k : Nat) : (hearthMap bad k).length = 96 := by simp [hearthMap]
  rw [flatMap_range_getD (hearthMap bad) 0 hlen hh hc, hearthMap, List.getD_eq_getElem?_getD, List.getElem?_map,
    List.getElem?_range hc]
  rfl

section
variable (p : ProofInput) (s : State)

/-- What the end of proofing leaves alone. -/
structure Ends (s t : State) : Prop where
  regs : t.regs = s.regs
  sec : t.sec = s.sec
  mem : t.mm.mem = s.mm.mem ∧ t.mm.up = s.mm.up
  dev : t.dev = { s.dev with st := t.dev.st, hostUp := t.dev.hostUp }

theorem proofEnd_ends : Ends s (proofEnd p s) := by
  have h := proofFabric_rewires p.lanes p.ids (setHostUp p.hostUp s)
  unfold proofEnd
  generalize proofFabric p.lanes p.ids (setHostUp p.hostUp s) = u at h ⊢
  have hdev := h.dev
  have hends : Ends s u := ⟨h.regs, h.sec, by rw [h.mm]; exact ⟨rfl, rfl⟩, by rw [hdev]; rfl⟩
  dsimp only
  split
  · have hregs := setJob_regs .idle 0 u
    have hsec := setJob_sec .idle 0 u
    have hmm := setJob_mm .idle 0 u
    have hjdev := setJob_dev .idle 0 u
    generalize setJob .idle 0 u = w at *
    obtain ⟨hr, hs, hm, hd⟩ := hends
    rw [← hmm] at hm
    rw [hd] at hjdev
    refine ⟨hregs.trans hr, hsec.trans hs, hm, ?_⟩
    have hunload : (unload w).dev = w.dev := rfl
    rw [hunload, hjdev]
  · exact hends

theorem proofEnd_settled {q : Nat} (hq : q < 48) : ((proofEnd p s).port q).state ≠ 2 := by
  have h := proofFabric_settled p.lanes p.ids (setHostUp p.hostUp s) hq
  unfold proofEnd
  generalize proofFabric p.lanes p.ids (setHostUp p.hostUp s) = u at h ⊢
  dsimp only
  split
  · have hfab := setJob_fab .idle 0 u
    have hport : (unload (setJob .idle 0 u)).port q = u.port q := congrArg (fun f : FabSt => tget Port.reset f.ports q) hfab
    rw [hport]; exact h
  · exact h

end

theorem enterReady_fields (s : State) :
    (enterReady s).dev = { s.dev with st := .ready, stage := 7, reason := 0, test := { SelfTest.idle with state := 3 } }
    ∧ (enterReady s).gov = { s.gov with vcore := [550, 550, 550, 550] } ∧ (enterReady s).mm = s.mm
    ∧ (enterReady s).sec = { s.sec with floor := max s.sec.floor s.dev.runningSvn } ∧ (enterReady s).regs = s.regs
    ∧ (enterReady s).fab = s.fab := by
  unfold enterReady
  rw [setDev_dev, setDev_gov, setDev_mm, setDev_sec, setDev_regs, setDev_fab]
  exact ⟨rfl, rfl, rfl, rfl, rfl, rfl⟩

/-- Settles O34: READY with the core map of the healthy cores, main memory zero and the floor raised. -/
theorem proofingPasses : Obligations.ProofingPasses := by
  intro p s hst hgoes hstage hrail hunit hways hrates
  have hbist := bistAll_bist p (risen s)
  have hgood : (List.range 24).find? (fun c => p.rates.getD c 0 = 0) = none := by
    rw [List.find?_eq_none]
    intro c hc
    simpa using hrates c (List.mem_range.mp hc)
  have hstate := proofingState_goesOn hst hgoes hstage (proofFirst_of_good hrail hunit hways hgood)
  rw [proofLast_eq] at hstate
  have hmap (h : Nat) (hh : h < 4) (c : Nat) (hc : c < 96) :
      (bistAll p (risen s)).dev.map.getD (96 * h + c) 0 = (healthy (p.badCores.map (·.1)) h).getD c 0xFF := by
    rw [hbist.dev]
    exact bistMap_getD _ hh hc
  have hsvn : (bistAll p (risen s)).dev.runningSvn = s.dev.runningSvn := by rw [hbist.dev]; rfl
  have hup : (bistAll p (risen s)).dev.mainUp = true := by rw [hbist.dev]; rfl
  have hsec : (bistAll p (risen s)).sec = s.sec := hbist.sec
  have hregs : (bistAll p (risen s)).regs = s.regs := hbist.regs
  generalize bistAll p (risen s) = u at hstate hmap hsvn hup hsec hregs
  have hends := proofEnd_ends p { u with
    dev := { u.dev with stage := 4 }
    mm := { u.mm with mem := [], poison := [], up := true, rates := p.rates, interleave := u.regs.interleave } }
  have hports {q : Nat} (hq : q < 48) := proofEnd_settled p { u with
    dev := { u.dev with stage := 4 }
    mm := { u.mm with mem := [], poison := [], up := true, rates := p.rates, interleave := u.regs.interleave } } hq
  generalize proofEnd p { u with
    dev := { u.dev with stage := 4 }
    mm := { u.mm with mem := [], poison := [], up := true, rates := p.rates, interleave := u.regs.interleave } } = w
    at hstate hends hports
  obtain ⟨hr, hs, ⟨hmem, hmup⟩, hd⟩ := hends
  obtain ⟨hdev, hgov, hmm, hsec', hregs', hfab⟩ := enterReady_fields w
  refine ⟨_, congrArg Host.Outcome.next hstate, ?_, ?_, ?_, ?_, ?_, ?_, ?_, ?_, ?_, ?_, ?_, ?_⟩
  · rw [hdev]
  · rw [hdev]
  · rw [hdev]
  · rw [hdev]
  · rw [hdev, hd]; exact hup
  · rw [hgov]
  · rw [hmm]; exact hmem
  · rw [hmm]; exact hmup
  · rw [hsec', hs, hd, hsec]
    dsimp only
    rw [hsvn]
  · rw [hregs', hr, hregs]
  · intro h hh c hc
    rw [hdev, hd]
    exact hmap h hh c hc
  · intro q hq
    have hport : (enterReady w).port q = w.port q := congrArg (fun f : FabSt => tget Port.reset f.ports q) hfab
    rw [hport]
    exact hports hq

end Sys2Proof.Machine
end
section
/-! SLEEP and wake (R35, R104, R307, R369, R402, Tables 12.8 and 17.9). -/

namespace Sys2Proof.Machine

theorem port_of_fab {s t : State} (h : t.fab = s.fab) (p : Nat) : t.port p = s.port p := by
  rw [State.port, State.port, h]

/-! ## SLEEP -/

/-- No line stays in a pantry. -/
theorem emptyPantries_ways {s : State} {k : Nat} {w : PSet} (h : (k, w) ∈ (emptyPantries s).mm.pantry) : w.ways = [] := by
  obtain ⟨⟨i, x⟩, _, hx⟩ := List.mem_filterMap.mp h
  dsimp only at hx
  split at hx
  · exact absurd hx (by simp)
  · rw [Option.some.injEq, Prod.mk.injEq] at hx
    rw [← hx.2]
    rfl

/-- A port as SLEEP leaves it. -/
def asleep (x : Port) : Port :=
  if x.usable || x.state = 6 || x.state = 7 then { x with state := 5, lanes := 1, hushing := none } else { x with hushing := none }

/-- The step of SLEEP over the ports. -/
def sleepPort (s : State) (p : Nat) : State := setPort p (asleep (s.port p)) s

theorem fabSleep_eq (s : State) : fabSleep s = (List.range 48).foldl sleepPort s := by
  have hstep : (fun (s : State) p =>
      let x := s.port p
      if x.usable || x.state = 6 || x.state = 7 then setPort p { x with state := 5, lanes := 1, hushing := none } s
      else setPort p { x with hushing := none } s) = sleepPort := by
    funext s p
    unfold sleepPort asleep
    dsimp only
    split <;> rfl
  unfold fabSleep
  rw [hstep]

theorem fabSleep_ports (s : State) : PortsOnly s (fabSleep s) := by
  rw [fabSleep_eq]
  exact PortsOnly.fold (fun _ _ => portsOnly_setPort _ _ _) _ s

theorem fabSleep_port (s : State) {p : Nat} (hp : p < 48) : (fabSleep s).port p = asleep (s.port p) := by
  have hother (s : State) (p q : Nat) (hq : q ≠ p) : (sleepPort s p).port q = s.port q :=
    (setPort_port ..).trans (if_neg (Ne.symm hq))
  obtain ⟨u, _, hport, hfold⟩ := foldl_visits (f := sleepPort) PortsOnly.refl PortsOnly.trans
    (fun _ _ => portsOnly_setPort _ _ _) hother List.nodup_range (List.mem_range.mpr hp) s
  rw [fabSleep_eq, hfold, sleepPort, setPort_port_same, hport]

theorem asleep_of_wired {x : Port} (h : x.state = 3 ∨ x.state = 4 ∨ x.state = 6 ∨ x.state = 7) :
    (asleep x).state = 5 ∧ (asleep x).lanes = 1 := by
  have hw : (x.usable || decide (x.state = 6) || decide (x.state = 7)) = true := by
    rcases h with e | e | e | e <;> simp [Port.usable, e]
  unfold asleep
  rw [if_pos hw]
  exact ⟨rfl, rfl⟩

/-- A device whose power and pantries SLEEP takes away. -/
def darkened (s : State) : State :=
  setVcore 0 { hostPortsDown (loseSram (emptyPantries s)) with
    mm := { (hostPortsDown (loseSram (emptyPantries s))).mm with up := false } }

theorem darkened_values (s : State) : (darkened s).regs = s.regs ∧ (darkened s).sec = s.sec ∧ (darkened s).recipe = s.recipe
    ∧ (darkened s).results = s.results ∧ (darkened s).job = s.job ∧ (darkened s).pins = s.pins ∧ (darkened s).fab = s.fab := by
  unfold darkened setVcore hostPortsDown setHostUp loseSram emptyPantries
  exact ⟨rfl, rfl, rfl, rfl, rfl, rfl, rfl⟩

theorem sleepState_eq (s : State) :
    sleepState s = logPlain 0 [6] (setDev .sleep (fabSleep (darkened (hushAll 2000 s)))) := rfl

/-- What SLEEP leaves (Table 17.9). -/
structure Sleeps (s u : State) : Prop where
  dev : u.dev = { s.dev with st := .sleep, hostUp := [false, false] }
  gov : u.gov = { s.gov with vcore := [0, 0, 0, 0] }
  mm : u.mm.up = false ∧ u.mm.mem = s.mm.mem ∧ u.mm.pages = s.mm.pages ∧ (∀ k w, (k, w) ∈ u.mm.pantry → w.ways = [])
  sram : u.cores = [] ∧ u.leaven.starters = [] ∧ u.conns = []
  ports : ∀ p < 48, (s.port p).state = 3 ∨ (s.port p).state = 4 ∨ (s.port p).state = 6 ∨ (s.port p).state = 7 →
    (u.port p).state = 5 ∧ (u.port p).lanes = 1
  values : u.regs = s.regs ∧ u.sec = s.sec ∧ u.recipe = s.recipe ∧ u.results = s.results
  job : u.job.st = s.job.st ∧ u.job.committed = s.job.committed
  pins : u.pins = s.pins

theorem darkened_sleeps (s : State) : Sleeps s (setDev .sleep (fabSleep (darkened (hushAll 2000 s)))) := by
  have honly := hushAll_only 2000 s
  have hlanes := (hushAll_works 2000 s).onward.lanes
  generalize hushAll 2000 s = v at honly hlanes ⊢
  have hports := fabSleep_ports (darkened v)
  have hport {p : Nat} (hp : p < 48) := fabSleep_port (darkened v) hp
  generalize fabSleep (darkened v) = w at hports hport ⊢
  have hv := honly.rewires
  have hw := hports.rewires
  have hdev : v.dev = s.dev := by rw [honly.1]
  obtain ⟨hregs, hsec, hrecipe, hresults, hjob, hpins, hfab⟩ := darkened_values v
  constructor
  case dev =>
    have hdark : (darkened v).dev = { v.dev with hostUp := [false, false] } := rfl
    have hst : w.dev = (darkened v).dev := by rw [hports.same]
    rw [setDev_dev, hst, hdark, hdev]
  case gov =>
    have hdark : (darkened v).gov = { v.gov with vcore := [0, 0, 0, 0] } := rfl
    rw [setDev_gov, hw.gov, hdark, hv.gov]
  case mm =>
    have hmem : (darkened v).mm.mem = v.mm.mem := rfl
    have hpages : (darkened v).mm.pages = v.mm.pages := rfl
    rw [setDev_mm, hw.mm, hmem, hpages, hv.mm]
    exact ⟨rfl, rfl, rfl, fun k x hx => emptyPantries_ways (s := v) hx⟩
  case sram =>
    rw [setDev_cores, setDev_leaven, setDev_conns, hw.cores, hw.leaven, hw.conns]
    exact ⟨rfl, rfl, rfl⟩
  case ports =>
    intro p hp hst
    have hset : (setDev .sleep w).port p = w.port p := port_of_fab (setDev_fab .sleep w) p
    have hdark : (darkened v).port p = v.port p := port_of_fab hfab p
    rw [hset, hport hp, hdark]
    refine asleep_of_wired ?_
    rw [(hlanes p).1]
    exact hst
  case values =>
    rw [setDev_regs, setDev_sec, setDev_recipe, setDev_results, hw.regs, hw.sec, hw.recipe, hw.results,
      hregs, hsec, hrecipe, hresults]
    exact ⟨hv.regs, hv.sec, hv.recipe, hv.results⟩
  case job =>
    rw [setDev_job, hw.job, hjob, hv.job]
    exact ⟨rfl, rfl⟩
  case pins =>
    rw [setDev_pins, hw.pins, hpins]
    exact hv.pins

theorem Sleeps.logged {s u : State} (h : Sleeps s u) (c : Nat) (d : List Nat) : Sleeps s (logPlain c d u) := by
  have hjob := logAdd_job c 8 0xFF 0 0xFFFF d u
  have hcommitted : (logPlain c d u).job.committed = u.job.committed := (congrArg Job.committed hjob :)
  have hst : (logPlain c d u).job.st = u.job.st := (congrArg Job.st hjob :)
  obtain ⟨hdev, hgov, hmm, hsram, hports, hvalues, ⟨hjst, hjc⟩, hpins⟩ := h
  constructor
  case dev => rw [logPlain_dev]; exact hdev
  case gov => rw [logPlain_gov]; exact hgov
  case mm => rw [logPlain_mm]; exact hmm
  case sram => rw [logPlain_cores, logPlain_leaven, logPlain_conns]; exact hsram
  case ports =>
    intro p hp hst
    have hfab : (logPlain c d u).port p = u.port p := port_of_fab (logPlain_fab c d u) p
    rw [hfab]
    exact hports p hp hst
  case values => rw [logPlain_regs, logPlain_sec, logPlain_recipe, logPlain_results]; exact hvalues
  case job => exact ⟨hst.trans hjst, hcommitted.trans hjc⟩
  case pins => rw [logPlain_pins]; exact hpins

theorem sleepState_sleeps (s : State) : Sleeps s (sleepState s) ∧ Logged 0 [6] s (sleepState s) := by
  have h := darkened_sleeps s
  rw [sleepState_eq]
  generalize setDev .sleep (fabSleep (darkened (hushAll 2000 s))) = u at h
  exact ⟨h.logged 0 [6], (logPlain_logged 0 [6] u).congr h.values.1.symm rfl⟩

theorem sleepKeepsMainMemory : Claims.SleepKeepsMainMemory := by
  intro h x s w
  refine ⟨fun hst hlive h1 h2 => ?_, fun hno => ?_⟩
  · have hcommand : sleepCommand (atRequest h x s) = (OK, sleepState (atRequest h x s)) := by
      have hmay : ((atRequest h x s).dev.st = .ready && !(atRequest h x s).job.st.live && (atRequest h x s).dev.test.state != 1
          && (atRequest h x s).dev.test.state != 2) = true := by
        have hd : (atRequest h x s).dev = s.dev := rfl
        have hj : (atRequest h x s).job = s.job := rfl
        simp [hd, hj, hst, hlive, h1, h2]
      exact if_pos hmay
    obtain ⟨hack, hleaves⟩ := powerCommand_post (v := 1) (by omega) sleepCommand w hcommand
    obtain ⟨hsleeps, hlogged⟩ := sleepState_sleeps (atRequest h x s)
    obtain ⟨hdev, hgov, ⟨hup, hmem, hpages, hways⟩, ⟨hcores, hstarters, hconns⟩, hports, ⟨hregs, hsec, hrecipe, hresults⟩,
      ⟨hjst, hcommitted⟩, hpins⟩ := hsleeps
    exact ⟨_, _, rfl, hack, hleaves, hdev, hgov, hup, hmem, hpages, hways, hcores, hstarters, hconns, hports,
      hlogged.congr rfl rfl, hregs, hsec, hrecipe, hresults, hjst, hcommitted, hpins⟩
  · have hcommand : sleepCommand (atRequest h x s) = (BUSY, atRequest h x s) := by
      have hmay : ¬ ((atRequest h x s).dev.st = .ready && !(atRequest h x s).job.st.live && (atRequest h x s).dev.test.state != 1
          && (atRequest h x s).dev.test.state != 2) = true := by
        have hd : (atRequest h x s).dev = s.dev := rfl
        have hj : (atRequest h x s).job = s.job := rfl
        rw [hd, hj]
        rcases hno with e | e | e | e <;> simp [e]
      exact if_neg hmay
    obtain ⟨hack, hleaves⟩ := powerCommand_refused (v := 1) (by omega) sleepCommand w hcommand
    exact ⟨_, rfl, hack, hleaves⟩

end Sys2Proof.Machine
end
section
/-! Wake (R307, R310, R402, Table 12.8). -/

namespace Sys2Proof.Machine

/-! ## The fabric's wiring -/

/-- Coordinates, sizes, substitutions and flags of the fabric: what its ports and packets leave alone. -/
def FabSt.wiring (f : FabSt) : FabSt :=
  { f with ports := [], tokens := 0, tokenUs := 0, inject := [], delivered := [], counted := [] }

theorem Sends.wiring {s t : State} (h : Sends s t) : t.fab.wiring = s.fab.wiring := by
  rw [h.fab]; rfl

theorem PortsOnly.wiring {s t : State} (h : PortsOnly s t) : t.fab.wiring = s.fab.wiring := by
  rw [h.same]; rfl

theorem roleOf_of_wiring {s t : State} (h : t.fab.wiring = s.fab.wiring) (p : Nat) : t.roleOf p = s.roleOf p := by
  have hsubst : t.fab.subst = s.fab.subst := (congrArg FabSt.subst h :)
  have hy : t.fab.nY = s.fab.nY := (congrArg FabSt.nY h :)
  have hz : t.fab.nZ = s.fab.nZ := (congrArg FabSt.nZ h :)
  unfold State.roleOf State.placeOf State.dimSize
  rw [hsubst, hy, hz]

theorem cutPieces_fab (hit : Nat → Bool) (s : State) : (cutPieces hit s).fab = s.fab := by
  unfold cutPieces
  refine foldl_field State.fab (fun s x => ?_) s.probIdx s
  dsimp only
  split <;> rfl

theorem hushAll_wiring (us : Nat) (s : State) : (hushAll us s).fab.wiring = s.fab.wiring := by
  unfold hushAll
  refine foldl_field (fun s : State => s.fab.wiring) (fun s x => ?_) (List.range 48) s
  dsimp only
  split <;> rfl

/-! ## A halt in a device that sleeps -/

theorem Clears.dev {s t : State} (h : Clears s t) : t.dev = s.dev := (congrArg State.dev h.same :)
theorem Clears.results {s t : State} (h : Clears s t) : t.results = s.results := (congrArg State.results h.same :)
theorem retirePages_results (s : State) : (retirePages s).results = s.results := by unfold retirePages; split <;> rfl

theorem clearAttempt_wiring (s : State) : (clearAttempt s).fab.wiring = s.fab.wiring := rfl
theorem clearAttempt_up (s : State) : (clearAttempt s).mm.up = s.mm.up := rfl
theorem retirePages_up (s : State) : (retirePages s).mm.up = s.mm.up := by unfold retirePages; split <;> rfl
theorem retirePages_fab (s : State) : (retirePages s).fab = s.fab := by unfold retirePages; split <;> rfl
theorem retirePages_dev (s : State) : (retirePages s).dev = s.dev := by unfold retirePages; split <;> rfl

section
variable (code : Nat) (s : State)

theorem clearedForHalt_up : (clearedForHalt code s).mm.up = s.mm.up := by
  have hsend : (bump 0x7200 0x0D 1 32 (sendMembers kHALT (s.msg code s.devId false) s)).mm = s.mm :=
    (sendMembers_sends _ _ s).only.mm
  unfold clearedForHalt
  rw [(hushAll_only _ _).mm, cutPieces_mm, clearAttempt_up, hsend]

theorem clearedForHalt_wiring : (clearedForHalt code s).fab.wiring = s.fab.wiring := by
  have hsend : (bump 0x7200 0x0D 1 32 (sendMembers kHALT (s.msg code s.devId false) s)).fab.wiring = s.fab.wiring :=
    (sendMembers_sends _ _ s).wiring
  unfold clearedForHalt
  rw [hushAll_wiring, cutPieces_fab, clearAttempt_wiring, hsend]

theorem clearedForHalt_dev : (clearedForHalt code s).dev = s.dev := (clearedForHalt_clears code s).dev

/-- A device that is neither READY nor ACTIVE does not follow its job. -/
theorem setJob_dev_of_sleep {j : JobState} {s : State} (h : s.dev.st = .sleep) : (setJob j code s).dev = s.dev := by
  unfold setJob
  split
  · rfl
  · unfold followJob
    rw [if_neg (by simp [raiseEvent_dev, jobRecord, h]), if_neg (by simp [raiseEvent_dev, jobRecord, h]), raiseEvent_dev]
    rfl

/-- What a halt leaves of power, memory and fabric. -/
structure HaltsAsleep (s t : State) : Prop where
  dev : t.dev = s.dev
  up : t.mm.up = s.mm.up
  mem : t.mm.mem = s.mm.mem
  wiring : t.fab.wiring = s.fab.wiring
  vcore : t.gov.vcore = [550, 550, 550, 550]
  results : t.results = s.results

variable {code s}

theorem haltCleared_asleep {u : State} (hst : u.dev.st = .sleep) : HaltsAsleep u (haltCleared code u) := by
  have hdev := setJob_dev_of_sleep code (j := .halted) (s := haltReady u) hst
  have hmm := setJob_mm .halted code (haltReady u)
  have hfab := setJob_fab .halted code (haltReady u)
  have hresults := setJob_results .halted code (haltReady u)
  unfold haltCleared
  generalize setJob .halted code (haltReady u) = w at *
  have hup := (retirePages_up w).trans (congrArg MemSt.up hmm)
  have hmem := (retirePages_mem w).trans (congrArg MemSt.mem hmm)
  have hwiring := congrArg FabSt.wiring ((retirePages_fab w).trans hfab)
  exact ⟨(retirePages_dev w).trans hdev, hup, hmem, hwiring, rfl, (retirePages_results w).trans hresults⟩

theorem haltNow_asleep (h : s.job.st.live = true ∨ s.job.st = .loaded) (hst : s.dev.st = .sleep) :
    HaltsAsleep s (haltNow code s) := by
  have hdev := clearedForHalt_dev code s
  have hup := clearedForHalt_up code s
  have hmem := clearedForHalt_mem code s
  have hwiring := clearedForHalt_wiring code s
  have hresults := (clearedForHalt_clears code s).results
  rw [haltNow_eq h]
  generalize clearedForHalt code s = u at *
  have hh := haltCleared_asleep (code := code) (u := u) (by rw [hdev]; exact hst)
  exact ⟨hh.dev.trans hdev, hh.up.trans hup, hh.mem.trans hmem, hh.wiring.trans hwiring, hh.vcore, hh.results.trans hresults⟩

end

/-! ## On-chip memories written again -/

/-- The state up to what the steward writes again. -/
def State.besideSram (s : State) : State := { s with cores := [], leaven := LeavenSt.reset }

theorem setStarter_besideSram (p : Prob) (slot : Nat) (s : State) : (setStarter p slot s).besideSram = s.besideSram := by
  unfold setStarter
  split <;> rfl

theorem rebuildStarters_besideSram (s : State) : (rebuildStarters s).besideSram = s.besideSram := by
  refine foldl_field State.besideSram (fun s p => ?_) s.probs { s with leaven := { s.leaven with starters := [], lostStarters := [] } }
  dsimp only
  split
  · exact setStarter_besideSram ..
  · rfl

theorem writeDescMem_besideSram (s : State) : (writeDescMem s).besideSram = s.besideSram := by
  unfold writeDescMem
  refine foldl_field State.besideSram (fun s n => ?_) _ s
  rfl

/-- What the steward writes again leaves of the rest; a damaged container halts the job (R310). -/
structure Restores (s t : State) : Prop where
  dev : t.dev = s.dev
  up : t.mm.up = s.mm.up
  mem : t.mm.mem = s.mm.mem
  wiring : t.fab.wiring = s.fab.wiring
  vcore : s.gov.vcore = [550, 550, 550, 550] → t.gov.vcore = [550, 550, 550, 550]
  values : t.regs = s.regs ∧ t.sec = s.sec ∧ t.recipe = s.recipe ∧ t.results = s.results
  committed : t.job.committed = s.job.committed
  sound : s.recipe.damaged = false ∨ s.recipe.loaded = none → t.job.st = s.job.st
  halted : s.recipe.damaged = true → s.recipe.loaded.isSome = true → s.job.st = .loaded →
    t.job.st = .halted ∧ t.job.haltCode = ECC_UNCORRECTABLE

theorem Restores.of_sound {s t : State} (ht : t.besideSram = s.besideSram)
    (h : s.recipe.damaged = false ∨ s.recipe.loaded = none) : Restores s t := by
  have hmm : t.mm = s.mm := (congrArg State.mm ht :)
  have hfab : t.fab = s.fab := (congrArg State.fab ht :)
  have hgov : t.gov = s.gov := (congrArg State.gov ht :)
  have hjob : t.job = s.job := (congrArg State.job ht :)
  refine ⟨(congrArg State.dev ht :), by rw [hmm], by rw [hmm], by rw [hfab], fun hv => by rw [hgov]; exact hv,
    ⟨(congrArg State.regs ht :), (congrArg State.sec ht :), (congrArg State.recipe ht :), (congrArg State.results ht :)⟩,
    by rw [hjob], fun _ => by rw [hjob], fun hd hl => ?_⟩
  rcases h with e | e
  · exact absurd (hd.symm.trans e) (by decide)
  · rw [e] at hl; exact absurd hl (by decide)

theorem haltNow_restores {s : State} (hst : s.dev.st = .sleep) (hd : s.recipe.damaged = true)
    (hl : s.recipe.loaded.isSome = true) : Restores s (haltNow ECC_UNCORRECTABLE s) := by
  have hno : ¬ (s.recipe.damaged = false ∨ s.recipe.loaded = none) := by
    rintro (e | e)
    · exact absurd (hd.symm.trans e) (by decide)
    · rw [e] at hl; exact absurd hl (by decide)
  by_cases h : s.job.st.live = true ∨ s.job.st = .loaded
  · have hh := haltNow_asleep (code := ECC_UNCORRECTABLE) h hst
    have hended := haltNow_ended ECC_UNCORRECTABLE s
    obtain ⟨hhalted, hcode, _⟩ := haltNow_halted (code := ECC_UNCORRECTABLE) h
    exact ⟨hh.dev, hh.up, hh.mem, hh.wiring, fun _ => hh.vcore, ⟨hended.regs, hended.sec, hended.recipe, hended.results⟩,
      hended.committed, fun e => absurd e hno, fun _ _ _ => ⟨hhalted, hcode⟩⟩
  · obtain ⟨hlive, hloaded⟩ := not_or.mp h
    have hstay : haltNow ECC_UNCORRECTABLE s = s := by
      unfold haltNow
      rw [if_pos (by simp [hlive, hloaded])]
    rw [hstay]
    exact ⟨rfl, rfl, rfl, rfl, id, ⟨rfl, rfl, rfl, rfl⟩, rfl, fun _ => rfl, fun _ _ e => absurd e hloaded⟩

theorem restoreSram_restores {s : State} (hst : s.dev.st = .sleep) : Restores s (restoreSram s) := by
  unfold restoreSram
  split
  · next h => exact Restores.of_sound rfl (.inr (Option.isNone_iff_eq_none.mp h))
  · next h =>
    split
    · next hd => exact haltNow_restores hst hd (by simpa [Option.isSome_iff_ne_none] using h)
    · next hd =>
      exact Restores.of_sound ((writeDescMem_besideSram _).trans (rebuildStarters_besideSram s)) (.inl (by simpa using hd))

/-! ## The ports -/

/-- The step of a wake over the ports: wired ports retrain and meet their peer again. -/
def wakePort (s : State) (p : Nat) : State :=
  if (s.roleOf p).isSome then setPort p { s.port p with state := 2, lanes := 0, peerDev := 0xFFFF, peerPort := 0xFF } s else s

/-- The wired ports retrain; the wake is under way. -/
def wakePorts (s : State) : State :=
  { (List.range 48).foldl wakePort s with fab := { ((List.range 48).foldl wakePort s).fab with waking := true } }

theorem fabWake_eq (s : State) : fabWake s = settleFabric (wakePorts s) := by
  unfold fabWake wakePorts
  generalize List.range 48 = r
  rfl

theorem wakePort_ports (s : State) (p : Nat) : PortsOnly s (wakePort s p) := by
  unfold wakePort
  split
  · exact portsOnly_setPort _ _ _
  · exact PortsOnly.refl s

theorem wakePorts_rewires (s : State) : Rewires s (wakePorts s) := by
  have h := (PortsOnly.fold wakePort_ports (List.range 48) s).rewires
  unfold wakePorts
  generalize (List.range 48).foldl wakePort s = u at h ⊢
  exact h.trans ⟨rfl⟩

theorem wakePorts_dev (s : State) : (wakePorts s).dev.st = s.dev.st := by
  have h := PortsOnly.fold wakePort_ports (List.range 48) s
  unfold wakePorts
  generalize (List.range 48).foldl wakePort s = u at h ⊢
  rw [h.same]

theorem wakePorts_port {s : State} {p : Nat} (hp : p < 48) (hrole : (s.roleOf p).isSome = true) :
    ((wakePorts s).port p).state = 2 ∧ ((wakePorts s).port p).lanes = 0 := by
  have hother (s : State) (p q : Nat) (hq : q ≠ p) : (wakePort s p).port q = s.port q := by
    unfold wakePort
    split
    · exact (setPort_port ..).trans (if_neg (Ne.symm hq))
    · rfl
  obtain ⟨u, hports, hport, hfold⟩ := foldl_visits PortsOnly.refl PortsOnly.trans wakePort_ports hother List.nodup_range
    (List.mem_range.mpr hp) s
  have hwired : (u.roleOf p).isSome = true := by rw [hports.roleOf]; exact hrole
  have hwake : ((List.range 48).foldl wakePort s).port p = { u.port p with state := 2, lanes := 0, peerDev := 0xFFFF, peerPort := 0xFF } := by
    rw [hfold, wakePort, if_pos hwired, setPort_port_same]
  unfold wakePorts
  generalize (List.range 48).foldl wakePort s = w at hwake ⊢
  have hsame : State.port { w with fab := { w.fab with waking := true } } p = w.port p := rfl
  rw [hsame, hwake]
  exact ⟨rfl, rfl⟩

/-- Whether a port still trains is not changed by sending. -/
theorem portsTrain_congr {s t : State} (h : ∀ p, (t.port p).state = (s.port p).state) : t.portsTrain = s.portsTrain := by
  unfold State.portsTrain
  simp only [h]

/-- A wake that settles: it is under way while a port trains, and READY once none does (Table 12.8, order 5). -/
theorem settleFabric_waking {s : State} (h : s.fab.waking = true) (hst : s.dev.st = .sleep) :
    (settleFabric s).fab.waking = (settleFabric s).portsTrain
    ∧ (settleFabric s).dev.st = if (settleFabric s).portsTrain then .sleep else .ready := by
  have htrain : (settleFabric s).portsTrain = s.portsTrain := portsTrain_congr fun p => (settleFabric_lanes s p).1
  rw [htrain]
  by_cases hp : s.portsTrain = true
  · have hstay : settleFabric s = s := by rw [settleFabric_eq, if_pos hp]
    rw [hstay, hp]
    exact ⟨h, hst⟩
  · rw [Bool.not_eq_true] at hp
    rw [hp]
    refine ⟨?_, settleFabric_of_woken h hp⟩
    rw [settleFabric_eq, if_neg (by simp [hp]), rebuilt_waking, if_pos h, setDev_fab]

/-! ## The wake -/

theorem wakeState_eq {s : State} (hst : s.dev.st = .sleep) (hw : s.fab.waking = false) :
    wakeState s = settleFabric (wakePorts (restoreSram (setVcore 550 { s with mm := { s.mm with up := true } }))) := by
  unfold wakeState
  rw [if_pos (by simp [hst, hw]), fabWake_eq]

theorem wakeState_begun {s : State} (hst : s.dev.st = .sleep) (hw : s.fab.waking = false) :
    Claims.WakeBegun s (wakeState s) := by
  have hrest := restoreSram_restores (s := setVcore 550 { s with mm := { s.mm with up := true } }) hst
  rw [wakeState_eq hst hw]
  generalize restoreSram (setVcore 550 { s with mm := { s.mm with up := true } }) = v at hrest ⊢
  have hports := wakePorts_rewires v
  have hport {p : Nat} (hp : p < 48) (hr : (v.roleOf p).isSome = true) := wakePorts_port hp hr
  have hwaking : (wakePorts v).fab.waking = true := rfl
  have hdev : (wakePorts v).dev.st = v.dev.st := wakePorts_dev v
  generalize wakePorts v = w at hports hport hwaking hdev ⊢
  have hsettle := settleFabric_rewires w
  have hlanes := settleFabric_lanes w
  obtain ⟨hwake, hready⟩ := settleFabric_waking hwaking (hdev.trans ((congrArg Dev.st hrest.dev).trans hst))
  generalize settleFabric w = u at hsettle hlanes hwake hready ⊢
  have hall := hports.trans hsettle
  obtain ⟨hregs, hsec, hrecipe, hresults⟩ := hrest.values
  refine ⟨?_, ?_, ?_, fun p hp hr => ?_, hwake, hready, fun hs => ?_, fun hd hl hj => ?_, hall.regs.trans hregs,
    hall.sec.trans hsec, hall.recipe.trans hrecipe, hall.results.trans hresults, ?_⟩
  · rw [hall.mm, hrest.up]; rfl
  · rw [hall.mm, hrest.mem]; rfl
  · rw [hall.gov]; exact hrest.vcore rfl
  · obtain ⟨hstate, hlane⟩ := hlanes p
    rw [hstate, hlane]
    refine hport hp ?_
    rw [roleOf_of_wiring hrest.wiring]
    exact hr
  · rw [hall.job]; exact hrest.sound hs
  · rw [hall.job]; exact hrest.halted hd hl hj
  · rw [hall.job]; exact hrest.committed

theorem wakeRestoresReady : Claims.WakeRestoresReady := by
  intro s
  refine ⟨fun h x w hst hw => ?_, fun h x w hst hw => ?_, fun h x w hst => ?_, fun src hsrc hst hw => ?_, fun src hno => ?_⟩
  · have hcommand : wakeCommand (atRequest h x s) = (OK, wakeState (atRequest h x s)) := if_pos hst
    obtain ⟨hack, hleaves⟩ := powerCommand_post (v := 2) (by omega) wakeCommand w hcommand
    have hbegun := wakeState_begun (s := atRequest h x s) hst hw
    exact ⟨_, _, rfl, hack, hleaves, hbegun⟩
  · have hstay : wakeState (atRequest h x s) = atRequest h x s := by
      have hwaking : (atRequest h x s).fab.waking = true := hw
      unfold wakeState
      rw [if_neg (by simp [hwaking])]
    have hcommand : wakeCommand (atRequest h x s) = (OK, wakeState (atRequest h x s)) := if_pos hst
    rw [hstay] at hcommand
    obtain ⟨hack, hleaves⟩ := powerCommand_refused (v := 2) (by omega) wakeCommand w hcommand
    exact ⟨_, rfl, hack, hleaves⟩
  · have hcommand : wakeCommand (atRequest h x s) = (BUSY, atRequest h x s) := if_neg hst
    obtain ⟨hack, hleaves⟩ := powerCommand_refused (v := 2) (by omega) wakeCommand w hcommand
    exact ⟨_, rfl, hack, hleaves⟩
  · have hstate : (if src < 4096 then wakeState s else s) = wakeState s := if_pos hsrc
    exact ⟨_, congrArg Host.Outcome.next hstate, wakeState_begun hst hw⟩
  · have hstay : (if src < 4096 then wakeState s else s) = s := by
      split
      · next hsrc =>
        unfold wakeState
        rw [if_neg]
        rcases hno with e | e | e
        · simp [e]
        · simp [e]
        · omega
      · rfl
    exact congrArg Host.Outcome.next hstay

/-- Settles O32: SLEEP keeps main memory, and a wake brings power, memory and ports back. -/
theorem sleepAndWake : Obligations.SleepAndWake := ⟨sleepKeepsMainMemory, wakeRestoresReady⟩

end Sys2Proof.Machine
end
section
/-! What the end of an evaluation leaves alone (R184, R185, R340). -/

namespace Sys2Proof.Machine

/-- The state up to what evaluation moves: events, what is sent and counted, groups and cores with their prefetcher slots, the
power admitted, and, for a diagnostic recipe, the job with the device state that follows it. -/
def State.besideEval (s : State) : State :=
  { s with
    edp := Edp.reset, tx := [], counters := [], job := Job.reset, bnd := Boundary.reset, eval := Eval.reset, groups := []
    cores := [], mm := { s.mm with slots := [] }, gov := Gov.reset, dev := { s.dev with st := .off } }

/-- An evaluation has ended or gone on; nothing but the above differs, and the attempt stands. A recipe that is not diagnostic
keeps its job, boundary and device state. -/
structure Evaluates (s t : State) : Prop where
  same : t.besideEval = s.besideEval
  tx : s.tx <+: t.tx
  counter : ∀ j, j ≠ ck 0x1100 0x0A → j ≠ ck 0x9200 2 → tget 0 t.counters j = tget 0 s.counters j
  attempt : t.job.attempt = s.job.attempt ∧ t.job.committed = s.job.committed ∧ t.job.step = s.job.step
  stays : s.isDiag = false → t.job = s.job ∧ t.bnd = s.bnd ∧ t.dev = s.dev

theorem Evaluates.refl (s : State) : Evaluates s s :=
  ⟨rfl, List.prefix_refl _, fun _ _ _ => rfl, ⟨rfl, rfl, rfl⟩, fun _ => ⟨rfl, rfl, rfl⟩⟩

section
variable {s t : State} (h : Evaluates s t)
include h

theorem Evaluates.recipe : t.recipe = s.recipe := (congrArg State.recipe h.same :)
theorem Evaluates.regs : t.regs = s.regs := (congrArg State.regs h.same :)
theorem Evaluates.eff : t.eff = s.eff := (congrArg State.eff h.same :)
theorem Evaluates.sec : t.sec = s.sec := (congrArg State.sec h.same :)
theorem Evaluates.coll : t.coll = s.coll := (congrArg State.coll h.same :)
theorem Evaluates.fab : t.fab = s.fab := (congrArg State.fab h.same :)
theorem Evaluates.leaven : t.leaven = s.leaven := (congrArg State.leaven h.same :)
theorem Evaluates.log : t.log = s.log := (congrArg State.log h.same :)
theorem Evaluates.localUs : t.localUs = s.localUs := (congrArg State.localUs h.same :)
theorem Evaluates.mm : t.mm = { s.mm with slots := t.mm.slots } := by
  have hmm : ({ t.mm with slots := [] } : MemSt) = { s.mm with slots := [] } := (congrArg State.mm h.same :)
  exact (congrArg (fun m : MemSt => { m with slots := t.mm.slots }) hmm :)
theorem Evaluates.dev : t.dev = { s.dev with st := t.dev.st } := by
  have hdev : ({ t.dev with st := .off } : Dev) = { s.dev with st := .off } := (congrArg State.dev h.same :)
  exact (congrArg (fun d : Dev => { d with st := t.dev.st }) hdev :)

theorem Evaluates.isDiag : t.isDiag = s.isDiag := by
  rw [State.isDiag, State.isDiag, State.cont, State.cont, h.recipe]

end

theorem Evaluates.trans {s t u : State} (h : Evaluates s t) (k : Evaluates t u) : Evaluates s u := by
  have hdiag := h.isDiag
  obtain ⟨hsame, htx, hcounter, ⟨ha, hc, hs⟩, hstays⟩ := h
  obtain ⟨ksame, ktx, kcounter, ⟨ka, kc, ks⟩, kstays⟩ := k
  refine ⟨ksame.trans hsame, htx.trans ktx, fun j h1 h2 => (kcounter j h1 h2).trans (hcounter j h1 h2),
    ⟨ka.trans ha, kc.trans hc, ks.trans hs⟩, fun hd => ?_⟩
  obtain ⟨h1, h2, h3⟩ := hstays hd
  obtain ⟨k1, k2, k3⟩ := kstays (hdiag.trans hd)
  exact ⟨k1.trans h1, k2.trans h2, k3.trans h3⟩

theorem Evaluates.fold {α : Type} {f : State → α → State} (hf : ∀ s x, Evaluates s (f s x)) (l : List α) (s : State) :
    Evaluates s (l.foldl f s) := by
  induction l generalizing s with
  | nil => exact Evaluates.refl s
  | cons x l ih => exact (hf s x).trans (ih _)

/-- A change of the evaluation's own data, of groups and cores, and of the power admitted. -/
theorem evaluates_of_eq {s t : State} (groups : List (Nat × GroupSt)) (cores : List (Nat × CoreSt)) (slots : List (Nat × Nat))
    (gov : Gov) (eval : Eval)
    (h : t = { s with groups := groups, cores := cores, mm := { s.mm with slots := slots }, gov := gov, eval := eval }) :
    Evaluates s t := by
  subst h
  exact ⟨rfl, List.prefix_refl _, fun _ _ _ => rfl, ⟨rfl, rfl, rfl⟩, fun _ => ⟨rfl, rfl, rfl⟩⟩

theorem setGroup_evaluates (g : Nat) (x : GroupSt) (s : State) : Evaluates s (setGroup g x s) :=
  evaluates_of_eq _ s.cores s.mm.slots s.gov s.eval rfl

theorem setCore_evaluates (n : Nat) (x : CoreSt) (s : State) : Evaluates s (setCore n x s) :=
  evaluates_of_eq s.groups _ s.mm.slots s.gov s.eval rfl

theorem dropStreams_evaluates (n : Nat) (s : State) : Evaluates s (dropStreams n s) :=
  evaluates_of_eq s.groups _ _ s.gov s.eval rfl

theorem stopEval_evaluates (g : Nat) (s : State) : Evaluates s (stopEval g s) := by
  have hstep (s : State) (n : Nat) : Evaluates s (setCore n { (dropStreams n s).core n with prog := [], pc := 0 } (dropStreams n s)) :=
    (dropStreams_evaluates n s).trans (setCore_evaluates _ _ _)
  unfold stopEval
  dsimp only
  have hgroup := setGroup_evaluates g { s.group g with item := none, misses := [], drained := false, replays := 0 } s
  generalize setGroup g { s.group g with item := none, misses := [], drained := false, replays := 0 } s = u at hgroup ⊢
  have hfold := Evaluates.fold hstep (u.groupOf g).cores u
  refine hgroup.trans (hfold.trans ?_)
  exact evaluates_of_eq _ _ _ _ _ rfl

theorem respond_evaluates (q : InboxReq) (st : Nat) (r : Bytes) (s : State) : Evaluates s (respond q st r s) :=
  ⟨rfl, List.prefix_append _ _, fun _ _ hj => (bump_tget ..).trans (if_neg (Ne.symm hj)), ⟨rfl, rfl, rfl⟩,
    fun _ => ⟨rfl, rfl, rfl⟩⟩

theorem setJob_besideEval (j : JobState) (c : Nat) (s : State) : (setJob j c s).besideEval = s.besideEval := by
  have hshell := congrArg (fun u : State => { u with
    bnd := Boundary.reset, groups := [], cores := [], mm := { u.mm with slots := [] }, gov := Gov.reset
    dev := { s.dev with st := .off } }) (setJob_shell j c s)
  have hdev := congrArg (fun d : Dev => { d with st := .off }) (setJob_dev j c s)
  have hoff : ({ (setJob j c s).dev with st := .off } : Dev) = { s.dev with st := .off } := hdev
  unfold State.besideEval
  rw [hoff]
  exact hshell

theorem diagOver_evaluates (s : State) : Evaluates s (diagOver s) := by
  unfold diagOver
  split
  · next hover =>
    simp only [Bool.and_eq_true, decide_eq_true_eq] at hover
    obtain ⟨⟨hdiag, hst⟩, _⟩ := hover
    have htells := setJob_tells .loaded 0 { s with bnd := Boundary.reset, job := { s.job with pend := none } }
    have hjob := setJob_job_eq .loaded 0 { s with bnd := Boundary.reset, job := { s.job with pend := none } }
    have hsame := setJob_besideEval .loaded 0 { s with bnd := Boundary.reset, job := { s.job with pend := none } }
    generalize setJob .loaded 0 { s with bnd := Boundary.reset, job := { s.job with pend := none } } = u at *
    refine ⟨hsame, htells.tx, fun j hj _ => htells.counter j hj, ?_, fun hno => absurd (hdiag.symm.trans hno) (by decide)⟩
    rw [hjob]
    exact ⟨rfl, rfl, rfl⟩
  · exact Evaluates.refl s

theorem dropEval_evaluates (seg : Nat) (pos : Option Nat) (s : State) : Evaluates s (dropEval seg pos s) := by
  have heval (e : Eval) : Evaluates s { s with eval := e } := evaluates_of_eq s.groups s.cores s.mm.slots s.gov e rfl
  unfold dropEval
  split
  · exact (heval _).trans (diagOver_evaluates _)
  · exact heval _

theorem abandonEval_evaluates (code : Nat) (s : State) : Evaluates s (abandonEval code s) := by
  unfold abandonEval
  split
  · exact Evaluates.refl s
  · split
    · exact Evaluates.refl s
    · next g _ =>
      have hstop := stopEval_evaluates g.group s
      generalize stopEval g.group s = u at hstop ⊢
      refine hstop.trans (Evaluates.trans ?_ (dropEval_evaluates _ _ _))
      split
      · exact Evaluates.refl u
      · split
        · exact respond_evaluates _ _ _ u
        · exact Evaluates.refl u

end Sys2Proof.Machine
end
section
/-! A core that is fenced (R16, R18, R310, R411, R416). -/

namespace Sys2Proof.Machine

/-! ## The map -/

theorem getD_set_same {α : Type} {l : List α} {i : Nat} (h : i < l.length) (a d : α) : (l.set i a).getD i d = a := by
  rw [List.getD_eq_getElem?_getD, List.getElem?_set_self h]; rfl

theorem getD_set_other {α : Type} (l : List α) {i j : Nat} (h : i ≠ j) (a d : α) : (l.set i a).getD j d = l.getD j d := by
  rw [List.getD_eq_getElem?_getD, List.getElem?_set_ne h, ← List.getD_eq_getElem?_getD]

/-- The physical core out of use. -/
def outOfUse (phys : Nat) (s : State) : State := { s with dev := { s.dev with phys := s.dev.phys.set phys 2 } }

section
variable {q : Nat} {s : State}

theorem fenceMap_of_unmapped (h : s.logicalOf q = none) : fenceMap q s = (outOfUse q s, none) := by
  have h' : (outOfUse q s).logicalOf q = none := h
  unfold fenceMap
  simp only [outOfUse] at h' ⊢
  rw [h']

theorem fenceMap_of_spare {n r : Nat} (h : s.logicalOf q = some n) (hr : (outOfUse q s).spareOf (q / 100) = some r) :
    fenceMap q s = ({ outOfUse q s with dev := { s.dev with
      map := s.dev.map.set n r, phys := (s.dev.phys.set q 2).set (100 * (q / 100) + r) 0 } }, some r) := by
  have h' : (outOfUse q s).logicalOf q = some n := h
  unfold fenceMap
  simp only [outOfUse] at h' hr ⊢
  rw [h']
  simp only [hr]

theorem fenceMap_of_none {n : Nat} (h : s.logicalOf q = some n) (hr : (outOfUse q s).spareOf (q / 100) = none) :
    fenceMap q s = ({ outOfUse q s with dev := { s.dev with
      map := s.dev.map.set n 0xFF, phys := s.dev.phys.set q 2 } }, none) := by
  have h' : (outOfUse q s).logicalOf q = some n := h
  unfold fenceMap
  simp only [outOfUse] at h' hr ⊢
  rw [h']
  simp only [hr]

/-- A spare is not the core taken out of use. -/
theorem spareOf_ne {r : Nat} (hq : q < s.dev.phys.length) (hr : (outOfUse q s).spareOf (q / 100) = some r) :
    100 * (q / 100) + r ≠ q := by
  intro e
  have hfound := List.find?_some hr
  rw [decide_eq_true_eq] at hfound
  have hphys : (outOfUse q s).dev.phys = s.dev.phys.set q 2 := rfl
  rw [e, hphys, getD_set_same hq] at hfound
  exact absurd hfound (by decide)

/-- The spares of a hearth are those before, but for the core itself. -/
theorem spareOf_outOfUse (hq : q < s.dev.phys.length) (hused : s.dev.phys.getD q 3 ≠ 1) (h : Nat) :
    (outOfUse q s).spareOf h = s.spareOf h := by
  unfold State.spareOf
  congr 1
  funext p
  have hphys : (outOfUse q s).dev.phys = s.dev.phys.set q 2 := rfl
  rw [hphys]
  by_cases e : q = 100 * h + p
  · rw [← e, getD_set_same hq, decide_eq_false hused]
    rfl
  · rw [getD_set_other _ e]

/-- The core is out of use, whatever takes its place. -/
theorem fenceMap_phys (hq : q < s.dev.phys.length) : (fenceMap q s).1.dev.phys.getD q 3 = 2 := by
  cases hn : s.logicalOf q with
  | none =>
    rw [fenceMap_of_unmapped hn]
    exact getD_set_same hq 2 3
  | some n =>
    cases hr : (outOfUse q s).spareOf (q / 100) with
    | none =>
      rw [fenceMap_of_none hn hr]
      exact getD_set_same hq 2 3
    | some r =>
      rw [fenceMap_of_spare hn hr]
      exact (getD_set_other _ (spareOf_ne hq hr) 0 3).trans (getD_set_same hq 2 3)

theorem fenceMap_only : (fenceMap q s).1
    = { s with dev := { s.dev with map := (fenceMap q s).1.dev.map, phys := (fenceMap q s).1.dev.phys } } := by
  cases hn : s.logicalOf q with
  | none => rw [fenceMap_of_unmapped hn]; rfl
  | some n =>
    cases hr : (outOfUse q s).spareOf (q / 100) with
    | none => rw [fenceMap_of_none hn hr]; rfl
    | some r => rw [fenceMap_of_spare hn hr]; rfl

end

/-! ## What a fence does to the work -/

/-- The device up to its state, the registers, the ownership and the counters of memory errors stand. -/
structure Fences (s t : State) : Prop where
  dev : t.dev = { s.dev with st := t.dev.st }
  regs : t.regs = s.regs
  sec : t.sec = s.sec
  counter : ∀ j, keptCounter j → j ≠ ck 0x9200 2 → tget 0 t.counters j = tget 0 s.counters j

theorem Fences.refl (s : State) : Fences s s := ⟨rfl, rfl, rfl, fun _ _ _ => rfl⟩

theorem Fences.trans {s t u : State} (h : Fences s t) (k : Fences t u) : Fences s u := by
  refine ⟨?_, k.regs.trans h.regs, k.sec.trans h.sec, fun j h1 h2 => (k.counter j h1 h2).trans (h.counter j h1 h2)⟩
  rw [k.dev, h.dev]

theorem Ended.fences {s t : State} (h : Ended s t) : Fences s t :=
  ⟨h.dev, h.regs, h.sec, fun j hj _ => h.onward.counter j hj⟩

theorem keptCounter.ne_event {j : Nat} (h : keptCounter j) : j ≠ ck 0x1100 0x0A := by
  have hlow : ck 0x1100 0x0A < ck 0x3130 0 := by decide
  exact Nat.ne_of_gt (Nat.lt_of_lt_of_le hlow h.1)

theorem Evaluates.fences {s t : State} (h : Evaluates s t) : Fences s t :=
  ⟨h.dev, h.regs, h.sec, fun j hj hne => h.counter j hj.ne_event hne⟩

/-- The evaluation on a core ends with it. -/
def evalCut (n : Nat) (s : State) : State := if s.evalOn n then abandonEval CORE_FENCED s else s

theorem evalCut_evaluates (n : Nat) (s : State) : Evaluates s (evalCut n s) := by
  unfold evalCut
  split
  · exact abandonEval_evaluates _ s
  · exact Evaluates.refl s

theorem fenceJob_eq (n : Nat) (spare : Bool) (s : State) : fenceJob n spare s = (if !(evalCut n s).job.st.live && !((evalCut n s).job.st = .loaded && spare
      && (evalCut n s).recipe.damaged) then evalCut n s
      else if spare && (evalCut n s).recipe.damaged then halt ECC_UNCORRECTABLE (evalCut n s)
      else if !spare && (coresNamed s.cont).contains n then halt CORE_FENCED (evalCut n s)
      else if (evalCut n s).inStep then abortOwn STEP_REPEAT_FAULT [CORE_FENCED] (evalCut n s) else evalCut n s) := rfl

theorem fenceJob_fences (n : Nat) (spare : Bool) (s : State) : Fences s (fenceJob n spare s) := by
  have hcut := (evalCut_evaluates n s).fences
  rw [fenceJob_eq]
  generalize evalCut n s = u at hcut ⊢
  split
  · exact hcut
  · split
    · exact hcut.trans (halt_ended _ u).fences
    · split
      · exact hcut.trans (halt_ended _ u).fences
      · split
        · exact hcut.trans (abortOwn_ended _ _ u _).fences
        · exact hcut

/-- The fence, noted and counted. -/
def fenceNoted (q slice : Nat) (s : State) : State :=
  let u := logAdd CORE_FENCED 1 (q / 100) ((s.logicalOf q).getD q) 0xFFFF
    [q, (s.logicalOf q).getD 0xFFFF, slice, 0, (fenceMap q s).2.getD 0xFF] (fenceMap q s).1
  bump 0x7200 6 1 32 { u with job := { u.job with fencedInStep := u.job.fencedInStep + 1 } }

theorem fenceNoted_dev (q slice : Nat) (s : State) : (fenceNoted q slice s).dev = (fenceMap q s).1.dev :=
  logAdd_dev ..

theorem fenceNoted_regs (q slice : Nat) (s : State) : (fenceNoted q slice s).regs = s.regs := by
  refine (logAdd_regs CORE_FENCED 1 (q / 100) ((s.logicalOf q).getD q) 0xFFFF
    [q, (s.logicalOf q).getD 0xFFFF, slice, 0, (fenceMap q s).2.getD 0xFF] (fenceMap q s).1).trans ?_
  rw [fenceMap_only]

theorem fenceNoted_sec (q slice : Nat) (s : State) : (fenceNoted q slice s).sec = s.sec := by
  refine (logAdd_sec CORE_FENCED 1 (q / 100) ((s.logicalOf q).getD q) 0xFFFF
    [q, (s.logicalOf q).getD 0xFFFF, slice, 0, (fenceMap q s).2.getD 0xFF] (fenceMap q s).1).trans ?_
  rw [fenceMap_only]

theorem fenceNoted_counter (q slice : Nat) (s : State) {j : Nat} (hj : j ≠ ck 0x1100 0x0A) :
    tget 0 (fenceNoted q slice s).counters j
      = if j = ck 0x7200 6 then satAdd 32 (s.counter 0x7200 6) 1 else tget 0 s.counters j := by
  have htells := logAdd_tells CORE_FENCED 1 (q / 100) ((s.logicalOf q).getD q) 0xFFFF
    [q, (s.logicalOf q).getD 0xFFFF, slice, 0, (fenceMap q s).2.getD 0xFF] (fenceMap q s).1
  have hmap : (fenceMap q s).1.counters = s.counters := by rw [fenceMap_only]
  unfold fenceNoted
  generalize logAdd CORE_FENCED 1 (q / 100) ((s.logicalOf q).getD q) 0xFFFF
    [q, (s.logicalOf q).getD 0xFFFF, slice, 0, (fenceMap q s).2.getD 0xFF] (fenceMap q s).1 = u at htells ⊢
  have hu (j : Nat) (hj : j ≠ ck 0x1100 0x0A) : tget 0 u.counters j = tget 0 s.counters j := by
    rw [htells.counter j hj, hmap]
  refine (bump_tget ..).trans ?_
  split
  · next e =>
    rw [if_pos e.symm]
    exact congrArg (fun c => satAdd 32 c 1) (hu _ (by decide))
  · next e =>
    rw [if_neg (Ne.symm e)]
    exact hu j hj

section
variable {q slice : Nat} {s : State}

theorem fenceCore_of_gone (h : s.dev.mainUp = false ∨ 400 ≤ q ∨ s.dev.phys.getD q 3 = 2) : fenceCore q slice s = s := by
  unfold fenceCore
  rw [if_pos]
  rcases h with e | e | e
  · simp [e]
  · simp [e]
  · rw [e]; simp

variable (hup : s.dev.mainUp = true) (hq : q < 400) (hphys : s.dev.phys.getD q 3 ≠ 2)
include hup hq hphys

theorem fenceCore_of_unmapped (hn : s.logicalOf q = none) : fenceCore q slice s = fenceNoted q slice s := by
  unfold fenceCore
  rw [if_neg (by simp only [hup, Bool.not_true, Bool.false_or, Bool.or_eq_true, decide_eq_true_eq]; omega)]
  simp only [hn, fenceNoted]

theorem fenceCore_of_mapped {n : Nat} (hn : s.logicalOf q = some n) : fenceCore q slice s
    = setCore n ((fenceJob n (fenceMap q s).2.isSome (cutPieces (fun c => c == n) (fenceNoted q slice s))).core n).fresh
        (fenceJob n (fenceMap q s).2.isSome (cutPieces (fun c => c == n) (fenceNoted q slice s))) := by
  unfold fenceCore
  rw [if_neg (by simp only [hup, Bool.not_true, Bool.false_or, Bool.or_eq_true, decide_eq_true_eq]; omega)]
  simp only [hn, fenceNoted]

theorem fenceCore_fences : Fences (fenceNoted q slice s) (fenceCore q slice s) := by
  cases hn : s.logicalOf q with
  | none => rw [fenceCore_of_unmapped hup hq hphys hn]; exact Fences.refl _
  | some n =>
    have hcut := (cutPieces_clears (fun c => c == n) (fenceNoted q slice s)).ended.fences
    have hjob := fenceJob_fences n (fenceMap q s).2.isSome (cutPieces (fun c => c == n) (fenceNoted q slice s))
    rw [fenceCore_of_mapped hup hq hphys hn]
    generalize fenceJob n (fenceMap q s).2.isSome (cutPieces (fun c => c == n) (fenceNoted q slice s)) = u at hjob ⊢
    exact (hcut.trans hjob).trans (setCore_evaluates _ _ u).fences

theorem fenceCore_phys (hlen : s.dev.phys.length = 400) : (fenceCore q slice s).dev.phys.getD q 3 = 2 := by
  have h := (fenceCore_fences (slice := slice) hup hq hphys).dev
  rw [h, fenceNoted_dev]
  exact fenceMap_phys (by omega)

end

/-- What a fence leaves of the rest of the device, the registers, the ownership and the counters. -/
theorem fenceCore_frame (q slice : Nat) (s : State) :
    (fenceCore q slice s).dev.test = s.dev.test ∧ (fenceCore q slice s).dev.reason = s.dev.reason
    ∧ (fenceCore q slice s).regs = s.regs ∧ (fenceCore q slice s).sec = s.sec
    ∧ ∀ j, keptCounter j → j ≠ ck 0x9200 2 → j ≠ ck 0x7200 6 →
        tget 0 (fenceCore q slice s).counters j = tget 0 s.counters j := by
  by_cases hgone : s.dev.mainUp = false ∨ 400 ≤ q ∨ s.dev.phys.getD q 3 = 2
  · rw [fenceCore_of_gone hgone]
    exact ⟨rfl, rfl, rfl, rfl, fun _ _ _ _ => rfl⟩
  · obtain ⟨hup, hq, hphys⟩ : s.dev.mainUp = true ∧ q < 400 ∧ s.dev.phys.getD q 3 ≠ 2 := by
      refine ⟨?_, ?_, fun e => hgone (.inr (.inr e))⟩
      · rw [← Bool.not_eq_false]; exact fun e => hgone (.inl e)
      · exact Nat.lt_of_not_le fun e => hgone (.inr (.inl e))
    obtain ⟨hdev, hregs, hsec, hcounter⟩ := fenceCore_fences (slice := slice) hup hq hphys
    rw [fenceNoted_dev, fenceMap_only] at hdev
    refine ⟨by rw [hdev], by rw [hdev], hregs.trans (fenceNoted_regs ..), hsec.trans (fenceNoted_sec ..), fun j h1 h2 h3 => ?_⟩
    rw [hcounter j h1 h2, fenceNoted_counter q slice s h1.ne_event, if_neg h3]

end Sys2Proof.Machine
end
section
/-! Self-test commands (R379, R413). -/

namespace Sys2Proof.Machine

/-- A target of a self-test command: a core, a physical core or all. -/
def isTarget (n : Nat) : Prop := n ≤ 0x17F ∨ (0x8000 ≤ n ∧ n < 0x8000 + 400) ∨ n = 0xFFFF

theorem isTarget.lt {n : Nat} (h : isTarget n) : n < 0x10000 := by
  unfold isTarget at h; omega

theorem rangeOk_selfTest (val : Bytes) : rangeOk 0x7000 0 val =
    (decide (ofLe val / 2 ^ 16 = 1 ∨ ofLe val / 2 ^ 16 = 2)
      && (decide (ofLe val % 2 ^ 16 ≤ 0x17F) || (decide (0x8000 ≤ ofLe val % 2 ^ 16) && decide (ofLe val % 2 ^ 16 < 0x8000 + 400))
        || ofLe val % 2 ^ 16 == 0xFFFF)) := rfl

/-- A command's mode and target are a value of 0x7000. -/
theorem valueOk_selfTest {n mode : Nat} (h : isTarget n) (hm : mode = 1 ∨ mode = 2) :
    valueOk 0x7000 0 tU32 (leBytes 4 (0x10000 * mode + n)) = true := by
  have hlt := h.lt
  have hv : ofLe (leBytes 4 (0x10000 * mode + n)) = 0x10000 * mode + n := ofLe_leBytes (n := 4) (by omega)
  have hhi : (0x10000 * mode + n) / 2 ^ 16 = mode := by omega
  have hlo : (0x10000 * mode + n) % 2 ^ 16 = n := by omega
  have hform : formOk tU32 (leBytes 4 (0x10000 * mode + n)) = true := rfl
  have hty : (tU32 == entryTy 0x7000 0) = true := rfl
  have hrange : rangeOk 0x7000 0 (leBytes 4 (0x10000 * mode + n)) = true := by
    rw [rangeOk_selfTest, hv, hhi, hlo]
    unfold isTarget at h
    simp only [Bool.and_eq_true, Bool.or_eq_true, decide_eq_true_eq, beq_iff_eq]
    exact ⟨hm, by omega⟩
  rw [valueOk, hty, hform, hrange]
  rfl

/-! ## What the command does -/

/-- The command as it waits or runs, its save areas reserved. -/
def testTaken (n : Nat) (s : State) : State :=
  reserveSave (sliceHearths (s.targetSlices n)) { s with dev := { s.dev with
    test := { state := if s.job.st.live then 1 else 2, target := n, slices := s.targetSlices n, running := false } } }

section
variable {s : State} {mode n : Nat}

theorem selfTestCommand_notReady (h : ¬ (s.dev.st = .ready ∨ s.dev.st = .active)) : selfTestCommand mode n s = (NOT_READY, s) := by
  unfold selfTestCommand
  rw [not_or] at h
  rw [if_pos (by simp [h])]

variable (hmay : s.dev.st = .ready ∨ s.dev.st = .active)
include hmay

theorem selfTestCommand_live (hlive : s.job.st.live = true) : selfTestCommand 2 n s = (BUSY, s) := by
  unfold selfTestCommand
  rw [if_neg (by rcases hmay with e | e <;> simp [e]), if_pos (by simp [hlive])]

variable (hmode : mode = 1 ∨ s.job.st.live = false)
include hmode

theorem selfTestCommand_busy (htest : s.dev.test.state = 1 ∨ s.dev.test.state = 2) : selfTestCommand mode n s = (BUSY, s) := by
  unfold selfTestCommand
  rw [if_neg (by rcases hmay with e | e <;> simp [e]), if_neg (by rcases hmode with e | e <;> simp [e]),
    if_pos (by simpa using htest)]

theorem selfTestCommand_gone (htest : ¬ (s.dev.test.state = 1 ∨ s.dev.test.state = 2)) (hgone : s.targetGone n = true) :
    selfTestCommand mode n s = (TYPE_MISMATCH, s) := by
  unfold selfTestCommand
  rw [if_neg (by rcases hmay with e | e <;> simp [e]), if_neg (by rcases hmode with e | e <;> simp [e]),
    if_neg (by simpa using htest), if_pos hgone]

theorem selfTestCommand_taken (htest : ¬ (s.dev.test.state = 1 ∨ s.dev.test.state = 2)) (hgone : s.targetGone n = false) :
    selfTestCommand mode n s = (OK, testTaken n s) := by
  unfold selfTestCommand
  rw [if_neg (by rcases hmay with e | e <;> simp [e]), if_neg (by rcases hmode with e | e <;> simp [e]),
    if_neg (by simpa using htest), if_neg (by simp [hgone])]
  rfl

end

/-- No pantry holds a line in a save area that is reserved. -/
theorem reserveSave_ways {hs : List Nat} {s : State} {k : Nat} {w : PSet} {e : Nat × Nat × Bool}
    (hw : (k, w) ∈ (reserveSave hs s).mm.pantry) (he : e ∈ w.ways) (hk : k / 49152 ∈ hs) :
    s.mm.saveWay (k / 49152) (k % 49152) ≠ some e.1 := by
  obtain ⟨⟨i, x⟩, _, hx⟩ := List.mem_map.mp hw
  rw [Prod.mk.injEq] at hx
  obtain ⟨rfl, rfl⟩ := hx
  have hstays := (List.mem_filter.mp he).2
  intro hsave
  simp [hk, hsave] at hstays

/-! ## The WRITE -/

section
variable {h : EdpHdr} {x : Session} {s u : State} {code mode n : Nat} (ht : isTarget n) (hm : mode = 1 ∨ mode = 2)
  (w : SendsWrite h 0x7000 0 tU32 (leBytes 4 (0x10000 * mode + n)) x s)
include ht hm w

/-- A self-test command answers what its effect gives, and leaves it. -/
theorem selfTest_post (he : selfTestCommand mode n (atRequest h x s) = (code, u)) :
    Acked h (statusAck code 0x7000 0 tU32)
        (writeCommand h 0x7000 0 tU32 (leBytes 4 (0x10000 * mode + n)) (fun _ s => noClose (selfTestCommand mode n s)) s)
      ∧ Leaves h u
        (writeCommand h 0x7000 0 tU32 (leBytes 4 (0x10000 * mode + n)) (fun _ s => noClose (selfTestCommand mode n s)) s) := by
  have hpost := writeCommand_post w (fun _ s => noClose (selfTestCommand mode n s))
    (writeClass_of_wo (e := woE tU32) rfl rfl w.right (by decide)) (valueOk_selfTest ht hm) rfl
  rwa [he] at hpost

theorem selfTest_refused (he : selfTestCommand mode n (atRequest h x s) = (code, atRequest h x s)) :
    Acked h (statusAck code 0x7000 0 tU32)
        (writeCommand h 0x7000 0 tU32 (leBytes 4 (0x10000 * mode + n)) (fun _ s => noClose (selfTestCommand mode n s)) s)
      ∧ Leaves h s
        (writeCommand h 0x7000 0 tU32 (leBytes 4 (0x10000 * mode + n)) (fun _ s => noClose (selfTestCommand mode n s)) s) := by
  obtain ⟨hack, hleaves⟩ := selfTest_post ht hm w he
  exact ⟨hack, (Leaves.of_eq (atRequest_body h x s)).trans hleaves⟩

end

section
variable {h : EdpHdr} {x : Session} {s : State} {n : Nat} (ht : isTarget n)
include ht

theorem exec_selfTestQueued : exec (.selfTestQueued h n) s = .next (writeCommand h 0x7000 0 tU32 (leBytes 4 (0x10000 * 1 + n))
    (fun _ s => noClose (selfTestCommand 1 n s)) s) := by
  show execSelfTestQueued h n s = _
  unfold execSelfTestQueued
  rw [Nat.mod_eq_of_lt ht.lt]

theorem exec_selfTestImmediate : exec (.selfTestImmediate h n) s = .next (writeCommand h 0x7000 0 tU32
    (leBytes 4 (0x10000 * 2 + n)) (fun _ s => noClose (selfTestCommand 2 n s)) s) := by
  show execSelfTestImmediate h n s = _
  unfold execSelfTestImmediate
  rw [Nat.mod_eq_of_lt ht.lt]

end

/-- What a command that is taken leaves before its ACK. -/
theorem testTaken_atRequest (h : EdpHdr) (x : Session) (s : State) (n : Nat) :
    (testTaken n (atRequest h x s)).body = { s with mm := (testTaken n (atRequest h x s)).mm, dev := { s.dev with
        test := { state := if s.job.st.live then 1 else 2, target := n, slices := s.targetSlices n, running := false } } }.body := rfl

theorem selfTestIsTakenOnce : Claims.SelfTestIsTakenOnce := by
  intro h x s n ht queued immediate refuses hs takes free may
  have hdev : (atRequest h x s).dev = s.dev := rfl
  have hjob : (atRequest h x s).job = s.job := rfl
  have hnot (hf : free) : ¬ (s.dev.test.state = 1 ∨ s.dev.test.state = 2) := not_or.mpr hf
  have hbusy (hf : ¬ free) : s.dev.test.state = 1 ∨ s.dev.test.state = 2 := by
    by_contra hno
    exact hf (not_or.mp hno)
  refine ⟨fun w hmay hf hgone => ?_, fun w hmay hlive hf hgone => ?_, fun w hmay hlive => ?_, fun w hmay hf => ?_,
    fun w hmay hf hgone => ?_, fun w hmay hlive hf => ?_, fun w hmay hlive hf hgone => ?_, fun w hmay => ?_, fun w hmay => ?_⟩
  · obtain ⟨hack, hleaves⟩ := selfTest_post (mode := 1) ht (.inl rfl) w
      (selfTestCommand_taken (s := atRequest h x s) hmay (.inl rfl) (hnot hf) hgone)
    exact ⟨_, _, exec_selfTestQueued ht, hack, hleaves, testTaken_atRequest h x s n, rfl, rfl, rfl,
      fun k w e hw he hk => reserveSave_ways (s := _) hw he hk⟩
  · obtain ⟨hack, hleaves⟩ := selfTest_post (mode := 2) ht (.inr rfl) w
      (selfTestCommand_taken (s := atRequest h x s) hmay (.inr hlive) (hnot hf) hgone)
    have hbody := testTaken_atRequest h x s n
    rw [hlive] at hbody
    exact ⟨_, _, exec_selfTestImmediate ht, hack, hleaves, hbody, rfl, rfl, rfl,
      fun k w e hw he hk => reserveSave_ways (s := _) hw he hk⟩
  · obtain ⟨hack, hleaves⟩ := selfTest_refused (mode := 2) ht (.inr rfl) w
      (selfTestCommand_live (s := atRequest h x s) hmay hlive)
    exact ⟨_, exec_selfTestImmediate ht, hack, hleaves⟩
  · obtain ⟨hack, hleaves⟩ := selfTest_refused (mode := 1) ht (.inl rfl) w
      (selfTestCommand_busy (s := atRequest h x s) hmay (.inl rfl) (hbusy hf))
    exact ⟨_, exec_selfTestQueued ht, hack, hleaves⟩
  · obtain ⟨hack, hleaves⟩ := selfTest_refused (mode := 1) ht (.inl rfl) w
      (selfTestCommand_gone (s := atRequest h x s) hmay (.inl rfl) (hnot hf) hgone)
    exact ⟨_, exec_selfTestQueued ht, hack, hleaves⟩
  · obtain ⟨hack, hleaves⟩ := selfTest_refused (mode := 2) ht (.inr rfl) w
      (selfTestCommand_busy (s := atRequest h x s) hmay (.inr hlive) (hbusy hf))
    exact ⟨_, exec_selfTestImmediate ht, hack, hleaves⟩
  · obtain ⟨hack, hleaves⟩ := selfTest_refused (mode := 2) ht (.inr rfl) w
      (selfTestCommand_gone (s := atRequest h x s) hmay (.inr hlive) (hnot hf) hgone)
    exact ⟨_, exec_selfTestImmediate ht, hack, hleaves⟩
  · obtain ⟨hack, hleaves⟩ := selfTest_refused (mode := 1) ht (.inl rfl) w
      (selfTestCommand_notReady (s := atRequest h x s) hmay)
    exact ⟨_, exec_selfTestQueued ht, hack, hleaves⟩
  · obtain ⟨hack, hleaves⟩ := selfTest_refused (mode := 2) ht (.inr rfl) w
      (selfTestCommand_notReady (s := atRequest h x s) hmay)
    exact ⟨_, exec_selfTestImmediate ht, hack, hleaves⟩

end Sys2Proof.Machine
end
section
/-! Slices of a self-test (R412, R413, R415, R416, Table 18.6). -/

namespace Sys2Proof.Machine

/-! ## A cell that leaves service -/

/-- The cell is listed, and the list counted. -/
def cellListed (cell : Nat) (s : State) : State :=
  let u := if s.dev.badCells.contains cell then s else { s with dev := { s.dev with badCells := s.dev.badCells ++ [cell] } }
  setCounter 0x7200 9 u.dev.badCells.length u

/-- What a problem's loss of its cell may change: the leaven state and the power admitted. -/
def State.besideCell (s : State) : State := { s with leaven := LeavenSt.reset, gov := Gov.reset }

theorem cellOut_besideCell (cell : Nat) (s : State) : (cellOut cell s).besideCell = (cellListed cell s).besideCell := by
  refine foldl_field State.besideCell (fun s x => ?_) (cellListed cell s).probIdx (cellListed cell s)
  dsimp only
  split <;> rfl

theorem cellListed_dev (cell : Nat) (s : State) : ∃ l, (cellListed cell s).dev = { s.dev with badCells := l } ∧ cell ∈ l
    ∧ (cellListed cell s).counter 0x7200 9 = l.length := by
  unfold cellListed
  split
  · next h => exact ⟨s.dev.badCells, rfl, List.contains_iff_mem.mp h, tget_tset_same ..⟩
  · exact ⟨s.dev.badCells ++ [cell], rfl, List.mem_append_right _ (List.mem_singleton_self _), tget_tset_same ..⟩

theorem cellListed_rest (cell : Nat) (s : State) : (cellListed cell s).besideCell = { s with
    dev := (cellListed cell s).dev, counters := (cellListed cell s).counters }.besideCell := by
  unfold cellListed
  split <;> rfl

theorem cellListed_counter (cell : Nat) (s : State) {j : Nat} (hj : j ≠ ck 0x7200 9) :
    tget 0 (cellListed cell s).counters j = tget 0 s.counters j := by
  unfold cellListed
  split
  · exact tget_tset_other _ _ _ (Ne.symm hj)
  · exact tget_tset_other _ _ _ (Ne.symm hj)

/-! ## A slice that passes -/

/-- The slice runs. -/
def sliceRun (u k : Nat) (s : State) : State := { s with localUs := s.localUs + s.sliceUs u k }

section
variable {u k : Nat} {rest : List (Nat × Nat)} {r : BistResult} {s : State}

theorem bistSlice_eq (hst : s.dev.st = .ready ∨ s.dev.st = .active) (htest : s.dev.test.state = 1 ∨ s.dev.test.state = 2)
    (hslices : s.dev.test.slices = (u, k) :: rest) (hmay : s.sliceMay u k = true) :
    exec (.bistSlice r) s = .next (if r.pass = false then sliceFailed u k r (sliceRun u k s)
      else sliceDone (if r.saveBad = true ∧ sliceKib u k ≠ 0 then saveLost u k (sliceRun u k s) else sliceRun u k s)) := by
  have hstate : bistSliceState r s = runSlice u k r s := by
    unfold bistSliceState
    rw [if_neg (by rcases hst with e | e <;> rcases htest with e' | e' <;> simp [e, e']), hslices]
    simp only
    rw [if_pos hmay]
  have hrun : runSlice u k r s = (if r.pass = false then sliceFailed u k r (sliceRun u k s)
      else sliceDone (if r.saveBad = true ∧ sliceKib u k ≠ 0 then saveLost u k (sliceRun u k s) else sliceRun u k s)) := by
    unfold runSlice
    simp only [Bool.not_eq_true', Bool.and_eq_true, bne_iff_ne]
    rfl
  exact congrArg Host.Outcome.next (hstate.trans hrun)

/-- What a slice that is over leaves. -/
structure SliceOver (s t : State) : Prop where
  slices : t.dev.test.slices = s.dev.test.slices.drop 1
  state : t.dev.test.state = if s.dev.test.slices.drop 1 = [] then 3 else 2
  counter : t.counter 0x7200 0x0B = satAdd 64 (s.counter 0x7200 0x0B) 1
  others : ∀ j, j ≠ ck 0x7200 0x0B → tget 0 t.counters j = tget 0 s.counters j
  mm : t.mm = { s.mm with saving := t.mm.saving }
  saving : s.dev.test.slices.drop 1 = [] → t.mm.saving = []
  rest : t = { s with counters := t.counters, mm := t.mm, dev := { s.dev with test := t.dev.test } }

theorem sliceDone_over (s : State) : SliceOver s (sliceDone s) := by
  have hcount : (bump 0x7200 0x0B 1 64 s).counter 0x7200 0x0B = satAdd 64 (s.counter 0x7200 0x0B) 1 :=
    (bump_tget ..).trans (if_pos rfl)
  have hothers (j : Nat) (hj : j ≠ ck 0x7200 0x0B) : tget 0 (bump 0x7200 0x0B 1 64 s).counters j = tget 0 s.counters j :=
    (bump_tget ..).trans (if_neg (Ne.symm hj))
  unfold sliceDone
  dsimp only
  cases hr : s.dev.test.slices.drop 1 with
  | nil =>
    rw [if_pos List.isEmpty_nil]
    exact ⟨hr.symm, (if_pos hr).symm, hcount, hothers, rfl, fun _ => rfl, rfl⟩
  | cons x l =>
    rw [if_neg (by simp)]
    exact ⟨hr.symm, (if_neg (by simp [hr])).symm, hcount, hothers, rfl, fun e => absurd (hr.symm.trans e) (by simp), rfl⟩

/-! ## A save line that is lost -/

/-- The line counted. -/
def lineCounted (s : State) : State := bump 0x7200 5 1 64 (takeFree s).2

/-- The line counted and logged. -/
def lineNoted (u : Nat) (s : State) : State :=
  logAdd ECC_UNCORRECTABLE 3 (unitHearth u) 0 0xFFFF
    [6, ((takeFree s).2.mm.saveRegion (unitHearth u) 0).getD ((Config.freeWord (takeFree s).1).toNat % 4096) 0] (lineCounted s)

theorem saveLost_eq (u k : Nat) (s : State) : saveLost u k s = (if k = 14 then
      match ((lineNoted u s).slicePhys u).bind (lineNoted u s).logicalOf with
      | some n => setCore n { (lineNoted u s).core n with descMem := (lineNoted u s).recipeMem n } (lineNoted u s)
      | none => lineNoted u s
    else if (lineNoted u s).inStep then abortOwn STEP_REPEAT_FAULT [ECC_UNCORRECTABLE] (lineNoted u s)
    else lineNoted u s) := rfl

theorem lineNoted_clears (u : Nat) (s : State) : Clears (lineCounted s) (lineNoted u s) := logAdd_clears ..

theorem saveLost_ended (u k : Nat) (s : State) : Ended (lineCounted s) (saveLost u k s) := by
  have hnoted := (lineNoted_clears u s).ended
  rw [saveLost_eq]
  generalize lineNoted u s = v at hnoted ⊢
  split
  · split
    · exact hnoted.trans (setCore_works _ _ v).clears.ended
    · exact hnoted
  · split
    · exact hnoted.trans (abortOwn_ended _ _ v _)
    · exact hnoted

/-- A save line lost in a step gives the attempt up. -/
theorem saveLost_repeats {u k : Nat} {s : State} (hk : k ≠ 14) (h : CanRepeat s) :
    (saveLost u k s).job.attempt = s.job.attempt + 1 ∧ (saveLost u k s).job.st = .repeating := by
  have hcan : CanRepeat (lineCounted s) := h
  have hin : (lineNoted u s).inStep = true := ((lineNoted_clears u s).step.1).trans h.1
  obtain ⟨hattempt, hst, _⟩ := (abortOwn_restarts_logged (cause := STEP_REPEAT_FAULT) (extra := [ECC_UNCORRECTABLE])
    (w := Where.plain) hcan ECC_UNCORRECTABLE 3 (unitHearth u) 0 0xFFFF
    [6, ((takeFree s).2.mm.saveRegion (unitHearth u) 0).getD ((Config.freeWord (takeFree s).1).toNat % 4096) 0]).repeats
  rw [saveLost_eq, if_neg hk, if_pos hin]
  exact ⟨hattempt, hst⟩

/-- With the slice of the descriptor memory, or outside a step, the job goes on. -/
theorem saveLost_goesOn {u k : Nat} {s : State} (h : k = 14 ∨ s.inStep = false) :
    (saveLost u k s).job.st = s.job.st ∧ (saveLost u k s).job.attempt = s.job.attempt := by
  obtain ⟨hstep, hattempt, _⟩ := (lineNoted_clears u s).step
  have hst : (lineNoted u s).job.st = s.job.st := logAdd_job_st ..
  have hin : (lineNoted u s).inStep = s.inStep := hstep
  have hat : (lineNoted u s).job.attempt = s.job.attempt := hattempt
  rw [saveLost_eq]
  generalize lineNoted u s = v at hst hin hat ⊢
  split
  · split
    · exact ⟨hst, hat⟩
    · exact ⟨hst, hat⟩
  · next hk =>
    rw [if_neg (by rw [hin, h.resolve_left hk]; exact Bool.false_ne_true)]
    exact ⟨hst, hat⟩

end

/-! ## A slice that fails -/

/-- The command over and its slice counted. -/
def sliceCounted (s : State) : State := bump 0x7200 0x0B 1 64 (endTest 4 s)

/-- The signature of a cell that fails. -/
def cellSignature (u : Nat) (r : BistResult) : List Nat :=
  [0x10 + (u - 0x4000), 0] ++ w64 (Config.goldenSignature (u - 0x4000)).toNat ++ w64 r.obtained.toNat

theorem sliceFailed_eq (u k : Nat) (r : BistResult) (s : State) : sliceFailed u k r s
    = (if 0x4000 ≤ u ∧ u < 0x8000 then
        logAdd 0x0702 2 (unitHearth u) (u - 0x4000) 0xFFFF (cellSignature u r) (cellOut (u - 0x4000) (sliceCounted s))
      else match (sliceCounted s).slicePhys u with
        | some p => fenceCore p k (sliceCounted s)
        | none => sliceCounted s) := rfl

/-- What a failing slice leaves, whether a cell or a core fails. -/
structure SliceFails (s t : State) : Prop where
  test : t.dev.test = s.dev.test
  reason : t.dev.reason = s.dev.reason
  regs : t.regs = s.regs
  sec : t.sec = s.sec
  counter : t.counter 0x7200 0x0B = s.counter 0x7200 0x0B

theorem cellOut_fails (cell : Nat) (s : State) : SliceFails s (cellOut cell s) := by
  have hcell := cellOut_besideCell cell s
  rw [cellListed_rest] at hcell
  obtain ⟨l, hdev, _, _⟩ := cellListed_dev cell s
  have hcounter := cellListed_counter cell s (j := ck 0x7200 0x0B) (by decide)
  generalize cellListed cell s = v at hcell hdev hcounter
  generalize cellOut cell s = t at hcell
  have ht : t.dev = v.dev := (congrArg State.dev hcell :)
  have hc : t.counters = v.counters := (congrArg State.counters hcell :)
  refine ⟨by rw [ht, hdev], by rw [ht, hdev], (congrArg State.regs hcell :), (congrArg State.sec hcell :), ?_⟩
  rw [State.counter, hc]
  exact hcounter

theorem SliceFails.logged {s t : State} (h : SliceFails s t) (c a g u l : Nat) (d : List Nat) :
    SliceFails s (logAdd c a g u l d t) := by
  obtain ⟨htest, hreason, hregs, hsec, hcounter⟩ := h
  refine ⟨?_, ?_, ?_, ?_, ((logAdd_tells ..).counter _ (by decide)).trans hcounter⟩
  · rw [logAdd_dev]; exact htest
  · rw [logAdd_dev]; exact hreason
  · rw [logAdd_regs]; exact hregs
  · rw [logAdd_sec]; exact hsec

theorem fenceCore_fails (p k : Nat) (s : State) : SliceFails s (fenceCore p k s) := by
  obtain ⟨htest, hreason, hregs, hsec, hcounter⟩ := fenceCore_frame p k s
  exact ⟨htest, hreason, hregs, hsec, hcounter _ ⟨by decide, by decide, by decide⟩ (by decide) (by decide)⟩

theorem sliceFailed_fails (u k : Nat) (r : BistResult) (s : State) : SliceFails (sliceCounted s) (sliceFailed u k r s) := by
  rw [sliceFailed_eq]
  split
  · exact (cellOut_fails _ _).logged _ _ _ _ _ _
  · split
    · exact fenceCore_fails _ _ _
    · exact ⟨rfl, rfl, rfl, rfl, rfl⟩

theorem sliceFailed_phys {u k p : Nat} {r : BistResult} {s : State} (hphys : s.slicePhys u = some p)
    (hup : s.dev.mainUp = true) (hp : p < 400) (hlen : s.dev.phys.length = 400) :
    (sliceFailed u k r s).dev.phys.getD p 3 = 2 := by
  have hcell : ¬ (0x4000 ≤ u ∧ u < 0x8000) := by
    rintro ⟨hlo, hhi⟩
    rw [State.slicePhys, if_neg (by omega), if_pos hlo] at hphys
    exact absurd hphys (by simp)
  have hfound : (sliceCounted s).slicePhys u = some p := hphys
  rw [sliceFailed_eq, if_neg hcell, hfound]
  by_cases hgone : s.dev.phys.getD p 3 = 2
  · have hgone' : (sliceCounted s).dev.phys.getD p 3 = 2 := hgone
    show (fenceCore p k (sliceCounted s)).dev.phys.getD p 3 = 2
    rw [fenceCore_of_gone (.inr (.inr hgone'))]
    exact hgone
  · exact fenceCore_phys (s := sliceCounted s) hup hp hgone hlen

theorem slicesEndTheCommand : Claims.SlicesEndTheCommand := by
  intro u k rest r s hst htest hslices hmay
  have hexec := bistSlice_eq (r := r) hst htest hslices hmay
  have hdrop : s.dev.test.slices.drop 1 = rest := by rw [hslices]; rfl
  refine ⟨fun hpass hgood => ?_, fun hpass hbad hkib => ?_, fun hfail => ?_⟩
  · rw [if_neg (by simp [hpass]), if_neg (by simp [hgood])] at hexec
    obtain ⟨hsl, hstate, hcounter, _, hmm, hsaving, hrest⟩ := sliceDone_over (sliceRun u k s)
    have hrun : (sliceRun u k s).dev.test.slices.drop 1 = rest := hdrop
    rw [hrun] at hsl hstate hsaving
    generalize sliceDone (sliceRun u k s) = t at *
    have hlocal : t.localUs = s.localUs + s.sliceUs u k := by rw [hrest]; rfl
    refine ⟨_, hexec, hsl, hstate, hcounter, hlocal, hsaving, hmm, ?_⟩
    rw [hlocal]
    exact hrest
  · rw [if_neg (by simp [hpass]), if_pos ⟨hbad, hkib⟩] at hexec
    have hended := saveLost_ended u k (sliceRun u k s)
    have hrep := saveLost_repeats (u := u) (k := k) (s := sliceRun u k s)
    have hgoes := saveLost_goesOn (u := u) (k := k) (s := sliceRun u k s)
    generalize saveLost u k (sliceRun u k s) = v at *
    obtain ⟨hsl, hstate, hcounter, hothers, hmm, hsaving, hrest⟩ := sliceDone_over v
    have hv : v.dev.test.slices.drop 1 = rest := by rw [hended.dev]; exact hdrop
    have hline : v.counter 0x7200 5 = satAdd 64 (s.counter 0x7200 5) 1 :=
      (hended.onward.counter _ ⟨by decide, by decide, by decide⟩).trans ((bump_tget ..).trans (if_pos rfl))
    have hslice : v.counter 0x7200 0x0B = s.counter 0x7200 0x0B :=
      (hended.onward.counter _ ⟨by decide, by decide, by decide⟩).trans ((bump_tget ..).trans (if_neg (by decide)))
    have hregs : v.regs = s.regs := hended.regs
    have hsec : v.sec = s.sec := hended.sec
    rw [hv] at hsl
    rw [hslice] at hcounter
    generalize sliceDone v = t at *
    have hjob : t.job = v.job := by rw [hrest]
    refine ⟨_, hexec, hsl, (hothers _ (by decide)).trans hline, hcounter, fun hk hcan => ?_, fun hno => ?_, ?_, ?_⟩
    · rw [hjob]; exact hrep hk hcan
    · rw [hjob]; exact hgoes hno
    · rw [hrest]; exact hregs
    · rw [hrest]; exact hsec
  · rw [if_pos hfail] at hexec
    obtain ⟨htest, hreason, hregs, hsec, hcounter⟩ := sliceFailed_fails u k r (sliceRun u k s)
    have hphys (p : Nat) (hp : s.slicePhys u = some p) (hup : s.dev.mainUp = true) (hlt : p < 400)
        (hlen : s.dev.phys.length = 400) := sliceFailed_phys (k := k) (r := r) (s := sliceRun u k s) hp hup hlt hlen
    have hcount : (sliceCounted (sliceRun u k s)).counter 0x7200 0x0B = satAdd 64 (s.counter 0x7200 0x0B) 1 :=
      (bump_tget ..).trans (if_pos rfl)
    refine ⟨_, hexec, ?_, ?_, hreason, hcounter.trans hcount, hphys, hregs, hsec⟩
    · rw [htest]; rfl
    · rw [htest]; rfl

/-- Settles O36: the checks of a self-test command in their order, and each outcome of its next slice. -/
theorem selfTestsRunBySlices : Obligations.SelfTestsRunBySlices := ⟨selfTestIsTakenOnce, slicesEndTheCommand⟩

end Sys2Proof.Machine
end
section
/-! What a cause of this device looks at: an attempt given up, or a job halted, after logs, counts and work that leave the job,
the boundary and the device's place alone (R265, R266, R270). -/

namespace Sys2Proof.Machine

/-- The state as a cause of an abort or a halt sees it stands. -/
structure Stands (s u : State) : Prop where
  st : u.job.st = s.job.st
  attempt : u.job.attempt = s.job.attempt
  causes : u.job.causes = s.job.causes
  step : u.job.step = s.job.step
  committed : u.job.committed = s.job.committed
  bnd : u.bnd = s.bnd
  coll : u.coll = s.coll
  eff : u.eff = s.eff
  regs : u.regs = s.regs
  sec : u.sec = s.sec
  recipe : u.recipe = s.recipe
  devId : u.devId = s.devId

theorem Stands.refl (s : State) : Stands s s := ⟨rfl, rfl, rfl, rfl, rfl, rfl, rfl, rfl, rfl, rfl, rfl, rfl⟩

theorem Stands.trans {s t u : State} (h : Stands s t) (k : Stands t u) : Stands s u where
  st := k.st.trans h.st
  attempt := k.attempt.trans h.attempt
  causes := k.causes.trans h.causes
  step := k.step.trans h.step
  committed := k.committed.trans h.committed
  bnd := k.bnd.trans h.bnd
  coll := k.coll.trans h.coll
  eff := k.eff.trans h.eff
  regs := k.regs.trans h.regs
  sec := k.sec.trans h.sec
  recipe := k.recipe.trans h.recipe
  devId := k.devId.trans h.devId

/-- The parts that stand, and of the device its place, are as they were. -/
theorem stands_of_eq {s u : State} (job : u.job = s.job) (bnd : u.bnd = s.bnd) (coll : u.coll = s.coll) (eff : u.eff = s.eff)
    (regs : u.regs = s.regs) (sec : u.sec = s.sec) (recipe : u.recipe = s.recipe) (up : u.dev.mainUp = s.dev.mainUp)
    (coord : u.fab.coord = s.fab.coord) : Stands s u where
  st := by rw [job]
  attempt := by rw [job]
  causes := by rw [job]
  step := by rw [job]
  committed := by rw [job]
  bnd := bnd
  coll := coll
  eff := eff
  regs := regs
  sec := sec
  recipe := recipe
  devId := by rw [State.devId, State.devId, up, coord, regs]

theorem logAdd_stands (c a g u l : Nat) (d : List Nat) (s : State) : Stands s (logAdd c a g u l d s) := by
  have hjob := logAdd_job c a g u l d s
  exact {
    st := (congrArg Job.st hjob :)
    attempt := (congrArg Job.attempt hjob :)
    causes := (congrArg Job.causes hjob :)
    step := (congrArg Job.step hjob :)
    committed := (congrArg Job.committed hjob :)
    bnd := logAdd_bnd ..
    coll := logAdd_coll ..
    eff := logAdd_eff ..
    regs := logAdd_regs ..
    sec := logAdd_sec ..
    recipe := logAdd_recipe ..
    devId := logAdd_devId .. }

theorem bump_stands (i k n b : Nat) (s : State) : Stands s (bump i k n b s) :=
  ⟨rfl, rfl, rfl, rfl, rfl, rfl, rfl, rfl, rfl, rfl, rfl, rfl⟩

theorem setGroup_stands (g : Nat) (x : GroupSt) (s : State) : Stands s (setGroup g x s) :=
  ⟨rfl, rfl, rfl, rfl, rfl, rfl, rfl, rfl, rfl, rfl, rfl, rfl⟩

theorem stands_mm (m : MemSt) (s : State) : Stands s { s with mm := m } :=
  ⟨rfl, rfl, rfl, rfl, rfl, rfl, rfl, rfl, rfl, rfl, rfl, rfl⟩

theorem FabricOnly.stands {s u : State} (h : FabricOnly s u) (hcoord : u.fab.coord = s.fab.coord) : Stands s u := by
  refine stands_of_eq h.job ?_ h.coll ?_ ?_ ?_ ?_ ?_ hcoord <;> rw [h.1]

theorem Evaluates.stands {s u : State} (h : Evaluates s u) (hdiag : s.isDiag = false) : Stands s u := by
  obtain ⟨hjob, hbnd, hdev⟩ := h.stays hdiag
  exact stands_of_eq hjob hbnd h.coll h.eff h.regs h.sec h.recipe (by rw [hdev]) (by rw [h.fab])

section
variable {s u : State} (h : Stands s u)
include h

theorem Stands.inStep : u.inStep = s.inStep := by rw [State.inStep, State.inStep, h.st, h.bnd]

theorem Stands.canRepeat (hs : CanRepeat s) : CanRepeat u := by
  obtain ⟨hin, hprep, hlim⟩ := hs
  exact ⟨h.inStep.trans hin, by rw [h.coll]; exact hprep, by rw [h.attempt, h.eff]; exact hlim⟩

theorem Stands.haltsNow (hs : HaltsNow s) : HaltsNow u := by
  obtain ⟨hstands, hnow⟩ := hs
  exact ⟨by rw [h.st]; exact hstands, by rw [h.bnd, h.st]; exact hnow⟩

theorem Stands.repeatsFrom {cause origin : Nat} {t : State} (ht : RepeatsFrom cause origin u t) : RepeatsFrom cause origin s t := by
  obtain ⟨h1, h2, h3, h4, h5, h6⟩ := ht
  exact ⟨h1.trans (by rw [h.attempt]), h2, h3.trans (by rw [h.causes]), h4.trans h.step, h5.trans h.committed, h6⟩

/-- A cause gives the attempt up. -/
theorem Stands.repeats {cause : Nat} {extra : List Nat} {w : Where} (hs : CanRepeat s) :
    Repeats cause s (abortOwn cause extra u w) := by
  have hrep := (abortOwn_restarts (cause := cause) (extra := extra) (w := w) (h.canRepeat hs)).repeats
  rw [h.devId] at hrep
  exact h.repeatsFrom hrep

/-- A cause halts the job. -/
theorem Stands.halted {code : Nat} (hs : HaltsNow s) : Halted code s (halt code u) :=
  (halt_halted (h.haltsNow hs)).congr h.committed (by rw [h.recipe]) h.regs h.sec

end

/-- What comes after an attempt given up may move cores. -/
theorem RepeatsFrom.after {cause origin : Nat} {s t u : State} (h : RepeatsFrom cause origin s t) (hjob : u.job = t.job)
    (hgroups : u.groups = t.groups) : RepeatsFrom cause origin s u := by
  obtain ⟨h1, h2, h3, h4, h5, h6⟩ := h
  exact ⟨by rw [hjob]; exact h1, by rw [hjob]; exact h2, by rw [hjob]; exact h3, by rw [hjob]; exact h4,
    by rw [hjob]; exact h5, hgroups.trans h6⟩

end Sys2Proof.Machine
end
section
/-! Fenced cores and uncorrectable words of on-chip memories (R16, R18, R93, R94, R105, R310, R416, Table 04.3). -/

namespace Sys2Proof.Machine

/-! ## The fence -/

theorem cutPieces_besideCell (hit : Nat → Bool) (s : State) : (cutPieces hit s).besideCell = s.besideCell := by
  unfold cutPieces
  refine foldl_field State.besideCell (fun s x => ?_) s.probIdx s
  dsimp only
  split <;> rfl

theorem cutPieces_stands (hit : Nat → Bool) (s : State) : Stands s (cutPieces hit s) := by
  have h := cutPieces_besideCell hit s
  generalize cutPieces hit s = u at h
  have hdev : u.dev = s.dev := (congrArg State.dev h :)
  have hfab : u.fab = s.fab := (congrArg State.fab h :)
  exact stands_of_eq (congrArg State.job h :) (congrArg State.bnd h :) (congrArg State.coll h :) (congrArg State.eff h :)
    (congrArg State.regs h :) (congrArg State.sec h :) (congrArg State.recipe h :) (by rw [hdev]) (by rw [hfab])

theorem fenceNoted_stands (q slice : Nat) (s : State) : Stands s (fenceNoted q slice s) := by
  have hmap : Stands s (fenceMap q s).1 := by
    rw [fenceMap_only]
    exact ⟨rfl, rfl, rfl, rfl, rfl, rfl, rfl, rfl, rfl, rfl, rfl, rfl⟩
  have hlog := logAdd_stands CORE_FENCED 1 (q / 100) ((s.logicalOf q).getD q) 0xFFFF
    [q, (s.logicalOf q).getD 0xFFFF, slice, 0, (fenceMap q s).2.getD 0xFF] (fenceMap q s).1
  unfold fenceNoted
  generalize logAdd CORE_FENCED 1 (q / 100) ((s.logicalOf q).getD q) 0xFFFF
    [q, (s.logicalOf q).getD 0xFFFF, slice, 0, (fenceMap q s).2.getD 0xFF] (fenceMap q s).1 = u at hlog ⊢
  exact (hmap.trans hlog).trans ⟨rfl, rfl, rfl, rfl, rfl, rfl, rfl, rfl, rfl, rfl, rfl, rfl⟩

theorem Stands.isDiag {s u : State} (h : Stands s u) : u.isDiag = s.isDiag := by
  rw [State.isDiag, State.isDiag, State.cont, State.cont, h.recipe]

theorem Stands.cont {s u : State} (h : Stands s u) : u.cont = s.cont := by
  rw [State.cont, State.cont, h.recipe]

section
variable {n : Nat} {spare : Bool} {s : State} (hdiag : s.isDiag = false)
include hdiag

theorem evalCut_stands : Stands s (evalCut n s) := (evalCut_evaluates n s).stands hdiag

/-- A spare takes the core's place: the attempt is repeated. -/
theorem fenceJob_repeats (h : CanRepeat s) (hd : s.recipe.damaged = false) :
    Repeats STEP_REPEAT_FAULT s (fenceJob n true s) := by
  have hcut := evalCut_stands (n := n) hdiag
  have hin := hcut.inStep.trans h.1
  have hlive : s.job.st.live = true := (inStep_live h.1)
  have hjob : fenceJob n true s = abortOwn STEP_REPEAT_FAULT [CORE_FENCED] (evalCut n s) := by
    have hbad : (evalCut n s).recipe.damaged = false := by rw [hcut.recipe]; exact hd
    have hl : (evalCut n s).job.st.live = true := by rw [hcut.st]; exact hlive
    rw [fenceJob_eq, if_neg (by simp [hl]), if_neg (by simp [hbad]), if_neg (by simp), if_pos hin]
  rw [hjob]
  exact hcut.repeats h

/-- A damaged container cannot be written to the spare: the job halts. -/
theorem fenceJob_damaged (h : HaltsNow s) (hd : s.recipe.damaged = true) :
    Halted ECC_UNCORRECTABLE s (fenceJob n true s) := by
  have hcut := evalCut_stands (n := n) hdiag
  have hjob : fenceJob n true s = halt ECC_UNCORRECTABLE (evalCut n s) := by
    have hbad : (evalCut n s).recipe.damaged = true := by rw [hcut.recipe]; exact hd
    have hl : (evalCut n s).job.st.live = true ∨ (evalCut n s).job.st = .loaded := by rw [hcut.st]; exact h.1
    rw [fenceJob_eq, if_neg (by rcases hl with e | e <;> simp [e, hbad]), if_pos (by simp [hbad])]
  rw [hjob]
  exact hcut.halted h

/-- No spare for a core the recipe names: the job halts. -/
theorem fenceJob_unavailable (h : HaltsNow s) (hlive : s.job.st.live = true) (hn : n ∈ coresNamed s.cont) :
    Halted CORE_FENCED s (fenceJob n false s) := by
  have hcut := evalCut_stands (n := n) hdiag
  have hjob : fenceJob n false s = halt CORE_FENCED (evalCut n s) := by
    have hl : (evalCut n s).job.st.live = true := by rw [hcut.st]; exact hlive
    rw [fenceJob_eq, if_neg (by simp [hl]), if_neg (by simp), if_pos (by simpa using hn)]
  rw [hjob]
  exact hcut.halted h

end

section
variable {q : Nat} {s : State}

theorem fenceMap_other {n : Nat} (hn : s.logicalOf q ≠ some n) : (fenceMap q s).1.dev.map.getD n 0 = s.dev.map.getD n 0 := by
  cases hm : s.logicalOf q with
  | none => rw [fenceMap_of_unmapped hm]; rfl
  | some m =>
    have hne : m ≠ n := fun e => hn (by rw [hm, e])
    cases hr : (outOfUse q s).spareOf (q / 100) with
    | none => rw [fenceMap_of_none hm hr]; exact getD_set_other _ hne 0xFF 0
    | some r => rw [fenceMap_of_spare hm hr]; exact getD_set_other _ hne r 0

variable (hup : s.dev.mainUp = true) (hq : q < 400) (hphys : s.dev.phys.getD q 3 ≠ 2)
include hup hq hphys

/-- The map and the state of the cores once a core is fenced. -/
theorem fenceCore_dev (slice : Nat) : (fenceCore q slice s).dev.map = (fenceMap q s).1.dev.map
    ∧ (fenceCore q slice s).dev.phys = (fenceMap q s).1.dev.phys := by
  have h := (fenceCore_fences (slice := slice) hup hq hphys).dev
  rw [fenceNoted_dev] at h
  rw [h]
  exact ⟨rfl, rfl⟩

theorem fenceCore_counter (slice : Nat) : (fenceCore q slice s).counter 0x7200 6 = satAdd 32 (s.counter 0x7200 6) 1 := by
  have h := (fenceCore_fences (slice := slice) hup hq hphys).counter (ck 0x7200 6) ⟨by decide, by decide, by decide⟩ (by decide)
  rw [State.counter, h, fenceNoted_counter q slice s (by decide), if_pos rfl]

end

/-- The state in which the job learns of a fence. -/
def fenceTold (q slice n : Nat) (s : State) : State := cutPieces (fun c => c == n) (fenceNoted q slice s)

theorem fenceTold_stands (q slice n : Nat) (s : State) : Stands s (fenceTold q slice n s) :=
  (fenceNoted_stands q slice s).trans (cutPieces_stands _ _)

/-- A fenced core's logical core as it stands on a fresh physical one. -/
def freshCore (n : Nat) (s : State) : State := setCore n (s.core n).fresh s

theorem fenceCore_of_told {q slice n : Nat} {s : State} (hup : s.dev.mainUp = true) (hq : q < 400)
    (hphys : s.dev.phys.getD q 3 ≠ 2) (hn : s.logicalOf q = some n) {spare : Bool} (hs : (fenceMap q s).2.isSome = spare) :
    fenceCore q slice s = freshCore n (fenceJob n spare (fenceTold q slice n s)) := by
  rw [fenceCore_of_mapped hup hq hphys hn, hs]
  rfl

theorem RepeatsFrom.freshCore {cause origin n : Nat} {s t : State} (h : RepeatsFrom cause origin s t) :
    RepeatsFrom cause origin s (freshCore n t) := h.after rfl rfl

theorem Halted.freshCore {code n : Nat} {s t : State} (h : Halted code s t) : Halted code s (freshCore n t) := h

theorem fencedCoresAreReplaced : Claims.FencedCoresAreReplaced := by
  intro q s
  refine ⟨fun hup hq hlen hphys => ?_, fun hgone => ?_⟩
  · intro used
    have hlt : q < s.dev.phys.length := by omega
    have hspare (hused : used) : (outOfUse q s).spareOf (q / 100) = s.spareOf (q / 100) :=
      spareOf_outOfUse hlt (by rw [show s.dev.phys.getD q 3 = 0 from hused]; decide) _
    obtain ⟨_, _, hregs, hsec, _⟩ := fenceCore_frame q 0xFF s
    obtain ⟨hmap, hph⟩ := fenceCore_dev hup hq hphys 0xFF
    have htold {n : Nat} (hn : s.logicalOf q = some n) {spare : Bool} (hs : (fenceMap q s).2.isSome = spare) :=
      fenceCore_of_told (slice := 0xFF) hup hq hphys hn hs
    refine ⟨fenceCore q 0xFF s, rfl, fenceCore_phys hup hq hphys hlen, fenceCore_counter hup hq hphys _, hregs, hsec,
      fun n r hused hn hr hnlen => ?_, fun n hused hn hr hnlen => ?_, fun n hn => ?_, fun hcan hdiag hd hused hn hr => ?_,
      fun hhalt hdiag hd hused hn hr => ?_, fun n hhalt hlive hdiag hused hn hr hnamed => ?_⟩
    · rw [hmap, hph, fenceMap_of_spare hn ((hspare hused).trans hr)]
      have hr100 : r < 100 := List.mem_range.mp (List.mem_of_find?_eq_some hr)
      exact ⟨getD_set_same hnlen r 0, getD_set_same (by rw [List.length_set]; omega) 0 3⟩
    · rw [hmap, fenceMap_of_none hn ((hspare hused).trans hr)]
      exact getD_set_same hnlen 0xFF 0
    · rw [hmap]
      exact fenceMap_other hn
    · obtain ⟨n, hn⟩ := Option.isSome_iff_exists.mp hn
      obtain ⟨r, hr⟩ := Option.isSome_iff_exists.mp hr
      have hstands := fenceTold_stands q 0xFF n s
      have hsome : (fenceMap q s).2.isSome = true := by rw [fenceMap_of_spare hn ((hspare hused).trans hr)]; rfl
      have hrep := fenceJob_repeats (n := n) (hstands.isDiag.trans hdiag) (hstands.canRepeat hcan)
        (by rw [hstands.recipe]; exact hd)
      rw [Repeats, hstands.devId] at hrep
      rw [htold hn hsome]
      exact (hstands.repeatsFrom hrep).freshCore
    · obtain ⟨n, hn⟩ := Option.isSome_iff_exists.mp hn
      obtain ⟨r, hr⟩ := Option.isSome_iff_exists.mp hr
      have hstands := fenceTold_stands q 0xFF n s
      have hsome : (fenceMap q s).2.isSome = true := by rw [fenceMap_of_spare hn ((hspare hused).trans hr)]; rfl
      have hhalted := fenceJob_damaged (n := n) (hstands.isDiag.trans hdiag) (hstands.haltsNow hhalt)
        (by rw [hstands.recipe]; exact hd)
      rw [htold hn hsome]
      exact (hhalted.congr hstands.committed (by rw [hstands.recipe]) hstands.regs hstands.sec).freshCore
    · have hstands := fenceTold_stands q 0xFF n s
      have hnone : (fenceMap q s).2.isSome = false := by rw [fenceMap_of_none hn ((hspare hused).trans hr)]; rfl
      have hhalted := fenceJob_unavailable (n := n) (hstands.isDiag.trans hdiag) (hstands.haltsNow hhalt)
        (by rw [hstands.st]; exact hlive) (by rw [hstands.cont]; exact hnamed)
      rw [htold hn hnone]
      exact (hhalted.congr hstands.committed (by rw [hstands.recipe]) hstands.regs hstands.sec).freshCore
  · exact congrArg Host.Outcome.next (fenceCore_of_gone hgone)

end Sys2Proof.Machine
end
section
/-! Uncorrectable words of on-chip memories (R93, R94, R105, R318, Table 04.3). -/

namespace Sys2Proof.Machine

/-! ## Lines of a pantry -/

/-- A line that is accessed stands in its set. -/
theorem PSet.access_ways (x : PSet) (avoid : Option Nat) (line : Nat) (dirty streaming : Bool) :
    ∃ e ∈ (x.access avoid line dirty streaming).ways, e.2.1 = line := by
  unfold PSet.access
  split
  · next e he =>
    have hmem := List.mem_of_find?_eq_some he
    have hline := List.find?_some he
    rw [decide_eq_true_eq] at hline
    exact ⟨(e.1, e.2.1, e.2.2 || dirty), List.mem_map.mpr ⟨e, hmem, if_pos hline⟩, hline⟩
  · exact ⟨_, List.mem_cons_self, rfl⟩

theorem line?_isSome_iff (m : MemSt) (pa : Nat) :
    (m.line? pa).isSome = true ↔ ∃ e ∈ (m.set (m.home pa).1).ways, e.2.1 = (m.home pa).2 := by
  simp [MemSt.line?]

/-- A line that is accessed is held. -/
theorem line?_touch (m : MemSt) (pa : Nat) (dirty streaming : Bool) : ((m.touch [pa] dirty streaming).line? pa).isSome = true := by
  rw [line?_isSome_iff]
  have hset : (m.touch [pa] dirty streaming).set (m.home pa).1 = (m.set (m.home pa).1).access
      (if m.saving.contains ((m.home pa).1 / 49152) then m.saveWay ((m.home pa).1 / 49152) ((m.home pa).1 % 49152) else none)
      (m.home pa).2 dirty streaming := tget_tset_same _ _ _ _
  obtain ⟨e, he, hline⟩ := PSet.access_ways (m.set (m.home pa).1)
    (if m.saving.contains ((m.home pa).1 / 49152) then m.saveWay ((m.home pa).1 / 49152) ((m.home pa).1 % 49152) else none)
    (m.home pa).2 dirty streaming
  have hhome : (m.touch [pa] dirty streaming).home pa = m.home pa := rfl
  rw [hhome, hset]
  exact ⟨e, he, hline⟩

/-- A line that is dropped is not held. -/
theorem line?_drop (m : MemSt) (pa : Nat) : (m.drop [pa]).line? pa = none := by
  have hhome : (m.drop [pa]).home pa = m.home pa := rfl
  have hset : (m.drop [pa]).set (m.home pa).1 = { m.set (m.home pa).1 with
      ways := (m.set (m.home pa).1).ways.filter fun e => e.2.1 != (m.home pa).2 } := tget_tset_same _ _ _ _
  rw [MemSt.line?, hhome, hset, List.find?_eq_none]
  intro e he
  have hne := (List.mem_filter.mp he).2
  simpa using hne

/-! ## What an uncorrectable word does -/

/-- The error counted and logged. -/
def sramNoted (kind : SramKind) (unit word : Nat) (s : State) : State :=
  let w := memWhere (sramCode kind) unit
  logAdd ECC_UNCORRECTABLE w.src w.hearth w.unit 0xFFFF [sramCode kind, word] (bump 0x7200 5 1 64 s)

section
variable (kind : SramKind) (unit word : Nat) (s : State)

theorem sramNoted_counter {j : Nat} (hj : j ≠ ck 0x1100 0x0A) : tget 0 (sramNoted kind unit word s).counters j
    = if j = ck 0x7200 5 then satAdd 64 (s.counter 0x7200 5) 1 else tget 0 s.counters j := by
  refine ((logAdd_tells ..).counter j hj).trans ((bump_tget ..).trans ?_)
  by_cases h : ck 0x7200 5 = j
  · rw [if_pos h, if_pos h.symm]
  · rw [if_neg h, if_neg (Ne.symm h)]

theorem sramNoted_stands : Stands s (sramNoted kind unit word s) :=
  (bump_stands 0x7200 5 1 64 s).trans (logAdd_stands ..)

theorem sramNoted_dev : (sramNoted kind unit word s).dev = s.dev := logAdd_dev ..
theorem sramNoted_mm : (sramNoted kind unit word s).mm = s.mm := logAdd_mm ..
variable {kind unit word s} {err : List SymErr}

/-- A word that reads well does nothing. -/
theorem sramState_of_none (herr : hasError 36 err = false) : sramState kind unit word err s = s := by
  unfold sramState
  split
  · rfl
  · rw [if_pos (by simp [herr])]

variable (hup : s.dev.mainUp = true)
include hup

theorem sramState_of_corrected (hheld : s.sramHolds kind unit word = true) (herr : hasError 36 err = true)
    (hc : correctable 36 err = true) :
    sramState kind unit word err s = corrected ⟨sramCode kind, unit, word, 0, 0, err⟩ false s := by
  unfold sramState
  rw [if_neg (by simp [hup, hheld]), if_neg (by simp [herr]), if_pos hc]

theorem sramState_of_lost (hheld : s.sramHolds kind unit word = true) (herr : hasError 36 err = true)
    (hc : correctable 36 err = false) : sramState kind unit word err s = sramLost kind unit word s := by
  unfold sramState
  rw [if_neg (by simp [hup, hheld]), if_neg (by simp [herr]), if_neg (by simp [hc])]

end

/-! ## Each memory -/

section
variable {unit word : Nat} {s : State}

/-- What an error leaves that does not end work. -/
structure Contains (s t : State) : Prop where
  counter : t.counter 0x7200 5 = satAdd 64 (s.counter 0x7200 5) 1
  regs : t.regs = s.regs
  sec : t.sec = s.sec
  job : t.job.st = s.job.st ∧ t.job.attempt = s.job.attempt
  mem : t.mm.mem = s.mm.mem

/-- A core's memory fences the core. -/
theorem sramLost_core {kind : SramKind} {p : Nat} (hkind : kind = .tile ∨ kind = .side ∨ kind = .desc)
    (hp : s.dev.map[unit]? = some p) (hlt : p < 100) :
    sramLost kind unit word s = fenceCore (100 * (unit / 96) + p) 0xFF (sramNoted kind unit word s) := by
  have hdev : (sramNoted kind unit word s).dev.map[unit]? = some p := by rw [sramNoted_dev]; exact hp
  have hlost : sramLost kind unit word s = (match (sramNoted kind unit word s).dev.map[unit]? with
      | some p => if p = 0xFF then sramNoted kind unit word s
          else fenceCore (100 * (unit / 96) + p) 0xFF (sramNoted kind unit word s)
      | none => sramNoted kind unit word s) := by
    rcases hkind with rfl | rfl | rfl <;> rfl
  rw [hlost, hdev]
  exact if_neg (by omega)

theorem sramLost_fences {kind : SramKind} {p : Nat} (hkind : kind = .tile ∨ kind = .side ∨ kind = .desc)
    (hup : s.dev.mainUp = true) (hp : s.dev.map[unit]? = some p) (hlt : p < 100) (hunit : unit < 384)
    (hlen : s.dev.phys.length = 400) :
    (sramLost kind unit word s).counter 0x7200 5 = satAdd 64 (s.counter 0x7200 5) 1
      ∧ (sramLost kind unit word s).regs = s.regs ∧ (sramLost kind unit word s).sec = s.sec
      ∧ (sramLost kind unit word s).dev.phys.getD (100 * (unit / 96) + p) 3 = 2 := by
  rw [sramLost_core hkind hp hlt]
  have hnoted := sramNoted_stands kind unit word s
  have hdev := sramNoted_dev kind unit word s
  have hcount := sramNoted_counter kind unit word s (j := ck 0x7200 5) (by decide)
  generalize sramNoted kind unit word s = v at hnoted hdev hcount ⊢
  obtain ⟨_, _, hregs, hsec, hcounter⟩ := fenceCore_frame (100 * (unit / 96) + p) 0xFF v
  refine ⟨(hcounter _ ⟨by decide, by decide, by decide⟩ (by decide) (by decide)).trans (hcount.trans (if_pos rfl)),
    hregs.trans hnoted.regs, hsec.trans hnoted.sec, ?_⟩
  by_cases hgone : v.dev.phys.getD (100 * (unit / 96) + p) 3 = 2
  · rw [fenceCore_of_gone (.inr (.inr hgone))]
    exact hgone
  · exact fenceCore_phys (by rw [hdev]; exact hup) (by omega) hgone (by rw [hdev]; exact hlen)

/-- A cell leaves service. -/
theorem sramLost_cell : Contains s (sramLost .cell unit word s) ∧ unit ∈ (sramLost .cell unit word s).dev.badCells
    ∧ (sramLost .cell unit word s).counter 0x7200 9 = (sramLost .cell unit word s).dev.badCells.length := by
  have hlost : sramLost .cell unit word s = cellOut unit (sramNoted .cell unit word s) := rfl
  have hnoted := sramNoted_stands .cell unit word s
  have hmm := sramNoted_mm .cell unit word s
  have hcount := sramNoted_counter .cell unit word s (j := ck 0x7200 5) (by decide)
  rw [hlost]
  generalize sramNoted .cell unit word s = v at hnoted hmm hcount ⊢
  have hcell := cellOut_besideCell unit v
  rw [cellListed_rest] at hcell
  obtain ⟨l, hdev, hin, hlen⟩ := cellListed_dev unit v
  have hother := cellListed_counter unit v (j := ck 0x7200 5) (by decide)
  generalize cellListed unit v = w at hcell hdev hlen hother
  generalize cellOut unit v = t at hcell ⊢
  have ht : t.dev = w.dev := (congrArg State.dev hcell :)
  have hc : t.counters = w.counters := (congrArg State.counters hcell :)
  have hjob : t.job = v.job := (congrArg State.job hcell :)
  have hm : t.mm = v.mm := (congrArg State.mm hcell :)
  have hr : t.regs = v.regs := (congrArg State.regs hcell :)
  have hs : t.sec = v.sec := (congrArg State.sec hcell :)
  refine ⟨⟨?_, hr.trans hnoted.regs, hs.trans hnoted.sec, ?_, ?_⟩, ?_, ?_⟩
  · rw [State.counter, hc, hother, hcount, if_pos rfl]
  · rw [hjob]; exact ⟨hnoted.st, hnoted.attempt⟩
  · rw [hm, hmm]
  · rw [ht, hdev]; exact hin
  · rw [ht, hdev, State.counter, hc]; exact hlen

/-- A starter is forgotten. -/
theorem sramLost_starter : Contains s (sramLost .starter unit word s)
    ∧ klook (sramLost .starter unit word s).leaven.starters (4096 * unit + word) = none := by
  have hnoted := sramNoted_stands .starter unit word s
  have hmm := sramNoted_mm .starter unit word s
  have hcount := sramNoted_counter .starter unit word s (j := ck 0x7200 5) (by decide)
  have hlost : sramLost .starter unit word s = { sramNoted .starter unit word s with
      leaven := { (sramNoted .starter unit word s).leaven with
        starters := kdel (sramNoted .starter unit word s).leaven.starters (4096 * unit + word)
        lostStarters := (4096 * unit + word) :: (sramNoted .starter unit word s).leaven.lostStarters } } := rfl
  rw [hlost]
  generalize sramNoted .starter unit word s = v at hnoted hmm hcount ⊢
  refine ⟨⟨hcount.trans (if_pos rfl), hnoted.regs, hnoted.sec, ⟨hnoted.st, hnoted.attempt⟩, congrArg MemSt.mem hmm⟩, ?_⟩
  simp [klook, kdel]

theorem sramLost_pantry {e : Nat × Nat × Bool} (he : s.mm.line? (lineAddr unit word s.mm.interleave) = some e) :
    sramLost .pantry unit word s
      = lineLost (lineAddr unit word s.mm.interleave) e.2.2 (sramNoted .pantry unit word s) := by
  have hlost : sramLost .pantry unit word s = (match (sramNoted .pantry unit word s).mm.line?
        (lineAddr unit word (sramNoted .pantry unit word s).mm.interleave) with
      | some e => lineLost (lineAddr unit word (sramNoted .pantry unit word s).mm.interleave) e.2.2
          (sramNoted .pantry unit word s)
      | none => sramNoted .pantry unit word s) := rfl
  rw [hlost, sramNoted_mm, he]

end

section
variable {pa : Nat} {s : State}

/-- A clean line is fetched again. -/
theorem lineLost_clean (hgood : s.marked (pa / 128) = false) :
    lineLost pa false s = { s with mm := (s.mm.drop [pa]).touch [pa] false false } := by
  unfold State.marked at hgood
  have hbad : State.bad { s with mm := s.mm.drop [pa] } pa = false := by
    show ((s.mm.poison.contains (pa / 128) || s.mm.broken.contains (pa / 128)) && ((s.mm.drop [pa]).line? pa).isNone) = false
    rw [hgood]
    rfl
  unfold lineLost
  rw [if_neg (by simp), if_neg (by simp [hbad])]
  rfl

/-- A dirty line leaves its block marked. -/
theorem lineLost_dirty (s : State) (pa : Nat) :
    lineLost pa true s = retireNow (wantRetire (pa / pageSize) (markPoison (pa / 128) { s with mm := s.mm.drop [pa] })) := rfl

end

/-- Marking and retiring leave the pantries, main memory and the marks. -/
structure Marks (s t : State) : Prop where
  rest : t = { s with mm := t.mm }
  mem : t.mm.mem = s.mm.mem
  pantry : t.mm.pantry = s.mm.pantry
  interleave : t.mm.interleave = s.mm.interleave
  scrub : t.mm.scrubDone = s.mm.scrubDone
  poison : s.mm.poison ⊆ t.mm.poison
  broken : s.mm.broken ⊆ t.mm.broken

theorem Marks.refl (s : State) : Marks s s := ⟨rfl, rfl, rfl, rfl, rfl, fun _ h => h, fun _ h => h⟩

theorem Marks.trans {s t u : State} (h : Marks s t) (k : Marks t u) : Marks s u := by
  refine ⟨?_, k.mem.trans h.mem, k.pantry.trans h.pantry, k.interleave.trans h.interleave, k.scrub.trans h.scrub,
    fun _ hx => k.poison (h.poison hx), fun _ hx => k.broken (h.broken hx)⟩
  rw [k.rest, h.rest]

theorem markPoison_marks (b : Nat) (s : State) : Marks s (markPoison b s) := by
  unfold markPoison
  split
  · exact Marks.refl s
  · exact ⟨rfl, rfl, rfl, rfl, rfl, fun _ h => List.mem_append_left _ h, fun _ h => h⟩

theorem markBroken_marks (b : Nat) (s : State) : Marks s (markBroken b s) := by
  unfold markBroken
  split
  · exact Marks.refl s
  · exact ⟨rfl, rfl, rfl, rfl, rfl, fun _ h => h, fun _ h => List.mem_append_left _ h⟩

theorem wantRetire_marks (p : Nat) (s : State) : Marks s (wantRetire p s) := by
  unfold wantRetire
  split
  · exact Marks.refl s
  · exact ⟨rfl, rfl, rfl, rfl, rfl, fun _ h => h, fun _ h => h⟩

theorem retireNow_marks (s : State) : Marks s (retireNow s) := by
  unfold retireNow retirePages
  split
  · exact Marks.refl s
  · split
    · exact Marks.refl s
    · exact ⟨rfl, rfl, rfl, rfl, rfl, fun _ h => h, fun _ h => h⟩

theorem mem_markPoison (b : Nat) (s : State) : b ∈ (markPoison b s).mm.poison := by
  unfold markPoison
  split
  · next h => exact List.contains_iff_mem.mp h
  · exact List.mem_append_right _ (List.mem_singleton_self _)

theorem Marks.line? {s t : State} (h : Marks s t) (pa : Nat) : t.mm.line? pa = s.mm.line? pa := by
  unfold MemSt.line? MemSt.set MemSt.home
  rw [h.pantry, h.interleave]

/-- A dirty line is gone, and its block reads as poison. -/
theorem lineLost_marks (pa : Nat) (s : State) : Marks { s with mm := s.mm.drop [pa] } (lineLost pa true s)
    ∧ pa / 128 ∈ (lineLost pa true s).mm.poison := by
  have hmark := markPoison_marks (pa / 128) { s with mm := s.mm.drop [pa] }
  have hpoison := mem_markPoison (pa / 128) { s with mm := s.mm.drop [pa] }
  rw [lineLost_dirty]
  generalize markPoison (pa / 128) { s with mm := s.mm.drop [pa] } = v at hmark hpoison ⊢
  have hwant := wantRetire_marks (pa / pageSize) v
  have hretire := retireNow_marks (wantRetire (pa / pageSize) v)
  exact ⟨hmark.trans (hwant.trans hretire), hretire.poison (hwant.poison hpoison)⟩

section
variable {unit word : Nat} {s : State} {e : Nat × Nat × Bool}
  (he : s.mm.line? (lineAddr unit word s.mm.interleave) = some e)
include he

theorem sramLost_clean (hclean : e.2.2 = false) (hgood : s.marked (lineAddr unit word s.mm.interleave / 128) = false) :
    Contains s (sramLost .pantry unit word s)
      ∧ ((sramLost .pantry unit word s).mm.line? (lineAddr unit word s.mm.interleave)).isSome = true := by
  have hnoted := sramNoted_stands .pantry unit word s
  have hmm := sramNoted_mm .pantry unit word s
  have hcount := sramNoted_counter .pantry unit word s (j := ck 0x7200 5) (by decide)
  rw [sramLost_pantry he, hclean]
  generalize sramNoted .pantry unit word s = v at hnoted hmm hcount ⊢
  have hmem : v.mm.mem = s.mm.mem := by rw [hmm]
  generalize lineAddr unit word s.mm.interleave = pa at hgood ⊢
  rw [lineLost_clean (by rw [State.marked, hmm]; exact hgood)]
  exact ⟨⟨hcount.trans (if_pos rfl), hnoted.regs, hnoted.sec, ⟨hnoted.st, hnoted.attempt⟩, hmem⟩,
    line?_touch _ pa false false⟩

theorem sramLost_dirty (hdirty : e.2.2 = true) : Contains s (sramLost .pantry unit word s)
    ∧ (sramLost .pantry unit word s).mm.line? (lineAddr unit word s.mm.interleave) = none
    ∧ lineAddr unit word s.mm.interleave / 128 ∈ (sramLost .pantry unit word s).mm.poison := by
  have hnoted := sramNoted_stands .pantry unit word s
  have hmm := sramNoted_mm .pantry unit word s
  have hcount := sramNoted_counter .pantry unit word s (j := ck 0x7200 5) (by decide)
  rw [sramLost_pantry he, hdirty]
  generalize sramNoted .pantry unit word s = v at hnoted hmm hcount ⊢
  have hmem : v.mm.mem = s.mm.mem := by rw [hmm]
  generalize lineAddr unit word s.mm.interleave = pa
  obtain ⟨hmarks, hpoison⟩ := lineLost_marks pa v
  have hline := (hmarks.line? pa).trans (line?_drop v.mm pa)
  replace hmem : (lineLost pa true v).mm.mem = s.mm.mem := hmarks.mem.trans hmem
  have hrest := hmarks.rest
  generalize lineLost pa true v = t at hrest hpoison hline hmem ⊢
  refine ⟨⟨?_, ?_, ?_, ?_, hmem⟩, hline, hpoison⟩
  · rw [State.counter, hrest]; exact hcount.trans (if_pos rfl)
  · rw [hrest]; exact hnoted.regs
  · rw [hrest]; exact hnoted.sec
  · rw [hrest]; exact ⟨hnoted.st, hnoted.attempt⟩

end

/-! ## Corrected errors -/

/-- The counter of a memory's corrections. -/
def correctedSub (kind : SramKind) : Nat := match kind with | .tile => 1 | .side | .desc => 2 | .cell | .starter => 3 | .pantry => 4

theorem countCorrected_sram (kind : SramKind) (unit word : Nat) (err : List SymErr) (s : State) :
    countCorrected ⟨sramCode kind, unit, word, 0, 0, err⟩ false s = bump 0x7200 (correctedSub kind) 1 64 s := by
  cases kind <;> rfl

theorem codeSyms_sram (kind : SramKind) : codeSyms (sramCode kind) = 36 := by
  cases kind <;> rfl

theorem corrected_sram {kind : SramKind} {err : List SymErr} (unit word : Nat) (s : State) (herr : hasError 36 err = true)
    (hc : correctable 36 err = true) :
    ∃ d, corrected ⟨sramCode kind, unit, word, 0, 0, err⟩ false s = (if s.job.eccLogged.contains (sramCode kind, unit) then
        bump 0x7200 (correctedSub kind) 1 64 s
      else logAdd 0x0401 (memWhere (sramCode kind) unit).src (memWhere (sramCode kind) unit).hearth
        (memWhere (sramCode kind) unit).unit 0xFFFF d
        { bump 0x7200 (correctedSub kind) 1 64 s with
          job := { s.job with eccLogged := (sramCode kind, unit) :: s.job.eccLogged } }) := by
  refine ⟨[sramCode kind, word] ++ w64 0 ++ w64 0, ?_⟩
  unfold corrected
  simp only [codeSyms_sram, herr, hc, countCorrected_sram]
  rfl

/-- A correction is counted, and logged once for each place. -/
theorem sramCounts {kind : SramKind} {unit word : Nat} {err : List SymErr} {s : State} (hup : s.dev.mainUp = true)
    (hheld : s.sramHolds kind unit word = true) (herr : hasError 36 err = true) (hc : correctable 36 err = true) :
    ∃ t, exec (.sramUncorrectable kind unit ⟨word, err⟩) s = .next t
      ∧ t.counter 0x7200 (correctedSub kind) = satAdd 64 (s.counter 0x7200 (correctedSub kind)) 1 ∧ t.mm = s.mm
      ∧ t.dev = s.dev ∧ t.cores = s.cores ∧ t.job.st = s.job.st ∧ t.job.attempt = s.job.attempt ∧ t.mm.mem = s.mm.mem := by
  obtain ⟨d, heq⟩ := corrected_sram (kind := kind) unit word s herr hc
  have hstate := (sramState_of_corrected hup hheld herr hc).trans heq
  have hbump : (bump 0x7200 (correctedSub kind) 1 64 s).counter 0x7200 (correctedSub kind)
      = satAdd 64 (s.counter 0x7200 (correctedSub kind)) 1 := (bump_tget ..).trans (if_pos rfl)
  have hkey : ck 0x7200 (correctedSub kind) ≠ ck 0x1100 0x0A := by cases kind <;> decide
  refine ⟨_, congrArg Host.Outcome.next hstate, ?_⟩
  split
  · exact ⟨hbump, rfl, rfl, rfl, rfl, rfl, rfl⟩
  · generalize hv : ({ bump 0x7200 (correctedSub kind) 1 64 s with
        job := { s.job with eccLogged := (sramCode kind, unit) :: s.job.eccLogged } } : State) = v
    have hcount : v.counter 0x7200 (correctedSub kind) = satAdd 64 (s.counter 0x7200 (correctedSub kind)) 1 := by
      rw [← hv]; exact hbump
    have hmm : v.mm = s.mm := by rw [← hv]; rfl
    have hdev : v.dev = s.dev := by rw [← hv]; rfl
    have hcores : v.cores = s.cores := by rw [← hv]; rfl
    have hjob : v.job.st = s.job.st ∧ v.job.attempt = s.job.attempt := by rw [← hv]; exact ⟨rfl, rfl⟩
    have hlog := logAdd_stands 0x0401 (memWhere (sramCode kind) unit).src (memWhere (sramCode kind) unit).hearth
        (memWhere (sramCode kind) unit).unit 0xFFFF d v
    refine ⟨((logAdd_tells ..).counter _ hkey).trans hcount, (logAdd_mm ..).trans hmm, (logAdd_dev ..).trans hdev,
      (logAdd_cores ..).trans hcores, hlog.st.trans hjob.1, hlog.attempt.trans hjob.2, ?_⟩
    rw [logAdd_mm, hmm]

theorem sramErrorsAreContained : Claims.SramErrorsAreContained := by
  intro unit word err s hup pa same after counts
  have plain {kind : SramKind} (h : kind ≠ .pantry) : s.sramHolds kind unit word = true := by
    cases kind
    case pantry => exact absurd rfl h
    all_goals rfl
  have held (he : (s.mm.line? pa).isSome = true) : s.sramHolds .pantry unit word = true := he
  have lost {kind : SramKind} (hheld : s.sramHolds kind unit word = true) (herr : hasError 36 err = true)
      (hc : correctable 36 err = false) :
      exec (.sramUncorrectable kind unit ⟨word, err⟩) s = .next (sramLost kind unit word s) :=
    congrArg Host.Outcome.next (sramState_of_lost hup hheld herr hc)
  refine ⟨fun herr hc => ⟨?_, ?_, ?_, ?_⟩, fun herr hc => ?_,
    fun kind herr => congrArg Host.Outcome.next (sramState_of_none herr)⟩
  · intro kind p hkind hp hlt hunit hlen
    have hheld : kind ≠ .pantry := by rcases hkind with rfl | rfl | rfl <;> decide
    exact ⟨_, lost (plain hheld) herr hc, sramLost_fences hkind hup hp hlt hunit hlen⟩
  · obtain ⟨h, hcell⟩ := sramLost_cell (unit := unit) (word := word) (s := s)
    exact ⟨_, lost (plain (by decide)) herr hc, h.counter, h.regs, h.sec, ⟨h.job.1, h.job.2, h.mem⟩, hcell⟩
  · obtain ⟨h, hstarter⟩ := sramLost_starter (unit := unit) (word := word) (s := s)
    exact ⟨_, lost (plain (by decide)) herr hc, h.counter, h.regs, h.sec, ⟨h.job.1, h.job.2, h.mem⟩, hstarter⟩
  · intro e he
    have hheld : s.sramHolds .pantry unit word = true := held (by rw [he]; rfl)
    refine ⟨fun hclean hgood => ?_, fun hdirty => ?_⟩
    · obtain ⟨h, hline⟩ := sramLost_clean he hclean hgood
      exact ⟨_, lost hheld herr hc, h.counter, h.regs, h.sec, ⟨h.job.1, h.job.2, h.mem⟩, hline⟩
    · obtain ⟨h, hline⟩ := sramLost_dirty he hdirty
      exact ⟨_, lost hheld herr hc, h.counter, h.regs, h.sec, ⟨h.job.1, h.job.2, h.mem⟩, hline⟩
  · exact ⟨sramCounts hup (plain (by decide)) herr hc, sramCounts hup (plain (by decide)) herr hc,
      sramCounts hup (plain (by decide)) herr hc, sramCounts hup (plain (by decide)) herr hc,
      sramCounts hup (plain (by decide)) herr hc, fun he => sramCounts hup (held he) herr hc⟩

/-- Settles O48: a fence moves the logical core to its spare and repeats or halts the work; an on-chip error is contained by
its kind. -/
theorem fencesAndSramErrors : Obligations.FencesAndSramErrors := ⟨fencedCoresAreReplaced, sramErrorsAreContained⟩

end Sys2Proof.Machine
end
section
/-! Uncorrectable blocks of main memory, and scrubbing (R103, R313, R317, R318, R320, Table 13.3). -/

namespace Sys2Proof.Machine

/-! ## What is noted of a block -/

theorem Marks.stands {s t : State} (h : Marks s t) : Stands s t := by
  rw [h.rest]
  exact stands_mm _ s

theorem Marks.counters {s t : State} (h : Marks s t) : t.counters = s.counters := by rw [h.rest]

theorem State.marked_iff (s : State) (b : Nat) : s.marked b = true ↔ b ∈ s.mm.poison ∨ b ∈ s.mm.broken := by
  simp [State.marked]

theorem Marks.marked {s t : State} (h : Marks s t) {b : Nat} (hb : s.marked b = true) : t.marked b = true := by
  rw [State.marked_iff] at hb ⊢
  exact hb.imp (fun x => h.poison x) (fun x => h.broken x)

theorem marked_markBroken (b : Nat) (s : State) : (markBroken b s).marked b = true := by
  rw [State.marked_iff]
  unfold markBroken
  split
  · next h => exact .inr (List.contains_iff_mem.mp h)
  · exact .inr (List.mem_append_right _ (List.mem_singleton_self _))

/-- The counter of an uncorrectable block: poison, or another pattern. -/
def lostSub (pa : Nat) (s : State) : Nat := if s.mm.poison.contains (pa / 128) then 4 else 3

/-- An uncorrectable block has been counted and logged, and perhaps marked; nothing else but the log has moved. -/
structure Noted (s t : State) (pa : Nat) : Prop where
  stands : Stands s t
  counted : t.counter 0x4100 (lostSub pa s) = satAdd 64 (s.counter 0x4100 (lostSub pa s)) 1
  counter : ∀ j, j ≠ ck 0x1100 0x0A → j ≠ ck 0x4100 3 → j ≠ ck 0x4100 4 → tget 0 t.counters j = tget 0 s.counters j
  mem : t.mm.mem = s.mm.mem
  scrub : t.mm.scrubDone = s.mm.scrubDone

theorem logBlock_eq (c pa va : Nat) (s : State) : logBlock c pa va s = logAdd ECC_UNCORRECTABLE 4 (c / 6) c 0xFFFF
    ([7, c] ++ w64 pa ++ w64 va) (bump 0x4100 (lostSub pa s) 1 64 s) := by
  unfold logBlock lostSub
  split <;> rfl

theorem logBlock_mm (c pa va : Nat) (s : State) : (logBlock c pa va s).mm = s.mm := by
  rw [logBlock_eq]; exact logAdd_mm ..

theorem ck_lostSub (pa : Nat) (s : State) : ck 0x4100 (lostSub pa s) = ck 0x4100 3 ∨ ck 0x4100 (lostSub pa s) = ck 0x4100 4 := by
  unfold lostSub; split
  · exact .inr rfl
  · exact .inl rfl

theorem logBlock_noted (c pa va : Nat) (s : State) : Noted s (logBlock c pa va s) pa := by
  have hmm := logBlock_mm c pa va s
  have hkey := ck_lostSub pa s
  have hne : ck 0x4100 (lostSub pa s) ≠ ck 0x1100 0x0A := by rcases hkey with e | e <;> rw [e] <;> decide
  have htells := logAdd_tells ECC_UNCORRECTABLE 4 (c / 6) c 0xFFFF ([7, c] ++ w64 pa ++ w64 va) (bump 0x4100 (lostSub pa s) 1 64 s)
  rw [← logBlock_eq] at htells
  refine ⟨?_, (htells.counter _ hne).trans ((bump_tget ..).trans (if_pos rfl)), fun j h1 h2 h3 => ?_, by rw [hmm], by rw [hmm]⟩
  · rw [logBlock_eq]
    exact (bump_stands ..).trans (logAdd_stands ..)
  · refine (htells.counter j h1).trans ((bump_tget ..).trans (if_neg fun e => ?_))
    rcases hkey with k | k
    · exact h2 (e.symm.trans k)
    · exact h3 (e.symm.trans k)

theorem Noted.marks {s t u : State} {pa : Nat} (h : Noted s t pa) (k : Marks t u) : Noted s u pa := by
  obtain ⟨h1, h2, h3, h4, h5⟩ := h
  exact ⟨h1.trans k.stands, by rw [State.counter, k.counters]; exact h2, fun j a b c => by rw [k.counters]; exact h3 j a b c,
    k.mem.trans h4, k.scrub.trans h5⟩

theorem noteBlock_noted (c pa va : Nat) (s : State) :
    Noted s (noteBlock c pa va s) pa ∧ (noteBlock c pa va s).marked (pa / 128) = true := by
  have hlog := logBlock_noted c pa va s
  unfold noteBlock
  generalize logBlock c pa va s = u at hlog
  have hmark : Marks u (if u.marked (pa / 128) then u else markBroken (pa / 128) u)
      ∧ (if u.marked (pa / 128) then u else markBroken (pa / 128) u).marked (pa / 128) = true := by
    split
    · next h => exact ⟨Marks.refl u, h⟩
    · exact ⟨markBroken_marks _ u, marked_markBroken _ u⟩
  dsimp only
  generalize (if u.marked (pa / 128) then u else markBroken (pa / 128) u) = v at hmark ⊢
  obtain ⟨hv, hmarked⟩ := hmark
  have hwant := wantRetire_marks (pa / pageSize) v
  have hretire := retireNow_marks (wantRetire (pa / pageSize) v)
  exact ⟨hlog.marks (hv.trans (hwant.trans hretire)), hretire.marked (hwant.marked hmarked)⟩

/-- Where scratch lies is the recipe's to say. -/
theorem scratchAt_of_recipe {s t : State} (h : t.recipe = s.recipe) (va : Nat) : t.scratchAt va = s.scratchAt va := by
  have hcont : t.cont = s.cont := by rw [State.cont, State.cont, h]
  unfold State.scratchAt State.persistRanges State.rootRanges State.blocks State.probs State.map State.params State.ksec
  rw [hcont]

/-! ## Readers -/

theorem rereadHalf_stands (n : Nat) (s : State) : Stands s (rereadHalf n s) ∧ (rereadHalf n s).counters = s.counters := by
  unfold rereadHalf
  split
  · exact ⟨Stands.refl s, rfl⟩
  · exact ⟨⟨rfl, rfl, rfl, rfl, rfl, rfl, rfl, rfl, rfl, rfl, rfl, rfl⟩, rfl⟩

/-- What a reader's consequence leaves beside the job. -/
structure Handled (s t : State) : Prop where
  regs : t.regs = s.regs
  sec : t.sec = s.sec
  counter : t.counter 0x4100 3 = s.counter 0x4100 3 ∧ t.counter 0x4100 4 = s.counter 0x4100 4

theorem Ended.handled {s t : State} (h : Ended s t) : Handled s t :=
  ⟨h.regs, h.sec, h.onward.counter _ ⟨by decide, by decide, by decide⟩, h.onward.counter _ ⟨by decide, by decide, by decide⟩⟩

theorem Evaluates.handled {s t : State} (h : Evaluates s t) : Handled s t :=
  ⟨h.regs, h.sec, h.counter _ (by decide) (by decide), h.counter _ (by decide) (by decide)⟩

theorem Handled.trans {s t u : State} (h : Handled s t) (k : Handled t u) : Handled s u :=
  ⟨k.regs.trans h.regs, k.sec.trans h.sec, k.counter.1.trans h.counter.1, k.counter.2.trans h.counter.2⟩

/-- An uncorrectable block counted, and then handled. -/
theorem Noted.handled {s u t : State} {pa : Nat} (h : Noted s u pa) (k : Handled u t) : t.regs = s.regs ∧ t.sec = s.sec
    ∧ t.counter 0x4100 (lostSub pa s) = satAdd 64 (s.counter 0x4100 (lostSub pa s)) 1 := by
  refine ⟨k.regs.trans h.stands.regs, k.sec.trans h.stands.sec, Eq.trans ?_ h.counted⟩
  unfold lostSub
  split
  · exact k.counter.2
  · exact k.counter.1

/-- Scratch lost in a step gives the attempt up. -/
theorem scratchAbort_repeats (va : Nat) {s : State} (h : CanRepeat s) :
    Handled s (scratchAbort va s) ∧ Repeats STEP_REPEAT_FAULT s (scratchAbort va s) := by
  have key (u : State) (hu : Stands s u ∧ u.counters = s.counters) :
      Handled s (abortOwn STEP_REPEAT_FAULT [ECC_UNCORRECTABLE] u)
        ∧ Repeats STEP_REPEAT_FAULT s (abortOwn STEP_REPEAT_FAULT [ECC_UNCORRECTABLE] u) := by
    obtain ⟨hstands, hcount⟩ := hu
    have hfirst : Handled s u := ⟨hstands.regs, hstands.sec, by rw [State.counter, hcount]; rfl, by rw [State.counter, hcount]; rfl⟩
    exact ⟨hfirst.trans (abortOwn_ended ..).handled, hstands.repeats h⟩
  have hre := rereadHalf_stands s.job.step s
  refine key _ ?_
  split
  · split
    · exact hre
    · exact ⟨Stands.refl s, rfl⟩
  · exact ⟨Stands.refl s, rfl⟩

/-- The marks a state holds. -/
def State.marks (s : State) : List Nat × List Nat := (s.mm.poison, s.mm.broken)

theorem marked_of_marks {s t : State} (h : t.marks = s.marks) (b : Nat) : t.marked b = s.marked b := by
  obtain ⟨hp, hb⟩ := Prod.ext_iff.mp h
  change t.mm.poison = s.mm.poison at hp
  change t.mm.broken = s.mm.broken at hb
  rw [State.marked, State.marked, hp, hb]

theorem marks_of_mm {s t : State} (h : t.mm = s.mm) : t.marks = s.marks := by rw [State.marks, State.marks, h]

theorem clearAttempt_marks (s : State) : (clearAttempt s).marks = s.marks := rfl

theorem retirePages_marks (s : State) : (retirePages s).marks = s.marks := by unfold retirePages; split <;> rfl

theorem clearedForHalt_marks (code : Nat) (s : State) : (clearedForHalt code s).marks = s.marks := by
  have hsend : (bump 0x7200 0x0D 1 32 (sendMembers kHALT (s.msg code s.devId false) s)).mm = s.mm :=
    (sendMembers_sends _ _ s).only.mm
  unfold clearedForHalt
  rw [marks_of_mm (hushAll_only _ _).mm, marks_of_mm (cutPieces_mm _ _), clearAttempt_marks, marks_of_mm hsend]

theorem haltNow_marks {code : Nat} {s : State} (h : s.job.st.live = true ∨ s.job.st = .loaded) :
    (haltNow code s).marks = s.marks := by
  have hclear := clearedForHalt_marks code s
  rw [haltNow_eq h]
  generalize clearedForHalt code s = u at hclear
  have hset := marks_of_mm (setJob_mm .halted code (haltReady u))
  refine Eq.trans ?_ (hset.trans hclear)
  exact retirePages_marks _

theorem abandonEval_marks (code : Nat) (s : State) : (abandonEval code s).marks = s.marks := by
  have hmm := (abandonEval_evaluates code s).mm
  generalize abandonEval code s = t at hmm
  rw [State.marks, hmm]
  rfl

theorem ckptAbandon_handled (s : State) : Handled s (ckptAbandon s)
    ∧ (ckptAbandon s).job.st = s.job.st ∧ (ckptAbandon s).job.committed = s.job.committed
    ∧ (ckptAbandon s).recipe.loaded = s.recipe.loaded := by
  unfold ckptAbandon
  dsimp only
  generalize [5, (bump 0x9100 7 1 32 s).bnd.ckptSlot] ++ w64 (bump 0x9100 7 1 32 s).bnd.ckptStep = d
  have htells := logAdd_tells 0 8 0xFF 0 0xFFFF d (bump 0x9100 7 1 32 s)
  have hstands := logAdd_stands 0 8 0xFF 0 0xFFFF d (bump 0x9100 7 1 32 s)
  have hcounter (k : Nat) (hk : ck 0x4100 k ≠ ck 0x1100 0x0A) (hb : ck 0x9100 7 ≠ ck 0x4100 k) :
      (logPlain 0 d (bump 0x9100 7 1 32 s)).counter 0x4100 k = s.counter 0x4100 k :=
    (htells.counter _ hk).trans ((bump_tget ..).trans (if_neg hb))
  have h3 := hcounter 3 (by decide) (by decide)
  have h4 := hcounter 4 (by decide) (by decide)
  change Stands _ (logPlain 0 d (bump 0x9100 7 1 32 s)) at hstands
  generalize logPlain 0 d (bump 0x9100 7 1 32 s) = u at hstands h3 h4
  exact ⟨⟨hstands.regs, hstands.sec, h3, h4⟩, hstands.st, hstands.committed, congrArg Recipe.loaded hstands.recipe⟩

/-- A persistent block lost while a checkpoint is written halts the job. -/
theorem ckptLost_halted {s : State} (h : s.job.st.live = true) :
    Handled s (ckptLost s) ∧ Halted ECC_UNCORRECTABLE s (ckptLost s) := by
  have key (u : State) (hu : Handled s u ∧ u.job.st = s.job.st ∧ u.job.committed = s.job.committed
      ∧ u.recipe.loaded = s.recipe.loaded) :
      Handled s (haltNow ECC_UNCORRECTABLE u) ∧ Halted ECC_UNCORRECTABLE s (haltNow ECC_UNCORRECTABLE u) := by
    obtain ⟨hh, hst, hc, hr⟩ := hu
    exact ⟨hh.trans (haltNow_ended ..).handled,
      (haltNow_halted (.inl (by rw [hst]; exact h))).congr hc hr hh.regs hh.sec⟩
  have habandon := ckptAbandon_handled s
  refine key _ ?_
  split
  · exact ⟨⟨rfl, rfl, rfl, rfl⟩, rfl, rfl, rfl⟩
  · exact habandon

section
variable {r : EccReader} {va : Nat} {u : State}

theorem blockReader_scratch (hr : r = .stepWork ∨ r = .other) (h : u.scratchAt va = true) :
    blockReader r va u = scratchAbort va u := by
  rcases hr with rfl | rfl <;> simp only [blockReader, h, if_true]

theorem blockReader_persistent (hr : r = .stepWork ∨ r = .other ∨ r = .evaluation) (h : u.scratchAt va = false) :
    blockReader r va u = halt ECC_UNCORRECTABLE u := by
  rcases hr with rfl | rfl | rfl <;> simp only [blockReader, h, Bool.false_eq_true, if_false]

theorem blockReader_evaluation (h : u.scratchAt va = true) : blockReader .evaluation va u = abandonEval ECC_UNCORRECTABLE u := by
  unfold blockReader
  rw [if_pos h]

end

/-! ## The read -/

section
variable {pa va : Nat} {r : EccReader} {err : List SymErr} {s : State} (hup : s.mm.up = true) (hline : s.mm.line? pa = none)
  (hreads : s.reads pa va r = true)
include hup hline hreads

theorem gddrState_of_lost (h : s.marked (pa / 128) = true ∨ (hasError 68 err = true ∧ correctable 68 err = false)) :
    gddrState (place pa s.mm.interleave).1 pa va r err s = blockLost (place pa s.mm.interleave).1 pa va r s := by
  unfold gddrState
  rw [if_neg (by simp [hup, hline, hreads])]
  split
  · rfl
  · next hm =>
    obtain ⟨herr, hc⟩ := h.resolve_left hm
    rw [if_neg (by simp [herr]), if_neg (by simp [hc])]

theorem gddrState_of_corrected (hm : s.marked (pa / 128) = false) (herr : hasError 68 err = true) (hc : correctable 68 err = true) :
    gddrState (place pa s.mm.interleave).1 pa va r err s = corrected ⟨7, (place pa s.mm.interleave).1,
      (place pa s.mm.interleave).1, pa, va, err⟩ false (touchLines [pa] false (r == .prefetch) s) := by
  unfold gddrState
  rw [if_neg (by simp [hup, hline, hreads]), if_neg (by simp [hm]), if_neg (by simp [herr]), if_pos hc]

end

theorem gddrState_prefetch {c pa va : Nat} {err : List SymErr} {s : State}
    (h : s.marked (pa / 128) = true ∨ (hasError 68 err = true ∧ correctable 68 err = false)) :
    gddrState c pa va .prefetch err s = s := by
  unfold gddrState
  split
  · rfl
  · split
    · rfl
    · next hm =>
      obtain ⟨herr, hc⟩ := h.resolve_left hm
      rw [if_neg (by simp [herr]), if_neg (by simp [hc])]
      rfl

theorem blockLost_reader {c pa va : Nat} {r : EccReader} {s : State} (hpage : 128 ≤ pa / pageSize) (h1 : r ≠ .prefetch)
    (h2 : r ≠ .steward) : blockLost c pa va r s = blockReader r va (noteBlock c pa va s) := by
  unfold blockLost
  rw [if_neg h1, if_neg (by simp [h2, hpage])]

/-- The state after a correction: counted, and logged once for each memory. -/
structure CountsOne (sub : Nat) (s t : State) : Prop where
  counted : t.counter 0x4100 sub = satAdd 64 (s.counter 0x4100 sub) 1
  counter : ∀ j, j ≠ ck 0x1100 0x0A → j ≠ ck 0x4100 sub → j < ck 0x14105 0 → tget 0 t.counters j = tget 0 s.counters j
  mm : t.mm = s.mm
  job : t.job.st = s.job.st ∧ t.job.attempt = s.job.attempt

theorem corrected_counts {c pa va : Nat} {err : List SymErr} (scrub : Bool) (s : State) (herr : hasError 68 err = true)
    (hc : correctable 68 err = true) :
    CountsOne (if scrub then 2 else 1) s (corrected ⟨7, c, c, pa, va, err⟩ scrub s) := by
  have hsub : ck 0x4100 (if scrub then 2 else 1) < ck 0x14105 0 ∧ ck 0x4100 (if scrub then 2 else 1) ≠ ck 0x1100 0x0A := by
    cases scrub <;> decide
  have hbig : ck 0x14105 0 ≤ ck 0x14105 c := Nat.le_add_right ..
  have hcount : countCorrected ⟨7, c, c, pa, va, err⟩ scrub s
      = bump 0x14105 c 1 32 (bump 0x4100 (if scrub then 2 else 1) 1 64 s) := rfl
  have hok : (!(hasError (codeSyms 7) err && correctable (codeSyms 7) err)) = false := by
    rw [show codeSyms 7 = 68 from rfl, herr, hc]; rfl
  generalize (if scrub then 2 else 1) = sub at hsub hcount ⊢
  have hv : CountsOne sub s (bump 0x14105 c 1 32 (bump 0x4100 sub 1 64 s)) := by
    refine ⟨?_, fun j _ hne hj => ?_, rfl, rfl, rfl⟩
    · exact (bump_tget ..).trans ((if_neg (by omega)).trans ((bump_tget ..).trans (if_pos rfl)))
    · exact (bump_tget ..).trans ((if_neg (by omega)).trans ((bump_tget ..).trans (if_neg (Ne.symm hne))))
  unfold corrected
  rw [if_neg (by simp [hok]), hcount]
  generalize bump 0x14105 c 1 32 (bump 0x4100 sub 1 64 s) = v at hv
  obtain ⟨hcounted, hcounter, hmm, hst, hattempt⟩ := hv
  dsimp only
  split
  · exact ⟨hcounted, hcounter, hmm, hst, hattempt⟩
  · generalize hw : ({ v with job := { v.job with eccLogged := (7, c) :: v.job.eccLogged } } : State) = w
    have hwc : w.counters = v.counters := by rw [← hw]
    have hwm : w.mm = v.mm := by rw [← hw]
    have hwj : w.job.st = v.job.st ∧ w.job.attempt = v.job.attempt := by rw [← hw]; exact ⟨rfl, rfl⟩
    have htells := logAdd_tells 0x0401 (memWhere 7 c).src (memWhere 7 c).hearth (memWhere 7 c).unit 0xFFFF
      ([7, c] ++ w64 pa ++ w64 va) w
    have hstands := logAdd_stands 0x0401 (memWhere 7 c).src (memWhere 7 c).hearth (memWhere 7 c).unit 0xFFFF
      ([7, c] ++ w64 pa ++ w64 va) w
    exact ⟨(htells.counter _ hsub.2).trans (by rw [hwc]; exact hcounted),
      fun j h1 h2 h3 => (htells.counter j h1).trans (by rw [hwc]; exact hcounter j h1 h2 h3),
      (logAdd_mm ..).trans (hwm.trans hmm), hstands.st.trans (hwj.1.trans hst), hstands.attempt.trans (hwj.2.trans hattempt)⟩

theorem uncorrectableBlocksAreHandled : Claims.UncorrectableBlocksAreHandled := by
  intro pa va err s hup hline c lost n after
  have hn : n = lostSub pa s := rfl
  have step {r : EccReader} (hreads : s.reads pa va r = true) (hlost : lost) :
      exec (.gddr7Uncorrectable c pa va r err) s = .next (blockLost c pa va r s) :=
    congrArg Host.Outcome.next (gddrState_of_lost hup hline hreads hlost)
  have reader {r : EccReader} {p : State → Prop} (hlost : lost) (hpage : 128 ≤ pa / pageSize)
      (hphys : ∃ p, s.phys va = some p ∧ p / 128 = pa / 128) (h1 : r ≠ .prefetch) (h2 : r ≠ .steward)
      (h : ∀ u, Noted s u pa → u.marked (pa / 128) = true → Handled u (blockReader r va u) ∧ p (blockReader r va u)) :
      after r p := by
    have hreads : s.reads pa va r = true := by
      obtain ⟨q, hq, heq⟩ := hphys
      simp [State.reads, hq, heq]
    obtain ⟨hnoted, hmarked⟩ := noteBlock_noted c pa va s
    obtain ⟨hh, hp⟩ := h _ hnoted hmarked
    refine ⟨_, step hreads hlost, ?_⟩
    rw [blockLost_reader hpage h1 h2]
    obtain ⟨hregs, hsec, hcount⟩ := hnoted.handled hh
    exact ⟨hregs, hsec, hcount, hp⟩
  refine ⟨fun hlost hpage hphys => ⟨fun r hr => ⟨fun hscr hcan => ?_, fun hscr hnow => ?_⟩, fun hscr => ?_, fun hscr hnow => ?_,
    fun hlive => ?_⟩, fun hlost hheld => ?_, fun hlost => congrArg Host.Outcome.next (gddrState_prefetch hlost),
    fun r hm herr hc hreads => ?_⟩
  · refine reader hlost hpage hphys (by rcases hr with rfl | rfl <;> decide) (by rcases hr with rfl | rfl <;> decide)
      fun u hu _ => ?_
    have hread := blockReader_scratch hr ((scratchAt_of_recipe hu.stands.recipe va).trans hscr)
    obtain ⟨hh, hrep⟩ := scratchAbort_repeats va (hu.stands.canRepeat hcan)
    rw [Repeats, hu.stands.devId] at hrep
    rw [hread]
    exact ⟨hh, hu.stands.repeatsFrom hrep⟩
  · refine reader hlost hpage hphys (by rcases hr with rfl | rfl <;> decide) (by rcases hr with rfl | rfl <;> decide)
      fun u hu hmarked => ?_
    have hread := blockReader_persistent (hr.imp_right .inl) ((scratchAt_of_recipe hu.stands.recipe va).trans hscr)
    have hnow' := hu.stands.haltsNow hnow
    have hmarks := haltNow_marks (code := ECC_UNCORRECTABLE) hnow'.1
    rw [← halt_eq hnow'] at hmarks
    rw [hread]
    exact ⟨(halt_ended ..).handled, hu.stands.halted hnow, (marked_of_marks hmarks _).trans hmarked⟩
  · refine reader hlost hpage hphys (by decide) (by decide) fun u hu hmarked => ?_
    have hread := blockReader_evaluation ((scratchAt_of_recipe hu.stands.recipe va).trans hscr)
    have heval := abandonEval_evaluates ECC_UNCORRECTABLE u
    have hmarks := abandonEval_marks ECC_UNCORRECTABLE u
    rw [hread]
    generalize abandonEval ECC_UNCORRECTABLE u = v at heval hmarks
    exact ⟨heval.handled, heval.attempt.1.trans hu.stands.attempt, (marked_of_marks hmarks _).trans hmarked⟩
  · refine reader hlost hpage hphys (by decide) (by decide) fun u hu _ => ?_
    have hread := blockReader_persistent (r := .evaluation) (.inr (.inr rfl))
      ((scratchAt_of_recipe hu.stands.recipe va).trans hscr)
    rw [hread]
    exact ⟨(halt_ended ..).handled, hu.stands.halted hnow⟩
  · refine reader hlost hpage hphys (by decide) (by decide) fun u hu _ => ?_
    obtain ⟨hh, hhalt⟩ := ckptLost_halted (s := u) (by rw [hu.stands.st]; exact hlive)
    exact ⟨hh, hhalt.congr hu.stands.committed (by rw [hu.stands.recipe]) hu.stands.regs hu.stands.sec⟩
  · have hlost' : blockLost c pa va .steward s = containerLost pa (logBlock c pa va s) := by
      unfold blockLost
      rw [if_neg (by decide), if_pos (by simp)]
    have hlog := logBlock_noted c pa va s
    have hmm := logBlock_mm c pa va s
    refine ⟨_, step rfl hlost, ?_⟩
    rw [hlost']
    generalize logBlock c pa va s = u at hlog hmm
    have hdamaged : u.mm.loadedPages.contains (pa / pageSize) = true := by rw [hmm]; exact List.contains_iff_mem.mpr hheld
    refine ⟨hlog.stands.regs, hlog.stands.sec, hlog.counted, ?_, hlog.stands.st⟩
    change (u.recipe.damaged || u.mm.loadedPages.contains (pa / pageSize)) = true
    rw [hdamaged, Bool.or_true]
  · have hstate := gddrState_of_corrected hup hline hreads hm herr hc
    have hcount := corrected_counts (c := c) (pa := pa) (va := va) false (touchLines [pa] false (r == .prefetch) s) herr hc
    refine ⟨_, congrArg Host.Outcome.next hstate, hcount.counted, ?_, hcount.job⟩
    have hmem := congrArg MemSt.mem hcount.mm
    exact hmem

/-! ## Scrubbing -/

/-- The place in the pass after one more block. -/
def scrubNext (s : State) : MemSt := { s.mm with
  scrubDone := if dataBlocks ≤ s.mm.scrubDone + 1 then 0 else s.mm.scrubDone + 1
  scrubStart := if dataBlocks ≤ s.mm.scrubDone + 1 then s.localUs else s.mm.scrubStart }

theorem scrubTick_next (s : State) : (scrubTick s).mm = scrubNext s ∧ (scrubTick s).job = s.job
    ∧ ∀ k, (scrubTick s).counter 0x4100 k = s.counter 0x4100 k := by
  unfold scrubTick scrubNext
  dsimp only
  by_cases hlast : dataBlocks ≤ s.mm.scrubDone + 1
  · rw [if_pos hlast, if_pos hlast, if_neg (by omega)]
    split
    · exact ⟨rfl, rfl, fun k => (bump_tget ..).trans (if_neg (by simp only [ck]; omega))⟩
    · exact ⟨rfl, rfl, fun _ => rfl⟩
  · rw [if_neg hlast, if_neg hlast, if_pos (by omega)]
    exact ⟨rfl, rfl, fun _ => rfl⟩

/-- A turn of the scrubber has come: what was found on die is counted, and the pass goes one block further. -/
def scrubTurn (onDie : Nat) (s : State) : State := scrubTick (bump 0x4100 6 onDie 64 s)

theorem scrubTurn_counter (onDie : Nat) (s : State) (k : Nat) : (scrubTurn onDie s).counter 0x4100 k
    = if k = 6 then satAdd 64 (s.counter 0x4100 6) onDie else s.counter 0x4100 k := by
  refine ((scrubTick_next _).2.2 k).trans ((bump_tget ..).trans ?_)
  by_cases h : k = 6
  · rw [if_pos h, if_pos (by rw [h])]
  · rw [if_neg h, if_neg (by simp only [ck]; omega)]; rfl

theorem scrubState_of_turn {block onDie : Nat} {err : List SymErr} {s : State} (hmay : s.scrubMay = true)
    (h : block = s.mm.scrubDone) : scrubState block err onDie s = scrubBlock (128 * block) err (scrubTurn onDie s) := by
  unfold scrubState
  rw [if_neg (by simp [hmay, h])]
  rfl

section
variable {pa : Nat} {err : List SymErr} {s : State}

theorem scrubBlock_good (hm : s.marked (pa / 128) = false) (herr : hasError 68 err = false) : scrubBlock pa err s = s := by
  unfold scrubBlock
  dsimp only
  rw [if_neg (by simp [hm]), if_pos (by simp [herr])]

theorem scrubBlock_corrected (hm : s.marked (pa / 128) = false) (herr : hasError 68 err = true) (hc : correctable 68 err = true) :
    scrubBlock pa err s = corrected ⟨7, (place pa s.mm.interleave).1, (place pa s.mm.interleave).1, pa, 0, err⟩ true s := by
  unfold scrubBlock
  dsimp only
  rw [if_neg (by simp [hm]), if_neg (by simp [herr]), if_pos hc]

theorem scrubBlock_lost (h : s.marked (pa / 128) = true ∨ (hasError 68 err = true ∧ correctable 68 err = false)) :
    scrubBlock pa err s = containerLost pa (noteBlock (place pa s.mm.interleave).1 pa 0 s) := by
  unfold scrubBlock
  dsimp only
  split
  · rfl
  · next hm =>
    obtain ⟨herr, hc⟩ := h.resolve_left hm
    rw [if_neg (by simp [herr]), if_neg (by simp [hc])]

end

theorem scrubbingDisturbsNothing : Claims.ScrubbingDisturbsNothing := by
  intro block onDie err s hmay last next after
  refine ⟨fun hne => ?_, fun heq => ?_⟩
  · have hstate : scrubState block err onDie s = s := by
      unfold scrubState
      rw [if_pos (by simp [hne])]
    exact congrArg Host.Outcome.next hstate
  · have hstate := scrubState_of_turn (err := err) (onDie := onDie) hmay heq
    have hpa : 128 * block / 128 = block := by omega
    obtain ⟨hmm, hjob, -⟩ := scrubTick_next (bump 0x4100 6 onDie 64 s)
    have hcount := scrubTurn_counter onDie s
    change (scrubTurn onDie s).mm = next at hmm
    change (scrubTurn onDie s).job = s.job at hjob
    generalize scrubTurn onDie s = u at hstate hmm hjob hcount
    have hmarked : u.marked (128 * block / 128) = s.marked block := by
      rw [hpa, State.marked, State.marked, hmm]
    have hsix : u.counter 0x4100 6 = satAdd 64 (s.counter 0x4100 6) onDie := hcount 6
    refine ⟨fun hm herr => ?_, fun hm herr hc => ?_, fun hlost => ?_⟩
    · rw [scrubBlock_good (hmarked.trans hm) herr] at hstate
      refine ⟨u, congrArg Host.Outcome.next hstate, hsix, ?_, ?_, ?_, ?_, hmm⟩
      · rw [hmm]
      · rw [hmm]
      · rw [hjob]
      · rw [hjob]
    · rw [scrubBlock_corrected (hmarked.trans hm) herr hc] at hstate
      have hone := corrected_counts (c := (place (128 * block) u.mm.interleave).1) (pa := 128 * block) (va := 0) true u herr hc
      refine ⟨_, congrArg Host.Outcome.next hstate, ?_⟩
      generalize corrected _ true u = t at hone ⊢
      obtain ⟨hcounted, hcounter, hsame, hst, hattempt⟩ := hone
      have hnext := hsame.trans hmm
      refine ⟨(hcounter _ (by decide) (by decide) (by decide)).trans hsix, by rw [hnext], by rw [hnext], by rw [hst, hjob],
        by rw [hattempt, hjob], hnext, hcounted.trans ?_⟩
      rw [if_pos rfl, hcount 2, if_neg (by decide)]
    · intro n
      rw [scrubBlock_lost (by rw [hmarked]; exact hlost)] at hstate
      obtain ⟨hnoted, hmark⟩ := noteBlock_noted (place (128 * block) u.mm.interleave).1 (128 * block) 0 u
      refine ⟨_, congrArg Host.Outcome.next hstate, ?_⟩
      generalize noteBlock (place (128 * block) u.mm.interleave).1 (128 * block) 0 u = v at hnoted hmark
      have hn : lostSub (128 * block) u = n := by rw [lostSub, hpa, hmm]
      have hnk : n ≠ 6 := by
        change (if s.mm.poison.contains block then 4 else 3) ≠ 6
        split <;> decide
      rw [hpa] at hmark
      have hcounted := hnoted.counted
      rw [hn, hcount n, if_neg hnk] at hcounted
      have hscrub : v.mm.scrubDone = next.scrubDone := hnoted.scrub.trans (by rw [hmm])
      have hmem : v.mm.mem = s.mm.mem := hnoted.mem.trans (by rw [hmm])
      refine ⟨(hnoted.counter _ (by decide) (by decide) (by decide)).trans hsix, hscrub, hmem, ?_, ?_, hmark, hcounted⟩
      · exact hnoted.stands.st.trans (by rw [hjob])
      · exact hnoted.stands.attempt.trans (by rw [hjob])

/-- Settles O49: a lost block of main memory ends what its reader did, a scrub counts and marks and ends nothing. -/
theorem mainMemoryErrorsAndScrubbing : Obligations.MainMemoryErrorsAndScrubbing :=
  ⟨uncorrectableBlocksAreHandled, scrubbingDisturbsNothing⟩

end Sys2Proof.Machine
end
section
/-! Tables by key, and the cores of a group one after the other. -/

namespace Sys2Proof.Machine

section
variable {α : Type}

theorem klook_cons (k j : Nat) (v : α) (l : List (Nat × α)) :
    klook ((k, v) :: l) j = if k = j then some v else klook l j := by
  unfold klook
  rw [List.find?_cons]
  by_cases h : k = j
  · simp [h]
  · have hb : (k == j) = false := by simpa using h
    simp [h, hb]

theorem klook_tset (l : List (Nat × α)) (i j : Nat) (x : α) :
    klook (tset l i x) j = if i = j then some x else klook l j := by
  induction l with
  | nil => simp [tset, klook_cons]
  | cons e l ih =>
    obtain ⟨k, v⟩ := e
    unfold tset
    split
    · exact klook_cons ..
    · split
      · next h => subst h; simp only [klook_cons]; split <;> rfl
      · next hlt hne =>
        rw [klook_cons, klook_cons, ih]
        by_cases hkj : k = j
        · have hij : i ≠ j := by omega
          simp [hkj, hij]
        · simp [hkj]

theorem klook_tset_same (l : List (Nat × α)) (i : Nat) (x : α) : klook (tset l i x) i = some x := by
  rw [klook_tset, if_pos rfl]

theorem klook_tset_other (l : List (Nat × α)) {i j : Nat} (h : i ≠ j) (x : α) : klook (tset l i x) j = klook l j := by
  rw [klook_tset, if_neg h]

theorem klook_filter (p : Nat × α → Bool) (l : List (Nat × α)) (j : Nat) (h : ∀ v, (j, v) ∈ l → p (j, v) = true) :
    klook (l.filter p) j = klook l j := by
  induction l with
  | nil => rfl
  | cons e l ih =>
    obtain ⟨k, v⟩ := e
    have hl := ih fun v hv => h v (List.mem_cons_of_mem _ hv)
    rw [klook_cons]
    by_cases hkj : k = j
    · subst hkj
      rw [List.filter_cons_of_pos (h v List.mem_cons_self), klook_cons, if_pos rfl, if_pos rfl]
    · rw [if_neg hkj, ← hl, List.filter_cons]
      split
      · rw [klook_cons, if_neg hkj]
      · rfl

theorem klook_kdel_same (l : List (Nat × α)) (i : Nat) : klook (kdel l i) i = none := by
  simp [klook, kdel]

theorem klook_kdel_other (l : List (Nat × α)) {i j : Nat} (h : j ≠ i) : klook (kdel l i) j = klook l j :=
  klook_filter _ l j fun _ _ => by simpa using h

end

/-- Cores taken one after the other: each is changed as often as it stands in the list. -/
theorem core_foldl {step : State → Nat → State} {f : CoreSt → CoreSt}
    (h : ∀ s n m, (step s n).core m = if n = m then f (s.core m) else s.core m) (l : List Nat) (s : State) (m : Nat) :
    (l.foldl step s).core m = f^[l.count m] (s.core m) := by
  induction l generalizing s with
  | nil => rfl
  | cons n l ih =>
    rw [List.foldl_cons, ih, h, List.count_cons]
    by_cases hnm : n = m
    · rw [if_pos hnm, if_pos (by simpa using hnm), Function.iterate_succ_apply]
    · rw [if_neg hnm, if_neg (by simpa using hnm)]
      rfl

section
variable {step : State → Nat → State} {f : CoreSt → CoreSt}
  (h : ∀ s n m, (step s n).core m = if n = m then f (s.core m) else s.core m) {l : List Nat} {s : State} {m : Nat}
include h

theorem core_foldl_of_not_mem (hm : m ∉ l) : (l.foldl step s).core m = s.core m := by
  rw [core_foldl h, List.count_eq_zero.mpr hm]
  rfl

theorem core_foldl_of_nodup (hl : l.Nodup) (hm : m ∈ l) : (l.foldl step s).core m = f (s.core m) := by
  rw [core_foldl h, List.count_eq_one_of_mem hl hm]
  rfl

end

theorem setCore_streamAt (core ctx : Nat) (c : CoreSt) (s : State) : (setCore core c s).streamAt core ctx = klook c.ctx ctx := by
  rw [State.streamAt, setCore_core_same]

theorem setCore_core_other {core n : Nat} (h : n ≠ core) (c : CoreSt) (s : State) : (setCore core c s).core n = s.core n := by
  rw [setCore_core, if_neg (Ne.symm h)]

theorem setGroup_group_other {g k : Nat} (h : k ≠ g) (x : GroupSt) (s : State) : (setGroup g x s).group k = s.group k := by
  rw [setGroup_group, if_neg (Ne.symm h)]

/-! ## CoreOnly -/

theorem CoreOnly.refl (core : Nat) (s : State) : CoreOnly core s s := ⟨fun _ _ => rfl, rfl⟩

theorem CoreOnly.trans {core : Nat} {s t u : State} (h : CoreOnly core s t) (k : CoreOnly core t u) : CoreOnly core s u := by
  obtain ⟨hc, ht⟩ := h
  obtain ⟨kc, ku⟩ := k
  refine ⟨fun n hn => (kc n hn).trans (hc n hn), ?_⟩
  rw [ku, ht]

theorem setCore_coreOnly (core : Nat) (c : CoreSt) (s : State) : CoreOnly core s (setCore core c s) :=
  ⟨fun _ hn => setCore_core_other hn c s, rfl⟩

theorem touchLines_coreOnly (core : Nat) (lines : List Nat) (dirty streaming : Bool) (s : State) :
    CoreOnly core s (touchLines lines dirty streaming s) := ⟨fun _ _ => rfl, rfl⟩

theorem slots_coreOnly (core : Nat) (l : List (Nat × Nat)) (s : State) :
    CoreOnly core s { s with mm := { s.mm with slots := l } } := ⟨fun _ _ => rfl, rfl⟩

end Sys2Proof.Machine
end
section
/-! Credit, prefetch, retirement and stalls of streams (R102, R109, R121, R122, R185). -/

namespace Sys2Proof.Machine

/-! ## Credit reports -/

theorem level_of_reached {m : CommitMsg} {b : Bool} {s : State} (h : m.attempt ≤ s.job.attempt) : level m b s = s := by
  unfold level higherState
  split
  · rw [if_pos (by simp [h])]
  · rfl

/-- A report's packet no longer waits for the peel. -/
def reportTaken (core ctx tiles step attempt : Nat) (s : State) : State :=
  match s.fab.delivered.find? fun p => p.kind == 3 && p.dstCore == core && p.dstCtx == ctx && ofLe p.payload == tiles
      && p.step == step && p.attempt == attempt with
  | some p => { s with fab := { s.fab with delivered := eraseFirst p s.fab.delivered } }
  | none => s

theorem reportTaken_only (core ctx tiles step attempt : Nat) (s : State) : reportTaken core ctx tiles step attempt s
    = { s with fab := { s.fab with delivered := (reportTaken core ctx tiles step attempt s).fab.delivered } } := by
  unfold reportTaken
  split <;> rfl

theorem creditPacketState_eq (core ctx tiles step attempt : Nat) (s : State) : creditPacketState core ctx tiles step attempt s
    = creditEventState core ctx tiles step attempt (reportTaken core ctx tiles step attempt s) := rfl

section
variable {core ctx tiles : Nat} {s : State}

theorem creditEventState_of_past {k : Nat} (h : k < s.job.attempt) : creditEventState core ctx tiles s.job.step k s = s := by
  unfold creditEventState
  dsimp only
  rw [level_of_reached (Nat.le_of_lt h), if_neg (by simp; omega)]

theorem creditEventState_of_present (h : s.inStep = true) : creditEventState core ctx tiles s.job.step s.job.attempt s
    = setCore core { s.core core with
        credit := tset (s.core core).credit ctx (max (tget 0 (s.core core).credit ctx) tiles) } s := by
  unfold creditEventState
  dsimp only
  rw [level_of_reached (Nat.le_refl _), if_pos (by simp)]
  unfold creditReportState
  rw [if_pos (by simp [h])]

end

theorem credit_reported (core ctx n : Nat) (s : State) (h : s.inStep = true) :
    ∃ t, exec (.streamCreditReport core ctx ⟨n, s.job.step, s.job.attempt⟩) s = .next t
      ∧ tget 0 (t.core core).credit ctx = max (tget 0 (s.core core).credit ctx) n
      ∧ (t.core core).ctx = (s.core core).ctx ∧ (∀ m, m ≠ core → t.core m = s.core m)
      ∧ t = { s with cores := t.cores, fab := { s.fab with delivered := t.fab.delivered } } := by
  have hstate := creditPacketState_eq core ctx n s.job.step s.job.attempt s
  have honly := reportTaken_only core ctx n s.job.step s.job.attempt s
  refine ⟨_, congrArg Host.Outcome.next hstate, ?_⟩
  generalize reportTaken core ctx n s.job.step s.job.attempt s = u at honly ⊢
  have hjob : u.job = s.job := by rw [honly]
  have hin : u.inStep = true := by rw [honly]; exact h
  have hcore : ∀ m, u.core m = s.core m := by rw [honly]; exact fun _ => rfl
  have hpresent := creditEventState_of_present (core := core) (ctx := ctx) (tiles := n) hin
  rw [hjob] at hpresent
  rw [hpresent, ← hcore core]
  refine ⟨by rw [setCore_core_same]; exact tget_tset_same .., by rw [setCore_core_same],
    fun m hm => (setCore_core_other hm _ u).trans (hcore m), ?_⟩
  generalize ({ u.core core with credit := tset (u.core core).credit ctx (max (tget 0 (u.core core).credit ctx) n) } : CoreSt) = c
  rw [honly]
  rfl

theorem credit_of_past (core ctx n k : Nat) (s : State) (h : k < s.job.attempt) :
    ∃ t, exec (.streamCreditReport core ctx ⟨n, s.job.step, k⟩) s = .next t
      ∧ t = { s with fab := { s.fab with delivered := t.fab.delivered } } := by
  have hstate := creditPacketState_eq core ctx n s.job.step k s
  have honly := reportTaken_only core ctx n s.job.step k s
  refine ⟨_, congrArg Host.Outcome.next hstate, ?_⟩
  generalize reportTaken core ctx n s.job.step k s = u at honly ⊢
  have hjob : u.job = s.job := by rw [honly]
  have hpast := creditEventState_of_past (core := core) (ctx := ctx) (tiles := n) (s := u) (k := k) (by rw [hjob]; exact h)
  rw [hjob] at hpast
  rw [hpast]
  exact honly

/-! ## Prefetch and retirement -/

section
variable {core ctx : Nat} {x : Stream} {s : State} (hx : s.streamAt core ctx = some x)
include hx

theorem prefetch_goes_on (hslot : x.slot = true) (hleft : x.ahead < x.tiles)
    (hlead : x.ahead < x.oldest + 3 + (streamDesc x.desc).lead) :
    CoreOnly core s (prefetchState core ctx s)
      ∧ (prefetchState core ctx s).streamAt core ctx = some { x with prefetched := x.ahead + 1 } := by
  have hstate : prefetchState core ctx s = prefetchTile core ctx x.ahead x s := by
    unfold prefetchState
    simp only [hx]
    rw [if_pos (by simp [hslot, hleft, hlead])]
  rw [hstate]
  unfold prefetchTile
  dsimp only
  refine ⟨(setCore_coreOnly ..).trans (touchLines_coreOnly ..), ?_⟩
  refine (setCore_streamAt core ctx _ s).trans (klook_tset_same _ _ _)

theorem prefetch_waits (h : x.slot = false ∨ x.tiles ≤ x.ahead ∨ x.oldest + 3 + (streamDesc x.desc).lead ≤ x.ahead) :
    prefetchState core ctx s = s := by
  unfold prefetchState
  simp only [hx]
  rw [if_neg]
  simp only [Bool.and_eq_true, decide_eq_true_eq, not_and, not_lt]
  rintro ⟨h1, h2⟩
  rcases h with h | h | h
  · exact absurd (h1.symm.trans h) (by decide)
  · omega
  · exact h

/-- The stream has moved its last tile. -/
def Stream.over (s : State) (x : Stream) : Prop :=
  if (streamDesc x.desc).dir = true then x.produced = true ∧ x.drained = x.tiles ∧ s.inTransit (streamDesc x.desc) = false
  else x.taken = x.tiles

omit hx in
theorem Stream.over_iff (s : State) (x : Stream) : x.over s ↔ (if (streamDesc x.desc).dir then
    x.produced && x.drained == x.tiles && !s.inTransit (streamDesc x.desc) else x.taken == x.tiles) = true := by
  unfold Stream.over
  split
  · simp [and_assoc]
  · simp

theorem retire_waits (h : ¬ x.over s) : retireState core ctx s = s := by
  rw [Stream.over_iff] at h
  unfold retireState
  simp only [hx]
  rw [if_pos (by rw [Bool.eq_false_iff.mpr h]; rfl)]

/-- The core as it stands once a stream has left. -/
def retiredCore (core ctx : Nat) (s : State) : CoreSt := ({ s.core core with ctx := kdel (s.core core).ctx ctx } : CoreSt).tidy

theorem retire_leaves (h : x.over s) : retireState core ctx s = (if x.slot then
    { setCore core (retiredCore core ctx s) s with
      mm := { s.mm with slots := tset s.mm.slots (core / 96) (tget 0 s.mm.slots (core / 96) - 1) } }
    else setCore core (retiredCore core ctx s) s) := by
  rw [Stream.over_iff] at h
  unfold retireState
  simp only [hx]
  rw [if_neg (by rw [h]; decide)]
  rfl

theorem retire_frees (h : x.over s) : (retireState core ctx s).streamAt core ctx = none
    ∧ (∀ k, k ≠ ctx → (retireState core ctx s).streamAt core k = s.streamAt core k)
    ∧ (x.slot = true → tget 0 (retireState core ctx s).mm.slots (core / 96) = tget 0 s.mm.slots (core / 96) - 1)
    ∧ ((retireState core ctx s).core core).tile = (s.core core).tile ∧ CoreOnly core s (retireState core ctx s) := by
  have key (u : State) (hcore : u.core core = retiredCore core ctx s) :
      u.streamAt core ctx = none ∧ (∀ k, k ≠ ctx → u.streamAt core k = s.streamAt core k)
        ∧ (u.core core).tile = (s.core core).tile := by
    refine ⟨?_, fun k hk => ?_, by rw [hcore]; rfl⟩
    · rw [State.streamAt, hcore]
      exact klook_kdel_same _ _
    · rw [State.streamAt, hcore]
      exact klook_kdel_other _ hk
  rw [retire_leaves hx h]
  split
  · next hs =>
    obtain ⟨h1, h2, h3⟩ := key { setCore core (retiredCore core ctx s) s with
      mm := { s.mm with slots := tset s.mm.slots (core / 96) (tget 0 s.mm.slots (core / 96) - 1) } } (setCore_core_same ..)
    exact ⟨h1, h2, fun _ => tget_tset_same .., h3, (setCore_coreOnly core _ s).trans (slots_coreOnly core _ _)⟩
  · next hs =>
    obtain ⟨h1, h2, h3⟩ := key (setCore core (retiredCore core ctx s) s) (setCore_core_same ..)
    exact ⟨h1, h2, fun h => absurd h hs, h3, setCore_coreOnly core _ s⟩

end

theorem streamsRunAndRetire : Claims.StreamsRunAndRetire := by
  intro core ctx s
  refine ⟨fun n h => credit_reported core ctx n s h, fun n k _ h => credit_of_past core ctx n k s h,
    fun x hx => ⟨fun h1 h2 h3 => ?_, fun h => congrArg Host.Outcome.next (prefetch_waits hx h)⟩,
    fun x hx => ⟨fun h => ?_, fun h => congrArg Host.Outcome.next (retire_waits hx h)⟩⟩
  · exact ⟨_, rfl, prefetch_goes_on hx h1 h2 h3⟩
  · exact ⟨_, rfl, retire_frees hx h⟩

/-! ## Stalls -/

section
variable {core ctx : Nat} {it : Item} {w : Nat × Nat} {s : State} (hit : s.coreItem core = some it)
  (hw : s.stallWhere core ctx it = some w) (hissuing : s.issuing core = true)
include hit hw hissuing

theorem streamStall_of_step (hkind : it.kind = .fwd ∨ it.kind = .bwd ∨ it.kind = .win ∨ it.kind = .upd) :
    streamStallState core ctx s = abortOwn STREAM_STALL [0, 0, ctx, w.2]
      { s with localUs := s.localUs + s.eff.streamWd } ⟨1, core / 96, core, w.1⟩ := by
  unfold streamStallState
  simp only [hit, hw]
  rw [if_neg (by simp [hissuing])]
  rcases hkind with h | h | h | h <;> rw [h]

theorem streamStall_of_eval {a : Nat} {b : Option Nat} (hkind : it.kind = .eval a b) : streamStallState core ctx s =
    abandonEval STREAM_STALL (logAdd STREAM_STALL 1 (core / 96) core w.1
      [s.job.attempt, State.devId { s with localUs := s.localUs + s.eff.streamWd }, 0, 0, ctx, w.2]
      { s with localUs := s.localUs + s.eff.streamWd }) := by
  unfold streamStallState
  simp only [hit, hw]
  rw [if_neg (by simp [hissuing]), hkind]

end

theorem stallsEndTheAttempt : Claims.StallsEndTheAttempt := by
  intro core ctx it s hit
  refine ⟨fun w hw hissuing => ⟨fun hkind hcan => ?_, fun ⟨a, b, hkind⟩ => ?_⟩, fun x hx hmem hpeer => ?_⟩
  · have hstands : Stands s { s with localUs := s.localUs + s.eff.streamWd } :=
      ⟨rfl, rfl, rfl, rfl, rfl, rfl, rfl, rfl, rfl, rfl, rfl, rfl⟩
    have hrep := hstands.repeats (cause := STREAM_STALL) (extra := [0, 0, ctx, w.2]) (w := ⟨1, core / 96, core, w.1⟩) hcan
    have hended := abortOwn_ended STREAM_STALL [0, 0, ctx, w.2] { s with localUs := s.localUs + s.eff.streamWd }
      ⟨1, core / 96, core, w.1⟩
    refine ⟨_, congrArg Host.Outcome.next (streamStall_of_step hit hw hissuing hkind), hrep, ?_⟩
    exact ⟨hended.localUs, hended.regs, hended.sec, hended.recipe⟩
  · have hstate := streamStall_of_eval hit hw hissuing hkind
    refine ⟨_, congrArg Host.Outcome.next hstate, ?_⟩
    generalize [s.job.attempt, State.devId { s with localUs := s.localUs + s.eff.streamWd }, 0, 0, ctx, w.2] = d
    have hlog := logAdd_stands STREAM_STALL 1 (core / 96) core w.1 d { s with localUs := s.localUs + s.eff.streamWd }
    have hus := logAdd_localUs STREAM_STALL 1 (core / 96) core w.1 d { s with localUs := s.localUs + s.eff.streamWd }
    generalize logAdd STREAM_STALL 1 (core / 96) core w.1 d { s with localUs := s.localUs + s.eff.streamWd } = u at hlog hus
    have heval := abandonEval_evaluates STREAM_STALL u
    exact ⟨heval.attempt.1.trans hlog.attempt, heval.localUs.trans hus, heval.regs.trans hlog.regs⟩
  · have hnone : s.stallWhere core ctx it = none := by
      unfold State.stallWhere
      simp only [hx]
      rw [if_pos (by simp [hmem, hpeer])]
    have hstate : streamStallState core ctx s = s := by
      unfold streamStallState
      simp only [hit, hnone]
    exact congrArg Host.Outcome.next hstate

/-- Settles O46: reports raise credit, the prefetcher keeps its lead, an ended stream leaves, a stall ends the attempt of a
step and no other. -/
theorem streamsRetireOrStall : Obligations.StreamsRetireOrStall := ⟨streamsRunAndRetire, stallsEndTheAttempt⟩

end Sys2Proof.Machine
end
section
/-! Translation misses (R127, R129 to R131, Table 05.7). -/

namespace Sys2Proof.Machine

/-! ## A miss -/

theorem logMisses_stands (g outcome : Nat) (s : State) : Stands s (logMisses g outcome s) := by
  unfold logMisses
  generalize (s.group g).misses = l
  induction l generalizing s with
  | nil => exact Stands.refl s
  | cons m l ih => exact (logAdd_stands ..).trans (ih _)

section
variable {β : Type} (f : State → β) (hlog : ∀ c a h u l d s, f (logAdd c a h u l d s) = f s)
include hlog

theorem logMisses_field (g outcome : Nat) (s : State) : f (logMisses g outcome s) = f s := by
  unfold logMisses
  exact foldl_field f (fun s m => hlog ..) _ s

end

/-- Misses whose page has come are owed no more. -/
theorem oweMisses_of_mapped {l : List Miss} (h : ∀ m ∈ l, m.mapped = true) (s : State) : oweMisses l s = s := by
  have hnone : (l.filter fun m => !m.mapped && s.mayMap m.va m.write) = [] := by
    rw [List.filter_eq_nil_iff]
    intro m hm
    simp [h m hm]
  unfold oweMisses
  rw [hnone, List.map_nil, List.append_nil]

theorem oweMisses_stands (l : List Miss) (s : State) : Stands s (oweMisses l s) := stands_mm _ s

theorem endMisses_stands (g outcome : Nat) (s : State) : Stands s (endMisses g outcome s) :=
  (logMisses_stands g outcome s).trans ((oweMisses_stands _ _).trans (setGroup_stands _ _ _))

theorem missAbort_repeats {g outcome : Nat} {s u : State} (h : Stands s u) (hcan : CanRepeat s) :
    Repeats STEP_REPEAT_FAULT s (missAbort g outcome u) := (h.trans (endMisses_stands g outcome u)).repeats hcan

theorem missAbort_frame (g outcome : Nat) (s : State) : (missAbort g outcome s).regs = s.regs
    ∧ (missAbort g outcome s).sec = s.sec ∧ (missAbort g outcome s).localUs = s.localUs := by
  have hstands := endMisses_stands g outcome s
  have hus : (endMisses g outcome s).localUs = s.localUs := logMisses_field State.localUs (fun _ _ _ _ _ _ _ => logAdd_localUs ..) ..
  unfold missAbort
  generalize endMisses g outcome s = u at hstands hus
  have hended := abortOwn_ended STEP_REPEAT_FAULT [TRANSLATION_MISS] u ⟨8, 0xFF, 0, 0xFFFF⟩
  exact ⟨hended.regs.trans hstands.regs, hended.sec.trans hstands.sec, hended.localUs.trans hus⟩

/-- The miss that is noted for an access of a core. -/
def newMiss (core ctx va : Nat) (write : Bool) (it : Item) (s : State) : Miss :=
  let at' := match s.streamAt core ctx with
    | some x => ((streamDesc x.desc).layerId, (streamDesc x.desc).tag)
    | none => (it.layer, 0)
  ⟨core, ctx, at'.1, at'.2, va, write, false⟩

/-- The access misses a page already waited for. -/
def State.awaits (s : State) (g va : Nat) (write : Bool) : Prop :=
  ∃ m ∈ (s.group g).misses, m.va / pageSize = va / pageSize ∧ (m.write = true ∨ write = false)

theorem State.awaits_iff (s : State) (g va : Nat) (write : Bool) : s.awaits g va write
    ↔ ((s.group g).misses.any fun m => m.va / pageSize = va / pageSize && (m.write || !write)) = true := by
  simp [State.awaits]

/-- The layer's items are run again after a miss. -/
def State.replays (s : State) (layer : Nat) : Bool := match s.layer? layer with | some l => l.xlatReplay | none => false

theorem addMiss_stands (g : Nat) (m : Miss) (s : State) : Stands s (addMiss g m s) := setGroup_stands _ _ s

theorem stepMiss_eq (g : Nat) (it : Item) (m : Miss) (s : State) : stepMiss g it m s =
    if !s.mayMap m.va m.write then missAbort g 2 (addMiss g m s)
    else if !s.replays it.layer then missAbort g 1 (addMiss g m s)
    else if 4 ≤ (s.group g).replays then missAbort g 4 (addMiss g m s) else addMiss g m s := by
  have hreplays : ((addMiss g m s).group g).replays = (s.group g).replays := by rw [addMiss, setGroup_group_same]
  unfold stepMiss
  dsimp only
  rw [hreplays]
  rfl

theorem stepMiss_waits {g : Nat} {it : Item} {m : Miss} {s : State} (hmap : s.mayMap m.va m.write = true)
    (hrep : s.replays it.layer = true) (hlt : (s.group g).replays < 4) : stepMiss g it m s = addMiss g m s := by
  rw [stepMiss_eq, if_neg (by simp [hmap]), if_neg (by simp [hrep]), if_neg (by omega)]

theorem stepMiss_repeats {g : Nat} {it : Item} {m : Miss} {s : State}
    (h : s.mayMap m.va m.write = false ∨ s.replays it.layer = false ∨ 4 ≤ (s.group g).replays) (hcan : CanRepeat s) :
    Repeats STEP_REPEAT_FAULT s (stepMiss g it m s) ∧ (stepMiss g it m s).regs = s.regs ∧ (stepMiss g it m s).sec = s.sec := by
  have hadd := addMiss_stands g m s
  have key (outcome : Nat) : Repeats STEP_REPEAT_FAULT s (missAbort g outcome (addMiss g m s))
      ∧ (missAbort g outcome (addMiss g m s)).regs = s.regs ∧ (missAbort g outcome (addMiss g m s)).sec = s.sec := by
    obtain ⟨hregs, hsec, _⟩ := missAbort_frame g outcome (addMiss g m s)
    exact ⟨missAbort_repeats hadd hcan, hregs, hsec⟩
  rw [stepMiss_eq]
  by_cases h1 : s.mayMap m.va m.write = true
  · rw [if_neg (by simp [h1])]
    by_cases h2 : s.replays it.layer = true
    · have h3 : 4 ≤ (s.group g).replays := by simpa [h1, h2] using h
      rw [if_neg (by simp [h2]), if_pos h3]
      exact key 4
    · rw [if_pos (by simp [h2])]
      exact key 1
  · rw [if_pos (by simp [h1])]
    exact key 2

section
variable {core ctx va g : Nat} {write : Bool} {it : Item} {s : State} (hg : s.coreGroup core = some g)
  (hit : s.coreItem core = some it)
include hg hit

theorem missState_of_known (h : (s.xlat va write).isSome = true ∨ s.awaits g va write) : missState core ctx va write s = s := by
  rw [State.awaits_iff] at h
  unfold missState
  simp only [hg, hit]
  split
  · rfl
  · next hx => rw [if_pos (h.resolve_left hx)]

theorem missState_of_step (hx : s.xlat va write = none) (h : ¬ s.awaits g va write)
    (hkind : it.kind = .fwd ∨ it.kind = .bwd ∨ it.kind = .win ∨ it.kind = .upd) :
    missState core ctx va write s = stepMiss g it (newMiss core ctx va write it s) s := by
  rw [State.awaits_iff] at h
  unfold missState
  simp only [hg, hit]
  rw [if_neg (by rw [hx]; decide), if_neg h]
  rcases hkind with hk | hk | hk | hk <;> (simp only [hk]; rfl)

end

theorem missesAreReplayed : Claims.MissesAreReplayed := by
  intro core ctx va g write it s hg hit hkind known
  refine ⟨fun h => congrArg Host.Outcome.next (missState_of_known hg hit h), fun hx hnot => ?_⟩
  have hstate := missState_of_step (ctx := ctx) hg hit hx hnot hkind
  intro replays
  refine ⟨fun hmap hrep hlt => ?_, fun h hcan => ?_⟩
  · rw [stepMiss_waits (m := newMiss core ctx va write it s) hmap hrep hlt] at hstate
    refine ⟨_, newMiss core ctx va write it s, congrArg Host.Outcome.next hstate, ?_⟩
    have hgroup : (addMiss g (newMiss core ctx va write it s) s).group g = _ := setGroup_group_same ..
    rw [hgroup]
    refine ⟨rfl, rfl, rfl, rfl, rfl, fun x hx => ?_, rfl, rfl, fun k hk => setGroup_group_other hk _ s, rfl⟩
    unfold newMiss
    rw [hx]
    exact ⟨rfl, rfl⟩
  · exact ⟨_, congrArg Host.Outcome.next hstate, stepMiss_repeats h hcan⟩

/-! ## The replay -/

/-- The streams of a core as they are once its group has drained. -/
def drainedCore (c : CoreSt) : CoreSt := { c with inflight := [], side := [], barrier := none, ctx := [], spent := c.credit }

theorem dropStreams_core (s : State) (n m : Nat) :
    (dropStreams n s).core m = if n = m then drainedCore (s.core m) else s.core m := by
  change (setCore n (drainedCore (s.core n)) s).core m = _
  rw [setCore_core]
  split
  · next h => rw [h]
  · rfl

theorem drainedCore_iterate (c : CoreSt) (k : Nat) : (drainedCore^[k] c).tile = c.tile := by
  induction k with
  | zero => rfl
  | succ k ih => rw [Function.iterate_succ_apply']; exact ih

theorem drain_discards (g : Nat) (s : State) (hmiss : (s.group g).misses ≠ []) (hnot : (s.group g).drained = false) :
    ∃ t, exec (.itemDrainComplete g) s = .next t
      ∧ (t.group g).drained = true ∧ (t.group g).misses = (s.group g).misses ∧ t.mm.mem = s.mm.mem
      ∧ (∀ n ∈ (s.groupOf g).cores, (t.core n).ctx = [] ∧ (t.core n).inflight = [] ∧ (t.core n).tile = (s.core n).tile)
      ∧ (∀ n, n ∉ (s.groupOf g).cores → t.core n = s.core n) ∧ t.job = s.job := by
  have hstate : drainState g s = (s.groupOf g).cores.foldl (fun s n => dropStreams n s)
      (setGroup g { s.group g with drained := true } s) := by
    unfold drainState
    rw [if_neg (by simp [hmiss, hnot])]
  refine ⟨_, congrArg Host.Outcome.next hstate, ?_⟩
  have hgroup := foldl_field (fun s => s.group g) (f := fun s n => dropStreams n s) (fun _ _ => rfl) (s.groupOf g).cores
    (setGroup g { s.group g with drained := true } s)
  have hmem := foldl_field (fun s => s.mm.mem) (f := fun s n => dropStreams n s) (fun _ _ => rfl) (s.groupOf g).cores
    (setGroup g { s.group g with drained := true } s)
  have hjob := foldl_field State.job (f := fun s n => dropStreams n s) (fun _ _ => rfl) (s.groupOf g).cores
    (setGroup g { s.group g with drained := true } s)
  have hcore := core_foldl (step := fun s n => dropStreams n s) dropStreams_core (s.groupOf g).cores
    (setGroup g { s.group g with drained := true } s)
  rw [setGroup_group_same] at hgroup
  refine ⟨by rw [hgroup], by rw [hgroup], hmem, fun n hn => ?_, fun n hn => ?_, hjob⟩
  · obtain ⟨k, hk⟩ := Nat.exists_eq_succ_of_ne_zero (Nat.ne_of_gt (List.count_pos_iff.mpr hn))
    rw [hcore n, hk]
    refine ⟨?_, ?_, drainedCore_iterate _ _⟩ <;> rw [Function.iterate_succ_apply'] <;> rfl
  · rw [hcore n, List.count_eq_zero.mpr hn]
    rfl

theorem mapOwed_of_none {va : Nat} {s : State} (h : ∀ x ∈ s.mm.owed, x.1 / pageSize ≠ va / pageSize) : mapOwed va s = s := by
  have hnone : (s.mm.owed.filter fun x => x.1 / pageSize == va / pageSize) = [] := by
    rw [List.filter_eq_nil_iff]
    intro x hx
    simpa using h x hx
  have hall : (s.mm.owed.filter fun x => !(x.1 / pageSize == va / pageSize)) = s.mm.owed := by
    rw [List.filter_eq_self]
    intro x hx
    simpa using h x hx
  unfold mapOwed
  dsimp only
  rw [hnone, List.foldl_nil, hall]

/-- A page that is mapped for the first time. -/
theorem mapPage_maps {r : Region} {vpn : Nat} {s u : State} (hnew : klook s.mm.pages vpn = none) (h : mapPage r vpn s = some u) :
    u = { s with mm := u.mm } ∧ ∃ p, u.mm.pages = tset s.mm.pages vpn ⟨p, r.writable⟩ := by
  unfold mapPage at h
  rw [if_neg (by rw [hnew]; decide)] at h
  split at h
  · exact absurd h (by simp)
  · next p _ =>
    dsimp only at h
    split at h <;> (injection h with h; subst h; exact ⟨rfl, p, rfl⟩)

theorem serveMiss_maps {va : Nat} {write : Bool} {s u : State} (hnew : klook s.mm.pages (va / pageSize) = none)
    (h : serveMiss va write s = some u) : u = { s with mm := u.mm } ∧ (u.xlat va write).isSome = true
      ∧ ∀ v, v / pageSize ≠ va / pageSize → ∀ w, u.xlat v w = s.xlat v w := by
  unfold serveMiss at h
  split at h
  · exact absurd h (by simp)
  · split at h
    · exact absurd h (by simp)
    · next r _ =>
      split at h
      · exact absurd h (by simp)
      · next hw =>
        obtain ⟨hu, p, hpages⟩ := mapPage_maps hnew h
        refine ⟨hu, ?_, fun v hv w => ?_⟩
        · unfold State.xlat
          rw [hpages, klook_tset_same]
          dsimp only
          rw [if_neg hw]
          rfl
        · unfold State.xlat
          rw [hpages, klook_tset_other _ (Ne.symm hv)]

/-- The misses of a page that has come are marked. -/
def missMapped (g : Nat) (m : Miss) (s : State) : State :=
  setGroup g { s.group g with misses := (s.group g).misses.map fun k =>
    if k.va / pageSize = m.va / pageSize && (s.xlat k.va k.write).isSome then { k with mapped := true } else k } s

theorem mappedState_of_served {g va : Nat} {m : Miss} {s u : State}
    (hfind : (s.group g).misses.find? (fun m => m.va / pageSize = va / pageSize && !m.mapped) = some m)
    (howed : ∀ x ∈ s.mm.owed, x.1 / pageSize ≠ va / pageSize) (hu : serveMiss m.va m.write s = some u) :
    mappedState g va s = missMapped g m u := by
  unfold mappedState
  rw [mapOwed_of_none howed]
  simp only [hfind, hu]
  rfl

/-! ## The item runs again -/

theorem startCores_core (prog : Nat) (s : State) (n m : Nat) :
    (setCore n ((s.core n).start prog) s).core m = if n = m then (s.core m).start prog else s.core m := by
  rw [setCore_core]
  split
  · next h => rw [h]
  · rfl

theorem startCores_field {β : Type} (f : State → β) (hf : ∀ n c s, f (setCore n c s) = f s) (g prog : Nat) (s : State) :
    f (startCores g prog s) = f s := by
  unfold startCores
  exact foldl_field f (fun s n => hf ..) _ s

/-- The state in which a replayed item starts. -/
def replayReady (g : Nat) (it : Item) (n : Nat) (s : State) : State :=
  let l := s.layerStat it.lstatKey
  { setGroup g { s.group g with item := some it, got := LStat.zero, replays := n } s with
    lstat := tset s.lstat it.lstatKey { l with xlat := satAdd 16 l.xlat 1 }
    job := { s.job with replayed := it.key g :: s.job.replayed } }

theorem replayItemState_eq {g : Nat} {it : Item} {s : State} (hit : (s.group g).item = some it)
    (hmiss : (s.group g).misses ≠ []) (hdrained : (s.group g).drained = true)
    (hmapped : ∀ m ∈ (s.group g).misses, m.mapped = true) :
    replayItemState g s = startCores g ((endMisses g 0 s).firstProg it)
      (replayReady g { it with prog := (endMisses g 0 s).firstProg it } ((s.group g).replays + 1) (endMisses g 0 s)) := by
  have hany : (s.group g).misses.any (fun m => !m.mapped) = false := by
    rw [List.any_eq_false]
    intro m hm
    simp [hmapped m hm]
  unfold replayItemState
  simp only [hit]
  rw [if_neg (by simp [hmiss, hdrained, hany])]
  rfl

theorem mapped_comes {g va : Nat} {m : Miss} {s u : State}
    (hfind : (s.group g).misses.find? (fun m => m.va / pageSize = va / pageSize && !m.mapped) = some m)
    (howed : ∀ x ∈ s.mm.owed, x.1 / pageSize ≠ va / pageSize) (hnew : klook s.mm.pages (m.va / pageSize) = none)
    (hu : serveMiss m.va m.write s = some u) :
    ∃ t, exec (.translationMapped g va) s = .next t ∧ (t.xlat m.va m.write).isSome = true
      ∧ (∀ v, v / pageSize ≠ m.va / pageSize → ∀ w, t.xlat v w = s.xlat v w)
      ∧ t.job = s.job ∧ t.cores = s.cores ∧ t.regs = s.regs := by
  obtain ⟨hrest, hsome, hother⟩ := serveMiss_maps hnew hu
  refine ⟨_, congrArg Host.Outcome.next (mappedState_of_served hfind howed hu), hsome, hother, ?_⟩
  change u.job = s.job ∧ u.cores = s.cores ∧ u.regs = s.regs
  rw [hrest]
  exact ⟨rfl, rfl, rfl⟩

theorem endMisses_field {β : Type} (f : State → β) (hlog : ∀ c a h u l d s, f (logAdd c a h u l d s) = f s)
    (hset : ∀ g x s, f (setGroup g x s) = f s) {g : Nat} {s : State} (h : ∀ m ∈ (s.group g).misses, m.mapped = true)
    (outcome : Nat) : f (endMisses g outcome s) = f s := by
  unfold endMisses
  dsimp only
  rw [oweMisses_of_mapped h, hset]
  exact logMisses_field f hlog ..

theorem startCores_started {g prog : Nat} {s : State} (hnd : (s.groupOf g).cores.Nodup) {n : Nat}
    (hn : n ∈ (s.groupOf g).cores) : (startCores g prog s).core n = (s.core n).start prog :=
  core_foldl_of_nodup (step := fun s n => setCore n ((s.core n).start prog) s) (f := fun c => c.start prog)
    (startCores_core prog) hnd hn

theorem replay_runs {g : Nat} {it : Item} {s : State} (hit : (s.group g).item = some it)
    (hmiss : (s.group g).misses ≠ []) (hdrained : (s.group g).drained = true)
    (hmapped : ∀ m ∈ (s.group g).misses, m.mapped = true) (hnd : (s.groupOf g).cores.Nodup) :
    ∃ t, exec (.workItemReplay g) s = .next t ∧ (t.group g).misses = []
      ∧ (t.group g).item = some { it with prog := s.firstProg it }
      ∧ (t.group g).got = LStat.zero ∧ (t.group g).replays = (s.group g).replays + 1
      ∧ (∀ n ∈ (s.groupOf g).cores, (t.core n).pc = 0 ∧ (t.core n).prog = tget [] (s.core n).descMem (s.firstProg it))
      ∧ t.mm = s.mm ∧ t.job.attempt = s.job.attempt := by
  refine ⟨_, congrArg Host.Outcome.next (replayItemState_eq hit hmiss hdrained hmapped), ?_⟩
  have hmm := endMisses_field State.mm (fun _ _ _ _ _ _ _ => logAdd_mm ..) (fun _ _ _ => rfl) hmapped 0
  have hcores := endMisses_field State.cores (fun _ _ _ _ _ _ _ => logAdd_cores ..) (fun _ _ _ => rfl) hmapped 0
  have hstands := endMisses_stands g 0 s
  have hgroup : ((endMisses g 0 s).group g).misses = [] := by
    rw [endMisses, setGroup_group_same]
  generalize endMisses g 0 s = u at hmm hcores hstands hgroup ⊢
  have hcont := hstands.cont
  have hfirst : u.firstProg it = s.firstProg it := by
    unfold State.firstProg State.layer? State.layers
    rw [hcont]
  have hgroupOf : u.groupOf g = s.groupOf g := by
    unfold State.groupOf State.groupList
    rw [hcont]
  rw [hfirst]
  generalize hready : replayReady g { it with prog := s.firstProg it } ((s.group g).replays + 1) u = v
  have hcore (n : Nat) : v.core n = s.core n := by
    rw [← hready]
    exact congrArg (fun l => tget CoreSt.reset l n) hcores
  have hat : v.group g = { u.group g with
      item := some { it with prog := s.firstProg it }, got := LStat.zero, replays := (s.group g).replays + 1 } := by
    rw [← hready]
    exact setGroup_group_same ..
  have hvof : v.groupOf g = s.groupOf g := by rw [← hready]; exact hgroupOf
  have hvmm : v.mm = s.mm := by rw [← hready]; exact hmm
  have hvat : v.job.attempt = s.job.attempt := by rw [← hready]; exact hstands.attempt
  have hstart := startCores_field (fun t : State => (t.group g, t.mm, t.job.attempt)) (fun _ _ _ => rfl) g (s.firstProg it) v
  simp only [Prod.mk.injEq] at hstart
  obtain ⟨h1, h2, h3⟩ := hstart
  rw [h1, hat]
  refine ⟨hgroup, rfl, rfl, rfl, fun n hn => ?_, h2.trans hvmm, h3.trans hvat⟩
  rw [startCores_started (by rw [hvof]; exact hnd) (by rw [hvof]; exact hn), hcore n]
  exact ⟨rfl, rfl⟩

theorem replay_bound {g : Nat} {s : State} (h : ∃ m ∈ (s.group g).misses, m.mapped = false) (hcan : CanRepeat s) :
    ∃ t, exec (.replayBoundExpiry g) s = .next t ∧ Repeats STEP_REPEAT_FAULT s t
      ∧ t.localUs = max s.localUs ((s.group g).missTime + s.eff.replayBound) := by
  have hany : ((s.group g).misses.any fun m => !m.mapped) = true := by
    obtain ⟨m, hm, hno⟩ := h
    exact List.any_eq_true.mpr ⟨m, hm, by simp [hno]⟩
  have hstate : replayBoundState g s
      = missAbort g 3 { s with localUs := max s.localUs ((s.group g).missTime + s.eff.replayBound) } := by
    unfold replayBoundState
    dsimp only
    rw [if_pos hany]
  have hstands : Stands s { s with localUs := max s.localUs ((s.group g).missTime + s.eff.replayBound) } :=
    ⟨rfl, rfl, rfl, rfl, rfl, rfl, rfl, rfl, rfl, rfl, rfl, rfl⟩
  exact ⟨_, congrArg Host.Outcome.next hstate, missAbort_repeats hstands hcan, (missAbort_frame g 3 _).2.2⟩

theorem replayGoesOn : Claims.ReplayGoesOn := by
  intro g s
  exact ⟨drain_discards g s, fun va m u hfind howed hnew hu => mapped_comes hfind howed hnew hu,
    fun it hit hmiss hdrained hmapped hnd => replay_runs hit hmiss hdrained hmapped hnd, replay_bound⟩

/-- Settles O47: a miss waits for its page where its layer replays, and the item runs again; elsewhere it ends the attempt. -/
theorem missesAreReplayedOrAbort : Obligations.MissesAreReplayedOrAbort := ⟨missesAreReplayed, replayGoesOn⟩

end Sys2Proof.Machine
end
section
/-! Main memory as the units of a core reach it: accesses, stores and what a range reads (R99 to R101, R125, R126, R314, R320). -/

namespace Sys2Proof.Machine

/-- Where an item's addresses are moved to is said by the recipe, the item and the step. -/
theorem shift_congr {s t : State} (hrecipe : t.recipe = s.recipe) (hgroups : t.groups = s.groups) (hjob : t.job = s.job)
    (core : Nat) (main : Bool) (a : Nat) : t.shift core main a = s.shift core main a := by
  have hcont : t.cont = s.cont := by rw [State.cont, State.cont, hrecipe]
  have hitem : t.coreItem core = s.coreItem core := by
    unfold State.coreItem State.coreGroup State.groupOf State.groupList State.group
    rw [hcont, hgroups]
  unfold State.shift State.converts State.itemStep State.blockAt State.blocks State.ksec State.layer? State.layers
  rw [hitem, hcont, hjob]

/-! ## Marks that an access leaves -/

theorem rewrite_poison_subset (m : MemSt) (l : List Nat) : (m.rewrite l).poison ⊆ m.poison := by
  change (if m.poison.isEmpty then [] else m.poison.filter fun b => !l.contains b) ⊆ m.poison
  split
  · exact List.nil_subset _
  · exact List.filter_subset_self _

theorem rewrite_broken_subset (m : MemSt) (l : List Nat) : (m.rewrite l).broken ⊆ m.broken := by
  change (if m.broken.isEmpty then [] else m.broken.filter fun b => !l.contains b) ⊆ m.broken
  split
  · exact List.nil_subset _
  · exact List.filter_subset_self _

theorem touch_subset (m : MemSt) (lines : List Nat) (dirty streaming : Bool) :
    (m.touch lines dirty streaming).poison ⊆ m.poison ∧ (m.touch lines dirty streaming).broken ⊆ m.broken := by
  change (lines.foldl (fun m pa => m.access pa dirty streaming) m).poison ⊆ m.poison
    ∧ (lines.foldl (fun m pa => m.access pa dirty streaming) m).broken ⊆ m.broken
  induction lines generalizing m with
  | nil => exact ⟨List.Subset.refl _, List.Subset.refl _⟩
  | cons pa lines ih =>
    obtain ⟨hp, hb⟩ := ih (m.access pa dirty streaming)
    exact ⟨List.Subset.trans hp (rewrite_poison_subset m _), List.Subset.trans hb (rewrite_broken_subset m _)⟩

/-- Main memory has been reached: its bytes, the pantries and translation caches may differ, and no block is marked anew. -/
structure Reaches (s t : State) : Prop where
  rest : t = { s with mm := { s.mm with
    mem := t.mm.mem, pantry := t.mm.pantry, atc := t.mm.atc, atcOne := t.mm.atcOne, poison := t.mm.poison
    broken := t.mm.broken } }
  poison : t.mm.poison ⊆ s.mm.poison
  broken : t.mm.broken ⊆ s.mm.broken

theorem Reaches.refl (s : State) : Reaches s s := ⟨rfl, List.Subset.refl _, List.Subset.refl _⟩

theorem Reaches.trans {s t u : State} (h : Reaches s t) (k : Reaches t u) : Reaches s u := by
  refine ⟨?_, List.Subset.trans k.poison h.poison, List.Subset.trans k.broken h.broken⟩
  rw [k.rest, h.rest]

theorem Reaches.fold {α : Type} {f : State → α → State} (hf : ∀ s x, Reaches s (f s x)) (l : List α) (s : State) :
    Reaches s (l.foldl f s) := by
  induction l generalizing s with
  | nil => exact Reaches.refl s
  | cons x l ih => exact (hf s x).trans (ih _)

section
variable {s t : State} (h : Reaches s t)
include h

theorem Reaches.pages : t.mm.pages = s.mm.pages := by rw [h.rest]
theorem Reaches.cores : t.cores = s.cores := by rw [h.rest]
theorem Reaches.core (n : Nat) : t.core n = s.core n := by rw [State.core, h.cores]; rfl
theorem Reaches.job : t.job = s.job := by rw [h.rest]
theorem Reaches.regs : t.regs = s.regs := by rw [h.rest]
theorem Reaches.groups : t.groups = s.groups := by rw [h.rest]

theorem Reaches.phys (va : Nat) : t.phys va = s.phys va := by rw [h.rest]; rfl
theorem Reaches.xlat (va : Nat) (w : Bool) : t.xlat va w = s.xlat va w := by rw [h.rest]; rfl
theorem Reaches.shift (core : Nat) (main : Bool) (a : Nat) : t.shift core main a = s.shift core main a :=
  shift_congr (by rw [h.rest]) h.groups h.job core main a

theorem Reaches.marked {b : Nat} (hb : s.marked b = false) : t.marked b = false := by
  rw [← Bool.not_eq_true, State.marked_iff, not_or] at hb ⊢
  exact ⟨fun x => hb.1 (h.poison x), fun x => hb.2 (h.broken x)⟩

theorem Reaches.vmRead (hmem : t.mm.mem = s.mm.mem) (va n : Nat) : t.vmRead va n = s.vmRead va n := by
  unfold State.vmRead
  simp only [h.phys, hmem]

theorem Reaches.coreOnly (hmem : t.mm.mem = s.mm.mem) (core : Nat) : CoreOnly core s t := by
  refine ⟨fun n _ => h.core n, ?_⟩
  rw [h.rest, hmem]

end

theorem touchLines_reaches (lines : List Nat) (dirty streaming : Bool) (s : State) :
    Reaches s (touchLines lines dirty streaming s) :=
  ⟨rfl, (touch_subset ..).1, (touch_subset ..).2⟩

theorem atcTouch_reaches (hearth vpn : Nat) (s : State) : Reaches s (atcTouch hearth vpn s) := by
  unfold atcTouch
  split
  · exact Reaches.refl s
  · dsimp only
    split
    · exact ⟨rfl, List.Subset.refl _, List.Subset.refl _⟩
    · exact ⟨rfl, (touch_subset ..).1, (touch_subset ..).2⟩

theorem atcTouch_mem (hearth vpn : Nat) (s : State) : (atcTouch hearth vpn s).mm.mem = s.mm.mem := by
  unfold atcTouch
  split
  · rfl
  · dsimp only; split <;> rfl

theorem touchPages_reaches (hearth : Nat) (lines : List Nat) (s : State) : Reaches s (touchPages hearth lines s) :=
  Reaches.fold (fun s v => atcTouch_reaches hearth v s) _ s

theorem touchPages_mem (hearth : Nat) (lines : List Nat) (s : State) : (touchPages hearth lines s).mm.mem = s.mm.mem :=
  foldl_field (fun s => s.mm.mem) (fun s v => atcTouch_mem hearth v s) _ s

theorem touchTile_reaches (core : Nat) (d : StreamDesc) (vas : List Nat) (s : State) : Reaches s (touchTile core d vas s) :=
  (touchLines_reaches ..).trans (touchPages_reaches ..)

theorem touchTile_mem (core : Nat) (d : StreamDesc) (vas : List Nat) (s : State) :
    (touchTile core d vas s).mm.mem = s.mm.mem := touchPages_mem ..

theorem readTouch_reaches (hearth va n : Nat) (s : State) : Reaches s (readTouch hearth va n s) := by
  have hrange : Reaches s (touchRange va n false false s) := touchLines_reaches ..
  unfold readTouch
  dsimp only
  split
  · exact hrange
  · exact hrange.trans (Reaches.fold (fun s i => atcTouch_reaches ..) _ _)

theorem readTouch_mem (hearth va n : Nat) (s : State) : (readTouch hearth va n s).mm.mem = s.mm.mem := by
  unfold readTouch
  dsimp only
  split
  · rfl
  · exact foldl_field (fun s => s.mm.mem) (fun s i => atcTouch_mem ..) _ _

theorem vmStore_reaches (va : Nat) (bs : Bytes) (s : State) : Reaches s (vmStore va bs s) :=
  ⟨rfl, (touch_subset ..).1, (touch_subset ..).2⟩

/-! ## Bytes a store leaves -/

/-- A byte of a store is written. -/
def storeOk (s : State) (va n i p : Nat) : Bool := wholeLine va n ((va + i) / 128) || !s.bad p

/-- One byte of a store. -/
def storeByte (s : State) (va n : Nat) (m : Mem) (x : Byte × Nat) : Mem :=
  match s.phys (va + x.2) with
  | some p => if storeOk s va n x.2 p then memWrite m p x.1 else m
  | none => m

theorem vmStore_mem (va : Nat) (bs : Bytes) (s : State) :
    (vmStore va bs s).mm.mem = bs.zipIdx.foldl (storeByte s va bs.length) s.mm.mem := rfl

section
variable {s : State} {va n p : Nat}

theorem storeByte_wf {m : Mem} (h : memWf m = true) (x : Byte × Nat) : memWf (storeByte s va n m x) = true := by
  unfold storeByte
  split
  · split
    · exact memWrite_wf _ _ m h
    · exact h
  · exact h

theorem storeByte_other {m : Mem} {x : Byte × Nat} (h : s.phys (va + x.2) ≠ some p) :
    memRead (storeByte s va n m x) p = memRead m p := by
  unfold storeByte
  split
  · next q hq =>
    split
    · exact memRead_write_other _ (fun e => h (by rw [hq, e])) m
    · rfl
  · rfl

theorem storeBytes_other {l : List (Byte × Nat)} (h : ∀ x ∈ l, s.phys (va + x.2) ≠ some p) (m : Mem) :
    memRead (l.foldl (storeByte s va n) m) p = memRead m p := by
  induction l generalizing m with
  | nil => rfl
  | cons x l ih =>
    exact (ih (fun y hy => h y (List.mem_cons_of_mem _ hy)) _).trans (storeByte_other (h x List.mem_cons_self))

/-- A byte that is written once reads back. -/
theorem storeBytes_same {l : List (Byte × Nat)} {x : Byte × Nat} (hx : x ∈ l) (hp : s.phys (va + x.2) = some p)
    (hok : storeOk s va n x.2 p = true) (hone : ∀ y ∈ l, s.phys (va + y.2) = some p → y = x) {m : Mem} (hm : memWf m = true) :
    memRead (l.foldl (storeByte s va n) m) p = x.1 := by
  induction l generalizing m with
  | nil => exact absurd hx List.not_mem_nil
  | cons y l ih =>
    by_cases hl : x ∈ l
    · exact ih hl (fun z hz => hone z (List.mem_cons_of_mem _ hz)) (storeByte_wf hm y)
    · obtain rfl : x = y := (List.mem_cons.mp hx).resolve_right hl
      have hrest : ∀ z ∈ l, s.phys (va + z.2) ≠ some p := fun z hz e =>
        hl (hone z (List.mem_cons_of_mem _ hz) e ▸ hz)
      rw [List.foldl_cons, storeBytes_other hrest, storeByte, hp]
      simp only [hok, if_true]
      exact memRead_write_same _ _ m hm

end

theorem vmStore_outside (va : Nat) (bs : Bytes) (s : State) : MemoryOutside [(va, bs.length)] s (vmStore va bs s) := by
  intro p hp
  rw [vmStore_mem]
  refine storeBytes_other (fun x hx => ?_) s.mm.mem
  exact hp (va, bs.length) (List.mem_singleton_self _) x.2 (by have := (List.mem_zipIdx hx).2.1; omega)

/-- The offset of a byte in its page is that of its address. -/
theorem phys_mod {s : State} {va p : Nat} (h : s.phys va = some p) : p % pageSize = va % pageSize := by
  have key (k : Nat) : (k * pageSize + va % pageSize) % pageSize = va % pageSize := by
    rw [Nat.mul_comm, Nat.mul_add_mod, Nat.mod_mod]
  unfold State.phys at h
  split at h
  · injection h with h; rw [← h]; exact key _
  · obtain ⟨q, _, h⟩ := Option.map_eq_some_iff.mp h
    rw [← h]; exact key _

theorem phys_injective {s : State} {va i j n p : Nat} (hi : i < n) (hj : j < n) (hn : n ≤ pageSize)
    (h1 : s.phys (va + i) = some p) (h2 : s.phys (va + j) = some p) : i = j := by
  have hmod := (phys_mod h1).symm.trans (phys_mod h2)
  have key {i j : Nat} (hij : i ≤ j) (hj : j < pageSize) (hmod : (va + i) % pageSize = (va + j) % pageSize) : i = j := by
    have hd : pageSize ∣ (va + j) - (va + i) := (Nat.modEq_iff_dvd' (by omega)).mp hmod
    have hz := Nat.eq_zero_of_dvd_of_lt hd (by omega)
    omega
  rcases Nat.le_total i j with h | h
  · exact key h (by omega) hmod
  · exact (key h (by omega) hmod.symm).symm

/-- A range that is stored in memory whose every byte can be written reads back. -/
theorem vmStore_read {va : Nat} {bs : Bytes} {s : State} (hwf : memWf s.mm.mem = true) (hlen : bs.length ≤ pageSize)
    (h : ∀ i < bs.length, ∃ p, s.phys (va + i) = some p ∧ s.bad p = false) : (vmStore va bs s).vmRead va bs.length = bs := by
  unfold State.vmRead
  refine List.ext_getElem (by simp) fun i h1 h2 => ?_
  obtain ⟨p, hp, hgood⟩ := h i h2
  rw [List.getElem_map, List.getElem_range, (vmStore_reaches va bs s).phys, hp, vmStore_mem]
  have hmem : (bs[i], i) ∈ bs.zipIdx := by
    rw [List.mem_zipIdx_iff_getElem?]
    exact List.getElem?_eq_getElem h2
  refine storeBytes_same hmem hp (by simp [storeOk, hgood]) (fun y hy hyp => ?_) hwf
  obtain ⟨b, j⟩ := y
  rw [List.mem_zipIdx_iff_getElem?] at hy
  obtain ⟨hj, hb⟩ := List.getElem?_eq_some_iff.mp hy
  have hij : j = i := phys_injective hj h2 hlen hyp hp
  subst hij
  exact congrArg (fun x => (x, j)) hb.symm

theorem bad_of_unmarked {s : State} {p : Nat} (h : s.marked (p / 128) = false) : s.bad p = false := by
  change (s.marked (p / 128) && (s.mm.line? p).isNone) = false
  rw [h, Bool.false_and]

end Sys2Proof.Machine
end
section
/-! Group barriers and sideline transfers (R117, R118, R133, R141). -/

namespace Sys2Proof.Machine

/-! ## Barriers -/

/-- A core has reached a barrier with nothing of its own under way. -/
def CoreSt.waits (c : CoreSt) (id : Nat) : Prop := c.barrier = some id ∧ c.inflight = [] ∧ c.side = []

/-- A core that has passed its barrier. -/
def CoreSt.passed (c : CoreSt) : CoreSt := { c with barrier := none, pc := c.pc + 1 }

theorem passed_core (s : State) (n m : Nat) :
    (setCore n { s.core n with barrier := none, pc := (s.core n).pc + 1 } s).core m
      = if n = m then (s.core m).passed else s.core m := by
  rw [setCore_core]
  split
  · next h => rw [h]; rfl
  · rfl

section
variable {core g id : Nat} {s : State} (hg : s.coreGroup core = some g) (hat : (s.core core).atBarrier = some id)
  (hissuing : s.issuing core = true)

/-- The core stands at the barrier. -/
def atBarrierState (core id : Nat) (s : State) : State := setCore core { s.core core with barrier := some id } s

include hg hat hissuing

theorem barrierState_eq : barrierState core s = (if (s.groupOf g).cores.all fun n =>
      ((atBarrierState core id s).core n).barrier == some id && ((atBarrierState core id s).core n).inflight.isEmpty
        && ((atBarrierState core id s).core n).side.isEmpty then
      (s.groupOf g).cores.foldl (fun s n => setCore n { s.core n with barrier := none, pc := (s.core n).pc + 1 } s)
        (atBarrierState core id s)
    else atBarrierState core id s) := by
  unfold barrierState
  simp only [hg, hat]
  rw [if_neg (by simp [hissuing])]
  rfl

end

theorem atBarrier_waits_iff (core id n : Nat) (s : State) : ((atBarrierState core id s).core n).waits id
    ↔ (n = core ∨ (s.core n).barrier = some id) ∧ (s.core n).inflight = [] ∧ (s.core n).side = [] := by
  unfold CoreSt.waits atBarrierState
  rw [setCore_core]
  by_cases h : core = n
  · subst h; simp
  · rw [if_neg h]
    have hne : n ≠ core := Ne.symm h
    simp [hne]

theorem barrierJoinsGroup : Claims.BarrierJoinsGroup := by
  intro core g id s hg hat hissuing hnd here
  have hstate := barrierState_eq hg hat hissuing
  have hall : ((s.groupOf g).cores.all fun n =>
      ((atBarrierState core id s).core n).barrier == some id && ((atBarrierState core id s).core n).inflight.isEmpty
        && ((atBarrierState core id s).core n).side.isEmpty) = true ↔ ∀ n ∈ (s.groupOf g).cores, here n := by
    rw [List.all_eq_true]
    refine forall_congr' fun n => forall_congr' fun _ => ?_
    refine Iff.trans ?_ (atBarrier_waits_iff core id n s)
    rw [CoreSt.waits]
    simp [and_assoc]
  refine ⟨fun h => ?_, fun ⟨n, hn, hno⟩ => ?_⟩
  · rw [if_pos (hall.mpr h)] at hstate
    refine ⟨_, congrArg Host.Outcome.next hstate, ?_⟩
    have hother (n : Nat) (hn : n ≠ core) : (atBarrierState core id s).core n = s.core n := setCore_core_other hn _ s
    have hpc (n : Nat) : ((atBarrierState core id s).core n).pc = (s.core n).pc := by
      by_cases hn : n = core
      · subst hn; rw [show (atBarrierState n id s).core n = _ from setCore_core_same ..]
      · rw [hother n hn]
    have hrest : ({ atBarrierState core id s with cores := [] } : State) = { s with cores := [] } := rfl
    generalize atBarrierState core id s = u at hother hpc hrest ⊢
    refine ⟨fun n hn => ?_, fun n hn hno => ?_, ?_⟩
    · rw [core_foldl_of_nodup passed_core hnd hn]
      exact ⟨congrArg (· + 1) (hpc n), rfl⟩
    · rw [core_foldl_of_not_mem passed_core hno, hother n hn]
    · have hfold := foldl_field (fun s : State => { s with cores := [] })
        (f := fun s n => setCore n { s.core n with barrier := none, pc := (s.core n).pc + 1 } s) (fun _ _ => rfl)
        (s.groupOf g).cores u
      generalize List.foldl _ u (s.groupOf g).cores = t at hfold
      exact (congrArg (fun v : State => { v with cores := t.cores }) (hfold.trans hrest) :)
  · rw [if_neg (fun e => hno (hall.mp e n hn))] at hstate
    refine ⟨_, congrArg Host.Outcome.next hstate, ?_⟩
    unfold atBarrierState
    exact ⟨by rw [setCore_core_same], by rw [setCore_core_same], fun n hn => setCore_core_other hn _ s, rfl⟩

/-! ## Sideline transfers -/

/-- The sideline cannot yet move its bytes: a byte is missing, or uncorrectable. -/
theorem sidelineState_of_bad {core : Nat} {r : SideReq} {rest : List SideReq} {s : State} (hside : (s.core core).side = r :: rest)
    (hinst : r.inst = none) (hfar : (sideCmd r.cmd).far = 1)
    (hbad : s.rangeOk ((sideCmd r.cmd).farAddr + s.shift core true (sideCmd r.cmd).farAddr) (sideCmd r.cmd).len
      (sideCmd r.cmd).toFar = false) : sidelineState core s = s := by
  unfold sidelineState
  split
  · rfl
  · simp only [hside, hinst]
    rw [if_pos]
    cases h : (sideCmd r.cmd).toFar <;> rw [h] at hbad <;> simp [hfar, hbad]

theorem sidelineState_inst_or {core : Nat} {r : SideReq} {rest : List SideReq} {s : State} {id : Nat} {i : Inflight}
    (hside : (s.core core).side = r :: rest) (hinst : r.inst = some id)
    (hi : (s.core core).inflight.find? (fun i => i.id = id) = some i) :
    sidelineState core s = s ∨ sidelineState core s = sideForInst core r i (sideCmd r.cmd) s := by
  unfold sidelineState
  split
  · exact .inl rfl
  · simp only [hside, hinst, hi]
    exact ite_eq_or_eq ..

section
variable {core : Nat} {r : SideReq} {rest : List SideReq} {s : State} (hissuing : s.issuing core = true)
  (hside : (s.core core).side = r :: rest)
include hissuing hside

/-- A command of the core's own. -/
theorem sidelineState_of_own (hinst : r.inst = none)
    (hok : (sideCmd r.cmd).far = 1 → s.rangeOk ((sideCmd r.cmd).farAddr + s.shift core true (sideCmd r.cmd).farAddr)
      (sideCmd r.cmd).len (sideCmd r.cmd).toFar = true) :
    sidelineState core s =
      (let m := sideCmd r.cmd
       let u := setCore core { s.core core with side := rest } s
       if m.toFar then sideWrite core m.far m.farAddr (u.sideRead core (nearMem m.near) m.nearAddr m.len) u
       else sideWrite core (nearMem m.near) m.nearAddr (u.sideRead core m.far m.farAddr m.len)
         (sideTouch core m.far m.farAddr m.len u)) := by
  unfold sidelineState
  rw [if_neg (by simp [hissuing])]
  simp only [hside, hinst]
  rw [if_neg]
  intro h
  rw [Bool.and_eq_true, decide_eq_true_eq] at h
  have hrange := hok h.1
  have h2 := h.2
  cases hto : (sideCmd r.cmd).toFar <;> rw [hto] at hrange <;> simp [hto, hrange] at h2

/-- A command that serves an instruction. -/
theorem sidelineState_of_inst {id : Nat} {i : Inflight} (hinst : r.inst = some id)
    (hi : (s.core core).inflight.find? (fun i => i.id = id) = some i)
    (hok : (sideCmd r.cmd).far = 1 →
      (roleWrites i.unit r.role = true → s.rangeOk ((sideCmd r.cmd).farAddr + s.shift core true (sideCmd r.cmd).farAddr)
        (sideCmd r.cmd).len true = true)
      ∧ (roleWrites i.unit r.role = false ∨ (r.role = 5 ∧ i.accumulates = true) →
        s.rangeOk ((sideCmd r.cmd).farAddr + s.shift core true (sideCmd r.cmd).farAddr) (sideCmd r.cmd).len false = true)) :
    sidelineState core s = sideForInst core r i (sideCmd r.cmd) s := by
  unfold sidelineState
  rw [if_neg (by simp [hissuing])]
  simp only [hside, hinst]
  rw [if_neg, hi]
  intro h
  rw [Bool.and_eq_true, decide_eq_true_eq] at h
  obtain ⟨hfar, h⟩ := h
  obtain ⟨hw, hr⟩ := hok hfar
  rw [Option.bind_some, hi] at h
  cases hrole : roleWrites i.unit r.role
  · simp [hrole, hr (.inl hrole)] at h
  · simp only [Option.isNone_some, Bool.false_eq_true, if_false, Option.any_some, hrole, hw hrole, Bool.or_true, Bool.true_and,
      Bool.not_true, Bool.false_or] at h
    by_cases hacc : r.role = 5 ∧ i.accumulates = true
    · simp [hr (.inr hacc)] at h
    · have hno : (r.role == 5 && i.accumulates) = false := by
        rw [Bool.eq_false_iff]
        simpa using hacc
      simp [hno] at h

end

/-! ## The bytes that are moved -/

/-- A state from which a transfer of a core may be carried out: of the core only what waits differs, of main memory the
pantries, caches and marks of blocks that read well again. -/
structure StandsBy (core : Nat) (s v : State) : Prop where
  others : ∀ n, n ≠ core → v.core n = s.core n
  tile : (v.core core).tile = (s.core core).tile
  sideMem : (v.core core).sideMem = (s.core core).sideMem
  mem : v.mm.mem = s.mm.mem
  phys : ∀ va, v.phys va = s.phys va
  pages : v.mm.pages = s.mm.pages
  marked : ∀ b, s.marked b = false → v.marked b = false
  shift : ∀ main a, v.shift core main a = s.shift core main a
  job : v.job = s.job
  regs : v.regs = s.regs

theorem standsBy_setCore {core : Nat} {c : CoreSt} {s : State} (htile : c.tile = (s.core core).tile)
    (hside : c.sideMem = (s.core core).sideMem) : StandsBy core s (setCore core c s) where
  others n hn := setCore_core_other hn c s
  tile := by rw [setCore_core_same]; exact htile
  sideMem := by rw [setCore_core_same]; exact hside
  mem := congrArg MemSt.mem (setCore_mm core c s)
  phys va := by unfold State.phys; rw [setCore_mm]
  pages := congrArg MemSt.pages (setCore_mm core c s)
  marked b h := by rw [State.marked, setCore_mm]; exact h
  shift := shift_congr (setCore_recipe ..) (setCore_groups ..) (setCore_job ..) core
  job := setCore_job ..
  regs := setCore_regs ..

theorem StandsBy.reaches {core : Nat} {s v w : State} (h : StandsBy core s v) (k : Reaches v w) (hmem : w.mm.mem = v.mm.mem) :
    StandsBy core s w where
  others n hn := (k.core n).trans (h.others n hn)
  tile := by rw [k.core]; exact h.tile
  sideMem := by rw [k.core]; exact h.sideMem
  mem := hmem.trans h.mem
  phys va := (k.phys va).trans (h.phys va)
  pages := k.pages.trans h.pages
  marked b hb := k.marked (h.marked b hb)
  shift main a := (k.shift core main a).trans (h.shift main a)
  job := k.job.trans h.job
  regs := k.regs.trans h.regs

theorem sideTouch_reaches (core mem a n : Nat) (s : State) : Reaches s (sideTouch core mem a n s)
    ∧ (sideTouch core mem a n s).mm.mem = s.mm.mem := by
  unfold sideTouch
  split
  · exact ⟨readTouch_reaches .., readTouch_mem ..⟩
  · exact ⟨Reaches.refl s, rfl⟩

theorem sideRead_congr {core : Nat} {s v : State} (h : StandsBy core s v) (mem a n : Nat) :
    v.sideRead core mem a n = s.sideRead core mem a n := by
  unfold State.sideRead State.vmRead
  simp only [h.tile, h.sideMem, h.shift, h.phys, h.mem]

/-- What waits on the core stands through a transfer's write. -/
theorem sideWrite_waiting (core mem a : Nat) (bs : Bytes) (s : State) :
    ((sideWrite core mem a bs s).core core).side = (s.core core).side
      ∧ ((sideWrite core mem a bs s).core core).inflight = (s.core core).inflight := by
  unfold sideWrite
  split
  · rw [setCore_core_same]; exact ⟨rfl, rfl⟩
  · have h := (readTouch_reaches (core / 96) (a + s.shift core true a) bs.length s).trans
      (vmStore_reaches (a + s.shift core true a) bs _)
    rw [h.core]; exact ⟨rfl, rfl⟩
  · rw [setCore_core_same]; exact ⟨rfl, rfl⟩

/-- A transfer's write leaves its bytes and no others. -/
theorem sideWrite_written {core mem a : Nat} {bs : Bytes} {s v : State} (h : StandsBy core s v) (hlt : mem < 3) :
    Claims.Written core mem a bs s (sideWrite core mem a bs v) := by
  unfold Claims.Written
  dsimp only
  obtain rfl | rfl | rfl : mem = 0 ∨ mem = 1 ∨ mem = 2 := by omega
  · have hw : sideWrite core 0 a bs v = setCore core { v.core core with
        tile := memStore (v.core core).tile (a + v.shift core false a) bs } v := rfl
    rw [hw]
    refine ⟨fun n hn => (setCore_core_other hn _ v).trans (h.others n hn), fun _ => ?_, fun e => absurd e (by decide),
      fun e => absurd e (by decide), h.job, h.regs, h.pages⟩
    rw [setCore_core_same]
    exact ⟨by rw [h.tile, h.shift], h.sideMem, h.mem⟩
  · have hw : sideWrite core 1 a bs v = vmStore (a + v.shift core true a) bs
        (readTouch (core / 96) (a + v.shift core true a) bs.length v) := rfl
    rw [hw, h.shift]
    generalize a + s.shift core true a = va
    have hby := h.reaches (readTouch_reaches (core / 96) va bs.length v) (readTouch_mem ..)
    generalize readTouch (core / 96) va bs.length v = w at hby ⊢
    have hstore := vmStore_reaches va bs w
    refine ⟨fun n hn => (hstore.core n).trans (hby.others n hn), fun e => absurd e (by decide), fun _ => ⟨?_, ?_, ?_, ?_⟩,
      fun e => absurd e (by decide), hstore.job.trans hby.job, hstore.regs.trans hby.regs, hstore.pages.trans hby.pages⟩
    · rw [hstore.core]; exact hby.tile
    · rw [hstore.core]; exact hby.sideMem
    · intro p hp
      rw [← hby.mem]
      refine vmStore_outside va bs w p fun r hr i hi => ?_
      rw [hby.phys]
      exact hp r hr i hi
    · intro hwf hlen hgood
      refine vmStore_read (by rw [hby.mem]; exact hwf) hlen fun i hi => ?_
      obtain ⟨p, hp, hm⟩ := hgood i hi
      exact ⟨p, (hby.phys _).trans hp, bad_of_unmarked (hby.marked _ hm)⟩
  · have hw : sideWrite core 2 a bs v = setCore core { v.core core with sideMem := memStore (v.core core).sideMem a bs } v := rfl
    rw [hw]
    refine ⟨fun n hn => (setCore_core_other hn _ v).trans (h.others n hn), fun e => absurd e (by decide),
      fun e => absurd e (by decide), fun _ => ?_, h.job, h.regs, h.pages⟩
    rw [setCore_core_same]
    exact ⟨by rw [h.sideMem], h.tile, h.mem⟩

/-- What has been written stands while the core's instructions move. -/
theorem written_setCore {core mem a : Nat} {bs : Bytes} {s t : State} {c : CoreSt} (h : Claims.Written core mem a bs s t)
    (htile : c.tile = (t.core core).tile) (hside : c.sideMem = (t.core core).sideMem) :
    Claims.Written core mem a bs s (setCore core c t) := by
  unfold Claims.Written at h ⊢
  dsimp only at h ⊢
  obtain ⟨h1, h2, h3, h4, h5⟩ := h
  rw [setCore_core_same, htile, hside]
  exact ⟨fun n hn => (setCore_core_other hn c t).trans (h1 n hn), h2, h3, h4, h5⟩

/-! ## Commands -/

theorem nearMem_lt (k : Nat) : nearMem k < 3 := by
  unfold nearMem; split <;> decide

section
variable {core : Nat} {r : SideReq} {rest : List SideReq} {s : State}

/-- A command of the core's own moves its bytes. -/
theorem own_transfer (hissuing : s.issuing core = true) (hside : (s.core core).side = r :: rest) (hinst : r.inst = none)
    (hfar : (sideCmd r.cmd).far < 3)
    (hok : (sideCmd r.cmd).far = 1 → s.rangeOk ((sideCmd r.cmd).farAddr + s.shift core true (sideCmd r.cmd).farAddr)
      (sideCmd r.cmd).len (sideCmd r.cmd).toFar = true) :
    ∃ t, exec (.sidelineTransfer core) s = .next t ∧ (t.core core).side = rest
      ∧ (t.core core).inflight = (s.core core).inflight
      ∧ (if (sideCmd r.cmd).toFar then Claims.Written core (sideCmd r.cmd).far (sideCmd r.cmd).farAddr
            (s.sideRead core (nearMem (sideCmd r.cmd).near) (sideCmd r.cmd).nearAddr (sideCmd r.cmd).len) s t
         else Claims.Written core (nearMem (sideCmd r.cmd).near) (sideCmd r.cmd).nearAddr
            (s.sideRead core (sideCmd r.cmd).far (sideCmd r.cmd).farAddr (sideCmd r.cmd).len) s t) := by
  have hstate := sidelineState_of_own hissuing hside hinst hok
  have hby : StandsBy core s (setCore core { s.core core with side := rest } s) := standsBy_setCore rfl rfl
  have hcore : (setCore core { s.core core with side := rest } s).core core = { s.core core with side := rest } :=
    setCore_core_same ..
  dsimp only at hstate
  generalize setCore core { s.core core with side := rest } s = u at hstate hby hcore
  generalize sideCmd r.cmd = m at hstate hfar ⊢
  refine ⟨_, congrArg Host.Outcome.next hstate, ?_⟩
  cases hto : m.toFar
  · obtain ⟨hreach, hmem⟩ := sideTouch_reaches core m.far m.farAddr m.len u
    have hby' := hby.reaches hreach hmem
    simp only [Bool.false_eq_true, if_false]
    rw [sideRead_congr hby]
    obtain ⟨hs, hi⟩ := sideWrite_waiting core (nearMem m.near) m.nearAddr (s.sideRead core m.far m.farAddr m.len)
      (sideTouch core m.far m.farAddr m.len u)
    rw [hreach.core, hcore] at hs hi
    exact ⟨hs, hi, sideWrite_written hby' (nearMem_lt _)⟩
  · simp only [if_true]
    rw [sideRead_congr hby]
    obtain ⟨hs, hi⟩ := sideWrite_waiting core m.far m.farAddr (s.sideRead core (nearMem m.near) m.nearAddr m.len) u
    rw [hcore] at hs hi
    exact ⟨hs, hi, sideWrite_written hby hfar⟩

variable {i : Inflight}

/-- A command brings its instruction an operand. -/
theorem operand_brought (hside : (s.core core).side = r :: rest) (hrole : roleWrites i.unit r.role = false) :
    let m := sideCmd r.cmd
    let t := sideForInst core r i m s
    (t.core core).side = rest
      ∧ (t.core core).inflight = (s.core core).inflight.map (fun j =>
          if j.id = i.id then { j with reads := (r.role, s.sideRead core m.far m.farAddr m.len) :: j.reads } else j)
      ∧ (t.core core).tile = (s.core core).tile ∧ (t.core core).sideMem = (s.core core).sideMem ∧ CoreOnly core s t := by
  intro m t
  obtain ⟨hreach, hmem⟩ := sideTouch_reaches core m.far m.farAddr m.len s
  have ht : t = setCore core (({ s.core core with side := (s.core core).side.drop 1 } : CoreSt).updInst i.id fun i =>
      { i with reads := (r.role, s.sideRead core m.far m.farAddr m.len) :: i.reads })
      (sideTouch core m.far m.farAddr m.len s) := by
    change sideForInst core r i m s = _
    unfold sideForInst
    rw [if_pos (by simp [hrole])]
  rw [ht, setCore_core_same]
  refine ⟨?_, rfl, rfl, rfl, (hreach.coreOnly hmem core).trans (setCore_coreOnly ..)⟩
  change (s.core core).side.drop 1 = rest
  rw [hside]
  rfl

theorem sideForInst_waits (m : SideCmd) (hrole : roleWrites i.unit r.role = true)
    (h : i.executed = false ∨ (i.unit = .matrix ∧ i.final = false) ∨ (r.role = 5 ∧ (s.core core).drained i = false)) :
    sideForInst core r i m s = s := by
  unfold sideForInst
  dsimp only
  rw [if_neg (by simp [hrole]), if_pos]
  rcases h with h | ⟨h1, h2⟩ | ⟨h1, h2⟩ <;> simp [*]

/-- The bytes an instruction's command carries out. -/
def carried (core : Nat) (r : SideReq) (i : Inflight) (m : SideCmd) (s : State) : Bytes :=
  let bs := (klook i.outs r.role).getD []
  (if r.role = 5 ∧ i.accumulates = true then statAccum (s.sideRead core m.far m.farAddr m.len) bs else bs).take m.len

theorem result_carried (hside : (s.core core).side = r :: rest) {m : SideCmd} (hrole : roleWrites i.unit r.role = true)
    (hexec : i.executed = true) (hfinal : i.unit = .matrix → i.final = true)
    (hdrained : r.role = 5 → (s.core core).drained i = true) (hfar : m.far < 3) :
    ((sideForInst core r i m s).core core).side = rest
      ∧ Claims.Written core m.far m.farAddr (carried core r i m s) s (sideForInst core r i m s) := by
  have hstate : sideForInst core r i m s = setCore core
      ((sideWrite core m.far m.farAddr (carried core r i m s) (setCore core { s.core core with side := rest } s)).core core).tidy
      (sideWrite core m.far m.farAddr (carried core r i m s) (setCore core { s.core core with side := rest } s)) := by
    unfold sideForInst carried
    dsimp only
    rw [if_neg (by simp [hrole]), if_neg, hside]
    · simp only [Bool.and_eq_true, decide_eq_true_eq]
      rfl
    · have h1 : (i.unit == .matrix && !i.final) = false := by
        rw [Bool.and_eq_false_iff]
        by_cases hu : i.unit = .matrix
        · right; simp [hfinal hu]
        · left; simpa using hu
      have h2 : (r.role == 5 && !(s.core core).drained i) = false := by
        rw [Bool.and_eq_false_iff]
        by_cases hu : r.role = 5
        · right; simp [hdrained hu]
        · left; simpa using hu
      simp [hexec, h1]
      simpa using h2
  have hby : StandsBy core s (setCore core { s.core core with side := rest } s) := standsBy_setCore rfl rfl
  have hcore : (setCore core { s.core core with side := rest } s).core core = { s.core core with side := rest } :=
    setCore_core_same ..
  generalize setCore core { s.core core with side := rest } s = v at hstate hby hcore
  have hw := sideWrite_written (a := m.farAddr) (bs := carried core r i m s) hby hfar
  obtain ⟨hs, _⟩ := sideWrite_waiting core m.far m.farAddr (carried core r i m s) v
  rw [hcore] at hs
  rw [hstate]
  generalize sideWrite core m.far m.farAddr (carried core r i m s) v = u at hw hs
  refine ⟨?_, written_setCore hw rfl rfl⟩
  rw [setCore_core_same]
  exact hs

end

theorem sidelineMovesBytes : Claims.SidelineMovesBytes := by
  intro core r rest s hissuing hside m far
  refine ⟨fun hinst hfar hok => own_transfer hissuing hside hinst hfar hok, fun id i hinst hi => ⟨fun hrole hok => ?_,
    fun hrole hexec hfinal hdrained hfar hok => ?_, fun hrole h => ?_⟩,
    fun hinst hfar hbad => congrArg Host.Outcome.next (sidelineState_of_bad hside hinst hfar hbad)⟩
  · have hstate := sidelineState_of_inst hissuing hside hinst hi fun hfar =>
      ⟨fun e => absurd (hrole.symm.trans e) (by decide), fun _ => hok hfar⟩
    exact ⟨_, congrArg Host.Outcome.next hstate, operand_brought hside hrole⟩
  · have hstate := sidelineState_of_inst hissuing hside hinst hi fun hfar =>
      ⟨fun _ => (hok hfar).1, fun e => by
        rcases e with e | ⟨e1, e2⟩
        · exact absurd (hrole.symm.trans e) (by decide)
        · exact (hok hfar).2 e1 e2⟩
    exact ⟨_, congrArg Host.Outcome.next hstate, result_carried hside hrole hexec hfinal hdrained hfar⟩
  · have hstate : sidelineState core s = s :=
      (sidelineState_inst_or hside hinst hi).elim (fun e => e) fun e => e.trans (sideForInst_waits m hrole h)
    exact congrArg Host.Outcome.next hstate

/-- Settles O44: a barrier holds each core until the whole group has come; a sideline command moves its bytes and no others. -/
theorem barriersAndTheSideline : Obligations.BarriersAndTheSideline := ⟨barrierJoinsGroup, sidelineMovesBytes⟩

end Sys2Proof.Machine
end
section
/-! The array and the engines of a core: what they take, what they produce (R69, R84, R85, R109, R115, R121, R135, R147). -/

namespace Sys2Proof.Machine

/-! ## Producing a stream -/

/-- Of one core its tile store, its streams and its instructions have moved; a stream that was produced still is. -/
structure Moves (core : Nat) (s t : State) : Prop where
  rest : t = { s with cores := t.cores }
  others : ∀ n, n ≠ core → t.core n = s.core n
  own : t.core core = { s.core core with
    tile := (t.core core).tile, ctx := (t.core core).ctx, inflight := (t.core core).inflight }
  streams : ∀ k x, s.streamAt core k = some x →
    ∃ y, t.streamAt core k = some y ∧ (x.produced = true → y.produced = true)

theorem Moves.refl (core : Nat) (s : State) : Moves core s s := ⟨rfl, fun _ _ => rfl, rfl, fun _ x hx => ⟨x, hx, fun h => h⟩⟩

theorem Moves.trans {core : Nat} {s t u : State} (h : Moves core s t) (k : Moves core t u) : Moves core s u := by
  refine ⟨?_, fun n hn => (k.others n hn).trans (h.others n hn), ?_, fun c x hx => ?_⟩
  · rw [k.rest, h.rest]
  · rw [k.own, h.own]
  · obtain ⟨y, hy, hxy⟩ := h.streams c x hx
    obtain ⟨z, hz, hyz⟩ := k.streams c y hy
    exact ⟨z, hz, fun e => hyz (hxy e)⟩

theorem setCore_moves {core : Nat} {c : CoreSt} {s : State}
    (own : c = { s.core core with tile := c.tile, ctx := c.ctx, inflight := c.inflight })
    (streams : ∀ k x, s.streamAt core k = some x → ∃ y, klook c.ctx k = some y ∧ (x.produced = true → y.produced = true)) :
    Moves core s (setCore core c s) := by
  refine ⟨rfl, fun n hn => setCore_core_other hn c s, ?_, fun k x hx => ?_⟩
  · rw [setCore_core_same]; exact own
  · rw [setCore_streamAt]; exact streams k x hx

theorem setCore_inflight_moves (core : Nat) (l : List Inflight) (s : State) :
    Moves core s (setCore core { s.core core with inflight := l } s) :=
  setCore_moves rfl fun _ x hx => ⟨x, hx, fun h => h⟩

theorem updInst_moves (core id : Nat) (f : Inflight → Inflight) (s : State) :
    Moves core s (setCore core ((s.core core).updInst id f) s) := setCore_inflight_moves core _ s

/-- A stream whose ring is filled. -/
def Stream.filled (x : Stream) : Stream :=
  { x with out := x.out ++ x.todo.take (3 - x.out.length), todo := x.todo.drop (3 - x.out.length) }

theorem refill_ctx {c : CoreSt} {ctx : Nat} {x : Stream} (h : klook c.ctx ctx = some x) :
    (c.refill ctx).ctx = tset c.ctx ctx x.filled := by
  unfold CoreSt.refill
  rw [h]
  rfl

theorem refill_own (c : CoreSt) (ctx : Nat) : c.refill ctx = { c with tile := (c.refill ctx).tile, ctx := (c.refill ctx).ctx } := by
  unfold CoreSt.refill
  split <;> rfl

/-- One stream of a core replaced, the others kept. -/
theorem streams_tset {core ctx : Nat} {s : State} {x y : Stream} (hx : s.streamAt core ctx = some x)
    (hxy : x.produced = true → y.produced = true) (k : Nat) (z : Stream) (hz : s.streamAt core k = some z) :
    ∃ w, klook (tset (s.core core).ctx ctx y) k = some w ∧ (z.produced = true → w.produced = true) := by
  rw [klook_tset]
  by_cases h : ctx = k
  · subst h
    rw [hx] at hz
    injection hz with hz
    subst hz
    exact ⟨y, if_pos rfl, hxy⟩
  · exact ⟨z, by rw [if_neg h]; exact hz, fun e => e⟩

theorem tset_tset_same {α : Type} (l : List (Nat × α)) (i : Nat) (x y : α) : tset (tset l i x) i y = tset l i y := by
  induction l with
  | nil => simp [tset]
  | cons e l ih =>
    obtain ⟨k, v⟩ := e
    by_cases h1 : i < k
    · simp [tset, h1]
    · by_cases h2 : i = k
      · simp [tset, h2]
      · simp [tset, h1, h2, ih]

section
variable {core ctx : Nat} {x : Stream} {s : State} (hx : s.streamAt core ctx = some x) (elems : List (Nat × Nat))
include hx

/-- The core once the elements of a stream are handed to the peel. -/
theorem produce_eq : ∃ c y, produce core ctx elems s = setCore core c s ∧ y.produced = true
    ∧ c = { s.core core with tile := c.tile, ctx := tset (s.core core).ctx ctx y } := by
  unfold produce
  simp only [hx]
  split
  · exact ⟨_, _, rfl, rfl, rfl⟩
  · generalize hx' : ({ x with produced := true, todo := _ } : Stream) = x'
    have hprod : x'.produced = true := by rw [← hx']
    have hlook : klook (tset (s.core core).ctx ctx x') ctx = some x' := klook_tset_same ..
    refine ⟨_, x'.filled, rfl, hprod, ?_⟩
    have hown := refill_own { s.core core with ctx := tset (s.core core).ctx ctx x' } ctx
    have hctx := refill_ctx (c := { s.core core with ctx := tset (s.core core).ctx ctx x' }) hlook
    generalize ({ s.core core with ctx := tset (s.core core).ctx ctx x' } : CoreSt).refill ctx = c at hown hctx ⊢
    rw [hctx, tset_tset_same] at hown
    exact hown

theorem produce_produced : ∃ y, (produce core ctx elems s).streamAt core ctx = some y ∧ y.produced = true := by
  obtain ⟨c, y, ht, hy, hc⟩ := produce_eq hx elems
  refine ⟨y, ?_, hy⟩
  rw [ht, setCore_streamAt, hc]
  exact klook_tset_same ..

end

theorem produce_moves (core ctx : Nat) (elems : List (Nat × Nat)) (s : State) : Moves core s (produce core ctx elems s)
    ∧ ((produce core ctx elems s).core core).inflight = (s.core core).inflight := by
  cases hx : s.streamAt core ctx with
  | none =>
    have hs : produce core ctx elems s = s := by unfold produce; simp only [hx]
    rw [hs]
    exact ⟨Moves.refl core s, rfl⟩
  | some x =>
    obtain ⟨c, y, ht, hy, hc⟩ := produce_eq hx elems
    rw [ht, setCore_core_same]
    refine ⟨setCore_moves ?_ ?_, ?_⟩
    · rw [hc]
    · rw [hc]; exact streams_tset hx fun _ => hy
    · rw [hc]

/-! ## Writing a result -/

/-- An instruction with the result of its operation. -/
def Inflight.done (i : Inflight) (o : MatOut) (outs : List (Nat × Bytes)) : Inflight :=
  { i with outs := outs, final := true, status := i.status.or o.status, flush := o.flush, sat := o.sat, replays := o.replays }

theorem mem_updInst {c : CoreSt} {id : Nat} {f : Inflight → Inflight} {j : Inflight} (hj : j ∈ c.inflight) (hid : j.id = id) :
    f j ∈ (c.updInst id f).inflight := List.mem_map.mpr ⟨j, hj, if_pos hid⟩

/-- The scales of a matrix output on their path. -/
def scalesPut (core : Nat) (i : Inflight) (d : MatDesc) (o : MatOut) (s : State) : State :=
  let f := opFmt d.dFmt
  let bs := blockElems f.blockSize
  if d.dsCtx = 15 then s
  else if d.dsCtx = 8 then
    let bytes := denseBytes (cdDenseLen d bs f.blockDir)
      (o.scales.map fun (sr, sc, b) => (cdDense d bs f.blockDir sr sc, b))
    setCore core ((s.core core).updInst i.id fun i => { i with outs := (3, bytes) :: i.outs }) s
  else produce core d.dsCtx (o.scales.map fun (sr, sc, b) =>
    (if f.blockDir then cdScaleIndex d bs true (sr * bs) sc else cdScaleIndex d bs false sr (sc * bs), b)) s

theorem putMatrix_eq (core : Nat) (i : Inflight) (d : MatDesc) (o : MatOut) (s : State) : putMatrix core i d o s =
    (let u := scalesPut core i d o (produce core d.dCtx (o.elems.map fun (r, c, e) => (cdIndex d r c, e)) s)
     setCore core ((u.core core).updInst i.id fun i => i.done o i.outs) u) := rfl

theorem scalesPut_moves (core : Nat) (i : Inflight) (d : MatDesc) (o : MatOut) (s : State) :
    Moves core s (scalesPut core i d o s) ∧ ∀ j ∈ (s.core core).inflight, j.id = i.id →
      ∃ l, { j with outs := l } ∈ ((scalesPut core i d o s).core core).inflight := by
  unfold scalesPut
  dsimp only
  split
  · exact ⟨Moves.refl core s, fun j hj _ => ⟨j.outs, hj⟩⟩
  · split
    · refine ⟨updInst_moves .., fun j hj hid => ?_⟩
      rw [setCore_core_same]
      exact ⟨_, mem_updInst hj hid⟩
    · obtain ⟨hmoves, hinflight⟩ := produce_moves core d.dsCtx (o.scales.map fun (sr, sc, b) =>
        (if (opFmt d.dFmt).blockDir then cdScaleIndex d (blockElems (opFmt d.dFmt).blockSize) true
            (sr * blockElems (opFmt d.dFmt).blockSize) sc
          else cdScaleIndex d (blockElems (opFmt d.dFmt).blockSize) false sr (sc * blockElems (opFmt d.dFmt).blockSize), b)) s
      refine ⟨hmoves, fun j hj _ => ⟨j.outs, ?_⟩⟩
      rw [hinflight]
      exact hj

/-- A matrix output stands on its stream, and the instruction has its status. -/
theorem putMatrix_moves (core : Nat) (i : Inflight) (d : MatDesc) (o : MatOut) (s : State) :
    Moves core s (putMatrix core i d o s)
      ∧ (∀ j ∈ (s.core core).inflight, j.id = i.id → ∃ l, j.done o l ∈ ((putMatrix core i d o s).core core).inflight)
      ∧ ∀ x, s.streamAt core d.dCtx = some x → ∃ y, (putMatrix core i d o s).streamAt core d.dCtx = some y ∧ y.produced = true := by
  rw [putMatrix_eq]
  generalize helems : (o.elems.map fun (r, c, e) => (cdIndex d r c, e)) = elems
  obtain ⟨h1, hin1⟩ := produce_moves core d.dCtx elems s
  have hprod := fun x hx => produce_produced (s := s) (core := core) (ctx := d.dCtx) (x := x) hx elems
  generalize produce core d.dCtx elems s = u at h1 hin1 hprod ⊢
  obtain ⟨h2, hin2⟩ := scalesPut_moves core i d o u
  generalize scalesPut core i d o u = v at h2 hin2 ⊢
  have h3 := updInst_moves core i.id (fun i => i.done o i.outs) v
  dsimp only
  refine ⟨h1.trans (h2.trans h3), fun j hj hid => ?_, fun x hx => ?_⟩
  · obtain ⟨l, hl⟩ := hin2 j (by rw [hin1]; exact hj) hid
    rw [setCore_core_same]
    exact ⟨l, mem_updInst (f := fun i => i.done o i.outs) hl hid⟩
  · obtain ⟨y, hy, hyp⟩ := hprod x hx
    obtain ⟨z, hz, hyz⟩ := (h2.trans h3).streams d.dCtx y hy
    exact ⟨z, hz, hyz hyp⟩

end Sys2Proof.Machine
end
section
/-! One combination of a split-K group (R84, R85). -/

namespace Sys2Proof.Machine

theorem splitOp_spec {c : CoreSt} {i : Inflight} (h : c.splitOp = some i) : i ∈ c.inflight ∧ i.final = false := by
  have hspec := List.find?_some h
  simp only [Bool.and_eq_true, Bool.not_eq_true'] at hspec
  exact ⟨List.mem_of_find?_eq_some h, hspec.2⟩

/-- A member with the sums of one level more. -/
def Inflight.raised (i : Inflight) (ps : List W32) (st : NStatus) (level : Nat) : Inflight :=
  { i with partials := ps, status := i.status.or st, level := level + 1 }

/-- The lower member goes up one level; at the root of the whole group its sums are the output. -/
def raiseMember (core level : Nat) (i : Inflight) (ps : List W32) (st : NStatus) (s : State) : State :=
  let u := setCore core ((s.core core).updInst i.id fun j => j.raised ps st level) s
  if (matDesc i.desc).ksIdx = 0 && decide ((matDesc i.desc).ksN + 1 ≤ 2 ^ (level + 1)) then
    putMatrix core i (matDesc i.desc) (writePartials (matDesc i.desc) ps) u
  else u

theorem raiseMember_raises {core : Nat} (level : Nat) {i : Inflight} (ps : List W32) (st : NStatus) {s : State}
    (hi : i ∈ (s.core core).inflight) (hfinal : i.final = false) :
    Moves core s (raiseMember core level i ps st s)
      ∧ ∃ a ∈ ((raiseMember core level i ps st s).core core).inflight, a.id = i.id ∧ a.partials = ps ∧ a.level = level + 1
        ∧ (a.final = true ↔ ((matDesc i.desc).ksIdx = 0 ∧ (matDesc i.desc).ksN + 1 ≤ 2 ^ (level + 1))) := by
  have hmoves := updInst_moves core i.id (fun j => j.raised ps st level) s
  have hmem : i.raised ps st level ∈ ((setCore core ((s.core core).updInst i.id fun j => j.raised ps st level) s).core core).inflight := by
    rw [setCore_core_same]
    exact mem_updInst (f := fun j => j.raised ps st level) hi rfl
  unfold raiseMember
  dsimp only
  generalize setCore core ((s.core core).updInst i.id fun j => j.raised ps st level) s = u at hmoves hmem ⊢
  by_cases hroot : (matDesc i.desc).ksIdx = 0 ∧ (matDesc i.desc).ksN + 1 ≤ 2 ^ (level + 1)
  · rw [if_pos (by simpa using hroot)]
    obtain ⟨hput, hdone, _⟩ := putMatrix_moves core i (matDesc i.desc) (writePartials (matDesc i.desc) ps) u
    obtain ⟨l, hl⟩ := hdone _ hmem rfl
    exact ⟨hmoves.trans hput, _, hl, rfl, rfl, rfl, ⟨fun _ => hroot, fun _ => rfl⟩⟩
  · rw [if_neg (by simpa using hroot)]
    refine ⟨hmoves, _, hmem, rfl, rfl, rfl, ⟨fun h => ?_, fun h => absurd h hroot⟩⟩
    exact absurd (hfinal.symm.trans h) (by decide)

section
variable {core level : Nat} {i : Inflight} {s : State} (hi : (s.core core).splitOp = some i) (hlevel : i.level = level)
  (hlower : (matDesc i.desc).ksIdx % 2 ^ (level + 1) = 0)
include hi hlevel hlower

/-- A member without a partner goes up with what it holds. -/
theorem combineState_alone (h : (matDesc i.desc).ksN + 1 ≤ (matDesc i.desc).ksIdx + 2 ^ level) :
    combineState core level s = raiseMember core level i i.partials NStatus.zero s := by
  unfold combineState
  simp only [hi]
  rw [if_neg (by simp [hlevel, hlower]), if_pos h]
  rfl

/-- A member takes its partner's sums. -/
theorem combineState_pair {j : Inflight} (h : (matDesc i.desc).ksIdx + 2 ^ level < (matDesc i.desc).ksN + 1)
    (hj : (s.core ((matDesc i.desc).ksBase + (matDesc i.desc).ksIdx + 2 ^ level)).splitOp = some j)
    (hbase : (matDesc j.desc).ksBase = (matDesc i.desc).ksBase)
    (hidx : (matDesc j.desc).ksIdx = (matDesc i.desc).ksIdx + 2 ^ level) (htag : (matDesc j.desc).opTag = (matDesc i.desc).opTag)
    (hjl : j.level = level) :
    combineState core level s = raiseMember core level i (treeCombine i.partials j.partials).1
      (j.status.or (treeCombine i.partials j.partials).2)
      (passedOn ((matDesc i.desc).ksBase + (matDesc i.desc).ksIdx + 2 ^ level) j.id s) := by
  unfold combineState
  simp only [hi]
  rw [if_neg (by simp [hlevel, hlower]), if_neg (by omega)]
  simp only [hj]
  rw [if_pos (by simp [hbase, hidx, htag, hjl])]
  rfl

end

/-- A member whose sums have been passed on is over. -/
theorem passedOn_ends {core : Nat} {j : Inflight} (s : State) (hj : j ∈ (s.core core).inflight) :
    (∀ n, n ≠ core → (passedOn core j.id s).core n = s.core n) ∧ passedOn core j.id s = { s with cores := (passedOn core j.id s).cores }
      ∧ ({ j with final := true, partials := [] } : Inflight) ∈ ((passedOn core j.id s).core core).inflight := by
  refine ⟨fun n hn => setCore_core_other hn _ s, rfl, ?_⟩
  rw [show (passedOn core j.id s).core core = _ from setCore_core_same ..]
  exact mem_updInst (f := fun i => { i with final := true, partials := [] }) hj rfl

/-- Settles O42: the lower member holds the sums of both, the upper one is over; a member alone goes up as it is. -/
theorem splitKCombines : Obligations.SplitKCombines := by
  intro core level i s hi d pc hlevel hlower
  obtain ⟨hmem, hfinal⟩ := splitOp_spec hi
  refine ⟨fun j hne hlt hj hbase hidx htag hjl => ?_, fun halone => ?_⟩
  · have hstate := combineState_pair hi hlevel hlower hlt hj hbase hidx htag hjl
    obtain ⟨hothers, hrest, hover⟩ := passedOn_ends s (splitOp_spec hj).1
    change combineState core level s = raiseMember core level i _ _ (passedOn pc j.id s) at hstate
    change _ ∈ ((passedOn pc j.id s).core pc).inflight at hover
    change ∀ n, n ≠ pc → (passedOn pc j.id s).core n = s.core n at hothers
    change passedOn pc j.id s = { s with cores := (passedOn pc j.id s).cores } at hrest
    generalize passedOn pc j.id s = u at hstate hothers hrest hover
    obtain ⟨hmoves, a, ha, hid, hps, hal, hroot⟩ := raiseMember_raises level (treeCombine i.partials j.partials).1
      (j.status.or (treeCombine i.partials j.partials).2) (s := u) (by rw [hothers core hne]; exact hmem) hfinal
    refine ⟨_, a, { j with final := true, partials := [] }, congrArg Host.Outcome.next hstate, ha, hid, hps, hal, hroot, ?_, rfl,
      rfl, rfl, fun n h1 h2 => ?_, ?_⟩
    · rw [hmoves.others pc (Ne.symm hne)]; exact hover
    · exact (hmoves.others n h1).trans (hothers n h2)
    · have h := hmoves.rest
      generalize raiseMember core level i _ _ u = t at h
      rw [h, hrest]
  · have hstate := combineState_alone hi hlevel hlower halone
    obtain ⟨hmoves, a, ha, hid, hps, hal, hroot⟩ := raiseMember_raises level i.partials NStatus.zero hmem hfinal
    refine ⟨_, a, congrArg Host.Outcome.next hstate, ha, hid, hps, hal, hroot.trans ⟨fun h => h.1, fun h => ⟨h, ?_⟩⟩,
      hmoves.others, hmoves.rest⟩
    have hpow : 2 ^ (level + 1) = 2 * 2 ^ level := Nat.pow_succ' ..
    change d.ksN + 1 ≤ 2 ^ (level + 1)
    have h0 : d.ksIdx = 0 := h
    omega

end Sys2Proof.Machine
end
section
/-! Tiles that an instruction takes, and the operations that run on them (R69, R77, R115, R121, R135, R147, R151, R152). -/

namespace Sys2Proof.Machine

/-! ## Taking tiles -/

/-- A core's reads go on: of the core its streams and its credit, of the others the credit of those that deliver to it. -/
structure Takes (core : Nat) (s t : State) : Prop where
  others : ∀ n, n ≠ core → t.core n = { s.core n with credit := (t.core n).credit }
  only : FabricOnly { s with cores := t.cores } t
  own : t.core core = { s.core core with
    ctx := (t.core core).ctx, credit := (t.core core).credit, granted := (t.core core).granted }
  streams : ∀ k x, s.streamAt core k = some x → ∃ y, t.streamAt core k = some y

theorem FabricOnly.beyondCores {s t u : State} (h : FabricOnly { s with cores := t.cores } t)
    (k : FabricOnly { t with cores := u.cores } u) : FabricOnly { s with cores := u.cores } u := by
  obtain ⟨ht, hc⟩ := h
  obtain ⟨ku, kc⟩ := k
  refine ⟨?_, fun j hj => (kc j hj).trans (hc j hj)⟩
  rw [ku, ht]

theorem Takes.refl (core : Nat) (s : State) : Takes core s s := ⟨fun _ _ => rfl, FabricOnly.refl s, rfl, fun _ x hx => ⟨x, hx⟩⟩

theorem Takes.trans {core : Nat} {s t u : State} (h : Takes core s t) (k : Takes core t u) : Takes core s u := by
  refine ⟨fun n hn => ?_, h.only.beyondCores k.only, ?_, fun c x hx => ?_⟩
  · rw [k.others n hn, h.others n hn]
  · rw [k.own, h.own]
  · obtain ⟨y, hy⟩ := h.streams c x hx
    exact k.streams c y hy

theorem Takes.fold {α : Type} {core : Nat} {f : State → α → State} (hf : ∀ s x, Takes core s (f s x)) (l : List α)
    (s : State) : Takes core s (l.foldl f s) := by
  induction l generalizing s with
  | nil => exact Takes.refl core s
  | cons x l ih => exact (hf s x).trans (ih _)

theorem setCore_takes {core : Nat} {c : CoreSt} {s : State}
    (own : c = { s.core core with ctx := c.ctx, credit := c.credit, granted := c.granted })
    (streams : ∀ k x, s.streamAt core k = some x → ∃ y, klook c.ctx k = some y) : Takes core s (setCore core c s) := by
  refine ⟨fun n hn => ?_, FabricOnly.refl _, ?_, fun k x hx => ?_⟩
  · rw [setCore_core_other hn]
  · rw [setCore_core_same]; exact own
  · rw [setCore_streamAt]; exact streams k x hx

/-- A partner's credit, on this die. -/
theorem setCredit_takes (core n : Nat) (l : List (Nat × Nat)) (s : State) :
    Takes core s (setCore n { s.core n with credit := l } s) := by
  by_cases h : n = core
  · subst h
    exact setCore_takes rfl fun k x hx => ⟨x, hx⟩
  · refine ⟨fun m hm => ?_, FabricOnly.refl _, ?_, fun k x hx => ⟨x, ?_⟩⟩
    · rw [setCore_core]
      split
      · next e => rw [e]
      · rfl
    · rw [setCore_core_other (Ne.symm h)]
    · rw [State.streamAt, setCore_core_other (Ne.symm h)]; exact hx

theorem FabricOnly.cores {s t : State} (h : FabricOnly s t) : t.cores = s.cores := by rw [h.1]

theorem FabricOnly.takes {core : Nat} {s t : State} (h : FabricOnly s t) : Takes core s t := by
  have hcore (n : Nat) : t.core n = s.core n := by rw [State.core, h.cores]; rfl
  refine ⟨fun n _ => by rw [hcore n], ?_, by rw [hcore core], fun k x hx => ⟨x, ?_⟩⟩
  · rw [show ({ s with cores := t.cores } : State) = s by rw [h.cores]]
    exact h
  · rw [State.streamAt, hcore core]; exact hx

theorem reportCredit_takes (core ctx : Nat) (d : StreamDesc) (n : Nat) (s : State) : Takes core s (reportCredit core ctx d n s) := by
  unfold reportCredit
  split
  · exact Takes.refl core s
  · split
    · exact setCredit_takes core d.peerCore _ s
    · dsimp only
      have hset : Takes core s (setCore core { s.core core with
          granted := tset (s.core core).granted ctx (tget 0 (s.core core).granted ctx + n) } s) :=
        setCore_takes rfl fun k x hx => ⟨x, hx⟩
      exact hset.trans (sends_injectPacket _ _).only.takes

theorem takeTo_takes (core : Nat) (s : State) (x : Nat × Stream × Nat) : Takes core s (takeTo core s x) := by
  obtain ⟨k, y, t⟩ := x
  have hset : Takes core s (setCore core { s.core core with ctx := tset (s.core core).ctx k { y with taken := t } } s) := by
    refine setCore_takes rfl fun j x hx => ?_
    dsimp only
    rw [klook_tset]
    split
    · exact ⟨_, rfl⟩
    · exact ⟨x, hx⟩
  unfold takeTo
  dsimp only
  split
  · exact hset.trans (reportCredit_takes ..)
  · exact hset

/-- A read from main memory or the tile store reports to no partner. -/
theorem takeTo_coreOnly (core : Nat) (s : State) {x : Nat × Stream × Nat} (h : (streamDesc x.2.1.desc).memKind ≠ 2) :
    CoreOnly core s (takeTo core s x) := by
  obtain ⟨k, y, t⟩ := x
  unfold takeTo
  dsimp only
  rw [if_neg h]
  exact setCore_coreOnly ..

theorem takes_coreOnly_fold {core : Nat} (g : Nat × Stream → Nat × Stream × Nat) (hg : ∀ x, (g x).2.1 = x.2)
    {l : List (Nat × Stream)} (h : ∀ x ∈ l, (streamDesc x.2.desc).memKind ≠ 2) (s : State) :
    CoreOnly core s (l.foldl (fun s x => takeTo core s (g x)) s) := by
  induction l generalizing s with
  | nil => exact CoreOnly.refl core s
  | cons x l ih =>
    refine (takeTo_coreOnly core s ?_).trans (ih (fun y hy => h y (List.mem_cons_of_mem _ hy)) _)
    rw [hg]
    exact h x List.mem_cons_self

/-- While data are missing a unit takes what stands in its rings, and executes nothing. -/
theorem takeSome_takes (core : Nat) (u : CUnit) (s : State) : Takes core s (takeSome core u s) := by
  unfold takeSome
  split
  · exact Takes.refl core s
  · exact Takes.fold (fun s x => takeTo_takes core s _) _ s

theorem Takes.keeps {core : Nat} {s t : State} (h : Takes core s t) : (t.core core).inflight = (s.core core).inflight
    ∧ (t.core core).tile = (s.core core).tile ∧ (t.core core).sideMem = (s.core core).sideMem
    ∧ (t.core core).pc = (s.core core).pc ∧ t.mm = s.mm := by
  have hmm : t.mm = s.mm := by rw [h.only.1]
  rw [h.own]
  exact ⟨rfl, rfl, rfl, rfl, hmm⟩

/-! ## Execution -/

/-- An instruction runs: its core takes its tiles, and its streams and instructions move. -/
structure Runs (core id : Nat) (s t : State) : Prop where
  tiles : TakesTiles core id s t
  pc : (t.core core).pc = (s.core core).pc
  streams : ∀ k x, s.streamAt core k = some x → ∃ y, t.streamAt core k = some y

theorem Moves.coreOnly {core : Nat} {s t : State} (h : Moves core s t) : CoreOnly core s t := by
  refine ⟨h.others, ?_⟩
  rw [h.rest]

theorem Takes.tiles {core id : Nat} {s t : State} (h : Takes core s t)
    (hplain : (∀ x ∈ (s.core core).readsOf id, (streamDesc x.2.desc).memKind ≠ 2) → CoreOnly core s t) :
    Runs core id s t := ⟨⟨h.others, h.only, hplain⟩, h.keeps.2.2.2.1, h.streams⟩

/-- What a core does of its own after taking its tiles. -/
theorem Runs.own {core id : Nat} {s t u : State} (h : Runs core id s t) (hothers : ∀ n, n ≠ core → u.core n = t.core n)
    (hrest : u = { t with cores := u.cores }) (hpc : (u.core core).pc = (t.core core).pc)
    (hstreams : ∀ k x, t.streamAt core k = some x → ∃ y, u.streamAt core k = some y) : Runs core id s u := by
  obtain ⟨⟨h1, h2, h3⟩, h4, h5⟩ := h
  have honly : FabricOnly { t with cores := u.cores } u := by rw [hrest]; exact FabricOnly.refl _
  have hcore : CoreOnly core t u := ⟨hothers, by rw [hrest]⟩
  refine ⟨⟨fun n hn => ?_, h2.beyondCores honly, fun hx => (h3 hx).trans hcore⟩, hpc.trans h4, fun k x hx => ?_⟩
  · rw [hothers n hn]; exact h1 n hn
  · obtain ⟨y, hy⟩ := h5 k x hx
    exact hstreams k y hy

theorem Runs.moves {core id : Nat} {s t u : State} (h : Runs core id s t) (k : Moves core t u) : Runs core id s u := by
  refine h.own k.others k.rest (by rw [k.own]) fun c x hx => ?_
  obtain ⟨y, hy, _⟩ := k.streams c x hx
  exact ⟨y, hy⟩

/-- Every tile of an instruction's reads is taken, and it is executed. -/
theorem takeAll_runs (core id : Nat) (s : State) : Runs core id s (takeAll core id s)
    ∧ ((takeAll core id s).core core).inflight
      = (s.core core).inflight.map (fun i => if i.id = id then { i with executed := true } else i)
    ∧ ((takeAll core id s).core core).tile = (s.core core).tile
    ∧ ((takeAll core id s).core core).sideMem = (s.core core).sideMem := by
  have htakes := Takes.fold (core := core) (f := fun s (x : Nat × Stream) => takeTo core s (x.1, x.2, x.2.tiles))
    (fun s x => takeTo_takes core s _) ((s.core core).readsOf id) s
  have hplain := fun h => takes_coreOnly_fold (core := core) (fun x => (x.1, x.2, x.2.tiles)) (fun _ => rfl)
    (l := (s.core core).readsOf id) h s
  have hall : takeAll core id s = (let u := ((s.core core).readsOf id).foldl (fun s x => takeTo core s (x.1, x.2, x.2.tiles)) s
      setCore core ((u.core core).updInst id fun i => { i with executed := true }) u) := rfl
  rw [hall]
  generalize List.foldl (fun s (x : Nat × Stream) => takeTo core s (x.1, x.2, x.2.tiles)) s ((s.core core).readsOf id) = u
    at htakes hplain ⊢
  have hmoves := updInst_moves core id (fun i => { i with executed := true }) u
  obtain ⟨h1, h2, h3, -, -⟩ := htakes.keeps
  dsimp only
  refine ⟨(htakes.tiles hplain).moves hmoves, ?_⟩
  rw [setCore_core_same]
  refine ⟨?_, h2, h3⟩
  change (u.core core).inflight.map _ = _
  rw [h1]

theorem ready_mem {s : State} {core : Nat} {u : CUnit} {i : Inflight} (h : s.ready core u = some i) :
    i ∈ (s.core core).inflight := by
  unfold State.ready at h
  split at h
  · next j hj =>
    split at h
    · injection h with h
      subst h
      unfold State.next at hj
      dsimp only at hj
      split at hj
      · exact absurd hj (by simp)
      · split at hj
        · exact absurd hj (by simp)
        · next k hk =>
          split at hj
          · exact absurd hj (by simp)
          · injection hj with hj
            subst hj
            exact List.mem_of_find?_eq_some hk
    · exact absurd h (by simp)
  · exact absurd h (by simp)

/-- The instruction stands executed once its tiles are taken. -/
theorem executed_mem {s : State} {core : Nat} {i : Inflight} (h : i ∈ (s.core core).inflight) :
    ({ i with executed := true } : Inflight) ∈ ((takeAll core i.id s).core core).inflight := by
  rw [(takeAll_runs core i.id s).2.1]
  exact List.mem_map.mpr ⟨i, h, if_pos rfl⟩

/-- The output of a matrix operation: of the product, or of the operand that passes. -/
def State.matrixOut (s : State) (core : Nat) (i : Inflight) : MatOut :=
  match s.passThrough core (matDesc i.desc) with
  | some left => s.passOut core (matDesc i.desc) left
  | none => s.runMatrixOp core i (matDesc i.desc)

section
variable {core : Nat} {i : Inflight} {s : State} (hready : s.ready core .matrix = some i)
include hready

theorem matrixState_whole (h : (matDesc i.desc).ksN = 0) :
    matrixState core s = putMatrix core i (matDesc i.desc) (s.matrixOut core i) (takeAll core i.id s) := by
  unfold matrixState
  simp only [hready]
  rw [if_neg (by simp [h])]
  rfl

theorem matrixState_member (h : (matDesc i.desc).ksN ≠ 0) :
    matrixState core s = setCore core (((takeAll core i.id s).core core).updInst i.id fun j =>
      { j with partials := (s.runMember core i (matDesc i.desc)).1, status := (s.runMember core i (matDesc i.desc)).2 })
      (takeAll core i.id s) := by
  unfold matrixState
  simp only [hready]
  rw [if_pos (by simp [h])]

end

/-- A member of a split-K group that has run. -/
def Inflight.member (i : Inflight) (r : List W32 × NStatus) : Inflight := { i with executed := true, partials := r.1, status := r.2 }

theorem matrixOperationRuns : Claims.MatrixOperationRuns := by
  refine ⟨fun core i s hready => ⟨fun hks => ?_, fun hks => ?_⟩, fun core s hready => ?_⟩
  · have hstate := matrixState_whole hready hks
    obtain ⟨hruns, -, -, hside⟩ := takeAll_runs core i.id s
    have hmem := executed_mem (ready_mem hready)
    change ∃ (t : State) (j : Inflight), _ ∧ _ ∧ _ ∧ _ ∧ _ ∧ _ ∧ j.status = i.status.or (s.matrixOut core i).status ∧ j.flush = (s.matrixOut core i).flush
      ∧ j.sat = (s.matrixOut core i).sat ∧ j.replays = (s.matrixOut core i).replays ∧ _ ∧ _ ∧ _
    generalize s.matrixOut core i = o at hstate ⊢
    generalize takeAll core i.id s = u at hstate hruns hside hmem
    obtain ⟨hmoves, hdone, hprod⟩ := putMatrix_moves core i (matDesc i.desc) o u
    obtain ⟨l, hl⟩ := hdone _ hmem rfl
    have hall := hruns.moves hmoves
    refine ⟨_, _, congrArg Host.Outcome.next hstate, hall.tiles, hl, rfl, rfl, rfl, rfl, rfl, rfl, rfl, fun x hx => ?_, ?_, hall.pc⟩
    · obtain ⟨y, hy⟩ := hruns.streams _ x hx
      exact hprod y hy
    · rw [hmoves.own]; exact hside
  · have hstate := matrixState_member hready hks
    obtain ⟨hruns, -, htile, hside⟩ := takeAll_runs core i.id s
    have hmem := executed_mem (ready_mem hready)
    generalize takeAll core i.id s = u at hstate hruns htile hside hmem
    have hmoves := updInst_moves core i.id (fun j => { j with
      partials := (s.runMember core i (matDesc i.desc)).1, status := (s.runMember core i (matDesc i.desc)).2 }) u
    refine ⟨_, i.member (s.runMember core i (matDesc i.desc)), congrArg Host.Outcome.next hstate, (hruns.moves hmoves).tiles, ?_,
      rfl, rfl, rfl, rfl, rfl, ?_, ?_⟩
    · rw [setCore_core_same]
      exact List.mem_map.mpr ⟨_, hmem, if_pos rfl⟩
    · rw [hmoves.own]; exact (congrArg CoreSt.tile (setCore_core_same ..)).trans htile
    · rw [hmoves.own]; exact hside
  · have hstate : matrixState core s = takeSome core .matrix s := by
      unfold matrixState
      simp only [hready]
    obtain ⟨h1, h2, h3, -, h5⟩ := (takeSome_takes core .matrix s).keeps
    exact ⟨_, congrArg Host.Outcome.next hstate, h1, h2, h3, h5⟩

end Sys2Proof.Machine
end
section
/-! Vector instructions and row operations (R135, R141, R142, R147, R151, R152). -/

namespace Sys2Proof.Machine

/-- The scales of a converted output on their path. -/
theorem putConv_moves (core : Nat) (i : Inflight) (ctx path role : Nat) (o : ConvOut) (s : State) :
    Moves core s (putConv core i ctx path role o s)
      ∧ ∀ x, s.streamAt core ctx = some x → ∃ y, (putConv core i ctx path role o s).streamAt core ctx = some y ∧ y.produced = true := by
  obtain ⟨h1, -⟩ := produce_moves core ctx o.elems s
  have hprod := fun x hx => produce_produced (s := s) (core := core) (ctx := ctx) (x := x) hx o.elems
  have key {t : State} (h : Moves core (produce core ctx o.elems s) t) : Moves core s t
      ∧ ∀ x, s.streamAt core ctx = some x → ∃ y, t.streamAt core ctx = some y ∧ y.produced = true := by
    refine ⟨h1.trans h, fun x hx => ?_⟩
    obtain ⟨y, hy, hyp⟩ := hprod x hx
    obtain ⟨z, hz, hyz⟩ := h.streams ctx y hy
    exact ⟨z, hz, hyz hyp⟩
  unfold putConv
  dsimp only
  split
  · exact key (Moves.refl core _)
  · split
    · exact key (updInst_moves ..)
    · exact key (produce_moves ..).1

/-- The end of an instruction that has run: its statistics word is held, and what is complete leaves. -/
def engineEnd (core id : Nat) (f : Inflight → Inflight) (s : State) : State := setCore core ((s.core core).updInst id f).tidy s

theorem engineEnd_moves (core id : Nat) (f : Inflight → Inflight) (s : State) : Moves core s (engineEnd core id f s) :=
  setCore_inflight_moves core _ s

section
variable {core : Nat} {i : Inflight} {s : State}

theorem vectorState_ready (h : s.ready core .vector = some i) : ∃ o f, vectorState core s
    = engineEnd core i.id f (putConv core i (vecDesc i.desc).zCtx (vecDesc i.desc).zsCtx 4 o (takeAll core i.id s)) := by
  unfold vectorState
  simp only [h]
  exact ⟨_, _, rfl⟩

/-- The side memory once the rows of an operation have run. -/
def rowsRun (core : Nat) (i : Inflight) (s : State) : List W32 × Mem :=
  let d := rowDesc i.desc
  let sm := (s.core core).sideMem
  (List.range d.rows).foldl (rowStep s core i d)
    ([], if d.caccEn && d.caccInit then memZero sm (8 * d.caccBase) (8 * d.rowLen) else sm)

/-- The core's side memory replaced. -/
def sideSet (core : Nat) (m : Mem) (s : State) : State := setCore core { s.core core with sideMem := m } s

theorem rowState_ready (h : s.ready core .row = some i) : ∃ o f, rowState core s
    = engineEnd core i.id f (putConv core i (rowDesc i.desc).outCtx (rowDesc i.desc).osCtx 4 o
        (sideSet core (rowsRun core i s).2 (takeAll core i.id s))) := by
  unfold rowState
  simp only [h]
  exact ⟨_, _, rfl⟩

end

/-! ## The side memory -/

/-- A byte of side memory that a row operation does not hold its statistics or column sums in. -/
structure Beside (d : RowDesc) (a : Nat) : Prop where
  stat : ∀ r < d.rows, ¬ (8 * ((d.statBase + r) % 32768) ≤ a ∧ a < 8 * ((d.statBase + r) % 32768) + 8)
  cacc : d.caccEn = true → ¬ (8 * d.caccBase ≤ a ∧ a < 8 * (d.caccBase + d.rowLen))

theorem memRead_zero_out {y a n : Nat} (h : ¬ (a ≤ y ∧ y < a + n)) : ∀ m : Mem, memRead (memZero m a n) y = memRead m y := by
  intro m
  induction m with
  | nil => rfl
  | cons c m ih =>
    obtain ⟨x, v⟩ := c
    change memRead (List.filter _ ((x, v) :: m)) y = memRead ((x, v) :: m) y
    rw [List.filter_cons]
    split
    · simp only [memRead]; split
      · rfl
      · exact ih
    · next hx =>
      have hne : x ≠ y := by
        rintro rfl
        simp at hx
        omega
      simp only [memRead, if_neg hne]
      exact ih

/-- A row's inputs are as long as its row. -/
theorem rowIn_dy_length (s : State) (core : Nat) (i : Inflight) (d : RowDesc) (r : Nat) :
    (s.rowIn core i d r).dy.length ≤ d.rowLen := by
  unfold State.rowIn
  dsimp only
  split
  · simp
  · simp

/-- The statistics of a row in their slot. -/
def statStored (o : Option (W32 × W32)) (slot : Nat) (m : Mem) : Mem :=
  match o with
  | some (a, b) => memStore m slot (leBytes 4 a.toNat ++ leBytes 4 b.toNat)
  | none => m

/-- One column's accumulators. -/
def columnStored (d : RowDesc) (m : Mem) (x : (W32 × W32) × Nat) : Mem :=
  let a := 8 * (d.caccBase + x.2)
  let w (a : Nat) : W32 := BitVec.ofNat 32 (ofLe (memBytes m a 4))
  let n := memStore m a (leBytes 4 (ffma x.1.1 x.1.2 (w a)).toNat)
  if d.rop = 4 then memStore n (a + 4) (leBytes 4 (fadd (w (a + 4)) x.1.1).toNat) else n

theorem rowStep_side (s : State) (core : Nat) (i : Inflight) (d : RowDesc) (acc : List W32 × Mem) (r : Nat) : ∃ o : RowOut,
    (rowStep s core i d acc r).2 = (let m := statStored o.stat (8 * ((d.statBase + r) % 32768)) acc.2
      if d.caccEn then (((s.rowIn core i d r).dy.zip o.hat).zipIdx).foldl (columnStored d) m else m) :=
  ⟨runRow d r (s.rowIn core i d r) (BitVec.ofNat 32 (ofLe (memBytes acc.2 (8 * ((d.statBase + r) % 32768)) 4)),
    BitVec.ofNat 32 (ofLe (memBytes acc.2 (8 * ((d.statBase + r) % 32768) + 4) 4))), rfl⟩

theorem statStored_beside {slot a : Nat} (h : ¬ (slot ≤ a ∧ a < slot + 8)) (o : Option (W32 × W32)) (m : Mem) :
    memRead (statStored o slot m) a = memRead m a := by
  unfold statStored
  split
  · refine memRead_store_other _ _ _ ?_
    simp only [List.length_append, length_leBytes]
    omega
  · rfl

theorem columnStored_beside {d : RowDesc} {a : Nat} {x : (W32 × W32) × Nat}
    (h : ¬ (8 * (d.caccBase + x.2) ≤ a ∧ a < 8 * (d.caccBase + x.2) + 8)) (m : Mem) :
    memRead (columnStored d m x) a = memRead m a := by
  have hfirst (b : W32) : memRead (memStore m (8 * (d.caccBase + x.2)) (leBytes 4 b.toNat)) a = memRead m a :=
    memRead_store_other _ _ _ (by rw [length_leBytes]; omega)
  unfold columnStored
  dsimp only
  split
  · rw [memRead_store_other _ _ _ (by rw [length_leBytes]; omega)]
    exact hfirst _
  · exact hfirst _

theorem rowStep_beside {core : Nat} {i : Inflight} {d : RowDesc} {s : State} {a : Nat} (h : Beside d a) {r : Nat}
    (hr : r < d.rows) (acc : List W32 × Mem) : memRead (rowStep s core i d acc r).2 a = memRead acc.2 a := by
  obtain ⟨hstat, hcacc⟩ := h
  have hlen := rowIn_dy_length s core i d r
  obtain ⟨o, hstep⟩ := rowStep_side s core i d acc r
  have hstored := statStored_beside (hstat r hr) o.stat acc.2
  rw [hstep]
  dsimp only
  generalize statStored o.stat (8 * ((d.statBase + r) % 32768)) acc.2 = m at hstored ⊢
  split
  · next hen =>
    have hout := hcacc hen
    refine List.foldlRecOn (motive := fun m => memRead m a = memRead acc.2 a) _ _ hstored fun n hn x hx => ?_
    have hc : x.2 < d.rowLen := by
      have h1 := (List.mem_zipIdx hx).2.1
      rw [List.length_zip] at h1
      omega
    exact (columnStored_beside (by omega) n).trans hn
  · exact hstored

theorem rowsRun_beside {core : Nat} {i : Inflight} {s : State} {a : Nat} (h : Beside (rowDesc i.desc) a) :
    memRead (rowsRun core i s).2 a = memRead (s.core core).sideMem a := by
  unfold rowsRun
  dsimp only
  refine List.foldlRecOn (motive := fun acc : List W32 × Mem => memRead acc.2 a = memRead (s.core core).sideMem a) _ _ ?_
    fun acc hacc r hr => (rowStep_beside h (List.mem_range.mp hr) acc).trans hacc
  dsimp only
  split
  · next hen =>
    rw [Bool.and_eq_true] at hen
    have hout := h.cacc hen.1
    exact memRead_zero_out (by rw [Nat.mul_add] at hout; exact hout) _
  · rfl

/-! ## The engines -/

theorem vector_runs {core : Nat} {i : Inflight} {s : State} (hready : s.ready core .vector = some i) :
    ∃ t, exec (.vectorInstruction core) s = .next t ∧ TakesTiles core i.id s t
      ∧ (∀ x, s.streamAt core (vecDesc i.desc).zCtx = some x →
          ∃ y, t.streamAt core (vecDesc i.desc).zCtx = some y ∧ y.produced = true)
      ∧ (t.core core).sideMem = (s.core core).sideMem ∧ (t.core core).pc = (s.core core).pc := by
  obtain ⟨o, f, hstate⟩ := vectorState_ready hready
  obtain ⟨hruns, -, -, hside⟩ := takeAll_runs core i.id s
  generalize takeAll core i.id s = u at hstate hruns hside
  obtain ⟨hput, hprod⟩ := putConv_moves core i (vecDesc i.desc).zCtx (vecDesc i.desc).zsCtx 4 o u
  generalize putConv core i (vecDesc i.desc).zCtx (vecDesc i.desc).zsCtx 4 o u = v at hstate hput hprod
  have hend := engineEnd_moves core i.id f v
  have hall := hruns.moves (hput.trans hend)
  refine ⟨_, congrArg Host.Outcome.next hstate, hall.tiles, fun x hx => ?_, ?_, hall.pc⟩
  · obtain ⟨y, hy⟩ := hruns.streams _ x hx
    obtain ⟨z, hz, hzp⟩ := hprod y hy
    obtain ⟨w, hw, hzw⟩ := hend.streams _ z hz
    exact ⟨w, hw, hzw hzp⟩
  · rw [(hput.trans hend).own]
    exact hside

theorem row_runs {core : Nat} {i : Inflight} {s : State} (hready : s.ready core .row = some i) :
    ∃ t, exec (.rowOperation core) s = .next t ∧ TakesTiles core i.id s t
      ∧ (∀ x, s.streamAt core (rowDesc i.desc).outCtx = some x →
          ∃ y, t.streamAt core (rowDesc i.desc).outCtx = some y ∧ y.produced = true)
      ∧ (t.core core).pc = (s.core core).pc
      ∧ ∀ a, Beside (rowDesc i.desc) a → memRead (t.core core).sideMem a = memRead (s.core core).sideMem a := by
  obtain ⟨o, f, hstate⟩ := rowState_ready hready
  obtain ⟨hruns, -, -, -⟩ := takeAll_runs core i.id s
  have hbeside := fun a (ha : Beside (rowDesc i.desc) a) => rowsRun_beside (core := core) (s := s) ha
  generalize (rowsRun core i s).2 = m at hstate hbeside
  generalize takeAll core i.id s = u at hstate hruns
  have hset : Runs core i.id s (sideSet core m u) := hruns.own (fun n hn => setCore_core_other hn _ u) rfl
    (by rw [sideSet, setCore_core_same]) fun k x hx => ⟨x, (setCore_streamAt ..).trans hx⟩
  have hmem : ((sideSet core m u).core core).sideMem = m := congrArg CoreSt.sideMem (setCore_core_same ..)
  generalize sideSet core m u = w at hstate hset hmem
  obtain ⟨hput, hprod⟩ := putConv_moves core i (rowDesc i.desc).outCtx (rowDesc i.desc).osCtx 4 o w
  generalize putConv core i (rowDesc i.desc).outCtx (rowDesc i.desc).osCtx 4 o w = v at hstate hput hprod
  have hend := engineEnd_moves core i.id f v
  have hall := hset.moves (hput.trans hend)
  refine ⟨_, congrArg Host.Outcome.next hstate, hall.tiles, fun x hx => ?_, hall.pc, fun a ha => ?_⟩
  · obtain ⟨y, hy⟩ := hset.streams _ x hx
    obtain ⟨z, hz, hzp⟩ := hprod y hy
    obtain ⟨w, hw, hzw⟩ := hend.streams _ z hz
    exact ⟨w, hw, hzw hzp⟩
  · rw [(hput.trans hend).own]
    exact (congrArg (memRead · a) hmem).trans (hbeside a ha)

/-- Settles O43: an engine whose data are there produces its output, and changes no other byte of its side memory. -/
theorem vectorAndRowRun : Obligations.VectorAndRowRun := by
  refine ⟨fun core i s => ⟨vector_runs, fun hready => ?_⟩, fun core s => ⟨fun hready => ?_, fun hready => ?_⟩⟩
  · obtain ⟨t, h1, h2, h3, h4, h5⟩ := row_runs hready
    exact ⟨t, h1, h2, h3, h4, fun a hs hc => h5 a ⟨hs, hc⟩⟩
  · have hstate : vectorState core s = takeSome core .vector s := by
      unfold vectorState
      simp only [hready]
    obtain ⟨h1, h2, h3, -, h5⟩ := (takeSome_takes core .vector s).keeps
    exact ⟨_, congrArg Host.Outcome.next hstate, h1, h2, h3, h5⟩
  · have hstate : rowState core s = takeSome core .row s := by
      unfold rowState
      simp only [hready]
    obtain ⟨h1, h2, h3, -, h5⟩ := (takeSome_takes core .row s).keeps
    exact ⟨_, congrArg Host.Outcome.next hstate, h1, h2, h3, h5⟩

end Sys2Proof.Machine
end
section
/-! Completion of a matrix operation and its record (R82, R86 to R88, R177, R178). -/

namespace Sys2Proof.Machine

/-! ## Pages and blocks -/

/-- The physical page behind a device-virtual one. -/
def State.frame (s : State) (vpn : Nat) : Option Nat :=
  match klook s.mm.pages vpn with
  | some p => some p.ppn
  | none => klook s.mm.lost vpn

theorem phys_eq (s : State) (va : Nat) : s.phys va = (s.frame (va / pageSize)).map fun p => p * pageSize + va % pageSize := by
  unfold State.phys State.frame
  cases klook s.mm.pages (va / pageSize) <;> rfl

/-- Where a block of 128 bytes is placed does not depend on the byte of the block. -/
theorem place_of_block {p q mode : Nat} (h : p / 128 = q / 128) :
    (place p mode).1 = (place q mode).1 ∧ (place p mode).2.2 = (place q mode).2.2 := by
  have h1 : p / 4096 = q / 4096 := by omega
  have h2 : p % 4096 / 128 = q % 4096 / 128 := by omega
  have h3 : p / (45 * 2 ^ 30) = q / (45 * 2 ^ 30) := by omega
  have h4 : p % (45 * 2 ^ 30) / 4096 = q % (45 * 2 ^ 30) / 4096 := by omega
  have h5 : p % (45 * 2 ^ 30) % 4096 / 128 = q % (45 * 2 ^ 30) % 4096 / 128 := by omega
  have hdiv (u x : Nat) : (u * 4096 + x % 4096) / 4096 = u := by omega
  have hmod (u x : Nat) : (u * 4096 + x % 4096) % 4096 = x % 4096 := by omega
  unfold place
  dsimp only
  split
  · rw [hdiv, hdiv, hmod, hmod, h1, h2]
    exact ⟨rfl, rfl⟩
  · rw [hdiv, hdiv, hmod, hmod, h3, h4, h5]
    exact ⟨rfl, rfl⟩

theorem bad_of_block {s : State} {p q : Nat} (h : p / 128 = q / 128) : s.bad p = s.bad q := by
  obtain ⟨h1, h2⟩ := place_of_block (mode := s.mm.interleave) h
  unfold State.bad MemSt.line? MemSt.home
  dsimp only
  rw [h, h1, h2]

section
variable {s : State} {a i : Nat} (ha : a % 32 = 0) (hi : i < 32)
include ha hi

/-- 32 aligned bytes lie in one block. -/
theorem aligned_block {p : Nat} (hp : s.phys a = some p) : ∃ q, s.phys (a + i) = some q ∧ q / 128 = p / 128 := by
  have hpage : (a + i) / pageSize = a / pageSize := by unfold pageSize; omega
  rw [phys_eq] at hp ⊢
  rw [hpage]
  obtain ⟨f, hf, hfp⟩ := Option.map_eq_some_iff.mp hp
  refine ⟨f * pageSize + (a + i) % pageSize, by rw [hf]; rfl, ?_⟩
  rw [← hfp]
  unfold pageSize
  omega

theorem good_of_vmGood {p : Nat} (hgood : s.vmGood a 32 = true) (hp : s.phys a = some p) :
    ∃ q, s.phys (a + i) = some q ∧ s.bad q = false := by
  obtain ⟨q, hq, hblock⟩ := aligned_block ha hi hp
  refine ⟨q, hq, ?_⟩
  unfold State.vmGood at hgood
  rcases Bool.or_eq_true_iff.mp hgood with hnone | hall
  · rw [Bool.and_eq_true, List.isEmpty_iff, List.isEmpty_iff] at hnone
    unfold State.bad
    rw [hnone.1, hnone.2]
    rfl
  · obtain ⟨r, hr, hrblock⟩ : ∃ r, s.phys (a / 128 * 128) = some r ∧ r / 128 = p / 128 := by
      have hpage : a / 128 * 128 / pageSize = a / pageSize := by unfold pageSize; omega
      rw [phys_eq] at hp ⊢
      rw [hpage]
      obtain ⟨f, hf, hfp⟩ := Option.map_eq_some_iff.mp hp
      refine ⟨f * pageSize + a / 128 * 128 % pageSize, by rw [hf]; rfl, ?_⟩
      rw [← hfp]
      unfold pageSize
      omega
    have hone : (a + 32 - 1) / 128 - a / 128 + 1 = 1 := by omega
    have hline : r ∈ s.linesOf a 32 := by
      unfold State.linesOf
      rw [if_neg (by decide), hone]
      exact List.mem_filterMap.mpr ⟨0, List.mem_singleton_self 0, hr⟩
    have hbad := List.all_eq_true.mp hall r hline
    rw [bad_of_block (hblock.trans hrblock.symm)]
    simpa using hbad

end

/-! ## The record -/

/-- What an instruction that completes leaves behind when a first status of the step is logged. -/
structure Notes (s t : State) : Prop where
  mm : t.mm = s.mm
  cores : t.cores = s.cores
  groups : t.groups = s.groups
  lstat : t.lstat = s.lstat
  regs : t.regs = s.regs
  results : t.results = s.results
  recipe : t.recipe = s.recipe
  attempt : t.job.attempt = s.job.attempt

theorem logOnce_notes (code core : Nat) (d : MatDesc) (on : Bool) (s : State) : Notes s (logOnce code core d on s) := by
  unfold logOnce
  split
  · generalize hv : ({ s with job := { s.job with loggedOnce := code :: s.job.loggedOnce } } : State) = v
    have hstands := logAdd_stands code 1 (core / 96) core d.layerId [d.opTag, d.descId] v
    have hattempt : v.job.attempt = s.job.attempt := by rw [← hv]
    refine ⟨(logAdd_mm ..).trans ?_, (logAdd_cores ..).trans ?_, (logAdd_groups ..).trans ?_, (logAdd_lstat ..).trans ?_,
      (logAdd_regs ..).trans ?_, (logAdd_results ..).trans ?_, (logAdd_recipe ..).trans ?_, hstands.attempt.trans hattempt⟩
    all_goals rw [← hv]
  · exact ⟨rfl, rfl, rfl, rfl, rfl, rfl, rfl, rfl⟩

theorem Notes.trans {s t u : State} (h : Notes s t) (k : Notes t u) : Notes s u :=
  ⟨k.mm.trans h.mm, k.cores.trans h.cores, k.groups.trans h.groups, k.lstat.trans h.lstat, k.regs.trans h.regs,
    k.results.trans h.results, k.recipe.trans h.recipe, k.attempt.trans h.attempt⟩

/-- The state once an operation has left its core. -/
def leftState (core : Nat) (i : Inflight) (s : State) : State :=
  setCore core { s.core core with inflight := (s.core core).inflight.filter fun x => x.id != i.id } s

theorem leftState_recordVa (core : Nat) (i : Inflight) (s : State) : (leftState core i s).recordVa core = s.recordVa core := by
  unfold State.recordVa leftState
  rw [setCore_core_same]
  rfl

/-- The record written, before what is logged. -/
def recordPut (core : Nat) (it : Item) (i : Inflight) (s : State) : State :=
  vmStore (s.recordVa core) (compRecord core (s.itemStep it) (matDesc i.desc) i)
    (setCore core { s.core core with recSlot := ((s.core core).recSlot + 1) % 65536 } s)

theorem putRecord_notes (core : Nat) (it : Item) (i : Inflight) (s : State) :
    Notes (recordPut core it i s) (putRecord core it i s) := by
  have hput : putRecord core it i s = logOnce 0x0103 core (matDesc i.desc) i.status.replayed
    (logOnce 0x0101 core (matDesc i.desc) i.status.longSum (recordPut core it i s)) := rfl
  rw [hput]
  exact (logOnce_notes ..).trans (logOnce_notes ..)

theorem length_compRecord (core step : Nat) (d : MatDesc) (i : Inflight) : (compRecord core step d i).length = 32 := by
  simp [compRecord]

theorem recordVa_aligned (s : State) (core : Nat) : s.recordVa core % 32 = 0 := by
  unfold State.recordVa pageSize
  omega

/-- What stands once the record of an operation is written. -/
structure Recorded (core : Nat) (it : Item) (i : Inflight) (s t : State) : Prop where
  bytes : (s.phys (s.recordVa core)).isSome = true → memWf s.mm.mem = true →
    t.vmRead (s.recordVa core) 32 = compRecord core (s.itemStep it) (matDesc i.desc) i
  outside : MemoryOutside [(s.recordVa core, 32)] s t
  inflight : (t.core core).inflight = (s.core core).inflight.filter (fun x => x.id != i.id)
  recSlot : (t.core core).recSlot = ((s.core core).recSlot + 1) % 65536
  others : ∀ n, n ≠ core → t.core n = s.core n
  groups : t.groups = s.groups
  lstat : t.lstat = s.lstat
  regs : t.regs = s.regs
  results : t.results = s.results
  recipe : t.recipe = s.recipe
  attempt : t.job.attempt = s.job.attempt

theorem setCore_twice (core : Nat) (c d : CoreSt) (s : State) : setCore core d (setCore core c s) = setCore core d s := by
  unfold setCore
  rw [tset_tset_same]

/-- The core with its record slot moved on. -/
def nextSlot (core : Nat) (i : Inflight) (s : State) : State :=
  setCore core { s.core core with
    inflight := (s.core core).inflight.filter fun x => x.id != i.id, recSlot := ((s.core core).recSlot + 1) % 65536 } s

theorem recordPut_left (core : Nat) (it : Item) (i : Inflight) (s : State) : recordPut core it i (leftState core i s)
    = vmStore (s.recordVa core) (compRecord core (s.itemStep it) (matDesc i.desc) i) (nextSlot core i s) := by
  have hslot : setCore core { (leftState core i s).core core with
      recSlot := (((leftState core i s).core core).recSlot + 1) % 65536 } (leftState core i s) = nextSlot core i s := by
    unfold leftState
    rw [setCore_core_same, setCore_twice]
    rfl
  unfold recordPut
  rw [hslot, leftState_recordVa]
  rfl

theorem recordPut_recorded {core : Nat} {it : Item} {i : Inflight} {s : State} (hgood : s.vmGood (s.recordVa core) 32 = true) :
    Recorded core it i s (recordPut core it i (leftState core i s)) := by
  have hlen := length_compRecord core (s.itemStep it) (matDesc i.desc) i
  have hva := recordVa_aligned s core
  rw [recordPut_left]
  generalize hbs : compRecord core (s.itemStep it) (matDesc i.desc) i = bs at hlen ⊢
  generalize hvaeq : s.recordVa core = va at hgood hva ⊢
  have hcore : (nextSlot core i s).core core = _ := setCore_core_same ..
  have hothers (n : Nat) (hn : n ≠ core) : (nextSlot core i s).core n = s.core n := setCore_core_other hn _ s
  have hmm : (nextSlot core i s).mm = s.mm := setCore_mm ..
  have hrest : (nextSlot core i s).groups = s.groups ∧ (nextSlot core i s).lstat = s.lstat ∧ (nextSlot core i s).regs = s.regs
      ∧ (nextSlot core i s).results = s.results ∧ (nextSlot core i s).recipe = s.recipe
      ∧ (nextSlot core i s).job = s.job := ⟨rfl, rfl, rfl, rfl, rfl, rfl⟩
  generalize nextSlot core i s = v at hcore hothers hmm hrest
  obtain ⟨hgroups, hlstat, hregs, hresults, hrecipe, hjob⟩ := hrest
  have hphys (a : Nat) : v.phys a = s.phys a := by unfold State.phys; rw [hmm]
  have hbad (p : Nat) : v.bad p = s.bad p := by unfold State.bad; rw [hmm]
  have hstore := vmStore_reaches va bs v
  refine ⟨fun hsome hwf => ?_, fun p hp => ?_, ?_, ?_, fun n hn => (hstore.core n).trans (hothers n hn),
    hstore.groups.trans hgroups, ?_, hstore.regs.trans hregs, ?_, ?_, ?_⟩
  · obtain ⟨p, hp⟩ := Option.isSome_iff_exists.mp hsome
    rw [hvaeq] at hp ⊢
    rw [hbs, ← hlen]
    refine vmStore_read (by rw [hmm]; exact hwf) (by rw [hlen]; decide) fun k hk => ?_
    obtain ⟨q, hq, hqgood⟩ := good_of_vmGood hva (i := k) (by omega) hgood hp
    exact ⟨q, (hphys _).trans hq, (hbad q).trans hqgood⟩
  · rw [← hmm]
    refine vmStore_outside va bs v p fun r hr k hk => ?_
    rw [hphys]
    rw [hlen, ← hvaeq] at hr
    exact hp r hr k hk
  · rw [hstore.core, hcore]
  · rw [hstore.core, hcore]
  · rw [hstore.rest]; exact hlstat
  · rw [hstore.rest]; exact hresults
  · rw [hstore.rest]; exact hrecipe
  · rw [hstore.job, hjob]

theorem Recorded.notes {core : Nat} {it : Item} {i : Inflight} {s t u : State} (h : Recorded core it i s t) (k : Notes t u) :
    Recorded core it i s u := by
  have hcore (n : Nat) : u.core n = t.core n := by rw [State.core, k.cores]; rfl
  refine ⟨fun hs hw => ?_, fun p hp => ?_, ?_, ?_, fun n hn => (hcore n).trans (h.others n hn), k.groups.trans h.groups,
    k.lstat.trans h.lstat, k.regs.trans h.regs, k.results.trans h.results, k.recipe.trans h.recipe, k.attempt.trans h.attempt⟩
  · rw [← h.bytes hs hw]
    unfold State.vmRead State.phys
    rw [k.mm]
  · rw [k.mm]; exact h.outside p hp
  · rw [hcore]; exact h.inflight
  · rw [hcore]; exact h.recSlot

/-! ## Completion -/

section
variable {core : Nat} {i : Inflight} {s : State} (hi : (s.core core).inflight.find? (fun i => i.unit == .matrix) = some i)
  (hfinal : i.final = true) (hcomplete : (s.core core).complete i = true)
include hi hfinal hcomplete

/-- A member that is not the first leaves without a record. -/
theorem matrixComplete_member (h1 : (matDesc i.desc).ksN ≠ 0) (h2 : (matDesc i.desc).ksIdx ≠ 0) :
    matrixCompleteState core s = leftState core i s := by
  unfold matrixCompleteState
  simp only [hi]
  rw [if_neg (by simp [hfinal, hcomplete]), if_pos (by simp [h1, h2])]
  rfl

theorem matrixComplete_record {it : Item} (h : (matDesc i.desc).ksN = 0 ∨ (matDesc i.desc).ksIdx = 0)
    (hit : s.coreItem core = some it) (hgood : s.vmGood (s.recordVa core) 32 = true) :
    matrixCompleteState core s = (match it.kind with
      | .fwd | .bwd | .win | .upd => foldLstat core i (putRecord core it i (leftState core i s))
      | _ => putRecord core it i (leftState core i s)) := by
  unfold matrixCompleteState
  simp only [hi]
  rw [if_neg (by simp [hfinal, hcomplete]), if_neg (by rcases h with h | h <;> simp [h]), hit]
  dsimp only
  rw [if_neg (by simp [hgood])]
  rfl

end

theorem matrixCompletionLeavesRecord : Claims.MatrixCompletionLeavesRecord := by
  intro core i s hi hfinal hcomplete d a
  refine ⟨fun it g hks hg hit hgood => ?_, fun h1 h2 => ?_⟩
  · have hstate := matrixComplete_record hi hfinal hcomplete hks hit hgood
    have hrec := (recordPut_recorded (it := it) (i := i) hgood).notes (putRecord_notes core it i (leftState core i s))
    generalize putRecord core it i (leftState core i s) = u at hstate hrec
    by_cases hkind : it.kind = .fwd ∨ it.kind = .bwd ∨ it.kind = .win ∨ it.kind = .upd
    · have hfold : matrixCompleteState core s = foldLstat core i u := by
        rw [hstate]
        rcases hkind with h | h | h | h <;> rw [h]
      have hug : u.coreGroup core = some g := by
        unfold State.coreGroup State.groupOf State.groupList State.cont at hg ⊢
        rw [hrec.recipe]
        exact hg
      have hgroup : foldLstat core i u
          = setGroup g { s.group g with got := (s.group g).got.add ⟨i.status, i.flush, i.sat, i.replays, 0⟩ } u := by
        have hat : u.group g = s.group g := by rw [State.group, hrec.groups]; rfl
        unfold foldLstat
        simp only [hug, hat]
      refine ⟨_, congrArg Host.Outcome.next (hfold.trans hgroup), hrec.bytes, hrec.outside, hrec.inflight, hrec.recSlot,
        hrec.others, fun _ => ⟨by rw [setGroup_group_same], fun k hk => ?_⟩, fun ⟨x, y, he⟩ => ?_, hrec.lstat, hrec.regs,
        hrec.results, hrec.attempt⟩
      · rw [setGroup_group_other hk, State.group, hrec.groups]
        rfl
      · rcases hkind with h | h | h | h <;> rw [h] at he <;> exact absurd he (by simp)
    · have hplain : matrixCompleteState core s = u := by
        rw [hstate]
        cases hk : it.kind
        case bubble => rfl
        case eval => rfl
        all_goals exact absurd hk (by simp [hk] at hkind)
      exact ⟨_, congrArg Host.Outcome.next hplain, hrec.bytes, hrec.outside, hrec.inflight, hrec.recSlot, hrec.others,
        fun h => absurd h hkind, fun _ => hrec.groups, hrec.lstat, hrec.regs, hrec.results, hrec.attempt⟩
  · refine ⟨_, congrArg Host.Outcome.next (matrixComplete_member hi hfinal hcomplete h1 h2), ?_, fun n hn => ?_, rfl⟩
    · rw [leftState, setCore_core_same]
    · exact setCore_core_other hn _ s

/-- Settles O41: an operation whose data are there runs, and completes with its record in the core's next slot. -/
theorem matrixOperationsRunAndComplete : Obligations.MatrixOperationsRunAndComplete :=
  ⟨matrixOperationRuns, matrixCompletionLeavesRecord⟩

end Sys2Proof.Machine
end
section
/-! Streams are admitted together (R102, R108, R118, R120, R121, R132). -/

namespace Sys2Proof.Machine

/-! ## Delivered tiles -/

/-- Bytes arrive in one context of a core: its ring and the rest of its streams' core stand otherwise. -/
structure Arrives (core ctx : Nat) (s t : State) : Prop where
  rest : t = { s with cores := t.cores }
  others : ∀ n, n ≠ core → t.core n = s.core n
  own : t.core core = { s.core core with tile := (t.core core).tile, ctx := (t.core core).ctx }
  streams : ∀ k, k ≠ ctx → t.streamAt core k = s.streamAt core k
  stream : ∀ x, s.streamAt core ctx = some x → ∃ y, t.streamAt core ctx = some y ∧ y.inst = x.inst ∧ y.taken = x.taken

theorem Arrives.refl (core ctx : Nat) (s : State) : Arrives core ctx s s :=
  ⟨rfl, fun _ _ => rfl, rfl, fun _ _ => rfl, fun x hx => ⟨x, hx, rfl, rfl⟩⟩

theorem Arrives.trans {core ctx : Nat} {s t u : State} (h : Arrives core ctx s t) (k : Arrives core ctx t u) :
    Arrives core ctx s u := by
  refine ⟨?_, fun n hn => (k.others n hn).trans (h.others n hn), ?_, fun c hc => (k.streams c hc).trans (h.streams c hc),
    fun x hx => ?_⟩
  · rw [k.rest, h.rest]
  · rw [k.own, h.own]
  · obtain ⟨y, hy, h1, h2⟩ := h.stream x hx
    obtain ⟨z, hz, k1, k2⟩ := k.stream y hy
    exact ⟨z, hz, k1.trans h1, k2.trans h2⟩

/-- The stream with bytes of a tile added. -/
def Stream.received (x : Stream) (t off : Nat) (bs : Bytes) : Stream :=
  let y := { x with recv := x.recv ++ [(65536 * t + off, bs)] }
  { y with fetched := y.arrivedTiles }

/-- The core with bytes of a tile in a ring. -/
def ringCore (core ctx t off : Nat) (bs : Bytes) (x : Stream) (s : State) : CoreSt :=
  { s.core core with
    tile := memStore (s.core core).tile ((streamDesc x.desc).slotAddr t + off) bs
    ctx := tset (s.core core).ctx ctx (x.received t off bs) }

theorem ringBytes_eq {core ctx : Nat} {x : Stream} {s : State} (hx : s.streamAt core ctx = some x) (t off : Nat) (bs : Bytes) :
    ringBytes core ctx t off bs s = setCore core (ringCore core ctx t off bs x s) s := by
  unfold ringBytes
  simp only [hx]
  rfl

theorem ringBytes_arrives (core ctx t off : Nat) (bs : Bytes) (s : State) : Arrives core ctx s (ringBytes core ctx t off bs s) := by
  cases hx : s.streamAt core ctx with
  | none =>
    have hs : ringBytes core ctx t off bs s = s := by unfold ringBytes; simp only [hx]
    rw [hs]
    exact Arrives.refl core ctx s
  | some x =>
    rw [ringBytes_eq hx]
    refine ⟨rfl, fun n hn => setCore_core_other hn _ s, ?_, fun k hk => ?_, fun y hy => ?_⟩
    · rw [setCore_core_same]; rfl
    · rw [setCore_streamAt]
      exact klook_tset_other _ (Ne.symm hk) _
    · rw [hx] at hy
      injection hy with hy
      subst hy
      refine ⟨x.received t off bs, ?_, rfl, rfl⟩
      rw [setCore_streamAt]
      exact klook_tset_same _ _ _

theorem deliverTile_arrives (core ctx t off : Nat) (bs : Bytes) (s : State) :
    Arrives core ctx s (deliverTile core ctx t off bs s) := by
  unfold deliverTile
  split
  · exact Arrives.refl core ctx s
  · dsimp only
    split
    · exact Arrives.refl core ctx s
    · exact ringBytes_arrives ..

/-! ## One stream -/

/-- Streams enter a core: its contexts, credit and rings, the credit of those that write to it, prefetcher slots, counters and
the fabric may move; contexts other than those named stand. -/
structure Enters (core : Nat) (keys : List Nat) (s t : State) : Prop where
  others : ∀ n, n ≠ core → t.core n = { s.core n with credit := (t.core n).credit }
  own : t.core core = { s.core core with
    tile := (t.core core).tile, ctx := (t.core core).ctx, credit := (t.core core).credit, granted := (t.core core).granted }
  streams : ∀ k, k ∉ keys → t.streamAt core k = s.streamAt core k
  mem : t.mm.mem = s.mm.mem
  job : t.job = s.job
  regs : t.regs = s.regs

theorem enters_of_eq {core : Nat} {keys : List Nat} {s t : State} (cores : t.cores = s.cores) (mem : t.mm.mem = s.mm.mem)
    (job : t.job = s.job) (regs : t.regs = s.regs) : Enters core keys s t := by
  have hcore (n : Nat) : t.core n = s.core n := by rw [State.core, cores]; rfl
  exact ⟨fun n _ => by rw [hcore n], by rw [hcore core], fun k _ => by rw [State.streamAt, hcore core]; rfl, mem, job, regs⟩

theorem Enters.refl (core : Nat) (keys : List Nat) (s : State) : Enters core keys s s := enters_of_eq rfl rfl rfl rfl

theorem Enters.trans {core : Nat} {keys : List Nat} {s t u : State} (h : Enters core keys s t) (k : Enters core keys t u) :
    Enters core keys s u := by
  refine ⟨fun n hn => ?_, ?_, fun c hc => (k.streams c hc).trans (h.streams c hc), k.mem.trans h.mem, k.job.trans h.job,
    k.regs.trans h.regs⟩
  · rw [k.others n hn, h.others n hn]
  · rw [k.own, h.own]

theorem Enters.mono {core : Nat} {keys more : List Nat} {s t : State} (h : Enters core keys s t) (hsub : keys ⊆ more) :
    Enters core more s t :=
  ⟨h.others, h.own, fun k hk => h.streams k fun e => hk (hsub e), h.mem, h.job, h.regs⟩

theorem Arrives.enters {core ctx : Nat} {s t : State} (h : Arrives core ctx s t) : Enters core [ctx] s t := by
  refine ⟨fun n hn => by rw [h.others n hn], by rw [h.own], fun k hk => h.streams k fun e => hk (e ▸ List.mem_singleton_self _),
    ?_, ?_, ?_⟩ <;> rw [h.rest]

/-- A report of credit leaves every stream of the core. -/
theorem reportCredit_enters (core ctx : Nat) (d : StreamDesc) (n : Nat) (s : State) :
    Enters core [] s (reportCredit core ctx d n s) := by
  have hgrant : Enters core [] s (setCore core { s.core core with
      granted := tset (s.core core).granted ctx (tget 0 (s.core core).granted ctx + n) } s) := by
    refine ⟨fun m hm => by rw [setCore_core_other hm], by rw [setCore_core_same], fun k _ => ?_, rfl, rfl, rfl⟩
    rw [setCore_streamAt]
    rfl
  have hcredit : Enters core [] s (setCore d.peerCore { s.core d.peerCore with
      credit := tset (s.core d.peerCore).credit d.peerCtx (tget 0 (s.core d.peerCore).credit d.peerCtx + n) } s) := by
    have htakes := setCredit_takes core d.peerCore
      (tset (s.core d.peerCore).credit d.peerCtx (tget 0 (s.core d.peerCore).credit d.peerCtx + n)) s
    refine ⟨htakes.others, ?_, fun k _ => ?_, rfl, rfl, rfl⟩
    · rw [setCore_core]; split
      · next h => rw [h]
      · rfl
    · rw [State.streamAt, setCore_core]; split
      · next h => rw [h]; rfl
      · rfl
  unfold reportCredit
  split
  · exact Enters.refl core [] s
  · split
    · exact hcredit
    · have honly := (sends_injectPacket { vl0Packet (setCore core { s.core core with
        granted := tset (s.core core).granted ctx (tget 0 (s.core core).granted ctx + n) } s) d.peerDev 3
          (leBytes 4 (tget 0 (s.core core).granted ctx + n)) with dstCore := d.peerCore, dstCtx := d.peerCtx, flow := d.tag }
        (setCore core { s.core core with
        granted := tset (s.core core).granted ctx (tget 0 (s.core core).granted ctx + n) } s)).only
      dsimp only
      refine hgrant.trans (enters_of_eq honly.cores ?_ honly.job ?_)
      · rw [honly.mm]
      · rw [honly.1]

theorem earlyTiles_enters (core ctx : Nat) (s : State) : Enters core [ctx] s (earlyTiles core ctx s)
    ∧ ∀ x, s.streamAt core ctx = some x →
      ∃ y, (earlyTiles core ctx s).streamAt core ctx = some y ∧ y.inst = x.inst ∧ y.taken = x.taken := by
  unfold earlyTiles
  dsimp only
  generalize hv : ({ s with coll := { s.coll with early := _ } } : State) = v
  have hfirst : Enters core [ctx] s v ∧ v.streamAt core ctx = s.streamAt core ctx := by
    rw [← hv]
    exact ⟨enters_of_eq rfl rfl rfl rfl, rfl⟩
  have harrives : ∀ w, Arrives core ctx v w → Enters core [ctx] s w ∧ ∀ x, s.streamAt core ctx = some x →
      ∃ y, w.streamAt core ctx = some y ∧ y.inst = x.inst ∧ y.taken = x.taken := fun w hw =>
    ⟨hfirst.1.trans hw.enters, fun x hx => hw.stream x (hfirst.2.trans hx)⟩
  refine harrives _ (List.foldlRecOn (motive := fun w => Arrives core ctx v w) _ _ (Arrives.refl core ctx v) fun w hw p hp => ?_)
  have hmine := (List.mem_filter.mp hp).2
  simp only [Bool.and_eq_true, beq_iff_eq] at hmine
  obtain ⟨⟨⟨⟨-, hcore⟩, hctx⟩, -⟩, -⟩ := hmine
  rw [hcore, hctx]
  exact hw.trans (deliverTile_arrives ..)

/-- The stream is one that a partner delivers. -/
def fromPartner (b : Nat × Words) : Bool := (streamDesc b.2).memKind == 2 && !(streamDesc b.2).dir

/-- A stream that has just entered for an instruction. -/
def newStream (id : Nat) (slot : Bool) (b : Nat × Words) : Stream :=
  { desc := b.2, inst := id, tiles := (streamDesc b.2).nTiles, fetched := 0, taken := 0, out := [], todo := [], produced := false
    drained := 0, recv := [], slot := slot, prefetched := 0 }

/-- The state once a stream stands in its context. -/
def placeStream (core id : Nat) (s : State) (b : Nat × Words) : State :=
  let r := takeSlot (core / 96) (streamDesc b.2) s
  setCore core { r.2.core core with ctx := tset (r.2.core core).ctx b.1 (newStream id r.1 b) } r.2

theorem admitStream_eq (core id : Nat) (s : State) (b : Nat × Words) : admitStream core id s b =
    if fromPartner b then earlyTiles core b.1 (reportCredit core b.1 (streamDesc b.2) (min 3 (streamDesc b.2).nTiles)
      (placeStream core id s b)) else placeStream core id s b := by
  unfold admitStream fromPartner placeStream
  dsimp only
  simp only [Bool.and_eq_true, decide_eq_true_eq, beq_iff_eq]
  rfl

theorem takeSlot_frame (hearth : Nat) (d : StreamDesc) (s : State) : (takeSlot hearth d s).2.cores = s.cores
    ∧ (takeSlot hearth d s).2.mm.mem = s.mm.mem ∧ (takeSlot hearth d s).2.job = s.job
    ∧ (takeSlot hearth d s).2.regs = s.regs := by
  unfold takeSlot
  split
  · exact ⟨rfl, rfl, rfl, rfl⟩
  · dsimp only
    split <;> exact ⟨rfl, rfl, rfl, rfl⟩

/-- An instruction's stream stands in its context, and no tile of it has come or been taken. -/
theorem placeStream_enters (core id : Nat) (s : State) (b : Nat × Words) : Enters core [b.1] s (placeStream core id s b)
    ∧ (∃ slot, (placeStream core id s b).streamAt core b.1 = some (newStream id slot b))
    ∧ ((placeStream core id s b).core core).tile = (s.core core).tile
    ∧ ∀ n, n ≠ core → (placeStream core id s b).core n = s.core n := by
  obtain ⟨hcores, hmem, hjob, hregs⟩ := takeSlot_frame (core / 96) (streamDesc b.2) s
  unfold placeStream
  dsimp only
  generalize takeSlot (core / 96) (streamDesc b.2) s = r at hcores hmem hjob hregs ⊢
  have hcore (n : Nat) : r.2.core n = s.core n := by rw [State.core, hcores]; rfl
  have hothers (n : Nat) (hn : n ≠ core) : (setCore core { r.2.core core with
      ctx := tset (r.2.core core).ctx b.1 (newStream id r.1 b) } r.2).core n = s.core n :=
    (setCore_core_other hn _ r.2).trans (hcore n)
  refine ⟨⟨fun n hn => by rw [hothers n hn], ?_, fun k hk => ?_, hmem, hjob, hregs⟩, ⟨r.1, ?_⟩, ?_, hothers⟩
  · rw [setCore_core_same, hcore]
  · rw [setCore_streamAt, hcore]
    exact klook_tset_other _ (fun e => hk (List.mem_singleton.mpr e.symm)) _
  · rw [setCore_streamAt]
    exact klook_tset_same _ _ _
  · rw [setCore_core_same, hcore]

theorem admitStream_enters (core id : Nat) (s : State) (b : Nat × Words) : Enters core [b.1] s (admitStream core id s b)
    ∧ ∃ x, (admitStream core id s b).streamAt core b.1 = some x ∧ x.inst = id ∧ x.taken = 0
      ∧ (fromPartner b = false → x.fetched = 0) := by
  obtain ⟨henters, ⟨slot, hslot⟩, -, -⟩ := placeStream_enters core id s b
  rw [admitStream_eq]
  split
  · next hd =>
    have hreport := reportCredit_enters core b.1 (streamDesc b.2) (min 3 (streamDesc b.2).nTiles) (placeStream core id s b)
    generalize reportCredit core b.1 (streamDesc b.2) (min 3 (streamDesc b.2).nTiles) (placeStream core id s b) = u at hreport ⊢
    obtain ⟨hearly, hkeep⟩ := earlyTiles_enters core b.1 u
    obtain ⟨y, hy, h1, h2⟩ := hkeep _ ((hreport.streams b.1 List.not_mem_nil).trans hslot)
    exact ⟨henters.trans ((hreport.mono (List.nil_subset _)).trans hearly), y, hy, h1, h2,
      fun h => absurd (hd.symm.trans h) (by decide)⟩
  · exact ⟨henters, _, hslot, rfl, rfl, fun _ => rfl⟩

/-! ## All streams of an instruction -/

theorem admitStreams_enter (core id : Nat) (l : List (Nat × Words)) (s : State) :
    Enters core (l.map (·.1)) s (l.foldl (admitStream core id) s)
      ∧ ∀ b ∈ l, ∃ x, (l.foldl (admitStream core id) s).streamAt core b.1 = some x ∧ x.inst = id ∧ x.taken = 0
        ∧ ((∀ c ∈ l, fromPartner c = false) → x.fetched = 0) := by
  induction l generalizing s with
  | nil => exact ⟨Enters.refl core [] s, fun _ h => absurd h List.not_mem_nil⟩
  | cons b l ih =>
    obtain ⟨h1, x, hx, hinst, htaken, hfetched⟩ := admitStream_enters core id s b
    obtain ⟨h2, hrest⟩ := ih (admitStream core id s b)
    refine ⟨(h1.mono (by simp)).trans (h2.mono (by simp)), fun c hc => ?_⟩
    by_cases hkey : c.1 ∈ l.map (·.1)
    · obtain ⟨e, he, hce⟩ := List.mem_map.mp hkey
      obtain ⟨y, hy, h3, h4, h5⟩ := hrest e he
      rw [hce] at hy
      exact ⟨y, hy, h3, h4, fun hno => h5 fun z hz => hno z (List.mem_cons_of_mem _ hz)⟩
    · obtain rfl : c = b := by
        rcases List.mem_cons.mp hc with h | h
        · exact h
        · exact absurd (List.mem_map_of_mem h) hkey
      exact ⟨x, (h2.streams c.1 hkey).trans hx, hinst, htaken, fun hno => hfetched (hno c List.mem_cons_self)⟩

/-- Streams that no partner delivers touch no tile store and no other core. -/
theorem admitStreams_plain (core id : Nat) {l : List (Nat × Words)} (h : ∀ c ∈ l, fromPartner c = false) (s : State) :
    ((l.foldl (admitStream core id) s).core core).tile = (s.core core).tile
      ∧ ∀ n, n ≠ core → (l.foldl (admitStream core id) s).core n = s.core n := by
  induction l generalizing s with
  | nil => exact ⟨rfl, fun _ _ => rfl⟩
  | cons b l ih =>
    obtain ⟨-, -, htile, hothers⟩ := placeStream_enters core id s b
    have hone : admitStream core id s b = placeStream core id s b := by
      rw [admitStream_eq, if_neg (by simp [h b List.mem_cons_self])]
    obtain ⟨h1, h2⟩ := ih (fun c hc => h c (List.mem_cons_of_mem _ hc)) (placeStream core id s b)
    rw [List.foldl_cons, hone]
    exact ⟨h1.trans htile, fun n hn => (h2 n hn).trans (hothers n hn)⟩

/-! ## Admission -/

/-- The instruction as it stands in flight when it enters. -/
def newInst (id : Nat) (i : Issue) : Inflight :=
  { id := id, unit := i.unit, desc := i.desc, ctxs := i.streams.map (·.1), executed := false, reads := [], outs := []
    partials := [], level := 0, final := false, status := NStatus.zero, flush := 0, sat := 0, replays := 0 }

/-- The core with an instruction entered. -/
def enteredCore (c : CoreSt) (i : Issue) : CoreSt :=
  { c with
    pc := c.pc + 1, nextId := c.nextId + 1, inflight := c.inflight ++ [newInst c.nextId i]
    side := c.side ++ (i.roles.zip i.side).map fun x => (⟨some c.nextId, c.nextId, x.1, x.2⟩ : SideReq) }

section
variable {core : Nat} {p : ProgItem} {s : State} (hissuing : s.issuing core = true)
  (hp : (s.core core).prog[(s.core core).pc]? = some p)
include hp

theorem admissionState_of_issue {i : Issue} (hissuing : s.issuing core = true) (hi : issueOf p = some i)
    (ho : orderOk (s.core core) i = true) (hr : roomFor (s.core core) i = true) :
    admissionState core s = i.streams.foldl (admitStream core (s.core core).nextId)
      (setCore core (enteredCore (s.core core) i) s) := by
  unfold admissionState
  dsimp only
  rw [if_neg (by simp [hissuing]), hp]
  cases p with
  | sideline w => exact absurd hi (by simp [issueOf])
  | barrier w => exact absurd hi (by simp [issueOf])
  | matrix d st sd | vector d st sd | row d st sd =>
    simp only [hi, ho, hr, Bool.and_self, if_true]
    rfl

theorem admissionState_of_wait {i : Issue} (hi : issueOf p = some i)
    (h : orderOk (s.core core) i = false ∨ roomFor (s.core core) i = false) : admissionState core s = s := by
  unfold admissionState
  dsimp only
  split
  · rfl
  · rw [hp]
    cases p with
    | sideline w => exact absurd hi (by simp [issueOf])
    | barrier w => exact absurd hi (by simp [issueOf])
    | matrix d st sd | vector d st sd | row d st sd =>
      simp only [hi]
      rw [if_neg (by rcases h with h | h <;> simp [h])]

end

theorem admissionIsAllOrNothing : Claims.AdmissionIsAllOrNothing := by
  intro core p s hissuing hp
  refine ⟨fun i hi ho hr => ?_, fun i hi h => congrArg Host.Outcome.next (admissionState_of_wait hp hi h),
    fun w hw hlt => ?_, fun ⟨w, hw⟩ hge => ?_, fun ⟨w, hw⟩ => ?_⟩
  · intro id delivered'
    have hstate := admissionState_of_issue hp hissuing hi ho hr
    have hcore : (setCore core (enteredCore (s.core core) i) s).core core = enteredCore (s.core core) i := setCore_core_same ..
    have hothers (n : Nat) (hn : n ≠ core) : (setCore core (enteredCore (s.core core) i) s).core n = s.core n :=
      setCore_core_other hn _ s
    have hkeep (k : Nat) : (setCore core (enteredCore (s.core core) i) s).streamAt core k = s.streamAt core k := by
      rw [setCore_streamAt]; rfl
    have hmem : (setCore core (enteredCore (s.core core) i) s).mm.mem = s.mm.mem := rfl
    have hjob : (setCore core (enteredCore (s.core core) i) s).job = s.job := rfl
    have hregs : (setCore core (enteredCore (s.core core) i) s).regs = s.regs := rfl
    generalize setCore core (enteredCore (s.core core) i) s = u at hstate hcore hothers hkeep hmem hjob hregs
    obtain ⟨henter, hstreams⟩ := admitStreams_enter core (s.core core).nextId i.streams u
    have hplain := fun h => admitStreams_plain core (s.core core).nextId (l := i.streams) h u
    refine ⟨_, newInst id i, congrArg Host.Outcome.next hstate, ?_⟩
    generalize i.streams.foldl (admitStream core (s.core core).nextId) u = t at henter hstreams hplain
    refine ⟨?_, ?_, ?_, rfl, rfl, rfl, rfl, ?_, hstreams, fun k hk => ?_, fun hno => ?_, fun n hn => ?_, henter.mem.trans hmem,
      henter.job.trans hjob, henter.regs.trans hregs⟩
    · rw [henter.own, hcore]; rfl
    · rw [henter.own, hcore]; rfl
    · rw [henter.own, hcore]; rfl
    · rw [henter.own, hcore]; rfl
    · refine (henter.streams k fun e => ?_).trans (hkeep k)
      obtain ⟨b, hb, hbk⟩ := List.mem_map.mp e
      exact hk b hb hbk
    · obtain ⟨h1, h2⟩ := hplain hno
      exact ⟨h1.trans (by rw [hcore]; rfl), fun n hn => (h2 n hn).trans (hothers n hn)⟩
    · rw [henter.others n hn, hothers n hn]
  · have hstate : admissionState core s = setCore core { s.core core with
        pc := (s.core core).pc + 1, side := (s.core core).side ++ [⟨none, (s.core core).nextId, 0, w⟩] } s := by
      unfold admissionState
      dsimp only
      rw [if_neg (by simp [hissuing]), hp, hw]
      dsimp only
      rw [if_neg (by omega)]
    refine ⟨_, congrArg Host.Outcome.next hstate, ?_, ?_, ?_, fun n hn => setCore_core_other hn _ s, rfl⟩ <;> rw [setCore_core_same]
  · have hstate : admissionState core s = s := by
      unfold admissionState
      dsimp only
      rw [if_neg (by simp [hissuing]), hp, hw]
      exact if_pos hge
    exact congrArg Host.Outcome.next hstate
  · have hstate : admissionState core s = s := by
      unfold admissionState
      dsimp only
      rw [if_neg (by simp [hissuing]), hp, hw]
    exact congrArg Host.Outcome.next hstate

end Sys2Proof.Machine
end
section
/-! Tiles move in order (R112 to R115, R121). -/

namespace Sys2Proof.Machine

/-! ## Whole tiles that have come -/

theorem length_takeWhile_range {P : Nat → Bool} {n m : Nat} (hm : m ≤ n) (h : ∀ t < m, P t = true) (hn : m < n → P m = false) :
    ((List.range n).takeWhile P).length = m := by
  obtain ⟨k, rfl⟩ := Nat.exists_eq_add_of_le hm
  rw [List.range_add, List.takeWhile_append_of_pos fun a ha => h a (List.mem_range.mp ha)]
  have hnil : ((List.range k).map (m + ·)).takeWhile P = [] := by
    cases k with
    | zero => rfl
    | succ k =>
      rw [List.range_succ_eq_map, List.map_cons, List.takeWhile_cons_of_neg]
      rw [Nat.add_zero, hn (by omega)]
      decide
  rw [hnil, List.append_nil, List.length_range]

theorem takeWhile_range_pos {P : Nat → Bool} {n t : Nat} (ht : t < ((List.range n).takeWhile P).length) : P t = true := by
  have hpre : (List.range n).takeWhile P <+: List.range n := List.takeWhile_prefix P
  have hget : ((List.range n).takeWhile P)[t] = t := by
    rw [hpre.getElem ht]
    exact List.getElem_range _
  have hmem := List.getElem_mem ht
  rw [hget] at hmem
  exact List.mem_takeWhile_imp hmem

theorem bits_cases (d : StreamDesc) : d.bits = 0 ∨ d.bits = 4 ∨ d.bits = 8 ∨ d.bits = 16 ∨ d.bits = 32 := by
  unfold StreamDesc.bits
  split
  · simp
  · unfold elemBits
    split <;> simp

/-- A tile brings all its bytes. -/
theorem tileBytes_le_tileFrom (s : State) (core : Nat) (d : StreamDesc) (t : Nat) (h : d.bits ≠ 0) :
    d.tileBytes t ≤ (s.tileFrom core d t).length := by
  have hflat : ((List.range (d.tileElems t)).flatMap fun i =>
      leBytes d.width (if i < d.tileElems t then s.placed core d (t * d.per + i) else 0)).length = d.tileElems t * d.width := by
    rw [List.length_flatMap]
    simp
  unfold State.tileFrom
  dsimp only
  split
  · rw [List.length_map, List.length_range]
  · next h4 =>
    rw [hflat]
    unfold StreamDesc.tileBytes StreamDesc.width cdiv
    rw [if_neg h4]
    generalize d.tileElems t = n
    rcases bits_cases d with e | e | e | e | e
    · exact absurd e h
    · exact absurd e h4
    all_goals rw [e]; omega

/-- A tile within a stream holds bytes. -/
theorem tileBytes_pos {d : StreamDesc} {t : Nat} (ht : t < d.nTiles) (h : d.bits ≠ 0) : 0 < d.tileBytes t := by
  have hper : 0 < d.per := by
    by_contra hz
    have h0 : d.per = 0 := by omega
    unfold StreamDesc.nTiles cdiv at ht
    rw [h0, Nat.div_zero] at ht
    omega
  have hlt : t * d.per < d.total := by
    unfold StreamDesc.nTiles cdiv at ht
    have h1 := (Nat.le_div_iff_mul_le hper).mp ht
    rw [Nat.succ_mul] at h1
    omega
  have helems : 1 ≤ d.tileElems t := by
    unfold StreamDesc.tileElems
    omega
  have hmul : 1 ≤ d.tileElems t * d.bits := Nat.mul_pos helems (by omega)
  unfold StreamDesc.tileBytes cdiv
  omega

section
variable {x : Stream} {f : Nat} (bs : Bytes)

/-- The stream with a tile's bytes at its end. -/
def Stream.plus (x : Stream) (f : Nat) (bs : Bytes) : Stream := { x with recv := x.recv ++ [(65536 * f, bs)] }

theorem tileData_other {t : Nat} (h : t ≠ f) : (x.plus f bs).tileData t = x.tileData t := by
  have hnone : ([(65536 * f, bs)] : List (Nat × Bytes)).filter (fun p => decide (p.1 / 65536 = t)) = [] := by
    have hdiv : 65536 * f / 65536 = f := by omega
    simp [hdiv, Ne.symm h]
  unfold Stream.tileData Stream.plus
  rw [List.filter_append, hnone, List.append_nil]

theorem tileData_new (h : ∀ p ∈ x.recv, p.1 / 65536 < f) : (x.plus f bs).tileData f = bs := by
  have hnone : x.recv.filter (fun p => decide (p.1 / 65536 = f)) = [] := by
    rw [List.filter_eq_nil_iff]
    intro p hp
    have := h p hp
    simp only [decide_eq_true_eq]
    omega
  have hone : ([(65536 * f, bs)] : List (Nat × Bytes)).filter (fun p => decide (p.1 / 65536 = f)) = [(65536 * f, bs)] := by
    have hdiv : 65536 * f / 65536 = f := by omega
    simp [hdiv]
  unfold Stream.tileData Stream.plus
  rw [List.filter_append, hnone, hone, List.nil_append, List.mergeSort_singleton, List.flatMap_singleton]

theorem tileData_none {t : Nat} (h : ∀ p ∈ x.recv, p.1 / 65536 < f) (ht : f < t) : x.tileData t = [] := by
  have hnone : x.recv.filter (fun p => decide (p.1 / 65536 = t)) = [] := by
    rw [List.filter_eq_nil_iff]
    intro p hp
    have := h p hp
    simp only [decide_eq_true_eq]
    omega
  unfold Stream.tileData
  rw [hnone, List.mergeSort_nil]
  rfl

end

/-- A whole tile that comes in its turn is one more arrived. -/
theorem arrivedTiles_succ {x : Stream} {f : Nat} {bs : Bytes} (htiles : x.tiles = (streamDesc x.desc).nTiles)
    (hbits : (streamDesc x.desc).bits ≠ 0) (hlt : f < x.tiles) (harrived : x.arrivedTiles = f)
    (hrecv : ∀ p ∈ x.recv, p.1 / 65536 < f) (hlen : (streamDesc x.desc).tileBytes f ≤ bs.length) :
    (x.plus f bs).arrivedTiles = f + 1 := by
  unfold Stream.arrivedTiles at harrived ⊢
  refine length_takeWhile_range (n := x.tiles) (by omega) (fun t ht => ?_) fun hmore => ?_
  · by_cases he : t = f
    · subst he
      rw [tileData_new bs hrecv]
      exact decide_eq_true hlen
    · rw [tileData_other bs he]
      exact takeWhile_range_pos (P := fun t => decide ((streamDesc x.desc).tileBytes t ≤ (x.tileData t).length))
        (by rw [harrived]; omega)
  · rw [tileData_other bs (by omega), tileData_none hrecv (by omega)]
    have hpos := tileBytes_pos (by rw [← htiles]; exact hmore) hbits
    exact decide_eq_false (Nat.not_le_of_lt hpos)

/-! ## The fetch -/

theorem Arrives.coreOnly {core ctx : Nat} {s t : State} (h : Arrives core ctx s t) : CoreOnly core s t := by
  refine ⟨h.others, ?_⟩
  rw [h.rest]

section
variable {core ctx : Nat} {x : Stream} {s : State} (hissuing : s.issuing core = true) (hx : s.streamAt core ctx = some x)
include hissuing hx

theorem tileFetch_reads (hdir : (streamDesc x.desc).dir = false) (hmem : (streamDesc x.desc).memKind = 1)
    (hleft : x.fetched < x.tiles) (hroom : x.fetched < x.taken + 3)
    (hok : s.tileOk core (streamDesc x.desc) x.fetched = true) (hskip : s.skipped core ctx x = false) :
    tileFetchState core ctx none s = ringBytes core ctx x.fetched 0 (s.tileFrom core (streamDesc x.desc) x.fetched)
      (touchTile core (streamDesc x.desc) (s.tileVas core (streamDesc x.desc) x.fetched) s) := by
  unfold tileFetchState
  rw [if_neg (by simp [hissuing])]
  simp only [hx]
  rw [if_pos (by simp [hdir]), if_pos (by simp [hmem, hleft, hroom, hok, hskip])]
  rfl

theorem tileFetch_waits (hdir : (streamDesc x.desc).dir = false)
    (h : (streamDesc x.desc).memKind ≠ 1 ∨ x.tiles ≤ x.fetched ∨ x.taken + 3 ≤ x.fetched
      ∨ s.tileOk core (streamDesc x.desc) x.fetched = false ∨ s.skipped core ctx x = true) : tileFetchState core ctx none s = s := by
  unfold tileFetchState
  rw [if_neg (by simp [hissuing])]
  simp only [hx]
  rw [if_pos (by simp [hdir]), if_neg]
  simp only [Bool.and_eq_true, decide_eq_true_eq, Bool.not_eq_true', not_and]
  rintro ⟨⟨⟨h1, h2⟩, h3⟩, h4⟩
  rcases h with h | h | h | h | h
  · exact absurd h1 h
  · omega
  · omega
  · exact absurd (h4.symm.trans h) (by decide)
  · rw [h]; decide

omit hissuing in
/-- A tile read stands in its ring slot. -/
theorem tileRead_stands (bs : Bytes) (vas : List Nat) :
    let t := ringBytes core ctx x.fetched 0 bs (touchTile core (streamDesc x.desc) vas s)
    CoreOnly core s t
      ∧ t.streamAt core ctx = some { x.plus x.fetched bs with fetched := (x.plus x.fetched bs).arrivedTiles }
      ∧ (t.core core).tile = memStore (s.core core).tile ((streamDesc x.desc).slotAddr x.fetched) bs := by
  intro t
  have hreach := touchTile_reaches core (streamDesc x.desc) vas s
  have hmem := touchTile_mem core (streamDesc x.desc) vas s
  have ht : t = ringBytes core ctx x.fetched 0 bs (touchTile core (streamDesc x.desc) vas s) := rfl
  generalize touchTile core (streamDesc x.desc) vas s = u at hreach hmem ht
  have hux : u.streamAt core ctx = some x := by rw [State.streamAt, hreach.core]; exact hx
  have harrives := ringBytes_arrives core ctx x.fetched 0 bs u
  rw [ringBytes_eq hux] at ht harrives
  rw [ht]
  refine ⟨(hreach.coreOnly hmem core).trans harrives.coreOnly, ?_, ?_⟩
  · rw [setCore_streamAt]
    exact klook_tset_same _ _ _
  · rw [setCore_core_same]
    unfold ringCore
    rw [hreach.core]
    rfl

end

/-! ## The drain -/

theorem MemoryOutside.trans {a b : List (Nat × Nat)} {s t u : State} (h : MemoryOutside a s t) (hreach : Reaches s t)
    (k : MemoryOutside b t u) : MemoryOutside (a ++ b) s u := by
  intro p hp
  rw [k p fun r hr i hi => ?_, h p fun r hr => hp r (List.mem_append_left _ hr)]
  rw [hreach.phys]
  exact hp r (List.mem_append_right _ hr) i hi

theorem memoryOutside_of_mem (l : List (Nat × Nat)) {s t : State} (h : t.mm.mem = s.mm.mem) : MemoryOutside l s t := by
  intro p _
  rw [h]

theorem writeMain_reaches (s : State) (w : EWrite) : Reaches s (writeMain s w) := by
  unfold writeMain
  split <;> exact vmStore_reaches ..

theorem writeMain_outside (s : State) (w : EWrite) : MemoryOutside [(w.addr, max 1 w.data.length)] s (writeMain s w) := by
  have key (bs : Bytes) (hlen : bs.length ≤ max 1 w.data.length) :
      MemoryOutside [(w.addr, max 1 w.data.length)] s (vmStore w.addr bs s) := by
    intro p hp
    refine vmStore_outside w.addr bs s p fun r hr i hi => ?_
    rw [List.mem_singleton] at hr
    subst hr
    exact hp _ (List.mem_singleton_self _) i (lt_of_lt_of_le hi hlen)
  unfold writeMain
  split
  · exact key _ (Nat.le_max_right ..)
  · exact key _ (Nat.le_max_left ..)

theorem writesMain_outside (ws : List EWrite) (s : State) : Reaches s (ws.foldl writeMain s)
    ∧ MemoryOutside (ws.map fun w => (w.addr, max 1 w.data.length)) s (ws.foldl writeMain s) := by
  induction ws generalizing s with
  | nil => exact ⟨Reaches.refl s, memoryOutside_of_mem _ rfl⟩
  | cons w ws ih =>
    have hone := writeMain_reaches s w
    obtain ⟨h1, h2⟩ := ih (writeMain s w)
    exact ⟨hone.trans h1, (writeMain_outside s w).trans hone h2⟩

theorem clearCovered_reaches (ws : List EWrite) (s : State) : Reaches s (clearCovered ws s) :=
  ⟨rfl, rewrite_poison_subset .., rewrite_broken_subset ..⟩

/-- A write stream once its oldest tile has left. -/
def Stream.left (x : Stream) : Stream :=
  { x with
    out := x.out.drop 1 ++ x.todo.take (3 - (x.out.length - 1)), todo := x.todo.drop (3 - (x.out.length - 1))
    drained := x.drained + 1 }

/-- The oldest tile of a write stream leaves, and its slot is filled again. -/
theorem drainOne_drains {core ctx : Nat} {x : Stream} {s : State} (hx : s.streamAt core ctx = some x) :
    ∃ c, drainOne core ctx s = setCore core c s ∧ c = { s.core core with tile := c.tile, ctx := tset (s.core core).ctx ctx x.left } := by
  have hlook : klook (s.core core).ctx ctx = some x := hx
  generalize hy : ({ x with out := x.out.drop 1, drained := x.drained + 1 } : Stream) = y
  have hdrain : drainOne core ctx s
      = setCore core (({ s.core core with ctx := tset (s.core core).ctx ctx y } : CoreSt).refill ctx) s := by
    unfold drainOne
    simp only [hlook, hy]
  have hown := refill_own { s.core core with ctx := tset (s.core core).ctx ctx y } ctx
  have hctx := refill_ctx (c := { s.core core with ctx := tset (s.core core).ctx ctx y }) (klook_tset_same _ _ _)
  have hfilled : y.filled = x.left := by
    rw [← hy]
    unfold Stream.filled Stream.left
    simp only [List.length_drop]
  refine ⟨_, hdrain, ?_⟩
  generalize ({ s.core core with ctx := tset (s.core core).ctx ctx y } : CoreSt).refill ctx = c at hown hctx
  rw [hctx, tset_tset_same, hfilled] at hown
  exact hown

section
variable {core ctx : Nat} {x : Stream} {es : List (Nat × Nat)} {rest : List (List (Nat × Nat))} {s : State}
  (hissuing : s.issuing core = true) (hx : s.streamAt core ctx = some x) (hdir : (streamDesc x.desc).dir = true)
  (hout : x.out = es :: rest)
include hissuing hx hdir hout

theorem tileFetch_writes (hmem : (streamDesc x.desc).memKind = 1)
    (hok : s.writeOk (s.tileWrites core (streamDesc x.desc) es) = true) : tileFetchState core ctx none s =
      drainOne core ctx (touchTile core (streamDesc x.desc) ((s.tileWrites core (streamDesc x.desc) es).map (·.addr))
        ((s.tileWrites core (streamDesc x.desc) es).foldl writeMain (clearCovered (s.tileWrites core (streamDesc x.desc) es) s))) := by
  unfold tileFetchState
  rw [if_neg (by simp [hissuing])]
  simp only [hx]
  rw [if_neg (by simp [hdir]), hout]
  dsimp only
  rw [if_pos hmem, if_pos hok]
  rfl

theorem tileFetch_blocked (h : ((streamDesc x.desc).memKind = 1 ∧ s.writeOk (s.tileWrites core (streamDesc x.desc) es) = false)
    ∨ ((streamDesc x.desc).memKind ≠ 1 ∧ (s.core core).creditLeft ctx = 0)) : tileFetchState core ctx none s = s := by
  unfold tileFetchState
  rw [if_neg (by simp [hissuing])]
  simp only [hx]
  rw [if_neg (by simp [hdir]), hout]
  dsimp only
  rcases h with ⟨h1, h2⟩ | ⟨h1, h2⟩
  · rw [if_pos h1, if_neg (by simp [h2])]
  · rw [if_neg h1, if_neg (by omega)]

theorem tileFetch_delivers (hmem : (streamDesc x.desc).memKind ≠ 1) (hcredit : 0 < (s.core core).creditLeft ctx) :
    tileFetchState core ctx none s = drainDelivery core ctx x (streamDesc x.desc) es s := by
  unfold tileFetchState
  rw [if_neg (by simp [hissuing])]
  simp only [hx]
  rw [if_neg (by simp [hdir]), hout]
  dsimp only
  rw [if_neg hmem, if_pos hcredit]
  rfl

omit hissuing hdir hout in
/-- A tile written to main memory. -/
theorem tileWritten_stands (ws : List EWrite) (d : StreamDesc) (vas : List Nat) :
    let t := drainOne core ctx (touchTile core d vas (ws.foldl writeMain (clearCovered ws s)))
    t.streamAt core ctx = some x.left ∧ MemoryOutside (ws.map fun w => (w.addr, max 1 w.data.length)) s t
      ∧ (∀ n, n ≠ core → t.core n = s.core n) ∧ t.job = s.job ∧ t.regs = s.regs ∧ t.mm.pages = s.mm.pages := by
  intro t
  have hclear := clearCovered_reaches ws s
  obtain ⟨hwrites, houtside⟩ := writesMain_outside ws (clearCovered ws s)
  have hmem : (clearCovered ws s).mm.mem = s.mm.mem := rfl
  have hfirst := (memoryOutside_of_mem [] hmem).trans hclear houtside
  rw [List.nil_append] at hfirst
  have hall := hclear.trans hwrites
  have ht : t = drainOne core ctx (touchTile core d vas (ws.foldl writeMain (clearCovered ws s))) := rfl
  generalize ws.foldl writeMain (clearCovered ws s) = u at hfirst hall ht
  have htouch := touchTile_reaches core d vas u
  have hsecond := hfirst.trans hall (memoryOutside_of_mem [] (touchTile_mem core d vas u))
  rw [List.append_nil] at hsecond
  have hreach := hall.trans htouch
  generalize touchTile core d vas u = v at hreach hsecond ht
  obtain ⟨c, hdrain, hc⟩ := drainOne_drains (core := core) (ctx := ctx) (x := x) (s := v)
    (by rw [State.streamAt, hreach.core]; exact hx)
  rw [ht, hdrain]
  refine ⟨?_, hsecond, fun n hn => (setCore_core_other hn c v).trans (hreach.core n), hreach.job, hreach.regs, hreach.pages⟩
  rw [setCore_streamAt, hc]
  exact klook_tset_same _ _ _

end

end Sys2Proof.Machine
end
section
/-! Tiles delivered to a partner (R121, R300). -/

namespace Sys2Proof.Machine

theorem tileImage_free (d : StreamDesc) (t : Nat) (es : List (Nat × Nat)) (s : State) :
    ∃ n, (tileImage d t es s).2 = { s with free := n } := by
  unfold tileImage
  dsimp only
  split
  · exact ⟨s.free, rfl⟩
  · exact ⟨s.free + 1, rfl⟩

/-- A write stream has given its oldest tile away on credit. -/
structure Given (core ctx : Nat) (x : Stream) (s t : State) : Prop where
  others : ∀ n, n ≠ core → t.core n = s.core n
  stream : t.streamAt core ctx = some x.left
  streams : ∀ k, k ≠ ctx → t.streamAt core k = s.streamAt core k
  spent : tget 0 (t.core core).spent ctx = tget 0 (s.core core).spent ctx + 1
  mm : t.mm = s.mm
  job : t.job = s.job
  regs : t.regs = s.regs
  devId : t.devId = s.devId

/-- The state in which a tile is handed to its partner. -/
def givenState (core ctx : Nat) (s : State) : State :=
  let u := drainOne core ctx s
  setCore core { u.core core with spent := tset (u.core core).spent ctx (tget 0 (u.core core).spent ctx + 1) } u

theorem givenState_given {core ctx : Nat} {x : Stream} {s : State} (hx : s.streamAt core ctx = some x) :
    Given core ctx x s (givenState core ctx s) := by
  obtain ⟨c, hdrain, hc⟩ := drainOne_drains hx
  unfold givenState
  rw [hdrain]
  dsimp only
  rw [setCore_core_same, setCore_twice]
  refine ⟨fun n hn => setCore_core_other hn _ s, ?_, fun k hk => ?_, ?_, rfl, rfl, rfl, rfl⟩
  · rw [setCore_streamAt]
    change klook c.ctx ctx = _
    rw [hc]
    exact klook_tset_same _ _ _
  · rw [setCore_streamAt]
    change klook c.ctx k = _
    rw [hc]
    exact klook_tset_other _ (Ne.symm hk) _
  · rw [setCore_core_same]
    change tget 0 (tset c.spent ctx (tget 0 c.spent ctx + 1)) ctx = _
    rw [tget_tset_same, hc]

theorem drainDelivery_eq (core ctx : Nat) (x : Stream) (d : StreamDesc) (es : List (Nat × Nat)) (s : State) :
    drainDelivery core ctx x d es s = (let u := givenState core ctx (tileImage d x.drained es s).2
      let bs := (tileImage d x.drained es s).1
      if d.peerDev = u.devId then deliverTile d.peerCore d.peerCtx x.drained 0 bs u
      else (List.range (cdiv bs.length 4096)).foldl (fun s k => injectPacket
        { vl0Packet s d.peerDev 0 ((bs.drop (4096 * k)).take 4096) with
          vl := 2, origVl := 2, dstCore := d.peerCore, dstCtx := d.peerCtx, flow := d.tag, seq := x.drained, offset := 4096 * k } s)
        u) := rfl

/-- A tile given away that has gone on its way. -/
structure Gone (core ctx : Nat) (x : Stream) (s t : State) : Prop where
  stream : t.streamAt core ctx = some x.left
  spent : tget 0 (t.core core).spent ctx = tget 0 (s.core core).spent ctx + 1
  mm : t.mm = s.mm
  job : t.job = s.job
  regs : t.regs = s.regs

section
variable {core ctx : Nat} {x : Stream} {s t : State} (h : Given core ctx x s t)
include h

theorem Given.sends {u : State} (k : FabricOnly t u) : Gone core ctx x s u := by
  have hcore (n : Nat) : u.core n = t.core n := by rw [State.core, k.cores]; rfl
  refine ⟨?_, ?_, k.mm.trans h.mm, k.job.trans h.job, ?_⟩
  · rw [State.streamAt, hcore]; exact h.stream
  · rw [hcore]; exact h.spent
  · rw [k.1]; exact h.regs

/-- A tile handed to a partner on this die. -/
theorem Given.delivers {c k : Nat} (n : Nat) (bs : Bytes) (hne : c ≠ core ∨ k ≠ ctx) : Gone core ctx x s (deliverTile c k n 0 bs t) := by
  have harrives := deliverTile_arrives c k n 0 bs t
  generalize deliverTile c k n 0 bs t = u at harrives
  have hrest : u.mm = t.mm ∧ u.job = t.job ∧ u.regs = t.regs := by rw [harrives.rest]; exact ⟨rfl, rfl, rfl⟩
  refine ⟨?_, ?_, hrest.1.trans h.mm, hrest.2.1.trans h.job, hrest.2.2.trans h.regs⟩
  · by_cases hc : c = core
    · subst hc
      exact (harrives.streams ctx (Ne.symm (hne.resolve_left (by simp)))).trans h.stream
    · rw [State.streamAt, harrives.others core (Ne.symm hc)]
      exact h.stream
  · by_cases hc : c = core
    · subst hc
      rw [harrives.own]; exact h.spent
    · rw [harrives.others core (Ne.symm hc)]; exact h.spent

theorem Given.streamAt {c k : Nat} (hne : c ≠ core ∨ k ≠ ctx) : t.streamAt c k = s.streamAt c k := by
  by_cases hc : c = core
  · subst hc
    exact h.streams k (hne.resolve_left (by simp))
  · rw [State.streamAt, h.others c hc]
    rfl

end

/-- What a delivery brings a read stream of the partner. -/
theorem deliverTile_recv {core ctx n : Nat} {y : Stream} {s : State} (bs : Bytes) (hy : s.streamAt core ctx = some y)
    (hmem : (streamDesc y.desc).memKind = 2) (hdir : (streamDesc y.desc).dir = false) :
    ∃ z, (deliverTile core ctx n 0 bs s).streamAt core ctx = some z ∧ z.recv = y.recv ++ [(65536 * n, bs)] := by
  have hring : deliverTile core ctx n 0 bs s = ringBytes core ctx n 0 bs s := by
    unfold deliverTile
    simp only [hy]
    rw [if_neg (by simp [hmem, hdir])]
  rw [hring, ringBytes_eq hy]
  refine ⟨y.received n 0 bs, ?_, rfl⟩
  rw [setCore_streamAt]
  exact klook_tset_same _ _ _

/-- A write stream takes no delivery. -/
theorem deliverTile_of_write {core ctx n : Nat} {y : Stream} {s : State} (bs : Bytes) (hy : s.streamAt core ctx = some y)
    (hdir : (streamDesc y.desc).dir = true) : deliverTile core ctx n 0 bs s = s := by
  unfold deliverTile
  simp only [hy]
  rw [if_pos (by simp [hdir])]

theorem Given.gone {core ctx : Nat} {x : Stream} {s t : State} (h : Given core ctx x s t) : Gone core ctx x s t :=
  ⟨h.stream, h.spent, h.mm, h.job, h.regs⟩

/-- A tile of a write stream goes to its partner. -/
theorem drainDelivery_gone {core ctx : Nat} {x : Stream} {es : List (Nat × Nat)} {s : State} (hx : s.streamAt core ctx = some x)
    (hdir : (streamDesc x.desc).dir = true) :
    let d := streamDesc x.desc
    let t := drainDelivery core ctx x d es s
    Gone core ctx x s t
      ∧ ∀ y, d.peerDev = s.devId → s.streamAt d.peerCore d.peerCtx = some y → (streamDesc y.desc).memKind = 2 →
        (streamDesc y.desc).dir = false → ∃ z, t.streamAt d.peerCore d.peerCtx = some z
          ∧ z.recv = y.recv ++ [(65536 * x.drained, (tileImage d x.drained es s).1)] := by
  intro d t
  obtain ⟨n, hfree⟩ := tileImage_free d x.drained es s
  have hxf : ({ s with free := n } : State).streamAt core ctx = some x := hx
  have hgiven := givenState_given hxf
  have ht : t = _ := drainDelivery_eq core ctx x d es s
  rw [hfree] at ht
  have hfrom : Given core ctx x s (givenState core ctx { s with free := n }) :=
    ⟨hgiven.others, hgiven.stream, hgiven.streams, hgiven.spent, hgiven.mm, hgiven.job, hgiven.regs, hgiven.devId⟩
  generalize givenState core ctx { s with free := n } = u at ht hfrom
  generalize (tileImage d x.drained es s).1 = bs at ht ⊢
  dsimp only at ht
  by_cases hpeer : d.peerDev = u.devId
  · rw [if_pos hpeer] at ht
    have hleft : (streamDesc x.left.desc).dir = true := hdir
    refine ⟨?_, fun y _ hy hm hd => ?_⟩
    · rw [ht]
      by_cases hsame : d.peerCore = core ∧ d.peerCtx = ctx
      · rw [hsame.1, hsame.2, deliverTile_of_write bs hfrom.stream hleft]
        exact hfrom.gone
      · exact hfrom.delivers _ _ (not_and_or.mp hsame)
    · have hne : d.peerCore ≠ core ∨ d.peerCtx ≠ ctx := by
        rw [← not_and_or]
        rintro ⟨h1, h2⟩
        rw [h1, h2, hx] at hy
        injection hy with hy
        subst hy
        exact absurd (hdir.symm.trans hd) (by decide)
      rw [ht]
      exact deliverTile_recv bs ((hfrom.streamAt hne).trans hy) hm hd
  · rw [if_neg hpeer] at ht
    refine ⟨?_, fun y hy => absurd (hy.trans hfrom.devId.symm) hpeer⟩
    rw [ht]
    exact hfrom.sends (sends_fold _ (fun s _ => sends_injectPacket _ s) _ u).only

theorem tilesMoveInOrder : Claims.TilesMoveInOrder := by
  intro core ctx x s hissuing hx d left
  refine ⟨fun hdir hmem hleft hroom hok hskip => ?_, fun hdir h => congrArg Host.Outcome.next (tileFetch_waits hissuing hx hdir h),
    fun es rest hdir hout => ?_, fun hdir hout => ?_⟩
  · intro y
    have hstate := tileFetch_reads hissuing hx hdir hmem hleft hroom hok hskip
    obtain ⟨h1, h2, h3⟩ := tileRead_stands hx (s.tileFrom core d x.fetched) (s.tileVas core d x.fetched)
    exact ⟨_, congrArg Host.Outcome.next hstate, h1, h2, h3, fun htiles hbits harrived hrecv =>
      arrivedTiles_succ htiles hbits hleft harrived hrecv (tileBytes_le_tileFrom s core d x.fetched hbits)⟩
  · intro ws
    refine ⟨fun hmem hok => ?_, fun hmem hok => ?_, fun hmem hcredit => ?_, fun hmem hcredit => ?_⟩
    · exact ⟨_, congrArg Host.Outcome.next (tileFetch_writes hissuing hx hdir hout hmem hok), tileWritten_stands hx ws d _⟩
    · exact congrArg Host.Outcome.next (tileFetch_blocked hissuing hx hdir hout (.inl ⟨hmem, hok⟩))
    · obtain ⟨hgone, hrecv⟩ := drainDelivery_gone (es := es) hx hdir
      exact ⟨_, congrArg Host.Outcome.next (tileFetch_delivers hissuing hx hdir hout hmem hcredit), hgone.stream, hgone.spent, hrecv,
        hgone.mm, hgone.job, hgone.regs⟩
    · exact congrArg Host.Outcome.next (tileFetch_blocked hissuing hx hdir hout (.inr ⟨hmem, hcredit⟩))
  · have hstate : tileFetchState core ctx none s = s := by
      unfold tileFetchState
      rw [if_neg (by simp [hissuing])]
      simp only [hx]
      rw [if_neg (by simp only [Bool.not_eq_true']; rw [show (streamDesc x.desc).dir = true from hdir]; decide), hout]
    exact congrArg Host.Outcome.next hstate

/-- Settles O45: an instruction's streams enter together or not at all; tiles are fetched and drained in order, and change no
byte beside their own. -/
theorem streamsAdmitAndMove : Obligations.StreamsAdmitAndMove := ⟨admissionIsAllOrNothing, tilesMoveInOrder⟩

end Sys2Proof.Machine
end
section
/-! Checkpoints (R334, R335). The slot that is not the newest is made invalid, then come its content, its header and the flush
that makes it valid; a checkpoint late at its budget is put off or abandoned. -/

namespace Sys2Proof.Machine

/-! ## A checkpoint begins -/

theorem ckptWriteState_begins {s : State} (hmay : s.ckptMay = true) (hgood : ∀ b ∈ s.blocks, s.genOk b = true) :
    ckptWriteState s = ckptBegin s := by
  have hnone : (s.blocks.find? fun b => !s.genOk b) = none := by
    rw [List.find?_eq_none]
    intro b hb
    simp [hgood b hb]
  unfold ckptWriteState
  rw [hmay, hnone]
  rfl

theorem ckptWriteState_halts {s : State} (hmay : s.ckptMay = true) (hlive : s.job.st.live = true)
    (hbad : ∃ b ∈ s.blocks, s.genOk b = false) : Halted ECC_UNCORRECTABLE s (ckptWriteState s) := by
  obtain ⟨b, hb, hlost⟩ := hbad
  have hsome : (s.blocks.find? fun b => !s.genOk b).isSome = true := by
    rw [List.find?_isSome]
    exact ⟨b, hb, by simp [hlost]⟩
  obtain ⟨x, hx⟩ := Option.isSome_iff_exists.mp hsome
  have hstep : ckptWriteState s = haltNow ECC_UNCORRECTABLE (genLog x s) := by
    unfold ckptWriteState
    rw [hmay, hx]
    rfl
  have hstands : Stands s (genLog x s) := logAdd_stands ..
  rw [hstep]
  exact (haltNow_halted (.inl (by rw [hstands.st]; exact hlive))).congr hstands.committed
    (congrArg Recipe.loaded hstands.recipe) hstands.regs hstands.sec

/-- The slot taken is never the only valid one, nor the newer of two (R334). -/
theorem ckptChoice_spares {s : State} (h : s.ckptHdrOk s.ckptChoice = true) : s.ckptHdrOk (1 - s.ckptChoice) = true
    ∧ (s.job.ckptHdrs.getD s.ckptChoice (0, [])).1 ≤ (s.job.ckptHdrs.getD (1 - s.ckptChoice) (0, [])).1 := by
  have hchoice : s.ckptChoice = match s.ckptHdrOk 0, s.ckptHdrOk 1 with
      | true, false => 1
      | true, true =>
        if (s.job.ckptHdrs.getD 1 (0, [])).1 < (s.job.ckptHdrs.getD 0 (0, [])).1 then 1 else 0
      | _, _ => 0 := rfl
  rcases h0 : s.ckptHdrOk 0 with _ | _ <;> rcases h1 : s.ckptHdrOk 1 with _ | _ <;> rw [h0, h1] at hchoice
  · rw [hchoice, h0] at h; cases h
  · rw [hchoice, h0] at h; cases h
  · rw [hchoice, h1] at h; cases h
  · dsimp only at hchoice
    split at hchoice
    next hlt => rw [hchoice]; exact ⟨h0, Nat.le_of_lt hlt⟩
    next hge => rw [hchoice]; exact ⟨h1, Nat.le_of_not_lt hge⟩

/-! ## Its content -/

/-- Messages sent one after the other, none of which depends on those before it. -/
theorem sendAll_eq {α : Type} (f : State → α → Tx) (hf : ∀ u tx x, f { u with tx := tx } x = f u x) (l : List α) (s : State) :
    l.foldl (fun u x => send (f u x) u) s = { s with tx := s.tx ++ l.map (f s) } := by
  induction l generalizing s with
  | nil => rw [List.foldl_nil, List.map_nil, List.append_nil]
  | cons x r ih =>
    have hmap : r.map (f (send (f s x) s)) = r.map (f s) := List.map_congr_left fun y _ => hf s _ y
    rw [List.foldl_cons, ih, hmap, List.map_cons, List.append_cons]
    rfl

/-- One write of a content. -/
def ckptPart (base : Nat) (bs : Bytes) (s : State) (i : Nat) : Tx :=
  .nvmeWrite (base + s.ckptBlocks (4096 + i * 2 ^ 20)) ((bs.drop (i * 2 ^ 20)).take (2 ^ 20))

/-- The writes of `n` parts of a content, and the flush of an empty one. -/
def ckptSend (n base : Nat) (bs : Bytes) (s : State) : State :=
  let u := (List.range n).foldl (fun s i => send (ckptPart base bs s i) s)
    { s with bnd := { s.bnd with ckptPhase := 2, writesLeft := n } }
  if n = 0 then ckptFlush u else u

theorem ckptPart_tx (base : Nat) (bs : Bytes) (s : State) (x : List Tx) (i : Nat) :
    ckptPart base bs { s with tx := x } i = ckptPart base bs s i := by
  have hblocks (n : Nat) : State.ckptBlocks { s with tx := x } n = s.ckptBlocks n := rfl
  unfold ckptPart
  rw [hblocks]

theorem ckptPart_bnd (base : Nat) (bs : Bytes) (s : State) (b : Boundary) (i : Nat) :
    ckptPart base bs { s with bnd := b } i = ckptPart base bs s i := by
  have hblocks (n : Nat) : State.ckptBlocks { s with bnd := b } n = s.ckptBlocks n := rfl
  unfold ckptPart
  rw [hblocks]

theorem ckptSend_eq (n base : Nat) (bs : Bytes) (s : State) : ckptSend n base bs s = { s with
    bnd := { s.bnd with ckptPhase := if n = 0 then 3 else 2, writesLeft := n }
    tx := s.tx ++ (List.range n).map (ckptPart base bs s) ++ if n = 0 then [.nvmeFlush] else [] } := by
  have hmap (b : Boundary) : (List.range n).map (ckptPart base bs { s with bnd := b }) = (List.range n).map (ckptPart base bs s) :=
    List.map_congr_left fun i _ => ckptPart_bnd base bs s b i
  unfold ckptSend
  rw [sendAll_eq (ckptPart base bs) (fun u x i => ckptPart_tx base bs u x i), hmap]
  dsimp only
  generalize (List.range n).map (ckptPart base bs s) = l
  by_cases hn : n = 0
  · rw [if_pos hn, if_pos hn, if_pos hn]; rfl
  · rw [if_neg hn, if_neg hn, if_neg hn, List.append_nil]

/-- The ranges a checkpoint reads are all good. -/
def State.ckptReadable (s : State) : Bool := (s.blockRanges s.bnd.ckptStep ++ s.rootRanges).all fun r => s.vmGood r.1 r.2

theorem ckptData_eq (s : State) : ckptData s =
    if !s.ckptReadable then s
    else ckptSend (cdiv (s.ckptContent s.bnd.ckptStep).length (2 ^ 20)) (s.ckptLba s.bnd.ckptSlot) (s.ckptContent s.bnd.ckptStep) s := rfl

theorem ckptData_waits {s : State} (h : ∃ r ∈ s.blockRanges s.bnd.ckptStep ++ s.rootRanges, s.vmGood r.1 r.2 = false) :
    ckptData s = s := by
  obtain ⟨r, hr, hbad⟩ := h
  have hall : s.ckptReadable = false := List.all_eq_false.mpr ⟨r, hr, by simp [hbad]⟩
  rw [ckptData_eq, hall]
  rfl

theorem ckptData_writes {s : State} {n : Nat} (h : s.ckptReadable = true)
    (hn : cdiv (s.ckptContent s.bnd.ckptStep).length (2 ^ 20) = n) : (ckptData s).mm = s.mm ∧ (ckptData s).job = s.job
    ∧ (ckptData s).bnd = { s.bnd with ckptPhase := if n = 0 then 3 else 2, writesLeft := n }
    ∧ (ckptData s).tx.length = s.tx.length + if n = 0 then 1 else n := by
  rw [ckptData_eq, h, if_neg (by simp), hn, ckptSend_eq]
  refine ⟨rfl, rfl, rfl, ?_⟩
  rw [List.length_append, List.length_append, List.length_map, List.length_range]
  by_cases h0 : n = 0
  · rw [if_pos h0, if_pos h0, h0]; rfl
  · rw [if_neg h0, if_neg h0]; rfl

/-- One write of the content is acknowledged; the last one is followed by the flush. -/
theorem writeCompleteState_eq {s : State} {n : Nat} (hphase : s.bnd.ckptPhase = 2) (hleft : s.bnd.writesLeft = n + 1) :
    writeCompleteState s = { s with
      bnd := { s.bnd with ckptPhase := if n = 0 then 3 else 2, writesLeft := n }
      tx := s.tx ++ if n = 0 then [.nvmeFlush] else [] } := by
  unfold writeCompleteState
  rw [hphase, hleft]
  dsimp only
  rw [if_pos (by simp), Nat.add_sub_cancel]
  split
  · rfl
  · rw [List.append_nil, ← hphase]

/-! ## Its end -/

/-- The state in which a completed checkpoint is logged. -/
def ckptMarked (s : State) : State :=
  let u := setHdr s.bnd.ckptSlot (s.bnd.ckptStep, s.recipeDigest) s
  { u with job := { u.job with ckptValid := s.bnd.ckptStep, ckptAsked := false } }

theorem ckptDone_eq (s : State) :
    ckptDone s = ckptEnd (logPlain 0 ([4, s.bnd.ckptSlot] ++ w64 s.bnd.ckptStep) (ckptMarked s)) := rfl

theorem ckptDone_valid (s : State) : (ckptDone s).bnd.ckptPhase = 0 ∧ (ckptDone s).bnd.ckptDue = false
    ∧ (ckptDone s).job.ckptValid = s.bnd.ckptStep ∧ (ckptDone s).job.ckptAsked = false
    ∧ (ckptDone s).job.ckptHdrs = s.job.ckptHdrs.set s.bnd.ckptSlot (s.bnd.ckptStep, s.recipeDigest)
    ∧ Logged 0 ([4, s.bnd.ckptSlot] ++ w64 s.bnd.ckptStep) s (ckptDone s) ∧ (ckptDone s).mm = s.mm
    ∧ (ckptDone s).regs = s.regs := by
  rw [ckptDone_eq]
  generalize hd : [4, s.bnd.ckptSlot] ++ w64 s.bnd.ckptStep = d
  have hjob := logAdd_job 0 8 0xFF 0 0xFFFF d (ckptMarked s)
  have hmm := logPlain_mm 0 d (ckptMarked s)
  have hregs := logPlain_regs 0 d (ckptMarked s)
  have hlog := logPlain_logged 0 d (ckptMarked s)
  rw [← logPlain] at hjob
  generalize logPlain 0 d (ckptMarked s) = u at *
  exact ⟨rfl, rfl, (congrArg Job.ckptValid hjob :), (congrArg Job.ckptAsked hjob :), (congrArg Job.ckptHdrs hjob :),
    hlog.congr rfl rfl, hmm, hregs⟩

theorem ckptAbandon_leaves (s : State) : (ckptAbandon s).bnd.ckptPhase = 0 ∧ (ckptAbandon s).bnd.ckptDue = false
    ∧ (ckptAbandon s).job.ckptAsked = true ∧ (ckptAbandon s).localUs = s.localUs
    ∧ (ckptAbandon s).job.ckptHdrs = s.job.ckptHdrs ∧ (ckptAbandon s).job.ckptValid = s.job.ckptValid
    ∧ (ckptAbandon s).counter 0x9100 7 = satAdd 32 (s.counter 0x9100 7) 1 ∧ (ckptAbandon s).mm = s.mm := by
  unfold ckptAbandon
  dsimp only
  generalize [5, (bump 0x9100 7 1 32 s).bnd.ckptSlot] ++ w64 (bump 0x9100 7 1 32 s).bnd.ckptStep = d
  have hcounter : (logPlain 0 d (bump 0x9100 7 1 32 s)).counter 0x9100 7 = satAdd 32 (s.counter 0x9100 7) 1 :=
    ((logAdd_tells 0 8 0xFF 0 0xFFFF d _).counter _ (by decide)).trans (bump_counter_same ..)
  have hjob := logAdd_job 0 8 0xFF 0 0xFFFF d (bump 0x9100 7 1 32 s)
  have hmm := logPlain_mm 0 d (bump 0x9100 7 1 32 s)
  have hus := logPlain_localUs 0 d (bump 0x9100 7 1 32 s)
  rw [← logPlain] at hjob
  generalize logPlain 0 d (bump 0x9100 7 1 32 s) = u at *
  exact ⟨rfl, rfl, rfl, hus, (congrArg Job.ckptHdrs hjob :), (congrArg Job.ckptValid hjob :), hcounter, hmm⟩

/-- What becomes of a checkpoint in a phase when its budget is spent. -/
def ckptLate (phase : Nat) (s : State) : State :=
  match phase with
  | 0 => { s with bnd := { s.bnd with ckptDue := false }, job := { s.job with ckptAsked := true } }
  | 4 => s
  | _ => ckptAbandon s

theorem ckptExpiryState_eq {s : State} (hdue : s.bnd.ckptDue = true) (horder : s.bnd.order = 6 ∨ s.bnd.order = 3) :
    ckptExpiryState s =
      ckptLate s.bnd.ckptPhase { s with localUs := max s.localUs (s.bnd.orderStart + s.params.ckptBudget) } := by
  unfold ckptExpiryState
  rw [hdue, if_neg (by rcases horder with h | h <;> simp [h])]
  rfl

theorem checkpointsAreWrittenInOrder_claim : Sys2Proof.Claims.CheckpointsAreWrittenInOrder := by
  intro s
  refine ⟨fun hmay hgood => ?_, fun hmay hlive hbad => ?_, ckptChoice_spares, fun hphase hbad => ?_,
    fun hphase hgood => ?_, fun n hphase hleft => ?_, fun hphase => ?_, fun hphase => ?_⟩
  · have hstep := ckptWriteState_begins hmay hgood
    exact ⟨ckptBegin s, congrArg Host.Outcome.next hstep, rfl, rfl, List.append_assoc .., rfl, rfl⟩
  · exact ⟨_, rfl, ckptWriteState_halts hmay hlive hbad⟩
  · refine congrArg Host.Outcome.next ?_
    unfold flushState
    rw [hphase]
    exact ckptData_waits hbad
  · have hflush : flushState s = ckptData s := by simp only [flushState, hphase]
    obtain ⟨n, hn⟩ : ∃ n, cdiv (s.ckptContent s.bnd.ckptStep).length (2 ^ 20) = n := ⟨_, rfl⟩
    obtain ⟨hmm, hjob, hbnd, htx⟩ := ckptData_writes (List.all_eq_true.mpr hgood) hn
    refine ⟨ckptData s, congrArg Host.Outcome.next hflush, hmm, hjob, ?_⟩
    dsimp only
    rw [hn]
    exact ⟨hbnd, htx⟩
  · exact ⟨_, congrArg Host.Outcome.next (writeCompleteState_eq hphase hleft), rfl, rfl, rfl⟩
  · have hflush : flushState s = ckptSeal s := by simp only [flushState, hphase]
    exact ⟨_, congrArg Host.Outcome.next hflush, List.append_assoc .., rfl⟩
  · have hflush : flushState s = ckptDone s := by simp only [flushState, hphase]
    exact ⟨_, congrArg Host.Outcome.next hflush, ckptDone_valid s⟩

theorem lateCheckpointsAreAbandoned : Sys2Proof.Claims.LateCheckpointsAreAbandoned := by
  intro s hdue horder now
  have hstep := ckptExpiryState_eq hdue horder
  refine ⟨fun hphase => ?_, fun hphase => ?_, fun hphase => ?_⟩
  · rw [hphase] at hstep
    exact ⟨_, congrArg Host.Outcome.next hstep, rfl⟩
  · rw [hphase] at hstep
    exact ⟨_, congrArg Host.Outcome.next hstep, rfl⟩
  · have hgive : ckptExpiryState s = ckptAbandon { s with localUs := now } := by
      rcases hphase with h | h | h <;> · rw [h] at hstep; exact hstep
    exact ⟨_, congrArg Host.Outcome.next hgive, ckptAbandon_leaves _⟩

end Sys2Proof.Machine

namespace Sys2Proof
open Machine

/-- Settles O53: each phase of a checkpoint is one send or one field; the slot chosen is invalid, or the older of two. -/
theorem checkpointsAreWrittenInOrder : Obligations.CheckpointsAreWrittenInOrder := by
  unfold Obligations.CheckpointsAreWrittenInOrder
  exact ⟨checkpointsAreWrittenInOrder_claim, lateCheckpointsAreAbandoned⟩

end Sys2Proof
end
section
/-! Items put on a group: the group shows the item, every core of it stands at the first entry of its program (R164). -/

namespace Sys2Proof.Machine

theorem start_iterate_descMem (prog k : Nat) (c : CoreSt) : ((fun c : CoreSt => c.start prog)^[k] c).descMem = c.descMem := by
  induction k with
  | zero => rfl
  | succ k ih => rw [Function.iterate_succ_apply']; exact ih

/-- A program started once, or again, stands at its first entry. -/
theorem start_iterate_succ (prog k : Nat) (c : CoreSt) : ((fun c : CoreSt => c.start prog)^[k + 1] c).prog = tget [] c.descMem prog
    ∧ ((fun c : CoreSt => c.start prog)^[k + 1] c).pc = 0 ∧ ((fun c : CoreSt => c.start prog)^[k + 1] c).inflight = [] := by
  rw [Function.iterate_succ_apply']
  refine ⟨?_, rfl, rfl⟩
  change tget [] ((fun c : CoreSt => c.start prog)^[k] c).descMem prog = _
  rw [start_iterate_descMem]

theorem startCores_starts (g prog : Nat) (s : State) : Started g prog s (startCores g prog s) := by
  intro n hn
  have hcore : (startCores g prog s).core n = _ :=
    core_foldl (step := fun s n => setCore n ((s.core n).start prog) s) (f := fun c => c.start prog) (startCores_core prog) (s.groupOf g).cores s n
  obtain ⟨k, hk⟩ : ∃ k, (s.groupOf g).cores.count n = k + 1 :=
    Nat.exists_eq_succ_of_ne_zero (Nat.pos_iff_ne_zero.mp (List.count_pos_iff.mpr hn))
  rw [hcore, hk]
  exact start_iterate_succ prog k (s.core n)

theorem startCores_core_other {g prog : Nat} {s : State} {n : Nat} (hn : n ∉ (s.groupOf g).cores) :
    (startCores g prog s).core n = s.core n :=
  core_foldl_of_not_mem (step := fun s n => setCore n ((s.core n).start prog) s) (f := fun c => c.start prog)
    (startCores_core prog) hn

/-- An item put on a group. -/
structure Placed (g : Nat) (it : Item) (s t : State) : Prop where
  item : (t.group g).item = some it
  pos : (t.group g).pos = (s.group g).pos
  started : Started g it.prog s t
  cores : ∀ n, n ∉ (s.groupOf g).cores → t.core n = s.core n
  groups : ∀ k, k ≠ g → t.group k = s.group k
  rest : { t with groups := s.groups, cores := s.cores } = s

theorem putItem_placed (g : Nat) (it : Item) (s : State) : Placed g it s (putItem g it s) := by
  unfold putItem
  dsimp only
  generalize hx : { s.group g with
    item := some it, misses := [], got := LStat.zero, missTime := 0, drained := false
    replays := s.job.replayed.countP fun k => k == it.key g, slotStart := s.localUs, held := none, passed := false } = x
  have hitem : x.item = some it := by rw [← hx]
  have hpos : x.pos = (s.group g).pos := by rw [← hx]
  have hgroups : (startCores g it.prog (setGroup g x s)).groups = (setGroup g x s).groups :=
    startCores_field State.groups (fun _ _ _ => rfl) ..
  have hgroup (k : Nat) : (startCores g it.prog (setGroup g x s)).group k = (setGroup g x s).group k := by
    unfold State.group; rw [hgroups]
  exact {
    item := by rw [hgroup, setGroup_group_same, hitem]
    pos := by rw [hgroup, setGroup_group_same, hpos]
    started := startCores_starts g it.prog (setGroup g x s)
    cores := fun n hn => startCores_core_other (s := setGroup g x s) hn
    groups := fun k hk => by rw [hgroup, setGroup_group_other hk]
    rest := startCores_field (fun t : State => { t with groups := s.groups, cores := s.cores }) (fun _ _ _ => rfl) .. }

theorem Placed.field {β : Type} {g : Nat} {it : Item} {s t : State} (h : Placed g it s t) (f : State → β)
    (hf : ∀ u : State, f { u with groups := s.groups, cores := s.cores } = f u) : f t = f s :=
  (hf t).symm.trans (congrArg f h.rest)

theorem Placed.mm {g : Nat} {it : Item} {s t : State} (h : Placed g it s t) : t.mm = s.mm := h.field State.mm fun _ => rfl
theorem Placed.job {g : Nat} {it : Item} {s t : State} (h : Placed g it s t) : t.job = s.job := h.field State.job fun _ => rfl
theorem Placed.regs {g : Nat} {it : Item} {s t : State} (h : Placed g it s t) : t.regs = s.regs :=
  h.field State.regs fun _ => rfl
theorem Placed.eval {g : Nat} {it : Item} {s t : State} (h : Placed g it s t) : t.eval = s.eval :=
  h.field State.eval fun _ => rfl

/-- An item put on a group of a state with the same groups and cores. -/
theorem Placed.after {g : Nat} {it : Item} {s u t : State} (h : Placed g it u t) (hgroups : u.groups = s.groups)
    (hcores : u.cores = s.cores) (hof : u.groupOf g = s.groupOf g) :
    (t.group g).item = some it ∧ (t.group g).pos = (s.group g).pos ∧ Started g it.prog s t
      ∧ (∀ n, n ∉ (s.groupOf g).cores → t.core n = s.core n) ∧ ∀ k, k ≠ g → t.group k = s.group k := by
  have hgroup (k : Nat) : u.group k = s.group k := by unfold State.group; rw [hgroups]
  have hcore (n : Nat) : u.core n = s.core n := by unfold State.core; rw [hcores]
  refine ⟨h.item, by rw [h.pos, hgroup], fun n hn => ?_, fun n hn => ?_, fun k hk => by rw [h.groups k hk, hgroup]⟩
  · have hstart := h.started n (by rw [hof]; exact hn)
    rwa [hcore] at hstart
  · rw [h.cores n (by rw [hof]; exact hn), hcore]

end Sys2Proof.Machine
end

section
/-! Evaluation at order 5, the budgets of orders 5 and 7, and responses that do not arrive (R31, R182 to R184, R207, R340). -/

namespace Sys2Proof.Machine

/-- The item of an evaluation layer. -/
def evalItem (x : Segment) (pos : Option Nat) (l : Nat) (s : State) : Item :=
  ⟨.eval x.id pos, l, pos.getD 0, match s.layer? l with | some x => x.fProg | none => 0xFFFF⟩

/-- The state in which a segment's first layer is put on its group. -/
def evalReady (x : Segment) (pos : Option Nat) (l : Nat) (s : State) : State :=
  { addElective (s.segEst x) s with eval := { s.eval with est := s.segEst x, running := some (x.id, pos, l) } }

theorem evalStartState_starts {s : State} {x : Segment} {q : Option InboxReq} {l : Nat} {r : List Nat}
    (horder : s.bnd.order = 5) (hfree : s.eval.running = none) (hnext : s.nextEval = some (x, q))
    (hfits : s.evalFits x = true) (hfed : s.evalFed x = true) (hidle : (s.group x.group).item = none)
    (hpiece : s.pieceOn x.group = false) (hlayers : s.segLayers x = l :: r) :
    evalStartState s = putItem x.group (evalItem x (q.map (·.pos)) l s) (evalReady x (q.map (·.pos)) l s) := by
  unfold evalStartState
  simp only [horder, hfree, hnext, hfits, hfed, hidle, hpiece, hlayers, bne_self_eq_false, Option.isSome_none, Bool.or_self,
    Bool.not_true, Bool.false_eq_true, if_false]
  rfl

theorem evaluationRunsAtOrderFive : Sys2Proof.Claims.EvaluationRunsAtOrderFive := by
  intro s x q l r horder
  refine ⟨fun hfree hnext hfits hfed hidle hpiece hlayers => ?_, fun hnone => ?_, fun hdiag => ?_⟩
  · have hstate := evalStartState_starts horder hfree hnext hfits hfed hidle hpiece hlayers
    have hplaced := putItem_placed x.group (evalItem x (q.map (·.pos)) l s) (evalReady x (q.map (·.pos)) l s)
    refine ⟨_, evalItem x (q.map (·.pos)) l s, congrArg Host.Outcome.next hstate, ?_⟩
    obtain ⟨hitem, _, hstarted, _, hgroups⟩ := hplaced.after (s := s) rfl rfl rfl
    exact ⟨congrArg Eval.running hplaced.eval, hitem, rfl, rfl, hstarted, hgroups, hplaced.job, hplaced.mm⟩
  · refine congrArg Host.Outcome.next ?_
    unfold evalStartState
    rw [hnone]
    split <;> rfl
  · refine ⟨_, congrArg Host.Outcome.next (if_pos (by simp [horder, hdiag])), fun y => ?_, rfl⟩
    unfold State.evalFits
    change (s.isDiag || _) = false
    rw [hdiag]
    simp

/-- A lost response: one more is counted, and nothing is sent again. -/
theorem responseLost_lost {k u : Nat} {s : State} (wait : Nat) (h : klook s.eval.posted k = some u) :
    (responseLost k wait s).localUs = (if wait = 0 then s.localUs else max s.localUs (u + wait))
      ∧ klook (responseLost k wait s).eval.posted k = none
      ∧ (responseLost k wait s).counter 0x9200 3 = satAdd 64 (s.counter 0x9200 3) 1 ∧ (responseLost k wait s).tx = s.tx
      ∧ (responseLost k wait s).eval = { s.eval with posted := (responseLost k wait s).eval.posted }
      ∧ (responseLost k wait s).job = s.job := by
  unfold responseLost
  rw [h]
  exact ⟨rfl, klook_kdel_same .., bump_counter_same .., rfl, rfl, rfl⟩

theorem responseLost_none {k : Nat} {s : State} (wait : Nat) (h : klook s.eval.posted k = none) : responseLost k wait s = s := by
  unfold responseLost
  rw [h]

theorem budgetsAndLostResponses : Sys2Proof.Claims.BudgetsAndLostResponses := by
  intro s k u
  refine ⟨fun horder => ?_, fun hposted => ⟨?_, ?_⟩, fun hnone => ⟨?_, ?_⟩⟩
  · refine ⟨_, congrArg Host.Outcome.next (if_pos horder), ?_, rfl⟩
    unfold State.order7
    simp
  · exact ⟨_, rfl, responseLost_lost 1000000 hposted⟩
  · exact ⟨_, rfl, responseLost_lost 0 hposted⟩
  · exact congrArg Host.Outcome.next (responseLost_none _ hnone)
  · exact congrArg Host.Outcome.next (responseLost_none _ hnone)

end Sys2Proof.Machine

namespace Sys2Proof
open Machine

/-- Settles O52: the item of the first layer is put on the segment's group; a spent budget fits nothing more. -/
theorem evaluationAndBudgets : Obligations.EvaluationAndBudgets := by
  unfold Obligations.EvaluationAndBudgets
  exact ⟨evaluationRunsAtOrderFive, budgetsAndLostResponses⟩

end Sys2Proof
end
section
/-! The first slot of the next step (order 8, R264). Where nothing of the step came early, the step begins with no work and no
attempt behind it. -/

namespace Sys2Proof.Machine

/-- The step after the committed one, at its first slot. -/
def stepBegun (s : State) : State :=
  let u := clearAttempt s
  { u with
    job := { u.job with step := s.job.committed + 1, attempt := 0, causes := [], fencedInStep := 0, logInStep := 0
                        loggedOnce := [], replayed := [], eccLogged := [], stepStart := s.localUs, abortAsked := false }
    fab := { u.fab with counted := [] }
    gov := { u.gov with gateLogged := false, minMv := s.gov.vcore.foldl min 0xFFFF, powerSum := 0, powerN := 0 }
    bnd := Boundary.reset
    coll := { u.coll with held := s.coll.held.filter fun x => decide (s.job.committed + 1 < x.2.step) } }

theorem deliverEarly_quiet {s : State} (h : ∀ p ∈ s.coll.early, p.step ≠ s.job.step) : deliverEarly s = s := by
  have hmine : (s.coll.early.filter fun p => p.kind != 0 && p.step == s.job.step && p.attempt == s.job.attempt) = [] := by
    rw [List.filter_eq_nil_iff]
    intro p hp
    simp [h p hp]
  have hrest : (s.coll.early.filter fun p => !(p.kind != 0 && p.step == s.job.step && p.attempt == s.job.attempt))
      = s.coll.early := by
    rw [List.filter_eq_self]
    intro p hp
    simp [h p hp]
  unfold deliverEarly
  dsimp only
  rw [hmine, hrest]
  rfl

theorem takeHeld_quiet {s : State} (h : ∀ x ∈ s.coll.held, x.2.step ≠ s.job.step) : takeHeld s = { s with
    coll := { s.coll with held := s.coll.held.filter fun x => decide (s.job.step < x.2.step) } } := by
  have hnow : (s.coll.held.filter fun x => x.2.step == s.job.step) = [] := by
    rw [List.filter_eq_nil_iff]
    intro x hx
    simp [h x hx]
  unfold takeHeld
  dsimp only
  rw [hnow]
  rfl

theorem catchUpEarly_quiet {s : State} (h : ∀ p ∈ s.coll.early, p.step ≠ s.job.step) : catchUpEarly s = s := by
  have key (l : List Packet) (u : State) (hl : ∀ p ∈ l, p.step ≠ u.job.step) :
      l.foldl (fun s p => if p.step = s.job.step then catchUp p.attempt STEP_REPEAT_FAULT p.src 16 s else s) u = u := by
    induction l with
    | nil => rfl
    | cons p r ih =>
      rw [List.foldl_cons, if_neg (hl p List.mem_cons_self)]
      exact ih fun q hq => hl q (List.mem_cons_of_mem p hq)
  exact key _ s h

theorem startStep_quiet {s : State} (h : NothingEarly (s.job.committed + 1) s) : startStep s = stepBegun s := by
  obtain ⟨hheld, hearly⟩ := h
  unfold startStep startAttempt
  dsimp only
  rw [deliverEarly_quiet (by exact hearly), takeHeld_quiet (by exact hheld), catchUpEarly_quiet (by exact hearly)]
  rfl

end Sys2Proof.Machine
end

section
/-! The inbox scan and the answers to refused requests (orders 4 and 5, R338 to R340). They reach evaluation, the inbox region,
counters and messages alone. -/

namespace Sys2Proof.Machine

/-- All but what the scan of the inbox and responses reach. -/
def State.besideInbox (s : State) : State := { s with eval := Eval.reset, mm := MemSt.reset, counters := [], tx := [] }

theorem besideInbox_eval (e : Eval) (s : State) : ({ s with eval := e } : State).besideInbox = s.besideInbox := rfl

theorem dropShort_besideInbox (s : State) (x : InboxReq × Nat) : (dropShort s x).besideInbox = s.besideInbox := rfl

theorem queueRequest_besideInbox (s : State) (x : InboxReq × Nat) (pos : Nat) :
    (queueRequest s x pos).besideInbox = s.besideInbox := by
  unfold queueRequest
  dsimp only
  split <;> rfl

theorem scanInbox_besideInbox (s : State) : (scanInbox s).besideInbox = s.besideInbox := by
  unfold scanInbox
  dsimp only
  rw [foldl_field State.besideInbox (f := fun s (x : (InboxReq × Nat) × Nat) => queueRequest s x.1 x.2)
    fun s x => queueRequest_besideInbox s x.1 x.2]
  generalize List.filter (fun x : InboxReq × Nat => decide (x.1.respLen < 72)) _ = l
  exact (besideInbox_eval _ _).trans (foldl_field State.besideInbox dropShort_besideInbox l s)

theorem postRefused_besideInbox (s : State) : (postRefused s).besideInbox = s.besideInbox := by
  unfold postRefused
  exact foldl_field State.besideInbox (f := fun s q => respond q DESCRIPTOR_INVALID [] s) (fun _ _ => rfl) _ _

theorem postRefused_dueSegs (s : State) : (postRefused s).eval.dueSegs = s.eval.dueSegs := by
  unfold postRefused
  exact foldl_field (fun t : State => t.eval.dueSegs) (f := fun s q => respond q DESCRIPTOR_INVALID [] s) (fun _ _ => rfl) _ _

/-- Order 5 begins. -/
def evalBegun (s : State) : State :=
  { s with bnd := { s.bnd with order := 5, orderStart := s.localUs }, eval := { s.eval with spent := 0 } }

theorem beginEval_besideInbox (s : State) : (beginEval s).besideInbox = (evalBegun s).besideInbox := by
  unfold beginEval
  dsimp only
  split
  · exact postRefused_besideInbox _
  · rfl

theorem beginEval_dueSegs (s : State) : (beginEval s).eval.dueSegs = s.eval.dueSegs := by
  unfold beginEval
  dsimp only
  split
  · exact postRefused_dueSegs _
  · rfl

theorem mem_dueSegs {n : Nat} {s : State} {x : Segment} (hx : x ∈ s.segments) (hperiod : x.period ≠ 0)
    (hdue : n % x.period = 0) : x.id ∈ (dueSegments n s).eval.dueSegs := by
  have hmem : x.id ∈ (s.segments.filter fun g => g.period != 0 && n % g.period == 0).map (·.id) :=
    List.mem_map_of_mem (List.mem_filter.mpr ⟨hx, by simp [hperiod, hdue]⟩)
  unfold dueSegments
  dsimp only
  rw [List.mem_mergeSort, List.mem_eraseDups, List.mem_append]
  exact .inr hmem

end Sys2Proof.Machine
end

section
/-! The orders of a step boundary (R31, R33, Table 01.6). -/

namespace Sys2Proof.Machine

/-- A change to a live job state keeps an ACTIVE device ACTIVE. -/
theorem setJob_live_active {j : JobState} {c : Nat} {s : State} (hlive : j.live = true) (h : s.dev.st = .active) :
    (setJob j c s).dev.st = .active := by
  unfold setJob
  split
  · exact h
  · dsimp only
    generalize hu : raiseEvent (mkEvent (jobRecord j c s) 2 _ 0x5000 1 _ []) (jobRecord j c s) = u
    have hdev : u.dev = s.dev := by rw [← hu, raiseEvent_dev]; rfl
    have hst : u.dev.st = .active := by rw [hdev]; exact h
    unfold followJob
    rw [if_neg (by simp [hst]), if_neg (by simp [hlive])]
    exact hst

theorem publishRecord_published (s : State) : (publishRecord s).record = stepRecord s
    ∧ klook (publishRecord s).history (s.job.committed % 4096) = some (stepRecord s) ∧ (publishRecord s).job = s.job
    ∧ (publishRecord s).regs = s.regs ∧ (publishRecord s).sec = s.sec := by
  unfold publishRecord
  dsimp only
  generalize stepRecord s = r
  refine ⟨rfl, ?_, raiseEvent_job .., raiseEvent_regs .., raiseEvent_sec ..⟩
  rw [raiseEvent_job]
  exact klook_tset_same ..

theorem takeCommand_some {s : State} {c : JobCmd} (h : s.job.pend = some c) : takeCommand s = { s with
    job := if c = .checkpointNow then { s.job with pend := none, ckptAsked := true }
      else { s.job with pend := none, taken := some c } } := by
  unfold takeCommand
  rw [h]
  cases c <;> rfl

theorem takeCommand_none {s : State} (h : s.job.pend = none) : takeCommand s = s := by
  unfold takeCommand
  rw [h]

/-- Order 7 begins. -/
theorem beginOrder7_begins (s : State) : (beginOrder7 s).bnd = { s.bnd with order := 7, orderStart := s.localUs }
    ∧ (beginOrder7 s).mm.retirePending = [] ∧ (beginOrder7 s).leaven.closed = !s.eff.elective
    ∧ (beginOrder7 s).job = s.job ∧ (beginOrder7 s).mm.mem = s.mm.mem ∧ (beginOrder7 s).regs = s.regs
    ∧ (beginOrder7 s).sec = s.sec := by
  have hstops := retirePages_stops (setOrder 7 s)
  have hpending : (retirePages (setOrder 7 s)).mm.retirePending = [] := by
    unfold retirePages
    split
    next h => exact List.isEmpty_iff.mp h
    · rfl
  unfold beginOrder7
  dsimp only
  refine ⟨hstops.bnd, hpending, ?_, retirePages_job _, retirePages_mem _, hstops.regs, hstops.sec⟩
  rw [hstops.eff]
  rfl

theorem followJob_eval (o j : JobState) (s : State) : (followJob o j s).eval = s.eval := by
  unfold followJob
  split
  · exact setDev_eval ..
  · split
    · exact setDev_eval ..
    · rfl

/-- A job that stops serves nobody; the last served words stay (R340). -/
theorem setJob_served (j : JobState) (c : Nat) (s : State) : (setJob j c s).eval.served = s.eval.served := by
  unfold setJob
  split
  · rfl
  · dsimp only
    rw [followJob_eval, raiseEvent_eval]
    unfold jobRecord
    dsimp only
    split <;> rfl

/-- A stopped job is LOADED, serves nobody and leaves every hearth at 0.55 V. -/
theorem stopJob_stopped (s : State) : (stopJob s).job.st = .loaded ∧ (stopJob s).gov.vcore = [550, 550, 550, 550]
    ∧ (stopJob s).job.committed = s.job.committed ∧ (stopJob s).mm = s.mm ∧ (stopJob s).eval.queue = []
    ∧ (stopJob s).eval.served = s.eval.served ∧ (stopJob s).bnd.order = 0 ∧ (stopJob s).regs = s.regs
    ∧ (stopJob s).sec = s.sec ∧ (stopJob s).localUs = s.localUs := by
  unfold stopJob
  generalize hu : ({ s with
    job := { s.job with taken := none }, bnd := Boundary.reset
    coll := { s.coll with digests := [], digestSent := false, released := false, answered := [] } } : State) = u
  have hjob : u.job = { s.job with taken := none } := by rw [← hu]
  have hbnd : u.bnd = Boundary.reset := by rw [← hu]
  have hmm : u.mm = s.mm := by rw [← hu]
  have heval : u.eval = s.eval := by rw [← hu]
  have hregs : u.regs = s.regs := by rw [← hu]
  have hsec : u.sec = s.sec := by rw [← hu]
  have hus : u.localUs = s.localUs := by rw [← hu]
  have hset := setJob_job_eq .loaded 0 u
  have hcommitted : (setJob .loaded 0 u).job.committed = u.job.committed := (congrArg Job.committed hset :)
  have hserved := setJob_served .loaded 0 u
  refine ⟨setJob_job_st .., rfl, hcommitted.trans (by rw [hjob]), (setJob_mm ..).trans hmm, rfl, ?_, ?_,
    (setJob_regs ..).trans hregs, (setJob_sec ..).trans hsec, (setJob_localUs ..).trans hus⟩
  · exact hserved.trans (congrArg Eval.served heval)
  · exact congrArg Boundary.order ((setJob_bnd ..).trans hbnd)

/-- A boundary under way. -/
theorem boundaryState_eq {s : State} (hstep : s.job.st.stepping = true) (hdiag : s.isDiag = false) :
    boundaryState s = match s.bnd.order with
      | 2 => setOrder 3 (publishRecord s)
      | 3 => setOrder 4 (takeCommand s)
      | 4 => beginEval { dueSegments s.job.committed (scanInbox s) with
          bnd := { (scanInbox s).bnd with ckptDue := (scanInbox s).ckptDueAt (scanInbox s).job.committed } }
      | 5 => if s.evalOpen then s else setOrder 6 s
      | 6 =>
        if s.bnd.ckptDue && !s.eff.elective && s.bnd.ckptPhase == 0 then
          beginOrder7 { s with bnd := { s.bnd with ckptDue := false }, job := { s.job with ckptAsked := true } }
        else if s.bnd.ckptDue then s else beginOrder7 s
      | 7 => setOrder 8 { s with leaven := { s.leaven with closed := true } }
      | 8 => order8 s
      | _ => s := by
  unfold boundaryState
  rw [hstep, hdiag]
  rfl

end Sys2Proof.Machine
end
section
/-! A step boundary's events one by one, and the cycle of a paused job (R31, R33, R34). -/

namespace Sys2Proof.Machine

section
variable {s t : State} (h : t.besideInbox = s.besideInbox)
include h

theorem job_of_besideInbox : t.job = s.job := (congrArg State.job h :)
theorem bnd_of_besideInbox : t.bnd = s.bnd := (congrArg State.bnd h :)
theorem regs_of_besideInbox : t.regs = s.regs := (congrArg State.regs h :)
theorem sec_of_besideInbox : t.sec = s.sec := (congrArg State.sec h :)
theorem coll_of_besideInbox : t.coll = s.coll := (congrArg State.coll h :)
theorem localUs_of_besideInbox : t.localUs = s.localUs := (congrArg State.localUs h :)
theorem recipe_of_besideInbox : t.recipe = s.recipe := (congrArg State.recipe h :)

end

/-! ## Orders 2 to 5 -/

/-- The inbox has been scanned and the segments due at the boundary have joined. -/
def scannedState (s : State) : State :=
  { dueSegments s.job.committed (scanInbox s) with
    bnd := { (scanInbox s).bnd with ckptDue := (scanInbox s).ckptDueAt (scanInbox s).job.committed } }

/-- It is known whether a checkpoint is due. -/
def dueKnown (s : State) : State := { s with bnd := { s.bnd with ckptDue := s.ckptDueAt s.job.committed } }

theorem ckptDueAt_congr {s t : State} (hjob : t.job = s.job) (hrecipe : t.recipe = s.recipe) (n : Nat) :
    t.ckptDueAt n = s.ckptDueAt n := by
  unfold State.ckptDueAt State.ing State.cont
  rw [hjob, hrecipe]

theorem scannedState_besideInbox (s : State) : (scannedState s).besideInbox = (dueKnown s).besideInbox := by
  have hscan := scanInbox_besideInbox s
  have hjob := job_of_besideInbox hscan
  have hdue := ckptDueAt_congr hjob (recipe_of_besideInbox hscan) s.job.committed
  have hbnd := bnd_of_besideInbox hscan
  unfold scannedState
  generalize scanInbox s = u at hscan hjob hdue hbnd
  rw [hjob, hdue, hbnd]
  exact congrArg (fun w : State => { w with bnd := { s.bnd with ckptDue := s.ckptDueAt s.job.committed } }) hscan

theorem scannedState_dueSegs {s : State} {x : Segment} (hx : x ∈ s.segments) (hperiod : x.period ≠ 0)
    (hdue : s.job.committed % x.period = 0) : x.id ∈ (scannedState s).eval.dueSegs := by
  have hrecipe := recipe_of_besideInbox (scanInbox_besideInbox s)
  have hsegments : (scanInbox s).segments = s.segments := by
    unfold State.segments State.cont
    rw [hrecipe]
  exact mem_dueSegs (by rw [hsegments]; exact hx) hperiod hdue

/-- The boundary's order 4 ends as its order 5 begins. -/
theorem evaluationBegins (s : State) : (beginEval (scannedState s)).bnd
      = { s.bnd with order := 5, orderStart := s.localUs, ckptDue := s.ckptDueAt s.job.committed }
    ∧ (beginEval (scannedState s)).job = s.job ∧ (beginEval (scannedState s)).regs = s.regs
    ∧ (beginEval (scannedState s)).sec = s.sec
    ∧ ∀ x ∈ s.segments, x.period ≠ 0 → s.job.committed % x.period = 0 → x.id ∈ (beginEval (scannedState s)).eval.dueSegs := by
  have hbegin := beginEval_besideInbox (scannedState s)
  have hscanned := scannedState_besideInbox s
  have hsegs := beginEval_dueSegs (scannedState s)
  have hdue (x : Segment) (hx : x ∈ s.segments) (hp : x.period ≠ 0) (hd : s.job.committed % x.period = 0) :=
    scannedState_dueSegs hx hp hd
  generalize beginEval (scannedState s) = t at hbegin hsegs
  generalize scannedState s = u at hbegin hscanned hsegs hdue
  have hjob : u.job = (dueKnown s).job := job_of_besideInbox hscanned
  have hregs : u.regs = (dueKnown s).regs := regs_of_besideInbox hscanned
  have hsec : u.sec = (dueKnown s).sec := sec_of_besideInbox hscanned
  refine ⟨?_, (job_of_besideInbox hbegin).trans hjob, (regs_of_besideInbox hbegin).trans hregs,
    (sec_of_besideInbox hbegin).trans hsec, fun x hx hp hd => by rw [hsegs]; exact hdue x hx hp hd⟩
  rw [bnd_of_besideInbox hbegin, evalBegun, bnd_of_besideInbox hscanned, localUs_of_besideInbox hscanned]
  rfl

/-! ## Order 8 -/

/-- A job that resumes, or goes on, begins its next step. -/
theorem stepBegun_begins (s : State) : (stepBegun s).job.st = s.job.st ∧ (stepBegun s).job.step = s.job.committed + 1
    ∧ (stepBegun s).job.attempt = 0 ∧ (stepBegun s).job.committed = s.job.committed ∧ (stepBegun s).bnd.order = 0
    ∧ (stepBegun s).regs = s.regs ∧ (stepBegun s).sec = s.sec ∧ (stepBegun s).localUs = s.localUs :=
  ⟨rfl, rfl, rfl, rfl, rfl, rfl, rfl, rfl⟩

/-- The job with no command taken. -/
def untaken (s : State) : State := { s with job := { s.job with taken := none } }

theorem order8_halts {c : Nat} {s : State} (h : s.job.haltPend = some c) : order8 s = haltNow c s := by
  unfold order8; rw [h]

theorem order8_steps {s : State} (h : s.job.haltPend = none) (htaken : s.job.taken = none) :
    order8 s = startStep (untaken s) := by
  unfold order8; rw [h, htaken]; rfl

theorem order8_pauses {s : State} (h : s.job.haltPend = none) (htaken : s.job.taken = some .pause) :
    order8 s = setJob .paused 0 { untaken s with bnd := Boundary.reset } := by
  unfold order8; rw [h, htaken]; rfl

theorem order8_stops {s : State} (h : s.job.haltPend = none) (htaken : s.job.taken = some .stop) : order8 s = stopJob s := by
  unfold order8; rw [h, htaken]

/-- A paused job keeps its device ACTIVE and its memory. -/
theorem paused_pauses (s : State) : (setJob .paused 0 s).job.st = .paused ∧ (s.dev.st = .active → (setJob .paused 0 s).dev.st = .active)
    ∧ (setJob .paused 0 s).job.committed = s.job.committed ∧ (setJob .paused 0 s).mm = s.mm
    ∧ (setJob .paused 0 s).regs = s.regs ∧ (setJob .paused 0 s).sec = s.sec := by
  have hjob := setJob_job_eq .paused 0 s
  have hcommitted : (setJob .paused 0 s).job.committed = s.job.committed := (congrArg Job.committed hjob :)
  exact ⟨setJob_job_st .., setJob_live_active rfl, hcommitted, setJob_mm .., setJob_regs .., setJob_sec ..⟩

theorem live_of_stepping {j : JobState} (h : j.stepping = true) : j.live = true := by
  cases j <;> simp_all [JobState.stepping, JobState.live]

theorem boundaryKeepsItsOrder_claim : Sys2Proof.Claims.BoundaryKeepsItsOrder := by
  intro s hstep hdiag after
  have hstate := boundaryState_eq hstep hdiag
  refine ⟨fun horder => ?_, fun horder => ?_, fun c horder hpend => ?_, fun horder hpend => ?_, fun horder => ?_,
    fun horder hopen => ?_, fun horder hopen => ?_, fun horder hdue => ?_, fun horder hdue hno => ?_,
    fun horder hdue hoff hphase => ?_, fun horder => ?_, fun horder hhalt htaken hearly => ?_,
    fun horder hhalt htaken => ?_, fun horder hhalt htaken => ?_, fun c horder hhalt => ?_⟩
  · rw [horder] at hstate
    exact congrArg Host.Outcome.next hstate
  · rw [horder] at hstate
    obtain ⟨hrecord, hhistory, hjob, hregs, hsec⟩ := publishRecord_published s
    exact ⟨_, congrArg Host.Outcome.next hstate, hregs, hsec, rfl, hrecord, hhistory, hjob⟩
  · rw [horder, takeCommand_some hpend] at hstate
    refine ⟨_, congrArg Host.Outcome.next hstate, rfl, rfl, rfl, ?_⟩
    by_cases hc : c = .checkpointNow
    · subst hc
      exact ⟨rfl, rfl⟩
    · dsimp only [setOrder]
      rw [if_neg hc, if_neg hc]
      exact ⟨rfl, rfl⟩
  · rw [horder, takeCommand_none hpend] at hstate
    exact ⟨_, congrArg Host.Outcome.next hstate, rfl, rfl, rfl, rfl⟩
  · rw [horder] at hstate
    obtain ⟨hbnd, hjob, hregs, hsec, hsegs⟩ := evaluationBegins s
    exact ⟨_, congrArg Host.Outcome.next hstate, hregs, hsec, congrArg Boundary.order hbnd, congrArg Boundary.ckptDue hbnd,
      hjob, hsegs⟩
  · rw [horder, hopen] at hstate
    exact ⟨_, congrArg Host.Outcome.next hstate, rfl, rfl, rfl⟩
  · rw [horder, hopen] at hstate
    exact congrArg Host.Outcome.next hstate
  · rw [horder, hdue] at hstate
    obtain ⟨hbnd, hretire, hclosed, hjob, hmem, hregs, hsec⟩ := beginOrder7_begins s
    exact ⟨_, congrArg Host.Outcome.next hstate, hregs, hsec, congrArg Boundary.order hbnd, hretire, hclosed, hjob, hmem⟩
  · have hwait : (s.bnd.ckptDue && !s.eff.elective && s.bnd.ckptPhase == 0) = false := by
      rcases hno with h | h <;> simp [h]
    rw [horder, hwait, hdue] at hstate
    exact congrArg Host.Outcome.next hstate
  · rw [horder, hdue, hoff, hphase] at hstate
    obtain ⟨hbnd, _, _, hjob, hmem, hregs, hsec⟩ :=
      beginOrder7_begins { s with bnd := { s.bnd with ckptDue := false }, job := { s.job with ckptAsked := true } }
    exact ⟨_, congrArg Host.Outcome.next hstate, hregs, hsec, congrArg Boundary.order hbnd, congrArg Boundary.ckptDue hbnd,
      hjob, hmem⟩
  · rw [horder] at hstate
    exact ⟨_, congrArg Host.Outcome.next hstate, rfl, rfl, rfl, rfl, rfl⟩
  · rw [horder] at hstate
    have hbegun := (hstate.trans (order8_steps hhalt htaken)).trans (startStep_quiet (s := untaken s) hearly)
    exact ⟨_, congrArg Host.Outcome.next hbegun, rfl, rfl, rfl, rfl, rfl, rfl, rfl⟩
  · rw [horder] at hstate
    obtain ⟨hst, hactive, hcommitted, hmm, hregs, hsec⟩ := paused_pauses { untaken s with bnd := Boundary.reset }
    exact ⟨_, congrArg Host.Outcome.next (hstate.trans (order8_pauses hhalt htaken)), hregs, hsec, hst, hactive, hcommitted,
      hmm⟩
  · rw [horder] at hstate
    obtain ⟨hst, hvcore, hcommitted, hmm, hqueue, hserved, _, hregs, hsec, _⟩ := stopJob_stopped s
    exact ⟨_, congrArg Host.Outcome.next (hstate.trans (order8_stops hhalt htaken)), hregs, hsec, hst, hvcore, hcommitted, hmm,
      hqueue, hserved⟩
  · rw [horder] at hstate
    have hhalted : Halted c s (haltNow c s) := haltNow_halted (.inl (live_of_stepping hstep))
    obtain ⟨_, _, _, _, _, _, _, hregs, hsec⟩ := id hhalted
    exact ⟨_, congrArg Host.Outcome.next (hstate.trans (order8_halts hhalt)), hregs, hsec, hhalted⟩

/-! ## The cycle of a paused job -/

/-- A cycle begins: values written since the last boundary come into force. -/
def cycleBegun (s : State) : State :=
  let now := max s.localUs (s.bnd.started + 1000)
  { s with localUs := now, eff := s.regs, bnd := { Boundary.reset with order := 4, started := now, orderStart := now } }

theorem pausedState_begins {s : State} (hst : s.job.st = .paused) (h3 : s.bnd.order ≠ 3)
    (h5 : s.bnd.order ≠ 5 ∨ s.evalOpen = false) (htaken : s.job.taken = none) :
    pausedState s = pausedCommand (cycleBegun s) := by
  unfold pausedState
  rw [if_neg (by simp [hst]), if_neg h3, if_neg (by rcases h5 with h | h <;> simp [h]), htaken]
  rfl

theorem pausedState_ends {s : State} {c : JobCmd} (hst : s.job.st = .paused) (h3 : s.bnd.order ≠ 3)
    (h5 : s.bnd.order ≠ 5 ∨ s.evalOpen = false) (htaken : s.job.taken = some c) : pausedState s = pausedEnd s := by
  unfold pausedState
  rw [if_neg (by simp [hst]), if_neg h3, if_neg (by rcases h5 with h | h <;> simp [h]), htaken]
  rfl

/-- The state a cycle's evaluation begins in. -/
def served (s : State) : State := beginEval (scanInbox s)

theorem served_besideInbox (s : State) : (served s).besideInbox = (evalBegun s).besideInbox := by
  have hscan := scanInbox_besideInbox s
  have hbegin := beginEval_besideInbox (scanInbox s)
  unfold served
  generalize scanInbox s = u at *
  have hbegun := congrArg (fun v : State => { v with
    bnd := { v.bnd with order := 5, orderStart := v.localUs }, eval := Eval.reset }) hscan
  exact hbegin.trans hbegun

theorem pausedServe_eq (s : State) : pausedServe s = if (served s).evalOpen then served s else pausedEnd (served s) := rfl

theorem pausedCommand_takes {s : State} {c : JobCmd} (h : s.job.pend = some c) (hc : c ≠ .checkpointNow) :
    pausedCommand s = pausedServe { s with job := { s.job with pend := none, taken := some c } } := by
  unfold pausedCommand
  rw [takeCommand_some h, if_neg hc]
  rfl

/-- A job that resumes runs its next step. -/
theorem resume_begins {s : State} (hearly : NothingEarly (s.job.committed + 1) s) :
    startStep (setJob .running 0 (untaken s)) = stepBegun (setJob .running 0 (untaken s))
    ∧ (stepBegun (setJob .running 0 (untaken s))).job.st = .running
    ∧ (stepBegun (setJob .running 0 (untaken s))).job.step = s.job.committed + 1
    ∧ (stepBegun (setJob .running 0 (untaken s))).bnd.order = 0
    ∧ (stepBegun (setJob .running 0 (untaken s))).regs = s.regs ∧ (stepBegun (setJob .running 0 (untaken s))).sec = s.sec
    ∧ (stepBegun (setJob .running 0 (untaken s))).localUs = s.localUs
    ∧ (stepBegun (setJob .running 0 (untaken s))).job.committed = s.job.committed := by
  have hcommitted : (setJob .running 0 (untaken s)).job.committed = s.job.committed :=
    (congrArg Job.committed (setJob_job_eq .running 0 (untaken s)) :)
  have hcoll : (setJob .running 0 (untaken s)).coll = s.coll := setJob_coll ..
  have hst := setJob_job_st .running 0 (untaken s)
  have hregs : (setJob .running 0 (untaken s)).regs = s.regs := setJob_regs ..
  have hsec : (setJob .running 0 (untaken s)).sec = s.sec := setJob_sec ..
  have hus : (setJob .running 0 (untaken s)).localUs = s.localUs := setJob_localUs ..
  generalize setJob .running 0 (untaken s) = u at *
  have hquiet : startStep u = stepBegun u := by
    refine startStep_quiet ?_
    unfold NothingEarly
    rw [hcommitted, hcoll]
    exact hearly
  obtain ⟨h1, h2, _, h4, h5, h6, h7, h8⟩ := stepBegun_begins u
  exact ⟨hquiet, h1.trans hst, by rw [h2, hcommitted], h5, h6.trans hregs, h7.trans hsec, h8.trans hus, h4.trans hcommitted⟩

theorem pausedEnd_resumes {s : State} (h : s.job.taken = some .resume) :
    pausedEnd s = startStep (setJob .running 0 (untaken s)) := by
  unfold pausedEnd; rw [h]; rfl

theorem pausedEnd_stops {s : State} (h : s.job.taken = some .stop) : pausedEnd s = stopJob s := by
  unfold pausedEnd; rw [h]

theorem pausedEnd_none {s : State} (h : s.job.taken = none) : pausedEnd s = s := by
  unfold pausedEnd; rw [h]

/-- The cycle took a command at its order 3. -/
def cycleTaken (c : JobCmd) (s : State) : State :=
  { cycleBegun s with job := { s.job with pend := none, taken := some c } }

/-- A cycle serves evaluation first, and its command waits where a request runs. -/
theorem cycle_serves {s : State} {c : JobCmd} (hst : s.job.st = .paused) (h3 : s.bnd.order ≠ 3)
    (h5 : s.bnd.order ≠ 5 ∨ s.evalOpen = false) (htaken : s.job.taken = none) (hpend : s.job.pend = some c)
    (hc : c ≠ .checkpointNow) : pausedState s = if (served (cycleTaken c s)).evalOpen then served (cycleTaken c s)
      else pausedEnd (served (cycleTaken c s)) :=
  (pausedState_begins hst h3 h5 htaken).trans ((pausedCommand_takes (s := cycleBegun s) hpend hc).trans (pausedServe_eq _))

/-- What stands of a cycle's state while it serves. -/
theorem served_cycle (c : JobCmd) (s : State) : (served (cycleTaken c s)).job = { s.job with pend := none, taken := some c }
    ∧ (served (cycleTaken c s)).bnd.order = 5 ∧ (served (cycleTaken c s)).regs = s.regs
    ∧ (served (cycleTaken c s)).sec = s.sec ∧ (served (cycleTaken c s)).coll = s.coll
    ∧ (served (cycleTaken c s)).localUs = max s.localUs (s.bnd.started + 1000) := by
  have h := served_besideInbox (cycleTaken c s)
  generalize served (cycleTaken c s) = t at *
  have hregs := regs_of_besideInbox h
  have hsec := sec_of_besideInbox h
  have hcoll := coll_of_besideInbox h
  exact ⟨job_of_besideInbox h, congrArg Boundary.order (bnd_of_besideInbox h), hregs, hsec, hcoll, localUs_of_besideInbox h⟩

theorem pausedJobsStillServe : Sys2Proof.Claims.PausedJobsStillServe := by
  intro s hst h3 h5 after now resumed stopped serves
  have hserves {c : JobCmd} : serves c (served (cycleTaken c s)) ↔ (served (cycleTaken c s)).evalOpen = true := by
    obtain ⟨hjob, horder, _⟩ := served_cycle c s
    refine ⟨fun h => h.2.2.2.2, fun hopen => ⟨by rw [hjob]; exact hst, by rw [hjob], by rw [hjob], horder, hopen⟩⟩
  refine ⟨fun htaken hpend hearly => ?_, fun htaken hpend => ?_, fun htaken hearly => ?_, fun htaken => ?_,
    fun hpend htaken hasked => ?_, fun hpend htaken hext hon => ?_⟩
  · have hstate := cycle_serves hst h3 h5 htaken hpend (by decide)
    obtain ⟨hjob, horder, hregs, hsec, hcoll, hus⟩ := served_cycle .resume s
    by_cases hopen : (served (cycleTaken .resume s)).evalOpen = true
    · rw [if_pos hopen] at hstate
      exact ⟨_, congrArg Host.Outcome.next hstate, hregs, hsec, hus, by rw [hjob], .inr (hserves.mpr hopen)⟩
    · rw [if_neg hopen] at hstate
      generalize served (cycleTaken .resume s) = u at *
      have hcommitted : u.job.committed = s.job.committed := by rw [hjob]
      have hquiet : NothingEarly (u.job.committed + 1) u := by
        unfold NothingEarly; rw [hcommitted, hcoll]; exact hearly
      obtain ⟨hbegin, r1, r2, r3, r4, r5, r6, r7⟩ := resume_begins hquiet
      have hend := hstate.trans ((pausedEnd_resumes (by rw [hjob])).trans hbegin)
      exact ⟨_, congrArg Host.Outcome.next hend, r4.trans hregs, r5.trans hsec, r6.trans hus, r7.trans hcommitted,
        .inl ⟨r1, by rw [r2, hcommitted], r3⟩⟩
  · have hstate := cycle_serves hst h3 h5 htaken hpend (by decide)
    obtain ⟨hjob, horder, hregs, hsec, hcoll, hus⟩ := served_cycle .stop s
    by_cases hopen : (served (cycleTaken .stop s)).evalOpen = true
    · rw [if_pos hopen] at hstate
      exact ⟨_, congrArg Host.Outcome.next hstate, hregs, hsec, hus, by rw [hjob], .inr (hserves.mpr hopen)⟩
    · rw [if_neg hopen] at hstate
      generalize served (cycleTaken .stop s) = u at *
      have hcommitted : u.job.committed = s.job.committed := by rw [hjob]
      obtain ⟨r1, _, r3, _, r5, _, r7, r8, r9, r10⟩ := stopJob_stopped u
      exact ⟨_, congrArg Host.Outcome.next (hstate.trans (pausedEnd_stops (by rw [hjob]))), r8.trans hregs, r9.trans hsec,
        r10.trans hus, r3.trans hcommitted, .inl ⟨r1, r5, r7⟩⟩
  · obtain ⟨hbegin, r1, r2, r3, r4, r5, r6, r7⟩ := resume_begins hearly
    have hend := (pausedState_ends hst h3 h5 htaken).trans ((pausedEnd_resumes htaken).trans hbegin)
    exact ⟨_, congrArg Host.Outcome.next hend, r4, r5, r6, r7, r1, r2, r3⟩
  · obtain ⟨r1, _, r3, _, r5, _, r7, r8, r9, r10⟩ := stopJob_stopped s
    exact ⟨_, congrArg Host.Outcome.next ((pausedState_ends hst h3 h5 htaken).trans (pausedEnd_stops htaken)), r8, r9, r10, r3,
      r1, r5, r7⟩
  · have hcommand : pausedCommand (cycleBegun s) = pausedServe (cycleBegun s) := by
      have hnone : takeCommand (cycleBegun s) = cycleBegun s := takeCommand_none (s := cycleBegun s) hpend
      have hno : ((cycleBegun s).job.taken.isNone && (cycleBegun s).job.ckptAsked && (cycleBegun s).ing.ckptExt != 0xFFFF
          && (cycleBegun s).eff.elective) = false := by
        change (s.job.taken.isNone && s.job.ckptAsked && _ && _) = false
        simp [hasked]
      unfold pausedCommand
      dsimp only
      rw [hnone, hno]
      rfl
    have hserved := served_besideInbox (cycleBegun s)
    have hstate := (pausedState_begins hst h3 h5 htaken).trans (hcommand.trans (pausedServe_eq _))
    generalize served (cycleBegun s) = u at *
    have hjob : u.job = (evalBegun (cycleBegun s)).job := job_of_besideInbox hserved
    have hregs : u.regs = (evalBegun (cycleBegun s)).regs := regs_of_besideInbox hserved
    have hsec : u.sec = (evalBegun (cycleBegun s)).sec := sec_of_besideInbox hserved
    have hbnd := bnd_of_besideInbox hserved
    have hus := localUs_of_besideInbox hserved
    have hend : pausedEnd u = u := pausedEnd_none ((congrArg Job.taken hjob).trans htaken)
    rw [hend, ite_self] at hstate
    exact ⟨_, congrArg Host.Outcome.next hstate, hregs, hsec, hus, congrArg Job.committed hjob, hjob,
      congrArg Boundary.order hbnd⟩
  · have hcommand : pausedCommand (cycleBegun s) = { cycleBegun s with
        job := { s.job with pend := none, ckptAsked := true }
        bnd := { (cycleBegun s).bnd with order := 3, orderStart := (cycleBegun s).localUs, ckptDue := true } } := by
      have hyes : (s.job.taken.isNone && true && s.ing.ckptExt != 0xFFFF && s.regs.elective) = true := by
        simp [htaken, hext, hon]
      unfold pausedCommand
      rw [takeCommand_some (s := cycleBegun s) hpend, if_pos rfl]
      exact if_pos hyes
    have hstate := (pausedState_begins hst h3 h5 htaken).trans hcommand
    exact ⟨_, congrArg Host.Outcome.next hstate, rfl, rfl, rfl, rfl, hst, rfl, rfl⟩

end Sys2Proof.Machine

namespace Sys2Proof
open Machine

/-- Settles O51: a boundary's event follows from its order alone; a step with nothing early begins with no work. -/
theorem boundaryKeepsItsOrder : Obligations.BoundaryKeepsItsOrder := by
  unfold Obligations.BoundaryKeepsItsOrder
  exact ⟨boundaryKeepsItsOrder_claim, pausedJobsStillServe⟩

end Sys2Proof
end
section
/-! Blocks of the update unit reach main memory alone (R174, R224, R227, R230, R231). -/

namespace Sys2Proof.Machine

section
variable {s t : State} (h : Reaches s t)
include h

theorem Reaches.group (g : Nat) : t.group g = s.group g := by rw [State.group, h.groups]; rfl
theorem Reaches.recipe : t.recipe = s.recipe := by rw [h.rest]
theorem Reaches.lstat : t.lstat = s.lstat := by rw [h.rest]
theorem Reaches.results : t.results = s.results := by rw [h.rest]
theorem Reaches.groupOf (g : Nat) : t.groupOf g = s.groupOf g := by
  rw [State.groupOf, State.groupList, State.cont, h.recipe]; rfl

end

theorem readAll_reaches (hearth : Nat) (l : List (Nat × Nat)) (s : State) : Reaches s (readAll hearth l s) :=
  Reaches.fold (fun s (r : Nat × Nat) => readTouch_reaches hearth r.1 r.2 s) l s

theorem writeCounts_reaches (s : State) : Reaches s (writeCounts s) := Reaches.fold (fun _ _ => vmStore_reaches ..) _ s
theorem writeLstat_reaches (l : Nat) (s : State) : Reaches s (writeLstat l s) := vmStore_reaches ..
theorem clearTags_reaches (s : State) : Reaches s (clearTags s) := Reaches.fold (fun _ _ => vmStore_reaches ..) _ s
theorem sealBlock_reaches (n : Nat) (s : State) (b : BlockRec) : Reaches s (sealBlock n s b) := vmStore_reaches ..

theorem tieSum_reaches (s : State) (b : BlockRec) : Reaches s (tieSum s b) := by
  unfold tieSum
  split
  · exact Reaches.refl s
  · exact vmStore_reaches ..

theorem expand_reaches (jobId prob va : Nat) (s : State) : Reaches s (expand jobId prob va s) := by
  unfold expand
  split
  · exact Reaches.refl s
  next p i _ =>
    split
    · exact Reaches.refl s
    · dsimp only
      generalize (if (s.run i).latchStep = s.job.step then (s.rootRec p).latchSlot else (s.rootRec p).inForce) = slot
      split
      · exact Reaches.refl s
      · exact (vmStore_reaches ..).trans (vmStore_reaches ..)

theorem expandBlock_reaches (s : State) (b : BlockRec) : Reaches s (expandBlock s b) :=
  (expand_reaches ..).trans (expand_reaches ..)

theorem runKernel_reaches (layer : Nat) (s : State) (b : BlockRec) : Reaches s (runKernel layer s b) := by
  have hstore (s : State) (va : Nat) (bs : Bytes) (k : Nat) : Reaches s (if k = 0 then s else vmStore va bs s) := by
    split
    · exact Reaches.refl s
    · exact vmStore_reaches ..
  unfold runKernel
  exact Reaches.fold (fun s (x : Nat × Nat) => hstore s _ _ x.1) _ s

/-- An item put on a group after main memory has been reached. -/
theorem Placed.reached {g : Nat} {it : Item} {s u t : State} (h : Placed g it u t) (hu : Reaches s u) :
    (t.group g).item = some it ∧ (t.group g).pos = (s.group g).pos ∧ Started g it.prog s t
      ∧ (∀ n, n ∉ (s.groupOf g).cores → t.core n = s.core n) ∧ ∀ k, k ≠ g → t.group k = s.group k :=
  h.after hu.groups hu.cores (hu.groupOf g)

end Sys2Proof.Machine
end

section
/-! A slot starts when it is fed (R28, R164, R227, R396). -/

namespace Sys2Proof.Machine

/-! ## Latching a layer's decisions reaches no core and no group -/

/-- Cores, groups and recipe. -/
def State.workbench (s : State) : List (Nat × CoreSt) × List (Nat × GroupSt) × Recipe := (s.cores, s.groups, s.recipe)

theorem FabricOnly.workbench {s t : State} (h : FabricOnly s t) : t.workbench = s.workbench := by
  unfold State.workbench
  rw [h.1]

theorem setRootRec_workbench (p : Prob) (r : RootRec) (s : State) : (setRootRec p r s).workbench = s.workbench := rfl
theorem leaven_workbench (l : LeavenSt) (s : State) : ({ s with leaven := l } : State).workbench = s.workbench := rfl
theorem setRun_workbench (i : Nat) (x : ProbSt) (s : State) : (setRun i x s).workbench = s.workbench := rfl

theorem logAdd_workbench (c a h u l : Nat) (d : List Nat) (s : State) : (logAdd c a h u l d s).workbench = s.workbench := by
  unfold State.workbench
  rw [logAdd_cores, logAdd_groups, logAdd_recipe]

theorem latchRoot_workbench (i : Nat) (p : Prob) (n slot kind : Nat) (s : State) :
    (latchRoot i p n slot kind s).workbench = s.workbench := by
  unfold latchRoot
  rw [setRun_workbench, setRootRec_workbench]

theorem rootMissed_workbench (i : Nat) (p : Prob) (n due : Nat) (s : State) :
    (rootMissed i p n due s).workbench = s.workbench := by
  unfold rootMissed
  dsimp only
  split
  · rfl
  · rw [leaven_workbench, setRootRec_workbench, setRun_workbench, logAdd_workbench]

theorem sendDecision_sends (p : Prob) (n slot : Nat) (o : RootOutcome) (s : State) : Sends s (sendDecision p n slot o s) :=
  sends_fold _ (fun s d => sends_sendWords d _ _ s) _ s

theorem sendDecision_workbench (p : Prob) (n slot : Nat) (o : RootOutcome) (s : State) :
    (sendDecision p n slot o s).workbench = s.workbench := (sendDecision_sends p n slot o s).only.workbench

theorem ownDecision_workbench (n : Nat) (s : State) (pi : Prob × Nat) : (ownDecision n s pi).workbench = s.workbench := by
  obtain ⟨p, i⟩ := pi
  unfold ownDecision
  dsimp only
  split
  · exact sendDecision_workbench ..
  · split
    · exact (sendDecision_workbench ..).trans (latchRoot_workbench ..)
    · split
      · exact (sendDecision_workbench ..).trans ((latchRoot_workbench ..).trans (rootMissed_workbench ..))
      · exact (sendDecision_workbench ..).trans (latchRoot_workbench ..)

theorem latchLayer_workbench (layer n : Nat) (s : State) : (latchLayer layer n s).workbench = s.workbench :=
  foldl_field State.workbench (ownDecision_workbench n) _ s

theorem groupOf_of_workbench {s t : State} (h : t.workbench = s.workbench) (g : Nat) : t.groupOf g = s.groupOf g := by
  have hrecipe : t.recipe = s.recipe := congrArg (fun x => x.2.2) h
  rw [State.groupOf, State.groupList, State.cont, hrecipe]; rfl

/-! ## The slot -/

/-- The item of a slot other than a U item. -/
def slotItem (sl : Slot) (s : State) : Item :=
  ⟨slotKind sl.kind, sl.layer, if sl.kind ≤ 2 then sl.mb else 0, s.slotProg sl⟩

/-- The state a slot's item is put on its group in. -/
def slotReady (sl : Slot) (s : State) : State := if sl.kind = 3 && s.curv s.job.step then writeCounts s else s

theorem slotReady_reaches (sl : Slot) (s : State) : Reaches s (slotReady sl s) := by
  unfold slotReady
  split
  · exact writeCounts_reaches s
  · exact Reaches.refl s

theorem slotProg_congr {s t : State} (hrecipe : t.recipe = s.recipe) (hjob : t.job = s.job) (sl : Slot) :
    t.slotProg sl = s.slotProg sl := by
  unfold State.slotProg State.layer? State.layers State.curv State.params State.cont
  rw [hrecipe, hjob]

/-- A slot that is fed and free. -/
def slotStarts (g : Nat) (sl : Slot) (s : State) : State :=
  if sl.kind = 4 then startUpdate g sl s else putItem g (slotItem sl (slotReady sl s)) (slotReady sl s)

/-- A slot with its inputs complete: it holds under gating. -/
def slotFed (g : Nat) (sl : Slot) (s : State) : State :=
  if sl.kind != 5 && s.gov.gating && !(s.group g).passed then
    if (s.group g).held.isSome then s
    else holdLog ((s.groupOf g).cores.headD 0 / 96) (setGroup g { s.group g with held := some s.localUs } s)
  else slotStarts g sl s

section
variable {g : Nat} {s : State} (hin : s.inStep = true) (hidle : (s.group g).item = none) (hmiss : (s.group g).misses = [])
include hin hidle hmiss

theorem slotStartState_slot {sl : Slot} (hinstalled : s.job.installing = []) (hreleased : s.coll.released = true)
    (hslot : (s.groupOf g).slots[(s.group g).pos]? = some sl) :
    slotStartState g s = if !s.inputsReady sl || s.pieceOn g then s else slotFed g sl s := by
  unfold slotStartState
  dsimp only
  rw [if_neg (by simp [hin, hidle, hmiss]), if_neg (by simp [hinstalled]), if_neg (by simp [hreleased]), hslot]
  rfl

theorem slotStartState_installs (hinstalling : s.job.installing ≠ []) : slotStartState g s = startInstall g s := by
  have hne : s.job.installing.isEmpty = false := by
    rw [← Bool.not_eq_true, List.isEmpty_iff]; exact hinstalling
  unfold slotStartState
  simp only [hin, hidle, hmiss, hne, Option.isSome_none, List.isEmpty_nil, Bool.not_true, Bool.not_false, Bool.or_self,
    Bool.false_eq_true, if_false, if_true]

theorem slotStartState_waits (hinstalled : s.job.installing = []) (hreleased : s.coll.released = false) :
    slotStartState g s = s := by
  unfold slotStartState
  simp only [hin, hidle, hmiss, hinstalled, hreleased, Option.isSome_none, List.isEmpty_nil, Bool.not_true, Bool.not_false,
    Bool.or_self, Bool.false_eq_true, if_false, if_true]

end

theorem startUpdate_starts {g : Nat} {sl : Slot} {s : State}
    (hblocks : (latchLayer sl.layer s.job.step s).layerBlocks sl.layer ≠ [])
    (hgen : ∀ b ∈ (latchLayer sl.layer s.job.step s).layerBlocks sl.layer, (latchLayer sl.layer s.job.step s).genOk b = true)
    (hgood : (latchLayer sl.layer s.job.step s).allGood (((latchLayer sl.layer s.job.step s).layerBlocks sl.layer).flatMap
      (latchLayer sl.layer s.job.step s).beforeReads) = true) :
    ∃ v, Reaches (latchLayer sl.layer s.job.step s) v ∧ startUpdate g sl s
      = putItem g ⟨.upd, sl.layer, 0, (latchLayer sl.layer s.job.step s).slotProg sl⟩ v := by
  unfold startUpdate
  generalize latchLayer sl.layer s.job.step s = u at *
  have hnone : ((u.layerBlocks sl.layer).find? fun b => !u.genOk b) = none := by
    rw [List.find?_eq_none]
    intro b hb
    simp [hgen b hb]
  have hne : (u.layerBlocks sl.layer).isEmpty = false := by rw [← Bool.not_eq_true, List.isEmpty_iff]; exact hblocks
  dsimp only
  rw [hne, hnone]
  dsimp only
  rw [hgood]
  refine ⟨_, ?_, rfl⟩
  exact (readAll_reaches ..).trans ((Reaches.fold tieSum_reaches _ _).trans (Reaches.fold expandBlock_reaches _ _))

theorem holdLog_holds (hearth : Nat) (s : State) : (holdLog hearth s).groups = s.groups ∧ (holdLog hearth s).cores = s.cores
    ∧ (holdLog hearth s).mm = s.mm ∧ (holdLog hearth s).job.st = s.job.st := by
  unfold holdLog
  split
  · exact ⟨rfl, rfl, rfl, rfl⟩
  · exact ⟨logAdd_groups .., logAdd_cores .., logAdd_mm .., logAdd_job_st ..⟩

/-- Under gating a slot is held: nothing starts. -/
theorem slotFed_holds {g : Nat} {sl : Slot} {s : State} (hidle : (s.group g).item = none)
    (h : (sl.kind != 5 && s.gov.gating && !(s.group g).passed) = true) : ((slotFed g sl s).group g).item = none
      ∧ ((slotFed g sl s).group g).held.isSome = true ∧ (slotFed g sl s).cores = s.cores ∧ (slotFed g sl s).mm = s.mm
      ∧ (slotFed g sl s).job.st = s.job.st := by
  unfold slotFed
  rw [if_pos h]
  split
  next hheld => exact ⟨hidle, hheld, rfl, rfl, rfl⟩
  next =>
    obtain ⟨hgroups, hcores, hmm, hst⟩ := holdLog_holds ((s.groupOf g).cores.headD 0 / 96)
      (setGroup g { s.group g with held := some s.localUs } s)
    have hgroup : (holdLog ((s.groupOf g).cores.headD 0 / 96) (setGroup g { s.group g with held := some s.localUs } s)).group g
        = { s.group g with held := some s.localUs } := by
      rw [State.group, hgroups]
      exact setGroup_group_same ..
    exact ⟨by rw [hgroup]; exact hidle, by rw [hgroup]; rfl, hcores, hmm, hst⟩

theorem slotsStartWhenFed : Sys2Proof.Claims.SlotsStartWhenFed := by
  intro g s hin hidle hmiss
  refine ⟨fun sl hinstalled hreleased hslot => ?_, fun l e hfind hlayer => ?_, fun hinstalled hreleased => ?_⟩
  · have hstate := slotStartState_slot hin hidle hmiss hinstalled hreleased hslot
    dsimp only
    have hfedState (hfed : s.inputsReady sl = true ∧ s.pieceOn g = false) : slotStartState g s = slotFed g sl s := by
      rw [hstate, if_neg (by simp [hfed.1, hfed.2])]
    have hfreeState (hfree : s.gov.gating = false ∨ (s.group g).passed = true ∨ sl.kind = 5) :
        slotFed g sl s = slotStarts g sl s :=
      if_neg (by rcases hfree with h | h | h <;> simp [h])
    refine ⟨fun hfed hfree hkind => ?_, fun hfed hfree hkind hblocks hgen hgood => ?_, fun hfed hheld => ?_, fun hno => ?_⟩
    · have hput : slotStarts g sl s = putItem g (slotItem sl (slotReady sl s)) (slotReady sl s) := if_neg hkind
      have hready := slotReady_reaches sl s
      have hplaced := putItem_placed g (slotItem sl (slotReady sl s)) (slotReady sl s)
      have hprog : (slotItem sl (slotReady sl s)).prog = s.slotProg sl := slotProg_congr hready.recipe hready.job sl
      obtain ⟨hitem, _, hstarted, hcores, hgroups⟩ := hplaced.reached hready
      rw [hprog] at hstarted
      exact ⟨_, slotItem sl (slotReady sl s),
        congrArg Host.Outcome.next ((hfedState hfed).trans ((hfreeState hfree).trans hput)), hitem, rfl, rfl, hprog, hstarted,
        hcores, hgroups, hplaced.job.trans hready.job, hplaced.regs.trans hready.regs⟩
    · have hput : slotStarts g sl s = startUpdate g sl s := if_pos hkind
      obtain ⟨v, hv, hstart⟩ := startUpdate_starts (g := g) hblocks hgen hgood
      have hbench := latchLayer_workbench sl.layer s.job.step s
      generalize latchLayer sl.layer s.job.step s = u at *
      have hcores : v.cores = s.cores := hv.cores.trans (congrArg (fun x => x.1) hbench)
      have hgroups : v.groups = s.groups := hv.groups.trans (congrArg (fun x => x.2.1) hbench)
      obtain ⟨hitem, _, hstarted, _, _⟩ := (putItem_placed g ⟨.upd, sl.layer, 0, u.slotProg sl⟩ v).after hgroups hcores
        ((hv.groupOf g).trans (groupOf_of_workbench hbench g))
      exact ⟨_, congrArg Host.Outcome.next ((hfedState hfed).trans ((hfreeState hfree).trans (hput.trans hstart))), hitem,
        hstarted⟩
    · have hgated : (sl.kind != 5 && s.gov.gating && !(s.group g).passed) = true := by
        rw [not_or, not_or] at hheld
        obtain ⟨h1, h2, h3⟩ := hheld
        simp [h1, h2, h3]
      exact ⟨_, congrArg Host.Outcome.next (hfedState hfed), slotFed_holds hidle hgated⟩
    · refine congrArg Host.Outcome.next (hstate.trans (if_pos ?_))
      by_contra hcon
      simp only [Bool.or_eq_true, Bool.not_eq_true', not_or, Bool.not_eq_false, Bool.not_eq_true] at hcon
      exact hno hcon
  · have hinstalling : s.job.installing ≠ [] := fun h => by rw [h] at hfind; cases hfind
    have hstate : slotStartState g s = putItem g ⟨.upd, l, 0, e.uProg + 1⟩ s := by
      rw [slotStartState_installs hin hidle hmiss hinstalling]
      unfold startInstall
      rw [hfind]
      dsimp only
      rw [hlayer]
    have hplaced := putItem_placed g ⟨.upd, l, 0, e.uProg + 1⟩ s
    exact ⟨_, congrArg Host.Outcome.next hstate, hplaced.item, hplaced.started, hplaced.mm, hplaced.job⟩
  · exact congrArg Host.Outcome.next (slotStartState_waits hin hidle hmiss hinstalled hreleased)

end Sys2Proof.Machine
end

section
/-! Items complete together (R124, R164, R165, R178, R227). -/

namespace Sys2Proof.Machine

/-- A group's item is over: its counts join its layer's, and the group stands at the next slot. -/
structure ItemOver (g : Nat) (it : Item) (s t : State) : Prop where
  item : (t.group g).item = none
  pos : (t.group g).pos = (s.group g).pos + 1
  stat : t.layerStat it.lstatKey = (s.layerStat it.lstatKey).add (s.group g).got
  job : t.job = { s.job with done := (it.kind.code, it.layer, it.mb) :: s.job.done }
  others : ∀ k, k ≠ g → t.group k = s.group k
  regs : t.regs = s.regs
  results : t.results = s.results

/-- The item is off its group and counted. -/
def itemCounted (g : Nat) (it : Item) (s : State) : State :=
  let u := setGroup g { s.group g with
    item := none, pos := (s.group g).pos + 1, misses := [], got := LStat.zero, drained := false, replays := 0 } s
  { u with
    lstat := tset s.lstat it.lstatKey ((s.layerStat it.lstatKey).add (s.group g).got)
    job := { s.job with done := (it.kind.code, it.layer, it.mb) :: s.job.done } }

theorem itemCounted_over (g : Nat) (it : Item) (s : State) : ItemOver g it s (itemCounted g it s) := by
  have hgroup (k : Nat) : (itemCounted g it s).group k = (setGroup g { s.group g with
      item := none, pos := (s.group g).pos + 1, misses := [], got := LStat.zero, drained := false, replays := 0 } s).group k := rfl
  exact {
    item := by rw [hgroup, setGroup_group_same]
    pos := by rw [hgroup, setGroup_group_same]
    stat := tget_tset_same ..
    job := rfl
    others := fun k hk => by rw [hgroup, setGroup_group_other hk]
    regs := rfl
    results := rfl }

/-- What has its groups, layer statuses, job, values and results in common with an item's end. -/
theorem ItemOver.of_eq {g : Nat} {it : Item} {s t u : State} (h : ItemOver g it s t) (hgroups : u.groups = t.groups)
    (hlstat : u.lstat = t.lstat) (hjob : u.job = t.job) (hregs : u.regs = t.regs) (hresults : u.results = t.results) :
    ItemOver g it s u := by
  have hgroup (k : Nat) : u.group k = t.group k := by unfold State.group; rw [hgroups]
  have hstat : u.layerStat it.lstatKey = t.layerStat it.lstatKey := by unfold State.layerStat; rw [hlstat]
  exact {
    item := by rw [hgroup]; exact h.item
    pos := by rw [hgroup]; exact h.pos
    stat := hstat.trans h.stat
    job := hjob.trans h.job
    others := fun k hk => by rw [hgroup]; exact h.others k hk
    regs := hregs.trans h.regs
    results := hresults.trans h.results }

theorem finishItem_over {g : Nat} {it : Item} {s : State} (hcode : it.kind.code ≠ 0) : ItemOver g it s (finishItem g it s) := by
  have hcounted := itemCounted_over g it s
  have heq : finishItem g it s = pumpColls (if decide (1 ≤ it.kind.code ∧ it.kind.code ≤ 3)
      && (itemCounted g it s).layerOver it.layer then writeLstat it.layer (itemCounted g it s) else itemCounted g it s) := by
    unfold finishItem
    dsimp only
    simp only [if_neg hcode]
    rfl
  rw [heq]
  generalize itemCounted g it s = u at *
  have hwritten (b : Bool) : Reaches u (if b then writeLstat it.layer u else u) := by
    split
    · exact writeLstat_reaches ..
    · exact Reaches.refl u
  have hreach := hwritten (decide (1 ≤ it.kind.code ∧ it.kind.code ≤ 3) && u.layerOver it.layer)
  generalize (if decide (1 ≤ it.kind.code ∧ it.kind.code ≤ 3) && u.layerOver it.layer then writeLstat it.layer u else u) = v
    at hreach
  have hsame := (pumpColls_works v).same
  refine (hcounted.of_eq hreach.groups hreach.lstat hreach.job hreach.regs hreach.results).of_eq ?_ ?_ ?_ ?_ ?_
  · exact (congrArg State.groups hsame :)
  · exact (congrArg State.lstat hsame :)
  · exact (congrArg State.job hsame :)
  · exact (congrArg State.regs hsame :)
  · exact (congrArg State.results hsame :)

/-- An item that ends after main memory has been reached. -/
theorem ItemOver.reached {g : Nat} {it : Item} {s u t : State} (h : ItemOver g it u t) (hu : Reaches s u) :
    ItemOver g it s t := by
  have hgroup (k : Nat) := hu.group k
  have hstat (k : Nat) : u.layerStat k = s.layerStat k := by unfold State.layerStat; rw [hu.lstat]
  exact {
    item := h.item
    pos := by rw [h.pos, hgroup]
    stat := by rw [h.stat, hgroup, hstat]
    job := by rw [h.job, hu.job]
    others := fun k hk => by rw [h.others k hk, hgroup]
    regs := h.regs.trans hu.regs
    results := h.results.trans hu.results }

/-- What the end of an item's program is, by its kind. -/
def itemEnds (g : Nat) (it : Item) (s : State) : ItemKind → State
  | .bubble => if s.bubbleOver g then finishItem g it s else s
  | .upd => if s.groupFinished g then advanceUpdate g it s else s
  | .eval _ _ => if s.groupFinished g then advanceEval s else s
  | _ => if s.groupFinished g then finishItem g it s else s

section
variable {g : Nat} {it : Item} {s : State} (hitem : (s.group g).item = some it) (hmiss : (s.group g).misses = [])
include hitem hmiss

theorem itemCompleteState_eq : itemCompleteState g s = itemEnds g it s it.kind := by
  unfold itemCompleteState
  simp only [hitem, hmiss, List.isEmpty_nil, Bool.not_true, Bool.false_eq_true, if_false]
  cases it.kind <;> rfl

theorem itemCompleteState_waits (hkind : it.kind ≠ .bubble) (hbusy : s.groupFinished g = false) : itemCompleteState g s = s := by
  rw [itemCompleteState_eq hitem hmiss]
  generalize it.kind = k at hkind
  cases k with
  | bubble => exact absurd rfl hkind
  | fwd | bwd | win | upd | eval _ _ => exact if_neg (by simp [hbusy])

theorem itemCompleteState_finishes (hkind : it.kind = .fwd ∨ it.kind = .bwd ∨ it.kind = .win) (hdone : s.groupFinished g = true) :
    itemCompleteState g s = finishItem g it s := by
  rw [itemCompleteState_eq hitem hmiss]
  rcases hkind with h | h | h <;> rw [h] <;> exact if_pos hdone

theorem itemCompleteState_advances (hkind : it.kind = .upd) (hdone : s.groupFinished g = true) :
    itemCompleteState g s = advanceUpdate g it s := by
  rw [itemCompleteState_eq hitem hmiss, hkind]
  exact if_pos hdone

end

/-- The kernel runs, and the second program of a U item starts. -/
theorem advanceUpdate_kernel {g : Nat} {it : Item} {s : State} {l : Layer} (hlayer : s.layer? it.layer = some l)
    (hprog : it.prog = l.uProg) (hgood : s.allGood ((s.layerBlocks it.layer).flatMap s.kernelReads) = true) :
    ∃ v, Reaches s v ∧ advanceUpdate g it s
      = startCores g (l.uProg + 1) (setGroup g { v.group g with item := some { it with prog := l.uProg + 1 } } v) := by
  unfold advanceUpdate
  rw [hlayer]
  dsimp only
  rw [if_pos hprog, hgood]
  refine ⟨_, ?_, rfl⟩
  exact (readAll_reaches ..).trans (Reaches.fold (runKernel_reaches _) _ _)

theorem advanceUpdate_seals {g : Nat} {it : Item} {s : State} {l : Layer} (hlayer : s.layer? it.layer = some l)
    (hprog : it.prog ≠ l.uProg) (hinstalled : s.job.installing = []) :
    ∃ v, Reaches s v ∧ advanceUpdate g it s = finishItem g it v := by
  unfold advanceUpdate
  rw [hlayer]
  dsimp only
  rw [if_neg hprog, hinstalled]
  exact ⟨_, Reaches.fold (sealBlock_reaches _) _ _, rfl⟩

/-- A layer's working copies stand. -/
theorem installedLayer_installs (g layer : Nat) (s : State) : ((installedLayer g layer s).group g).item = none
    ∧ ((installedLayer g layer s).group g).pos = (s.group g).pos
    ∧ (installedLayer g layer s).job = { s.job with installing := s.job.installing.filter fun k => k != layer } := by
  unfold installedLayer
  dsimp only
  generalize hu : setGroup g { s.group g with item := none, misses := [], got := LStat.zero, drained := false, replays := 0 }
    { s with job := { s.job with installing := s.job.installing.filter fun l => l != layer } } = u
  have hgroup : u.group g = { s.group g with item := none, misses := [], got := LStat.zero, drained := false, replays := 0 } := by
    rw [← hu, setGroup_group_same]
  have hjob : u.job = { s.job with installing := s.job.installing.filter fun k => k != layer } := by rw [← hu]; rfl
  have hreach : Reaches u (if u.job.installing.isEmpty then clearTags u else u) := by
    split
    · exact clearTags_reaches u
    · exact Reaches.refl u
  refine ⟨?_, ?_, hreach.job.trans hjob⟩
  · rw [hreach.group, hgroup]
  · rw [hreach.group, hgroup]

theorem itemsCompleteTogether : Sys2Proof.Claims.ItemsCompleteTogether := by
  intro g it s hitem hmiss ended
  have hended {t : State} (h : ItemOver g it s t) : ended t :=
    ⟨h.item, h.pos, h.stat, h.job, h.others, h.regs, h.results⟩
  refine ⟨fun hkind hdone => ?_, fun hkind hbusy => ?_, fun l hkind hdone hlayer => ⟨fun hprog hgood => ?_,
    fun hprog hinstalled => ?_, fun hprog hinstalling => ?_⟩⟩
  · have hcode : it.kind.code ≠ 0 := by rcases hkind with h | h | h <;> rw [h] <;> decide
    exact ⟨_, congrArg Host.Outcome.next (itemCompleteState_finishes hitem hmiss hkind hdone), hended (finishItem_over hcode)⟩
  · exact congrArg Host.Outcome.next (itemCompleteState_waits hitem hmiss hkind hbusy)
  · obtain ⟨v, hv, hstate⟩ := advanceUpdate_kernel (g := g) hlayer hprog hgood
    generalize hx : { v.group g with item := some { it with prog := l.uProg + 1 } } = x at hstate
    have hgroups : (startCores g (l.uProg + 1) (setGroup g x v)).groups = (setGroup g x v).groups :=
      startCores_field State.groups (fun _ _ _ => rfl) ..
    have hjob : (startCores g (l.uProg + 1) (setGroup g x v)).job = v.job :=
      startCores_field State.job (fun _ _ _ => rfl) g (l.uProg + 1) (setGroup g x v)
    have hgroup : (startCores g (l.uProg + 1) (setGroup g x v)).group g = x := by
      rw [State.group, hgroups]
      exact setGroup_group_same ..
    have hstarted := startCores_starts g (l.uProg + 1) (setGroup g x v)
    refine ⟨_, congrArg Host.Outcome.next ((itemCompleteState_advances hitem hmiss hkind hdone).trans hstate), ?_,
      fun n hn => ?_, ?_, ?_⟩
    · rw [hgroup, ← hx]
    · have hof : (setGroup g x v).groupOf g = s.groupOf g := hv.groupOf g
      have hcore : (setGroup g x v).core n = s.core n := hv.core n
      have hn' := hstarted n (by rw [hof]; exact hn)
      rwa [hcore] at hn'
    · rw [hgroup, ← hx, hv.group]
    · rw [hjob, hv.job]
  · obtain ⟨v, hv, hstate⟩ := advanceUpdate_seals (g := g) hlayer hprog hinstalled
    have hcode : it.kind.code ≠ 0 := by rw [hkind]; decide
    exact ⟨_, congrArg Host.Outcome.next ((itemCompleteState_advances hitem hmiss hkind hdone).trans hstate),
      hended ((finishItem_over hcode).reached hv)⟩
  · have hstate : advanceUpdate g it s = installedLayer g it.layer s := by
      unfold advanceUpdate
      rw [hlayer]
      dsimp only
      rw [if_neg hprog, if_neg (by rw [List.isEmpty_iff]; exact hinstalling)]
    exact ⟨_, congrArg Host.Outcome.next ((itemCompleteState_advances hitem hmiss hkind hdone).trans hstate),
      installedLayer_installs g it.layer s⟩

end Sys2Proof.Machine
end
section
/-! Problems by their places, and the first of a hearth that waits (R204). -/

namespace Sys2Proof.Machine

theorem setRun_run_same (i : Nat) (x : ProbSt) (s : State) : (setRun i x s).run i = x := by rw [setRun_run, if_pos rfl]

theorem setRun_run_other {i j : Nat} (h : j ≠ i) (x : ProbSt) (s : State) : (setRun i x s).run j = s.run j := by
  rw [setRun_run, if_neg (Ne.symm h)]

theorem run_of_leaven {s t : State} (h : t.leaven = s.leaven) (j : Nat) : t.run j = s.run j := by
  rw [State.run, State.run, h]

theorem prob_of_mem {s : State} {p : Prob} {i : Nat} (h : (p, i) ∈ s.probIdx) : s.prob? i = some p := by
  unfold State.probIdx at h
  rw [List.mem_zipIdx_iff_getElem?] at h
  exact h

theorem probs_of_recipe {s t : State} (h : t.recipe = s.recipe) : t.probs = s.probs := by
  rw [State.probs, State.cont, h]; rfl

/-- A problem of a hearth that waits for admission. -/
structure Waits (h : Nat) (borrow : Bool) (i : Nat) (p : Prob) (s : State) : Prop where
  place : s.prob? i = some p
  owned : p.role = 0
  hearth : p.job.hearth = h
  borrows : p.job.borrow = borrow
  waiting : (s.run i).phase = .waiting

/-- The earlier of two in the order of R204. -/
def earlier (b : Option (ProbSt × Prob × Nat)) (y : ProbSt × Prob × Nat) : Option (ProbSt × Prob × Nat) :=
  match b with
  | none => some y
  | some z => if rootBefore y z then some y else some z

/-- A problem that may be admitted, with what it holds. -/
def admissible (s : State) (h : Nat) (borrow : Bool) (x : Prob × Nat) : Option (ProbSt × Prob × Nat) :=
  if x.1.role = 0 && x.1.job.hearth = h && x.1.job.borrow == borrow && (s.run x.2).phase = .waiting
    && decide ((s.run x.2).src ≤ s.job.committed) then some (s.run x.2, x.1, x.2) else none

theorem firstRoot_eq (s : State) (h : Nat) (borrow : Bool) :
    s.firstRoot h borrow = ((s.probIdx.filterMap (admissible s h borrow)).foldl earlier none).map fun y => y.2.2 := rfl

/-- The first in an order is one of those compared. -/
theorem mem_of_earlier {l : List (ProbSt × Prob × Nat)} {b : Option (ProbSt × Prob × Nat)} {y : ProbSt × Prob × Nat}
    (h : l.foldl earlier b = some y) : y ∈ l ∨ b = some y := by
  induction l generalizing b with
  | nil => exact .inr h
  | cons x l ih =>
    rcases ih h with hmem | hb
    · exact .inl (List.mem_cons_of_mem _ hmem)
    · have hxy : x = y ∨ b = some y := by
        unfold earlier at hb
        split at hb
        · exact .inl (Option.some.inj hb)
        · split at hb
          · exact .inl (Option.some.inj hb)
          · exact .inr hb
      rcases hxy with rfl | hb
      · exact .inl List.mem_cons_self
      · exact .inr hb

theorem waits_of_firstRoot {s : State} {h i : Nat} {borrow : Bool} (hfirst : s.firstRoot h borrow = some i) :
    ∃ p, Waits h borrow i p s := by
  rw [firstRoot_eq, Option.map_eq_some_iff] at hfirst
  obtain ⟨y, hy, hi⟩ := hfirst
  have hmem := (mem_of_earlier hy).resolve_right (by simp)
  obtain ⟨x, hx, hsome⟩ := List.mem_filterMap.mp hmem
  unfold admissible at hsome
  split at hsome
  · next hcond =>
    injection hsome with hsome
    have hplace : x.2 = i := by rw [← hi, ← hsome]
    simp only [Bool.and_eq_true, decide_eq_true_eq, beq_iff_eq] at hcond
    obtain ⟨⟨⟨⟨hrole, hhearth⟩, hborrow⟩, hwait⟩, _⟩ := hcond
    exact ⟨x.1, prob_of_mem (by rw [← hplace]; exact hx), hrole, hhearth, hborrow, by rw [← hplace]; exact hwait⟩
  · cases hsome

end Sys2Proof.Machine
end

section
/-! Bytes a symmetric matrix takes in main memory (R174, R187). -/

namespace Sys2Proof.Machine

/-- Main memory has been reached, and no byte outside some ranges is changed. -/
structure Within (l : List (Nat × Nat)) (s t : State) : Prop where
  reaches : Reaches s t
  outside : MemoryOutside l s t
  wf : memWf s.mm.mem = true → memWf t.mm.mem = true

theorem within_of_mem (l : List (Nat × Nat)) {s t : State} (h : Reaches s t) (hmem : t.mm.mem = s.mm.mem) : Within l s t :=
  ⟨h, memoryOutside_of_mem l hmem, fun hwf => by rw [hmem]; exact hwf⟩

theorem Within.refl (l : List (Nat × Nat)) (s : State) : Within l s s := within_of_mem l (Reaches.refl s) rfl

theorem Within.trans {l : List (Nat × Nat)} {s t u : State} (h : Within l s t) (k : Within l t u) : Within l s u := by
  refine ⟨h.reaches.trans k.reaches, fun p hp => ?_, fun hwf => k.wf (h.wf hwf)⟩
  rw [k.outside p (by intro r hr i hi; rw [h.reaches.phys]; exact hp r hr i hi), h.outside p hp]

theorem Within.fold {α : Type} {l : List (Nat × Nat)} {f : State → α → State} {xs : List α}
    (hf : ∀ s, ∀ x ∈ xs, Within l s (f s x)) (s : State) : Within l s (xs.foldl f s) := by
  induction xs generalizing s with
  | nil => exact Within.refl l s
  | cons x xs ih =>
    exact (hf s x List.mem_cons_self).trans (ih (fun s y hy => hf s y (List.mem_cons_of_mem _ hy)) _)

/-- A change stays within ranges that cover those it is within. -/
theorem MemoryOutside.mono {l k : List (Nat × Nat)} {s t : State} (h : MemoryOutside l s t)
    (hsub : ∀ r ∈ l, ∃ q ∈ k, q.1 ≤ r.1 ∧ r.1 + r.2 ≤ q.1 + q.2) : MemoryOutside k s t := by
  intro p hp
  refine h p fun r hr i hi => ?_
  obtain ⟨q, hq, hlow, hhigh⟩ := hsub r hr
  have hbyte := hp q hq (r.1 + i - q.1) (by omega)
  rwa [show q.1 + (r.1 + i - q.1) = r.1 + i by omega] at hbyte

theorem Within.mono {l k : List (Nat × Nat)} {s t : State} (h : Within l s t)
    (hsub : ∀ r ∈ l, ∃ q ∈ k, q.1 ≤ r.1 ∧ r.1 + r.2 ≤ q.1 + q.2) : Within k s t :=
  ⟨h.reaches, h.outside.mono hsub, h.wf⟩

theorem vmStore_within (va : Nat) (bs : Bytes) (s : State) : Within [(va, bs.length)] s (vmStore va bs s) :=
  ⟨vmStore_reaches va bs s, vmStore_outside va bs s, fun hwf => by
    rw [vmStore_mem]
    generalize bs.zipIdx = l
    generalize s.mm.mem = m at hwf
    induction l generalizing m with
    | nil => exact hwf
    | cons x l ih => exact ih _ (storeByte_wf hwf x)⟩

/-- A store within a range. -/
theorem vmStore_within_range {va n a : Nat} {bs : Bytes} (hlow : va ≤ a) (hhigh : a + bs.length ≤ va + n) (s : State) :
    Within [(va, n)] s (vmStore a bs s) :=
  (vmStore_within a bs s).mono fun r hr => ⟨_, List.mem_singleton_self _, by
    rw [List.mem_singleton] at hr
    subst hr
    exact ⟨hlow, hhigh⟩⟩

/-- The tile of row r and column c stands among the tiles of the upper triangle. -/
theorem tile_lt {t r c : Nat} (hrc : r ≤ c) (hc : c < t) : r * t - r * (r + 1) / 2 + c + 1 ≤ t * (t + 1) / 2 := by
  obtain ⟨a, ha⟩ := (Nat.even_mul_succ_self r).exists_two_nsmul
  obtain ⟨b, hb⟩ := (Nat.even_mul_succ_self t).exists_two_nsmul
  obtain ⟨d, rfl⟩ : ∃ d, t = r + 1 + d := ⟨t - (r + 1), by omega⟩
  simp only [smul_eq_mul] at ha hb
  have hrow : r * (r + 1 + d) = 2 * a + r * d := by rw [← ha]; ring
  have hall : 2 * b = 2 * a + 2 * (r + 1) + 2 * (r * d) + 3 * d + d * d := by rw [← hb, ← ha]; ring
  rw [ha, hb, hrow]
  omega

theorem storeSym_within (va n : Nat) (m : List (List W32)) (s : State) :
    Within [(va, 4096 * symTiles n)] s (storeSym va n m s) := by
  unfold storeSym
  dsimp only
  refine Within.fold (fun s r _ => Within.fold (fun s c hc => ?_) s) s
  split
  · next hrc =>
    refine Within.fold (fun s i hi => vmStore_within_range (by omega) ?_ s) s
    have htile : _ ≤ symTiles n := tile_lt hrc (List.mem_range.mp hc)
    have hrow := List.mem_range.mp hi
    have hlen (f : Nat → Nat) : ((List.range (min 32 (n - 32 * c))).flatMap fun j => leBytes 4 (f j)).length ≤ 128 := by
      simp only [List.length_flatMap, length_leBytes, List.map_const', List.sum_replicate, List.length_range, smul_eq_mul]
      omega
    have hbytes := hlen fun j => ((m.getD (min (32 * r + i) (32 * c + j)) []).getD (max (32 * r + i) (32 * c + j)) 0).toNat
    omega
  · exact Within.refl _ s

end Sys2Proof.Machine
end

section
/-! The admission of roots (R204, R207, R208, R397). -/

namespace Sys2Proof.Machine

/-- What the admission of roots leaves alone. -/
structure Elects (s t : State) : Prop where
  st : t.job.st = s.job.st
  committed : t.job.committed = s.job.committed
  attempt : t.job.attempt = s.job.attempt
  groups : t.groups = s.groups
  cores : t.cores = s.cores
  regs : t.regs = s.regs
  recipe : t.recipe = s.recipe

theorem Elects.refl (s : State) : Elects s s := ⟨rfl, rfl, rfl, rfl, rfl, rfl, rfl⟩

theorem Elects.trans {s t u : State} (h : Elects s t) (k : Elects t u) : Elects s u :=
  ⟨k.st.trans h.st, k.committed.trans h.committed, k.attempt.trans h.attempt, k.groups.trans h.groups, k.cores.trans h.cores,
    k.regs.trans h.regs, k.recipe.trans h.recipe⟩

theorem Reaches.elects {s t : State} (h : Reaches s t) : Elects s t :=
  ⟨by rw [h.job], by rw [h.job], by rw [h.job], h.groups, h.cores, h.regs, h.recipe⟩

theorem Reaches.leaven {s t : State} (h : Reaches s t) : t.leaven = s.leaven := by rw [h.rest]

theorem logAdd_elects (c a h u l : Nat) (d : List Nat) (s : State) : Elects s (logAdd c a h u l d s) := by
  have hstands := logAdd_stands c a h u l d s
  exact ⟨hstands.st, hstands.committed, hstands.attempt, logAdd_groups .., logAdd_cores .., hstands.regs, hstands.recipe⟩

theorem setRun_elects (i : Nat) (x : ProbSt) (s : State) : Elects s (setRun i x s) :=
  ⟨rfl, rfl, rfl, rfl, rfl, rfl, rfl⟩
theorem addElective_elects (e : Nat) (s : State) : Elects s (addElective e s) :=
  ⟨rfl, rfl, rfl, rfl, rfl, rfl, rfl⟩

theorem Elects.prob {s t : State} (h : Elects s t) (i : Nat) : t.prob? i = s.prob? i := by
  rw [State.prob?, State.prob?, probs_of_recipe h.recipe]

/-! ## Loading a problem -/

/-- What a problem reads has been read, and a borrowed one has its copy of B. -/
def loadRead (i : Nat) (p : Prob) (s : State) : State :=
  workCopy p (s.readSym (p.factorSlot (s.srcSlot p (s.run i)) + 4096) p.job.n)
    ((s.loadReads i p).foldl (fun s r => readTouch p.job.hearth r.1 r.2 s) s)

/-- The copy of B stands in one of the seven places of the work area. -/
theorem workCopy_within (p : Prob) (a : LMat) (s : State) :
    Within [(p.job.workVa, 7 * (4096 * symTiles p.job.n))] s (workCopy p a s) := by
  unfold workCopy
  split
  · refine (storeSym_within ..).mono fun r hr => ⟨_, List.mem_singleton_self _, ?_⟩
    rw [List.mem_singleton] at hr
    subst hr
    have hplace : Config.workPlace % 7 < 7 := Nat.mod_lt _ (by decide)
    generalize Config.workPlace % 7 = k at hplace ⊢
    generalize symTiles p.job.n = n
    exact ⟨Nat.le_add_right .., by dsimp only; nlinarith⟩
  · exact Within.refl _ s

theorem loadRead_within (i : Nat) (p : Prob) (s : State) :
    Within [(p.job.workVa, 7 * (4096 * symTiles p.job.n))] s (loadRead i p s) := by
  have hread : Within [(p.job.workVa, 7 * (4096 * symTiles p.job.n))] s
      ((s.loadReads i p).foldl (fun s r => readTouch p.job.hearth r.1 r.2 s) s) :=
    Within.fold (f := fun s (r : Nat × Nat) => readTouch p.job.hearth r.1 r.2 s)
      (fun s r _ => within_of_mem _ (readTouch_reaches ..) (readTouch_mem ..)) s
  exact hread.trans (workCopy_within ..)

theorem loadRead_mem {p : Prob} (hborrow : p.job.borrow = false) (i : Nat) (s : State) :
    (loadRead i p s).mm.mem = s.mm.mem := by
  unfold loadRead workCopy
  rw [if_neg (by simp [hborrow])]
  exact foldl_field (fun s => s.mm.mem) (f := fun s (r : Nat × Nat) => readTouch p.job.hearth r.1 r.2 s)
    (fun s r => readTouch_mem ..) _ s

/-- A starter whose signature differs is logged (R198). -/
def noteMismatch (p : Prob) (mis : Option (Nat × Nat)) (s : State) : State :=
  match mis with
  | some (a0, a1) =>
    let s := logAdd 0x0102 2 p.job.hearth 0 0xFFFF [p.sig0, p.sig1, a0, a1] s
    { s with leaven := { s.leaven with mismatches := s.leaven.mismatches + 1 } }
  | none => s

theorem noteMismatch_elects (p : Prob) (mis : Option (Nat × Nat)) (s : State) : Elects s (noteMismatch p mis s) := by
  unfold noteMismatch
  split
  · obtain ⟨h1, h2, h3, h4, h5, h6, h7⟩ := logAdd_elects 0x0102 2 p.job.hearth 0 0xFFFF [p.sig0, p.sig1, _, _] s
    exact ⟨h1, h2, h3, h4, h5, h6, h7⟩
  · exact Elects.refl s

theorem noteMismatch_run (p : Prob) (mis : Option (Nat × Nat)) (s : State) (j : Nat) :
    (noteMismatch p mis s).run j = s.run j := by
  unfold noteMismatch
  split
  · exact run_of_leaven (logAdd_leaven 0x0102 2 p.job.hearth 0 0xFFFF [p.sig0, p.sig1, _, _] s) j
  · rfl

theorem noteMismatch_mem (p : Prob) (mis : Option (Nat × Nat)) (s : State) : (noteMismatch p mis s).mm = s.mm := by
  unfold noteMismatch
  split
  · exact logAdd_mm ..
  · rfl

/-- A problem that loads B takes its average and its starter. -/
theorem loadProblem_eq (i : Nat) (p : Prob) (s : State) : ∃ a st mis, loadProblem i p s
    = setRun i { (noteMismatch p mis (loadRead i p s)).run i with phase := .running, mat := a, starter := st, pieces := 0 }
        (noteMismatch p mis (loadRead i p s)) :=
  ⟨_, _, _, rfl⟩

/-- A problem has loaded B. -/
structure Loads (i : Nat) (p : Prob) (s t : State) : Prop where
  elects : Elects s t
  running : (t.run i).phase = .running
  src : (t.run i).src = (s.run i).src
  due : (t.run i).due = (s.run i).due
  others : ∀ j, j ≠ i → t.run j = s.run j
  mem : p.job.borrow = false → t.mm.mem = s.mm.mem
  outside : MemoryOutside [(p.job.workVa, 7 * (4096 * symTiles p.job.n))] s t

theorem loadProblem_loads (i : Nat) (p : Prob) (s : State) : Loads i p s (loadProblem i p s) := by
  obtain ⟨a, st, mis, heq⟩ := loadProblem_eq i p s
  obtain ⟨hreach, houtside, _⟩ := loadRead_within i p s
  have hmem := fun hb : p.job.borrow = false => loadRead_mem hb i s
  rw [heq]
  generalize loadRead i p s = u at *
  have hrun (j : Nat) : (noteMismatch p mis u).run j = s.run j :=
    (noteMismatch_run p mis u j).trans (run_of_leaven hreach.leaven j)
  exact {
    elects := (hreach.elects.trans (noteMismatch_elects p mis u)).trans (setRun_elects ..)
    running := by rw [setRun_run_same]
    src := by rw [setRun_run_same, hrun]
    due := by rw [setRun_run_same, hrun]
    others := fun j hj => by rw [setRun_run_other hj, hrun]
    mem := fun hb => (congrArg MemSt.mem (noteMismatch_mem p mis u)).trans (hmem hb)
    outside := fun q hq => (congrArg (fun m => memRead m.mem q) (noteMismatch_mem p mis u)).trans (houtside q hq) }

/-! ## A native problem takes a cell -/

/-- A native problem has taken a cell. -/
def admitted (i : Nat) (p : Prob) (c e : Nat) (s : State) : State :=
  addElective e (setRun i { (loadProblem i p s).run i with cell := some c, est := e } (loadProblem i p s))

/-- Native problems have been admitted: what runs, and what borrows cores, stands. -/
structure Admits (s t : State) : Prop where
  elects : Elects s t
  mem : t.mm.mem = s.mm.mem
  borrowed : ∀ j p, s.prob? j = some p → p.job.borrow = true → t.run j = s.run j
  running : ∀ j, (s.run j).phase ≠ .waiting → t.run j = s.run j

theorem Admits.refl (s : State) : Admits s s := ⟨Elects.refl s, rfl, fun _ _ _ _ => rfl, fun _ _ => rfl⟩

theorem Admits.trans {s t u : State} (h : Admits s t) (k : Admits t u) : Admits s u where
  elects := h.elects.trans k.elects
  mem := k.mem.trans h.mem
  borrowed j p hp hb := (k.borrowed j p (by rw [h.elects.prob]; exact hp) hb).trans (h.borrowed j p hp hb)
  running j hj := (k.running j (by rw [h.running j hj]; exact hj)).trans (h.running j hj)

section
variable {h i c e : Nat} {p : Prob} {s : State}

theorem admitted_others {j : Nat} (hj : j ≠ i) : (admitted i p c e s).run j = s.run j := by
  have hload := loadProblem_loads i p s
  unfold admitted
  generalize loadProblem i p s = u at *
  exact (setRun_run_other hj _ u).trans (hload.others j hj)

theorem admitted_admits (hw : Waits h false i p s) : Admits s (admitted i p c e s) := by
  have hload := loadProblem_loads i p s
  have hother (j : Nat) (hj : j ≠ i) : (admitted i p c e s).run j = s.run j := admitted_others hj
  unfold admitted at hother ⊢
  generalize loadProblem i p s = u at *
  exact {
    elects := (hload.elects.trans (setRun_elects ..)).trans (addElective_elects ..)
    mem := hload.mem hw.borrows
    borrowed := fun j q hq hb => hother j fun hji => by
      subst hji
      rw [hw.place] at hq
      injection hq with hq
      rw [← hq, hw.borrows] at hb
      cases hb
    running := fun j hj => hother j fun hji => by subst hji; exact hj hw.waiting }

theorem admitted_runs : ((admitted i p c e s).run i).phase = .running ∧ ((admitted i p c e s).run i).cell = some c
    ∧ ((admitted i p c e s).run i).src = (s.run i).src ∧ ((admitted i p c e s).run i).due = (s.run i).due := by
  have hload := loadProblem_loads i p s
  unfold admitted
  generalize loadProblem i p s = u at *
  have hrun : (addElective e (setRun i { u.run i with cell := some c, est := e } u)).run i = { u.run i with cell := some c, est := e } :=
    setRun_run_same ..
  rw [hrun]
  exact ⟨hload.running, rfl, hload.src, hload.due⟩

end

/-- A problem is admitted, or nothing changes. -/
theorem admitRoot_cases (i : Nat) (s : State) : admitRoot i s = s ∨ ∃ h p c e, Waits h false i p s
    ∧ admitRoot i s = admitted i p c e s := by
  unfold admitRoot
  split
  · exact .inl rfl
  · next p hp =>
    dsimp only
    split
    · next hcond =>
      simp only [Bool.and_eq_true, decide_eq_true_eq] at hcond
      obtain ⟨⟨⟨hfirst, _⟩, _⟩, _⟩ := hcond
      split
      · exact .inl rfl
      · next c hc =>
        obtain ⟨q, hq⟩ := waits_of_firstRoot hfirst
        have hqp : q = p := by
          have hplace := hq.place
          rw [hp] at hplace
          exact (Option.some.inj hplace).symm
        subst hqp
        exact .inr ⟨_, _, c, _, hq, rfl⟩
    · exact .inl rfl

/-- The first waiting problem, mandatory or with an estimate that fits, takes the free cell once its average can be read. -/
theorem admitRoot_admits {h i c : Nat} {p : Prob} {s : State} (hw : Waits h false i p s) (hfirst : s.firstRoot h false = some i)
    (hcell : s.freeCell h = some c) (hlive : s.job.st.live = true)
    (hmay : s.mandatory (s.run i) = true ∨ (s.eff.elective = true ∧ s.admitPoint h = true
      ∧ (scaleEst s h 1500 : Int) ≤ headroom s (some h)))
    (hgood : ∀ r ∈ s.loadReads i p, s.vmGood r.1 r.2 = true) : ∃ e, admitRoot i s = admitted i p c e s := by
  have hall : ((s.loadReads i p).all fun r => s.vmGood r.1 r.2) = true := List.all_eq_true.mpr hgood
  unfold admitRoot
  rw [hw.place]
  dsimp only
  rw [hw.hearth, hcell, hall, hlive, if_pos (by
    rcases hmay with hmand | ⟨hon, hpoint, hfits⟩
    · simp [hfirst, hmand]
    · simp [hfirst, hon, hpoint, hfits])]
  exact ⟨_, rfl⟩

theorem admitNative_admits (h fuel : Nat) (s : State) : Admits s (admitNative h fuel s) := by
  induction fuel generalizing s with
  | zero => exact Admits.refl s
  | succ fuel ih =>
    unfold admitNative
    split
    · exact Admits.refl s
    · next i hfirst =>
      dsimp only
      split
      · exact Admits.refl s
      · have hadmit : Admits s (admitRoot i s) := by
          rcases admitRoot_cases i s with heq | ⟨h, p, c, e, hw, heq⟩
          · rw [heq]; exact Admits.refl s
          · rw [heq]; exact admitted_admits hw
        exact hadmit.trans (ih _)

/-! ## A borrowed piece -/

theorem holdLog_elects (hearth : Nat) (s : State) : Elects s (holdLog hearth s) := by
  unfold holdLog
  split
  · exact Elects.refl s
  · obtain ⟨h1, h2, h3, h4, h5, h6, h7⟩ := logAdd_elects 0 8 0xFF 0 0xFFFF [3, hearth] { s with gov := { s.gov with gateLogged := true } }
    exact ⟨h1, h2, h3, h4, h5, h6, h7⟩

theorem holdLog_run (hearth : Nat) (s : State) (j : Nat) : (holdLog hearth s).run j = s.run j := by
  unfold holdLog
  split
  · rfl
  · exact run_of_leaven (logAdd_leaven ..) j

/-- A piece of a borrowed problem has been taken or held: no native problem changes. -/
structure Borrows (s t : State) : Prop where
  elects : Elects s t
  native : ∀ j p, s.prob? j = some p → p.job.borrow = false → t.run j = s.run j

theorem Borrows.refl (s : State) : Borrows s s := ⟨Elects.refl s, fun _ _ _ _ => rfl⟩

theorem Borrows.trans {s t u : State} (h : Borrows s t) (k : Borrows t u) : Borrows s u where
  elects := h.elects.trans k.elects
  native j p hp hb := (k.native j p (by rw [h.elects.prob]; exact hp) hb).trans (h.native j p hp hb)

section
variable {i : Nat} {p : Prob} {s : State} (hp : s.prob? i = some p) (hb : p.job.borrow = true)
include hp hb

theorem borrows_of_others {t : State} (helects : Elects s t) (hothers : ∀ j, j ≠ i → t.run j = s.run j) : Borrows s t where
  elects := helects
  native j q hq hqb := hothers j fun hji => by
    subst hji
    rw [hp] at hq
    injection hq with hq
    rw [← hq, hb] at hqb
    cases hqb

theorem setRun_borrows (x : ProbSt) : Borrows s (setRun i x s) :=
  borrows_of_others hp hb (setRun_elects ..) fun _ hj => setRun_run_other hj ..

theorem loadProblem_borrows : Borrows s (loadProblem i p s) :=
  borrows_of_others hp hb (loadProblem_loads i p s).elects (loadProblem_loads i p s).others

end

/-- A piece starts on some cores, or is held under gating. -/
def pieceStarts (i : Nat) (p : Prob) (cores : List Nat) (est : Nat) (s : State) : State :=
  if s.gov.gating && !(s.run i).passed then
    if (s.run i).held.isSome then s else holdLog p.job.hearth (setRun i { s.run i with held := some s.localUs } s)
  else
    let u := if (s.run i).phase = .waiting then loadProblem i p s else s
    let e := if u.mandatory (s.run i) then 0 else est
    addElective e (setRun i { u.run i with cores := cores, est := e, held := none, passed := false } u)

theorem takePiece_eq {i : Nat} {p : Prob} {s : State} (hp : s.prob? i = some p) (point : Bool) :
    ∃ (b : Bool) (cores : List Nat) (est : Nat), takePiece point i s = (if b then pieceStarts i p cores est s else s)
      ∧ (b = true → p.job.borrow = true) := by
  refine ⟨_, _, _, by unfold takePiece; rw [hp]; rfl, fun hcond => ?_⟩
  simp only [Bool.and_eq_true] at hcond
  obtain ⟨⟨⟨⟨⟨⟨hb, _⟩, _⟩, _⟩, _⟩, _⟩, _⟩ := hcond
  exact hb

theorem pieceStarts_borrows {i : Nat} {p : Prob} {s : State} (hp : s.prob? i = some p) (hb : p.job.borrow = true)
    (cores : List Nat) (est : Nat) : Borrows s (pieceStarts i p cores est s) := by
  unfold pieceStarts
  split
  · split
    · exact Borrows.refl s
    · exact (setRun_borrows hp hb _).trans ⟨holdLog_elects .., fun j _ _ _ => holdLog_run ..⟩
  · have hload : Borrows s (if (s.run i).phase = .waiting then loadProblem i p s else s) := by
      split
      · exact loadProblem_borrows hp hb
      · exact Borrows.refl s
    dsimp only
    generalize (if (s.run i).phase = .waiting then loadProblem i p s else s) = u at hload ⊢
    have hset (x : ProbSt) : Borrows u (setRun i x u) := setRun_borrows (by rw [hload.elects.prob]; exact hp) hb x
    have helective (e : Nat) (w : State) : Borrows w (addElective e w) := ⟨addElective_elects e w, fun _ _ _ _ => rfl⟩
    exact hload.trans ((hset _).trans (helective _ _))

theorem takePiece_borrows (point : Bool) (i : Nat) (s : State) : Borrows s (takePiece point i s) := by
  cases hp : s.prob? i with
  | none => unfold takePiece; rw [hp]; exact Borrows.refl s
  | some p =>
    obtain ⟨b, cores, est, heq, hb⟩ := takePiece_eq hp point
    rw [heq]
    split
    next h => exact pieceStarts_borrows hp (hb h) cores est
    next => exact Borrows.refl s

theorem admitBorrowed_borrows (h : Nat) (s : State) : Borrows s (admitBorrowed h s) := by
  unfold admitBorrowed startPiece
  split
  · exact takePiece_borrows ..
  · split
    · exact takePiece_borrows ..
    · exact Borrows.refl s

/-- With no borrowed problem waiting or running nothing is borrowed. -/
theorem admitBorrowed_idle {h : Nat} {s : State} (hrun : s.borrowedOn h = none) (hfirst : s.firstRoot h true = none) :
    admitBorrowed h s = s := by
  unfold admitBorrowed
  rw [hrun, hfirst]

theorem Admits.borrowedOn {s t : State} (h : Admits s t) (hearth : Nat) : t.borrowedOn hearth = s.borrowedOn hearth := by
  have hfind : t.probIdx.find? (fun (p, i) => p.job.hearth = hearth && p.job.borrow && (t.run i).phase = .running)
      = s.probIdx.find? fun (p, i) => p.job.hearth = hearth && p.job.borrow && (s.run i).phase = .running := by
    rw [State.probIdx, probs_of_recipe h.elects.recipe]
    refine List.find?_congr fun x hx => ?_
    obtain ⟨p, i⟩ := x
    cases hb : p.job.borrow
    · simp [hb]
    · simp only [h.borrowed i p (prob_of_mem hx) hb]
  unfold State.borrowedOn
  exact congrArg (Option.map (·.2)) hfind

theorem Admits.firstBorrowed {s t : State} (h : Admits s t) (hearth : Nat) : t.firstRoot hearth true = s.firstRoot hearth true := by
  have hmap : t.probIdx.filterMap (admissible t hearth true) = s.probIdx.filterMap (admissible s hearth true) := by
    rw [State.probIdx, probs_of_recipe h.elects.recipe]
    refine List.filterMap_congr fun x hx => ?_
    unfold admissible
    cases hb : x.1.job.borrow
    · simp
    · rw [h.borrowed x.2 x.1 (prob_of_mem hx) hb, h.elects.committed]
  rw [firstRoot_eq, firstRoot_eq, hmap]

/-- The hearths of a group that stands on one hearth. -/
theorem hearths_of_group {l : List Nat} {h : Nat} (hne : l ≠ []) (hall : ∀ n ∈ l, n / 96 = h) (hh : h < 4) :
    ((List.range 4).filter fun k => l.any fun c => c / 96 = k) = [h] := by
  obtain ⟨n, hn⟩ := List.exists_mem_of_ne_nil l hne
  have hpred (k : Nat) : (l.any fun c => decide (c / 96 = k)) = decide (h = k) := by
    rw [Bool.eq_iff_iff, List.any_eq_true, decide_eq_true_eq]
    refine ⟨fun ⟨c, hc, hk⟩ => (hall c hc).symm.trans (of_decide_eq_true hk), fun hk => ⟨n, hn, ?_⟩⟩
    exact decide_eq_true ((hall n hn).trans hk)
  simp only [hpred]
  interval_cases h <;> rfl

theorem electiveWorkIsAdmitted : Sys2Proof.Claims.ElectiveWorkIsAdmitted := by
  intro g h i c p s hbubble hne hall hh hfirst hp hcell hlive hon hpoint hfits hgood
  obtain ⟨q, hq⟩ := waits_of_firstRoot hfirst
  have hqp : q = p := by
    have hplace := hq.place
    rw [hp] at hplace
    exact (Option.some.inj hplace).symm
  subst hqp
  obtain ⟨e, hadmit⟩ := admitRoot_admits hq hfirst hcell hlive (.inr ⟨hon, hpoint, hfits⟩) hgood
  have hadmits : Admits s (admitted i q c e s) := admitted_admits hq
  obtain ⟨hphase, hruncell, _, _⟩ := admitted_runs (i := i) (p := q) (c := c) (e := e) (s := s)
  obtain ⟨n, hn⟩ : ∃ n, s.probs.length = n + 1 := by
    obtain ⟨hlt, _⟩ := List.getElem?_eq_some_iff.mp (show s.probs[i]? = some q from hp)
    exact Nat.exists_eq_succ_of_ne_zero (by omega)
  have hnative : admitNative h s.probs.length s = admitNative h n (admitted i q c e s) := by
    rw [hn, admitNative, hfirst]
    dsimp only
    rw [hadmit, if_neg (by rw [hphase]; decide)]
  have hmore := admitNative_admits h n (admitted i q c e s)
  have hstate : electiveState (.bubble g) s = admitBorrowed h (admitNative h n (admitted i q c e s)) := by
    unfold electiveState
    dsimp only
    rw [if_pos hbubble, hearths_of_group hne hall hh, List.foldl_cons, List.foldl_nil, hnative]
  generalize admitted i q c e s = t at *
  have hrun := hmore.running i (by rw [hphase]; decide)
  have hboth := hadmits.trans hmore
  generalize admitNative h n t = u at *
  have hborrow := admitBorrowed_borrows h u
  have hrun' := hborrow.native i q (by rw [hboth.elects.prob]; exact hp) hq.borrows
  have helects := hboth.elects.trans hborrow.elects
  refine ⟨_, congrArg Host.Outcome.next hstate, by rw [hrun', hrun, hphase], by rw [hrun', hrun, hruncell], fun hnone hidle => ?_,
    helects.st, helects.groups, helects.regs⟩
  rw [admitBorrowed_idle (by rw [hboth.borrowedOn, hidle]) (by rw [hboth.firstBorrowed, hnone])]
  exact hboth.mem

end Sys2Proof.Machine

namespace Sys2Proof
open Machine

/-- Settles O50: what starts, ends or is admitted writes main memory, one group or one problem, and starts that group's cores. -/
theorem workItemsFollowTheTable : Obligations.WorkItemsFollowTheTable := by
  unfold Obligations.WorkItemsFollowTheTable
  exact ⟨slotsStartWhenFed, itemsCompleteTogether, electiveWorkIsAdmitted⟩

end Sys2Proof
end
section
/-! Ingest: packing, Reads and the waits for partners (R179 to R181, R282, R327, R330 to R333). -/

namespace Sys2Proof.Machine

/-! ## Packing -/

theorem Reaches.ingest {s t : State} (h : Reaches s t) : t.ingest = s.ingest := by rw [h.rest]

/-- All but Reads and the bytes read ahead. -/
def State.besideReads (s : State) : State :=
  { s with tx := [], ingest := { s.ingest with reads := [], bytes := [], nextCid := 0, nextPort := 0 } }

theorem issueRead_besideReads (base pos limit : Nat) (s : State) :
    (issueRead base pos limit s).besideReads = s.besideReads := rfl

theorem trimBytes_besideReads (s : State) : (trimBytes s).besideReads = s.besideReads := rfl

theorem readAhead_besideReads (fuel : Nat) (s : State) : (readAhead fuel s).besideReads = s.besideReads := by
  induction fuel generalizing s with
  | zero => rfl
  | succ fuel ih =>
    unfold readAhead
    split
    · rfl
    · split
      · rfl
      · exact (ih _).trans (issueRead_besideReads ..)

/-- Nothing more is packed once the step's last micro-batch has closed. -/
theorem packAll_closed {s : State} (h : s.packCount ≤ s.ingest.open_) (fuel : Nat) : packAll fuel s = s := by
  have hone : packOne s = none := by
    unfold packOne
    dsimp only
    rw [if_pos (by simp [h])]
  cases fuel with
  | zero => rfl
  | succ fuel => unfold packAll; rw [hone]

theorem writeHalf_reaches (n : Nat) (s : State) : Reaches s (writeHalf n s) := by
  unfold writeHalf
  split
  · exact Reaches.refl s
  · exact Reaches.fold (fun s (x : MbHdr × Nat) => vmStore_reaches ..) _ s

/-- A packed step: its headers stand, and the next step opens at the cursor. -/
theorem endPack_packs (extra : List MbHdr) (s : State) : (endPack extra s).ingest.packStep = s.ingest.packStep + 1
    ∧ klook (endPack extra s).ingest.hdrs s.ingest.packStep = some (s.ingest.mbs ++ extra)
    ∧ (endPack extra s).ingest.open_ = 0 ∧ (endPack extra s).ingest.cursor = s.ingest.cursor
    ∧ klook (endPack extra s).ingest.cursorAt (s.ingest.packStep + 1) = some s.ingest.cursor
    ∧ (endPack extra s).job = s.job ∧ (endPack extra s).groups = s.groups ∧ (endPack extra s).regs = s.regs := by
  unfold endPack
  dsimp only
  generalize hu : ({ s with ingest := { s.ingest with
    hdrs := tset (s.ingest.hdrs.filter fun x => decide (s.job.committed ≤ x.1)) s.ingest.packStep (s.ingest.mbs ++ extra)
    bytes := s.ingest.bytes.filter fun b => decide (b.1 < splitBase)
    reads := s.ingest.reads.filter fun r => decide (r.pos < splitBase) } } : State) = u
  have hreach := writeHalf_reaches s.ingest.packStep u
  have hhdrs : klook u.ingest.hdrs s.ingest.packStep = some (s.ingest.mbs ++ extra) := by rw [← hu]; exact klook_tset_same ..
  have hcursor : u.ingest.cursor = s.ingest.cursor := by rw [← hu]
  have hjob : u.job = s.job := by rw [← hu]
  have hgroups : u.groups = s.groups := by rw [← hu]
  have hregs : u.regs = s.regs := by rw [← hu]
  generalize writeHalf s.ingest.packStep u = v at hreach
  have hingest := hreach.ingest
  unfold beginPack
  refine ⟨rfl, by rw [hingest]; exact hhdrs, rfl, by rw [hingest]; exact hcursor, ?_, hreach.job.trans hjob,
    hreach.groups.trans hgroups, hreach.regs.trans hregs⟩
  exact (klook_tset_same ..).trans (by rw [hingest, hcursor])

theorem packCount_of_recipe {s t : State} (h : t.recipe = s.recipe) : t.packCount = s.packCount ∧ t.split = s.split := by
  unfold State.packCount State.split State.map State.params State.cont
  rw [h]
  exact ⟨rfl, rfl⟩

theorem ingestState_packs {s : State} (hlive : s.job.st.live = true) (hroom : s.ingest.packStep ≤ s.job.committed + 2)
    (hclosed : s.packCount ≤ s.ingest.open_) (hsplit : s.split = false) :
    ingestState s = endPack [] (readAhead 64 (trimBytes s)) := by
  have hahead := (readAhead_besideReads 64 (trimBytes s)).trans (trimBytes_besideReads s)
  have hopen : (readAhead 64 (trimBytes s)).ingest.open_ = s.ingest.open_ := (congrArg (fun u : State => u.ingest.open_) hahead :)
  obtain ⟨hcount, hsame⟩ := packCount_of_recipe (congrArg State.recipe hahead :)
  unfold ingestState
  rw [if_neg (by simp [hlive, hroom]), packAll_closed hclosed]
  dsimp only
  generalize readAhead 64 (trimBytes s) = u at hopen hcount hsame
  have hcount' : u.packCount = s.packCount := hcount
  have hsame' : u.split = s.split := hsame
  rw [if_neg (by rw [hopen, hcount']; omega), if_pos (by rw [hsame', hsplit]; rfl)]

theorem packingFollowsTheCursor : Sys2Proof.Claims.PackingFollowsTheCursor := by
  intro s
  refine ⟨fun hlive hroom hclosed hsplit => ?_, fun hno => ?_, fun len => ?_, fun l len hlong hsplit => ?_,
    fun l len hpos hfits hfull => ?_⟩
  · have hstate := ingestState_packs hlive hroom hclosed hsplit
    have hahead := (readAhead_besideReads 64 (trimBytes s)).trans (trimBytes_besideReads s)
    generalize readAhead 64 (trimBytes s) = u at hstate hahead
    obtain ⟨hstep, hhdrs, hopen, hcursor, hat, hjob, hgroups, hregs⟩ := endPack_packs [] u
    have kept {β : Type} (f : State → β) := congrArg f hahead
    have hn : u.ingest.packStep = s.ingest.packStep := kept (·.ingest.packStep)
    have hmbs : u.ingest.mbs = s.ingest.mbs := kept (·.ingest.mbs)
    have hc : u.ingest.cursor = s.ingest.cursor := kept (·.ingest.cursor)
    rw [hn] at hstep hhdrs hat
    rw [hmbs, List.append_nil] at hhdrs
    rw [hc] at hcursor hat
    exact ⟨_, congrArg Host.Outcome.next hstate, hstep, hhdrs, hopen, hcursor, hat, hjob.trans (kept (·.job)),
      hgroups.trans (kept (·.groups)), hregs.trans (kept (·.regs))⟩
  · exact congrArg Host.Outcome.next (if_pos (by rcases hno with h | h <;> simp [h]))
  · rfl
  · have hne : l ≠ 0 := by omega
    have htake : takeRecord l len s = some (overLong s.ingest.cursor l
        (moveTo { s.ingest.cursor with off := s.ingest.cursor.off + len } s)) := by
      unfold takeRecord
      dsimp only
      rw [if_neg hne, if_pos hlong]
    have hover (u : State) (hu : u.split = false) : overLong s.ingest.cursor l u
        = bump 0x9100 2 1 64 (onOpen (fun x => { x with dropped := satAdd 32 x.dropped 1 }) u) := by
      unfold overLong
      rw [hu]
      rfl
    refine ⟨_, htake, ?_⟩
    rw [hover (moveTo { s.ingest.cursor with off := s.ingest.cursor.off + len } s) hsplit]
    exact ⟨rfl, bump_counter_same .., rfl⟩
  · have htake : takeRecord l len s = some (closeMb s) := by
      unfold takeRecord
      dsimp only
      rw [if_neg (by omega), if_neg (by omega), if_pos (by rw [decide_eq_true hfull]; rfl)]
    exact ⟨_, htake, rfl, rfl⟩

/-! ## Reads -/

/-- A failed Read as it goes out again. -/
def nextTry (r : NvmeRead) (s : State) : NvmeRead :=
  { r with cid := s.ingest.nextCid, port := 1 - r.port, tries := r.tries + 1, sent := s.localUs }

section
variable {cid : Nat} {r : NvmeRead} {s : State} (hr : s.ingest.reads.find? (fun r => r.cid = cid) = some r)
include hr

theorem retryRead_again (status : Nat) (htries : r.tries < 3) : retryRead cid status s = send (.nvmeRead (nextTry r s)) { s with
    ingest := { s.ingest with
      reads := s.ingest.reads.filter (fun x => x.cid != cid) ++ [nextTry r s], nextCid := s.ingest.nextCid + 1 } } := by
  unfold retryRead
  rw [hr]
  dsimp only
  rw [if_neg (by omega)]
  rfl

theorem retryRead_halts (status : Nat) (htries : 3 ≤ r.tries) : retryRead cid status s = halt PARTNER_SILENT
    (logRead r status { s with ingest := { s.ingest with reads := s.ingest.reads.filter fun x => x.cid != cid } }) := by
  unfold retryRead
  rw [hr]
  dsimp only
  rw [if_pos htries]

end

theorem HaltsNow.of_stands {s u : State} (h : HaltsNow s) (hu : Stands s u) : HaltsNow u := by
  unfold HaltsNow
  rw [hu.st, hu.bnd]
  exact h

/-- A halt after a log record. -/
theorem halt_after {code : Nat} {s u : State} (hu : Stands s u) (h : HaltsNow s) : Halted code s (halt code u) := by
  exact (halt_halted (h.of_stands hu)).congr hu.committed (congrArg Recipe.loaded hu.recipe) hu.regs hu.sec

theorem failedReadsGoOutAgain : Sys2Proof.Claims.FailedReadsGoOutAgain := by
  intro cid status r s hr retry again late
  refine ⟨fun data => ?_, fun data hstatus htries => ?_, fun htries => ?_, fun data hstatus htries hnow => ?_⟩
  · have hstate : readCompleteState cid 0 data s = { s with ingest := { s.ingest with
        reads := s.ingest.reads.filter (fun x => x.cid != cid), bytes := s.ingest.bytes ++ [(r.pos, data.take r.len)] } } := by
      unfold readCompleteState
      rw [hr]
      rfl
    exact ⟨_, congrArg Host.Outcome.next hstate, rfl⟩
  · have hstate : readCompleteState cid status data s = retryRead cid status s := by
      unfold readCompleteState
      rw [hr]
      dsimp only
      rw [if_pos (by simp [hstatus])]
    exact ⟨_, congrArg Host.Outcome.next (hstate.trans (retryRead_again hr status htries)), rfl, rfl, rfl, rfl, rfl⟩
  · have hstate : readTimeoutState cid 0 s = retryRead cid 0 { s with localUs := late } := by
      unfold readTimeoutState
      rw [hr]
      rfl
    have htry := retryRead_again (s := { s with localUs := late }) hr 0 htries
    exact ⟨_, congrArg Host.Outcome.next (hstate.trans htry), rfl, rfl, rfl, rfl, rfl⟩
  · have hstate : readCompleteState cid status data s = retryRead cid status s := by
      unfold readCompleteState
      rw [hr]
      dsimp only
      rw [if_pos (by simp [hstatus])]
    have hhalt := hstate.trans (retryRead_halts hr status htries)
    generalize hu : ({ s with ingest := { s.ingest with reads := s.ingest.reads.filter fun x => x.cid != cid } } : State) = u
      at hhalt
    have hstands : Stands s u := by rw [← hu]; exact stands_of_eq rfl rfl rfl rfl rfl rfl rfl rfl rfl
    have hmm : u.mm = s.mm := by rw [← hu]
    have hlogged : Stands s (logRead r status u) := hstands.trans (logAdd_stands ..)
    have hlogmm : (logRead r status u).mm = s.mm := (logAdd_mm ..).trans hmm
    generalize logRead r status u = v at hhalt hlogged hlogmm
    refine ⟨_, congrArg Host.Outcome.next hhalt, halt_after hlogged hnow, ?_⟩
    rw [halt_eq (hnow.of_stands hlogged), haltNow_mem (hnow.of_stands hlogged).1, hlogmm]

/-! ## Waits for partners -/

/-- The bound of a late step has passed once more. -/
def boundPassed (s : State) : State :=
  { s with
    localUs := max s.localUs (s.job.commitUs + (s.ingest.lateBounds + 1) * (s.eff.ingestBound * 1000))
    ingest := { s.ingest with lateBounds := s.ingest.lateBounds + 1 } }

theorem boundLog_eq (late : Nat) (s : State) : ∃ d, (match s.ingest.reads.find? fun r => r.tgt = late with
    | some r =>
      if s.packCount ≤ s.ingest.open_ && s.split && !s.noticesHeld then
        logAdd PARTNER_SILENT 9 0xFF 0 0xFFFF [late, 7, 0, 0, s.job.attempt] s
      else logRead r 0 s
    | none =>
      let wait := if s.packCount ≤ s.ingest.open_ && s.split && !s.noticesHeld then 7 else 6
      logAdd PARTNER_SILENT 9 0xFF 0 0xFFFF [late, wait, 0, 0, s.job.attempt] s)
    = logAdd PARTNER_SILENT 9 0xFF 0 0xFFFF d s := by
  split
  · split
    · exact ⟨_, rfl⟩
    · exact ⟨_, rfl⟩
  · exact ⟨_, rfl⟩

theorem ingestBoundState_eq {late : Nat} {s : State} (hlive : s.job.st.live = true) (hdiag : s.isDiag = false)
    (hnone : klook s.ingest.hdrs (s.job.committed + 1) = none) : ∃ d, ingestBoundState late s =
      if 4 ≤ s.ingest.lateBounds + 1 then halt PARTNER_SILENT (logAdd PARTNER_SILENT 9 0xFF 0 0xFFFF d (boundPassed s))
      else logAdd PARTNER_SILENT 9 0xFF 0 0xFFFF d (boundPassed s) := by
  obtain ⟨d, hd⟩ := boundLog_eq late (boundPassed s)
  refine ⟨d, ?_⟩
  rw [← hd]
  unfold ingestBoundState
  rw [if_neg (by simp [hlive, hdiag, hnone])]
  rfl

theorem boundPassed_stands (s : State) : Stands s (boundPassed s) := stands_of_eq rfl rfl rfl rfl rfl rfl rfl rfl rfl

theorem ingestWaitsForItsPartners : Sys2Proof.Claims.IngestWaitsForItsPartners := by
  intro s
  refine ⟨fun tgt hloaded hup htgt => ?_, fun src step l hmem hsplit hstep => ?_, fun src step l hno => ?_,
    fun late hlive hdiag hnone => ⟨fun hfew => ?_, fun hmany hnow => ?_⟩, fun late hsome => ?_⟩
  · exact ⟨_, congrArg Host.Outcome.next (if_pos (by simp [hloaded, hup, htgt])), rfl⟩
  · refine ⟨_, congrArg Host.Outcome.next (if_pos ?_), klook_tset_same .., rfl⟩
    rw [hsplit]
    rcases hstep with h | h <;> simp [hmem, h]
  · exact congrArg Host.Outcome.next (if_neg (by simp [hno]))
  · obtain ⟨d, hstate⟩ := ingestBoundState_eq (late := late) hlive hdiag hnone
    rw [if_neg (by omega)] at hstate
    have hstands := (boundPassed_stands s).trans (logAdd_stands PARTNER_SILENT 9 0xFF 0 0xFFFF d (boundPassed s))
    exact ⟨_, congrArg Host.Outcome.next hstate, logAdd_localUs .., logAdd_ingest .., hstands.st, hstands.attempt, logAdd_mm ..⟩
  · obtain ⟨d, hstate⟩ := ingestBoundState_eq (late := late) hlive hdiag hnone
    rw [if_pos (by omega)] at hstate
    have hstands := (boundPassed_stands s).trans (logAdd_stands PARTNER_SILENT 9 0xFF 0 0xFFFF d (boundPassed s))
    have hus := logAdd_localUs PARTNER_SILENT 9 0xFF 0 0xFFFF d (boundPassed s)
    generalize logAdd PARTNER_SILENT 9 0xFF 0 0xFFFF d (boundPassed s) = u at *
    have hlater := hnow.of_stands hstands
    refine ⟨_, congrArg Host.Outcome.next hstate, halt_after hstands hnow, ?_⟩
    rw [halt_eq hlater]
    exact (haltNow_stops hlater.1).localUs.trans hus
  · exact congrArg Host.Outcome.next (if_pos (by simp [hsome]))

end Sys2Proof.Machine

namespace Sys2Proof
open Machine

/-- Settles O54: a step whose micro-batches have closed is packed as it stands; a Read goes out again, or halts the job. -/
theorem ingestPacksAndRetries : Obligations.IngestPacksAndRetries := by
  unfold Obligations.IngestPacksAndRetries
  exact ⟨packingFollowsTheCursor, failedReadsGoOutAgain, ingestWaitsForItsPartners⟩

end Sys2Proof
end
section
/-! Host ports, connections and frames (R323 to R326, R337). -/

namespace Sys2Proof.Machine

theorem host_setHost_same {p : Nat} {s : State} (h : p < s.ports.length) (x : HostPort) : (setHost p x s).host p = x := by
  unfold State.host setHost
  rw [List.getD_eq_getElem?_getD, List.getElem?_set_self h]
  rfl

theorem host_setHost_other {p q : Nat} (h : p ≠ q) (x : HostPort) (s : State) : (setHost p x s).host q = s.host q := by
  unfold State.host setHost
  rw [List.getD_eq_getElem?_getD, List.getD_eq_getElem?_getD, List.getElem?_set_ne h]

theorem host_of_ports {s t : State} (h : t.ports = s.ports) (p : Nat) : t.host p = s.host p := by
  rw [State.host, State.host, h]

/-! ## Links and connections -/

/-- The port that is left takes a connection over. -/
def Conn.moved (p : Nat) (c : Conn) : Conn := if c.port = p then { c with port := 1 - p } else c

/-- The port that is left takes a Read over. -/
def NvmeRead.moved (p : Nat) (r : NvmeRead) : NvmeRead := if r.port = p then { r with port := 1 - p } else r

theorem Conn.moved_port {p : Nat} (hp : p < 2) (c : Conn) : (c.moved p).port ≠ p := by
  unfold Conn.moved
  split
  · change 1 - p ≠ p; omega
  · assumption

theorem NvmeRead.moved_port {p : Nat} (hp : p < 2) (r : NvmeRead) : (r.moved p).port ≠ p := by
  unfold NvmeRead.moved
  split
  · change 1 - p ≠ p; omega
  · assumption

theorem Conn.moved_id (p : Nat) (c : Conn) : (c.moved p).id = c.id := by unfold Conn.moved; split <;> rfl
theorem NvmeRead.moved_cid (p : Nat) (r : NvmeRead) : (r.moved p).cid = r.cid := by unfold NvmeRead.moved; split <;> rfl

/-- A port's link has gone, and that is logged. -/
def linkLost (p : Nat) (s : State) : State :=
  logAdd 0 7 0 p 0xFFFF [1, p] (setHost p { s.host p with up := false, losses := satAdd 32 (s.host p).losses 1 } s)

/-- Connections and Reads of a port stand on the other one. -/
def linkMoved (p : Nat) (s : State) : State :=
  { s with
    dev := { s.dev with hostUp := s.dev.hostUp.set p false }
    conns := s.conns.map (Conn.moved p)
    ingest := { s.ingest with reads := s.ingest.reads.map (NvmeRead.moved p) } }

theorem linkLossState_eq {p : Nat} {s : State} (hp : p < 2) (hup : (s.host p).up = true) : linkLossState p s =
    { linkMoved p (linkLost p s) with
      tx := (linkLost p s).tx ++ (((linkLost p s).ingest.reads.filter fun (r : NvmeRead) => r.port = p).map fun r =>
        .nvmeRead { r with port := 1 - p }) } := by
  unfold linkLossState
  dsimp only
  rw [if_neg (by simp [hup]; omega)]
  exact sendAll_eq (fun _ (r : NvmeRead) => .nvmeRead { r with port := 1 - p }) (fun _ _ _ => rfl) _ (linkMoved p (linkLost p s))

theorem linkLoss_moves {p : Nat} {s : State} (hp : p < 2) (hports : s.ports.length = 2) (hup : (s.host p).up = true) :
    ∃ t, exec (.hostPortLinkLoss p) s = .next t ∧ (t.host p).up = false
      ∧ (t.host p).losses = satAdd 32 (s.host p).losses 1 ∧ t.host (1 - p) = s.host (1 - p)
      ∧ (∀ c ∈ t.conns, c.port ≠ p) ∧ t.conns.map (·.id) = s.conns.map (·.id)
      ∧ (∀ r ∈ t.ingest.reads, r.port ≠ p) ∧ t.ingest.reads.map (·.cid) = s.ingest.reads.map (·.cid)
      ∧ Logged 0 [1, p] s t ∧ t.job.st = s.job.st ∧ t.mm = s.mm := by
  have hstate := linkLossState_eq hp hup
  have hportsLost : (linkLost p s).ports = (setHost p { s.host p with up := false, losses := satAdd 32 (s.host p).losses 1 } s).ports :=
    logAdd_ports ..
  have hconns : (linkLost p s).conns = s.conns := logAdd_conns ..
  have hingest : (linkLost p s).ingest = s.ingest := logAdd_ingest ..
  have hst : (linkLost p s).job.st = s.job.st := logAdd_job_st ..
  have hmm : (linkLost p s).mm = s.mm := logAdd_mm ..
  have hlogged : Logged 0 [1, p] _ (linkLost p s) := logAdd_logged 0 7 0 p 0xFFFF [1, p]
    (setHost p { s.host p with up := false, losses := satAdd 32 (s.host p).losses 1 } s)
  generalize linkLost p s = u at *
  have hhost (q : Nat) : ({ linkMoved p u with tx := u.tx ++ ((u.ingest.reads.filter fun (r : NvmeRead) => r.port = p).map fun r =>
      .nvmeRead { r with port := 1 - p }) } : State).host q = _ := host_of_ports hportsLost q
  refine ⟨_, congrArg Host.Outcome.next hstate, ?_, ?_, ?_, ?_, ?_, ?_, ?_, hlogged.congr rfl rfl, hst, hmm⟩
  · rw [hhost, host_setHost_same (by omega)]
  · rw [hhost, host_setHost_same (by omega)]
  · rw [hhost, host_setHost_other (by omega)]
  · intro c hc
    obtain ⟨d, _, rfl⟩ := List.mem_map.mp (show c ∈ u.conns.map (Conn.moved p) from hc)
    exact Conn.moved_port hp d
  · change (u.conns.map (Conn.moved p)).map (·.id) = _
    rw [List.map_map, hconns]
    exact List.map_congr_left fun c _ => Conn.moved_id p c
  · intro r hr
    obtain ⟨d, _, rfl⟩ := List.mem_map.mp (show r ∈ u.ingest.reads.map (NvmeRead.moved p) from hr)
    exact NvmeRead.moved_port hp d
  · change (u.ingest.reads.map (NvmeRead.moved p)).map (·.cid) = _
    rw [List.map_map, hingest]
    exact List.map_congr_left fun r _ => NvmeRead.moved_cid p r

theorem clientConnectState_takes {addr k : Nat} {v : Bytes} {s : State}
    (hclient : s.regs.clients.find? (fun c => ofLe (c.2.take 16) = addr) = some (k, v))
    (hup : (s.host s.ingest.nextPort).up = true) (hfew : s.conns.countP (fun c => decide (0x100 ≤ c.id)) < 64) :
    clientConnectState addr s = { s with
      ingest := { s.ingest with nextPort := 1 - s.ingest.nextPort }
      conns := ⟨0x100 + k, s.ingest.nextPort, fullRate, 0⟩ :: s.conns.filter fun c => c.id != 0x100 + k } := by
  have hchosen : (if ((takePort s).2.host (takePort s).1).up = true then (takePort s).1 else 1 - (takePort s).1)
      = s.ingest.nextPort := if_pos hup
  have hhost : ((takePort s).2.host s.ingest.nextPort).up = true := hup
  unfold clientConnectState
  rw [hclient]
  dsimp only
  rw [if_neg (by simp; omega), hchosen, if_pos hhost]
  rfl

theorem connectionsMoveToTheOtherPort : Sys2Proof.Claims.ConnectionsMoveToTheOtherPort := by
  intro p s hp hports
  refine ⟨fun hup => linkLoss_moves hp hports hup, fun hdown => ?_, fun hmain hawake => ?_,
    fun addr k v hclient hup hport hfew => ?_, fun addr hnone => ?_⟩
  · exact congrArg Host.Outcome.next (if_pos (by simp [hdown]))
  · have hstate : hostUpState p s = setHost p { s.host p with up := true }
        { s with dev := { s.dev with hostUp := s.dev.hostUp.set p true } } := if_neg (by simp [hmain, hawake]; omega)
    refine ⟨_, congrArg Host.Outcome.next hstate, ?_, ?_, rfl, rfl⟩
    · rw [host_setHost_same (by exact hports ▸ hp)]
    · rw [host_setHost_other (by omega)]; rfl
  · refine ⟨_, congrArg Host.Outcome.next (clientConnectState_takes hclient hup hfew), List.mem_cons_self, fun c hc hid => ?_,
      rfl, rfl⟩
    exact List.mem_cons_of_mem _ (List.mem_filter.mpr ⟨hc, by simpa using hid⟩)
  · refine congrArg Host.Outcome.next ?_
    unfold clientConnectState
    rw [hnone]

/-! ## Frames -/

theorem memBytes_getD {m : Mem} {n i : Nat} (hi : i < n) (a : Nat) : (memBytes m a n).getD i 0 = memRead m (a + i) := by
  induction n generalizing a i with
  | zero => omega
  | succ n ih =>
    cases i with
    | zero => rfl
    | succ i =>
      have hnext := ih (show i < n by omega) (a + 1)
      rw [show a + (i + 1) = a + 1 + i by omega]
      exact hnext

/-- A stored range reads back. -/
theorem memRead_memStore {m : Mem} {a : Nat} {bs : Bytes} (hm : memWf m = true) {i : Nat} (hi : i < bs.length) :
    memRead (memStore m a bs) (a + i) = bs.getD i 0 := by
  have hbytes := memBytes_store bs m a hm
  have hget := memBytes_getD (m := memStore m a bs) hi a
  rw [hbytes] at hget
  exact hget.symm

/-- One more frame has been received. -/
def frameTaken (p : Nat) (s : State) : State := setHost p { s.host p with received := satAdd 64 (s.host p).received 1 } s

/-- What a supported frame does. -/
def frameServed (f : Frame) (s : State) : State :=
  match f.body with
  | .icmpEcho => send (.frame f.port frameEchoReply) s
  | .neighbourDiscovery => send (.frame f.port frameNeighbour) s
  | .arp => send (.frame f.port frameArp) s
  | .roce _ => if f.ce then send (.frame f.port frameCnp) s else s
  | .inboxWrite c off data =>
    let s := if f.ce then send (.frame f.port frameCnp) s else s
    if s.conns.any fun k => k.id = c && k.port = f.port then inboxWrite c off data s else s
  | _ => s

theorem frameState_eq {f : Frame} {s : State} (hp : f.port < 2) (hup : (s.host f.port).up = true) : frameState f s =
    if !s.frameOk f then setHost f.port { (frameTaken f.port s).host f.port with
        discarded := satAdd 64 ((frameTaken f.port s).host f.port).discarded 1 } (frameTaken f.port s)
    else frameServed f (frameTaken f.port s) := by
  unfold frameState
  dsimp only
  rw [if_neg (by simp [hup]; omega)]
  rfl

theorem inboxWrite_lands {c off lo n : Nat} {data : Bytes} {s : State} (hwindow : s.window c = some (lo, n))
    (hup : s.mm.up = true) (hlo : lo ≤ off) (hhi : off + data.length ≤ lo + n) :
    inboxWrite c off data s = { s with eval := { s.eval with inbox := memStore s.eval.inbox off data } } := by
  unfold inboxWrite
  rw [hwindow]
  dsimp only
  rw [if_pos (by simp [hup, hlo, hhi])]

theorem inboxWrite_outside {c off lo n : Nat} {data : Bytes} {s : State} (hwindow : s.window c = some (lo, n))
    (hout : off < lo ∨ lo + n < off + data.length) : inboxWrite c off data s = s := by
  unfold inboxWrite
  rw [hwindow]
  dsimp only
  rw [if_neg (by simp; omega)]

/-- A request written by a client over its connection. -/
theorem frameServed_inbox {f : Frame} {c off : Nat} {data : Bytes} {s : State} (hbody : f.body = .inboxWrite c off data)
    (hce : f.ce = false) (hconn : ∃ k ∈ s.conns, k.id = c ∧ k.port = f.port) : frameServed f s = inboxWrite c off data s := by
  obtain ⟨k, hk, hid, hport⟩ := hconn
  have hany : (s.conns.any fun k => k.id = c && k.port = f.port) = true :=
    List.any_eq_true.mpr ⟨k, hk, by simp [hid, hport]⟩
  unfold frameServed
  rw [hbody, hce]
  exact if_pos hany

theorem pfcState_eq {p : Nat} {s : State} (hp : p < 2) (hup : (s.host p).up = true) (prio q : Nat) : ∃ x,
    pfcState p prio q s = setHost p x s ∧ x.pfc = satAdd 64 (s.host p).pfc 1
      ∧ (prio ≠ s.regs.prio.getD 0 3 → x.pausedUntil = (s.host p).pausedUntil)
      ∧ (prio = s.regs.prio.getD 0 3 → tget 0 x.pausedUntil prio = s.localUs + cdiv (q % 65536 * 128) 100000) := by
  unfold pfcState
  dsimp only
  rw [if_neg (by simp [hup]; omega)]
  split
  next h => exact ⟨_, rfl, rfl, fun hne => absurd h hne, fun _ => tget_tset_same ..⟩
  next h => exact ⟨_, rfl, rfl, fun _ => rfl, fun he => absurd he h⟩

theorem framesAreTakenOrDiscarded : Sys2Proof.Claims.FramesAreTakenOrDiscarded := by
  intro f s hp hports hup counted
  have hlen : f.port < s.ports.length := hports ▸ hp
  have hstate := frameState_eq hp hup
  have htaken : (frameTaken f.port s).host f.port = counted (s.host f.port) := host_setHost_same hlen _
  refine ⟨fun hbad => ?_, fun hbody hok => ?_, fun c off data lo n hbody hce hok hconn hwindow hmm hwf => ?_, fun prio q => ?_,
    fun c => ⟨_, rfl, rfl, rfl⟩⟩
  · rw [hbad, htaken] at hstate
    have hlen' : f.port < (frameTaken f.port s).ports.length := by
      change _ < (s.ports.set f.port _).length
      rw [List.length_set]; exact hlen
    exact ⟨_, congrArg Host.Outcome.next hstate, host_setHost_same hlen' _, rfl⟩
  · rw [hok] at hstate
    have hserved : frameServed f (frameTaken f.port s) = send (.frame f.port frameEchoReply) (frameTaken f.port s) := by
      unfold frameServed
      rw [hbody]
    exact ⟨_, congrArg Host.Outcome.next (hstate.trans hserved), rfl, htaken, rfl⟩
  · rw [hok] at hstate
    have hserved := hstate.trans (frameServed_inbox (s := frameTaken f.port s) hbody hce hconn)
    refine ⟨fun hlo hhi => ?_, fun hout => ?_⟩
    · have hlands := hserved.trans (inboxWrite_lands (s := frameTaken f.port s) hwindow hmm hlo hhi)
      refine ⟨_, congrArg Host.Outcome.next hlands, fun i hi => memRead_memStore hwf hi, fun a ha => ?_, rfl⟩
      exact memRead_store_other data _ _ ha
    · exact ⟨_, congrArg Host.Outcome.next (hserved.trans (inboxWrite_outside (s := frameTaken f.port s) hwindow hout)), rfl⟩
  · obtain ⟨x, hpfc, hcount, hother, hsame⟩ := pfcState_eq hp hup prio q
    have hhost : (setHost f.port x s).host f.port = x := host_setHost_same hlen x
    refine ⟨_, congrArg Host.Outcome.next hpfc, by rw [hhost]; exact hcount, rfl, fun h => by rw [hhost]; exact hother h,
      fun h => by rw [hhost]; exact hsame h⟩

end Sys2Proof.Machine

namespace Sys2Proof
open Machine

/-- Settles O55: a link's loss moves what stood on it; a frame changes its port, and the inbox inside the window alone. -/
theorem hostPortsCarryConnections : Obligations.HostPortsCarryConnections := by
  unfold Obligations.HostPortsCarryConnections
  exact ⟨connectionsMoveToTheOtherPort, framesAreTakenOrDiscarded⟩

end Sys2Proof
end
section
/-! What the carrying of a collective leaves of its run: the micro-batch it stands at and those it has finished; no duty done is
taken back (R250, R251, R255). -/

namespace Sys2Proof.Machine

/-- A collective has been carried on. -/
structure Carries (id : Nat) (s t : State) : Prop where
  cur : (t.collRun id).cur = (s.collRun id).cur
  finished : (t.collRun id).finished = (s.collRun id).finished
  done : (s.collRun id).doneBuckets ⊆ (t.collRun id).doneBuckets
  others : ∀ k, k ≠ id → t.collRun k = s.collRun k

theorem Carries.refl (id : Nat) (s : State) : Carries id s s := ⟨rfl, rfl, List.Subset.refl _, fun _ _ => rfl⟩

theorem Carries.trans {id : Nat} {s t u : State} (h : Carries id s t) (k : Carries id t u) : Carries id s u :=
  ⟨k.cur.trans h.cur, k.finished.trans h.finished, List.Subset.trans h.done k.done,
    fun j hj => (k.others j hj).trans (h.others j hj)⟩

theorem carries_foldl {id : Nat} {α : Type} {g : State → α → State} (h : ∀ s a, Carries id s (g s a)) (l : List α) (s : State) :
    Carries id s (l.foldl g s) := by
  induction l generalizing s with
  | nil => exact Carries.refl id s
  | cons a l ih => exact (h s a).trans (ih (g s a))

/-- What reaches no run. -/
theorem carries_of_coll {id : Nat} {s t : State} (h : t.coll = s.coll) : Carries id s t := by
  have hrun (k : Nat) : t.collRun k = s.collRun k := by rw [State.collRun, State.collRun, h]
  exact ⟨by rw [hrun], by rw [hrun], by rw [hrun]; exact List.Subset.refl _, fun k _ => hrun k⟩

theorem Sends.carries {id : Nat} {s t : State} (h : Sends s t) : Carries id s t := carries_of_coll h.only.coll
theorem Reaches.carries {id : Nat} {s t : State} (h : Reaches s t) : Carries id s t := carries_of_coll (by rw [h.rest])

theorem setCollRun_collRun (id k : Nat) (r : CollRun) (s : State) :
    (setCollRun id r s).collRun k = if id = k then r else s.collRun k := tget_tset ..

theorem setCollRun_collRun_same (id : Nat) (r : CollRun) (s : State) : (setCollRun id r s).collRun id = r := by
  rw [setCollRun_collRun, if_pos rfl]

theorem setCollRun_collRun_other {id k : Nat} (h : k ≠ id) (r : CollRun) (s : State) :
    (setCollRun id r s).collRun k = s.collRun k := by
  rw [setCollRun_collRun, if_neg (Ne.symm h)]

/-- A run set with its place kept and no duty taken back. -/
theorem setCollRun_carries {id : Nat} {r : CollRun} {s : State} (hcur : r.cur = (s.collRun id).cur)
    (hfinished : r.finished = (s.collRun id).finished) (hdone : (s.collRun id).doneBuckets ⊆ r.doneBuckets) :
    Carries id s (setCollRun id r s) where
  cur := by rw [setCollRun_collRun_same, hcur]
  finished := by rw [setCollRun_collRun_same, hfinished]
  done := by rw [setCollRun_collRun_same]; exact hdone
  others k hk := setCollRun_collRun_other hk r s

theorem duty_carries (c : Coll) (k : Nat) (left : List Arrival → List Arrival) (s : State) : Carries c.id s (duty c k left s) :=
  setCollRun_carries rfl rfl (List.subset_cons_self _ _)

theorem sendBucket_carries {id : Nat} (c : Coll) (rank bucket : Nat) (bs : Bytes) (st : List NStatus) (s : State) :
    Carries id s (sendBucket c rank bucket bs st s) :=
  carries_foldl (fun s _ => (sends_injectPacket _ s).carries) _ s

theorem sendCount_carries {id : Nat} (c : Coll) (rank seg n : Nat) (s : State) : Carries id s (sendCount c rank seg n s) :=
  (sends_injectPacket _ s).carries

theorem writeDst_carries {id : Nat} (c : Coll) (m off : Nat) (bs : Bytes) (s : State) :
    Carries id s (writeDst c m off bs s) := by
  unfold writeDst
  split
  · exact carries_of_coll rfl
  · exact (vmStore_reaches ..).carries

theorem kneaderRead_carries {id : Nat} {c : Coll} {va n : Nat} {k : Bytes → State → State} {s : State}
    (h : ∀ bs s, Carries id s (k bs s)) : Carries id s (kneaderRead c va n k s) := by
  unfold kneaderRead
  split
  · exact (readTouch_reaches _ _ _ s).carries.trans (h _ _)
  · exact Carries.refl id s

theorem reduceBucket_carries (c : Coll) (m b seg off len : Nat) (s : State) : Carries c.id s (reduceBucket c m b seg off len s) := by
  unfold reduceBucket
  dsimp only
  split
  · exact Carries.refl _ s
  · refine kneaderRead_carries fun bs s => ?_
    split
    · exact ((duty_carries ..).trans (writeDst_carries ..)).trans (setCollRun_carries rfl rfl (List.Subset.refl _))
    · exact (duty_carries ..).trans (sendBucket_carries ..)

theorem spreadOn_carries (c : Coll) (m b seg off len : Nat) (bs : Bytes) (s : State) :
    Carries c.id s (spreadOn c m b seg off len bs s) := by
  unfold spreadOn
  exact ((writeDst_carries ..).trans (carries_foldl (fun s _ => sendBucket_carries ..) _ _)).trans (duty_carries ..)

theorem spreadBucket_carries (c : Coll) (m b seg off len : Nat) (s : State) : Carries c.id s (spreadBucket c m b seg off len s) := by
  unfold spreadBucket
  split
  · exact Carries.refl _ s
  · split
    · exact kneaderRead_carries fun _ _ => spreadOn_carries ..
    · split
      · exact Carries.refl _ s
      · exact spreadOn_carries ..

theorem grantBuckets_carries (c : Coll) (n : Nat) (s : State) : Carries c.id s (grantBuckets c n s) := by
  unfold grantBuckets
  dsimp only
  split
  · exact Carries.refl _ s
  · refine (setCollRun_carries ?_ ?_ ?_).trans (sends_injectPacket ..).carries
    · rfl
    · rfl
    · exact List.Subset.refl _

theorem p2pBucket_carries (c : Coll) (m b off len : Nat) (s : State) : Carries c.id s (p2pBucket c m b off len s) := by
  unfold p2pBucket
  dsimp only
  split
  · split
    · exact Carries.refl _ s
    · refine kneaderRead_carries fun bs s => ((setCollRun_carries ?_ ?_ ?_).trans (sendBucket_carries ..)).trans (duty_carries ..)
      · rfl
      · rfl
      · exact List.Subset.refl _
  · split
    · exact Carries.refl _ s
    · split
      · exact Carries.refl _ s
      · have hwritten (off : Nat) (bs : Bytes) (left : List Arrival → List Arrival) :
            Carries c.id s (duty c b left (writeDst c m off bs s)) := (writeDst_carries ..).trans (duty_carries ..)
        split
        · exact (hwritten ..).trans (grantBuckets_carries ..)
        · exact hwritten ..

theorem a2aSend_carries {id : Nat} (c : Coll) (m j : Nat) (s : State) : Carries id s (a2aSend c m j s) :=
  ((readTouch_reaches ..).carries.trans (sendCount_carries ..)).trans (carries_foldl (fun _ _ => sendBucket_carries ..) _ _)

theorem a2aDuty_carries (c : Coll) (m i : Nat) (s : State) : Carries c.id s (a2aDuty c m i s) := by
  have hwrite (bs : Bytes) (s : State) : Carries c.id s (a2aWrite c m i bs s) := (writeDst_carries ..).trans (writeDst_carries ..)
  unfold a2aDuty
  split
  · exact Carries.refl _ s
  · split
    · exact kneaderRead_carries fun bs s => (hwrite bs s).trans (duty_carries ..)
    · split
      · exact (hwrite _ s).trans (duty_carries ..)
      · exact Carries.refl _ s

theorem countBucket_carries (c : Coll) (m seg : Nat) (s : State) : Carries c.id s (countBucket c m seg s) := by
  unfold countBucket
  dsimp only
  split
  · exact Carries.refl _ s
  · refine kneaderRead_carries fun bs s => ?_
    split
    · exact (duty_carries ..).trans (writeDst_carries ..)
    · exact (duty_carries ..).trans (sendCount_carries ..)

/-- One bucket of a collective, by its operation. -/
def bucketStep (c : Coll) (m : Nat) (s : State) (x : (Nat × Nat × Nat) × Nat) : State :=
  if !(!(s.collRun c.id).doneBuckets.contains x.2) then s else
    match c.op with
    | 0 => reduceBucket c m x.2 x.1.1 x.1.2.1 x.1.2.2 s
    | 1 | 2 => spreadBucket c m x.2 x.1.1 x.1.2.1 x.1.2.2 s
    | _ => p2pBucket c m x.2 x.1.2.1 x.1.2.2 s

theorem bucketStep_carries (c : Coll) (m : Nat) (s : State) (x : (Nat × Nat × Nat) × Nat) :
    Carries c.id s (bucketStep c m s x) := by
  unfold bucketStep
  split
  · exact Carries.refl _ s
  · split
    · exact reduceBucket_carries ..
    · exact spreadBucket_carries ..
    · exact spreadBucket_carries ..
    · exact p2pBucket_carries ..

theorem pumpColl_carries (c : Coll) (s : State) : Carries c.id s (pumpColl c s) := by
  unfold pumpColl
  split
  · exact Carries.refl _ s
  · dsimp only
    split
    · refine carries_foldl (fun s i => ?_) _ s
      split
      · exact a2aDuty_carries ..
      · exact Carries.refl _ s
    · split
      · refine (carries_foldl (bucketStep_carries c _) _ s).trans (carries_foldl (fun s seg => ?_) _ _)
        split
        · exact countBucket_carries ..
        · exact Carries.refl _ s
      · exact carries_foldl (bucketStep_carries c _) _ s

theorem pumpColl_idle {c : Coll} {s : State} (h : (s.collRun c.id).cur = none) : pumpColl c s = s := by
  unfold pumpColl
  rw [h]

end Sys2Proof.Machine
end

section
/-! Collectives start, take their packets and complete (R228, R248 to R251, R254, R255, R264). -/

namespace Sys2Proof.Machine

/-! ## Start -/

/-- A run that begins sends at once what it owes unasked. -/
def collBegun (c : Coll) (m : Nat) (s : State) : State :=
  let u := setCollRun c.id { s.collRun c.id with cur := some m, doneBuckets := [] } s
  if c.op = 3 then (List.range c.groupN).foldl (fun s j => if j = c.rank then s else a2aSend c m j s) u
  else if c.op = 5 then grantBuckets c (min 3 (c.buckets u.cont.collSec).length) u
  else u

theorem beginColl_eq {c : Coll} {m : Nat} {s : State} (h : c.op = 3 → s.a2aGood c m = true) :
    beginColl c m s = pumpColl c (collBegun c m s) := by
  unfold beginColl
  rw [if_neg (by
    simp only [Bool.and_eq_true, decide_eq_true_eq, Bool.not_eq_true', not_and, Bool.not_eq_false]
    exact h)]
  rfl

theorem collBegun_begins (c : Coll) (m : Nat) (s : State) : ((collBegun c m s).collRun c.id).cur = some m
    ∧ ((collBegun c m s).collRun c.id).finished = (s.collRun c.id).finished
    ∧ (∀ k, k ≠ c.id → (collBegun c m s).collRun k = s.collRun k) ∧ Works s (collBegun c m s) := by
  have hset := setCollRun_works c.id { s.collRun c.id with cur := some m, doneBuckets := [] } s
  have hrun := setCollRun_collRun_same c.id { s.collRun c.id with cur := some m, doneBuckets := [] } s
  have hothers (k : Nat) (hk : k ≠ c.id) :=
    setCollRun_collRun_other hk { s.collRun c.id with cur := some m, doneBuckets := [] } s
  unfold collBegun
  dsimp only
  generalize setCollRun c.id { s.collRun c.id with cur := some m, doneBuckets := [] } s = u at *
  have key (t : State) (hcarries : Carries c.id u t) (hworks : Works u t) : (t.collRun c.id).cur = some m
      ∧ (t.collRun c.id).finished = (s.collRun c.id).finished ∧ (∀ k, k ≠ c.id → t.collRun k = s.collRun k) ∧ Works s t :=
    ⟨by rw [hcarries.cur, hrun], by rw [hcarries.finished, hrun], fun k hk => (hcarries.others k hk).trans (hothers k hk),
      hset.trans hworks⟩
  refine key _ ?_ ?_
  · split
    · refine carries_foldl (fun s j => ?_) _ u
      split
      · exact Carries.refl _ s
      · exact a2aSend_carries ..
    · split
      · exact grantBuckets_carries ..
      · exact Carries.refl _ u
  · split
    · refine works_foldl _ (fun s j => ?_) _ u
      split
      · exact Works.refl s
      · exact a2aSend_works ..
    · split
      · exact grantBuckets_works ..
      · exact Works.refl u

/-- A run that is due starts, unless the block it reads is lost. -/
def collDue (c : Coll) (m : Nat) (s : State) : Option BlockRec → State
  | some b => if s.genOk b then beginColl c m s else genFail b s
  | none => beginColl c m s

section
variable {c : Coll} {m : Nat} {s : State} (hcoll : s.coll? c.id = some c)
include hcoll

/-- A run whose trigger has come. -/
theorem collStartState_eq (htrig : s.triggered c m = true) (hneeds : c.trigger = 5 → s.evalNeeds c.layer = true)
    (hidle : (s.collRun c.id).cur = none) (hnew : m ∉ (s.collRun c.id).finished) (hruns : m < s.collRuns c) :
    collStartState c.id m s = collDue c m s (s.blockAt c.srcVa) := by
  have hwaits : (c.trigger = 5 && !s.evalNeeds c.layer) = false := by
    by_cases h : c.trigger = 5
    · simp [h, hneeds h]
    · simp [h]
  unfold collStartState
  rw [hcoll]
  dsimp only
  rw [if_neg (by rw [htrig, hwaits, hidle]; simp [hnew, hruns])]
  cases s.blockAt c.srcVa <;> rfl

theorem collStartState_waits (h : s.triggered c m = false ∨ (c.trigger = 5 ∧ s.evalNeeds c.layer = false)) :
    collStartState c.id m s = s := by
  unfold collStartState
  rw [hcoll]
  dsimp only
  rw [if_pos (by rcases h with h | ⟨h5, h⟩ <;> simp [*])]

end

theorem beginColl_starts {c : Coll} {m : Nat} {s : State} (h : c.op = 3 → s.a2aGood c m = true) :
    ((beginColl c m s).collRun c.id).cur = some m
      ∧ ((beginColl c m s).collRun c.id).finished = (s.collRun c.id).finished
      ∧ (∀ k, k ≠ c.id → (beginColl c m s).collRun k = s.collRun k) ∧ (beginColl c m s).job = s.job
      ∧ (beginColl c m s).groups = s.groups ∧ (beginColl c m s).regs = s.regs := by
  obtain ⟨hcur, hfinished, hothers, hbegun⟩ := collBegun_begins c m s
  rw [beginColl_eq h]
  generalize collBegun c m s = u at *
  have hcarries := pumpColl_carries c u
  have hworks := (hbegun.trans (pumpColl_works c u)).same
  exact ⟨hcarries.cur.trans hcur, hcarries.finished.trans hfinished, fun k hk => (hcarries.others k hk).trans (hothers k hk),
    (congrArg State.job hworks :), (congrArg State.groups hworks :), (congrArg State.regs hworks :)⟩

/-- A lost slot halts the job at once, or at order 8 of the boundary under way. -/
theorem genFail_halts {b : BlockRec} {s : State} (hpend : s.job.haltPend = none) :
    (HaltsNow s → Halted ECC_UNCORRECTABLE s (genFail b s))
      ∧ (s.job.st.stepping = true → s.bnd.order ≠ 0 → (genFail b s).job.haltPend = some ECC_UNCORRECTABLE
          ∧ (genFail b s).job.st = s.job.st ∧ (genFail b s).bnd = s.bnd) := by
  have hfail : genFail b s = halt ECC_UNCORRECTABLE (genLog b s) := by unfold genFail; rw [hpend]; rfl
  have hstands : Stands s (genLog b s) := logAdd_stands ..
  have hnopend : (genLog b s).job.haltPend = s.job.haltPend := (congrArg Job.haltPend (logAdd_job ..) :)
  rw [hfail]
  generalize genLog b s = u at hstands hnopend
  refine ⟨fun hnow => halt_after hstands hnow, fun hstep horder => ?_⟩
  have hwaits : halt ECC_UNCORRECTABLE u = { u with job := { u.job with haltPend := some ECC_UNCORRECTABLE } } := by
    unfold halt
    rw [if_neg (by rw [hstands.bnd, hstands.st]; simp [hstep, horder]), if_neg (by rw [hnopend, hpend]; simp)]
  rw [hwaits]
  exact ⟨rfl, hstands.st, hstands.bnd⟩

/-! ## Packets -/

/-- The packet leaves those waiting for the kneader. -/
def packetLeft (p : Packet) (s : State) : State :=
  { s with fab := { s.fab with delivered := eraseFirst p s.fab.delivered } }

section
variable {p : Packet} {s : State} (hlive : s.job.st.live = true) (hdst : p.dst = s.devId)
include hlive hdst

theorem collPacketState_eq : collPacketState p s =
    if p.step = s.job.step && p.attempt = s.job.attempt then takePacket p (packetLeft p s)
    else if p.step = s.job.step && decide (s.job.attempt < p.attempt) then
      higherState (packetMsg p (packetLeft p s)) false (some p) (packetLeft p s)
    else if s.job.step < p.step then { packetLeft p s with coll := { s.coll with early := s.coll.early ++ [p] } }
    else packetLeft p s := by
  have hdev : (packetLeft p s).devId = s.devId := rfl
  unfold collPacketState
  change (if !s.job.st.live || p.dst != (packetLeft p s).devId then packetLeft p s else _) = _
  rw [if_neg (by rw [hdev]; simp [hlive, hdst])]
  rfl

end

theorem takePacket_eq {c : Coll} {p : Packet} {k : Nat} {s : State} (hcoll : s.coll? c.id = some c) (hflow : p.flow = c.id)
    (hrank : c.rankOf s.cont.collSec p.src = some k) : takePacket p s = pumpColl c (setCollRun c.id { s.collRun c.id with
      got := (s.collRun c.id).got ++ [⟨p.seq, k, p.offset, p.nstatus, p.payload⟩] } s) := by
  unfold takePacket
  rw [hflow, hcoll]
  dsimp only
  rw [hrank]

theorem takePacket_takes {c : Coll} {p : Packet} {k : Nat} {s : State} (hcoll : s.coll? c.id = some c) (hflow : p.flow = c.id)
    (hrank : c.rankOf s.cont.collSec p.src = some k) :
    ((s.collRun c.id).cur = none → ((takePacket p s).collRun c.id).got
        = (s.collRun c.id).got ++ [⟨p.seq, k, p.offset, p.nstatus, p.payload⟩])
      ∧ ((takePacket p s).collRun c.id).cur = (s.collRun c.id).cur
      ∧ (∀ b ∈ (s.collRun c.id).doneBuckets, b ∈ ((takePacket p s).collRun c.id).doneBuckets)
      ∧ (∀ j, j ≠ c.id → (takePacket p s).collRun j = s.collRun j) ∧ (takePacket p s).job = s.job
      ∧ (takePacket p s).groups = s.groups := by
  rw [takePacket_eq hcoll hflow hrank]
  generalize hr : { s.collRun c.id with
    got := (s.collRun c.id).got ++ [(⟨p.seq, k, p.offset, p.nstatus, p.payload⟩ : Arrival)] } = r
  have hgot : r.got = (s.collRun c.id).got ++ [⟨p.seq, k, p.offset, p.nstatus, p.payload⟩] := by rw [← hr]
  have hcur : r.cur = (s.collRun c.id).cur := by rw [← hr]
  have hset : Carries c.id s (setCollRun c.id r s) :=
    setCollRun_carries hcur (by rw [← hr]) (by rw [← hr]; exact List.Subset.refl _)
  have hcarries := hset.trans (pumpColl_carries c (setCollRun c.id r s))
  have hworks := ((setCollRun_works c.id r s).trans (pumpColl_works c _)).same
  refine ⟨fun hidle => ?_, hcarries.cur, fun b hb => hcarries.done hb, hcarries.others, (congrArg State.job hworks :),
    (congrArg State.groups hworks :)⟩
  rw [pumpColl_idle (by rw [setCollRun_collRun_same, hcur, hidle]), setCollRun_collRun_same, hgot]

/-! ## Completion -/

section
variable {c : Coll} {m : Nat} {s : State} (hcoll : s.coll? c.id = some c) (hcur : (s.collRun c.id).cur = some m)
include hcoll hcur

theorem collectiveCompleteState_eq : collectiveCompleteState c.id s =
    if (c.duties s.cont.collSec).all (fun k => (s.collRun c.id).doneBuckets.contains k) && !s.unsent c then
      setCollRun c.id { s.collRun c.id with cur := none, finished := m :: (s.collRun c.id).finished, doneBuckets := [] } s
    else s := by
  unfold collectiveCompleteState
  rw [hcoll]
  dsimp only
  rw [hcur]

end

end Sys2Proof.Machine

namespace Sys2Proof
open Machine

/-- Settles O56: the carrying of a collective changes no run but its own, keeps its place and takes back no duty. -/
theorem collectivesRunOnce : Obligations.CollectivesRunOnce := by
  unfold Obligations.CollectivesRunOnce
  intro c m s hcoll
  refine ⟨fun htrig hneeds hidle hnew hruns => ⟨fun hgen hgood => ?_, fun b hb hlost hpend => ?_⟩, fun hwait => ?_,
    fun p k hflow hrank hlive hdst => ⟨fun hstep hattempt => ?_, fun hlater => ?_, fun hearlier => ?_⟩,
    fun hcur => ⟨fun hduties hsent => ?_, fun howes => ?_⟩⟩
  · have hstate : collStartState c.id m s = beginColl c m s := by
      rw [collStartState_eq hcoll htrig hneeds hidle hnew hruns]
      cases hb : s.blockAt c.srcVa with
      | some b => exact if_pos (hgen b hb)
      | none => rfl
    exact ⟨_, congrArg Host.Outcome.next hstate, beginColl_starts hgood⟩
  · have hstate : collStartState c.id m s = genFail b s := by
      rw [collStartState_eq hcoll htrig hneeds hidle hnew hruns, hb]
      exact if_neg (by simp [hlost])
    obtain ⟨hnow, hlater⟩ := genFail_halts (b := b) hpend
    exact ⟨fun h => ⟨_, congrArg Host.Outcome.next hstate, hnow h⟩,
      fun hstep horder => ⟨_, congrArg Host.Outcome.next hstate, hlater hstep horder⟩⟩
  · exact congrArg Host.Outcome.next (collStartState_waits hcoll hwait)
  · have hstate : collPacketState p s = takePacket p (packetLeft p s) :=
      (collPacketState_eq hlive hdst).trans (if_pos (by simp [hstep, hattempt]))
    exact ⟨_, congrArg Host.Outcome.next hstate, takePacket_takes (s := packetLeft p s) hcoll hflow hrank⟩
  · have hstate : collPacketState p s = { packetLeft p s with coll := { s.coll with early := s.coll.early ++ [p] } } := by
      have hne : p.step ≠ s.job.step := by omega
      rw [collPacketState_eq hlive hdst, if_neg (by simp [hne]), if_neg (by simp [hne]), if_pos hlater]
    exact ⟨_, congrArg Host.Outcome.next hstate, rfl, rfl, rfl, rfl⟩
  · have hstate : collPacketState p s = packetLeft p s := by
      rw [collPacketState_eq hlive hdst, if_neg (by simp; omega), if_neg (by simp; omega), if_neg (by omega)]
    exact ⟨_, congrArg Host.Outcome.next hstate, rfl⟩
  · have hstate := (collectiveCompleteState_eq hcoll hcur).trans (if_pos (by
      rw [hsent, List.all_eq_true.mpr fun k hk => List.contains_iff_mem.mpr (hduties k hk)]; rfl))
    refine ⟨_, congrArg Host.Outcome.next hstate, ?_, ?_, fun j hj => setCollRun_collRun_other hj _ s, rfl⟩
    · rw [setCollRun_collRun_same]
    · rw [setCollRun_collRun_same]
  · refine congrArg Host.Outcome.next ((collectiveCompleteState_eq hcoll hcur).trans (if_neg ?_))
    rw [Bool.and_eq_true, List.all_eq_true, not_and_or]
    rcases howes with ⟨k, hk, hno⟩ | hsent
    · exact .inl fun hall => hno (List.contains_iff_mem.mp (hall k hk))
    · exact .inr (by simp [hsent])

end Sys2Proof
end
section
/-! Admission to cells and to borrowed cores (R201, R202, R204, R207, R208). -/

namespace Sys2Proof.Machine

theorem waits_place {s : State} {h i : Nat} {borrow : Bool} {p : Prob} (hp : s.prob? i = some p)
    (hfirst : s.firstRoot h borrow = some i) : Waits h borrow i p s := by
  obtain ⟨q, hq⟩ := waits_of_firstRoot hfirst
  have hqp : q = p := by
    have hplace := hq.place
    rw [hp] at hplace
    exact (Option.some.inj hplace).symm
  exact hqp ▸ hq

theorem admitRoot_waits {i : Nat} {p : Prob} {s : State} (hp : s.prob? i = some p)
    (hfirst : s.firstRoot p.job.hearth false ≠ some i) : admitRoot i s = s := by
  unfold admitRoot
  rw [hp]
  dsimp only
  rw [if_neg (by simp [hfirst])]

/-! ## Pieces -/

/-- A piece of a borrowed problem may start now: the problem is the first of its hearth that waits, or the one that runs. -/
def PieceDue (i : Nat) (p : Prob) (s : State) : Prop :=
  ((s.run i).phase = .waiting ∧ s.firstRoot p.job.hearth true = some i ∧ s.borrowedOn p.job.hearth = none
      ∧ ∀ r ∈ s.loadReads i p, s.vmGood r.1 r.2 = true)
    ∨ ((s.run i).phase = .running ∧ s.borrowedOn p.job.hearth = some i ∧ (s.run i).pieces < (s.solution i p).1.products)

/-- The cores of a borrowed problem's next piece. -/
def State.nextCores (s : State) (p : Prob) : List Nat := (s.pieceCores p.job.hearth).take (p.job.borrowN + 1)

theorem pieceLeft_of_due {i : Nat} {p : Prob} {s : State} (hdue : PieceDue i p s) (hcores : (s.run i).cores = []) :
    s.pieceLeft i p = true := by
  unfold State.pieceLeft
  rcases hdue with ⟨hphase, _, _, hgood⟩ | ⟨hphase, _, hleft⟩
  · simpa [hphase, hcores] using hgood
  · simp [hphase, hcores, hleft]

theorem takePiece_starts {i : Nat} {p : Prob} {s : State} (hp : s.prob? i = some p) (hborrow : p.job.borrow = true)
    (hrole : p.role = 0) (hlive : s.job.st.live = true) (hcores : (s.run i).cores = [])
    (hfull : (s.nextCores p).length = p.job.borrowN + 1) (hdue : PieceDue i p s)
    (hmay : s.mandatory (s.run i) = true ∨ (s.eff.elective = true ∧ s.admitPoint p.job.hearth = true
      ∧ (scaleEst s p.job.hearth (3200 * (p.job.borrowN + 1)) : Int) ≤ headroom s (some p.job.hearth)
      ∧ s.pieceFits (s.nextCores p) (s.pieceUs p) = true)) :
    ∃ est, takePiece true i s = pieceStarts i p (s.nextCores p) est s := by
  have hleft := pieceLeft_of_due hdue hcores
  have hmine : (if (s.run i).phase = .running then decide (s.borrowedOn p.job.hearth = some i)
      else decide (s.firstRoot p.job.hearth true = some i) && (s.borrowedOn p.job.hearth).isNone) = true := by
    rcases hdue with ⟨hphase, hfirst, hnone, _⟩ | ⟨hphase, hruns, _⟩
    · simp [hphase, hfirst, hnone]
    · simp [hphase, hruns]
  unfold State.nextCores at *
  unfold takePiece
  rw [hp]
  dsimp only
  rw [if_pos (by
    rcases hmay with hmand | ⟨hon, hpoint, hfits, hpiece⟩
    · simp [hborrow, hrole, hlive, hfull, hleft, hmand]; simpa using hmine
    · simp [hborrow, hrole, hlive, hfull, hleft, hon, hpoint, hfits, hpiece]; simpa using hmine)]
  exact ⟨_, rfl⟩

/-- A piece runs on its cores. -/
structure PieceRuns (i : Nat) (p : Prob) (cores : List Nat) (s t : State) : Prop where
  elects : Elects s t
  running : (t.run i).phase = .running
  taken : (t.run i).cores = cores
  others : ∀ k, k ≠ i → t.run k = s.run k
  outside : MemoryOutside [(p.job.workVa, 7 * (4096 * symTiles p.job.n))] s t

theorem pieceStarts_runs {i : Nat} {p : Prob} {s : State} (hphase : (s.run i).phase = .waiting ∨ (s.run i).phase = .running)
    (hgate : s.gov.gating = false) (cores : List Nat) (est : Nat) :
    PieceRuns i p cores s (pieceStarts i p cores est s) := by
  have hload : Elects s (if (s.run i).phase = .waiting then loadProblem i p s else s)
      ∧ ((if (s.run i).phase = .waiting then loadProblem i p s else s).run i).phase = .running
      ∧ (∀ k, k ≠ i → (if (s.run i).phase = .waiting then loadProblem i p s else s).run k = s.run k)
      ∧ MemoryOutside [(p.job.workVa, 7 * (4096 * symTiles p.job.n))] s
          (if (s.run i).phase = .waiting then loadProblem i p s else s) := by
    rcases hphase with h | h
    · rw [if_pos h]
      have hload := loadProblem_loads i p s
      exact ⟨hload.elects, hload.running, hload.others, hload.outside⟩
    · rw [if_neg (by rw [h]; decide)]
      exact ⟨Elects.refl s, h, fun _ _ => rfl, memoryOutside_of_mem _ rfl⟩
  unfold pieceStarts
  rw [if_neg (by simp [hgate])]
  dsimp only
  generalize (if (s.run i).phase = .waiting then loadProblem i p s else s) = u at hload ⊢
  obtain ⟨helects, hruns, hothers, houtside⟩ := hload
  generalize (if u.mandatory (s.run i) then 0 else est) = e
  have hrun : (addElective e (setRun i { u.run i with cores := cores, est := e, held := none, passed := false } u)).run i
      = { u.run i with cores := cores, est := e, held := none, passed := false } := setRun_run_same ..
  exact {
    elects := (helects.trans (setRun_elects ..)).trans (addElective_elects ..)
    running := by rw [hrun]; exact hruns
    taken := by rw [hrun]
    others := fun k hk => (setRun_run_other hk _ u).trans (hothers k hk)
    outside := houtside }

/-! ## A piece ends -/

/-- A running problem has been looked at for its next piece: the pieces it has done, the others and memory stand. -/
structure PieceAsked (i : Nat) (s t : State) : Prop where
  pieces : (t.run i).pieces = (s.run i).pieces
  others : ∀ k, k ≠ i → t.run k = s.run k
  mm : t.mm = s.mm
  cores : t.cores = s.cores

theorem takePiece_asked {i : Nat} {s : State} (hphase : (s.run i).phase = .running) (point : Bool) :
    PieceAsked i s (takePiece point i s) := by
  have hsame : PieceAsked i s s := ⟨rfl, fun _ _ => rfl, rfl, rfl⟩
  cases hp : s.prob? i with
  | none => unfold takePiece; rw [hp]; exact hsame
  | some p =>
    obtain ⟨b, cores, est, heq, _⟩ := takePiece_eq hp point
    rw [heq]
    cases b with
    | false => exact hsame
    | true =>
      rw [if_pos rfl]
      unfold pieceStarts
      split
      · split
        · exact hsame
        · generalize hu : setRun i { s.run i with held := some s.localUs } s = u
          have hrun : u.run i = { s.run i with held := some s.localUs } := by rw [← hu, setRun_run_same]
          have hmm : u.mm = s.mm := by rw [← hu]; rfl
          have hcores : u.cores = s.cores := by rw [← hu]; rfl
          refine ⟨by rw [holdLog_run, hrun], fun k hk => ?_, ?_, ?_⟩
          · rw [holdLog_run, ← hu, setRun_run_other hk]
          · rw [← hmm]
            unfold holdLog
            split
            · rfl
            · exact logAdd_mm ..
          · rw [← hcores]
            unfold holdLog
            split
            · rfl
            · exact logAdd_cores ..
      · rw [if_neg (by rw [hphase]; decide)]
        dsimp only
        generalize (if s.mandatory (s.run i) then 0 else est) = e
        have hrun : (addElective e (setRun i { s.run i with cores := cores, est := e, held := none, passed := false } s)).run i
            = { s.run i with cores := cores, est := e, held := none, passed := false } := setRun_run_same ..
        exact ⟨by rw [hrun], fun k hk => setRun_run_other hk _ s, rfl, rfl⟩

/-- A piece is done and its cores have returned. -/
def pieceDone (i : Nat) (s : State) : State :=
  subElective (s.run i).est (setRun i { s.run i with cores := [], pieces := (s.run i).pieces + 1, est := 0 } s)

theorem pieceDone_run (i : Nat) (s : State) : (pieceDone i s).run i
    = { s.run i with cores := [], pieces := (s.run i).pieces + 1, est := 0 } := setRun_run_same ..

theorem endPiece_eq {i : Nat} {s : State} (hcores : (s.run i).cores ≠ []) :
    endPiece i s = if s.bnd.order = 7 && s.leaven.closed then pieceDone i s else takePiece false i (pieceDone i s) := by
  unfold endPiece
  dsimp only
  rw [if_neg (by simpa using hcores)]
  rfl

theorem rootsAreAdmittedInOrder : Sys2Proof.Claims.RootsAreAdmittedInOrder := by
  intro i p s hp hlive
  refine ⟨fun c hfirst hcell hloads hmay => ?_, fun hfirst => congrArg Host.Outcome.next (admitRoot_waits hp hfirst),
    fun hborrow hrole hcores hfull hgate hdue hmay => ?_, fun hcores hphase => ?_⟩
  · have hwaits := waits_place hp hfirst
    obtain ⟨e, heq⟩ := admitRoot_admits hwaits hfirst hcell hlive hmay hloads
    have hadmits : Admits s (admitted i p c e s) := admitted_admits hwaits
    obtain ⟨hphase, hruncell, hsrc, hruedue⟩ := admitted_runs (i := i) (p := p) (c := c) (e := e) (s := s)
    exact ⟨_, congrArg Host.Outcome.next heq, hphase, hruncell, hsrc, hruedue, fun k hk => admitted_others hk, hadmits.mem,
      hadmits.elects.st, hadmits.elects.regs⟩
  · obtain ⟨est, heq⟩ := takePiece_starts hp hborrow hrole hlive hcores hfull hdue hmay
    have hphase : (s.run i).phase = .waiting ∨ (s.run i).phase = .running := hdue.imp And.left And.left
    have hruns : PieceRuns i p (s.nextCores p) s (pieceStarts i p (s.nextCores p) est s) := pieceStarts_runs hphase hgate _ est
    exact ⟨_, congrArg Host.Outcome.next heq, hruns.running, hruns.taken, hruns.others, hruns.outside, hruns.elects.cores,
      hruns.elects.st⟩
  · have hdone := pieceDone_run i s
    have hother (k : Nat) (hk : k ≠ i) : (pieceDone i s).run k = s.run k := setRun_run_other hk _ s
    by_cases hclosed : s.bnd.order = 7 ∧ s.leaven.closed = true
    · refine ⟨pieceDone i s, congrArg Host.Outcome.next ?_, by rw [hdone], hother, rfl, rfl, fun _ _ => ⟨by rw [hdone], rfl⟩⟩
      rw [endPiece_eq hcores, if_pos (by simpa using hclosed)]
    · have hasked : PieceAsked i (pieceDone i s) (takePiece false i (pieceDone i s)) :=
        takePiece_asked (by rw [hdone]; exact hphase) false
      refine ⟨takePiece false i (pieceDone i s), congrArg Host.Outcome.next ?_, by rw [hasked.pieces, hdone],
        fun k hk => (hasked.others k hk).trans (hother k hk), hasked.mm, hasked.cores, fun h7 hc => absurd ⟨h7, hc⟩ hclosed⟩
      rw [endPiece_eq hcores, if_neg (by simpa using hclosed)]

end Sys2Proof.Machine
end
section
/-! Root records and the next source of a problem (R195 to R200, R210, R211, R215). -/

namespace Sys2Proof.Machine

@[simp] theorem length_rootRec_bytes (r : RootRec) : r.bytes.length = 64 := by
  unfold RootRec.bytes
  simp only [List.length_append, length_leBytes, List.length_replicate]

theorem setRootRec_within (p : Prob) (r : RootRec) (s : State) : Within [(p.rootVa, 64)] s (setRootRec p r s) := by
  have h := vmStore_within p.rootVa r.bytes s
  rwa [length_rootRec_bytes] at h

theorem setRootRec_run (p : Prob) (r : RootRec) (s : State) (j : Nat) : (setRootRec p r s).run j = s.run j :=
  run_of_leaven (setRootRec_within p r s).reaches.leaven j

/-- The next queued source has taken a problem's place. -/
structure Succeeds (i : Nat) (p : Prob) (s t : State) : Prop where
  phase : (t.run i).phase = if (s.run i).later = [] then .none else .waiting
  ended : (t.run i).ended = (s.run i).ended
  cell : (t.run i).cell = none
  others : ∀ k, k ≠ i → t.run k = s.run k
  outside : MemoryOutside [(p.rootVa, 64)] s t
  job : t.job = s.job
  log : t.log = s.log

theorem nextSource_succeeds (i : Nat) (p : Prob) (now : Nat) (s : State) : Succeeds i p s (nextSource i p now s) := by
  unfold nextSource
  dsimp only
  split
  · next hlater =>
    have hrun : (setRun i (s.run i).fresh s).run i = (s.run i).fresh := setRun_run_same ..
    exact {
      phase := by rw [hrun, hlater, if_pos rfl]; rfl
      ended := by rw [hrun]; rfl
      cell := by rw [hrun]; rfl
      others := fun k hk => setRun_run_other hk ..
      outside := memoryOutside_of_mem _ rfl
      job := rfl
      log := rfl }
  · next u rest hlater =>
    generalize max (u + p.job.lag) now = due
    generalize hx : ({ (s.run i).fresh with phase := .waiting, src := u, due := due, later := rest } : ProbSt) = x
    generalize hr : ({ (setRun i x s).rootRec p with pendingDue := due, source := u } : RootRec) = r
    have hset := setRootRec_within p r (setRun i x s)
    have hrun : (setRootRec p r (setRun i x s)).run i = x := by rw [setRootRec_run, setRun_run_same]
    exact {
      phase := by rw [hrun, hlater, if_neg (List.cons_ne_nil _ _), ← hx]
      ended := by rw [hrun, ← hx]; rfl
      cell := by rw [hrun, ← hx]; rfl
      others := fun k hk => by rw [setRootRec_run, setRun_run_other hk]
      outside := hset.outside
      job := hset.reaches.job
      log := by rw [hset.reaches.rest]; rfl }

/-! ## A solution is there -/

/-- What a problem holds once its solution is there. -/
def solved (sol : RootSol) (eps : W32) (x : ProbSt) : ProbSt :=
  { x with cell := none, est := 0, sol := sol.sol, iters := sol.iters, esc := sol.esc, resid := sol.resid,
           kind := sol.kind, eps := eps }

/-- A solution that passes is held for its commit. -/
def rootHeld (i : Nat) (sol : RootSol) (eps : W32) (s : State) : State :=
  setRun i { solved sol eps (s.run i) with phase := .decided } (subElective (s.run i).est s)

/-- The root record after a failure. -/
def failedRec (sol : RootSol) (x : ProbSt) (early : Bool) (r : RootRec) : RootRec :=
  { r with
    lastCode := sol.code, iters := sol.iters % 256, kind := sol.kind, esc := sol.esc, resid := sol.resid, source := x.src
    pendingDue := 0, missRun := if early then 0 else r.missRun }

/-- The detail words of a root's log record. -/
def rootWords (p : Prob) (due : Nat) (sol : RootSol) : List Nat :=
  [p.sig0, p.sig1] ++ w64 due ++ [sol.iters, sol.resid.toNat, sol.esc]

/-- A failure is recorded and logged. -/
def failureNoted (i : Nat) (p : Prob) (sol : RootSol) (s : State) : State :=
  logAdd sol.code 2 p.job.hearth 0 0xFFFF (rootWords p (s.run i).due sol)
    (setRootRec p (failedRec sol (s.run i) (decide (s.stepNow < (s.run i).due)) (s.rootRec p)) (subElective (s.run i).est s))

/-- A failed root has ended, and the next source of its problem takes its place. -/
def rootFailed (i : Nat) (p : Prob) (sol : RootSol) (eps : W32) (s : State) : State :=
  nextSource i p ((failureNoted i p sol s).job.committed + 1)
    (setRun i { solved sol eps (s.run i) with ended := (s.run i).ended ++ [((s.run i).due, sol.code)] } (failureNoted i p sol s))

theorem decideRoot_eq {i : Nat} {p : Prob} {s : State} {sol : RootSol} {eps : W32} (hp : s.prob? i = some p)
    (hsol : s.solution i p = (sol, eps)) (hphase : (s.run i).phase = .running) (hcores : (s.run i).cores = [])
    (hdone : p.job.borrow = true → sol.products ≤ (s.run i).pieces) :
    decideRoot i s = if sol.code = 0 then rootHeld i sol eps s else rootFailed i p sol eps s := by
  have hleft : (p.job.borrow && decide ((s.run i).pieces < sol.products)) = false := by
    cases hb : p.job.borrow
    · rfl
    · simpa using hdone hb
  unfold decideRoot
  rw [hp]
  dsimp only
  rw [if_neg (by simp [hphase, hcores]), hsol]
  dsimp only
  rw [if_neg (by rw [hleft]; exact Bool.false_ne_true)]
  rfl

/-- A failed root of one problem: its record is stored, its failure logged, and nothing of another problem changes. -/
theorem rootFailed_fails (i : Nat) (p : Prob) (sol : RootSol) (eps : W32) (s : State) :
    ((rootFailed i p sol eps s).run i).phase = (if (s.run i).later = [] then .none else .waiting)
    ∧ ((rootFailed i p sol eps s).run i).ended = (s.run i).ended ++ [((s.run i).due, sol.code)]
    ∧ ((rootFailed i p sol eps s).run i).cell = none ∧ MemoryOutside [(p.rootVa, 64)] s (rootFailed i p sol eps s)
    ∧ Logged sol.code (rootWords p (s.run i).due sol) s (rootFailed i p sol eps s)
    ∧ (rootFailed i p sol eps s).job.st = s.job.st ∧ ∀ k, k ≠ i → (rootFailed i p sol eps s).run k = s.run k := by
  unfold rootFailed failureNoted
  have hset := setRootRec_within p
    (failedRec sol (s.run i) (decide (s.stepNow < (s.run i).due)) (s.rootRec p)) (subElective (s.run i).est s)
  generalize setRootRec p (failedRec sol (s.run i) (decide (s.stepNow < (s.run i).due)) (s.rootRec p))
    (subElective (s.run i).est s) = u at hset ⊢
  have hregs : u.regs = s.regs := hset.reaches.regs
  have hjob : u.job = s.job := hset.reaches.job
  have hleaven : u.leaven = s.leaven := hset.reaches.leaven
  have hlogged := logAdd_logged sol.code 2 p.job.hearth 0 0xFFFF (rootWords p (s.run i).due sol) u
  have hmm := logAdd_mm sol.code 2 p.job.hearth 0 0xFFFF (rootWords p (s.run i).due sol) u
  have hst := (logAdd_stands sol.code 2 p.job.hearth 0 0xFFFF (rootWords p (s.run i).due sol) u).st
  have hrun := fun k => run_of_leaven (logAdd_leaven sol.code 2 p.job.hearth 0 0xFFFF (rootWords p (s.run i).due sol) u) k
  generalize logAdd sol.code 2 p.job.hearth 0 0xFFFF (rootWords p (s.run i).due sol) u = v at *
  generalize hx : ({ solved sol eps (s.run i) with ended := (s.run i).ended ++ [((s.run i).due, sol.code)] } : ProbSt) = x
  have hnext := nextSource_succeeds i p (v.job.committed + 1) (setRun i x v)
  have hxrun : (setRun i x v).run i = x := setRun_run_same ..
  have hphys : ∀ va, v.phys va = s.phys va := fun va => by
    rw [show v.phys va = u.phys va by unfold State.phys; rw [hmm]]
    exact hset.reaches.phys va
  generalize nextSource i p (v.job.committed + 1) (setRun i x v) = t at hnext ⊢
  refine ⟨by rw [hnext.phase, hxrun, ← hx]; rfl, by rw [hnext.ended, hxrun, ← hx], hnext.cell, fun q hq => ?_,
    Logged.congr hlogged hregs.symm hnext.log, ?_, fun k hk => ?_⟩
  · have hfirst : memRead u.mm.mem q = memRead s.mm.mem q := hset.outside q hq
    rw [hnext.outside q (by intro r hr j hj; rw [show (setRun i x v).phys (r.1 + j) = v.phys (r.1 + j) from rfl, hphys]; exact hq r hr j hj),
      ← hfirst, ← hmm]
    rfl
  · rw [hnext.job, ← hjob, ← hst]
    rfl
  · rw [hnext.others k hk, setRun_run_other hk, hrun, run_of_leaven hleaven]

end Sys2Proof.Machine
end

section
/-! The commit of a root and its acknowledgments (R206, R217, R261). -/

namespace Sys2Proof.Machine

/-- The packets of a root's slot to one destination. -/
def sendSlot (p : Prob) (bytes : Bytes) (s : State) (d : Nat) : State :=
  (List.range (cdiv bytes.length 4096)).foldl (fun s k => injectPacket
    { vl0Packet s d 1 ((bytes.drop (4096 * k)).take 4096) with
      vl := 1, origVl := 1, dstHearth := p.job.hearth, step := 0, attempt := 0, offset := 4096 * k } s) s

theorem sends_sendSlot (p : Prob) (bytes : Bytes) (s : State) (d : Nat) : Sends s (sendSlot p bytes s d) :=
  sends_fold _ (fun s _ => sends_injectPacket _ s) _ s

/-- A root's tiles and header stand in the slot that is not in force. -/
def rootStored (i : Nat) (p : Prob) (s : State) : State :=
  vmStore (p.rootSlot (1 - (s.rootRec p).inForce)) (slotHeader p (s.run i))
    (storeSym (p.rootSlot (1 - (s.rootRec p).inForce) + 4096) p.job.n (s.run i).sol s)

theorem rootStored_reaches (i : Nat) (p : Prob) (s : State) : Reaches s (rootStored i p s) :=
  (storeSym_within ..).reaches.trans (vmStore_reaches ..)

/-- A root is written, and what its slot then holds is sent to every destination. -/
def rootWritten (i : Nat) (p : Prob) (s : State) : State :=
  if (s.run i).written then s
  else
    let u := rootStored i p s
    let v := (u.dests p).foldl
      (sendSlot p (u.vmRead (p.rootSlot (1 - (s.rootRec p).inForce)) (symSlot p.job.n))) u
    setRun i { v.run i with written := true, acks := u.dests p } v

/-- The record of a root that is ready. -/
def readyRec (p : Prob) (x : ProbSt) (r : RootRec) : RootRec :=
  { r with
    sig0 := p.sig0, block := p.block, damp := p.dampClass, ready := true, pendingDue := x.due, lastCode := 0
    iters := x.iters % 256, kind := x.kind, esc := x.esc, resid := x.resid, source := x.src }

theorem commitRoot_eq {i : Nat} {p : Prob} {s : State} (hp : s.prob? i = some p) (hphase : (s.run i).phase = .decided) :
    commitRoot i s = if ((rootWritten i p s).run i).acks.isEmpty then
      setRun i { (rootWritten i p s).run i with phase := .ready }
        (setRootRec p (readyRec p ((rootWritten i p s).run i) ((rootWritten i p s).rootRec p)) (rootWritten i p s))
      else rootWritten i p s := by
  unfold commitRoot
  rw [hp]
  dsimp only
  rw [if_neg (by simp [hphase])]
  rfl

theorem commitRoot_waits {i : Nat} {s : State} (hphase : (s.run i).phase ≠ .decided) : commitRoot i s = s := by
  unfold commitRoot
  split
  · rfl
  · dsimp only
    rw [if_pos (by simpa using hphase)]

/-- A root has been written and sent, once. -/
structure RootSent (i : Nat) (s t : State) : Prop where
  written : (t.run i).written = true
  acks : (s.run i).written = true → (t.run i).acks = (s.run i).acks
  phase : (t.run i).phase = (s.run i).phase
  others : ∀ k, k ≠ i → t.run k = s.run k
  job : t.job = s.job
  regs : t.regs = s.regs

theorem rootWritten_sent (i : Nat) (p : Prob) (s : State) : RootSent i s (rootWritten i p s) := by
  unfold rootWritten
  split
  · next hwritten => exact ⟨hwritten, fun _ => rfl, rfl, fun _ _ => rfl, rfl, rfl⟩
  · next hwritten =>
    dsimp only
    have hstored := rootStored_reaches i p s
    generalize rootStored i p s = u at hstored ⊢
    have hsends : Sends u ((u.dests p).foldl
        (sendSlot p (u.vmRead (p.rootSlot (1 - (s.rootRec p).inForce)) (symSlot p.job.n))) u) :=
      sends_fold _ (fun s d => sends_sendSlot p _ s d) _ u
    generalize (u.dests p).foldl
      (sendSlot p (u.vmRead (p.rootSlot (1 - (s.rootRec p).inForce)) (symSlot p.job.n))) u = v at hsends ⊢
    have honly : v = { u with fab := v.fab, counters := v.counters, tx := v.tx } := hsends.only.1
    have hrun (k : Nat) : v.run k = s.run k := run_of_leaven ((congrArg State.leaven honly :).trans hstored.leaven) k
    have hself : (setRun i { v.run i with written := true, acks := u.dests p } v).run i
        = { v.run i with written := true, acks := u.dests p } := setRun_run_same ..
    exact {
      written := by rw [hself]
      acks := fun h => absurd h hwritten
      phase := by rw [hself, hrun]
      others := fun k hk => by rw [setRun_run_other hk, hrun]
      job := (congrArg State.job honly :).trans hstored.job
      regs := (congrArg State.regs honly :).trans hstored.regs }

theorem rootsAreDecidedAndWritten : Sys2Proof.Claims.RootsAreDecidedAndWritten := by
  intro i p s hp
  refine ⟨fun hphase hcores hdone => ?_, fun hphase => ?_,
    fun hphase => congrArg Host.Outcome.next (commitRoot_waits hphase), fun d => ?_⟩
  · rcases hsol : s.solution i p with ⟨sol, eps⟩
    rw [hsol] at hdone
    have heq := decideRoot_eq hp hsol hphase hcores hdone
    refine ⟨fun hcode => ?_, fun hcode => ?_⟩
    · rw [if_pos hcode] at heq
      have hrun : (rootHeld i sol eps s).run i = { solved sol eps (s.run i) with phase := .decided } := setRun_run_same ..
      exact ⟨_, congrArg Host.Outcome.next heq, by rw [hrun], by rw [hrun]; rfl, by rw [hrun]; rfl, by rw [hrun]; rfl, rfl,
        rfl, rfl, fun k hk => setRun_run_other hk ..⟩
    · rw [if_neg hcode] at heq
      exact ⟨_, congrArg Host.Outcome.next heq, rootFailed_fails i p sol eps s⟩
  · have heq := commitRoot_eq hp hphase
    have hsent := rootWritten_sent i p s
    generalize rootWritten i p s = u at heq hsent
    obtain ⟨hwritten, hacks, huphase, hothers, hjob, hregs⟩ := hsent
    cases hempty : (u.run i).acks with
    | nil =>
      rw [hempty, List.isEmpty_nil, if_pos rfl] at heq
      have hset := setRootRec_within p (readyRec p (u.run i) (u.rootRec p)) u
      generalize setRootRec p (readyRec p (u.run i) (u.rootRec p)) u = v at heq hset
      have hrun : (setRun i { u.run i with phase := .ready } v).run i = { u.run i with phase := .ready } := setRun_run_same ..
      refine ⟨_, congrArg Host.Outcome.next heq, by rw [hrun, hwritten], fun h => by rw [hrun, ← hacks h], ?_,
        hset.reaches.job.trans hjob, hset.reaches.regs.trans hregs, fun k hk => ?_⟩
      · rw [hrun, if_pos hempty]
      · rw [setRun_run_other hk, run_of_leaven hset.reaches.leaven, hothers k hk]
    | cons a l =>
      rw [hempty, List.isEmpty_cons, if_neg Bool.false_ne_true] at heq
      exact ⟨u, congrArg Host.Outcome.next heq, hwritten, hacks, by rw [hempty, if_neg (List.cons_ne_nil a l), huphase, hphase],
        hjob, hregs, hothers⟩
  · exact ⟨_, rfl, setRun_run_same .., fun k hk => setRun_run_other hk .., rfl⟩

end Sys2Proof.Machine

namespace Sys2Proof
open Machine

/-- Settles O59: a problem is admitted as the first of its hearth, and its record and slot are all a root's end writes. -/
theorem rootsAreAdmittedAndDecided : Obligations.RootsAreAdmittedAndDecided := by
  unfold Obligations.RootsAreAdmittedAndDecided
  exact ⟨rootsAreAdmittedInOrder, rootsAreDecidedAndWritten⟩

end Sys2Proof
end
section
/-! The fold of the factors (R188, R189, R191, R212, R226). -/

namespace Sys2Proof.Machine

/-! ## What a fold leaves alone -/

theorem FabricOnly.elects {s t : State} (h : FabricOnly s t) : Elects s t := by
  obtain ⟨h, _⟩ := h
  exact ⟨(congrArg (fun s => s.job.st) h :), (congrArg (fun s => s.job.committed) h :), (congrArg (fun s => s.job.attempt) h :),
    (congrArg State.groups h :), (congrArg State.cores h :), (congrArg State.regs h :), (congrArg State.recipe h :)⟩

theorem elects_fold {α : Type} {f : State → α → State} (hf : ∀ s x, Elects s (f s x)) (l : List α) (s : State) :
    Elects s (l.foldl f s) := by
  induction l generalizing s with
  | nil => exact Elects.refl s
  | cons x l ih => exact (hf s x).trans (ih _)

theorem setRootRec_elects (p : Prob) (r : RootRec) (s : State) : Elects s (setRootRec p r s) :=
  (setRootRec_within p r s).reaches.elects

theorem leaven_elects (l : LeavenSt) (s : State) : Elects s { s with leaven := l } := ⟨rfl, rfl, rfl, rfl, rfl, rfl, rfl⟩

theorem rootMissed_elects (i : Nat) (p : Prob) (step due : Nat) (s : State) : Elects s (rootMissed i p step due s) := by
  unfold rootMissed
  dsimp only
  split
  · exact Elects.refl s
  · exact ((logAdd_elects ..).trans ((setRun_elects ..).trans (setRootRec_elects ..))).trans (leaven_elects ..)

theorem nextSource_elects (i : Nat) (p : Prob) (now : Nat) (s : State) : Elects s (nextSource i p now s) := by
  unfold nextSource
  dsimp only
  split
  · exact setRun_elects ..
  · exact (setRun_elects ..).trans (setRootRec_elects ..)

theorem abandonRoot_elects (n i : Nat) (p : Prob) (due : Nat) (s : State) : Elects s (abandonRoot n i p due s) := by
  have hmissed := rootMissed_elects i p n due s
  unfold abandonRoot
  generalize rootMissed i p n due s = u at hmissed ⊢
  dsimp only
  exact (hmissed.trans (setRun_elects ..)).trans (sendDecision_sends ..).only.elects

theorem abandonStale_elects (n i : Nat) (p : Prob) (s : State) : Elects s (abandonStale n i p s) := by
  unfold abandonStale
  dsimp only
  split
  · exact ((abandonRoot_elects ..).trans (setRootRec_elects ..)).trans (nextSource_elects ..)
  · split
    · exact Elects.refl s
    · exact (abandonRoot_elects ..).trans (setRun_elects ..)

theorem foldStale_elects (n : Nat) (s : State) (x : Prob × Nat) : Elects s (foldStale n s x) := by
  unfold foldStale
  split
  · exact abandonStale_elects ..
  · exact Elects.refl s

theorem foldInto_elects (n : Nat) (s : State) (x : Prob × Nat) : Elects s (foldInto n s x) := by
  unfold foldInto
  dsimp only
  split
  · exact ((storeSym_within ..).reaches.trans (vmStore_reaches ..)).elects
  · exact Elects.refl s

theorem readFold_reaches (s : State) (p : Prob) : Reaches s (readFold s p) :=
  Reaches.fold (fun s (r : Nat × Nat) => readTouch_reaches p.job.hearth r.1 r.2 s) _ s

theorem readFold_mem (s : State) (p : Prob) : (readFold s p).mm.mem = s.mm.mem :=
  foldl_field (fun s => s.mm.mem) (f := fun s (r : Nat × Nat) => readTouch p.job.hearth r.1 r.2 s)
    (fun _ _ => readTouch_mem ..) _ s

/-! ## The course of a fold -/

/-- The problems solved here. -/
def State.ownProbs (s : State) : List Prob := s.probs.filter fun p => p.role == 0

/-- What the folds read has been read. -/
def foldRead (s : State) : State := s.ownProbs.foldl readFold s

theorem foldRead_reaches (s : State) : Reaches s (foldRead s) := Reaches.fold readFold_reaches _ s
theorem foldRead_mem (s : State) : (foldRead s).mm.mem = s.mm.mem := foldl_field (fun s => s.mm.mem) readFold_mem _ s

/-- Roots that wait for the oldest version have been abandoned. -/
def foldSpared (n : Nat) (s : State) : State := s.probIdx.foldl (foldStale n) s

/-- The folds of step n are made. -/
def foldMade (n : Nat) (s : State) : State := setFolded (s.probIdx.foldl (foldInto n) s)

theorem factorFoldState_folds {s : State} (hin : s.inStep = true) (hcurv : s.curv s.job.step = true)
    (hfresh : s.leaven.folded = false)
    (hmine : ∀ p ∈ s.probs, p.role = 0 → s.factorsHere p = true ∧ ∀ r ∈ s.foldReads p, s.vmGood r.1 r.2 = true) :
    factorFoldState s = foldMade s.job.step (foldSpared s.job.step (foldRead s)) := by
  have hown (p : Prob) (hp : p ∈ s.ownProbs) := hmine p (List.mem_filter.mp hp).1 (by simpa using (List.mem_filter.mp hp).2)
  have hhere : s.ownProbs.all s.factorsHere = true := List.all_eq_true.mpr fun p hp => (hown p hp).1
  have hgood : (s.ownProbs.all fun p => (s.foldReads p).all fun r => s.vmGood r.1 r.2) = true :=
    List.all_eq_true.mpr fun p hp => List.all_eq_true.mpr (hown p hp).2
  unfold State.inStep at hin
  rw [Bool.and_eq_true, beq_iff_eq] at hin
  unfold State.ownProbs at hhere hgood
  unfold factorFoldState
  dsimp only
  rw [if_neg (by simp [hin.1, hin.2, hcurv, hfresh]), if_neg (by rw [hhere, hgood]; decide)]
  rfl

theorem factorFoldState_waits {s : State} (h : s.curv s.job.step = false ∨ s.leaven.folded = true
    ∨ ∃ p ∈ s.probs, p.role = 0 ∧ s.factorsHere p = false) : factorFoldState s = s := by
  have hnot (hhere : ∃ p ∈ s.probs, p.role = 0 ∧ s.factorsHere p = false) :
      ((s.probs.filter fun p => p.role == 0).all s.factorsHere) = false := by
    obtain ⟨p, hp, hrole, hmissing⟩ := hhere
    exact List.all_eq_false.mpr ⟨p, List.mem_filter.mpr ⟨hp, by simp [hrole]⟩, by simp [hmissing]⟩
  unfold factorFoldState
  dsimp only
  split
  · rfl
  · next hgo =>
    rcases h with h | h | h
    · exact absurd (by simp [h]) hgo
    · exact absurd (by simp [h]) hgo
    · rw [if_pos (by rw [hnot h]; rfl)]

theorem foldMade_elects (n : Nat) (s : State) : Elects s (foldMade n s) :=
  (elects_fold (foldInto_elects n) s.probIdx s).trans ⟨rfl, rfl, rfl, rfl, rfl, rfl, rfl⟩

theorem foldCourse_elects (n : Nat) (s : State) : Elects s (foldMade n (foldSpared n (foldRead s))) :=
  ((foldRead_reaches s).elects.trans (elects_fold (foldStale_elects n) _ _)).trans (foldMade_elects n _)

/-! ## The header a fold leaves -/

/-- Eight aligned bytes lie in one block. -/
theorem aligned_word {s : State} {a i p : Nat} (ha : a % 8 = 0) (hi : i < 8) (hp : s.phys a = some p) :
    ∃ q, s.phys (a + i) = some q ∧ q / 128 = p / 128 := by
  have hpage : (a + i) / pageSize = a / pageSize := by unfold pageSize; omega
  rw [phys_eq] at hp ⊢
  rw [hpage]
  obtain ⟨f, hf, hfp⟩ := Option.map_eq_some_iff.mp hp
  refine ⟨f * pageSize + (a + i) % pageSize, by rw [hf]; rfl, ?_⟩
  rw [← hfp]
  unfold pageSize
  omega

theorem ofLe_leBytes_mod (k v : Nat) : ofLe (leBytes k v) = v % 256 ^ k := by
  induction k generalizing v with
  | zero => simp only [leBytes, ofLe, pow_zero, Nat.mod_one]
  | succ k ih =>
    simp only [leBytes, ofLe, ih]
    rw [BitVec.toNat_ofNat, show 256 ^ (k + 1) = 256 * 256 ^ k from pow_succ' .., Nat.mod_mul]

/-- The first bytes of a slot that a fold wrote give its step. -/
theorem header_read {slot q n : Nat} {s : State} (hwf : memWf s.mm.mem = true) (halign : slot % 8 = 0)
    (hq : s.phys slot = some q) (hgood : s.marked (q / 128) = false) :
    ofLe ((vmStore slot (leBytes 8 n) s).vmRead slot 8) = n % 2 ^ 64 := by
  have hread : (vmStore slot (leBytes 8 n) s).vmRead slot 8 = leBytes 8 n := by
    have h := vmStore_read (va := slot) (bs := leBytes 8 n) hwf (by rw [length_leBytes]; decide) fun i hi => by
      rw [length_leBytes] at hi
      obtain ⟨b, hb, hblock⟩ := aligned_word halign hi hq
      exact ⟨b, hb, (bad_of_block hblock).trans (bad_of_unmarked hgood)⟩
    rwa [length_leBytes] at h
  rw [hread, ofLe_leBytes_mod]
  rfl

/-- A fold that no root waits for spares none. -/
theorem foldStale_idle {n i : Nat} {p : Prob} {s : State} (hphase : (s.run i).phase ≠ .waiting) (hlater : (s.run i).later = []) :
    foldStale n s (p, i) = s := by
  unfold foldStale
  split
  · unfold abandonStale
    dsimp only
    rw [hlater, if_neg (by simp [hphase])]
    rfl
  · rfl

/-- The one problem of a recipe, solved here, has its step in the header of the slot that is not in force. -/
theorem foldMade_header {n k slot q : Nat} {p : Prob} {s : State} (hone : s.probs = [p]) (hrole : p.role = 0)
    (hk : 1 - s.factorCur p s.job.committed = k) (hslot : p.factorSlot k = slot) (hwf : memWf s.mm.mem = true)
    (halign : slot % 8 = 0) (hq : s.phys slot = some q) (hgood : s.marked (q / 128) = false) :
    (foldMade n s).factorSrc p k = n % 2 ^ 64 := by
  have hidx : s.probIdx = [(p, 0)] := by rw [State.probIdx, hone]; rfl
  unfold foldMade
  rw [hidx, List.foldl_cons, List.foldl_nil]
  unfold foldInto
  dsimp only
  rw [if_pos hrole, hk, hslot]
  generalize foldFactor _ _ _ _ _ = m
  have hsym := storeSym_within (slot + 4096) p.job.n m s
  generalize storeSym (slot + 4096) p.job.n m s = u at hsym ⊢
  have hread := header_read (n := n) (hsym.wf hwf) halign (by rw [hsym.reaches.phys]; exact hq) (hsym.reaches.marked hgood)
  rw [← hread, ← hslot]
  rfl

theorem factorCur_reaches {s t : State} (h : Reaches s t) (hmem : t.mm.mem = s.mm.mem) (p : Prob) (c : Nat) :
    t.factorCur p c = s.factorCur p c := by
  unfold State.factorCur State.factorSrc
  simp only [h.vmRead hmem]

/-- What a fold step leaves (R188, R191, R226). -/
theorem factorFold_made {s : State} (hin : s.inStep = true) (hcurv : s.curv s.job.step = true)
    (hfresh : s.leaven.folded = false)
    (hmine : ∀ p ∈ s.probs, p.role = 0 → s.factorsHere p = true ∧ ∀ r ∈ s.foldReads p, s.vmGood r.1 r.2 = true) :
    ∃ t, exec .factorFold s = .next t ∧ t.leaven.folded = true ∧ t.groups = s.groups ∧ t.cores = s.cores
      ∧ t.job.st = s.job.st ∧ t.job.attempt = s.job.attempt ∧ t.regs = s.regs
      ∧ ∀ p, s.probs = [p] → p.role = 0 → (s.run 0).phase ≠ .waiting → (s.run 0).later = [] → memWf s.mm.mem = true →
          let k := 1 - s.factorCur p s.job.committed
          p.factorSlot k % 8 = 0 → (∃ q, s.phys (p.factorSlot k) = some q ∧ s.marked (q / 128) = false) →
          t.factorSrc p k = s.job.step % 2 ^ 64 := by
  have heq := factorFoldState_folds hin hcurv hfresh hmine
  have helects := foldCourse_elects s.job.step s
  refine ⟨_, congrArg Host.Outcome.next heq, rfl, helects.groups, helects.cores, helects.st, helects.attempt, helects.regs,
    fun p hone hrole hphase hlater hwf => ?_⟩
  intro k halign ⟨q, hq, hgood⟩
  have hreach := foldRead_reaches s
  have hmem := foldRead_mem s
  have hprobs : (foldRead s).probs = [p] := (probs_of_recipe hreach.recipe).trans hone
  have hrun := run_of_leaven hreach.leaven 0
  have hspared : foldSpared s.job.step (foldRead s) = foldRead s := by
    unfold foldSpared
    rw [show (foldRead s).probIdx = [(p, 0)] by rw [State.probIdx, hprobs]; rfl, List.foldl_cons, List.foldl_nil]
    exact foldStale_idle (by rw [hrun]; exact hphase) (by rw [hrun]; exact hlater)
  rw [hspared]
  exact foldMade_header hprobs hrole (by rw [factorCur_reaches hreach hmem, hreach.job]) rfl (by rw [hmem]; exact hwf) halign
    (by rw [hreach.phys]; exact hq) (hreach.marked hgood)

end Sys2Proof.Machine
end
section
/-! Roots and decisions at their destinations (R209, R212, R217, R218, R264). -/

namespace Sys2Proof.Machine

/-! ## A delivered root -/

/-- The record of a root that has been delivered mirrors its owner's. -/
def deliveredRec (p : Prob) (due source kind esc : Nat) (header : Bytes) (r : RootRec) : RootRec :=
  { r with
    sig0 := p.sig0, block := p.block, damp := p.dampClass, ready := true, pendingDue := due, source := source
    lastCode := 0, iters := ofLe ((header.drop 28).take 4) % 256, kind := kind, esc := esc
    resid := BitVec.ofNat 32 (ofLe ((header.drop 24).take 4)) }

/-- Header and tiles of a delivered root stand in the slot it names. -/
def rootPlaced (p : Prob) (slot : Nat) (header tiles : Bytes) (s : State) : State :=
  vmStore (p.rootSlot slot) (header.take 4096) (vmStore (p.rootSlot slot + 4096) (tiles.take (4096 * symTiles p.job.n)) s)

/-- The ranges a delivered root is stored in. -/
def rootRanges (p : Prob) (slot : Nat) : List (Nat × Nat) :=
  [(p.rootVa, 64), (p.rootSlot slot, 4096), (p.rootSlot slot + 4096, 4096 * symTiles p.job.n)]

theorem within_of_range {l : List (Nat × Nat)} {va n : Nat} {s t : State} (h : Within [(va, n)] s t) (hmem : (va, n) ∈ l) :
    Within l s t := h.mono fun r hr => by
  rw [List.mem_singleton] at hr
  subst hr
  exact ⟨_, hmem, le_refl _, le_refl _⟩

theorem rootPlaced_within (p : Prob) (slot : Nat) (header tiles : Bytes) (s : State) :
    Within (rootRanges p slot) s (rootPlaced p slot header tiles s) := by
  have htiles (s : State) : Within (rootRanges p slot) s
      (vmStore (p.rootSlot slot + 4096) (tiles.take (4096 * symTiles p.job.n)) s) :=
    within_of_range (vmStore_within_range (le_refl _) (Nat.add_le_add_left (List.length_take_le ..) _) s) (by simp [rootRanges])
  have hheader (s : State) : Within (rootRanges p slot) s (vmStore (p.rootSlot slot) (header.take 4096) s) :=
    within_of_range (vmStore_within_range (le_refl _) (Nat.add_le_add_left (List.length_take_le ..) _) s) (by simp [rootRanges])
  exact (htiles s).trans (hheader _)

/-- A root stands at its destination: its bytes, its record and what its problem shows. -/
def rootTaken (i : Nat) (p : Prob) (slot due source kind esc : Nat) (header tiles : Bytes) (s : State) : State :=
  let u := rootPlaced p slot header tiles s
  let v := setRootRec p (deliveredRec p due source kind esc header (u.rootRec p)) u
  setRun i { v.run i with phase := .ready, src := source, due := due } v

theorem rootDelivered_eq {src w side blk : Nat} {p : Prob} {i : Nat} {s : State} (h : s.destProb w side blk src = some (p, i))
    (slot due source kind esc : Nat) (header tiles : Bytes) :
    rootDelivered src w side blk slot due source kind esc header tiles s
      = sendWords src 7 [w, side, blk, source] (rootTaken i p slot due source kind esc header tiles s) := by
  unfold rootDelivered
  rw [h]
  rfl

/-- A root has been taken at its destination. -/
structure RootTaken (i : Nat) (p : Prob) (slot due source : Nat) (s t : State) : Prop where
  run : t.run i = { s.run i with phase := .ready, src := source, due := due }
  others : ∀ k, k ≠ i → t.run k = s.run k
  outside : MemoryOutside (rootRanges p slot) s t
  job : t.job = s.job
  groups : t.groups = s.groups
  regs : t.regs = s.regs

theorem rootTaken_taken (i : Nat) (p : Prob) (slot due source kind esc : Nat) (header tiles : Bytes) (s : State) :
    RootTaken i p slot due source s (rootTaken i p slot due source kind esc header tiles s) := by
  unfold rootTaken
  dsimp only
  have hplaced := rootPlaced_within p slot header tiles s
  generalize rootPlaced p slot header tiles s = u at hplaced ⊢
  generalize deliveredRec p due source kind esc header (u.rootRec p) = r
  have hboth : Within (rootRanges p slot) s (setRootRec p r u) :=
    hplaced.trans (within_of_range (setRootRec_within p r u) (by simp [rootRanges]))
  generalize setRootRec p r u = v at hboth ⊢
  have hrun := run_of_leaven hboth.reaches.leaven
  exact {
    run := by rw [setRun_run_same, hrun]
    others := fun k hk => by rw [setRun_run_other hk, hrun]
    outside := hboth.outside
    job := hboth.reaches.job
    groups := hboth.reaches.groups
    regs := hboth.reaches.regs }

/-- Without the packets that brought it. -/
def withoutDelivered (src : Nat) (s : State) : State :=
  { s with fab := { s.fab with delivered := s.fab.delivered.filter fun p => !(p.kind == 1 && p.src == src && p.step == 0) } }

theorem rootDelivery_taken {src w side blk : Nat} {p : Prob} {i : Nat} {s : State} (h : s.destProb w side blk src = some (p, i))
    (slot due source kind esc : Nat) (header tiles : Bytes) :
    ∃ t, exec (.rootDelivery src w side blk slot due source ⟨kind, esc, header⟩ tiles) s = .next t
      ∧ t.run i = { s.run i with phase := .ready, src := source, due := due } ∧ (∀ k, k ≠ i → t.run k = s.run k)
      ∧ .vl0 src 7 [w, side, blk, source] ∈ t.tx
      ∧ MemoryOutside [(p.rootVa, 64), (p.rootSlot slot, 4096), (p.rootSlot slot + 4096, 4096 * symTiles p.job.n)] s t
      ∧ t.job = s.job ∧ t.groups = s.groups ∧ t.regs = s.regs := by
  have heq : rootDeliveryState src w side blk slot due source kind esc header tiles s
      = sendWords src 7 [w, side, blk, source] (rootTaken i p slot due source kind esc header tiles (withoutDelivered src s)) :=
    rootDelivered_eq (s := withoutDelivered src s) h slot due source kind esc header tiles
  have htaken := rootTaken_taken i p slot due source kind esc header tiles (withoutDelivered src s)
  generalize rootTaken i p slot due source kind esc header tiles (withoutDelivered src s) = u at heq htaken
  have hsent := sendWords_mem src 7 [w, side, blk, source] u
  have honly := (sends_sendWords src 7 [w, side, blk, source] u).only.1
  generalize sendWords src 7 [w, side, blk, source] u = t at heq hsent honly
  have hrun := run_of_leaven (congrArg State.leaven honly :)
  have hmm : t.mm = u.mm := (congrArg State.mm honly :)
  refine ⟨t, congrArg Host.Outcome.next heq, (hrun i).trans htaken.run, fun k hk => (hrun k).trans (htaken.others k hk), hsent,
    fun q hq => ?_, (congrArg State.job honly :).trans htaken.job, (congrArg State.groups honly :).trans htaken.groups,
    (congrArg State.regs honly :).trans htaken.regs⟩
  rw [hmm]
  exact htaken.outside q hq

/-! ## A decision -/

/-- The message a decision stands for in the count of attempts. -/
def rootMessage (src step attempt : Nat) (s : State) : CommitMsg :=
  { digest := s.coll.digest, step := step, attempt := attempt, sender := src, code := 0, origin := src, commit := false }

theorem level_same {m : CommitMsg} {s : State} (h : s.inStep = true → m.step = s.job.step → m.attempt ≤ s.job.attempt)
    (isAbort : Bool) : level m isAbort s = s := by
  unfold level
  split
  · next hfor =>
    unfold State.forStep at hfor
    simp only [Bool.and_eq_true, beq_iff_eq] at hfor
    obtain ⟨⟨_, hin⟩, hstep⟩ := hfor
    unfold higherState
    rw [if_pos (by simp [h hin hstep])]
  · rfl

theorem rootMessageState_eq {src w side blk step attempt slot : Nat} {o : RootOutcome} {s : State}
    (h : s.inStep = true → step = s.job.step → attempt ≤ s.job.attempt) :
    rootMessageState src w side blk step attempt slot o s
      = if s.inStep && step = s.job.step && decide (attempt < s.job.attempt) then s
        else rootDecisionState src w side blk step slot o s := by
  have hlevel : level (rootMessage src step attempt s) false s = s := level_same h false
  unfold rootMessage at hlevel
  unfold rootMessageState
  dsimp only
  rw [hlevel]

theorem rootMessageState_takes {src w side blk step attempt slot : Nat} {o : RootOutcome} {s : State}
    (h : step ≠ s.job.step ∨ attempt = s.job.attempt) :
    rootMessageState src w side blk step attempt slot o s = rootDecisionState src w side blk step slot o s := by
  rw [rootMessageState_eq fun _ hstep => le_of_eq (h.resolve_left (absurd hstep)), if_neg (by
    rcases h with h | h
    · simp [h]
    · simp [h])]

section
variable {src w side blk step slot i : Nat} {o : RootOutcome} {p : Prob} {s : State}
  (hdest : s.destProb w side blk src = some (p, i))

theorem rootDecisionState_none (h : s.destProb w side blk src = none) : rootDecisionState src w side blk step slot o s = s := by
  unfold rootDecisionState
  rw [h]

include hdest

theorem rootDecisionState_latches (hnew : s.job.committed < step) (hstep : (s.run i).latchStep ≠ step)
    (hfree : (s.run i).latch = 0) :
    rootDecisionState src w side blk step slot o s = latchRoot i p step slot (latchKind o) s := by
  unfold rootDecisionState
  rw [hdest]
  dsimp only
  rw [if_neg (by omega), if_neg hstep, if_pos hfree]

theorem rootDecisionState_notes (hnew : s.job.committed < step) (hlater : (s.run i).latchStep < step)
    (hheld : (s.run i).latch ≠ 0) : rootDecisionState src w side blk step slot o s
      = setRun i { s.run i with notes := tset (s.run i).notes step (slot, latchKind o) } s := by
  unfold rootDecisionState
  rw [hdest]
  dsimp only
  rw [if_neg (by omega), if_neg (by omega), if_neg hheld, if_neg (by omega)]

theorem rootDecisionState_replaces (hnew : s.job.committed < step) (hsame : (s.run i).latchStep = step)
    (hmissed : (s.run i).latch = 2) (ho : o = .abandoned) : rootDecisionState src w side blk step slot o s
      = setRun i { s.run i with latch := 3 } s := by
  subst ho
  unfold rootDecisionState
  rw [hdest]
  dsimp only
  rw [if_neg (by omega), if_pos hsame, if_pos (by simp [hmissed])]

theorem rootDecisionState_stands (h : step ≤ s.job.committed
    ∨ ((s.run i).latchStep = step ∧ ((s.run i).latch ≠ 2 ∨ o ≠ .abandoned))) :
    rootDecisionState src w side blk step slot o s = s := by
  unfold rootDecisionState
  rw [hdest]
  dsimp only
  split
  · rfl
  · next hnew =>
    obtain ⟨hsame, hkind⟩ := h.resolve_left hnew
    rw [if_pos hsame, if_neg (by rcases hkind with hk | hk <;> simp [hk])]

end

/-- A latched decision writes the problem's record alone. -/
theorem latchRoot_latches (i : Nat) (p : Prob) (n slot kind : Nat) (s : State) :
    (latchRoot i p n slot kind s).run i = { s.run i with latch := kind, latchStep := n }
    ∧ (∀ k, k ≠ i → (latchRoot i p n slot kind s).run k = s.run k)
    ∧ MemoryOutside [(p.rootVa, 64)] s (latchRoot i p n slot kind s) ∧ (latchRoot i p n slot kind s).job = s.job
    ∧ (latchRoot i p n slot kind s).tx = s.tx := by
  unfold latchRoot
  dsimp only
  generalize (if kind = 2 || (kind = 3 && p.role = 1) then ROOT_MISSED else (s.rootRec p).lastCode) = code
  generalize ({ s.rootRec p with latchStep := n, latchSlot := slot, lastCode := code } : RootRec) = r
  have hset := setRootRec_within p r s
  generalize setRootRec p r s = u at hset ⊢
  have hrun := run_of_leaven hset.reaches.leaven
  have htx : u.tx = s.tx := by rw [hset.reaches.rest]
  exact ⟨by rw [setRun_run_same, hrun], fun k hk => by rw [setRun_run_other hk, hrun], hset.outside, hset.reaches.job, htx⟩

end Sys2Proof.Machine

namespace Sys2Proof
open Machine

/-- Settles O60: a fold, a delivery and a decision each write one problem's slot or record. -/
theorem rootsReachTheirDestinations : Obligations.RootsReachTheirDestinations := by
  unfold Obligations.RootsReachTheirDestinations
  intro s
  refine ⟨factorFold_made, fun h => congrArg Host.Outcome.next (factorFoldState_waits h),
    fun src w side blk slot due source kind esc header tiles p i h => rootDelivery_taken h slot due source kind esc header tiles,
    fun src w side blk step attempt slot o => ⟨fun hin hstep hlow => congrArg Host.Outcome.next ?_, fun hpresent => ?_⟩⟩
  · rw [rootMessageState_eq fun _ _ => hlow.le, if_pos (by simp [hin, hstep, hlow])]
  · have heq : exec (.rootDecisionMessage src w side blk ⟨step, attempt⟩ slot o) s
        = .next (rootDecisionState src w side blk step slot o s) := congrArg Host.Outcome.next (rootMessageState_takes hpresent)
    rw [heq]
    refine ⟨fun p i hdest => ⟨fun hnew hstep hfree => ⟨_, rfl, ?_⟩, fun hnew hlater hheld => ⟨_, rfl, ?_⟩,
      fun hnew hsame hmissed ho => ⟨_, rfl, ?_⟩, fun h => congrArg Host.Outcome.next (rootDecisionState_stands hdest h)⟩,
      fun hnone => congrArg Host.Outcome.next (rootDecisionState_none hnone)⟩
    · rw [rootDecisionState_latches hdest hnew hstep hfree]
      exact latchRoot_latches i p step slot (latchKind o) s
    · rw [rootDecisionState_notes hdest hnew hlater hheld]
      exact ⟨setRun_run_same .., fun k hk => setRun_run_other hk .., rfl⟩
    · rw [rootDecisionState_replaces hdest hnew hsame hmissed ho]
      exact ⟨setRun_run_same .., fun k hk => setRun_run_other hk .., rfl⟩

end Sys2Proof
end
section
/-! START of a job (R227, R271, R298, R329, R336, R373, R406). -/

namespace Sys2Proof.Machine

/-! ## From LOADED to the job's source -/

/-- All but the ports and what was sent. -/
def State.besidePorts (s : State) : State := { s with fab := { s.fab with ports := [] }, tx := [] }

theorem retrains_besidePorts (l : List Nat) (s : State) :
    (l.foldl (fun s p => if (s.port p).state = 4 then laneFailureState p s else s) s).besidePorts = s.besidePorts := by
  refine foldl_field State.besidePorts (f := fun s p => if (s.port p).state = 4 then laneFailureState p s else s)
    (fun s p => ?_) l s
  split
  · unfold laneFailureState
    dsimp only
    split <;> rfl
  · rfl

/-- Only ports and what was sent differ. -/
theorem retrainDegraded_eq (s : State) : ∃ ports tx, retrainDegraded s = { s with fab := { s.fab with ports := ports }, tx := tx } := by
  have hbeside : (retrainDegraded s).besidePorts = s.besidePorts := retrains_besidePorts ..
  generalize retrainDegraded s = u at hbeside ⊢
  have hsame := congrArg (fun v : State => ({ v with fab := { v.fab with ports := u.fab.ports }, tx := u.tx } : State)) hbeside
  exact ⟨u.fab.ports, u.tx, hsame⟩

/-- A job that is loaded, with its registers in force and the storage as it shows itself. -/
def startReady (i : Install) (s : State) : State :=
  { s with
    eff := s.regs
    ingest := { s.ingest with blk4k := i.blk4k }
    job := { s.job with ckptHdrs := [(i.slotA.step, i.slotA.digest), (i.slotB.step, i.slotB.digest)], pend := none,
                        taken := none, ckptAsked := false } }

/-- The job runs, its source not yet in place. -/
def started (i : Install) (s : State) : State := governorStart (setJob .running 0 (retrainDegraded (startReady i s)))

theorem startJob_of_none {i : Install} {s : State} (h : (started i s).source i = none) :
    startJob i s = haltNow NOT_READY (started i s) := by
  unfold started startReady at h
  unfold startJob started startReady
  dsimp only at h ⊢
  rw [h]

theorem startJob_of_some {i : Install} {s : State} {src : Source} (h : (started i s).source i = some src) :
    startJob i s = beginJob src (started i s) := by
  unfold started startReady at h
  unfold startJob started startReady
  dsimp only at h ⊢
  rw [h]

/-- The job has been started. -/
structure JobStarted (s t : State) : Prop where
  st : t.job.st = .running
  active : t.dev.st = .active
  mainUp : t.dev.mainUp = s.dev.mainUp
  regs : t.regs = s.regs
  eff : t.eff = s.regs
  recipe : t.recipe = s.recipe
  sec : t.sec = s.sec
  results : t.results = s.results
  coord : t.fab.coord = s.fab.coord
  members : t.coll.members = s.coll.members
  committed : t.job.committed = s.job.committed
  mem : t.mm.mem = s.mm.mem

theorem setJob_active {c : Nat} {j : JobState} {s : State} (hst : j ≠ s.job.st) (hlive : j.live = true)
    (hready : s.dev.st = .ready) : (setJob j c s).dev.st = .active := by
  unfold setJob
  rw [if_neg hst]
  dsimp only
  generalize hu : raiseEvent (mkEvent (jobRecord j c s) 2 _ 0x5000 1 _ []) (jobRecord j c s) = u
  have hdev : u.dev = s.dev := by rw [← hu, raiseEvent_dev]; rfl
  unfold followJob
  rw [if_pos (by simp [hlive, hdev, hready]), setDev_dev]

theorem started_jobStarted {i : Install} {s : State} (hst : s.job.st = .loaded) (hready : s.dev.st = .ready) :
    JobStarted s (started i s) := by
  obtain ⟨ports, tx, hports⟩ := retrainDegraded_eq (startReady i s)
  unfold started
  rw [hports]
  generalize hu : ({ startReady i s with fab := { (startReady i s).fab with ports := ports }, tx := tx } : State) = u
  have hjob := setJob_job_eq .running 0 u
  have hdev := setJob_dev .running 0 u
  have hne : JobState.running ≠ u.job.st := by rw [← hu]; change JobState.running ≠ s.job.st; rw [hst]; decide
  have hactive := setJob_active (c := 0) hne rfl (show u.dev.st = .ready by rw [← hu]; exact hready)
  have hcommitted : (setJob .running 0 u).job.committed = u.job.committed := (congrArg Job.committed hjob :)
  have hmain : (setJob .running 0 u).dev.mainUp = u.dev.mainUp := (congrArg Dev.mainUp hdev :)
  exact {
    st := setJob_job_st ..
    active := hactive
    mainUp := hmain.trans (by rw [← hu]; rfl)
    regs := (setJob_regs ..).trans (by rw [← hu]; rfl)
    eff := (setJob_eff ..).trans (by rw [← hu]; rfl)
    recipe := (setJob_recipe ..).trans (by rw [← hu]; rfl)
    sec := (setJob_sec ..).trans (by rw [← hu]; rfl)
    results := (setJob_results ..).trans (by rw [← hu]; rfl)
    coord := (congrArg FabSt.coord (setJob_fab ..)).trans (by rw [← hu]; rfl)
    members := (congrArg CollSt.members (setJob_coll ..)).trans (by rw [← hu]; rfl)
    committed := hcommitted.trans (by rw [← hu]; rfl)
    mem := (congrArg MemSt.mem (setJob_mm ..)).trans (by rw [← hu]; rfl) }

/-! ## What a recipe says of a start -/

section
variable {s t : State} (hrecipe : t.recipe = s.recipe)
include hrecipe

theorem toInstall_of_recipe : t.toInstall = s.toInstall := by
  have hcont : t.cont = s.cont := by rw [State.cont, State.cont, hrecipe]
  unfold State.toInstall State.layerBlocks State.layers State.blocks State.ksec
  rw [hcont]

theorem source_of_recipe (hregs : t.regs = s.regs) (i : Install) : t.source i = s.source i := by
  have hcont : t.cont = s.cont := by rw [State.cont, State.cont, hrecipe]
  unfold State.source State.slotFits State.ing State.recipeDigest
  rw [hcont, hregs, hrecipe]

theorem inLists_of_recipe (hregs : t.regs = s.regs) (hmain : t.dev.mainUp = s.dev.mainUp) (hcoord : t.fab.coord = s.fab.coord)
    (hmembers : t.coll.members = s.coll.members) : t.inLists = s.inLists := by
  have hcont : t.cont = s.cont := by rw [State.cont, State.cont, hrecipe]
  have hdev : t.devId = s.devId := by
    unfold State.devId
    rw [hmain, hcoord, hregs]
  unfold State.inLists State.colls
  rw [hmembers, hdev, hcont]

end

/-! ## The source in place, and the first step -/

theorem spreadBytes_reaches (l : List (Nat × Nat)) (bs : Bytes) (s : State) : Reaches s (spreadBytes l bs s) := by
  induction l generalizing bs s with
  | nil => exact Reaches.refl s
  | cons r l ih => exact (vmStore_reaches ..).trans (ih _ _)

theorem placeSource_reaches (src : Source) (s : State) : Reaches s (placeSource src s) := by
  unfold placeSource
  split
  · exact Reaches.refl s
  · exact spreadBytes_reaches ..

theorem installState_eq (src : Source) (s : State) :
    ∃ m, installState src s = { s with mm := m, job := { s.job with installing := s.toInstall } } := by
  have hseal : Reaches s ((placeSource src s).blocks.foldl (sealBlock src.step) (placeSource src s)) :=
    (placeSource_reaches src s).trans (Reaches.fold (sealBlock_reaches src.step) _ _)
  unfold installState
  dsimp only
  generalize (placeSource src s).blocks.foldl (sealBlock src.step) (placeSource src s) = u at hseal ⊢
  have hqueue : queueInstall u = { s with mm := u.mm, job := { s.job with installing := s.toInstall } } := by
    unfold queueInstall
    rw [toInstall_of_recipe hseal.recipe, hseal.job, hseal.rest]
  rw [hqueue]
  split
  · obtain ⟨hrest, _, _⟩ := clearTags_reaches ({ s with mm := u.mm, job := { s.job with installing := s.toInstall } } : State)
    generalize clearTags ({ s with mm := u.mm, job := { s.job with installing := s.toInstall } } : State) = v at hrest
    exact ⟨v.mm, by rw [hrest]⟩
  · exact ⟨u.mm, rfl⟩

theorem resumeRoots_besideSram (s : State) : (resumeRoots s).besideSram = s.besideSram := by
  unfold resumeRoots
  refine foldl_field State.besideSram (fun s x => ?_) _ s
  obtain ⟨p, i⟩ := x
  dsimp only
  split <;> rfl

/-- Only the roots and memories of cores differ. -/
theorem rootsAgain_eq (s : State) : ∃ cs l, rebuildStarters (resumeRoots s) = { s with cores := cs, leaven := l } := by
  have h := (rebuildStarters_besideSram (resumeRoots s)).trans (resumeRoots_besideSram s)
  generalize rebuildStarters (resumeRoots s) = v at h ⊢
  have hsame := congrArg (fun w : State => ({ w with cores := v.cores, leaven := v.leaven } : State)) h
  exact ⟨v.cores, v.leaven, hsame⟩

/-- The source stands: what memory and the roots hold, ingest at its cursor, and nothing kept from before. -/
def sourced (src : Source) (m : MemSt) (cs : List (Nat × CoreSt)) (l : LeavenSt) (s : State) : State :=
  startIngest src.cursor src.queue { s with
    mm := m, cores := cs, leaven := l, job := { s.job with installing := s.toInstall, committed := src.step }
    coll := { s.coll with early := [], held := [], answered := [] } }

theorem beginJob_eq (src : Source) (s : State) :
    ∃ m cs l, beginJob src s = sendDigest (stepBegun (sourced src m cs l s)) := by
  obtain ⟨m, hinstall⟩ := installState_eq src s
  obtain ⟨cs, l, hroots⟩ := rootsAgain_eq { s with
    mm := m, job := { s.job with installing := s.toInstall, committed := src.step }
    coll := { s.coll with early := [], held := [], answered := [] } }
  refine ⟨m, cs, l, ?_⟩
  have hquiet : startStep (sourced src m cs l s) = stepBegun (sourced src m cs l s) :=
    startStep_quiet ⟨fun _ h => absurd h List.not_mem_nil, fun _ h => absurd h List.not_mem_nil⟩
  rw [← hquiet]
  unfold beginJob
  rw [hinstall]
  dsimp only
  rw [hroots]
  rfl

/-- The first step of a job from its source. -/
structure FirstStep (src : Source) (s t : State) : Prop where
  st : t.job.st = s.job.st
  dev : t.dev = s.dev
  committed : t.job.committed = src.step
  step : t.job.step = src.step + 1
  attempt : t.job.attempt = 0
  order : t.bnd.order = 0
  installing : t.job.installing = s.toInstall
  eff : t.eff = s.eff
  regs : t.regs = s.regs
  packStep : t.ingest.packStep = src.step + 1
  cursor : t.ingest.cursor = src.cursor
  recipe : t.recipe = s.recipe
  sec : t.sec = s.sec
  results : t.results = s.results
  coord : t.fab.coord = s.fab.coord
  members : t.coll.members = s.coll.members

theorem stepBegun_first (src : Source) (m : MemSt) (cs : List (Nat × CoreSt)) (l : LeavenSt) (s : State) :
    FirstStep src s (stepBegun (sourced src m cs l s)) :=
  ⟨rfl, rfl, rfl, rfl, rfl, rfl, rfl, rfl, rfl, rfl, rfl, rfl, rfl, rfl, rfl, rfl⟩

/-! ## The digest -/

theorem sendDigest_out {s : State} (h : s.inLists = false) :
    sendDigest s = haltNow DESCRIPTOR_INVALID { s with coll := { s.coll with digestSent := true, released := false } } := by
  have hout : ({ s with coll := { s.coll with digestSent := true, released := false } } : State).inLists = false := h
  unfold sendDigest
  dsimp only
  rw [if_pos (by rw [hout]; rfl)]

/-- A device of the member lists sends its digest up, or as the root lets step work begin. -/
theorem sendDigest_in {s : State} (h : s.inLists = true) : ∃ r fab counters tx, sendDigest s = { s with
    coll := { s.coll with digestSent := true, released := r }, fab := fab, counters := counters, tx := tx } := by
  have hin : ({ s with coll := { s.coll with digestSent := true, released := false } } : State).inLists = true := h
  have hsent {u : State} (hu : FabricOnly { s with coll := { s.coll with digestSent := true, released := false } } u) (r : Bool) :
      ({ u with coll := { u.coll with released := r } } : State) = { s with
        coll := { s.coll with digestSent := true, released := r }, fab := u.fab, counters := u.counters, tx := u.tx } := by
    have hsame := congrArg (fun v : State => ({ v with coll := { v.coll with released := r } } : State)) hu.1
    exact hsame
  unfold sendDigest
  dsimp only
  rw [if_neg (by rw [hin]; decide)]
  split
  · unfold releaseAll
    split
    · exact ⟨true, _, _, _, hsent (tellReleased_sends _).only true⟩
    · exact ⟨false, _, _, _, hsent (FabricOnly.refl _) false⟩
  · have honly := (sends_sendWords s.parentDev 8 [s.devId, s.coll.digest.toNat]
      { s with coll := { s.coll with digestSent := true, released := false } }).only
    exact ⟨false, _, _, _, honly.1⟩

end Sys2Proof.Machine
end
section
/-! What START answers, and what it leaves (R227, R271, R329, R336, R373, R406). -/

namespace Sys2Proof.Machine

/-- The job runs at the first slot of the step after its source. -/
structure RunsFrom (src : Source) (s t : State) : Prop where
  st : t.job.st = .running
  active : t.dev.st = .active
  committed : t.job.committed = src.step
  step : t.job.step = src.step + 1
  attempt : t.job.attempt = 0
  order : t.bnd.order = 0
  installing : t.job.installing = s.toInstall
  eff : t.eff = s.regs
  regs : t.regs = s.regs
  packStep : t.ingest.packStep = src.step + 1
  cursor : t.ingest.cursor = src.cursor
  digestSent : t.coll.digestSent = true
  recipe : t.recipe = s.recipe
  sec : t.sec = s.sec
  results : t.results = s.results

section
variable {i : Install} {src : Source} {s : State} (hst : s.job.st = .loaded) (hready : s.dev.st = .ready)
include hst hready

theorem startJob_none (hsrc : s.source i = none) : Halted NOT_READY s (startJob i s) ∧ (startJob i s).mm.mem = s.mm.mem := by
  have hstarted := started_jobStarted (i := i) hst hready
  have hsource : (started i s).source i = none := (source_of_recipe hstarted.recipe hstarted.regs i).trans hsrc
  have hlive : (started i s).job.st.live = true ∨ (started i s).job.st = .loaded := .inl (by rw [hstarted.st]; rfl)
  rw [startJob_of_none hsource]
  exact ⟨(haltNow_halted hlive).congr hstarted.committed (congrArg Recipe.loaded hstarted.recipe) hstarted.regs hstarted.sec,
    (haltNow_mem hlive).trans hstarted.mem⟩

/-- The state in which the digest is sent. -/
theorem startJob_first (hsrc : s.source i = some src) : ∃ w, startJob i s = sendDigest w ∧ FirstStep src (started i s) w
    ∧ JobStarted s (started i s) := by
  have hstarted := started_jobStarted (i := i) hst hready
  have hsource : (started i s).source i = some src := (source_of_recipe hstarted.recipe hstarted.regs i).trans hsrc
  obtain ⟨m, cs, l, hbegin⟩ := beginJob_eq src (started i s)
  refine ⟨_, ?_, stepBegun_first src m cs l (started i s), hstarted⟩
  rw [startJob_of_some hsource]
  exact hbegin

theorem startJob_runs (hsrc : s.source i = some src) (hin : s.inLists = true) : RunsFrom src s (startJob i s) := by
  obtain ⟨w, heq, hfirst, hstarted⟩ := startJob_first hst hready hsrc
  have hlists : w.inLists = true := (inLists_of_recipe (hfirst.recipe.trans hstarted.recipe) (hfirst.regs.trans hstarted.regs)
    ((congrArg Dev.mainUp hfirst.dev).trans hstarted.mainUp) (hfirst.coord.trans hstarted.coord)
    (hfirst.members.trans hstarted.members)).trans hin
  obtain ⟨r, fab, counters, tx, hsent⟩ := sendDigest_in hlists
  rw [heq, hsent]
  exact {
    st := hfirst.st.trans hstarted.st
    active := (congrArg Dev.st hfirst.dev).trans hstarted.active
    committed := hfirst.committed
    step := hfirst.step
    attempt := hfirst.attempt
    order := hfirst.order
    installing := hfirst.installing.trans (toInstall_of_recipe hstarted.recipe)
    eff := hfirst.eff.trans hstarted.eff
    regs := hfirst.regs.trans hstarted.regs
    packStep := hfirst.packStep
    cursor := hfirst.cursor
    digestSent := rfl
    recipe := hfirst.recipe.trans hstarted.recipe
    sec := hfirst.sec.trans hstarted.sec
    results := hfirst.results.trans hstarted.results }

theorem startJob_out (hsrc : s.source i = some src) (hout : s.inLists = false) :
    Halted DESCRIPTOR_INVALID { s with job := { s.job with committed := src.step } } (startJob i s) := by
  obtain ⟨w, heq, hfirst, hstarted⟩ := startJob_first hst hready hsrc
  have hlists : w.inLists = false := (inLists_of_recipe (hfirst.recipe.trans hstarted.recipe) (hfirst.regs.trans hstarted.regs)
    ((congrArg Dev.mainUp hfirst.dev).trans hstarted.mainUp) (hfirst.coord.trans hstarted.coord)
    (hfirst.members.trans hstarted.members)).trans hout
  have hlive : w.job.st.live = true := by rw [hfirst.st, hstarted.st]; rfl
  rw [heq, sendDigest_out hlists]
  have hhalted := haltNow_halted (code := DESCRIPTOR_INVALID)
    (s := { w with coll := { w.coll with digestSent := true, released := false } }) (.inl hlive)
  generalize haltNow DESCRIPTOR_INVALID { w with coll := { w.coll with digestSent := true, released := false } } = t at hhalted ⊢
  exact hhalted.congr hfirst.committed (congrArg Recipe.loaded (hfirst.recipe.trans hstarted.recipe))
    (hfirst.regs.trans hstarted.regs) (hfirst.sec.trans hstarted.sec)

end

/-! ## A diagnostic recipe -/

/-- A device in PROOFING stays there when its job state changes. -/
theorem setJob_dev_of_proofing {j : JobState} {c : Nat} {s : State} (h : s.dev.st = .proofing) : (setJob j c s).dev = s.dev := by
  unfold setJob
  split
  · rfl
  · dsimp only
    generalize hu : raiseEvent (mkEvent (jobRecord j c s) 2 _ 0x5000 1 _ []) (jobRecord j c s) = u
    have hdev : u.dev = s.dev := by rw [← hu, raiseEvent_dev]; rfl
    unfold followJob
    rw [if_neg (by simp [hdev, h]), if_neg (by simp [hdev, h])]
    exact hdev

theorem setJob_live_dueSegs {j : JobState} {c : Nat} {s : State} : (setJob j c s).eval.dueSegs = s.eval.dueSegs := by
  unfold setJob
  split
  · rfl
  · dsimp only
    rw [followJob_eval, raiseEvent_eval]
    unfold jobRecord
    dsimp only
    split <;> rfl

/-- The segments of a diagnostic recipe, in the order they run. -/
def State.diagIds (s : State) : List Nat := (s.segments.map (·.id)).mergeSort fun a b => decide (a ≤ b)

/-- A diagnostic recipe with every segment due. -/
def diagReady (s : State) : State :=
  { s with
    bnd := { Boundary.reset with order := 5, started := s.localUs, orderStart := s.localUs }
    eval := { s.eval with dueSegs := s.diagIds, spent := 0 } }

theorem mem_diagIds {s : State} {g : Segment} (hg : g ∈ s.segments) : g.id ∈ s.diagIds := by
  unfold State.diagIds
  rw [List.mem_mergeSort]
  exact List.mem_map_of_mem hg

theorem startDiag_eq {s : State} (hsegs : s.segments ≠ []) : startDiag s = setJob .running 0 (diagReady s) := by
  have hdue : (setJob .running 0 (diagReady s)).eval.dueSegs = s.diagIds := setJob_live_dueSegs
  obtain ⟨g, hg⟩ := List.exists_mem_of_ne_nil _ hsegs
  have hne : s.diagIds ≠ [] := List.ne_nil_of_mem (mem_diagIds hg)
  have hstart : startDiag s = diagOver (setJob .running 0 (diagReady s)) := rfl
  rw [hstart]
  generalize setJob .running 0 (diagReady s) = u at hdue ⊢
  unfold diagOver
  rw [if_neg (by simp [hdue, hne])]

/-- A diagnostic recipe runs its segments in PROOFING. -/
theorem startDiag_runs {s : State} (hsegs : s.segments ≠ []) (hdev : s.dev.st = .proofing) :
    (startDiag s).job.st = .running ∧ (startDiag s).dev = s.dev ∧ (startDiag s).bnd.order = 5
    ∧ (∀ g ∈ s.segments, g.id ∈ (startDiag s).eval.dueSegs) ∧ (startDiag s).mm.mem = s.mm.mem
    ∧ (startDiag s).regs = s.regs := by
  have hdue : (setJob .running 0 (diagReady s)).eval.dueSegs = s.diagIds := setJob_live_dueSegs
  have hstands : (setJob .running 0 (diagReady s)).dev = s.dev := setJob_dev_of_proofing (s := diagReady s) hdev
  rw [startDiag_eq hsegs]
  exact ⟨setJob_job_st .., hstands, congrArg Boundary.order (setJob_bnd ..), fun g hg => by rw [hdue]; exact mem_diagIds hg,
    congrArg MemSt.mem (setJob_mm ..), setJob_regs ..⟩

/-! ## The command -/

section
variable {i : Install} {s : State} (hst : s.job.st = .loaded)
include hst

theorem startCommand_diag (hdiag : s.isDiag = true) (hdev : s.dev.st = .proofing) : startCommand i s = (OK, startDiag s) := by
  unfold startCommand
  rw [if_neg (by simp [hst]), if_pos hdiag, if_pos hdev]

theorem startCommand_job (hdiag : s.isDiag = false) (hdev : s.dev.st = .ready) (hns : i.nsOk = true) :
    startCommand i s = (OK, startJob i s) := by
  unfold startCommand
  rw [if_neg (by simp [hst]), if_neg (by simp [hdiag]), if_neg (by simp [hdev]), if_neg (by simp [hns])]

theorem startCommand_space (hdiag : s.isDiag = false) (hdev : s.dev.st = .ready) (hns : i.nsOk = false) :
    startCommand i s = (DESCRIPTOR_INVALID, s) := by
  unfold startCommand
  rw [if_neg (by simp [hst]), if_neg (by simp [hdiag]), if_neg (by simp [hdev]), if_pos (by simp [hns])]

theorem startCommand_busy (h : (s.isDiag = false ∧ s.dev.st ≠ .ready) ∨ (s.isDiag = true ∧ s.dev.st ≠ .proofing)) :
    startCommand i s = (BUSY, s) := by
  unfold startCommand
  rw [if_neg (by simp [hst])]
  rcases h with ⟨hdiag, hdev⟩ | ⟨hdiag, hdev⟩
  · rw [if_neg (by simp [hdiag]), if_pos (by simp [hdev])]
  · rw [if_pos hdiag, if_neg hdev]

end

theorem Leaves.halted {h : EdpHdr} {code : Nat} {s u t : State} (hl : Leaves h u t) (hu : Halted code s u) : Halted code s t := by
  obtain ⟨hsec, hjob, _, _, _, hrecipe, hregs⟩ := hl.fields
  have hbnd : t.bnd = u.bnd := by
    obtain ⟨⟨hbody, _⟩, _⟩ := hl
    exact (congrArg State.bnd hbody :)
  obtain ⟨h1, h2, h3, h4, h5, h6, h7, h8, h9⟩ := hu
  exact ⟨by rw [hjob]; exact h1, by rw [hjob]; exact h2, by rw [hjob]; exact h3, hbnd.trans h4, hl.groups.trans h5,
    by rw [hjob]; exact h6, by rw [hrecipe]; exact h7, hregs.trans h8, hsec.trans h9⟩

/-- Settles O12: START runs the job from the first slot after its source, or halts it, or runs the segments of a diagnostic recipe. -/
theorem startRunsTheJob : Obligations.StartRunsTheJob := by
  unfold Obligations.StartRunsTheJob
  intro h x s i w hst
  have hsame {t : State} (hl : Leaves h (atRequest h x s) t) : Leaves h s t := (Leaves.of_eq (atRequest_body h x s)).trans hl
  refine ⟨fun src hdiag hdev hns hsrc => ⟨fun hin => ?_, fun hout => ?_⟩, fun hdiag hdev hns hsrc => ?_, fun hdiag hdev hns => ?_,
    fun hdiag hdev hsegs => ?_, fun hbusy => ?_⟩
  · obtain ⟨t, hexec, hack, hleaves⟩ := exec_start i w (startCommand_job (s := atRequest h x s) hst hdiag hdev hns)
    have hruns := startJob_runs (s := atRequest h x s) hst hdev hsrc hin
    generalize startJob i (atRequest h x s) = u at hleaves hruns
    obtain ⟨hsec, hjob, htdev, _, _, hrecipe, hregs⟩ := hleaves.fields
    obtain ⟨⟨hbody, _⟩, _⟩ := hleaves
    have hbnd : t.bnd = u.bnd := (congrArg State.bnd hbody :)
    have heff : t.eff = u.eff := (congrArg State.eff hbody :)
    have hingest : t.ingest = u.ingest := (congrArg State.ingest hbody :)
    have hcoll : t.coll = u.coll := (congrArg State.coll hbody :)
    have hresults : t.results = u.results := (congrArg State.results hbody :)
    exact ⟨t, hexec, hack, by rw [hjob, hruns.st], by rw [htdev, hruns.active], by rw [hjob, hruns.committed],
      by rw [hjob, hruns.step], by rw [hjob, hruns.attempt], by rw [hbnd, hruns.order],
      (congrArg Job.installing hjob).trans hruns.installing, heff.trans hruns.eff, hregs.trans hruns.regs, by rw [hingest, hruns.packStep], by rw [hingest, hruns.cursor],
      by rw [hcoll, hruns.digestSent], hrecipe.trans hruns.recipe, hsec.trans hruns.sec, hresults.trans hruns.results⟩
  · obtain ⟨t, hexec, hack, hleaves⟩ := exec_start i w (startCommand_job (s := atRequest h x s) hst hdiag hdev hns)
    exact ⟨t, hexec, hack, hleaves.halted (startJob_out (s := atRequest h x s) hst hdev hsrc hout)⟩
  · obtain ⟨t, hexec, hack, hleaves⟩ := exec_start i w (startCommand_job (s := atRequest h x s) hst hdiag hdev hns)
    obtain ⟨hhalted, hmem⟩ := startJob_none (s := atRequest h x s) hst hdev hsrc
    obtain ⟨_, _, _, htmem, _, _, _⟩ := hleaves.fields
    exact ⟨t, hexec, hack, hleaves.halted hhalted, htmem.trans hmem⟩
  · obtain ⟨t, hexec, hack, hleaves⟩ := exec_start i w (startCommand_space (s := atRequest h x s) hst hdiag hdev hns)
    exact ⟨t, hexec, hack, hsame hleaves⟩
  · obtain ⟨t, hexec, hack, hleaves⟩ := exec_start i w (startCommand_diag (s := atRequest h x s) hst hdiag hdev)
    obtain ⟨h1, h2, h3, h4, h5, h6⟩ := startDiag_runs (s := atRequest h x s) hsegs hdev
    obtain ⟨_, hjob, htdev, hmem, _, _, hregs⟩ := hleaves.fields
    obtain ⟨⟨hbody, _⟩, _⟩ := hleaves
    have hbnd : t.bnd = (startDiag (atRequest h x s)).bnd := (congrArg State.bnd hbody :)
    have heval : t.eval = (startDiag (atRequest h x s)).eval := (congrArg State.eval hbody :)
    exact ⟨t, hexec, hack, by rw [hjob, h1], htdev.trans h2, by rw [hbnd, h3], fun g hg => by rw [heval]; exact h4 g hg,
      hmem.trans h5, hregs.trans h6⟩
  · obtain ⟨t, hexec, hack, hleaves⟩ := exec_start i w (startCommand_busy (s := atRequest h x s) hst hbusy)
    exact ⟨t, hexec, hack, hsame hleaves⟩

end Sys2Proof.Machine
end
section
/-! LOAD of a recipe (R372, R373, R429). -/

namespace Sys2Proof.Machine

/-! ## A recipe that passes its checks -/

/-- All but what a LOAD writes of memory, cores and roots. -/
def State.besideLoad (s : State) : State := { s.besideSram with mm := MemSt.reset }

theorem besideLoad_of_sram {s t : State} (h : t.besideSram = s.besideSram) : t.besideLoad = s.besideLoad := by
  unfold State.besideLoad
  rw [h]

theorem Reaches.besideLoad {s t : State} (h : Reaches s t) : t.besideLoad = s.besideLoad := by
  rw [h.rest]
  rfl

/-- A fold of steps that may fail keeps what each of them keeps. -/
theorem field_of_binds {α β : Type} (f : State → β) {g : α → State → Option State}
    (hg : ∀ x s t, g x s = some t → f t = f s) (l : List α) {o : Option State} {b : β} (ho : ∀ u, o = some u → f u = b)
    {t : State} (h : l.foldl (fun o x => o.bind (g x)) o = some t) : f t = b := by
  induction l generalizing o with
  | nil => exact ho t h
  | cons x l ih =>
    refine ih (fun u hu => ?_) h
    obtain ⟨v, hv, hgv⟩ := Option.bind_eq_some_iff.mp hu
    exact (hg x v u hgv).trans (ho v hv)

theorem mapPage_besideLoad (r : Region) (vpn : Nat) (s t : State) (h : mapPage r vpn s = some t) : t.besideLoad = s.besideLoad := by
  unfold mapPage at h
  split at h
  · injection h with h; rw [h]
  · split at h
    · cases h
    · dsimp only at h
      split at h <;> injection h with h <;> rw [← h] <;> rfl

theorem mapRegion_besideLoad (r : Region) (s t : State) (h : mapRegion r s = some t) : t.besideLoad = s.besideLoad := by
  unfold mapRegion at h
  exact field_of_binds State.besideLoad (g := fun i => mapPage r (r.base / pageSize + i))
    (fun i => mapPage_besideLoad r (r.base / pageSize + i)) _ (fun u hu => by injection hu with hu; rw [hu]) h

theorem mapAll_besideLoad {s t : State} (h : mapAll s = some t) : t.besideLoad = s.besideLoad :=
  field_of_binds State.besideLoad mapRegion_besideLoad _ (fun u hu => by injection hu with hu; rw [hu]) h

/-- Resident regions mapped where main memory is up. -/
def pagesMapped (s : State) : State := if s.mm.up then (mapAll s).getD s else s

theorem pagesMapped_besideLoad (s : State) : (pagesMapped s).besideLoad = s.besideLoad := by
  unfold pagesMapped
  split
  · cases h : mapAll s with
    | none => rfl
    | some t => exact mapAll_besideLoad h
  · rfl

theorem writeRoutes_reaches (s : State) : Reaches s (writeRoutes s) := by
  unfold writeRoutes
  dsimp only
  split
  · exact Reaches.refl s
  · exact vmStore_reaches ..

theorem writeRecords_reaches (s : State) : Reaches s (writeRecords s) := by
  refine Reaches.fold (fun s p => ?_) _ s
  dsimp only
  split
  · exact (vmStore_reaches ..).trans ((vmStore_reaches ..).trans (vmStore_reaches ..))
  · exact vmStore_reaches ..

/-- What the recipe writes of memory, descriptor memories and roots. -/
def recipeWritten (s : State) : State := writeDescMem (rebuildStarters (writeRecords (writeRoutes s)))

theorem recipeWritten_besideLoad (s : State) : (recipeWritten s).besideLoad = s.besideLoad := by
  have hsram := (writeDescMem_besideSram (rebuildStarters (writeRecords (writeRoutes s)))).trans (rebuildStarters_besideSram _)
  exact (besideLoad_of_sram hsram).trans ((writeRoutes_reaches s).trans (writeRecords_reaches _)).besideLoad

theorem loadRecipe_eq (c : Container) (s : State) :
    loadRecipe c s = setJob .loaded 0 (recipeWritten (pagesMapped (freshRecipe c s))) := rfl

/-- A job that is not live stays so, and its device's state stands. -/
theorem setJob_dev_of_dead {j : JobState} {c : Nat} {s : State} (hj : j.live = false) (hst : s.job.st.live = false) :
    (setJob j c s).dev = s.dev := by
  unfold setJob
  split
  · rfl
  · dsimp only
    unfold followJob
    rw [if_neg (by simp [hj]), if_neg (by simp [hst]), raiseEvent_dev]
    rfl

/-- A recipe has been loaded: the job stands LOADED before its first step, with nothing of the job before. -/
structure RecipeLoaded (c : Container) (s t : State) : Prop where
  st : t.job.st = .loaded
  committed : t.job.committed = 0
  loaded : t.recipe.loaded = some c
  results : t.results = []
  history : t.history = []
  regs : t.regs = s.regs
  sec : t.sec = s.sec
  dev : t.dev = s.dev
  pins : t.pins = s.pins

theorem loadRecipe_loaded (c : Container) {s : State} (hst : s.job.st.live = false) : RecipeLoaded c s (loadRecipe c s) := by
  have hbeside : (recipeWritten (pagesMapped (freshRecipe c s))).besideLoad = (freshRecipe c s).besideLoad :=
    (recipeWritten_besideLoad _).trans (pagesMapped_besideLoad _)
  rw [loadRecipe_eq]
  generalize recipeWritten (pagesMapped (freshRecipe c s)) = u at hbeside ⊢
  have hjob : u.job = (freshRecipe c s).job := (congrArg State.job hbeside :)
  have hrecipe : u.recipe = (freshRecipe c s).recipe := (congrArg State.recipe hbeside :)
  have hresults : u.results = [] := (congrArg State.results hbeside :)
  have hhistory : u.history = [] := (congrArg State.history hbeside :)
  have hregs : u.regs = s.regs := (congrArg State.regs hbeside :)
  have hsec : u.sec = s.sec := (congrArg State.sec hbeside :)
  have hdev : u.dev = s.dev := (congrArg State.dev hbeside :)
  have hpins : u.pins = s.pins := (congrArg State.pins hbeside :)
  have hdead : u.job.st.live = false := by rw [hjob]; exact hst
  have hcommitted : (setJob .loaded 0 u).job.committed = u.job.committed := (congrArg Job.committed (setJob_job_eq .loaded 0 u) :)
  exact {
    st := setJob_job_st ..
    committed := hcommitted.trans (by rw [hjob]; rfl)
    loaded := (congrArg Recipe.loaded (setJob_recipe ..)).trans (by rw [hrecipe]; rfl)
    results := (setJob_results ..).trans hresults
    history := (setJob_history ..).trans hhistory
    regs := (setJob_regs ..).trans hregs
    sec := (setJob_sec ..).trans hsec
    dev := (setJob_dev_of_dead rfl hdead).trans hdev
    pins := (setJob_pins ..).trans hpins }

/-! ## A recipe that fails a check -/

/-- The outcome of a LOAD stands beside its record in the log. -/
structure LoadRefused (code : Nat) (s t : State) : Prop where
  recipe : t.recipe = { s.recipe with outcome := code }
  st : t.job.st = s.job.st
  results : t.results = s.results
  history : t.history = s.history
  mm : t.mm = s.mm
  cores : t.cores = s.cores
  leaven : t.leaven = s.leaven
  regs : t.regs = s.regs
  sec : t.sec = s.sec
  dev : t.dev = s.dev
  pins : t.pins = s.pins

theorem setOutcome_refused (code : Nat) (d : List Nat) (s : State) : LoadRefused code s (setOutcome code (logPlain code d s)) where
  recipe := congrArg (fun r : Recipe => { r with outcome := code }) (logAdd_recipe ..)
  st := logAdd_job_st ..
  results := logAdd_results ..
  history := logAdd_history ..
  mm := logAdd_mm ..
  cores := logAdd_cores ..
  leaven := logAdd_leaven ..
  regs := logAdd_regs ..
  sec := logAdd_sec ..
  dev := logAdd_dev ..
  pins := logAdd_pins ..

theorem runLoad_refused {c : Container} {s : State} {code sect : Nat} {w : Option (List Nat)}
    (h : loadFailure s c = some (code, w, sect)) : LoadRefused code s (runLoad c s) := by
  unfold runLoad
  rw [h]
  cases w with
  | some w => exact setOutcome_refused code w s
  | none =>
    have hrefused := setOutcome_refused code [sect, (Config.freeWord (takeFree s).1).toNat] (takeFree s).2
    exact ⟨hrefused.recipe, hrefused.st, hrefused.results, hrefused.history, hrefused.mm, hrefused.cores, hrefused.leaven,
      hrefused.regs, hrefused.sec, hrefused.dev, hrefused.pins⟩

theorem runLoad_loaded {c : Container} {s : State} (h : loadFailure s c = none) (hkind : contKind c = 1)
    (hst : s.job.st.live = false) : RecipeLoaded c s (runLoad c s) ∧ (runLoad c s).recipe.outcome = OK := by
  have hrun : runLoad c s = setOutcome OK (loadRecipe c s) := by
    unfold runLoad
    rw [h]
    dsimp only
    rw [if_neg (by rw [hkind]; decide)]
  have hloaded := loadRecipe_loaded c hst
  rw [hrun]
  generalize loadRecipe c s = u at hloaded ⊢
  obtain ⟨h1, h2, h3, h4, h5, h6, h7, h8, h9⟩ := hloaded
  exact ⟨⟨h1, h2, h3, h4, h5, h6, h7, h8, h9⟩, rfl⟩

/-! ## The command -/

theorem loadCommand_rebuilding {s : State} (h : s.fab.rebuilding = true) : loadCommand s = (BUSY, s) := by
  unfold loadCommand
  rw [if_pos (by simp [h])]

section
variable {s : State} (hst : s.job.st.live = false)
include hst

theorem loadCommand_unstaged (h : s.fab.rebuilding = false) (hstaged : s.recipe.staged = none) :
    loadCommand s = (NOT_READY, s) := by
  unfold loadCommand
  rw [if_neg (by simp [h, hst]), hstaged]

theorem loadCommand_takes {c : Container} (h : s.fab.rebuilding = false) (hstaged : s.recipe.staged = some c)
    (hkind : contKind c = 1) (hdev : s.dev.st = .ready) : loadCommand s = (OK, runLoad c s) := by
  unfold loadCommand
  rw [if_neg (by simp [h, hst]), hstaged]
  dsimp only
  rw [if_neg (by simp [hdev]), if_neg (by simp [hdev]), if_neg (by simp [hkind])]

end

theorem loadReportsItsOutcome_claim : Claims.LoadReportsItsOutcome := by
  intro h x s c w hst hdev hfab hkind hstaged
  obtain ⟨hack, hleaves⟩ := jobCommand_post (v := 1) (by omega) loadCommand w
    (loadCommand_takes (s := atRequest h x s) hst hfab hstaged hkind hdev)
  refine ⟨_, rfl, hack, ?_⟩
  obtain ⟨hsec, hjob, htdev, _, _, hrecipe, hregs⟩ := hleaves.fields
  have hpins := hleaves.pins
  have hresults := hleaves.results
  obtain ⟨⟨hbody, _⟩, _⟩ := hleaves
  generalize codeCommand h 0x5001 1 1 loadCommand s = t at *
  cases hfail : loadFailure (atRequest h x s) c with
  | none =>
    obtain ⟨hloaded, houtcome⟩ := runLoad_loaded hfail hkind (show (atRequest h x s).job.st.live = false from hst)
    generalize runLoad c (atRequest h x s) = u at *
    have hhistory : t.history = u.history := (congrArg State.history hbody :)
    exact ⟨hregs.trans hloaded.regs, hsec.trans hloaded.sec, htdev.trans hloaded.dev, hpins.trans hloaded.pins,
      by rw [hrecipe, houtcome], by rw [hrecipe, hloaded.loaded], by rw [hjob, hloaded.st], by rw [hjob, hloaded.committed],
      hresults.trans hloaded.results, hhistory.trans hloaded.history⟩
  | some f =>
    obtain ⟨code, words, sect⟩ := f
    have hrefused := runLoad_refused hfail
    generalize runLoad c (atRequest h x s) = u at *
    have hhistory : t.history = u.history := (congrArg State.history hbody :)
    have hcores : t.cores = u.cores := (congrArg State.cores hbody :)
    have hleaven : t.leaven = u.leaven := (congrArg State.leaven hbody :)
    have hmm : t.mm = { u.mm with holdPages := t.mm.holdPages } :=
      (congrArg (fun v : State => ({ v.mm with holdPages := t.mm.holdPages } : MemSt)) hbody :)
    exact ⟨hregs.trans hrefused.regs, hsec.trans hrefused.sec, htdev.trans hrefused.dev, hpins.trans hrefused.pins,
      hrecipe.trans hrefused.recipe, (congrArg Job.st hjob).trans hrefused.st, hresults.trans hrefused.results,
      hhistory.trans hrefused.history, hmm.trans (congrArg (fun m : MemSt => { m with holdPages := t.mm.holdPages }) hrefused.mm),
      hcores.trans hrefused.cores, hleaven.trans hrefused.leaven⟩

theorem loadNeedsStagedContainer : Claims.LoadNeedsStagedContainer := by
  intro h x s w hst
  exact ⟨fun hfab hstaged => ⟨_, rfl, jobCommand_refused (v := 1) (by omega) loadCommand w
      (loadCommand_unstaged (s := atRequest h x s) hst hfab hstaged)⟩,
    fun hfab => ⟨_, rfl, jobCommand_refused (v := 1) (by omega) loadCommand w
      (loadCommand_rebuilding (s := atRequest h x s) hfab)⟩⟩

/-- Settles O11: a failing check leaves its code beside a log record, a recipe that passes stands loaded, and nothing staged or a
fabric that reconfigures refuses. -/
theorem loadReportsItsOutcome : Obligations.LoadReportsItsOutcome :=
  ⟨loadReportsItsOutcome_claim, loadNeedsStagedContainer⟩

end Sys2Proof.Machine
end
